-- ==== Sys2Proof/Word.lean ====
section
/-! DEFINITION. The words of the module (00 R12) and the sparse table type every numbered resource is held in. -/

namespace Sys2Proof

/-- One byte. -/
abbrev Byte := BitVec 8

/-- One 64-bit register or packet word. -/
abbrev Word := BitVec 64

/-- A sparse table: entries by number, numbers strictly rising (`Tbl.set` keeps this). -/
abbrev Tbl (α : Type) := List (Nat × α)

/-- A byte memory: the listed bytes, addresses strictly rising, none of them 0; an unlisted byte reads as 0. -/
abbrev Mem := List (Nat × BitVec 8)

end Sys2Proof
end

