-- ==== Sys2Proof/Syntax.lean ====
section
/-! DEFINITION. The commands of the block: one constructor per row of spec/opcode_table.json, with its operands. -/

namespace Sys2Proof

/-- The eight little-endian 64-bit words of a packet header (02 R57, Table 2.4 and Table 2.11), raw. -/
structure Hdr where
  w0 : Word
  w1 : Word
  w2 : Word
  w3 : Word
  w4 : Word
  w5 : Word
  w6 : Word
  w7 : Word
deriving DecidableEq, Repr

/-- A register write as it arrives (16 R551): the whole register, or one 32-bit half of it. -/
inductive Acc
  | full (v : Word)
  | lo (v : BitVec 32)
  | hi (v : BitVec 32)
deriving DecidableEq, Repr

/-- Who reaches a register (16 R550): function `f` = port × 17 + n (n = 0 the physical function, n = 1 to 16 the
virtual functions), or the management port. -/
inductive View
  | fn (f : Nat)
  | mp
deriving DecidableEq, Repr

/-- A unit that is power-gated and woken on its own (01 Table 1.7). -/
inductive GUnit
  | cluster (n : Nat)
  | stack (n : Nat)
  | pivot (n : Nat)
  | wicket (n : Nat)
  | mullion (n : Nat)
deriving DecidableEq, Repr

/-- A slow-notice (10 R402): origin rank, notice number, EXT in µs, and the PLAN field of its flit's header, the plan whose team it floods
(R403). -/
structure Notice where
  origin : Nat
  seq    : Nat
  ext    : Nat
  plan   : Nat
deriving DecidableEq, Repr

/-- What the peer of a link reports in NEGOTIATE (10 R367): digest, level, and, once it has joined, its group and rank. -/
structure PeerId where
  digest : Word
  level  : Nat
  joined : Bool
  group  : BitVec 32
  rank   : Nat
deriving DecidableEq, Repr

/-- A Moliber flit (10 Table 10.4): header fields and payload. `row`, `entry` and `slot` are what a TYPE 1 flit carries with a
token row (10 R398, R399); `counts` are the per-slot route counts a sender sends first; `turned`: a router has sent it the other way round a
ring once (R374). -/
structure Flit where
  dst     : Nat
  src     : Nat
  type    : Nat
  vc      : Nat
  epoch   : Nat
  plan    : Nat
  cseq    : Nat
  step    : Nat
  offset  : Nat
  lseq    : Nat
  row     : Nat
  entry   : Nat
  slot    : Nat
  ret     : Bool
  counts  : List Nat
  turned  : Bool
  payload : List Byte
deriving DecidableEq, Repr

/-- What arrives on a link (10 R370): a flit, the peer's acknowledgement of everything up to a link sequence number, or both. -/
structure LinkIn where
  flit : Option Flit
  ack  : Option Nat
deriving DecidableEq, Repr

/-- A JOIN_ANNOUNCE (10 R379): who announces, its level, message version, group, and its topology (sizes). A member that
announces to a successor of a lost lintel (R382) sends with it its member table (live ranks), its step reports
(rank, casement, step, epoch) and its placement state (casement, FROM_STEP, READY). -/
structure AnnounceMsg where
  rank    : Nat
  level   : Nat
  mver    : Nat
  group   : BitVec 32
  sizes   : List Nat
  live    : List Nat
  reports : List (Nat × Nat × Nat × Nat)
  staged  : List (Nat × Nat × Bool)
deriving DecidableEq, Repr

/-- One step of a plan on this member (10 R390): to whom it sends which blocks, and what it receives and whether it reduces it. Offsets and
lengths count blocks of the collective's buffer; a rank of its own means nothing to send, or to receive. `root` is the ROOT the step serves
in BROADCAST and GATHER; `ports` are those over which the step's data leaves. -/
structure PlanStep where
  root    : Nat
  sendTo  : Nat
  sendOff : Nat
  sendLen : Nat
  recvFrom : Nat
  recvOff : Nat
  recvLen : Nat
  reduce  : Bool
  ports   : List Nat
deriving DecidableEq, Repr

/-- A plan as the lintel publishes it (10 R390): handle, generation, kind (0 to 7 in the order of HANDLES, Table 10.6), team, level,
member ranks ascending, the casements that may use it, and its steps; `closed`: its grace period is over (R391). -/
structure Plan where
  handle  : Nat
  gen     : Nat
  kind    : Nat
  team    : Nat
  level   : Nat
  ranks   : List Nat
  cases   : BitVec 16
  steps   : List PlanStep
  usable  : Bool
  retiring : Bool
  closed  : Bool
deriving DecidableEq, Repr

/-- What GROUP_COMMIT and PLAN_PUBLISH carry (10 R379, R391): level, message version, lintel, generation, the plans, and the level of each
member as it announced it. -/
structure CommitMsg where
  level  : Nat
  mver   : Nat
  lintel : Nat
  gen    : Nat
  team   : Nat
  plans  : List Plan
  levels : List (Nat × Nat)
deriving DecidableEq, Repr

/-- The load of an expert that moves here (10 Table 10.13): its local slot, where the slot lies, and the expert's bytes (log 39). -/
structure ExpertLoad where
  slot  : Nat
  addr  : Nat
  bytes : List Byte
deriving DecidableEq, Repr

/-- PLACE_STAGE (10 Table 10.13): casement, the new EPOCH, the whole new placement (entries of 08 Table 8.3 in table order), and the experts
that move to this member. -/
structure PlaceMsg where
  cas     : Nat
  epoch   : Nat
  entries : List (BitVec 32)
  loads   : List ExpertLoad
deriving DecidableEq, Repr

/-- What bring-up of a far port finds (09 R352, R353): trained within the subset, Memory Active, capacity in 256 MiB units, speed and
width codes. -/
structure Expander where
  trained : Bool
  active  : Bool
  cap     : Nat
  speed   : Nat
  width   : Nat
deriving DecidableEq, Repr

/-- The commands. `q` names a queue (function admin queue f, or 64 + context × 4 + queue), `h` the packet header it fetches, `pl` its
inline payload slots; `cl` a physical cluster, `w` an instruction word, `uid` an engine command of that core; `f` a function,
`a` a register write; `r` a run; `st`, `bs` a stack and bank set; `p` a port or firmware processor. -/
inductive Instr
  | submissionDoorbell (f off : Nat) (a : Acc)
  | completionDoorbell (f off : Nat) (a : Acc)
  | unknownOpcode (q : Nat) (h : Hdr) (pl : List Byte)
  | nop (q : Nat) (h : Hdr) (pl : List Byte)
  | ctxCreate (q : Nat) (h : Hdr) (pl : List Byte)
  | ctxDestroy (q : Nat) (h : Hdr) (pl : List Byte)
  | queueCreate (q : Nat) (h : Hdr) (pl : List Byte)
  | queueDestroy (q : Nat) (h : Hdr) (pl : List Byte)
  | queueResume (q : Nat) (h : Hdr) (pl : List Byte)
  | caseAssign (q : Nat) (h : Hdr) (pl : List Byte)
  | caseRelease (q : Nat) (h : Hdr) (pl : List Byte)
  | ctxMigrate (q : Nat) (h : Hdr) (pl : List Byte)
  | ctxPriority (q : Nat) (h : Hdr) (pl : List Byte)
  | memAlloc (q : Nat) (h : Hdr) (pl : List Byte)
  | memFree (q : Nat) (h : Hdr) (pl : List Byte)
  | memMapHost (q : Nat) (h : Hdr) (pl : List Byte)
  | memFence (q : Nat) (h : Hdr) (pl : List Byte)
  | memCopy (q : Nat) (h : Hdr) (pl : List Byte)
  | memFill (q : Nat) (h : Hdr) (pl : List Byte)
  | descCreate (q : Nat) (h : Hdr) (pl : List Byte)
  | descDestroy (q : Nat) (h : Hdr) (pl : List Byte)
  | progLoad (q : Nat) (h : Hdr) (pl : List Byte)
  | progRun (q : Nat) (h : Hdr) (pl : List Byte)
  | progRunCompletion (r : Nat)
  | progUnload (q : Nat) (h : Hdr) (pl : List Byte)
  | skiplogRead (q : Nat) (h : Hdr) (pl : List Byte)
  | latchAlloc (q : Nat) (h : Hdr) (pl : List Byte)
  | latchFree (q : Nat) (h : Hdr) (pl : List Byte)
  | latchSignal (q : Nat) (h : Hdr) (pl : List Byte)
  | latchWait (q : Nat) (h : Hdr) (pl : List Byte)
  | latchPoison (q : Nat) (h : Hdr) (pl : List Byte)
  | latchRead (q : Nat) (h : Hdr) (pl : List Byte)
  | latchWaitEval (l : Nat)
  | headerLatchSignal (q uid : Nat)
  | completionRecordPost (q : Nat)
  | seqOpen (q : Nat) (h : Hdr) (pl : List Byte)
  | seqCommit (q : Nat) (h : Hdr) (pl : List Byte)
  | seqDrop (q : Nat) (h : Hdr) (pl : List Byte)
  | seqClose (q : Nat) (h : Hdr) (pl : List Byte)
  | pageFreeDeferred (pmi : Nat)
  | reqSubmit (q : Nat) (h : Hdr) (pl : List Byte)
  | reqCancel (q : Nat) (h : Hdr) (pl : List Byte)
  | reqPark (q : Nat) (h : Hdr) (pl : List Byte)
  | reqResume (q : Nat) (h : Hdr) (pl : List Byte)
  | scrubRange (q : Nat) (h : Hdr) (pl : List Byte)
  | selftest (q : Nat) (h : Hdr) (pl : List Byte)
  | eccTest (q : Nat) (h : Hdr) (pl : List Byte)
  | linkCalib (q : Nat) (h : Hdr) (pl : List Byte)
  | fabJoin (q : Nat) (h : Hdr) (pl : List Byte)
  | fabLeave (q : Nat) (h : Hdr) (pl : List Byte)
  | fabStatus (q : Nat) (h : Hdr) (pl : List Byte)
  | pwrSetLimit (q : Nat) (h : Hdr) (pl : List Byte)
  | pwrRead (q : Nat) (h : Hdr) (pl : List Byte)
  | add (cl : Nat) (w : Word)
  | sub (cl : Nat) (w : Word)
  | mul (cl : Nat) (w : Word)
  | shl (cl : Nat) (w : Word)
  | shr (cl : Nat) (w : Word)
  | sra (cl : Nat) (w : Word)
  | andB (cl : Nat) (w : Word)
  | orB (cl : Nat) (w : Word)
  | xorB (cl : Nat) (w : Word)
  | minS (cl : Nat) (w : Word)
  | maxS (cl : Nat) (w : Word)
  | minu (cl : Nat) (w : Word)
  | maxu (cl : Nat) (w : Word)
  | addi (cl : Nat) (w : Word)
  | subi (cl : Nat) (w : Word)
  | muli (cl : Nat) (w : Word)
  | shli (cl : Nat) (w : Word)
  | shri (cl : Nat) (w : Word)
  | srai (cl : Nat) (w : Word)
  | andi (cl : Nat) (w : Word)
  | ori (cl : Nat) (w : Word)
  | xori (cl : Nat) (w : Word)
  | mini (cl : Nat) (w : Word)
  | maxi (cl : Nat) (w : Word)
  | minui (cl : Nat) (w : Word)
  | maxui (cl : Nat) (w : Word)
  | movi (cl : Nat) (w : Word)
  | movhi (cl : Nat) (w : Word)
  | gset (cl : Nat) (w : Word)
  | gnext (cl : Nat) (w : Word)
  | greset (cl : Nat) (w : Word)
  | loopOp (cl : Nat) (w : Word)
  | cmp (cl : Nat) (w : Word)
  | cmpi (cl : Nat) (w : Word)
  | pand (cl : Nat) (w : Word)
  | por (cl : Nat) (w : Word)
  | pnot (cl : Nat) (w : Word)
  | br (cl : Nat) (w : Word)
  | brl (cl : Nat) (w : Word)
  | brlResolve (cl : Nat)
  | ldl (cl : Nat) (w : Word)
  | stl (cl : Nat) (w : Word)
  | lds (cl : Nat) (w : Word)
  | sts (cl : Nat) (w : Word)
  | push (cl : Nat) (w : Word)
  | waitl (cl : Nat) (w : Word)
  | sigl (cl : Nat) (w : Word)
  | siglSignal (cl uid : Nat)
  | poisl (cl : Nat) (w : Word)
  | hinge (cl : Nat) (w : Word)
  | endProgram (cl : Nat) (w : Word)
  | illegalOp (cl : Nat) (w : Word)
  | mma (cl uid : Nat)
  | drain (cl uid : Nat)
  | tnop (cl uid : Nat)
  | move (cl uid : Nat)
  | prefetch (cl uid : Nat)
  | loadop (cl uid : Nat)
  | gemv (cl uid : Nat)
  | ewise (cl uid : Nat)
  | norm (cl uid : Nat)
  | deq (cl uid : Nat)
  | topk (cl uid : Nat)
  | sqGather (cl uid : Nat)
  | smxArm (cl uid : Nat)
  | smxNorm (cl uid : Nat)
  | ucall (cl uid : Nat)
  | kvScore (cl uid : Nat)
  | kvApply (cl uid : Nat)
  | smxMerge (cl uid : Nat)
  | gate (cl uid : Nat)
  | combine (cl uid : Nat)
  | select (cl uid : Nat)
  | stepRecord (cl uid : Nat)
  | allreduce (cl uid : Nat)
  | reduceScatter (cl uid : Nat)
  | allgather (cl uid : Nat)
  | broadcast (cl uid : Nat)
  | mqGather (cl uid : Nat)
  | dispatch (cl uid : Nat)
  | returnRows (cl uid : Nat)
  | ringShift (cl uid : Nat)
  | barrier (cl uid : Nat)
  | engineCommandCompletion (cl uid : Nat)
  | runStart 
  | quantumExpiry (r : Nat)
  | hingePointReached (r : Nat)
  | hingeLate (cl : Nat)
  | shutterSave (r cl : Nat)
  | runRestore (r : Nat)
  | migrationDrainTimeout (c : Nat)
  | burstYield (st bs : Nat)
  | refreshDue (st bs : Nat)
  | forcedRefresh (st bs : Nat)
  | opportunisticRefresh (st bs : Nat)
  | refreshComplete (st bs : Nat)
  | hostApertureRead (f win off len : Nat)
  | hostApertureWrite (f win off : Nat) (bs : List Byte)
  | atomicopRequest (f win off : Nat)
  | letterboxLineDrain (st line : Nat)
  | mergeEntryDrain (st cw : Nat)
  | patrolRow (st : Nat)
  | eccBucketLeak (st : Nat)
  | zeroFillDone (i : Nat)
  | unitGate (u : GUnit)
  | unitWakeDone (u : GUnit)
  | microcodeSwap (leaf fn : Nat)
  | sensorSample (rs : List (Nat × Int)) (faulty : BitVec 4)
  | thermalTrip (site : Nat)
  | tripClear (v : View) (a : Acc)
  | thermFaultClear (v : View) (a : Acc)
  | diodeCalibration (site : Nat)
  | controlStep (draw fixed : Nat) (load : List Nat)
  | thermalStepRelease (u : Nat)
  | floorEngage (avg : Nat)
  | floorRelease (avg : Nat)
  | slowNoticeRenew 
  | slowNoticeReceive (n : Notice)
  | slowNoticeLapse (origin : Nat)
  | linkLightOn (p lanes : Nat)
  | linkLightLost (p lanes : Nat)
  | lanesLocked (p : Nat)
  | negotiationComplete (p : Nat) (peer : PeerId)
  | laneFail (p lane : Nat)
  | flitReceive (p : Nat) (m : LinkIn)
  | negativeAck (p seq : Nat)
  | replayTimeout (p : Nat)
  | laneCalibration (p lane : Nat)
  | calibrationPeriod (leaf : Nat)
  | stepTimeout (uid : Nat)
  | joinAnnounce (m : AnnounceMsg)
  | joinAnnounceRepeat 
  | joinRefuse (ver : Bool)
  | groupCommit (m : CommitMsg)
  | groupAbort 
  | formationTimeout 
  | lintelBeatSend 
  | lintelBeat 
  | lintelLost 
  | lintelAnnounceTimeout 
  | peerLostReport (src lost : Nat)
  | memberLost (rank : Nat)
  | leave (rank : Nat)
  | planPublish (m : CommitMsg)
  | planGraceExpiry (gen : Nat)
  | placeStage (m : PlaceMsg)
  | placeStaged (rank cas cur : Nat)
  | placeStagedTimeout (cas : Nat)
  | placeCommit (cas fromStep : Nat)
  | placeAbort (cas : Nat)
  | stepReport (cas : Nat)
  | placeRelease (cas : Nat)
  | powerShare (watts : Nat)
  | powerShareSend 
  | stepBoundary (cas : Nat)
  | parkStep (j : Nat)
  | restoreStep (j : Nat)
  | ttlSweep (leaf : Nat)
  | farDirectoryWalk 
  | farPortBringup (p : Nat) (x : Expander)
  | farLinkDown (p : Nat)
  | farLinkUp (p : Nat)
  | expanderEvent (p kind : Nat)
  | fwVersion (f p : Nat)
  | traceSet (f p : Nat)
  | attest (f p : Nat)
  | certRead (f p : Nat)
  | fwStage (f p : Nat)
  | fwActivate (f p : Nat)
  | fwCommit (f p : Nat)
  | fwQuery (f p : Nat)
  | cfgWrite (f p : Nat)
  | fwRestart (f p : Nat)
  | calibPeriod (f p : Nat)
  | svcConfig (f p : Nat)
  | parkShare (f p : Nat)
  | ucodeQuery (f p : Nat)
  | lvrStatus (f p : Nat)
  | thermCfg (f p : Nat)
  | gateCfg (f p : Nat)
  | groupBudget (f p : Nat)
  | floorCfg (f p : Nat)
  | unknownMtype (f p : Nat)
  | mailboxWorkDone (flashOk : Bool)
  | trialWindowEnd 
  | wdogExpire (p : Nat) (pc : Word)
  | fatalExc (p : Nat) (cause pc : Word)
  | windowViol (p : Nat) (addr rights : Word)
  | restartDone (p : Nat)
  | plannedRestart (p : Nat)
  | romBoot 
  | firstStageRelease 
  | stackInService (st : Nat)
  | stackTrainingFail (st : Nat)
  | coldResetAssert 
  | coldResetRelease 
  | pwrGoodLow 
  | perstAssert (port : Nat)
  | hostLinkLoss (port : Nat)
  | functionLevelReset (f : Nat)
  | caseRst (v : View) (a : Acc)
  | devRst (v : View) (a : Acc)
  | adminQueueEnable (f : Nat) (a : Acc)
  | adminQueueDisable (f : Nat) (a : Acc)
  | adminQueueDrained (f : Nat)
  | apertureWindowWrite (f win : Nat) (a : Acc)
  | compatLevelWrite (v : View) (a : Acc)
  | eccCeCfgWrite (v : View) (a : Acc)
  | eccCeClr (v : View) (a : Acc)
  | registerWrite (v : View) (off : Nat) (a : Acc)
  | mgmtRegisterRead (off : Nat) (pecOk : Bool)
  | mgmtRegisterWrite (off : Nat) (v : Word) (pecOk : Bool)
  | mgmtAccessDone 
  | mgmtResultRead 
  | mgmtAlertResponse 
  | idcode 
  | bypass 
  | samplePreload 
  | extest 
  | extestPulse 
  | extestTrain 
  | testLogicReset 
  | perstDeassert (port : Nat)
  | leaveAcknowledged 
  | lostLintelAnnouncement (m : AnnounceMsg)
  | lintelStepReport (rank cas step epoch want : Nat)
  | raiseRequest (src level : Nat)
  | managementMessageRepeat (i : Nat)
  | selftestDone (cas : Nat) (res : List (Nat × Nat × Nat × Nat))
  | resetComplete (i : Nat)
deriving DecidableEq, Repr

end Sys2Proof
end

