-- ==== Sys2Proof/Config.lean ====
section
/-! DEFINITION. What the spec leaves open: uninterpreted constants. Nothing can evaluate them, so a theorem holds whatever they are. -/

namespace Sys2Proof.Config

/-- Free byte number `i` of free value `k` (log 8): contents the spec calls undefined. -/
opaque freeByte (k i : Nat) : BitVec 8

/-- Free word number `i` of free value `k` (log 8). -/
opaque freeWord (k i : Nat) : BitVec 64

/-- The estimate that RESULT carries with DEFERRED (02 Table 2.5; log 8). -/
opaque estimateUs (k : Nat) : Nat

/-- Special functions in FP32 at a finite operand for which 05 R194 states no exact result (log 9). -/
opaque sfExp (x : BitVec 32) : BitVec 32
opaque sfSigmoid (x : BitVec 32) : BitVec 32
opaque sfTanh (x : BitVec 32) : BitVec 32
opaque sfGelu (x : BitVec 32) : BitVec 32
opaque sfRecip (x : BitVec 32) : BitVec 32
opaque sfRsqrt (x : BitVec 32) : BitVec 32

/-- Where a fixed adder tree over `n` terms splits (04 R162, 05 R191; log 10); `unit` tells the trees of tile and Sill unit apart. -/
opaque treeSplit (unit n : Nat) : Nat

/-- Check bytes of a stack code word at address `a` (09 R336: the generator is not given; log 11). -/
opaque eccEncode (a : Nat) (data : List (BitVec 8)) : List (BitVec 8)

/-- The pattern that poisons the check symbols (09 R337), and the syndrome a window read reports (09 R350): neither is given (log 11). -/
opaque poisonPattern : List (BitVec 8)
opaque eccSyndrome (a : Nat) (data check : List (BitVec 8)) : List (BitVec 8)

/-- SHA-256, SLH-DSA verification and signing with the identity key that a seed gives, and the certificate chain that the flash holds from
manufacture (13 R468, R471, R476, R477; log 12). -/
opaque sha256 (bs : List (BitVec 8)) : BitVec 256
opaque slhVerify (pk msg sig : List (BitVec 8)) : Bool
opaque slhSign (seed : BitVec 256) (msg : List (BitVec 8)) : List (BitVec 8)
opaque certChain : List (BitVec 8)

/-- A protection window in its 5-byte compacted form as base, limit and rights, and the windows of 13 Table 13.2, which names what a processor reaches
and no addresses (13 R466, Table 13.4; log 25). -/
opaque windowOf (bs : List (BitVec 8)) : Nat × Nat × BitVec 3
opaque reachOf (proc : Nat) : List (Nat × Nat × BitVec 3)

/-- The routines of a Sill microcode package: number, version and micro-words (05 R179, R180; 13 Table 13.4; log 25). -/
opaque packageOf (bs : List (BitVec 8)) : List (Nat × Nat × List (BitVec 128))

/-- The port of a direction that a flow of source, destination and plan keeps to, by hash (10 R374; log 24). -/
opaque flowHash (src dst plan : Nat) : Nat

/-- The fused identity digest that a device sends in NEGOTIATE (10 R367; 16 FAB_DIGEST). -/
opaque fabDigest : BitVec 64

end Sys2Proof.Config
end

