-- ==== Sys2Proof/Machine/State.lean ====
section
/-! DEFINITION. Everything the spec gives the module to hold, as plain data, and the module right after reset. -/

namespace Sys2Proof.Machine

/-- Why a step stops with a fault. No meaning of this model stops: every error of this hardware is an effect on the state. -/
inductive Fault
  /-- Raised by nothing: kept so that the type is inhabited. Safe. -/
  | none
deriving DecidableEq, Repr

/-- Why a step is refused. -/
inductive Refusal
  /-- Raised by exec for a command that has no meaning yet. Safe. -/
  | notModelled (mnemonic : String)
deriving DecidableEq, Repr

/-- A grade (00 R5-R7, Table 0.2). Of a GX880-S every quadrant of 16 clusters has two fused off: for each of the eight quadrants the first of the
two, and the other among the fifteen that remain. -/
inductive Grade
  | t
  | s (gone : Vector (Fin 16 × Fin 15) 8)
deriving DecidableEq, Repr

/-- The two clusters of a quadrant that a pair names. -/
def gonePair (p : Fin 16 × Fin 15) : Nat × Nat := (p.1.val, if p.2.val < p.1.val then p.2.val else p.2.val + 1)

/-- The fused cluster map of a grade (00 R5, R6). -/
def Grade.clusterEn : Grade → BitVec 128
  | .t => BitVec.allOnes 128
  | .s gone => BitVec.ofBoolListLE ((List.range 128).map (fun n =>
      match gone[n / 16]? with
      | some p => !(n % 16 = (gonePair p).1 || n % 16 = (gonePair p).2)
      | none => true)) |>.setWidth 128

/-- The fused Pivot map of a grade: of a GX880-S channels 15 and 31 are gone (00 R7). -/
def Grade.pivotEn : Grade → BitVec 32
  | .t => BitVec.allOnes 32
  | .s _ => 0x7FFF7FFF

/-- Fuses (16 Table 16.2, Table 16.3; 13 R471, R476). -/
structure Fuse where
  part      : Grade
  stepping  : BitVec 16
  serial    : Word
  digest    : Word
  rootKeys  : List (BitVec 256)
  revoked   : BitVec 4
  seed      : BitVec 256
deriving DecidableEq, Repr

/-- GRADE, CLUSTER_EN and PIVOT_EN of ID_GRADE (16 Table 16.3). -/
def Fuse.grade (f : Fuse) : BitVec 8 := match f.part with | .t => 1 | .s _ => 2
def Fuse.clusterEn (f : Fuse) : BitVec 128 := f.part.clusterEn
def Fuse.pivotEn (f : Fuse) : BitVec 32 := f.part.pivotEn

/-- The instructions of the test port (17 R585). -/
inductive Jtag
  | idcode | bypass | samplePreload | extest | extestPulse | extestTrain
deriving DecidableEq, Repr

/-- Sideband pins (17 Table 17.3) and the test port. -/
structure Pins where
  coldRstN   : Bool
  pwrGood    : Bool
  compatSel  : BitVec 2
  flashWpN   : Bool
  perstN     : Tbl Bool
  prsntN     : Tbl Bool
  mgmtAddr   : BitVec 3
  mgmtAlertN : Bool
  tripN      : Bool
  trstN      : Bool
  jtagIr     : Jtag
  jtagReset  : Bool
deriving DecidableEq, Repr

/-- SERVICE of DEV_STATUS (16 Table 16.6). -/
inductive Service
  | boot | ajar | full
deriving DecidableEq, Repr

/-- The reset classes (15 Table 15.4). -/
inductive ResetKind
  | function (f : Nat)
  | casement (c : Nat)
  | device
  | cold
deriving DecidableEq, Repr

/-- Device registers and bring-up conditions (16 DEV_, COMPAT_; 15 R545-R549). -/
structure Dev where
  ctr         : Tbl Word          -- leaf counters (01 R34)
  cycle       : Nat               -- compute-clock cycles passed (04 R149; log 2)
  service     : Service
  stackIn     : BitVec 12
  stackFail   : BitVec 12
  bootLock    : Bool
  recovery    : Bool
  fwFail      : BitVec 6
  rst         : Bool              -- DEV_RST: pending or running
  caseRst     : BitVec 16
  boardId     : BitVec 32
  rack        : BitVec 16
  slot        : BitVec 8
  hzWatch     : Tbl Word
  compatPins  : BitVec 2
  compatLevel : Nat
  compatReq : Nat
  compatPend  : Bool
  inReset     : Bool              -- COLD_RST_N or PWR_GOOD low: clocks stopped (17 R587)
  clockStop   : Bool              -- compute clocks stopped by a trip (14 R513)
  resets      : Tbl ResetKind     -- resets in progress (15 R529)
  mullUp      : BitVec 2          -- Mullion processors running (15 R548)
  farDone     : BitVec 2          -- far ports trained or down (15 R548)
  dirWalked   : Bool
  /-- Far ports whose directory records are still to be walked, and those whose records were last walked before the leaf counters restarted (09 R356,
  R361). -/
  walkDue     : BitVec 2
  coldWalk    : BitVec 2
deriving DecidableEq, Repr

/-- Registers held per function (16). -/
structure Func where
  enable  : Bool
  enabled : Bool
  subBase : Word
  cplBase : Word
  subLog2 : Nat
  cplLog2 : Nat
  vector  : Nat
  dbErr   : Bool                  -- DB_ERR of Q_ADMIN_STATUS while no admin queue runs, or for context doorbells (02 R52)
  apwErr  : Bool
  devEn   : Bool
  eccEn   : Bool
  devVec  : Nat
  eccVec  : Nat
  cause   : BitVec 4
  mbxEn   : Bool
  mbxVec  : Nat
deriving DecidableEq, Repr

/-- DEV_APW_w (16 Table 16.11). VALID follows from ENABLE, CTX and what the function may name (16 R559). -/
structure Apw where
  enable : Bool
  ctx    : Nat
  baseHi : Nat
deriving DecidableEq, Repr

/-- MBX_STATUS_p of one function and the message it holds (16 R563). -/
structure Mbx where
  outstanding : Bool
  done        : Bool
  err         : Bool
  seq         : Nat
deriving DecidableEq, Repr

/-- Queue states (02 Table 2.2); a queue that is gone is absent from the table. -/
inductive QState
  | active | stopped | halted
deriving DecidableEq, Repr

/-- How far a fetched command has come. `done` carries status, DETAIL and RESULT (02 Table 2.5). -/
inductive EPhase
  | waiting
  | running
  | done (status detail result : Nat)
deriving DecidableEq, Repr

/-- A fetched packet whose record or header signal is still to come. `hdr` is the native header (a v3 header translated, 02 R85);
`chk`: it has come to the head of its queue and passed steps 8 and 9 of 02 R589. `deps` are the commands it waits for (MEM_FENCE, 05 R217);
for QUEUE_DESTROY the records it discarded. -/
structure Entry where
  uid    : Nat
  slot   : Nat
  tag    : Nat
  ctxf   : Nat
  opc    : Nat
  hdr    : Hdr
  pl     : List Byte
  irq    : Bool
  ph     : EPhase
  sigged : Bool
  posted : Bool
  chk    : Bool
  met    : Bool                   -- its WAIT, or the wait of a LATCH_WAIT, has been satisfied (03 R129)
  deps   : List Nat
deriving DecidableEq, Repr

/-- A queue pair (02 R45-R56; 16 Table 16.15). `resume` and `destroy` name the admin entry (queue, uid) that waits on this queue,
with the resume slot. -/
structure Queue where
  st      : QState
  admin   : Bool
  fn      : Nat
  ctx     : Nat
  qid     : Nat
  subBase : Word
  cplBase : Word
  subLog2 : Nat
  cplLog2 : Nat
  subDev  : Bool
  cplDev  : Bool
  vector  : Nat
  v3      : Bool
  salvage : Bool
  drain   : Bool
  tail    : Nat
  fetch   : Nat
  head    : Nat
  cplTail : Nat
  phase   : Bool
  dbErr   : Bool
  es      : List Entry
  resume  : Option (Nat × Nat × Nat)
  destroy : Option (Nat × Nat)
deriving DecidableEq, Repr

/-- Context states (11 Table 11.4). -/
inductive CState
  | active | faulted | destroying
deriving DecidableEq, Repr

/-- A migration in progress (11 R434-R437): the admin entry, new map entries, placement tables, and whether the map has moved. -/
structure Mig where
  q       : Nat
  uid     : Nat
  map     : List (Nat × Nat)
  ptabs   : List Nat
  moved   : Bool
  result  : Nat
  /-- The drain limit in ms, which MIGRATION_DRAIN_TIMEOUT stands for (R437). -/
  drainMs : Nat
deriving DecidableEq, Repr

/-- A skip-log entry (03 Table 3.13). -/
structure Skip where
  time    : BitVec 32
  cmdIdx  : BitVec 32
  pc      : Nat
  reason  : Nat
  cluster : Nat
  leaf    : Nat
  info    : Nat
  tag     : Nat
deriving DecidableEq, Repr

/-- The part of a shutter area on the stacks of one leaf: offset and length in each of the casement's bank sets there (11 R426). -/
structure ShutPart where
  off    : Nat
  len    : Nat
  stks : BitVec 12
deriving DecidableEq, Repr

/-- A context's shutter area: the records of its logical clusters of Leaf 0, and of Leaf 1 (11 R426). -/
structure Shutter where
  p0 : ShutPart
  p1 : ShutPart
deriving DecidableEq, Repr

/-- A context (11 R413-R436). -/
structure Ctx where
  st       : CState
  cas      : Nat
  prio     : Nat
  shutter  : Option Shutter
  model    : Bool
  fn       : Nat
  faultVec : Nat
  faultAddr : Word
  cmap     : Tbl Nat
  retired  : List Nat
  mig      : Option Mig
  skips    : List Skip            -- oldest first, at most 256
  skipN    : Nat                  -- entries made since the last clear
  destroy  : Option (Nat × Nat)   -- the admin entry that waits for the teardown
deriving DecidableEq, Repr

/-- Allocation kinds (09 Table 9.1). -/
inductive AKind
  | interleaved | stripe | far | host
deriving DecidableEq, Repr

/-- An allocation (09 R321-R327). `len` is the virtual length, `unit` the bytes per bank set of a stripe, `off` the offset in every bank
set, or the far or bus address. -/
structure Alloc where
  ctx    : Nat
  base   : Nat
  len    : Nat
  kind   : AKind
  off    : Nat
  unit   : Nat
  smask  : BitVec 12
  bsmask : BitVec 64
  handle : Nat
  port   : Nat
  ro     : Bool
deriving DecidableEq, Repr

/-- Space given up and not yet free: bank sets × offset range, or a far range, with the commands it still waits for (09 R326, 11 R417). -/
structure Fill where
  far    : Bool
  smask  : BitVec 12
  bsmask : BitVec 64
  off    : Nat
  len    : Nat
  deps   : List Nat
deriving DecidableEq, Repr

/-- A descriptor: its payload as given (07 Table 7.2, 06 Table 6.9) and whether it is stale (R271) or destroyed but still named (R270). -/
structure Desc where
  bytes : List Byte
  stale : Bool
  dead  : List Nat
deriving DecidableEq, Repr

/-- A loaded program image (03 Table 3.5). -/
structure Prog where
  level    : Nat
  features : BitVec 8
  entry    : List Nat
  shadow   : List (Nat × Nat)
  words    : List Word
  tmpl     : List Byte
deriving DecidableEq, Repr

/-- An allocated latch (03 R127). -/
structure Latch where
  value  : Word
  poison : Bool
  owner  : Nat
deriving DecidableEq, Repr

/-- An address generator (03 Table 3.1): base, and count, stride and index of dimensions 0 to 3. -/
structure Gen where
  base   : Word
  count  : List (BitVec 32)
  stride : List Word
  index  : List (BitVec 32)
deriving DecidableEq, Repr

/-- An open loop level (03 R94): its counter, first and last body index. -/
structure Level where
  ln    : Nat
  first : Nat
  last  : Nat
deriving DecidableEq, Repr

/-- What a control core is doing. -/
inductive CoreSt
  | idle      -- holds no run
  | running
  | ended     -- executed END
  | stopped   -- stopped at STOP_INDEX (03 R141)
  | hinge     -- stopped at a HINGE for a preemption or stop request (03 R113)
  | cut       -- its run was cut (03 R115)
deriving DecidableEq, Repr

/-- An unresolved BRL with the checkpoint of its core (03 R117, R123). -/
structure Brl where
  id     : Nat
  pc     : Nat
  latch  : Nat
  value  : Word
  addr   : Nat
  cmp    : Word
  cond   : Nat
  target : Nat
  hint   : Bool
  met    : Bool                   -- its latch has reached its value (03 R117, R129)
  x      : Tbl Word
  p      : BitVec 8
  l      : Tbl (BitVec 32)
  g      : Tbl Gen
  loops  : List Level
deriving DecidableEq, Repr

/-- A skip of a speculative push, held with its BRLs until it is confirmed (03 R119). -/
structure HeldSkip where
  uid    : Nat
  spec   : List Nat
  pc     : Nat
  reason : Nat
  info   : Nat
deriving DecidableEq, Repr

/-- State of an engine command in its queue. -/
inductive EcSt
  | queued
  | running
  | done (status addr : Nat)
deriving DecidableEq, Repr

/-- A pushed engine command (03 R104): eight words, the PUSH that built it, and the unresolved BRLs it depends on. `rows` counts rows
still to come back for a DISPATCH. -/
structure ECmd where
  uid    : Nat
  qk     : Nat
  words  : Hdr
  pc     : Nat
  cmdIdx : Word
  run    : Nat
  ctx    : Nat
  spec   : List Nat
  stall  : Bool
  met    : Bool                   -- its WAIT has been satisfied (03 R129)
  st     : EcSt
  shadow : Option Nat             -- the shadow buffer that a shadow load targets
deriving DecidableEq, Repr

/-- A signal that has not yet taken effect: a SIGL's (03 R134), or, with `env`, the envelope signal of a completed command that waits for
earlier commands of its queue (03 R109). -/
structure Sigl where
  uid   : Nat
  env   : Bool
  latch : Nat
  value : Word
  add   : Bool
  deps  : List Nat
deriving DecidableEq, Repr

/-- A control core with its cluster's bookkeeping (03 Table 3.1). `x` holds the registers other than 0, `p` bit i is Pi. -/
structure Core where
  x        : Tbl Word
  p        : BitVec 8
  l        : Tbl (BitVec 32)
  g        : Tbl Gen
  pc       : Nat
  pushes   : Word
  loops    : List Level
  st       : CoreSt
  run      : Option Nat
  logical  : Nat
  stall    : Option (Nat × Word)
  brls     : List Brl
  stopReq  : Bool
  late     : Bool
  prevHinge : List Nat
  stale    : List Nat
  held     : List HeldSkip
  eq       : List ECmd
  sigls    : List Sigl
  lastCtx  : Option Nat
  live     : Option Nat
deriving DecidableEq, Repr

/-- Run states. -/
inductive RunSt
  | waiting      -- waits for its clusters
  | running
  | preempting   -- a stop request is out (11 R424)
  | saving       -- hinge point reached, clusters spilling
  | saved
  | restoring    -- resumed: it holds its clusters and reads its records (11 R428)
deriving DecidableEq, Repr

/-- One PROG_RUN in progress (03 R98, 11 R420). `clusters` are logical numbers, ascending (11 R419). `keeper` names the casement whose Keeper step it is (12 R444). -/
structure Run where
  ctx       : Nat
  q         : Nat
  uid       : Nat
  prog      : Nat
  entryPc   : Nat
  clusters  : List Nat
  skipLimit : Nat
  stopIndex : Word
  dumpAddr  : Nat
  dumpLen   : Nat
  args      : List Word
  noSave    : Bool
  release   : Bool
  skips     : Nat
  added     : Nat
  st        : RunSt
  order     : Nat
  heldSince : Word
  stop      : Option Nat
  tag       : Nat
  keeper    : Option Nat
  migHold   : Bool
  watch     : Bool                -- HZ_WATCH of its context when it started (04 R154)
  wrote     : List (Nat × Nat × Nat)   -- what its ended engine commands have written (02 R69), as in `wlog`
deriving DecidableEq, Repr

/-- A spilled cluster (11 Table 11.5): the core as it stood, keyed by context and logical cluster; its memories lie in its record, in the shutter
area on the stacks. -/
structure Saved where
  run  : Nat
  core : Core
deriving DecidableEq, Repr

/-- A tile command in flight: words, issue cycle, and what it has read so far (04 R149). `src` tells the command to ENGINE_COMMAND_COMPLETION. -/
structure Issued where
  uid    : Nat
  eop    : Nat
  words  : Hdr
  t      : Nat
  time   : Word                   -- counter of the leaf at the issue cycle
  ctx    : Nat
  watch  : Bool
  hdr    : List Byte              -- scale port: headers and Transom blocks
  panel  : List Byte              -- W panel, then metadata
  bmp    : List Byte
  aRows  : Tbl (List Byte)
  accIn  : Tbl (List (BitVec 32))
  cal    : List Byte              -- DRAIN: calibrated scales
  failed : Bool
  ecc    : Option Nat             -- the cycle in which a read met an uncorrectable word
  nanz   : Bool
  early  : Option (Nat × Nat)     -- first early read: cycles early, kind (04 R155)
  bits   : List Bool              -- DRAIN: which blocks of the output hold a value other than 0 (04 R172)
deriving DecidableEq, Repr

/-- A tensor tile (04). Unlisted accumulator elements read as free values numbered from `accFree`, or as 0. -/
structure Tile where
  acc       : Tbl (BitVec 32)
  accFree   : Option Nat
  lastIssue : Nat
  sinceMma  : Option (Nat × Nat × Nat × Nat)   -- GAP sum since, WL + 1 and S, M × R + E: of the most recent MMA pushed (04 R151)
  sinceDrain : Option (Nat × Nat)              -- GAP sum since, M: of the most recent DRAIN pushed
  fl        : List Issued
deriving DecidableEq, Repr

/-- A Sill unit's store (05 Table 5.2): the bytes written; an unlisted byte is undefined (free values) or 0 after a zero fill. -/
structure Store where
  cells : Tbl Byte
  free  : Option Nat
  bad   : List Nat                -- 8-byte words whose SECDED code finds them uncorrectable (05 R177)
deriving DecidableEq, Repr

/-- An armed score area of one Sill unit (05 R199): `base` and `aux` are byte offsets in the bank set, `acc` in the accumulator store. Rows
hold m and s as FP32; `seen` lists the code words captured, from the start of the area. -/
structure Armed where
  unit : Nat
  ctx  : Nat
  base : Nat
  n    : Nat
  k    : Nat
  acc  : Nat
  aux  : Nat
  rows : Tbl (BitVec 32 × BitVec 32)
  seen : List Nat
  /-- Rows that a write against the rules of 06 R244 touched. -/
  spoilt : List Nat
  /-- The run that armed it. -/
  run : Nat
  /-- Its m and s stand in the state record of this run's shutter save (05 R201). -/
  saved : Option Nat
  /-- The SMX_NORM in hand: no write is captured once it has started (05 R200). -/
  norm : Option Nat
deriving DecidableEq, Repr

/-- A host access that waits at a bank set (05 R205, R209): function, stack address, length, and the bytes of a write with the uid 0 of a host. -/
structure HostAcc where
  fn   : Nat
  addr : Nat
  len  : Nat
  bs   : Option (List Byte)
deriving DecidableEq, Repr

/-- A bank set's arbiter (05 R204-R214). `busy` is the Sill command in hand, `burst` whether its burst is in progress, `prog` how many row
steps of its writes have landed and `old` what stood at their addresses before (R208), `host` the host accesses that wait, `dev` the commands whose
device accesses wait for a yield, and `grant` those that a yield has admitted. -/
structure Bank where
  debt    : Nat
  forced  : Bool
  refresh : Bool
  busy    : Option Nat
  burst   : Bool
  prog    : Nat
  old     : List (Nat × List Byte)
  host    : List HostAcc
  dev     : List Nat
  grant   : List Nat
deriving DecidableEq, Repr

/-- How a stored code word decodes when it is not clean (09 R336, R337). -/
inductive Health
  | corr (sym : Nat)
  | uncorr
  | poison
deriving DecidableEq, Repr

/-- A Letterbox line or merge-buffer entry (09 R331, R338): line or code word number, the bytes written, and the commands whose writes
it holds (uids). -/
structure LbLine where
  addr   : Nat
  cells  : Tbl Byte
  owners : List (Nat × Nat)       -- command, and the half of a line that it wrote
  /-- It drains as soon as its bank set admits it (05 R205, 09 R332). -/
  due    : Bool
  /-- Its own SECDED code finds it uncorrectable (09 Table 9.4). -/
  bad    : Bool
deriving DecidableEq, Repr

/-- Write buffers of one stack, oldest first (09 R331-R338; 16 Table 16.24). `bad` lists the commands one of whose narrow writes met an
uncorrectable word (R340). -/
structure Lb where
  lines  : List LbLine
  merge  : List LbLine
  stalls : Word
  ue     : BitVec 32
  bad    : List Nat
deriving DecidableEq, Repr

/-- An ECC_UE_LOG entry (16 Table 16.23). -/
structure UeEntry where
  index : BitVec 16
  port  : Nat
  src   : Nat
  time  : BitVec 32
  loc   : Word
deriving DecidableEq, Repr

/-- ECC counters and log of one stack (09 R341-R344); stack 12 is the far log. -/
structure EccStack where
  total  : Nat
  level  : Nat
  ovf    : Nat
  ueHead : Nat
  ueLog  : List UeEntry           -- newest first, at most 16
  filter : List Nat               -- code words corrected most recently, newest first
  patrol : Nat
deriving DecidableEq, Repr

/-- ECC device registers (16 Table 16.21). -/
structure EccReg where
  ue      : BitVec 12
  ceOvf   : BitVec 12
  farUe   : BitVec 2
  farDown : BitVec 2
  thresh  : Nat
  leakMs  : Nat
  period  : Nat
deriving DecidableEq, Repr

/-- An open sequence (06 Table 6.1, R231). `held` is the request that holds it (12 R451); `closing` the commands its SEQ_CLOSE waits for. -/
structure Seq where
  ctx     : Nat
  pt      : Nat
  calib   : Nat
  sref    : Nat
  r0Base  : Nat
  r0Len   : Nat
  r1Base  : Nat
  r1Len   : Nat
  nlog2   : Nat
  layout  : Nat
  kfmt    : Nat
  vfmt    : Nat
  sg      : Nat
  headDim : Nat
  kvh     : Nat
  layers  : Nat
  pmax    : Nat
  pool    : List Nat
  c       : Nat
  dropped : List (Nat × Nat)
  held    : Option Nat
  closing : Option (List Nat)
  lastKey : Word
  lastUse : Nat
  /-- Something has written its page table (06 R225). -/
  wild    : Bool
deriving DecidableEq, Repr

/-- Page states (06 Table 6.6); FREE pages are absent from the table. -/
inductive PState
  | resident | tentative | parked | expired
deriving DecidableEq, Repr

/-- A page map entry in use (06 Table 6.5). `freeing` holds the commands its return to FREE waits for (R237). -/
structure Page where
  ctx     : Nat
  seq     : Nat
  layer   : Nat
  slot    : Nat
  expiry  : Nat
  farloc  : Nat
  sref    : Nat
  kfmt    : Nat
  vfmt    : Nat
  sfmt    : Nat
  g       : Nat
  size    : Nat
  st      : PState
  stack   : Nat
  bset    : Nat
  off     : Nat
  len     : Nat
  orphan  : Bool
  freeing : Option (List Nat)
deriving DecidableEq, Repr

/-- MARK of a far directory record (09 Table 9.8). -/
inductive Mark
  | copying | complete | restoring
deriving DecidableEq, Repr

/-- A far directory record that is not EMPTY, as it reads from its 64 bytes (09 Table 9.8). `crcOk`: its CRC matches. -/
structure FRec where
  mark    : Mark
  crcOk   : Bool
  key     : Word
  ttl     : Nat
  expiry  : Nat
  farloc  : Nat
  sref    : Nat
  len     : Nat
  kfmt    : Nat
  vfmt    : Nat
  sfmt    : Nat
  g       : Nat
  size    : Nat
  ctx     : Nat
  seq     : Nat
  layer   : Nat
  slot    : Nat
  leaf    : Nat
deriving DecidableEq, Repr

/-- The far ports and the far tier (09 R352-R357). -/
structure Far where
  up       : BitVec 2
  cap      : Tbl Nat              -- capacity of each port, 256 MiB units
  speed    : Tbl Nat
  width    : Tbl Nat
  parkPool : Option Nat           -- park pool size in 256 MiB units; none: the whole tier
  share    : Nat
deriving DecidableEq, Repr

/-- A park job or restore (09 R357-R359): the pages still to move, the step in hand of the first, the entry or request it serves. -/
structure Job where
  park   : Bool
  leaf   : Nat
  pages  : List Nat
  phase  : Nat
  keys   : List (Nat × Word)      -- key of each sequence
  ttl    : Nat
  q      : Nat
  uid    : Nat
  req    : Option Nat
  moved  : Nat
  unit   : Nat                    -- place taken for the page in hand
deriving DecidableEq, Repr

/-- Request states (12 Table 12.5). -/
inductive RState
  | queued | resuming | prefill | decode | ending | ended
deriving DecidableEq, Repr

/-- A request (12 Table 12.4, Table 12.6). -/
structure Req where
  ctx      : Nat
  cas      : Nat
  st       : RState
  order    : Nat
  prompt   : Nat
  promptLen : Nat
  maxTok   : Nat
  outAddr  : Nat
  recAddr  : Nat
  deadline : Option Nat
  keep     : Bool
  stream   : Bool
  onEnd    : Nat
  sigEn    : Bool
  sigLatch : Nat
  sigVal   : Word
  seqs     : List Nat             -- SEQ0 to SEQ3; 0xFFFF: none
  seed     : Word
  temp     : BitVec 32
  topP     : BitVec 32
  topK     : Nat
  stops    : List Nat
  key      : Word
  ttl      : Nat
  accept   : Word
  taken    : Nat                  -- prompt tokens committed
  toks     : List Nat             -- tokens generated, oldest first
  steps    : Nat
  firstUs  : Option Nat
  pages    : Nat
  status   : Nat
  cause    : Nat
  cancel   : Option (Nat × Nat)
  endTime  : Word
deriving DecidableEq, Repr

/-- Service mode and SVC_CONFIG parameters (12 Table 12.2). -/
structure Svc where
  mode     : Nat
  ctx      : Option Nat
  prog     : Nat
  entry    : Nat
  sampleK  : Nat
  chunk    : Nat
  maxBatch : Nat
  maxReq   : Nat
  team     : Nat
  autopark : Bool
  work     : Nat
  workLen  : Nat
  autoTtl  : Nat
  step     : Nat                  -- number of the step in hand
  rows     : List (Nat × Nat × Nat × Bool × Bool)   -- request, POS, NTOK, prefill, SAMPLE of each row
  run      : Option Nat           -- run of the step in hand
  result   : Option Nat           -- its status, once its PROG_RUN has completed
deriving DecidableEq, Repr

/-- The step record and placement tables of a casement that moves experts, as its last STEP named them (08 R314), and the move staged
(10 R405): `epoch` is the EPOCH of the table staged last, `loads` the slots loaded for the move, `old` the slots it will
free, `freed` those it may reuse. -/
structure Place where
  ctx     : Nat
  recAddr : Nat
  tabA    : Nat
  tabB    : Nat
  staged  : Bool
  epoch   : Nat
  loads   : List Nat
  committed : Option Nat
  old     : List Nat
  freed   : List Nat
  /-- The step at which SEL last changed (08 R315), and the last completed step with its EPOCH (10 R405). -/
  switchAt : Nat
  lastDone : Nat × Nat
deriving DecidableEq, Repr

/-- A casement (11 Table 11.1). Owner: 0 none, 1 HA, 2 HB. -/
structure Cas where
  owner    : Nat
  clusters : BitVec 128
  bsmask   : BitVec 64
  pivot    : BitVec 32
  latches  : Nat
  quantum  : Nat
  svc      : Svc
  place    : Option Place
  stage    : Option PlaceMsg        -- a PLACE_STAGE whose table may not be written yet (08 R315)
  selftest : Option (Nat × Nat × Nat × Nat)   -- admin entry, TESTS and STACK
deriving DecidableEq, Repr

/-- Port states (10 Table 10.3). -/
inductive PortSt
  | down | train | negotiate | up | miswired | retrain
deriving DecidableEq, Repr

/-- A Moliber port (10 R362-R372; 16 FAB_PORT_n). `tx` and `rx` are the working lanes of each direction (bit 4 the spare), `calib` the lanes
to calibrate, the first of them on the spare. `replay` holds the flits sent and not yet acknowledged, each with the port it came in on;
`wait` those of each virtual channel not yet sent (R375), `rr` the data channel served next. -/
structure Port where
  st      : PortSt
  width   : Nat
  level   : Nat
  spare   : Bool
  peer    : Nat
  peerDigest : Word
  retrained : Nat
  tx      : BitVec 5
  rx      : BitVec 5
  calib   : List Nat
  lcal    : Option (Nat × Nat)    -- LINK_CALIB entry that waits
  wait    : List (Option Nat × Flit)
  rr      : Nat
  replay  : List (Option Nat × Flit)
  fails   : Nat
  nextSeq : Nat
  rxSeq   : Nat
deriving DecidableEq, Repr

/-- What a member's formation waits for (10 R379, R380). -/
inductive FabWait
  | none | joining | leaving | raising | teaming
deriving DecidableEq, Repr

/-- Group membership (10; 16 FAB_GROUP). -/
structure Fab where
  member   : Bool
  isLintel : Bool
  level    : Nat
  rank     : Nat
  group    : BitVec 32
  mver     : Nat
  members  : Nat
  lintel   : Nat
  planGen  : Nat
  sizes    : List Nat
  coord    : List Nat
  portmap  : List (BitVec 16)
  lmode    : Nat
  stepUs   : Nat
  formMs   : Nat
  wait     : FabWait
  waitBy   : Option (Nat × Nat)
  recAddr  : Word
  announced : Bool                -- the lintel has acknowledged the announcement
  anns     : List AnnounceMsg     -- announcements the lintel holds
  lost     : List Nat
  reports  : List (Nat × Nat)     -- PEER_LOST reports held: reporter, lost rank
  lintelLost : Bool
  beatAt   : Word                 -- leaf 0 counter at the last lintel beat
  candidate : Nat
  teams    : Tbl (List Nat)
  teamCase : Tbl (BitVec 16)
  pendTeam : Option (Nat × List Nat)
  staged   : Tbl (List (Nat × Nat))   -- lintel: per casement, PLACE_STAGED reports (rank, step)
  commits  : Tbl (Nat × Nat)          -- lintel: per casement, FROM_STEP and new EPOCH of a committed move
  stepReps : List (Nat × Nat × Nat × Nat)   -- lintel: rank, casement, step, epoch
  wants    : Tbl Nat
  budget   : Option Nat
  ownNotice : Nat × Nat               -- own EXT and notice number
  notices  : Tbl (Nat × Nat × List Nat)   -- notices in force: origin ↦ number, EXT, plans forwarded on
  repeats  : List (Nat × List Nat)    -- management messages not answered: to whom, and what they say (10 R382)
  raiseTo  : Nat                      -- LEVEL_REQ of a RAISE sent
  teamReq  : List Nat                 -- ranks of a TEAM sent, and its TEAM_CASE
  teamMask : BitVec 16
  early    : List (Nat × Flit)        -- the early buffers: engine, flit
  msgSeq   : Nat                      -- number of the next management message (10 R389)
  levels   : Tbl Nat                  -- member table: the level each rank announced
  linkDown : List Nat                 -- neighbours this member has reported behind links not UP (10 R383)
  linkReps : List (Nat × Nat)         -- lintel: such reports held: reporter, neighbour
  giving   : List (Nat × Nat)         -- lintel: rejoined rank and casement whose placement in force it is being given (10 R406)
  cseqs    : Tbl Nat                  -- collectives started on each plan handle
deriving DecidableEq, Repr

/-- A collective of this member (10 R393-R401), by the uid of its command. `buf` is the collective's buffer, `recv` what the step in hand has
received; `limit` is the step timeout in force in µs, TOUT or STEP_US and the largest EXT (R401, R403). A DISPATCH stays after its end, with the rows it sent and those returned (11 R437); `disp` of a RETURN is the DISPATCH it answers. -/
structure Coll where
  cl     : Nat
  uid    : Nat
  ctx    : Nat
  plan   : Nat
  cseq   : Nat
  kind   : Nat
  fmt    : Nat
  rop    : Nat
  root   : Nat
  dst    : Nat
  src    : Nat
  count  : Nat
  aux    : Nat
  sum    : Nat
  cluster : Nat
  tout   : Nat
  limit  : Nat
  step   : Nat
  posted : Bool
  buf    : List Byte
  recv   : List Byte
  got    : Nat
  flits  : Nat
  counts : Tbl (List Nat)         -- announcements of each peer: DISPATCH its routes per slot, RETURN the rows it returns
  rowsIn : List Flit              -- pieces of rows not yet landed
  landed : List Nat               -- RETURN: the senders of the rows landed or sunk
  sent   : Nat                    -- DISPATCH: rows sent
  back   : Nat                    -- DISPATCH: rows returned
  epoch  : Nat
  disp   : Nat
  finished : Bool
deriving DecidableEq, Repr

/-- Louvre, limits and gating settings (14; 16 LVR_). Controlled unit 0, 1 are the leaves, 2 + s stack s. Idle times in µs. -/
structure Lvr where
  step     : Tbl Nat
  therm    : Tbl Nat
  written  : Tbl Nat              -- the step Louvre last wrote
  hostLim  : Nat
  share    : Option Nat
  shareNext : Option Nat         -- a share received, until the next control step (14 R518)
  thermLim : Nat
  fixed    : Nat
  draw     : Nat
  load     : List Nat             -- measured power of each controlled unit, in units of 0.25 W
  want     : Nat                  -- the module's want at step 0 at the last control step, W (14 R509, R518)
  floor    : Bool
  below    : Bool                 -- the average has fallen below the threshold since the floor engaged
  floorStep : Nat
  margin   : Nat
  idleCluster : Nat
  idleStack   : Nat
  idleOther   : Nat
  /-- What the LVR_ registers show of PLIM, HOSTLIM, SHARE, MARGIN and FLOOR_STEP until the next control step (16 Table 16.26). -/
  shown       : Nat × Nat × Nat × Nat × Nat
deriving DecidableEq, Repr

/-- One THERM_IN configuration (16 THERM_CFG_i). -/
structure ThermIn where
  en   : Bool
  hot  : Nat
  trip : Nat
deriving DecidableEq, Repr

/-- Temperatures and the trip (14 R501-R515; 16 THERM_). Sites are numbered as TRIP_SITE (16 R567), readings in 0.25 °C. -/
structure Therm where
  temp     : Tbl Int
  prev     : Tbl Int              -- readings at the last control step
  hot      : List Nat
  trip     : Bool
  tripSite : Nat
  fault    : BitVec 4
  inp      : Tbl ThermIn
  openIn   : BitVec 4             -- inputs that read open or shorted at the last sample
  ref2x    : BitVec 12
  calib    : Nat
deriving DecidableEq, Repr

/-- A log ring entry (13 Table 13.13). -/
structure LogE where
  time  : Word
  index : BitVec 32
  trace : BitVec 16
  sev   : Nat
  arg0  : Word
  arg1  : Word
deriving DecidableEq, Repr

/-- A protection window (13 R466): base, limit (the first address after it) and rights (bit 0 read, 1 write, 2 execute). -/
structure Window where
  base   : Nat
  limit  : Nat
  rights : BitVec 3
deriving DecidableEq, Repr

/-- A firmware processor (13 Table 13.1). `win` holds its window registers, at most 16. -/
structure Proc where
  ver        : Nat
  hover      : Nat
  imgver     : Word
  restarts   : Nat
  crashes    : List Word          -- counter values of recent crashes
  restarting : Bool
  planned    : Bool               -- a planned restart waits for the quiet point, or is in hand
  held       : Bool
  mask       : Word
  newCrash   : Nat                -- crashes on the image in trial
  log        : List LogE          -- newest first, at most 2,048
  logHead    : Nat
  win        : List Window
deriving DecidableEq, Repr

/-- Slot states (13 R469). -/
inductive SlotSt
  | empty | staged | good | rejected
deriving DecidableEq, Repr

/-- What the check of a slot's image finds (13 R470, R471): whether it is valid, its message version, and its manifest's SVN, HOVER, HOMIN, IMGVER and the digests
that measure it. -/
structure SlotImg where
  valid  : Bool
  ver    : Nat
  svn    : Nat
  hover  : Nat
  homin  : Nat
  imgver : Word
  meas   : List (BitVec 256)
  /-- Component (0 Deadbolt, 1 Louvre, 2 Mullion, 3 Keeper) ↦ the windows its manifest declares, and the microcode package it carries: routine ↦
  version and micro-words (Table 13.4; 05 R180). -/
  wins   : Tbl (List Window)
  ucode  : Tbl (Nat × List (BitVec 128))
deriving DecidableEq, Repr

/-- Work of FW_STAGE, FW_ACTIVATE and ATTEST in progress (13 R483): kind, function, addresses. -/
structure FwWork where
  kind   : Nat                    -- 0x10 ATTEST, 0x12 FW_STAGE, 0x13 FW_ACTIVATE
  fn     : Nat
  addr   : Nat
  len    : Nat
  status : Nat
  nonce  : List Byte
deriving DecidableEq, Repr

/-- One copy of the boot descriptor (13 R469). -/
structure BootCopy where
  gen    : BitVec 32
  crcOk  : Bool
  active : Nat
  trial  : Bool
  count  : Nat
  slots  : Tbl SlotSt
deriving DecidableEq, Repr

/-- Flash, boot and updates (13 R468-R494). Slot 0 is A, 1 is B. What Deadbolt works with is the newer copy of the boot descriptor; `copies` are the
two in the flash. -/
structure Fw where
  active  : Nat
  trial   : Bool
  count   : Nat
  slots   : Tbl SlotSt
  img     : Tbl SlotImg
  bootGen : BitVec 32
  copies  : List BootCopy
  booted  : Nat                   -- slot running
  mem     : Mem                   -- flash bytes
  work    : List FwWork
  window  : Bool                  -- the trial window is open
  queue   : List Nat              -- processors whose planned restart of an activation is still to come
  uram    : Tbl (Nat × List (BitVec 128))   -- microcode RAM: leaf × 64 + FN ↦ version and micro-words, at most 4,096 on a leaf (05 R179)
  ucodePend : List (Nat × Option (Nat × List (BitVec 128)))   -- deferred swaps: the same key, new routine or removal (R181)
  calibH  : List Nat              -- lane calibration period in hours, of each Mullion
  svn     : Nat                   -- fused security version (R471)
  bootMeas : List (BitVec 256)
deriving DecidableEq, Repr

/-- The management port (17 R582). -/
structure Mgmt where
  code  : Nat
  off   : Nat
  value : Word
  write : Bool
deriving DecidableEq, Repr

/-- What a port sends on its link beside flits (10 R367, R370): an acknowledgement of everything up to a link sequence number, a negative
acknowledgement from one on, and what it reports of itself in NEGOTIATE. -/
inductive LinkOut
  | ack (seq : Nat)
  | nak (seq : Nat)
  | ident (id : PeerId)
deriving DecidableEq, Repr

/-- Outputs the block has made, newest first: MSI-X messages (function, vector), aperture read completions (function, data, poisoned),
Unsupported Requests, flits and messages sent, test-port words, management answers. They are the model's record of what left the part. -/
structure Out where
  msix   : List (Nat × Nat)
  reads  : List (Nat × List Byte × Bool)
  ur     : Nat
  flits  : List (Nat × Flit)
  links  : List (Nat × LinkOut)
  msgs   : List (Nat × List Nat)
  tdo    : List Nat
  /-- Answers to management command 0x12: code, offset, value. -/
  smb    : List (Nat × Nat × Word)
deriving DecidableEq, Repr

/-- What the accesses of one command have met that keeps them waiting (01 R39, 05 R204; log 66): gated units, and bank sets inside a burst or a
refresh. `on`: a command is making accesses; `who` names it (0: a Keeper). -/
structure Reach where
  on    : Bool
  who   : Nat
  units : List GUnit
  banks : List Nat
deriving DecidableEq, Repr

/-- Nothing met. -/
def Reach.none : Reach := { on := false, who := 0, units := [], banks := [] }

/-- The module. -/
structure State where
  pending  : List Instr
  freeCtr  : Nat
  nextUid  : Nat
  fuse     : Fuse
  pin      : Pins
  dev      : Dev
  fn       : Tbl Func
  apw      : Tbl Apw              -- function × 64 + window
  mbx      : Tbl Mbx              -- function × 6 + processor
  mbxBuf   : Mem                  -- (function × 6 + processor) × 8192 + byte: request, then reply buffer
  queue    : Tbl Queue
  cas      : Tbl Cas
  ctx      : Tbl Ctx
  alloc    : Tbl Alloc
  fills    : Tbl Fill
  desc     : Tbl Desc             -- context × 65536 + handle
  prog     : Tbl Prog             -- context × 512 + handle
  latch    : Tbl Latch
  latchHold : Tbl (List Nat)      -- freed index ↦ commands that named it
  run      : Tbl Run
  core     : Tbl Core
  saved    : Tbl Saved            -- context × 128 + logical cluster
  tile     : Tbl Tile
  opStore  : Tbl Store            -- stack × 64 + bank set
  accStore : Tbl Store
  armed    : List Armed
  unitCtx  : Tbl Nat
  bank     : Tbl Bank
  localMem  : Mem                 -- cluster × 2^14 + offset
  sharedMem : Mem                 -- cluster × 2^20 + offset
  tileMem   : Mem                 -- tile × 2^19 + offset
  badWords  : List Nat            -- uncorrectable 8-byte scratchpad words: tile × 2^16 + word
  stackMem  : Mem                 -- (stack × 64 + bank set) × 2^30 + offset
  window    : Tbl (List Byte × List Byte)   -- test window: stack × 16,384 + code word ↦ data and check bytes written
  winFree   : Tbl Nat             -- free value that the rest of a stack's test window reads as; unlisted: the stack's number
  health    : Tbl Health          -- stack address ÷ 64
  lb        : Tbl Lb
  ecc       : Tbl EccStack
  eccReg    : EccReg
  farMem    : Mem                 -- expander × 2^44 + offset (09 R354)
  farBad    : List Nat            -- lines of 64 bytes of `farMem` that an expander returns as CXL poison (09 Table 9.4)
  hostMem   : Mem                 -- port × 2^64 + bus address
  far       : Far
  job       : Tbl Job
  seq       : Tbl Seq
  page      : Tbl Page
  calib     : Tbl (Nat × Nat)
  area      : Tbl (Nat × Nat)     -- dispatch areas a GATE wrote (context × 2^52 + address): E and NLOC (08 R306, log 26)
  req       : Tbl Req
  fab       : Fab
  port      : Tbl Port
  plan      : Tbl Plan
  coll      : Tbl Coll
  wlog      : Tbl (List (Nat × Nat × Nat))   -- command in progress ↦ what it has written: space (0 stacks, 1 far tier, 2 buses, 3 shared and 4 tile scratchpads, 5 local memories), address, length (02 R69)
  lvr       : Lvr
  therm     : Therm
  gated     : List GUnit
  turn      : Tbl Nat             -- core served last by a shared engine: queue kind × 64 + engine, casement × 1024 for a channel (07 R261, 08 R295)
  wake      : List GUnit          -- wakes in progress (01 R36, R40)
  acc       : Reach               -- what the accesses of the command in hand have met; nothing between commands
  proc      : Tbl Proc
  fw        : Fw
  mgmt      : Mgmt
  out       : Out
deriving DecidableEq, Repr

/-- The registers of a function that nothing has written (16 reset columns). -/
def Func.init : Func :=
  { enable := false, enabled := false, subBase := 0, cplBase := 0, subLog2 := 6, cplLog2 := 6, vector := 0, dbErr := false,
    apwErr := false, devEn := true, eccEn := true, devVec := 0, eccVec := 0, cause := 0, mbxEn := false, mbxVec := 0 }

/-- A closed aperture window (16 Table 16.11). -/
def Apw.init : Apw := { enable := false, ctx := 0, baseHi := 0 }

/-- An idle mailbox (16 Table 16.17). -/
def Mbx.init : Mbx := { outstanding := false, done := false, err := false, seq := 0 }

/-- A generator that nothing has loaded (03 R100). -/
def Gen.init : Gen := { base := 0, count := [0, 0, 0, 0], stride := [0, 0, 0, 0], index := [0, 0, 0, 0] }

/-- A core that holds no run; at a run's start every register but P0 is 0 (03 R100). -/
def Core.init : Core :=
  { x := [], p := 1, l := [], g := [], pc := 0, pushes := 0, loops := [], st := .idle, run := none, logical := 0, stall := none,
    brls := [], stopReq := false, late := false, prevHinge := [], stale := [], held := [], eq := [], sigls := [], lastCtx := none,
    live := none }

/-- A tile with nothing in flight. -/
def Tile.init : Tile :=
  { acc := [], accFree := none, lastIssue := 0, sinceMma := none, sinceDrain := none, fl := [] }

/-- A Sill store after a zero fill (11 R417). -/
def Store.init : Store := { cells := [], free := none, bad := [] }

/-- An idle bank set. -/
def Bank.init : Bank :=
  { debt := 0, forced := false, refresh := false, busy := none, burst := false, prog := 0, old := [], host := [], dev := [], grant := [] }

/-- Empty write buffers. -/
def Lb.init : Lb := { lines := [], merge := [], stalls := 0, ue := 0, bad := [] }

/-- ECC counters at cold reset (16 Table 16.22). -/
def EccStack.init : EccStack := { total := 0, level := 0, ovf := 0, ueHead := 0, ueLog := [], filter := [], patrol := 0 }

/-- Host-tracked service (12 R440). -/
def Svc.init : Svc :=
  { mode := 0, ctx := none, prog := 0, entry := 0, sampleK := 1, chunk := 16, maxBatch := 1, maxReq := 1, team := 0xFFFF,
    autopark := false, work := 0, workLen := 0, autoTtl := 0, step := 0, rows := [], run := none, result := none }

/-- A casement that holds nothing. -/
def Cas.init : Cas :=
  { owner := 0, clusters := 0, bsmask := 0, pivot := 0, latches := 0, quantum := 2000, svc := Svc.init, place := none, stage := none,
    selftest := none }

/-- Casement 0 without a configuration record (11 R410). -/
def Cas.init0 : Cas :=
  { Cas.init with clusters := BitVec.allOnes 128, bsmask := BitVec.allOnes 64, pivot := BitVec.allOnes 32, latches := 16384 }

/-- A dark port (10 Table 10.3). -/
def Port.init : Port :=
  { st := .down, width := 0, level := 0, spare := false, peer := 0, peerDigest := 0, retrained := 0, tx := BitVec.allOnes 5,
    rx := BitVec.allOnes 5, calib := [], lcal := none, wait := [], rr := 0, replay := [], fails := 0, nextSeq := 0, rxSeq := 0 }

/-- No group (16 Table 16.27). -/
def Fab.init : Fab :=
  { member := false, isLintel := false, level := 0, rank := 0, group := 0, mver := 0, members := 0, lintel := 0, planGen := 0,
    sizes := [], coord := [], portmap := [], lmode := 0, stepUs := 200, formMs := 30000, wait := .none, waitBy := none, recAddr := 0,
    announced := false, anns := [], lost := [], reports := [], lintelLost := false, beatAt := 0, candidate := 0, teams := [], teamCase := [],
    pendTeam := none, staged := [], commits := [], stepReps := [], wants := [], budget := none, ownNotice := (0, 0), notices := [],
    repeats := [], raiseTo := 0, teamReq := [], teamMask := 0, early := [], msgSeq := 0, levels := [], linkDown := [],
    linkReps := [], giving := [], cseqs := [] }

/-- Power settings at cold reset (14 Table 14.1, R511, R516; 16 Table 16.26). -/
def Lvr.init : Lvr :=
  { step := [], therm := [], written := [], hostLim := 1100, share := none, shareNext := none, thermLim := 1100, fixed := 0, draw := 0, load := [], want := 0,
    floor := false, below := false, floorStep := 8, margin := 10, idleCluster := 200, idleStack := 1000, idleOther := 20,
    shown := (1100, 1100, 0, 10, 8) }

/-- No reading, no trip (16 Table 16.25). -/
def Therm.init : Therm :=
  { temp := [], prev := [], hot := [], trip := false, tripSite := 0, fault := 0, inp := [], openIn := 0, ref2x := 0, calib := 0 }

/-- A processor running its image (13 R481: N = 4). -/
def Proc.init : Proc :=
  { ver := 4, hover := 0, imgver := 0, restarts := 0, crashes := [], restarting := false, planned := false, held := false, mask := 0,
    newCrash := 0, log := [], logHead := 0, win := [] }

/-- The image in slot A at manufacture (log 5). -/
def SlotImg.init : SlotImg :=
  { valid := true, ver := 4, svn := 0, hover := 0, homin := 0, imgver := 0, meas := [], wins := [], ucode := [(0, (0, [0])), (1, (0, [0])), (2, (0, [0]))] }

/-- Flash and boot state: slot A good and active, no record (log 5); the attention routines are in every image (06 R249). -/
def Fw.init : Fw :=
  { active := 0, trial := false, count := 0, slots := [(0, .good), (1, .empty)],
    img := [(0, SlotImg.init)], bootGen := 0,
    copies := List.replicate 2 { gen := 0, crcOk := true, active := 0, trial := false, count := 0, slots := [(0, .good), (1, .empty)] }, booted := 0, mem := [], work := [],
    window := false, queue := [], uram := [],
    ucodePend := [], calibH := [24, 24], svn := 0, bootMeas := [] }

/-- The module at the rising edge of COLD_RST_N (17 R586, T): boot service, leaf counters 0, nothing in memory (log 14). -/
def State.reset : State :=
  { pending := [], freeCtr := 12, nextUid := 1,
    fuse := { part := .t, stepping := 0xA0, serial := 0, digest := 0,
              rootKeys := [0, 0, 0, 0], revoked := 0, seed := 0 },
    pin := { coldRstN := true, pwrGood := true, compatSel := 3, flashWpN := true, perstN := [(0, true), (1, true)],
             prsntN := [(0, false), (1, false)], mgmtAddr := 0, mgmtAlertN := true, tripN := true, trstN := false, jtagIr := .idcode,
             jtagReset := true },
    dev := { ctr := [], cycle := 0, service := .boot, stackIn := 0, stackFail := 0, bootLock := false, recovery := false, fwFail := 0,
             rst := false, caseRst := 0, boardId := 0, rack := 0, slot := 0, hzWatch := [], compatPins := 3, compatLevel := 2,
             compatReq := 2, compatPend := false, inReset := false, clockStop := false, resets := [], mullUp := 0, farDone := 0,
             dirWalked := false, walkDue := 3, coldWalk := 3 },
    fn := [], apw := [], mbx := [], mbxBuf := [], queue := [], cas := [(0, Cas.init0)], ctx := [], alloc := [], fills := [],
    desc := [], prog := [], latch := [], latchHold := [], run := [], core := [], saved := [], tile := [], opStore := [],
    accStore := [], armed := [], unitCtx := [], bank := [], localMem := [], sharedMem := [], tileMem := [],
    badWords := [], stackMem := [], window := [], winFree := [], health := [], lb := [], ecc := [],
    eccReg := { ue := 0, ceOvf := 0, farUe := 0, farDown := 0, thresh := 64, leakMs := 1000, period := 24 },
    farMem := [], farBad := [], hostMem := [],
    far := { up := 0, cap := [], speed := [], width := [], parkPool := none, share := 25 },
    job := [], seq := [], page := [], calib := [], area := [], req := [], fab := Fab.init, port := [], plan := [], coll := [], wlog := [],
    lvr := Lvr.init, therm := Therm.init, gated := [], turn := [], wake := [], acc := Reach.none, proc := [], fw := Fw.init,
    mgmt := { code := 0, off := 0, value := 0, write := false },
    out := { msix := [], reads := [], ur := 0, flits := [], links := [], msgs := [], tdo := [], smb := [] } }

/-- The same of a module with other fuses: its casement 0 holds what they leave (00 R5-R7; 11 R410). -/
def State.resetWith (f : Fuse) : State :=
  { State.reset with fuse := f, cas := [(0, { Cas.init0 with clusters := f.clusterEn, pivot := f.pivotEn })] }

end Sys2Proof.Machine
end

