-- ==== Sys2Proof/Machine/Bits.lean ====
section
/-! DEFINITION. Fields of words and of byte strings: bits numbered from the least significant end, bytes little-endian (00 R12). -/

namespace Sys2Proof.Machine

/-- Bits hi:lo of a number. -/
def fldN (n hi lo : Nat) : Nat := (n >>> lo) % 2 ^ (hi - lo + 1)

/-- Bits hi:lo of a word. -/
def fld (w : Word) (hi lo : Nat) : Nat := fldN w.toNat hi lo

/-- Bit i of a word. -/
def bitW (w : Word) (i : Nat) : Bool := w.toNat.testBit i

/-- A Bool as a number. -/
def b2n (b : Bool) : Nat := if b then 1 else 0

/-- The number a little-endian byte string spells. -/
def leNat : List Byte → Nat
  | [] => 0
  | b :: bs => b.toNat + 256 * leNat bs

/-- The low n bytes of a number, least significant first. -/
def toLE (x : Nat) : Nat → List Byte
  | 0 => []
  | n + 1 => BitVec.ofNat 8 x :: toLE (x / 256) n

/-- The number in bytes lo to lo + n - 1 of a string; bytes beyond its end count as 0. -/
def le (bs : List Byte) (lo n : Nat) : Nat := leNat ((bs.drop lo).take n)

/-- A string of n zero bytes. -/
def zeros (n : Nat) : List Byte := List.replicate n 0

/-- A string padded with zeros to n bytes (cut there if longer). -/
def padTo (n : Nat) (bs : List Byte) : List Byte := (bs ++ zeros (n - bs.length)).take n

/-- `bs` with the bytes of `x` written over it from position `p`. -/
def overlay (bs : List Byte) (p : Nat) (x : List Byte) : List Byte :=
  bs.take p ++ x.take (bs.length - p) ++ bs.drop (p + x.length)

/-- x rounded up to a multiple of m. -/
def alignUp (x m : Nat) : Nat := (x + m - 1) / m * m

/-- The numbers below n at which p holds, ascending. -/
def bitsWhere (n : Nat) (p : Nat → Bool) : List Nat := (List.range n).filter p

/-- The set bits of a map, ascending. -/
def ones {w : Nat} (m : BitVec w) : List Nat := bitsWhere w (fun i => m.getLsbD i)

/-- A map with the listed bits set. -/
def ofOnes (w : Nat) (l : List Nat) : BitVec w := l.foldl (fun m i => m ||| BitVec.twoPow w i) 0

/-- A map with bit i set or cleared. -/
def setBit {w : Nat} (m : BitVec w) (i : Nat) (b : Bool) : BitVec w :=
  if b then m ||| BitVec.twoPow w i else m &&& ~~~ BitVec.twoPow w i

/-- Entry i of a list, or d. -/
def nth {α : Type} (l : List α) (i : Nat) (d : α) : α := l.getD i d

/-- Sign-extension of the low n bits of x to 64 bits. -/
def sext (x n : Nat) : Word := if x.testBit (n - 1) then BitVec.ofNat 64 (x % 2 ^ n + (2 ^ 64 - 2 ^ n)) else BitVec.ofNat 64 (x % 2 ^ n)

/-- Every element of l satisfies p, as a plain recursion. -/
def allB {α : Type} (l : List α) (p : α → Bool) : Bool := l.all p

/-- The first x of l with p. -/
def firstB {α : Type} (l : List α) (p : α → Bool) : Option α := l.find? p

/-- The elements of l without repeats, first occurrences kept. -/
def dedupN (l : List Nat) : List Nat := l.foldl (fun acc x => if acc.contains x then acc else acc ++ [x]) []

/-- Insertion by a key, ascending, after equal keys. -/
def insertBy {α : Type} (key : α → Nat) (x : α) : List α → List α
  | [] => [x]
  | y :: ys => if key x < key y then x :: y :: ys else y :: insertBy key x ys

/-- A list sorted by a key, ascending and stable. -/
def sortBy {α : Type} (key : α → Nat) (l : List α) : List α := l.foldl (fun acc x => insertBy key x acc) []

/-- CRC-32C, byte by byte (09 Table 9.8, 13 R475). -/
def crcBit (c : BitVec 32) : BitVec 32 := if c.getLsbD 0 then (c >>> 1) ^^^ 0x82F63B78 else c >>> 1
def crc32c (bs : List Byte) : BitVec 32 :=
  ~~~ (bs.foldl (fun c b => (List.range 8).foldl (fun c _ => crcBit c) (c ^^^ b.setWidth 32)) 0xFFFFFFFF)

end Sys2Proof.Machine
end

