-- ==== Sys2Proof/Machine/Tables.lean ====
section
/-! DEFINITION. Sparse tables and byte memories: reading, writing, clearing, and the canonical form of a memory. -/

namespace Sys2Proof.Machine

/-- The entry of a table, if there is one. -/
def tget {α : Type} : Tbl α → Nat → Option α
  | [], _ => none
  | (j, u) :: t, k => if j = k then some u else tget t k

/-- The entry of a table, or the value of a resource nothing has written. -/
def tgetD {α : Type} (t : Tbl α) (k : Nat) (d : α) : α := (tget t k).getD d

/-- Writes an entry, keeping the numbers rising. -/
def tset {α : Type} : Tbl α → Nat → α → Tbl α
  | [], k, v => [(k, v)]
  | (j, u) :: t, k, v => if k < j then (k, v) :: (j, u) :: t else if k = j then (k, v) :: t else (j, u) :: tset t k v

/-- Removes an entry. -/
def tdel {α : Type} : Tbl α → Nat → Tbl α
  | [], _ => []
  | (j, u) :: t, k => if j = k then tdel t k else (j, u) :: tdel t k

/-- Applies f to every entry. -/
def tmap {α : Type} (f : Nat → α → α) (t : Tbl α) : Tbl α := t.map (fun e => (e.1, f e.1 e.2))

/-- Keeps the entries with p. -/
def tfilter {α : Type} (p : Nat → α → Bool) (t : Tbl α) : Tbl α := t.filter (fun e => p e.1 e.2)

/-- The numbers with an entry. -/
def tkeys {α : Type} (t : Tbl α) : List Nat := t.map (·.1)

/-- The least number at or above lo, below lo + n, with no entry. -/
def tfree {α : Type} (t : Tbl α) (lo n : Nat) : Option Nat := (List.range n).findSome? (fun i => if (tget t (lo + i)).isNone then some (lo + i) else none)

/-- One byte of a memory; an unlisted byte reads 0 (log 6). -/
def mget (m : Mem) (a : Nat) : Byte := tgetD m a 0

/-- Writes one byte; a 0 is not listed. -/
def mset (m : Mem) (a : Nat) (b : Byte) : Mem := if b = 0 then tdel m a else tset m a b

/-- n bytes from address a. -/
def mread (m : Mem) (a n : Nat) : List Byte := (List.range n).map (fun i => mget m (a + i))

/-- Writes a byte string from address a. -/
def mwrite (m : Mem) (a : Nat) : List Byte → Mem
  | [] => m
  | b :: bs => mwrite (mset m a b) (a + 1) bs

/-- Zeros n bytes from address a. -/
def mclear (m : Mem) (a n : Nat) : Mem := m.filter (fun e => !(a ≤ e.1 && e.1 < a + n))

/-- Canonical form from a lower bound: addresses strictly rising, no byte 0. -/
def memWfFrom (lo : Nat) : Mem → Bool
  | [] => true
  | (a, b) :: m => decide (lo ≤ a) && decide (b ≠ 0) && memWfFrom (a + 1) m

/-- The canonical form of a memory. -/
def Memory.wf (m : Mem) : Bool := memWfFrom 0 m

end Sys2Proof.Machine
end

