-- ==== Sys2Proof/Machine/Prim.lean ====
section
/-! DEFINITION. The primitive changes of State: every other definition changes the state through these. For each part: `onX` changes it
whole; for a table of resources `getX` reads an entry, `putX` writes one, `updX` changes one that is there, `delX` removes one; for a table
whose resources always exist, `xAt` reads one and `modX` changes one. -/

namespace Sys2Proof.Machine

def State.onPending (s : State) (g : List Instr → List Instr) : State := { s with pending := g s.pending }
def State.onFreeCtr (s : State) (g : Nat → Nat) : State := { s with freeCtr := g s.freeCtr }
def State.onNextUid (s : State) (g : Nat → Nat) : State := { s with nextUid := g s.nextUid }
def State.onPin (s : State) (g : Pins → Pins) : State := { s with pin := g s.pin }
def State.onDev (s : State) (g : Dev → Dev) : State := { s with dev := g s.dev }
def State.onFn (s : State) (g : Tbl Func → Tbl Func) : State := { s with fn := g s.fn }
def State.fnAt (s : State) (k : Nat) : Func := tgetD s.fn k Func.init
def State.modFn (s : State) (k : Nat) (g : Func → Func) : State := s.onFn (fun t => tset t k (g (tgetD t k Func.init)))
def State.delFn (s : State) (k : Nat) : State := s.onFn (fun t => tdel t k)
def State.onApw (s : State) (g : Tbl Apw → Tbl Apw) : State := { s with apw := g s.apw }
def State.apwAt (s : State) (k : Nat) : Apw := tgetD s.apw k Apw.init
def State.modApw (s : State) (k : Nat) (g : Apw → Apw) : State := s.onApw (fun t => tset t k (g (tgetD t k Apw.init)))
def State.delApw (s : State) (k : Nat) : State := s.onApw (fun t => tdel t k)
def State.onMbx (s : State) (g : Tbl Mbx → Tbl Mbx) : State := { s with mbx := g s.mbx }
def State.mbxAt (s : State) (k : Nat) : Mbx := tgetD s.mbx k Mbx.init
def State.modMbx (s : State) (k : Nat) (g : Mbx → Mbx) : State := s.onMbx (fun t => tset t k (g (tgetD t k Mbx.init)))
def State.delMbx (s : State) (k : Nat) : State := s.onMbx (fun t => tdel t k)
def State.onMbxBuf (s : State) (g : Mem → Mem) : State := { s with mbxBuf := g s.mbxBuf }
def State.onQueue (s : State) (g : Tbl Queue → Tbl Queue) : State := { s with queue := g s.queue }
def State.getQueue (s : State) (k : Nat) : Option Queue := tget s.queue k
def State.putQueue (s : State) (k : Nat) (v : Queue) : State := s.onQueue (fun t => tset t k v)
def State.updQueue (s : State) (k : Nat) (g : Queue → Queue) : State :=
  s.onQueue (fun t => match tget t k with | some v => tset t k (g v) | none => t)
def State.delQueue (s : State) (k : Nat) : State := s.onQueue (fun t => tdel t k)
def State.onCas (s : State) (g : Tbl Cas → Tbl Cas) : State := { s with cas := g s.cas }
def State.casAt (s : State) (k : Nat) : Cas := tgetD s.cas k Cas.init
def State.modCas (s : State) (k : Nat) (g : Cas → Cas) : State := s.onCas (fun t => tset t k (g (tgetD t k Cas.init)))
def State.delCas (s : State) (k : Nat) : State := s.onCas (fun t => tdel t k)
def State.onCtx (s : State) (g : Tbl Ctx → Tbl Ctx) : State := { s with ctx := g s.ctx }
def State.getCtx (s : State) (k : Nat) : Option Ctx := tget s.ctx k
def State.putCtx (s : State) (k : Nat) (v : Ctx) : State := s.onCtx (fun t => tset t k v)
def State.updCtx (s : State) (k : Nat) (g : Ctx → Ctx) : State :=
  s.onCtx (fun t => match tget t k with | some v => tset t k (g v) | none => t)
def State.delCtx (s : State) (k : Nat) : State := s.onCtx (fun t => tdel t k)
def State.onAlloc (s : State) (g : Tbl Alloc → Tbl Alloc) : State := { s with alloc := g s.alloc }
def State.getAlloc (s : State) (k : Nat) : Option Alloc := tget s.alloc k
def State.putAlloc (s : State) (k : Nat) (v : Alloc) : State := s.onAlloc (fun t => tset t k v)
def State.updAlloc (s : State) (k : Nat) (g : Alloc → Alloc) : State :=
  s.onAlloc (fun t => match tget t k with | some v => tset t k (g v) | none => t)
def State.delAlloc (s : State) (k : Nat) : State := s.onAlloc (fun t => tdel t k)
def State.onFills (s : State) (g : Tbl Fill → Tbl Fill) : State := { s with fills := g s.fills }
def State.getFills (s : State) (k : Nat) : Option Fill := tget s.fills k
def State.putFills (s : State) (k : Nat) (v : Fill) : State := s.onFills (fun t => tset t k v)
def State.updFills (s : State) (k : Nat) (g : Fill → Fill) : State :=
  s.onFills (fun t => match tget t k with | some v => tset t k (g v) | none => t)
def State.delFills (s : State) (k : Nat) : State := s.onFills (fun t => tdel t k)
def State.onDesc (s : State) (g : Tbl Desc → Tbl Desc) : State := { s with desc := g s.desc }
def State.getDesc (s : State) (k : Nat) : Option Desc := tget s.desc k
def State.putDesc (s : State) (k : Nat) (v : Desc) : State := s.onDesc (fun t => tset t k v)
def State.updDesc (s : State) (k : Nat) (g : Desc → Desc) : State :=
  s.onDesc (fun t => match tget t k with | some v => tset t k (g v) | none => t)
def State.delDesc (s : State) (k : Nat) : State := s.onDesc (fun t => tdel t k)
def State.onProg (s : State) (g : Tbl Prog → Tbl Prog) : State := { s with prog := g s.prog }
def State.getProg (s : State) (k : Nat) : Option Prog := tget s.prog k
def State.putProg (s : State) (k : Nat) (v : Prog) : State := s.onProg (fun t => tset t k v)
def State.updProg (s : State) (k : Nat) (g : Prog → Prog) : State :=
  s.onProg (fun t => match tget t k with | some v => tset t k (g v) | none => t)
def State.delProg (s : State) (k : Nat) : State := s.onProg (fun t => tdel t k)
def State.onLatch (s : State) (g : Tbl Latch → Tbl Latch) : State := { s with latch := g s.latch }
def State.getLatch (s : State) (k : Nat) : Option Latch := tget s.latch k
def State.putLatch (s : State) (k : Nat) (v : Latch) : State := s.onLatch (fun t => tset t k v)
def State.updLatch (s : State) (k : Nat) (g : Latch → Latch) : State :=
  s.onLatch (fun t => match tget t k with | some v => tset t k (g v) | none => t)
def State.delLatch (s : State) (k : Nat) : State := s.onLatch (fun t => tdel t k)
def State.onLatchHold (s : State) (g : Tbl (List Nat) → Tbl (List Nat)) : State := { s with latchHold := g s.latchHold }
def State.getLatchHold (s : State) (k : Nat) : Option (List Nat) := tget s.latchHold k
def State.putLatchHold (s : State) (k : Nat) (v : (List Nat)) : State := s.onLatchHold (fun t => tset t k v)
def State.updLatchHold (s : State) (k : Nat) (g : (List Nat) → (List Nat)) : State :=
  s.onLatchHold (fun t => match tget t k with | some v => tset t k (g v) | none => t)
def State.delLatchHold (s : State) (k : Nat) : State := s.onLatchHold (fun t => tdel t k)
def State.onRun (s : State) (g : Tbl Run → Tbl Run) : State := { s with run := g s.run }
def State.getRun (s : State) (k : Nat) : Option Run := tget s.run k
def State.putRun (s : State) (k : Nat) (v : Run) : State := s.onRun (fun t => tset t k v)
def State.updRun (s : State) (k : Nat) (g : Run → Run) : State :=
  s.onRun (fun t => match tget t k with | some v => tset t k (g v) | none => t)
def State.delRun (s : State) (k : Nat) : State := s.onRun (fun t => tdel t k)
def State.onCore (s : State) (g : Tbl Core → Tbl Core) : State := { s with core := g s.core }
def State.coreAt (s : State) (k : Nat) : Core := tgetD s.core k Core.init
def State.modCore (s : State) (k : Nat) (g : Core → Core) : State := s.onCore (fun t => tset t k (g (tgetD t k Core.init)))
def State.delCore (s : State) (k : Nat) : State := s.onCore (fun t => tdel t k)
def State.onSaved (s : State) (g : Tbl Saved → Tbl Saved) : State := { s with saved := g s.saved }
def State.getSaved (s : State) (k : Nat) : Option Saved := tget s.saved k
def State.putSaved (s : State) (k : Nat) (v : Saved) : State := s.onSaved (fun t => tset t k v)
def State.updSaved (s : State) (k : Nat) (g : Saved → Saved) : State :=
  s.onSaved (fun t => match tget t k with | some v => tset t k (g v) | none => t)
def State.delSaved (s : State) (k : Nat) : State := s.onSaved (fun t => tdel t k)
def State.onTile (s : State) (g : Tbl Tile → Tbl Tile) : State := { s with tile := g s.tile }
def State.tileAt (s : State) (k : Nat) : Tile := tgetD s.tile k Tile.init
def State.modTile (s : State) (k : Nat) (g : Tile → Tile) : State := s.onTile (fun t => tset t k (g (tgetD t k Tile.init)))
def State.delTile (s : State) (k : Nat) : State := s.onTile (fun t => tdel t k)
def State.onOpStore (s : State) (g : Tbl Store → Tbl Store) : State := { s with opStore := g s.opStore }
def State.opStoreAt (s : State) (k : Nat) : Store := tgetD s.opStore k Store.init
def State.modOpStore (s : State) (k : Nat) (g : Store → Store) : State := s.onOpStore (fun t => tset t k (g (tgetD t k Store.init)))
def State.delOpStore (s : State) (k : Nat) : State := s.onOpStore (fun t => tdel t k)
def State.onAccStore (s : State) (g : Tbl Store → Tbl Store) : State := { s with accStore := g s.accStore }
def State.accStoreAt (s : State) (k : Nat) : Store := tgetD s.accStore k Store.init
def State.modAccStore (s : State) (k : Nat) (g : Store → Store) : State := s.onAccStore (fun t => tset t k (g (tgetD t k Store.init)))
def State.delAccStore (s : State) (k : Nat) : State := s.onAccStore (fun t => tdel t k)
def State.onArmed (s : State) (g : List Armed → List Armed) : State := { s with armed := g s.armed }
def State.onUnitCtx (s : State) (g : Tbl Nat → Tbl Nat) : State := { s with unitCtx := g s.unitCtx }
def State.getUnitCtx (s : State) (k : Nat) : Option Nat := tget s.unitCtx k
def State.putUnitCtx (s : State) (k : Nat) (v : Nat) : State := s.onUnitCtx (fun t => tset t k v)
def State.updUnitCtx (s : State) (k : Nat) (g : Nat → Nat) : State :=
  s.onUnitCtx (fun t => match tget t k with | some v => tset t k (g v) | none => t)
def State.delUnitCtx (s : State) (k : Nat) : State := s.onUnitCtx (fun t => tdel t k)
def State.onBank (s : State) (g : Tbl Bank → Tbl Bank) : State := { s with bank := g s.bank }
def State.bankAt (s : State) (k : Nat) : Bank := tgetD s.bank k Bank.init
def State.modBank (s : State) (k : Nat) (g : Bank → Bank) : State := s.onBank (fun t => tset t k (g (tgetD t k Bank.init)))
def State.delBank (s : State) (k : Nat) : State := s.onBank (fun t => tdel t k)
def State.onLocalMem (s : State) (g : Mem → Mem) : State := { s with localMem := g s.localMem }
def State.onSharedMem (s : State) (g : Mem → Mem) : State := { s with sharedMem := g s.sharedMem }
def State.onTileMem (s : State) (g : Mem → Mem) : State := { s with tileMem := g s.tileMem }
def State.onBadWords (s : State) (g : List Nat → List Nat) : State := { s with badWords := g s.badWords }
def State.onStackMem (s : State) (g : Mem → Mem) : State := { s with stackMem := g s.stackMem }
def State.onWindow (s : State) (g : Tbl (List Byte × List Byte) → Tbl (List Byte × List Byte)) : State := { s with window := g s.window }
def State.getWindow (s : State) (k : Nat) : Option (List Byte × List Byte) := tget s.window k
def State.putWindow (s : State) (k : Nat) (v : (List Byte × List Byte)) : State := s.onWindow (fun t => tset t k v)
def State.updWindow (s : State) (k : Nat) (g : (List Byte × List Byte) → (List Byte × List Byte)) : State :=
  s.onWindow (fun t => match tget t k with | some v => tset t k (g v) | none => t)
def State.delWindow (s : State) (k : Nat) : State := s.onWindow (fun t => tdel t k)
def State.onWinFree (s : State) (g : Tbl Nat → Tbl Nat) : State := { s with winFree := g s.winFree }
def State.getWinFree (s : State) (k : Nat) : Option Nat := tget s.winFree k
def State.putWinFree (s : State) (k : Nat) (v : Nat) : State := s.onWinFree (fun t => tset t k v)
def State.updWinFree (s : State) (k : Nat) (g : Nat → Nat) : State :=
  s.onWinFree (fun t => match tget t k with | some v => tset t k (g v) | none => t)
def State.delWinFree (s : State) (k : Nat) : State := s.onWinFree (fun t => tdel t k)
def State.onHealth (s : State) (g : Tbl Health → Tbl Health) : State := { s with health := g s.health }
def State.getHealth (s : State) (k : Nat) : Option Health := tget s.health k
def State.putHealth (s : State) (k : Nat) (v : Health) : State := s.onHealth (fun t => tset t k v)
def State.updHealth (s : State) (k : Nat) (g : Health → Health) : State :=
  s.onHealth (fun t => match tget t k with | some v => tset t k (g v) | none => t)
def State.delHealth (s : State) (k : Nat) : State := s.onHealth (fun t => tdel t k)
def State.onLb (s : State) (g : Tbl Lb → Tbl Lb) : State := { s with lb := g s.lb }
def State.lbAt (s : State) (k : Nat) : Lb := tgetD s.lb k Lb.init
def State.modLb (s : State) (k : Nat) (g : Lb → Lb) : State := s.onLb (fun t => tset t k (g (tgetD t k Lb.init)))
def State.delLb (s : State) (k : Nat) : State := s.onLb (fun t => tdel t k)
def State.onEcc (s : State) (g : Tbl EccStack → Tbl EccStack) : State := { s with ecc := g s.ecc }
def State.eccAt (s : State) (k : Nat) : EccStack := tgetD s.ecc k EccStack.init
def State.modEcc (s : State) (k : Nat) (g : EccStack → EccStack) : State := s.onEcc (fun t => tset t k (g (tgetD t k EccStack.init)))
def State.delEcc (s : State) (k : Nat) : State := s.onEcc (fun t => tdel t k)
def State.onEccReg (s : State) (g : EccReg → EccReg) : State := { s with eccReg := g s.eccReg }
def State.onFarMem (s : State) (g : Mem → Mem) : State := { s with farMem := g s.farMem }
def State.onFarBad (s : State) (g : List Nat → List Nat) : State := { s with farBad := g s.farBad }
def State.onHostMem (s : State) (g : Mem → Mem) : State := { s with hostMem := g s.hostMem }
def State.onFar (s : State) (g : Far → Far) : State := { s with far := g s.far }
def State.onJob (s : State) (g : Tbl Job → Tbl Job) : State := { s with job := g s.job }
def State.getJob (s : State) (k : Nat) : Option Job := tget s.job k
def State.putJob (s : State) (k : Nat) (v : Job) : State := s.onJob (fun t => tset t k v)
def State.updJob (s : State) (k : Nat) (g : Job → Job) : State :=
  s.onJob (fun t => match tget t k with | some v => tset t k (g v) | none => t)
def State.delJob (s : State) (k : Nat) : State := s.onJob (fun t => tdel t k)
def State.onSeq (s : State) (g : Tbl Seq → Tbl Seq) : State := { s with seq := g s.seq }
def State.getSeq (s : State) (k : Nat) : Option Seq := tget s.seq k
def State.putSeq (s : State) (k : Nat) (v : Seq) : State := s.onSeq (fun t => tset t k v)
def State.updSeq (s : State) (k : Nat) (g : Seq → Seq) : State :=
  s.onSeq (fun t => match tget t k with | some v => tset t k (g v) | none => t)
def State.delSeq (s : State) (k : Nat) : State := s.onSeq (fun t => tdel t k)
def State.onPage (s : State) (g : Tbl Page → Tbl Page) : State := { s with page := g s.page }
def State.getPage (s : State) (k : Nat) : Option Page := tget s.page k
def State.putPage (s : State) (k : Nat) (v : Page) : State := s.onPage (fun t => tset t k v)
def State.updPage (s : State) (k : Nat) (g : Page → Page) : State :=
  s.onPage (fun t => match tget t k with | some v => tset t k (g v) | none => t)
def State.delPage (s : State) (k : Nat) : State := s.onPage (fun t => tdel t k)
def State.onCalib (s : State) (g : Tbl (Nat × Nat) → Tbl (Nat × Nat)) : State := { s with calib := g s.calib }
def State.getCalib (s : State) (k : Nat) : Option (Nat × Nat) := tget s.calib k
def State.putCalib (s : State) (k : Nat) (v : (Nat × Nat)) : State := s.onCalib (fun t => tset t k v)
def State.updCalib (s : State) (k : Nat) (g : (Nat × Nat) → (Nat × Nat)) : State :=
  s.onCalib (fun t => match tget t k with | some v => tset t k (g v) | none => t)
def State.delCalib (s : State) (k : Nat) : State := s.onCalib (fun t => tdel t k)
def State.onArea (s : State) (g : Tbl (Nat × Nat) → Tbl (Nat × Nat)) : State := { s with area := g s.area }
def State.getArea (s : State) (k : Nat) : Option (Nat × Nat) := tget s.area k
def State.putArea (s : State) (k : Nat) (v : (Nat × Nat)) : State := s.onArea (fun t => tset t k v)
def State.updArea (s : State) (k : Nat) (g : (Nat × Nat) → (Nat × Nat)) : State :=
  s.onArea (fun t => match tget t k with | some v => tset t k (g v) | none => t)
def State.delArea (s : State) (k : Nat) : State := s.onArea (fun t => tdel t k)
def State.onReq (s : State) (g : Tbl Req → Tbl Req) : State := { s with req := g s.req }
def State.getReq (s : State) (k : Nat) : Option Req := tget s.req k
def State.putReq (s : State) (k : Nat) (v : Req) : State := s.onReq (fun t => tset t k v)
def State.updReq (s : State) (k : Nat) (g : Req → Req) : State :=
  s.onReq (fun t => match tget t k with | some v => tset t k (g v) | none => t)
def State.delReq (s : State) (k : Nat) : State := s.onReq (fun t => tdel t k)
def State.onFab (s : State) (g : Fab → Fab) : State := { s with fab := g s.fab }
def State.onPort (s : State) (g : Tbl Port → Tbl Port) : State := { s with port := g s.port }
def State.portAt (s : State) (k : Nat) : Port := tgetD s.port k Port.init
def State.modPort (s : State) (k : Nat) (g : Port → Port) : State := s.onPort (fun t => tset t k (g (tgetD t k Port.init)))
def State.delPort (s : State) (k : Nat) : State := s.onPort (fun t => tdel t k)
def State.onPlan (s : State) (g : Tbl Plan → Tbl Plan) : State := { s with plan := g s.plan }
def State.getPlan (s : State) (k : Nat) : Option Plan := tget s.plan k
def State.putPlan (s : State) (k : Nat) (v : Plan) : State := s.onPlan (fun t => tset t k v)
def State.updPlan (s : State) (k : Nat) (g : Plan → Plan) : State :=
  s.onPlan (fun t => match tget t k with | some v => tset t k (g v) | none => t)
def State.delPlan (s : State) (k : Nat) : State := s.onPlan (fun t => tdel t k)
def State.onColl (s : State) (g : Tbl Coll → Tbl Coll) : State := { s with coll := g s.coll }
def State.getColl (s : State) (k : Nat) : Option Coll := tget s.coll k
def State.putColl (s : State) (k : Nat) (v : Coll) : State := s.onColl (fun t => tset t k v)
def State.updColl (s : State) (k : Nat) (g : Coll → Coll) : State :=
  s.onColl (fun t => match tget t k with | some v => tset t k (g v) | none => t)
def State.delColl (s : State) (k : Nat) : State := s.onColl (fun t => tdel t k)
def State.onWlog (s : State) (g : Tbl (List (Nat × Nat × Nat)) → Tbl (List (Nat × Nat × Nat))) : State := { s with wlog := g s.wlog }
def State.delWlog (s : State) (k : Nat) : State := s.onWlog (fun t => tdel t k)
def State.onLvr (s : State) (g : Lvr → Lvr) : State := { s with lvr := g s.lvr }
def State.onTherm (s : State) (g : Therm → Therm) : State := { s with therm := g s.therm }
def State.onGated (s : State) (g : List GUnit → List GUnit) : State := { s with gated := g s.gated }
def State.onTurn (s : State) (g : Tbl Nat → Tbl Nat) : State := { s with turn := g s.turn }
def State.onWake (s : State) (g : List GUnit → List GUnit) : State := { s with wake := g s.wake }
def State.onAcc (s : State) (g : Reach → Reach) : State := { s with acc := g s.acc }
def State.onProc (s : State) (g : Tbl Proc → Tbl Proc) : State := { s with proc := g s.proc }
def State.procAt (s : State) (k : Nat) : Proc := tgetD s.proc k Proc.init
def State.modProc (s : State) (k : Nat) (g : Proc → Proc) : State := s.onProc (fun t => tset t k (g (tgetD t k Proc.init)))
def State.delProc (s : State) (k : Nat) : State := s.onProc (fun t => tdel t k)
def State.onFw (s : State) (g : Fw → Fw) : State := { s with fw := g s.fw }
def State.onMgmt (s : State) (g : Mgmt → Mgmt) : State := { s with mgmt := g s.mgmt }
def State.onOut (s : State) (g : Out → Out) : State := { s with out := g s.out }

/-- Runs a list of changes in order. -/
def forEach {α : Type} (l : List α) (g : α → State → State) (s : State) : State := l.foldl (fun s a => g a s) s

/-- A change made only where a condition holds. -/
def whenDo (c : Bool) (g : State → State) (s : State) : State := if c then g s else s

/-- Goes on with what a step gave, unless it stopped. -/
def thenE {ε α β : Type} (r : State × Except ε α) (f : α → State → State × Except ε β) : State × Except ε β :=
  match r with
  | (s, .ok a) => f a s
  | (s, .error e) => (s, .error e)

/-- Takes the next free value's number (log 8). -/
def State.fresh (s : State) : Nat × State := (s.freeCtr, s.onFreeCtr (· + 1))

/-- Takes the next internal identifier (log 13). -/
def State.newUid (s : State) : Nat × State := (s.nextUid, s.onNextUid (· + 1))

/-- n free bytes of free value k. -/
def freeBytes (k n : Nat) : List Byte := (List.range n).map (fun i => Config.freeByte k i)

end Sys2Proof.Machine
end

