-- ==== Sys2Proof/Machine/Flags.lean ====
section
/-! DEFINITION. Status codes and their kinds (02 Table 2.8), DETAIL codes (02 Table 2.6), skip reasons (03 Table 3.14), and the flag bits
that the device sets: interrupt causes, ECC_STATUS, DB_ERR, APW_ERR. -/

namespace Sys2Proof.Machine

/-- Status codes (02 Table 2.8). -/
def stOK : Nat := 0x00
def stSkipped : Nat := 0x01
def stDiscarded : Nat := 0x02
def stBusy : Nat := 0x03
def stDeferred : Nat := 0x04
def stExpired : Nat := 0x05
def stPreempted : Nat := 0x06
def stEngineAbsent : Nat := 0x10
def stFormatUnsup : Nat := 0x11
def stDescRange : Nat := 0x12
def stDescOverlap : Nat := 0x13
def stScaleSkew : Nat := 0x14
def stPageFault : Nat := 0x15
def stLatchPoisoned : Nat := 0x16
def stEccUncorr : Nat := 0x20
def stThermalTrip : Nat := 0x21
def stPeerLost : Nat := 0x30
def stVersionUnsup : Nat := 0x31
def stDenied : Nat := 0x40

/-- Kinds of status (02 R68). -/
inductive Kind
  | outcome | refusal | cut | stop | discard
deriving DecidableEq, Repr

/-- The kind of a status code (02 Table 2.8). -/
def kindOf (st : Nat) : Kind :=
  if st = 0x00 || st = 0x05 then .outcome
  else if st = 0x02 then .discard
  else if st = 0x06 then .cut
  else if st = 0x14 || st = 0x15 || st = 0x16 || st = 0x20 || st = 0x21 || st = 0x30 then .stop
  else .refusal

/-- Whether a stop status faults the context (02 Table 2.8). -/
def faultsCtx (st : Nat) : Bool := st = stScaleSkew || st = stPageFault

/-- The rank of a stop cause where several meet one command in a cycle (15 R528); the lowest decides. -/
def stopRank (st : Nat) : Nat :=
  if st = stThermalTrip then 0 else if st = stScaleSkew then 1 else if st = stPageFault then 2 else if st = stEccUncorr then 3
  else if st = stPeerLost then 4 else 5

/-- Skip-log reasons (03 Table 3.14). -/
def rsIllegalOp : Nat := 0x01
def rsBadField : Nat := 0x02
def rsLoopDepth : Nat := 0x03
def rsBadQueue : Nat := 0x04
def rsBadTarget : Nat := 0x05
def rsBadHandle : Nat := 0x06
def rsLatchNotOwned : Nat := 0x07
def rsShadowOut : Nat := 0x08
def rsShadowStale : Nat := 0x09
def rsEngineOp : Nat := 0x0A
def rsLevel : Nat := 0x0B
def rsEngineAbsent : Nat := 0x10
def rsHingeLate : Nat := 0x20
def rsHzEarly : Nat := 0x21
def rsSkipLimit : Nat := 0x3F

/-- Stands for the INFO of an entry to which 03 Table 3.13 gives no queue, target or generator: the byte logged is a free value (log 50). -/
def noInfo : Nat := 256

/-- What an operation on a command's behalf ends with: status, DETAIL and RESULT. -/
structure Res where
  st  : Nat
  det : Nat
  res : Nat
deriving DecidableEq, Repr

/-- An operation that completes OK with a RESULT. -/
def Res.ok (r : Nat) : Res := { st := stOK, det := 0, res := r }

/-- SKIPPED with a DETAIL. -/
def Res.skip (d : Nat) : Res := { st := stSkipped, det := d, res := 0 }

/-- DENIED with a DETAIL. -/
def Res.deny (d : Nat) : Res := { st := stDenied, det := d, res := 0 }

/-- Any other status with neither. -/
def Res.stat (st : Nat) : Res := { st := st, det := 0, res := 0 }

/-- DEFERRED with an estimate the spec leaves to the device (02 Table 2.5, log 8). -/
def Res.defer (k : Nat) : Res := { st := stDeferred, det := 0, res := Config.estimateUs k % 2 ^ 32 }

/-- The counter of a leaf (01 R34). -/
def State.ctr (s : State) (leaf : Nat) : Word := tgetD s.dev.ctr leaf 0

/-- The leaf of a cluster, a stack, a Pivot channel, a latch, a Wicket engine (00 Table 0.3; 03 R127). -/
def leafOfCluster (n : Nat) : Nat := n / 64 % 2
def leafOfStack (n : Nat) : Nat := n / 6 % 2
def leafOfChannel (n : Nat) : Nat := n / 16 % 2
def leafOfLatch (n : Nat) : Nat := n / 8192 % 2

/-- The leaf of a processor (13 Table 13.1). -/
def procLeaf (p : Nat) : Nat := if p = 3 || p = 5 then 1 else 0

/-- The port of a function, its number among the port's functions (0: physical), and back (02 R79). -/
def fnPort (f : Nat) : Nat := f / 17 % 2
def fnNum (f : Nat) : Nat := f % 17
def isPF (f : Nat) : Bool := f % 17 = 0
def pfOf (port : Nat) : Nat := port * 17

/-- Sends an MSI-X message (15 R522). -/
def msix (f v : Nat) (s : State) : State := s.onOut (fun o => { o with msix := (f, v) :: o.msix })

/-- MGMT_ALERT_N goes low (17 R584). -/
def mgmtAlert (s : State) : State := s.onPin (fun p => { p with mgmtAlertN := false })

/-- A device-interrupt event: sets its cause bit in both physical functions; raises where the bit goes from 0 to 1 with DEV_EN = 1 (16 R557);
in port HA's function a bit that turns to 1 pulls the management alert (17 R584). -/
def devEvent1 (bit f : Nat) (s : State) : State :=
  let fn := s.fnAt f
  if fn.cause.getLsbD bit then s
  else
    let s := s.modFn f (fun n => { n with cause := setBit n.cause bit true })
    let s := if fn.devEn then msix f fn.devVec s else s
    if f = 0 then mgmtAlert s else s

def devEvent (bit : Nat) (s : State) : State := devEvent1 bit 17 (devEvent1 bit 0 s)

/-- Raises the ECC interrupt on the physical function of each port (09 R342, R344; 16 Table 16.7). -/
def eccIrq (s : State) : State :=
  let r := fun f s => if (State.fnAt s f).eccEn then msix f (State.fnAt s f).eccVec s else s
  r 17 (r 0 s)

/-- Sets UE, CE_OVF, FAR_UE or FAR_DOWN bits of ECC_STATUS; a bit that turns to 1 pulls the management alert (17 R584). -/
def setUe (st : Nat) (s : State) : State :=
  let s' := s.onEccReg (fun e => { e with ue := setBit e.ue st true })
  if s.eccReg.ue.getLsbD st then s' else mgmtAlert s'

def setCeOvf (st : Nat) (s : State) : State :=
  let s' := s.onEccReg (fun e => { e with ceOvf := setBit e.ceOvf st true })
  if s.eccReg.ceOvf.getLsbD st then s' else mgmtAlert s'

def setFarUe (p : Nat) (s : State) : State :=
  let s' := s.onEccReg (fun e => { e with farUe := setBit e.farUe p true })
  if s.eccReg.farUe.getLsbD p then s' else mgmtAlert s'

def setFarDown (p : Nat) (s : State) : State :=
  let s' := s.onEccReg (fun e => { e with farDown := setBit e.farDown p true })
  if s.eccReg.farDown.getLsbD p then s' else mgmtAlert s'

/-- DB_ERR of a queue and of a function's admin queue (02 R52); APW_ERR of a function (09 R330). -/
def setDbErrFn (f : Nat) (s : State) : State := s.modFn f (fun n => { n with dbErr := true })
def setDbErrQ (q : Nat) (s : State) : State := s.updQueue q (fun x => { x with dbErr := true })
def setApwErr (f : Nat) (s : State) : State := s.modFn f (fun n => { n with apwErr := true })

/-- Appends an entry to a processor's log ring (13 R490, Table 13.13) unless its mask is clear: faults are always recorded. Newest first, at
most 2,048. -/
def trace (p pt sev : Nat) (a0 a1 : Word) (s : State) : State :=
  let time := s.ctr (procLeaf p)
  s.modProc p (fun x =>
    if sev < 3 && !bitW x.mask (pt % 4096 / 64) then x
    else
      let e : LogE := { time := time, index := BitVec.ofNat 32 x.logHead, trace := BitVec.ofNat 16 pt, sev := sev, arg0 := a0, arg1 := a1 }
      { x with log := (e :: x.log).take 2048, logHead := x.logHead + 1 })

end Sys2Proof.Machine
end

