-- ==== Sys2Proof/Machine/Operands.lean ====
section
/-! DEFINITION. Fields of packet headers (02 Table 2.4, Table 2.11), instruction words (03 Table 3.2, R591, Table 3.7, Table 3.10) and
engine command envelopes (03 Table 3.8), and the translation of a v3 header (02 R85). -/

namespace Sys2Proof.Machine

/-- Word i of eight. -/
def Hdr.word (h : Hdr) (i : Nat) : Word :=
  match i with
  | 0 => h.w0 | 1 => h.w1 | 2 => h.w2 | 3 => h.w3 | 4 => h.w4 | 5 => h.w5 | 6 => h.w6 | _ => h.w7

/-- The eight words of a 64-byte string, and back. -/
def hdrOf (bs : List Byte) : Hdr :=
  let w := fun i => BitVec.ofNat 64 (le bs (8 * i) 8)
  { w0 := w 0, w1 := w 1, w2 := w 2, w3 := w 3, w4 := w 4, w5 := w 5, w6 := w 6, w7 := w 7 }

def hdrBytes (h : Hdr) : List Byte := (List.range 8).flatMap (fun i => toLE (Hdr.word h i).toNat 8)

/-- Native header fields (02 Table 2.4). -/
def hSlots (h : Hdr) : Nat := fld h.w0 63 60
def hCtx (h : Hdr) : Nat := fld h.w0 59 48
def hTag (h : Hdr) : Nat := fld h.w0 47 32
def hOpc (h : Hdr) : Nat := fld h.w0 31 16
def hNowait (h : Hdr) : Bool := bitW h.w0 15
def hIrq (h : Hdr) : Bool := bitW h.w0 14
def hOrd (h : Hdr) : Bool := bitW h.w0 13
def hInline (h : Hdr) : Bool := bitW h.w0 12
def hVer (h : Hdr) : Nat := fld h.w0 7 0
def hA (h : Hdr) : Nat := fld h.w1 63 32
def hPlen (h : Hdr) : Nat := fld h.w1 31 0
def hPaddr (h : Hdr) : Nat := h.w2.toNat
def hB (h : Hdr) : Nat := fld h.w3 63 32
def hSigEn (h : Hdr) : Bool := bitW h.w3 31
def hSigAdd (h : Hdr) : Bool := bitW h.w3 30
def hSigLatch (h : Hdr) : Nat := fld h.w3 29 16
def hWaitEn (h : Hdr) : Bool := bitW h.w3 15
def hWaitLatch (h : Hdr) : Nat := fld h.w3 13 0
def hWaitVal (h : Hdr) : Word := h.w4
def hSigVal (h : Hdr) : Word := h.w5
def hC (h : Hdr) : Nat := h.w6.toNat
def hD (h : Hdr) : Nat := h.w7.toNat

/-- v3 header fields (02 Table 2.11). -/
def v3Slots (h : Hdr) : Nat := fld h.w0 31 24
def v3Ctx (h : Hdr) : Nat := fld h.w0 57 48

/-- Slots a packet occupies, by its header version alone (02 R57). -/
def pktExtent (h : Hdr) : Nat :=
  if hVer h = 4 then hSlots h + 1 else if hVer h = 3 then (if v3Slots h ≤ 15 then v3Slots h + 1 else 1) else 1

/-- CTX of the record of a packet that is not executed (02 R57). -/
def recCtx (h : Hdr) : Nat := if hVer h = 3 then v3Ctx h else hCtx h

/-- A reserved bit of a native or v3 header is set (02 Table 2.4, Table 2.11). -/
def hdrReserved (h : Hdr) : Bool :=
  if hVer h = 3 then
    fld h.w0 63 58 ≠ 0 || fld h.w0 23 19 ≠ 0 || fld h.w3 30 28 ≠ 0 || fld h.w3 14 12 ≠ 0 || h.w7 ≠ 0
  else fld h.w0 11 8 ≠ 0 || bitW h.w3 14

/-- The native counterpart of a v3 header (02 R85): SLOTS3 of at most 15 is assumed by its caller's check. -/
def v3Native (h : Hdr) : Hdr :=
  let w0 := 4 + b2n (bitW h.w0 16) * 2 ^ 12 + b2n (bitW h.w0 17) * 2 ^ 13 + b2n (bitW h.w0 18) * 2 ^ 14
    + fld h.w0 11 8 * 2 ^ 16 + fld h.w0 15 12 * 2 ^ 24 + fld h.w0 47 32 * 2 ^ 32 + v3Ctx h * 2 ^ 48 + v3Slots h % 16 * 2 ^ 60
  let w3 := fld h.w3 11 0 + b2n (bitW h.w3 15) * 2 ^ 15 + fld h.w3 27 16 * 2 ^ 16 + b2n (bitW h.w3 31) * 2 ^ 31
    + fld h.w4 63 32 * 2 ^ 32
  { w0 := BitVec.ofNat 64 w0, w1 := h.w1, w2 := h.w2, w3 := BitVec.ofNat 64 w3, w4 := BitVec.ofNat 64 (fld h.w3 63 32),
    w5 := BitVec.ofNat 64 (fld h.w4 31 0), w6 := h.w5, w7 := h.w6 }

/-- Instruction fields (03 Table 3.2, R591). -/
def iOp (w : Word) : Nat := fld w 63 56
def iGN (w : Word) : Bool := bitW w 55
def iGP (w : Word) : Nat := fld w 54 52
def iXD (w : Word) : Nat := fld w 51 47
def iXA (w : Word) : Nat := fld w 46 42
def iXB (w : Word) : Nat := fld w 41 37
def iPD (w : Word) : Nat := fld w 49 47
def iPA (w : Word) : Nat := fld w 44 42
def iPB (w : Word) : Nat := fld w 39 37
def iG (w : Word) : Nat := fld w 40 37
def iLN (w : Word) : Nat := fld w 51 50
def iCond (w : Word) : Nat := fld w 36 34
def iImm (w : Word) : Word := sext (fld w 31 0) 32
def iDisp (w : Word) : Word := sext (fld w 27 4) 24
def iB (w : Word) : Nat := fld w 23 0

/-- Bits hi:lo of an instruction word are all 0. -/
def iZero (w : Word) (hi lo : Nat) : Bool := fld w hi lo = 0

/-- PUSH operands (03 Table 3.7). -/
def pQueue (w : Word) : Nat := fld w 51 49
def pTmpl (w : Word) : Nat := fld w 48 35
def pPatch (w : Word) : Nat := fld w 34 27
def pXbase (w : Word) : Nat := fld w 26 22

/-- Envelope fields of an engine command (03 Table 3.8). -/
def eEop (h : Hdr) : Nat := fld h.w0 63 56
def eTarget (h : Hdr) : Nat := fld h.w0 55 48
def eWaitEn (h : Hdr) : Bool := bitW h.w0 47
def eSigEn (h : Hdr) : Bool := bitW h.w0 46
def eSigAdd (h : Hdr) : Bool := bitW h.w0 45
def eShadow (h : Hdr) : Bool := bitW h.w0 44
def eWaitLatch (h : Hdr) : Nat := fld h.w0 43 30
def eSigLatch (h : Hdr) : Nat := fld h.w0 29 16

end Sys2Proof.Machine
end

