-- ==== Sys2Proof/Machine/Latch.lean ====
section
/-! DEFINITION. Latches (03 R127-R132): set, add, poison and the evaluation of a wait, and which waits a latch has satisfied (R129). -/

namespace Sys2Proof.Machine

/-- set(L, V) of 03 R128. -/
def Latch.set (l : Latch) (v : Word) : Latch := if l.poison then l else { l with value := if l.value.toNat < v.toNat then v else l.value }

/-- add(L, V) of 03 R128: a sum past 2^64 - 1 poisons and leaves VALUE. -/
def Latch.add (l : Latch) (v : Word) : Latch :=
  if l.poison then l else if l.value.toNat + v.toNat < 2 ^ 64 then { l with value := l.value + v } else { l with poison := true }

/-- Two commands of one queue go to one engine (03 R108). -/
def sameEngine (a b : ECmd) : Bool :=
  a.qk = b.qk && (if a.qk = 0 then eTarget a.words &&& eTarget b.words ≠ 0 else eTarget a.words = eTarget b.words)

/-- A command pushed earlier for the same engine has not started. -/
def behind (c : Core) (e : ECmd) : Bool := (c.eq.takeWhile (fun x => x.uid ≠ e.uid)).any (fun x => x.st = .queued && sameEngine x e)

/-- A latch holds a value that satisfies a wait for `v` (03 R128). -/
def reached (s : State) (l : Nat) (v : Word) : Bool :=
  match s.getLatch l with
  | some x => !x.poison && decide (v.toNat ≤ x.value.toNat)
  | none => false

/-- The waits of a core on latch l that it satisfies now: of commands at the head of their engine, of the core itself, of its BRLs. -/
def Core.noteMet (s : State) (l : Nat) (c : Core) : Core :=
  { c with
    eq := c.eq.map (fun e => if e.st = .queued && eWaitEn e.words && eWaitLatch e.words = l && !behind c e && reached s l e.words.w1
      then { e with met := true } else e),
    stall := match c.stall with | some (k, v) => if k = l && reached s l v then none else c.stall | none => none,
    brls := c.brls.map (fun b => if b.latch = l && reached s l b.value then { b with met := true } else b) }

/-- The waits of a queue's commands on latch l that it satisfies now: of the command at the head, of a LATCH_WAIT in progress. -/
def Queue.noteMet (s : State) (l : Nat) (x : Queue) : Queue :=
  let head := (x.es.find? (fun e => e.ph = .waiting)).map (·.uid)
  { x with es := x.es.map (fun e =>
      if (some e.uid = head && e.chk && hWaitEn e.hdr && hWaitLatch e.hdr = l && reached s l (hWaitVal e.hdr))
        || (e.ph = .running && e.opc = 0x0504 && hA e.hdr = l && reached s l (BitVec.ofNat 64 (hC e.hdr)))
      then { e with met := true } else e) }

/-- Before a latch is poisoned every wait that it satisfies has been satisfied: later poison does not affect it (03 R129). -/
def noteMet (l : Nat) (s : State) : State :=
  (s.onCore (tmap (fun _ c => c.noteMet s l))).onQueue (tmap (fun _ x => x.noteMet s l))

/-- A signal to latch `l`; one that is not allocated ignores it. -/
def signalLatch (l : Nat) (v : Word) (add : Bool) (s : State) : State :=
  (noteMet l s).updLatch l (fun x => if add then x.add v else x.set v)

/-- Poisons latch `l`. -/
def poisonLatch (l : Nat) (s : State) : State := (noteMet l s).updLatch l (fun x => { x with poison := true })

/-- How a wait stands. -/
inductive Wait
  | met | pending | failed
deriving DecidableEq, Repr

/-- wait(L, V) of 03 R128. A wait on a latch that has been freed fails (R132). -/
def waitOn (s : State) (l : Nat) (v : Word) : Wait :=
  match s.getLatch l with
  | none => .failed
  | some x => if x.poison then .failed else if v.toNat ≤ x.value.toNat then .met else .pending

/-- Whether context `c` owns latch `l` (03 R131); a latch that is not allocated counts as another's (R133). -/
def ownsLatch (s : State) (c l : Nat) : Bool :=
  match s.getLatch l with
  | some x => x.owner = c
  | none => false

/-- The latches a context owns, ascending. -/
def latchesOf (s : State) (c : Nat) : List Nat := tkeys (tfilter (fun _ l => l.owner = c) s.latch)

/-- Poisons every latch of a context (11 R431 step 4). -/
def poisonCtxLatches (c : Nat) (s : State) : State := (latchesOf s c).foldl (fun s l => poisonLatch l s) s

end Sys2Proof.Machine
end

