-- ==== Sys2Proof/Machine/Numerics.lean ====
section
/-! DEFINITION. Number formats and their arithmetic (04 R160-R163): exact values, rounding to nearest with ties away from zero, saturation,
packing of elements, data block and Transom block headers (04 R165, R166). -/

namespace Sys2Proof.Machine

/-- An exact value: NaN, an infinity, or ± num ÷ den; a zero keeps its sign. -/
inductive Val
  | nan
  | inf (neg : Bool)
  | fin (neg : Bool) (num den : Nat)
deriving DecidableEq, Repr

/-- m × 2^k. -/
def scaled (neg : Bool) (m : Nat) (k : Int) : Val := if 0 ≤ k then .fin neg (m * 2 ^ k.toNat) 1 else .fin neg m (2 ^ (-k).toNat)

/-- A binary format: exponent and significand widths, bias, code of the largest finite value, of infinity and of the canonical NaN. -/
structure FFmt where
  eb   : Nat
  mb   : Nat
  bias : Int
  maxc : Nat
  infc : Option Nat
  nanc : Option Nat
deriving DecidableEq, Repr

/-- The binary formats of 04 Table 4.10. -/
def ffmt (code : Nat) : Option FFmt :=
  if code = 0x01 then some { eb := 8, mb := 23, bias := 127, maxc := 0x7F7FFFFF, infc := some 0x7F800000, nanc := some 0x7FC00000 }
  else if code = 0x02 then some { eb := 8, mb := 7, bias := 127, maxc := 0x7F7F, infc := some 0x7F80, nanc := some 0x7FC0 }
  else if code = 0x03 then some { eb := 5, mb := 10, bias := 15, maxc := 0x7BFF, infc := some 0x7C00, nanc := some 0x7E00 }
  else if code = 0x10 then some { eb := 4, mb := 3, bias := 7, maxc := 0x7E, infc := none, nanc := some 0x7F }
  else if code = 0x11 then some { eb := 5, mb := 2, bias := 15, maxc := 0x7B, infc := some 0x7C, nanc := some 0x7E }
  else if code = 0x12 then some { eb := 3, mb := 2, bias := 3, maxc := 0x1F, infc := none, nanc := none }
  else if code = 0x13 then some { eb := 2, mb := 1, bias := 1, maxc := 0x7, infc := none, nanc := none }
  else none

/-- Bits of an element of a format: RAW counts bytes (07 R263). -/
def fmtBits (code : Nat) : Nat :=
  if code = 0x01 then 32 else if code = 0x02 || code = 0x03 then 16 else if code = 0x12 then 6
  else if code = 0x13 || code = 0x21 then 4 else 8

/-- Bytes of n elements. -/
def fmtBytes (code n : Nat) : Nat := (n * fmtBits code + 7) / 8

/-- The value of an encoding (04 R160): subnormals honoured; FP8E4M3's S.1111.111 and UE8M0's 0xFF are NaN. -/
def decodeVal (code bits : Nat) : Val :=
  match ffmt code with
  | some f =>
    let neg := bits.testBit (f.eb + f.mb)
    let mag := bits % 2 ^ (f.eb + f.mb)
    let e := mag / 2 ^ f.mb
    let m := mag % 2 ^ f.mb
    if some mag = f.infc then .inf neg
    else if f.maxc < mag then .nan
    else if e = 0 then scaled neg m (1 - f.bias - f.mb)
    else scaled neg (m + 2 ^ f.mb) (e - f.bias - f.mb)
  | none =>
    if code = 0x20 then (if bits % 256 < 128 then .fin false (bits % 256) 1 else .fin true (256 - bits % 256) 1)
    else if code = 0x21 then (if bits % 16 < 8 then .fin false (bits % 16) 1 else .fin true (16 - bits % 16) 1)
    else if code = 0x30 then (if bits = 0xFF then .nan else scaled false 1 (bits - 127))
    else .fin false bits 1

/-- The floor of the binary logarithm of num ÷ den, num not 0. -/
def flog2 (num den : Nat) : Int :=
  let e : Int := (Nat.log2 num : Int) - Nat.log2 den
  let ge := if 0 ≤ e then decide (den * 2 ^ e.toNat ≤ num) else decide (den ≤ num * 2 ^ (-e).toNat)
  if ge then e else e - 1

/-- num ÷ den × 2^k to the nearest whole number, ties away from zero (04 R161). -/
def roundScaled (num den : Nat) (k : Int) : Nat :=
  let n := if 0 ≤ k then num * 2 ^ k.toNat else num
  let d := if 0 ≤ k then den else den * 2 ^ (-k).toNat
  (2 * n + d) / (2 * d)

/-- The code of a value in a format, and whether a NaN became +0 (04 R161). -/
def encodeVal (code : Nat) (v : Val) : Nat × Bool :=
  match ffmt code with
  | some f =>
    let sgn := fun (neg : Bool) (c : Nat) => if neg then c + 2 ^ (f.eb + f.mb) else c
    match v with
    | .nan => match f.nanc with | some c => (c, false) | none => (0, true)
    | .inf neg => (sgn neg (f.infc.getD f.maxc), false)
    | .fin neg num den =>
      if num = 0 then (sgn neg 0, false)
      else
        let emin : Int := 1 - f.bias
        let e := flog2 num den
        let e := if e < emin then emin else e
        let n := roundScaled num den (f.mb - e)
        let c := (e - emin).toNat * 2 ^ f.mb + n
        (sgn neg (Nat.min c f.maxc), false)
  | none =>
    let w := if code = 0x21 then 4 else 8
    let hi := 2 ^ (w - 1) - 1
    match v with
    | .nan => (0, true)
    | .inf neg => (if neg then 2 ^ (w - 1) else hi, false)
    | .fin neg num den =>
      let n := roundScaled num den 0
      if neg then (if 2 ^ (w - 1) ≤ n then (2 ^ (w - 1), false) else ((2 ^ w - n) % 2 ^ w, false))
      else (Nat.min n hi, false)

/-- FP32 values and rounding to FP32. -/
def v32 (x : BitVec 32) : Val := decodeVal 0x01 x.toNat
def r32 (v : Val) : BitVec 32 := BitVec.ofNat 32 (encodeVal 0x01 v).1

/-- The canonical FP32 NaN. -/
def nan32 : BitVec 32 := 0x7FC00000

def Val.neg : Val → Val
  | .nan => .nan
  | .inf b => .inf (!b)
  | .fin b n d => .fin (!b) n d

/-- Exact product (04 R162): an infinity times 0 is NaN. -/
def Val.mul : Val → Val → Val
  | .nan, _ => .nan
  | _, .nan => .nan
  | .inf a, .inf b => .inf (a != b)
  | .inf a, .fin b n _ => if n = 0 then .nan else .inf (a != b)
  | .fin a n _, .inf b => if n = 0 then .nan else .inf (a != b)
  | .fin a n d, .fin b m e => .fin (a != b) (n * m) (d * e)

/-- Exact sum (04 R162): opposite infinities give NaN, +0 and -0 give +0; a sum of opposite finite values is +0 (log 15). -/
def Val.add : Val → Val → Val
  | .nan, _ => .nan
  | _, .nan => .nan
  | .inf a, .inf b => if a = b then .inf a else .nan
  | .inf a, .fin _ _ _ => .inf a
  | .fin _ _ _, .inf b => .inf b
  | .fin a n d, .fin b m e =>
    let x := n * e
    let y := m * d
    if a = b then .fin a (x + y) (d * e)
    else if x = y then .fin false 0 1
    else if y < x then .fin a (x - y) (d * e) else .fin b (y - x) (d * e)

/-- Exact quotient: x ÷ 0 is an infinity, 0 ÷ 0 and infinity ÷ infinity NaN (log 15). -/
def Val.div : Val → Val → Val
  | .nan, _ => .nan
  | _, .nan => .nan
  | .inf _, .inf _ => .nan
  | .inf a, .fin b _ _ => .inf (a != b)
  | .fin a _ _, .inf b => .fin (a != b) 0 1
  | .fin a n d, .fin b m e => if m = 0 then (if n = 0 then .nan else .inf (a != b)) else .fin (a != b) (n * e) (d * m)

/-- Strictly less, in numeric order; -0 equals +0; NaN compares false. -/
def Val.lt : Val → Val → Bool
  | .nan, _ => false
  | _, .nan => false
  | .inf a, .inf b => a && !b
  | .inf a, .fin _ _ _ => a
  | .fin _ _ _, .inf b => !b
  | .fin a n d, .fin b m e =>
    let x := n * e
    let y := m * d
    if a && b then decide (y < x) else if a then decide (0 < x || 0 < y) else if b then false else decide (x < y)

def Val.isNan : Val → Bool
  | .nan => true
  | _ => false

def Val.isZero : Val → Bool
  | .fin _ n _ => n = 0
  | _ => false

/-- FP32 operations, each rounded once (04 R161, R162). -/
def add32 (a b : BitVec 32) : BitVec 32 := r32 ((v32 a).add (v32 b))
def sub32 (a b : BitVec 32) : BitVec 32 := r32 ((v32 a).add (v32 b).neg)
def mul32 (a b : BitVec 32) : BitVec 32 := r32 ((v32 a).mul (v32 b))
def div32 (a b : BitVec 32) : BitVec 32 := r32 ((v32 a).div (v32 b))

/-- A sum of values in a fixed binary tree, each addition rounded to FP32; the tree's shape is not given (04 R162, 05 R191; log 10). -/
def treeSum (unit : Nat) : Nat → List Val → Val
  | 0, _ => .fin false 0 1
  | _ + 1, [] => .fin false 0 1
  | _ + 1, [x] => x
  | fuel + 1, l =>
    let n := l.length
    let k := 1 + Config.treeSplit unit n % (n - 1)
    v32 (r32 ((treeSum unit fuel (l.take k)).add (treeSum unit fuel (l.drop k))))

/-- An exact sum. -/
def exactSum (l : List Val) : Val := match l with | [] => .fin false 0 1 | x :: xs => xs.foldl Val.add x

/-- Element i of a packed row. -/
def elemAt (code : Nat) (bs : List Byte) (i : Nat) : Nat :=
  let w := fmtBits code
  let b := i * w
  fldN (le bs (b / 8) 5) (b % 8 + w - 1) (b % 8)

/-- n elements of a packed row. -/
def elems (code n : Nat) (bs : List Byte) : List Nat := (List.range n).map (elemAt code bs)

/-- The number packed elements spell, the first in the lowest bits. -/
def packNat (w : Nat) : List Nat → Nat
  | [] => 0
  | x :: xs => x % 2 ^ w + 2 ^ w * packNat w xs

/-- Packs elements from bit 0 up. -/
def packElems (code : Nat) (l : List Nat) : List Byte := toLE (packNat (fmtBits code) l) (fmtBytes code l.length)

/-- Group sizes by code (04 Table 4.2); 0 means no scales. -/
def gSize (g : Nat) : Nat := if g = 1 then 32 else if g = 2 then 64 else if g = 3 then 128 else 0

/-- The scale a byte stands for (04 R163). -/
def scaleVal (sfmt : Nat) (b : Byte) : Val := decodeVal (if sfmt = 0 then 0x30 else 0x10) b.toNat

/-- A data block header (04 Table 4.11). -/
structure DHdr where
  len    : Nat
  rows   : Nat
  cols   : Nat
  fmt    : Nat
  g      : Nat
  sfmt   : Nat
  poison : Bool
  nanz   : Bool
  tag    : Nat
deriving DecidableEq, Repr

def dhdrOf (bs : List Byte) : DHdr :=
  let lo := le bs 0 8
  let hi := le bs 8 8
  { len := fldN hi 63 32, rows := fldN hi 31 16, cols := fldN hi 15 0, fmt := fldN lo 23 16, g := fldN lo 15 14, sfmt := fldN lo 13 13,
    poison := lo.testBit 12, nanz := lo.testBit 11, tag := fldN lo 3 0 }

def dhdrBytes (h : DHdr) : List Byte :=
  toLE (h.tag % 16 + b2n h.nanz * 2 ^ 11 + b2n h.poison * 2 ^ 12 + h.sfmt % 2 * 2 ^ 13 + h.g % 4 * 2 ^ 14 + h.fmt % 256 * 2 ^ 16) 8
  ++ toLE (h.cols % 2 ^ 16 + h.rows % 2 ^ 16 * 2 ^ 16 + h.len % 2 ^ 32 * 2 ^ 32) 8 ++ zeros 48

/-- A Transom block header (04 Table 4.12). -/
structure THdr where
  count : Nat
  g     : Nat
  sfmt  : Nat
  tag   : Nat
deriving DecidableEq, Repr

def thdrOf (bs : List Byte) : THdr :=
  let lo := le bs 0 8
  { count := fldN lo 31 16, g := fldN lo 15 14, sfmt := fldN lo 13 13, tag := fldN lo 3 0 }

def thdrBytes (h : THdr) : List Byte := toLE (h.tag % 16 + h.sfmt % 2 * 2 ^ 13 + h.g % 4 * 2 ^ 14 + h.count % 2 ^ 16 * 2 ^ 16) 8 ++ zeros 56

/-- Bytes of a Transom block with n scales. -/
def transomLen (n : Nat) : Nat := 64 + alignUp n 64

/-- Conversion of one element between formats; equal formats copy the bits (04 R161, 07 R277). -/
def convElem (src dst x : Nat) : Nat × Bool := if src = dst then (x, false) else encodeVal dst (decodeVal src x)

end Sys2Proof.Machine
end

