-- ==== Sys2Proof/Machine/Sf.lean ====
section
/-! DEFINITION. Special functions in FP32 (05 R194; finite operands are opaque, log 9), and the capture of a score area (05 R199). -/

namespace Sys2Proof.Machine

/-- FP32 constants. -/
def f32Zero : BitVec 32 := 0
def f32One : BitVec 32 := 0x3F800000
def f32NegInf : BitVec 32 := 0xFF800000

/-- A function of one operand: NaN gives the canonical NaN, an infinity or a zero its stated value, anything else `f`. -/
def sfBy (x : BitVec 32) (negInf posInf negZero posZero : Val) (f : BitVec 32 → BitVec 32) : BitVec 32 :=
  match v32 x with
  | .nan => nan32
  | .inf true => r32 negInf
  | .inf false => r32 posInf
  | .fin neg n _ => if n = 0 then r32 (if neg then negZero else posZero) else f x

/-- Exact values. -/
def vZero (neg : Bool) : Val := .fin neg 0 1
def vOne : Val := .fin false 1 1

/-- exp, sigmoid, tanh, GELU, reciprocal and rsqrt (05 R194). At -32,768 and below exp is +0 exactly (06 R242). -/
def sExp (x : BitVec 32) : BitVec 32 :=
  sfBy x (vZero false) (.inf false) vOne vOne (fun x => if Val.lt (.fin true 32768 1) (v32 x) then Config.sfExp x else f32Zero)
def sSigmoid (x : BitVec 32) : BitVec 32 := sfBy x (vZero false) vOne (.fin false 1 2) (.fin false 1 2) Config.sfSigmoid
def sTanh (x : BitVec 32) : BitVec 32 := sfBy x (.fin true 1 1) vOne (vZero true) (vZero false) Config.sfTanh
def sGelu (x : BitVec 32) : BitVec 32 := sfBy x (vZero true) (.inf false) (vZero true) (vZero false) Config.sfGelu
def sRecip (x : BitVec 32) : BitVec 32 := sfBy x (vZero true) (vZero false) (.inf true) (.inf false) Config.sfRecip
def sRsqrt (x : BitVec 32) : BitVec 32 :=
  sfBy x .nan (vZero false) (.inf true) (.inf false) (fun x => if (v32 x).lt (vZero false) then nan32 else Config.sfRsqrt x)

/-- SiLU (05 Table 5.6). -/
def sSilu (x : BitVec 32) : BitVec 32 :=
  match v32 x with
  | .inf true => r32 (vZero true)
  | _ => mul32 x (sSigmoid x)

/-- Maximum and minimum; a NaN operand gives NaN (04 R162, 05 R194). -/
def max32 (a b : BitVec 32) : BitVec 32 :=
  if (v32 a).isNan || (v32 b).isNan then nan32 else if (v32 a).lt (v32 b) then b else a
def min32 (a b : BitVec 32) : BitVec 32 :=
  if (v32 a).isNan || (v32 b).isNan then nan32 else if (v32 b).lt (v32 a) then b else a

/-- A sum of FP32 values in a unit's fixed tree (log 10). -/
def sum32 (l : List (BitVec 32)) : BitVec 32 := r32 (treeSum 1 l.length (l.map v32))

/-- The state of a row after a code word of 32 BF16 scores is written (05 R199). -/
def captureRow (st : BitVec 32 × BitVec 32) (bs : List Byte) : BitVec 32 × BitVec 32 :=
  let xs := (elems 0x02 32 bs).map (fun e => r32 (decodeVal 0x02 e))
  let mb := xs.foldl max32 (xs.headD f32NegInf)
  let mn := max32 st.1 mb
  (mn, add32 (mul32 st.2 (sExp (sub32 st.1 mn))) (sum32 (xs.map (fun x => sExp (sub32 x mn)))))

/-- The row of an armed area that a code word of a unit lies in; none once its SMX_NORM has started (05 R200). -/
def Armed.rowOf (a : Armed) (unit off : Nat) : Option Nat :=
  if a.norm.isNone && a.unit = unit && decide (a.base ≤ off) && decide (off < a.base + a.n * a.k * 2) then some ((off - a.base) / (2 * a.k)) else none

/-- m and s of a row: -∞ and 0 before any capture. -/
def Armed.row (a : Armed) (r : Nat) : BitVec 32 × BitVec 32 := tgetD a.rows r (f32NegInf, f32Zero)

/-- A write at `off` of bank set `unit` breaks the rules of 06 R244: the row it touches is undefined after SMX_NORM. -/
def spoilRow (unit off : Nat) (s : State) : State :=
  s.onArmed (fun l => l.map (fun a =>
    match a.rowOf unit off with
    | some r => { a with spoilt := dedupN (r :: a.spoilt) }
    | none => a))

/-- SCORE_CAPTURE (05 R199): a whole code word lands in bank set `unit` at `off`. One written twice is counted twice, and spoils its row (06 R244). -/
def captureWord (unit off : Nat) (bs : List Byte) (s : State) : State :=
  s.onArmed (fun l => l.map (fun a =>
    match a.rowOf unit off with
    | some r =>
      let w := (off - a.base) / 64
      { a with rows := tset a.rows r (captureRow (a.row r) bs), seen := dedupN (w :: a.seen),
               spoilt := if a.seen.contains w then dedupN (r :: a.spoilt) else a.spoilt }
    | none => a))

/-- A partial write into an armed area leaves its row undefined (06 R244): free values. -/
def capturePart (unit off : Nat) (s : State) : State :=
  if s.armed.any (fun a => (a.rowOf unit off).isSome) then
    let (k, s) := s.fresh
    spoilRow unit off (s.onArmed (fun l => l.map (fun a =>
      match a.rowOf unit off with
      | some r => { a with rows := tset a.rows r ((Config.freeWord k 0).setWidth 32, (Config.freeWord k 1).setWidth 32) }
      | none => a)))
  else s

end Sys2Proof.Machine
end

