-- ==== Sys2Proof/Machine/Mem.lean ====
section
/-! DEFINITION. Memory: stack code words with their error state (09 R336-R344), the Letterbox and the merge buffer (09 R331-R339), the far
tier (09 R352-R356) and translation of device virtual addresses (09 R320-R323). -/

namespace Sys2Proof.Machine

/-- A stack address: bank set b of stack t at offset off. -/
def stAddr (t b off : Nat) : Nat := (t * 64 + b) * 2 ^ 30 + off

/-- Stack, bank set and offset of a stack address. -/
def saStack (a : Nat) : Nat := a / 2 ^ 36
def saBank (a : Nat) : Nat := a / 2 ^ 30 % 64
def saOff (a : Nat) : Nat := a % 2 ^ 30

/-- The ECC test window: the top 1 MiB of bank set 63 (09 R322). -/
def inWindow (a : Nat) : Bool := saBank a = 63 && decide (0x3FF00000 ≤ saOff a)

/-- A range cut at multiples of g: starts and lengths, ascending. -/
def pieces (g a n : Nat) : List (Nat × Nat) :=
  if n = 0 then []
  else (List.range ((a + n - 1) / g - a / g + 1)).map (fun i =>
    let lo := Nat.max a ((a / g + i) * g)
    (lo, Nat.min (a + n) ((a / g + i + 1) * g) - lo))

/-- LOC of a stack address in an ECC_UE_LOG entry (16 Table 16.23; 05 R175). -/
def ueLoc (a : Nat) : Word :=
  BitVec.ofNat 64 (a / 64 % 64 * 2 ^ 32 + saOff a / 2 ^ 16 * 2 ^ 16 + saOff a / 2 ^ 12 % 16 * 2 ^ 8 + saBank a)

/-- Adds an entry to log `k` (a stack, or 12 for the far log), which keeps the 16 most recent (09 R344). -/
def ueAppend (k port src : Nat) (time : Word) (loc : Word) (s : State) : State :=
  s.modEcc k (fun e =>
    { e with ueHead := e.ueHead + 1,
             ueLog := ({ index := BitVec.ofNat 16 e.ueHead, port := port, src := src, time := time.setWidth 32, loc := loc } :: e.ueLog).take 16 })

/-- ECC_UE_LOG: an uncorrectable read of a stack word is logged, UE is set and the ECC interrupt raised (09 R344). -/
def logUeAt (src a : Nat) (s : State) : State :=
  eccIrq (setUe (saStack a) (ueAppend (saStack a) 0 src (s.ctr (leafOfStack (saStack a))) (ueLoc a) s))

/-- The same outside the test window, where nothing happens (R351). -/
def logUe (src a : Nat) (s : State) : State := if inWindow a then s else logUeAt src a s

/-- The same for a far read on port p (09 R344, R356). -/
def logFarUe (src p a : Nat) (s : State) : State := eccIrq (setFarUe p (ueAppend 12 p src (s.ctr 0) (BitVec.ofNat 64 (a / 64)) s))

/-- The bucket after a correction that adds to it: BUCKET_OVERFLOW at THRESH (09 R342). -/
def bucketAdd (t : Nat) (s : State) : State :=
  let lvl := (s.eccAt t).level + 1
  if lvl < s.eccReg.thresh then s.modEcc t (fun e => { e with level := lvl })
  else
    let s : State := s.modEcc t (fun e => { e with level := 0 })
    if s.eccReg.ceOvf.getLsbD t then s.modEcc t (fun e => { e with ovf := Nat.min (e.ovf + 1) (2 ^ 32 - 1) })
    else eccIrq (setCeOvf t s)

/-- Counts a correction of code word `cw` (stack address ÷ 64) under the filter of 09 R341. -/
def countCorr (cw : Nat) (s : State) : State :=
  let t := saStack (cw * 64)
  let e := s.eccAt t
  let f' := (cw :: e.filter.filter (fun x => x ≠ cw)).take 16
  let s : State := s.modEcc t (fun e => { e with filter := f' })
  if e.filter.contains cw then s
  else bucketAdd t (s.modEcc t (fun e => { e with total := Nat.min (e.total + 1) (2 ^ 32 - 1) }))

/-- Reads a stored code word: corrected data counted, an uncorrectable or poisoned word logged with its source (09 R341, R344). -/
def readWord (src cw : Nat) (s : State) : State × Option (List Byte) :=
  match s.getHealth cw with
  | none => (s, some (mread s.stackMem (cw * 64) 64))
  | some (.corr _) => (countCorr cw s, some (mread s.stackMem (cw * 64) 64))
  | some _ => (logUe src (cw * 64) s, none)

/-- Stores a code word with fresh check symbols (09 R337). -/
def storeWord (cw : Nat) (bs : List Byte) (s : State) : State := (s.onStackMem (fun m => mwrite m (cw * 64) bs)).delHealth cw

/-- A whole code word lands in its bank set, and an armed area there captures it (05 R199). -/
def writeWord (cw : Nat) (bs : List Byte) (s : State) : State :=
  captureWord (saStack (cw * 64) * 64 + saBank (cw * 64)) (saOff (cw * 64)) bs (storeWord cw bs s)

/-- Bytes written over a string: cell i replaces byte i. -/
def mergeCells (bs : List Byte) (cells : Tbl Byte) : List Byte :=
  (List.range bs.length).map (fun i => (tget cells i).getD (bs.getD i 0))

/-- Cells with a byte string laid over them from position p. -/
def putCells (cells : Tbl Byte) (p : Nat) : List Byte → Tbl Byte
  | [] => cells
  | b :: bs => putCells (tset cells p b) (p + 1) bs

/-- Cells of `new` laid over `old`. -/
def overCells (old new : Tbl Byte) : Tbl Byte := new.foldl (fun c e => tset c e.1 e.2) old

/-- The read-modify-write of a partial code word (09 R339): corrected before the merge; written poisoned, logged and reported to its
commands where the stored word is uncorrectable (R340). -/
def rmw (cw : Nat) (cells : Tbl Byte) (owners : List Nat) (s : State) : State :=
  let t := saStack (cw * 64)
  let merged := mergeCells (mread s.stackMem (cw * 64) 64) cells
  let s : State := capturePart (t * 64 + saBank (cw * 64)) (saOff (cw * 64)) s
  match s.getHealth cw with
  | none => storeWord cw merged s
  | some (.corr _) => storeWord cw merged (countCorr cw s)
  | some _ =>
    ((storeWord cw merged (logUe 5 (cw * 64) s)).putHealth cw .poison).modLb t
      (fun b => { b with bad := b.bad ++ owners.filter (fun u => u ≠ 0) })

/-! Translation. -/

/-- Where a virtual address lies. -/
inductive Loc
  | stk (a : Nat)
  | far (a : Nat)
  | host (port a : Nat)
deriving DecidableEq, Repr

/-- Virtual length of an allocation is `len`; whether it holds an address. -/
def Alloc.has (a : Alloc) (va : Nat) : Bool := decide (a.base ≤ va) && decide (va < a.base + a.len)

/-- The translation of an address inside an allocation (09 R323). -/
def Alloc.loc (a : Alloc) (va : Nat) : Loc :=
  let d := va - a.base
  match a.kind with
  | .interleaved =>
    let ss := ones a.smask
    let bs := ones a.bsmask
    let g := d / 4096
    .stk (stAddr (nth ss (g % ss.length) 0) (nth bs (g / ss.length % bs.length) 0) (a.off + g / (ss.length * bs.length) * 4096 + d % 4096))
  | .stripe => .stk (stAddr (nth (ones a.smask) 0 0) (nth (ones a.bsmask) (d / a.unit) 0) (a.off + d % a.unit))
  | .far => .far (a.off + d)
  | .host => .host a.port (a.off + d)

/-- The casement of a context. -/
def ctxCas (s : State) (c : Nat) : Nat := match s.getCtx c with | some x => x.cas | none => 0

/-- The model context of a casement (11 R411). -/
def modelOf (s : State) (cas : Nat) : Option Nat :=
  s.ctx.findSome? (fun e => if e.2.cas = cas && e.2.model then some e.1 else none)

/-- The allocation that maps an address for a context, and whether the context may only read it: its own, or an interleaved or stripe
allocation of its casement's model context (11 R411). -/
def findAlloc (s : State) (c va : Nat) : Option (Alloc × Bool) :=
  match s.alloc.findSome? (fun e => if e.2.ctx = c && e.2.has va then some e.2 else none) with
  | some a => some (a, a.ro)
  | none =>
    match modelOf s (ctxCas s c) with
    | none => none
    | some m =>
      if m = c then none
      else (s.alloc.findSome? (fun e =>
        if e.2.ctx = m && e.2.has va && (e.2.kind = .interleaved || e.2.kind = .stripe) then some e.2 else none)).map (fun a => (a, true))

/-- Whether a whole range is mapped for a context. -/
def mapped (s : State) (c va n : Nat) : Bool :=
  decide (va + n ≤ 2 ^ 52) && (pieces 4096 va n).all (fun p => (findAlloc s c p.1).isSome)

/-! Reaching a stack: what keeps an access waiting. -/

/-- The wake of a gated unit begins (01 R36, Table 1.7). -/
def wakeFor (u : GUnit) (s : State) : State :=
  if s.gated.contains u && !s.wake.contains u then s.onWake (fun l => l ++ [u]) else s

/-- A bank set admits no foreign access: a burst or a refresh is in progress (05 R204, R211), and no yield has admitted the command in hand. -/
def bankShut (s : State) (u : Nat) : Bool :=
  let b := s.bankAt u
  (b.burst || b.refresh) && !(s.acc.on && b.grant.contains s.acc.who)

/-- A stack address cannot be reached now. -/
def stkShut (s : State) (a : Nat) : Bool := s.gated.contains (.stack (saStack a)) || bankShut s (a / 2 ^ 30)

/-- An access comes to the Letterbox of a stack: a gated one is woken and keeps the access waiting (01 R36, R39). -/
def reachStack (a : Nat) (s : State) : State :=
  let g := GUnit.stack (saStack a)
  if s.gated.contains g then
    let s : State := wakeFor g s
    if s.acc.on then s.onAcc (fun r => { r with units := if r.units.contains g then r.units else r.units ++ [g] }) else s
  else s

/-- An access comes to a bank set (05 R204, R205). -/
def reachBank (a : Nat) (s : State) : State :=
  let u := a / 2 ^ 30
  let s : State := reachStack a s
  if bankShut s u && s.acc.on then s.onAcc (fun r => { r with banks := if r.banks.contains u then r.banks else r.banks ++ [u] }) else s

/-- A write of n bytes at x of a space (0 stacks, 1 far tier, 2 buses) meets the page table of a sequence. -/
def ptMeets (s : State) (space x n : Nat) (q : Seq) : Bool :=
  let meets := fun (y k : Nat) => decide (x < y + k) && decide (y < x + n)
  (pieces 4096 q.pt (q.layers * q.pmax * 8)).any (fun p => match findAlloc s q.ctx p.1 with
    | some (a, _) => (match a.loc p.1 with
      | .stk y => space = 0 && meets y p.2
      | .far y => space = 1 && meets y p.2
      | .host port y => space = 2 && meets (port * 2 ^ 64 + y) p.2)
    | none => false)

/-- A write is remembered under the command that makes it (02 R69), and leaves a sequence whose page table it meets undefined (06 R225). -/
def noteWrite (owner space a n : Nat) (s : State) : State :=
  if n = 0 then s
  else
    let s : State := if s.seq.any (fun e => ptMeets s space a n e.2) then
        s.onSeq (tmap (fun _ q => if ptMeets s space a n q then { q with wild := true } else q)) else s
    if owner = 0 then s else s.onWlog (fun t => tset t owner (tgetD t owner [] ++ [(space, a, n)]))

/-- The merge entry of a code word. -/
def mergeEntry (s : State) (cw : Nat) : Option LbLine := (s.lbAt (saStack (cw * 64))).merge.find? (fun l => l.addr = cw)

/-- The code words of an entry that is uncorrectable in its own SECDED are written poisoned and logged with source LB (09 Table 9.4; 16 Table 16.24). -/
def poisonWord (cw : Nat) (cells : Tbl Byte) (s : State) : State :=
  let merged := mergeCells (mread s.stackMem (cw * 64) 64) cells
  ((storeWord cw merged (logUe 6 (cw * 64) s)).putHealth cw .poison).modLb (saStack (cw * 64))
    (fun b => { b with ue := if b.ue = BitVec.allOnes 32 then b.ue else b.ue + 1 })

/-- The merge entry of a code word reaches its bank set (09 R338). -/
def mergeOut (l : LbLine) (s : State) : State :=
  let s : State := s.modLb (saStack (l.addr * 64)) (fun b => { b with merge := b.merge.filter (fun x => x.addr ≠ l.addr) })
  if l.bad then poisonWord l.addr l.cells s else rmw l.addr l.cells (l.owners.map (·.1)) s

/-- MERGE_ENTRY_DRAIN of the entry of a code word, if there is one (09 R338); it waits for a bank set that is shut (05 R205). -/
def drainMerge (cw : Nat) (s : State) : State :=
  match mergeEntry s cw with
  | none => s
  | some l =>
    if stkShut s (cw * 64) then
      (reachBank (cw * 64) s).modLb (saStack (cw * 64)) (fun b => { b with merge := b.merge.map (fun x => if x.addr = cw then { x with due := true } else x) })
    else mergeOut l s

/-- The entry of a merge group that makes room: the oldest whose bank set is open, or else the oldest. -/
def oldestOf (s : State) (l : List LbLine) : Option LbLine :=
  match l.find? (fun x => !stkShut s (x.addr * 64)) with | some x => some x | none => l.head?

/-- A code word's bytes leave the Letterbox: a complete word is written whole, a partial one merges into its entry or takes one of the 32
of its channel group, the oldest draining first where none is left (09 R332, R338). -/
def mergeInto (cw : Nat) (cells : Tbl Byte) (owners : List (Nat × Nat)) (s : State) : State :=
  let t := saStack (cw * 64)
  let old := mergeEntry s cw
  let all := match old with | some l => overCells l.cells cells | none => cells
  let own := match old with | some l => l.owners ++ owners | none => owners
  let bad := match old with | some l => l.bad | none => false
  if all.length = 64 && !bad then
    writeWord cw (mergeCells (zeros 64) all) (s.modLb t (fun b => { b with merge := b.merge.filter (fun x => x.addr ≠ cw) }))
  else match old with
    | some _ =>
      s.modLb t (fun b => { b with merge := b.merge.map (fun x => if x.addr = cw then { x with cells := all, owners := own } else x) })
    | none =>
      let grp := (s.lbAt t).merge.filter (fun x => saBank (x.addr * 64) / 16 = saBank (cw * 64) / 16)
      let s : State := if grp.length < 32 then s else match oldestOf s grp with | some o => mergeOut o s | none => s
      s.modLb t (fun b => { b with merge := b.merge ++ [{ addr := cw, cells := cells, owners := owners, due := false, bad := false }] })

/-- The cells of half h (0 or 1) of a Letterbox line, numbered from 0. -/
def halfCells (cells : Tbl Byte) (h : Nat) : Tbl Byte :=
  (cells.filter (fun e => e.1 / 64 = h)).map (fun e => (e.1 % 64, e.2))

/-- The commands that wrote one half of a line (09 R340). -/
def halfOwners (l : LbLine) (h : Nat) : List (Nat × Nat) := (l.owners.filter (fun o => o.2 = h)).map (fun o => (o.1, 0))

/-- A line leaves the Letterbox (09 R332); one found uncorrectable in its own SECDED poisons its code words (Table 9.4). -/
def lineOut (t : Nat) (l : LbLine) (s : State) : State :=
  let s : State := s.modLb t (fun b => { b with lines := b.lines.filter (fun x => x.addr ≠ l.addr) })
  let half := fun (h : Nat) (s : State) =>
    let c := halfCells l.cells h
    if c.isEmpty then s else if l.bad then poisonWord (2 * l.addr + h) c s else mergeInto (2 * l.addr + h) c (halfOwners l h) s
  half 1 (half 0 s)

/-- Drains one line of stack t (09 R332); it waits for a bank set that is shut (05 R205). -/
def drainLine (t : Nat) (l : LbLine) (s : State) : State :=
  if stkShut s (l.addr * 128) then
    (reachBank (l.addr * 128) s).modLb t (fun b => { b with lines := b.lines.map (fun x => if x.addr = l.addr then { x with due := true } else x) })
  else lineOut t l s

/-- Pairs each piece of a range with its bytes. -/
def cutBytes (g a : Nat) (bs : List Byte) : List (Nat × List Byte) :=
  (pieces g a bs.length).map (fun p => (p.1, (bs.drop (p.1 - a)).take p.2))

/-- The bytes of a Letterbox line that lie in a code word. -/
def lineCells (s : State) (cw : Nat) : Tbl Byte :=
  match (s.lbAt (saStack (cw * 64))).lines.find? (fun l => l.addr = cw / 2) with
  | some l => halfCells l.cells (cw % 2)
  | none => []

/-- A write that breaks the rules of 06 R244 in an armed area: it is not whole code words, or rewrites bytes that still wait above the bank set. -/
def spoilWrite (a : Nat) (bs : List Byte) (s : State) : State :=
  if s.armed.isEmpty then s
  else forEach (cutBytes 64 a bs) (fun p s =>
    let cw := p.1 / 64
    let wait := lineCells s cw ++ (match mergeEntry s cw with | some l => l.cells | none => [])
    if p.2.length ≠ 64 || wait.any (fun e => decide (p.1 % 64 ≤ e.1) && decide (e.1 < p.1 % 64 + p.2.length)) then
      spoilRow (saStack (cw * 64) * 64 + saBank (cw * 64)) (saOff (cw * 64)) s
    else s) s

/-- A write of bytes within one Letterbox line by command `owner` (0: the host or none) (09 R331). With every line in use the oldest that can
drains first (R332; log 16). -/
def lbWrite (owner a : Nat) (bs : List Byte) (s : State) : State :=
  let t := saStack a
  let n := a / 128
  let own := (cutBytes 64 a bs).map (fun p => (owner, p.1 / 64 % 2))
  let s : State := reachStack a (spoilWrite a bs s)
  let s : State := match (s.lbAt t).lines.find? (fun l => l.addr = n) with
    | some _ =>
      s.modLb t (fun b => { b with lines := b.lines.map (fun l =>
        if l.addr = n then { l with cells := putCells l.cells (a % 128) bs, owners := l.owners ++ own.filter (fun o => !l.owners.contains o) } else l) })
    | none =>
      let s : State := if (s.lbAt t).lines.length < 256 then s else
        match (s.lbAt t).lines.find? (fun l => !stkShut s (l.addr * 128)), (s.lbAt t).lines.head? with
        | some o, _ => lineOut t o s
        | none, some o => lineOut t o (reachBank (o.addr * 128) s)
        | none, none => s
      s.modLb t (fun b => { b with lines := b.lines ++ [{ addr := n, cells := putCells [] (a % 128) bs, owners := own, due := false, bad := false }] })
  match (s.lbAt t).lines.find? (fun l => l.addr = n) with
  | some l => if l.cells.length = 128 then drainLine t l s else s
  | none => s

/-- A write through the stack interface (09 R331). -/
def stWrite (owner a : Nat) (bs : List Byte) (s : State) : State :=
  forEach (cutBytes 128 a bs) (fun p => lbWrite owner p.1 p.2) (noteWrite owner 0 a bs.length s)

/-- The line and the entry that hold bytes of a code word, where their own SECDED finds them uncorrectable, reach the bank set first (09 Table 9.4). -/
def flushBad (cw : Nat) (s : State) : State :=
  let t := saStack (cw * 64)
  let s : State := match mergeEntry s cw with | some l => if l.bad then mergeOut l s else s | none => s
  match (s.lbAt t).lines.find? (fun l => l.addr = cw / 2) with | some l => if l.bad then lineOut t l s else s | none => s

/-- One code word through the stack interface: its merge entry drains first (09 R338), and the Letterbox bytes lie over the stored word
(R333). A word whose 64 bytes all wait in a line is not read from its bank (log 16). -/
def ifWord (src cw : Nat) (s : State) : State × Option (List Byte) :=
  let s : State := flushBad cw s
  let cells := lineCells s cw
  if cells.length = 64 then (reachStack (cw * 64) s, some (mergeCells (zeros 64) cells))
  else
    match readWord src cw (drainMerge cw (reachBank (cw * 64) s)) with
    | (s, some bs) => (s, some (mergeCells bs cells))
    | (s, none) => (s, none)

/-- Reads pieces by a word reader until one fails. -/
def readBy (rd : Nat → State → State × Option (List Byte)) : List (Nat × Nat) → List Byte → State → State × Option (List Byte)
  | [], acc, s => (s, some acc)
  | (a, n) :: ps, acc, s =>
    match rd (a / 64) s with
    | (s, some bs) => readBy rd ps (acc ++ (bs.drop (a % 64)).take n) s
    | (s, none) => (s, none)

/-- A read through the stack interface; none where a word is uncorrectable. -/
def stRead (src a n : Nat) (s : State) : State × Option (List Byte) := readBy (ifWord src) (pieces 64 a n) [] s

/-- A Sill unit's read beneath its bank set: undrained lines are not seen (09 R333). -/
def sillWord (cw : Nat) (s : State) : State × Option (List Byte) :=
  readWord 2 cw (match mergeEntry s cw with | some l => mergeOut l s | none => s)

def sillRead (a n : Nat) (s : State) : State × Option (List Byte) := readBy sillWord (pieces 64 a n) [] s

/-- A Sill unit's write beneath its bank set (09 R331): a partial word is merged by a read-modify-write. -/
def sillWrite (owner a : Nat) (bs : List Byte) (s : State) : State :=
  forEach (cutBytes 64 a bs) (fun p s =>
    if p.2.length = 64 then writeWord (p.1 / 64) p.2 s else rmw (p.1 / 64) (putCells [] (p.1 % 64) p.2) [owner] s) (noteWrite owner 0 a bs.length s)

/-- Drains the lines of stack t with p, oldest first, then the merge entries with p' (09 R332, R338). -/
def drainWhere (t : Nat) (p : LbLine → Bool) (p' : LbLine → Bool) (s : State) : State :=
  let s : State := forEach ((s.lbAt t).lines.filter p) (drainLine t) s
  forEach ((s.lbAt t).merge.filter p') (fun l => drainMerge l.addr) s

/-- Everything a command wrote reaches its banks (R66, R109; 09 R332). -/
def drainOwned (owner : Nat) (s : State) : State :=
  forEach (List.range 12) (fun t => drainWhere t (fun l => l.owners.any (fun o => o.1 = owner)) (fun l => l.owners.any (fun o => o.1 = owner))) s

/-- Some line or entry still holds writes of a command (09 R332). -/
def owns (s : State) (owner : Nat) : Bool :=
  s.lb.any (fun e => (e.2.lines ++ e.2.merge).any (fun l => l.owners.any (fun o => o.1 = owner)))

/-- Everything drains from a stack. -/
def drainStack (t : Nat) (s : State) : State := drainWhere t (fun _ => true) (fun _ => true) s

/-- Whether a narrow write of a command met an uncorrectable word (09 R340), and the record of it withdrawn. -/
def hitBad (s : State) (owner : Nat) : Bool := s.lb.any (fun e => e.2.bad.contains owner)

def clearBad (owner : Nat) (s : State) : State := s.onLb (tmap (fun _ b => { b with bad := b.bad.filter (fun u => u ≠ owner) }))

/-! The far tier. -/

/-- Both expanders interleave two ways when both trained with equal capacity, speed and width (09 R354). -/
def farInterleaved (s : State) : Bool :=
  match tget s.far.cap 0, tget s.far.cap 1 with
  | some a, some b => a = b && tget s.far.speed 0 = tget s.far.speed 1 && tget s.far.width 0 = tget s.far.width 1
  | _, _ => false

/-- Capacity of a far port in bytes; 0 when it did not come up. -/
def farCap (s : State) (p : Nat) : Nat := (tgetD s.far.cap p 0) * 2 ^ 28

/-- The far tier's capacity: at most 8 TiB (09 Table 9.7). -/
def farTotal (s : State) : Nat := Nat.min (farCap s 0 + farCap s 1) (2 ^ 43)

/-- The port a far address lies on (09 R354). -/
def farPort (s : State) (a : Nat) : Nat :=
  if farInterleaved s then a / 4096 % 2 else if a < farCap s 0 then 0 else 1

/-- Where a far address lies on its expander (09 R354). -/
def farOff (s : State) (a : Nat) : Nat :=
  if farInterleaved s then a / 8192 * 4096 + a % 4096 else if a < farCap s 0 then a else a - farCap s 0

/-- The key of a far address in `farMem`: an expander's own bytes stay on it however the tier is laid out (09 R354). -/
def farKey (s : State) (a : Nat) : Nat := farPort s a * 2 ^ 44 + farOff s a

/-- Bytes of the park pool (09 R354): the configuration record's size, or the whole tier without a record. -/
def parkPoolLen (s : State) : Nat := match s.far.parkPool with | some n => Nat.min (n * 2 ^ 28) (farTotal s) | none => farTotal s

/-- One piece of a far read; a port that is down, and a line that the expander returns as poison, decode as uncorrectable (09 R356, Table 9.4). -/
def farPiece (src a n : Nat) (s : State) : State × Option (List Byte) :=
  if s.far.up.getLsbD (farPort s a) && !s.farBad.any (fun l => decide (farKey s a / 64 ≤ l) && decide (64 * l < farKey s a + n))
  then (s, some (mread s.farMem (farKey s a) n)) else (logFarUe src (farPort s a) a s, none)

def farReadGo (src : Nat) : List (Nat × Nat) → List Byte → State → State × Option (List Byte)
  | [], acc, s => (s, some acc)
  | (a, n) :: ps, acc, s =>
    match farPiece src a n s with
    | (s, some bs) => farReadGo src ps (acc ++ bs) s
    | (s, none) => (s, none)

def farRead (src a n : Nat) (s : State) : State × Option (List Byte) := farReadGo src (pieces 4096 a n) [] s

/-- A far write; false where a port is down: nothing of that piece is written (09 R356). A whole line written is poisoned no longer. -/
def farWrite (a : Nat) (bs : List Byte) (s : State) : State × Bool :=
  (cutBytes 4096 a bs).foldl (fun (r : State × Bool) p =>
    let k := farKey r.1 p.1
    if r.1.far.up.getLsbD (farPort r.1 p.1) then
      ((r.1.onFarMem (fun m => mwrite m k p.2)).onFarBad (fun l => l.filter (fun x => !(decide (k ≤ 64 * x) && decide (64 * x + 64 ≤ k + p.2.length)))), r.2)
    else (r.1, false)) (s, true)

/-! Access through a context. -/

/-- A range lies inside one allocation of the context with q (02 R47). -/
def insideOwn (s : State) (c va n : Nat) (q : Alloc → Bool) : Bool :=
  s.alloc.any (fun e => e.2.ctx = c && q e.2 && e.2.has va && decide (va + n ≤ e.2.base + e.2.len))

/-- A range lies inside one allocation that the context maps: its own, or its model context's read-only mapping (log 20). -/
def insideOne (s : State) (c va n : Nat) : Bool :=
  insideOwn s c va n (fun _ => true)
  || (match modelOf s (ctxCas s c) with
      | some m => insideOwn s m va n (fun a => a.kind = .interleaved || a.kind = .stripe)
      | none => false)

/-- What an access through a context's address space ends with. -/
inductive MRes
  | ok (bs : List Byte)
  | fault (va : Nat)
  | ecc
deriving DecidableEq, Repr

/-- Reads one piece that lies in one granule. -/
def vaPiece (c src va n : Nat) (s : State) : State × MRes :=
  if 2 ^ 52 ≤ va then (s, .fault va)
  else match findAlloc s c va with
    | none => (s, .fault va)
    | some (a, _) =>
      let r := match a.loc va with
        | .stk x => stRead src x n s
        | .far x => farRead src x n s
        | .host p x => (s, some (mread s.hostMem (p * 2 ^ 64 + x) n))
      match r with
      | (s, some bs) => (s, .ok bs)
      | (s, none) => (s, .ecc)

def vaReadGo (c src : Nat) : List (Nat × Nat) → List Byte → State → State × MRes
  | [], acc, s => (s, .ok acc)
  | (a, n) :: ps, acc, s =>
    match vaPiece c src a n s with
    | (s, .ok bs) => vaReadGo c src ps (acc ++ bs) s
    | r => r

/-- Reads n bytes at a virtual address of a context: PAGE_FAULT at the first unmapped granule, ECC_UNCORR at the first uncorrectable word
(09 R320, Table 9.4). -/
def vaRead (c src va n : Nat) (s : State) : State × MRes := vaReadGo c src (pieces 4096 va n) [] s

/-- What a write ends with. -/
inductive WRes
  | ok
  | fault (va : Nat)
  | ecc
deriving DecidableEq, Repr

/-- Writes one piece that lies in one granule, on behalf of command `owner`; `dev` skips the read-only check (Keeper and queue writes). -/
def vaWritePiece (c owner va : Nat) (bs : List Byte) (s : State) : State × WRes :=
  if 2 ^ 52 ≤ va then (s, .fault va)
  else match findAlloc s c va with
    | none => (s, .fault va)
    | some (a, ro) =>
      if ro then (s, .fault va)
      else match a.loc va with
        | .stk x => (stWrite owner x bs s, .ok)
        | .far x => match farWrite x bs (noteWrite owner 1 x bs.length s) with
          | (s, true) => (s, .ok)
          | (s, false) => (s, .ecc)
        | .host p x => ((noteWrite owner 2 (p * 2 ^ 64 + x) bs.length s).onHostMem (fun m => mwrite m (p * 2 ^ 64 + x) bs), .ok)

def vaWriteGo (c owner : Nat) : List (Nat × List Byte) → State → State × WRes
  | [], s => (s, .ok)
  | (a, bs) :: ps, s =>
    match vaWritePiece c owner a bs s with
    | (s, .ok) => vaWriteGo c owner ps s
    | r => r

/-- Writes a byte string at a virtual address of a context (09 R320, R327; 11 R411). -/
def vaWrite (c owner va : Nat) (bs : List Byte) (s : State) : State × WRes := vaWriteGo c owner (cutBytes 4096 va bs) s

/-- Data block headers copied into an armed area spoil the rows they touch (06 R244). -/
def spoilHdrs (c : Nat) (vas : List Nat) (s : State) : State :=
  forEach vas (fun va s => match findAlloc s c va with
    | some (a, _) => (match a.loc va with
      | .stk x => spoilRow (saStack x * 64 + saBank x) (saOff x) s
      | _ => s)
    | none => s) s

/-- The same where no outcome is looked at (records that never stop a command, 02 R63, 12 R454), by the command in hand. -/
def vaPut (c va : Nat) (bs : List Byte) (s : State) : State := (vaWrite c s.acc.who va bs s).1

/-- Host memory of a port, as the device reads and writes it (log 7). -/
def busRead (s : State) (port a n : Nat) : List Byte := mread s.hostMem (port * 2 ^ 64 + a) n

def busWrite (port a : Nat) (bs : List Byte) (s : State) : State := s.onHostMem (fun m => mwrite m (port * 2 ^ 64 + a) bs)

/-- Runs what command `who` does with memory. Where one of its accesses meets a gated unit or a bank set inside a burst or a refresh, the command
waits: nothing of it is done, the wakes begin and the arbiters note it (01 R39; 05 R204, R205; log 66). -/
def attempt (who : Nat) (f : State → State) (s : State) : State :=
  let t := f (s.onAcc (fun _ => { on := true, who := who, units := [], banks := [] }))
  if t.acc.units.isEmpty && t.acc.banks.isEmpty then t.onAcc (fun _ => Reach.none)
  else
    let s : State := forEach t.acc.units wakeFor s
    forEach t.acc.banks (fun u s => s.modBank u (fun b => { b with dev := if b.dev.contains who then b.dev else b.dev ++ [who] })) s

/-- A command has come to its end: the arbiters forget it. -/
def ungrant (who : Nat) (s : State) : State :=
  s.onBank (tmap (fun _ b => if b.dev.contains who || b.grant.contains who then
    { b with dev := b.dev.filter (fun u => u ≠ who), grant := b.grant.filter (fun u => u ≠ who) } else b))

/-- A range that a stop leaves undefined (02 R69, 15 R526) takes free bytes (log 8). -/
def havocVa (c owner va n : Nat) (s : State) : State :=
  let (k, s) := s.fresh
  (vaWrite c owner va (freeBytes k n) s).1

/-- Cells of a buffered line or entry that lie in a range take free bytes; `base` is its address. -/
def freeCells (base a n k : Nat) (cells : Tbl Byte) : Tbl Byte :=
  tmap (fun i b => if decide (a ≤ base + i) && decide (base + i < a + n) then Config.freeByte k (base + i - a) else b) cells

/-- A remembered write is undefined: free bytes stand where it stood, in the banks and in what waits above them. Spaces 3, 4 and 5 are shared
scratchpads, tile scratchpads and local memories. -/
def undefWrite (w : Nat × Nat × Nat) (s : State) : State :=
  let a := w.2.1
  let n := w.2.2
  let (k, s) := s.fresh
  let bs := freeBytes k n
  if w.1 = 0 then
    (s.onStackMem (fun m => mwrite m a bs)).modLb (saStack a) (fun b =>
      { b with lines := b.lines.map (fun l => { l with cells := freeCells (l.addr * 128) a n k l.cells }),
               merge := b.merge.map (fun l => { l with cells := freeCells (l.addr * 64) a n k l.cells }) })
  else if w.1 = 1 then (farWrite a bs s).1
  else if w.1 = 2 then s.onHostMem (fun m => mwrite m a bs)
  else if w.1 = 3 then s.onSharedMem (fun m => mwrite m a bs)
  else if w.1 = 4 then s.onTileMem (fun m => mwrite m a bs)
  else s.onLocalMem (fun m => mwrite m a bs)

/-- Everything a command wrote is undefined (02 R69, 15 R526). -/
def undefWrites (l : List (Nat × Nat × Nat)) (s : State) : State := forEach l undefWrite s

/-- A command has ended with its writes in place: they are remembered no longer, and the arbiters forget it. -/
def settleWrites (owner : Nat) (s : State) : State := ungrant owner (s.delWlog owner)

end Sys2Proof.Machine
end

