-- ==== Sys2Proof/Machine/Space.lean ====
section
/-! DEFINITION. Space: bank-set ranges, far heap and park pool units, zero fills (11 R417), the page map and page placement (06 R222-R230). -/

namespace Sys2Proof.Machine

/-- A range of one offset in every bank set of a map (09 R322). -/
structure BRange where
  smask  : BitVec 12
  bsmask : BitVec 64
  off    : Nat
  len    : Nat
deriving DecidableEq, Repr

/-- Bytes an allocation takes in each of its bank sets. -/
def Alloc.perBank (a : Alloc) : Nat :=
  match a.kind with
  | .stripe => a.unit
  | _ => a.len / ((ones a.smask).length * (ones a.bsmask).length)

/-- The stack range of an allocation. -/
def Alloc.range (a : Alloc) : Option BRange :=
  if a.kind = .interleaved || a.kind = .stripe then some { smask := a.smask, bsmask := a.bsmask, off := a.off, len := a.perBank } else none

/-- The bank sets of a casement, the clusters it holds. -/
def casBs (s : State) (cas : Nat) : BitVec 64 := (s.casAt cas).bsmask

/-- Every stack range in use: allocations, fills, shutter areas. -/
def usedRanges (s : State) : List BRange :=
  s.alloc.filterMap (fun e => e.2.range)
  ++ s.fills.filterMap (fun e => if e.2.far then none else some { smask := e.2.smask, bsmask := e.2.bsmask, off := e.2.off, len := e.2.len })
  ++ s.ctx.flatMap (fun e => match e.2.shutter with
      | some h => [h.p0, h.p1].map (fun p => { smask := p.stks, bsmask := casBs s e.2.cas, off := p.off, len := p.len })
      | none => [])

/-- Two ranges meet. -/
def BRange.meets (a b : BRange) : Bool :=
  (a.smask &&& b.smask) ≠ 0 && (a.bsmask &&& b.bsmask) ≠ 0 && decide (a.off < b.off + b.len) && decide (b.off < a.off + a.len)

/-- The end of usable space in a set of bank sets: the test window of bank set 63 is never covered (09 R322). -/
def bankEnd (bs : BitVec 64) : Nat := if bs.getLsbD 63 then 0x3FF00000 else 2 ^ 30

/-- The lowest 4 KiB-aligned offset that is free in every named bank set for a length (09 R325 step 3; log 17). -/
def freeOff (s : State) (smask : BitVec 12) (bsmask : BitVec 64) (len : Nat) : Option Nat :=
  let u := usedRanges s
  let cand := 0 :: u.map (fun r => alignUp (r.off + r.len) 4096)
  let fits := cand.filter (fun o => decide (o + len ≤ bankEnd bsmask)
    && u.all (fun r => !(BRange.meets { smask := smask, bsmask := bsmask, off := o, len := len } r)))
  (sortBy id fits).head?

/-- Bytes of one shutter record (11 Table 11.5). -/
def shutRec : Nat := 3104 * 1024

/-- Where the record of a logical cluster stands: the part of the shutter area, the bank sets, and the byte of the part at which it begins (11 R426;
log 17). -/
def shutPlace (s : State) (c lg : Nat) : Option (ShutPart × BitVec 64 × Nat) :=
  match s.getCtx c with
  | none => none
  | some x => x.shutter.map (fun h =>
      let leaf := leafOfCluster lg
      let own := (ones (s.casAt x.cas).clusters).filter (fun k => leafOfCluster k = leaf)
      (if leaf = 0 then h.p0 else h.p1, casBs s x.cas, (own.takeWhile (fun k => k ≠ lg)).length * shutRec))

/-- The stack address of byte j of a part: 4 KiB granules over its stacks, then over the bank sets. -/
def shutAddr (p : ShutPart) (bs : BitVec 64) (j : Nat) : Nat :=
  let ss := ones p.stks
  let bb := ones bs
  let g := j / 4096
  stAddr (nth ss (g % ss.length) 0) (nth bb (g / ss.length % bb.length) 0) (p.off + g / (ss.length * bb.length) * 4096 + j % 4096)

/-- Byte of a part at a stack address. -/
def shutByte (p : ShutPart) (bs : BitVec 64) (a : Nat) : Option Nat :=
  let ss := ones p.stks
  let bb := ones bs
  if p.stks.getLsbD (saStack a) && bs.getLsbD (saBank a) && decide (p.off ≤ saOff a) && decide (saOff a < p.off + p.len) then
    let o := saOff a - p.off
    some (((o / 4096 * bb.length + (bb.takeWhile (fun b => b ≠ saBank a)).length) * ss.length + (ss.takeWhile (fun t => t ≠ saStack a)).length) * 4096
      + o % 4096)
  else none

/-- Every bank set of a part is reached. -/
def reachPart (p : ShutPart) (bs : BitVec 64) (s : State) : State :=
  forEach (ones p.stks) (fun t s => forEach (ones bs) (fun b s => reachBank (stAddr t b p.off) s) s) s

/-- The lowest free 4 KiB-aligned range of the far heap (09 R354; log 17). -/
def freeFar (s : State) (len : Nat) : Option Nat :=
  let u := s.alloc.filterMap (fun e => if e.2.kind = .far then some (e.2.off, e.2.len) else none)
    ++ s.fills.filterMap (fun e => if e.2.far then some (e.2.off, e.2.len) else none)
  let cand := parkPoolLen s :: u.map (fun r => alignUp (r.1 + r.2) 4096)
  let fits := cand.filter (fun o => decide (o + len ≤ farTotal s) && u.all (fun r => decide (o + len ≤ r.1) || decide (r.1 + r.2 ≤ o)))
  (sortBy id fits).head?

/-! The far directory (09 R357): record i stands at far address 64 i. -/

/-- MARK in a record. -/
def markCode : Mark → Nat
  | .copying => 1 | .complete => 2 | .restoring => 3

/-- The bytes of a record (09 Table 9.8), its CRC-32C over the bits before it. -/
def recBytes (d : FRec) : List Byte :=
  let v := markCode d.mark + (d.leaf + 2 * d.slot + 2 ^ 13 * d.layer + 2 ^ 21 * d.seq + 2 ^ 35 * d.ctx + 2 ^ 47 * d.size + 2 ^ 51 * d.g + 2 ^ 53 * d.sfmt
    + 2 ^ 54 * d.vfmt + 2 ^ 62 * d.kfmt + 2 ^ 70 * d.len + 2 ^ 86 * d.sref + 2 ^ 102 * d.farloc + 2 ^ 134 * d.expiry + 2 ^ 174 * d.ttl
    + 2 ^ 206 * d.key.toNat) * 2 ^ 210
  let b := toLE v 60
  b ++ toLE (crc32c b).toNat 4

/-- A record as it reads; none where MARK is EMPTY. -/
def recOf (bs : List Byte) : Option FRec :=
  let v := leNat (bs.take 60)
  let f := fun (hi lo : Nat) => fldN v hi lo
  (match f 1 0 with | 0 => none | 1 => some Mark.copying | 2 => some Mark.complete | _ => some Mark.restoring).map (fun m =>
    { mark := m, crcOk := (crc32c (bs.take 60)).toNat = leNat (bs.drop 60), key := BitVec.ofNat 64 (f 479 416), ttl := f 415 384, expiry := f 383 344,
      farloc := f 343 312, sref := f 311 296, len := f 295 280, kfmt := f 279 272, vfmt := f 271 264, sfmt := f 263 263, g := f 262 261,
      size := f 260 257, ctx := f 256 245, seq := f 244 231, layer := f 230 223, slot := f 222 211, leaf := f 210 210 })

/-- Record i of the directory, where the far tier is up. -/
def State.getFdir (s : State) (i : Nat) : Option FRec := if s.far.cap.isEmpty then none else recOf (mread s.farMem (farKey s (64 * i)) 64)

/-- One line write of record i, where its port is up (09 R356). -/
def State.putFdir (s : State) (i : Nat) (d : FRec) : State := (farWrite (64 * i) (recBytes d) s).1

/-- Record i is written EMPTY: zeros (log 67). -/
def State.delFdir (s : State) (i : Nat) : State := (farWrite (64 * i) (zeros 64) s).1

/-- The far address of a byte of `farMem`. -/
def farBack (s : State) (k : Nat) : Nat :=
  let p := k / 2 ^ 44
  let o := k % 2 ^ 44
  if farInterleaved s then o / 4096 * 8192 + p * 4096 + o % 4096 else if p = 0 then o else o + farCap s 0

/-- The records that are not EMPTY, with their numbers rising. -/
def fdir (s : State) : Tbl FRec :=
  let ns := sortBy id (dedupN ((s.farMem.map (fun e => farBack s e.1 / 64)).filter (fun i => i < 65536)))
  ns.filterMap (fun i => (s.getFdir i).map (fun d => (i, d)))

/-- The first units of the park pool, after the far directory, that fit a page (09 R357: first fit). -/
def freeUnits (s : State) (units : Nat) : Option Nat :=
  let u := (fdir s).map (fun e => (e.2.farloc, e.2.len))
  let cand := 1024 :: u.map (fun r => r.1 + r.2)
  let fits := cand.filter (fun o => decide ((o + units) * 4096 ≤ parkPoolLen s) && u.all (fun r => decide (o + units ≤ r.1) || decide (r.1 + r.2 ≤ o)))
  (sortBy id fits).head?

/-- The lowest free base that is 2 MiB aligned, not 0 and below 2^44 (09 R324; log 17). -/
def freeBase (s : State) (c len : Nat) : Option Nat :=
  let m := modelOf s (ctxCas s c)
  let u := s.alloc.filterMap (fun e => if e.2.ctx = c || some e.2.ctx = m || (some c = m && ctxCas s e.2.ctx = ctxCas s c) then some (e.2.base, e.2.len) else none)
  let al := 2 ^ 21
  let cand := al :: u.map (fun r => alignUp (r.1 + r.2) al)
  let fits := cand.filter (fun o => decide (o < 2 ^ 44) && decide (o + len ≤ 2 ^ 52) && u.all (fun r => decide (o + len ≤ r.1) || decide (r.1 + r.2 ≤ o)))
  (sortBy id fits).head?

/-- Engine commands of every core. -/
def allECmds (s : State) : List ECmd := s.core.flatMap (fun e => e.2.eq)

/-- Commands that have started and not ended, of one context or of all (09 R326, 06 R237). -/
def startedUids (s : State) (c : Option Nat) : List Nat :=
  let mine := fun x => match c with | some k => x = k | none => true
  s.queue.flatMap (fun e => if mine e.2.ctx || e.2.admin then (e.2.es.filter (fun x => x.ph = .running && (mine x.ctxf))).map (·.uid) else [])
  ++ ((allECmds s).filter (fun x => x.st ≠ .queued && mine x.ctx)).map (·.uid)

/-- Which of some commands are still in progress: not yet completed. -/
def anyAlive (s : State) (l : List Nat) : Bool :=
  l.any (fun u => s.queue.any (fun e => e.2.es.any (fun x => x.uid = u && (x.ph = .running || x.ph = .waiting)))
    || (allECmds s).any (fun x => x.uid = u))

/-- Gives up a stack range: it is filled with zeros before anything takes it again (11 R417). -/
def giveUp (far : Bool) (sm : BitVec 12) (bs : BitVec 64) (off len : Nat) (deps : List Nat) (s : State) : State :=
  match tfree s.fills 0 (s.fills.length + 1) with
  | some i => s.putFills i { far := far, smask := sm, bsmask := bs, off := off, len := len, deps := deps }
  | none => s

/-- Zeros the range of a fill: fresh check symbols in every word of a stack range. -/
def zeroFill (x : Fill) (s : State) : State :=
  if x.far then forEach (pieces 4096 x.off x.len) (fun p s => s.onFarMem (fun m => mclear m (farKey s p.1) p.2)) s
  else
    forEach ((ones x.smask).flatMap (fun t => (ones x.bsmask).map (fun b => stAddr t b x.off))) (fun a s =>
      (s.onStackMem (fun m => mclear m a x.len)).onHealth (fun h => h.filter (fun e => !(decide (a ≤ e.1 * 64) && decide (e.1 * 64 < a + x.len))))) s

/-- Releases an allocation's space once `deps` have ended (09 R326). -/
def releaseAlloc (a : Alloc) (deps : List Nat) (s : State) : State :=
  match a.kind with
  | .far => giveUp true 0 0 a.off a.len deps s
  | .host => s
  | _ => giveUp false a.smask a.bsmask a.off a.perBank deps s

/-! Pages. -/

/-- Element size in half bytes of a key or value format (06 R222): FP4E2M1 packs two to a byte. -/
def kvHalf (f : Nat) : Nat := if f = 0x13 then 1 else 2

/-- Head dimension by its code (06 Table 6.1). -/
def headDim (d : Nat) : Nat := if d = 0 then 64 else if d = 1 then 128 else 256

/-- Bytes of the keys, and of the values, of one head in a page. -/
def kBytes (q : Seq) : Nat := 2 ^ q.nlog2 * headDim q.headDim * kvHalf q.kfmt / 2
def vBytes (q : Seq) : Nat := 2 ^ q.nlog2 * headDim q.headDim * kvHalf q.vfmt / 2

/-- Bytes a page occupies (06 R223; keys and values each at the size of their format, log 18). -/
def pageLen (q : Seq) : Nat := alignUp (q.kvh * (kBytes q + vBytes q)) 4096

/-- Slots of each layer, and the first position of slot k (06 R222). -/
def slotCount (q : Seq) : Nat := (q.r0Len + q.r1Len) / 2 ^ q.nlog2
def slotStart (q : Seq) (k : Nat) : Nat :=
  if k * 2 ^ q.nlog2 < q.r0Len then q.r0Base + k * 2 ^ q.nlog2 else q.r1Base + (k * 2 ^ q.nlog2 - q.r0Len)

/-- Pages of a sequence with their page map indices, ascending; those of an orphan belong to no sequence. -/
def pagesOf (s : State) (q : Nat) : List (Nat × Page) := s.page.filter (fun e => e.2.seq = q && !e.2.orphan)

/-- The page of a layer and slot. -/
def pageAt (s : State) (q l k : Nat) : Option (Nat × Page) := s.page.find? (fun e => e.2.seq = q && !e.2.orphan && e.2.layer = l && e.2.slot = k && e.2.freeing.isNone)

/-- The same, also while its return to FREE is deferred: what the page table shows (06 R237). -/
def pageIn (s : State) (q l k : Nat) : Option (Nat × Page) := s.page.find? (fun e => e.2.seq = q && !e.2.orphan && e.2.layer = l && e.2.slot = k)

/-- Codes of Table 6.6. -/
def pstCode : PState → Nat
  | .resident => 1 | .tentative => 2 | .parked => 3 | .expired => 4

/-- A page table entry (06 Table 6.4). -/
def pte (pg : Option (Nat × Page)) (dropped : Bool) : Nat :=
  match pg with
  | some (i, p) => 2 ^ 63 + b2n dropped * 2 ^ 62 + pstCode p.st * 2 ^ 59 + p.stack * 2 ^ 55 + p.bset * 2 ^ 49 + p.off / 4096 * 2 ^ 31 + i * 2 ^ 15
  | none => b2n dropped * 2 ^ 62

/-- Rewrites the page table entry of a layer and slot (06 R225): a write of the device's own leaves every sequence as it is. -/
def writePte (q l k : Nat) (s : State) : State :=
  match s.getSeq q with
  | none => s
  | some x => (vaPut x.ctx (x.pt + (l * x.pmax + k) * 8) (toLE (pte (pageIn s q l k) (x.dropped.contains (l, k))) 8) s).onSeq (fun _ => s.seq)

/-- The stripe of a handle in a context: its own or its model context's (11 R411). -/
def stripeOf (s : State) (c h : Nat) : Option Alloc :=
  s.alloc.findSome? (fun e => if e.2.kind = .stripe && e.2.handle = h && (e.2.ctx = c || some e.2.ctx = modelOf s (ctxCas s c)) then some e.2 else none)

/-- Ranges of one bank set inside a stripe that pages, fills of pages, and restores in hand hold. -/
def bankUsed (s : State) (t b : Nat) : List (Nat × Nat) :=
  s.page.filterMap (fun e => if (e.2.st = .resident || e.2.st = .tentative) && e.2.stack = t && e.2.bset = b then some (e.2.off, e.2.len) else none)
  ++ s.fills.filterMap (fun e => if !e.2.far && e.2.smask.getLsbD t && e.2.bsmask.getLsbD b then some (e.2.off, e.2.len) else none)
  ++ s.job.filterMap (fun e => if !e.2.park && e.2.phase = 2 && saStack e.2.unit = t && saBank e.2.unit = b then
      (match e.2.pages.head? with
       | some i => (match tget s.page i with | some p => some (saOff e.2.unit, p.len) | none => none)
       | none => none) else none)

/-- The lowest free 4 KiB-aligned range of a bank set inside a stripe (06 R224). -/
def pageFit (s : State) (a : Alloc) (t b len : Nat) : Option Nat :=
  let u := bankUsed s t b
  let cand := a.off :: u.map (fun r => alignUp (r.1 + r.2) 4096)
  (sortBy id (cand.filter (fun o => decide (a.off ≤ o) && decide (o + len ≤ a.off + a.unit)
    && u.all (fun r => decide (o + len ≤ r.1) || decide (r.1 + r.2 ≤ o))))).head?

/-- Free bytes of a bank set inside a stripe. -/
def pageRoom (s : State) (a : Alloc) (t b : Nat) : Nat :=
  a.unit - ((bankUsed s t b).filter (fun r => decide (a.off ≤ r.1) && decide (r.1 < a.off + a.unit))).foldl (fun n r => n + r.2) 0

/-- A candidate place: pages held there, room, stack, bank set, offset. -/
structure Place1 where
  held : Nat
  room : Nat
  t    : Nat
  b    : Nat
  off  : Nat
deriving DecidableEq, Repr

/-- Whether place x goes before y (06 R224). -/
def Place1.before (x y : Place1) : Bool :=
  x.held < y.held || (x.held = y.held && (y.room < x.room || (x.room = y.room && (x.t < y.t || (x.t = y.t && x.b < y.b)))))

/-- The place of one new page of a layer (06 R224), among the bank sets of the POOL stripes with room for it. -/
def choosePlace (s : State) (q : Nat) (x : Seq) (l : Nat) : Option Place1 :=
  let len := pageLen x
  let cand := (List.range 12).flatMap (fun t =>
    match stripeOf s x.ctx (nth x.pool t 0) with
    | none => []
    | some a => (ones a.bsmask).filterMap (fun b => (pageFit s a t b len).map (fun o =>
        ({ held := ((pagesOf s q).filter (fun e => e.2.layer = l && (e.2.st = .resident || e.2.st = .tentative) && e.2.stack = t && e.2.bset = b)).length,
           room := pageRoom s a t b, t := t, b := b, off := o } : Place1))))
  cand.foldl (fun best x => match best with | none => some x | some y => if Place1.before x y then some x else some y) none

/-- Takes a page map entry and a place for one layer and slot; none where either is exhausted (06 R236). -/
def placeOne (q l k : Nat) (s : State) : Option State :=
  match s.getSeq q with
  | none => none
  | some x =>
    match choosePlace s q x l, tfree s.page 0 65536 with
    | some p, some i =>
      some (writePte q l k (s.putPage i
        { ctx := x.ctx, seq := q, layer := l, slot := k, expiry := 0, farloc := 0, sref := x.sref, kfmt := x.kfmt, vfmt := x.vfmt,
          sfmt := x.sg / 4 % 2, g := x.sg % 4, size := x.nlog2, st := .tentative, stack := p.t, bset := p.b, off := p.off, len := pageLen x,
          orphan := false, freeing := none }))
    | _, _ => none

def placeAll (q : Nat) : List (Nat × Nat) → State → Option State
  | [], s => some s
  | (l, k) :: r, s => match placeOne q l k s with | some s => placeAll q r s | none => none

/-- The slots, in every layer, that meet [0, E), have no page and are not dropped (06 R232): slots in order, every layer of a slot at once. -/
def newSlots (s : State) (q : Nat) (x : Seq) (e : Nat) : List (Nat × Nat) :=
  ((List.range (slotCount x)).filter (fun k => slotStart x k < e)).flatMap (fun k =>
    ((List.range x.layers).filter (fun l => (pageAt s q l k).isNone && !(x.dropped.contains (l, k)))).map (fun l => (l, k)))

/-- A position below `a` and at or above C lies in a slot of some layer with no page (06 R232). -/
def uncovered (s : State) (q : Nat) (x : Seq) (a : Nat) : Bool :=
  (List.range (slotCount x)).any (fun k => slotStart x k < a && decide (x.c < slotStart x k + 2 ^ x.nlog2)
    && (List.range x.layers).any (fun l => (pageAt s q l k).isNone))

/-- Sets C and makes RESIDENT the pages whose first position lies below it (06 R232). -/
def setCommitted (q c : Nat) (s : State) : State :=
  match s.getSeq q with
  | none => s
  | some x =>
    let up := (pagesOf s q).filter (fun e => e.2.st = .tentative && e.2.freeing.isNone && decide (slotStart x e.2.slot < c))
    let s := s.updSeq q (fun y => { y with c := c })
    forEach up (fun e s => writePte q e.2.layer e.2.slot (s.updPage e.1 (fun p => { p with st := .resident }))) s

/-- Places every page for new slots below E, or nothing (06 R232). -/
def reserveSlots (q e : Nat) (s : State) : Option State :=
  match s.getSeq q with
  | none => none
  | some x => if (newSlots s q x e).any (fun lk => x.pmax ≤ lk.2) then none else placeAll q (newSlots s q x e) s

/-- The indivisible change of SEQ_COMMIT (06 R232); RESULT is the committed length in force at its end, also of a refusal. -/
def seqCommitDo (q a d : Nat) (s : State) : Res × State :=
  match s.getSeq q with
  | none => (Res.skip 6, s)
  | some x =>
    let no := fun (r : Res) => { r with res := x.c % 2 ^ 32 }
    if (pagesOf s q).any (fun e => e.2.st = .parked || e.2.st = .expired) then (no (Res.skip 6), s)
    else if a < x.c then (no (Res.skip 6), s)
    else if uncovered s q x a then (no (Res.skip 6), s)
    else match reserveSlots q (Nat.min (a + d) (2 ^ 26)) s with
      | none => (no (Res.deny 3), s)
      | some s => (Res.ok (a % 2 ^ 32), setCommitted q a s)

/-- A page returns to FREE: its stack space, or its far copy, goes back (06 R230). A PARKED page's record is written EMPTY. -/
def freePage (i : Nat) (s : State) : State :=
  match s.getPage i with
  | none => s
  | some p =>
    let s : State := if p.st = .resident || p.st = .tentative
      then giveUp false (BitVec.twoPow 12 p.stack) (BitVec.twoPow 64 p.bset) p.off p.len [] s
      else s.delFdir i
    let s : State := s.delPage i
    if p.orphan then s else writePte p.seq p.layer p.slot s

/-- Frees pages now, or once the commands they wait for have completed (06 R237, R238). -/
def freePages (l : List Nat) (deps : List Nat) (s : State) : State :=
  if deps.isEmpty then forEach l freePage s
  else forEach l (fun i s => s.updPage i (fun p => { p with freeing := some deps })) s

/-- The calibration pair of a sequence goes when no open sequence names it. -/
def dropCalib (k : Nat) (s : State) : State := if s.seq.any (fun e => e.2.sref = k) then s else s.delCalib k

/-- The slot of a closed sequence returns once the commands it waits for have ended and none of its pages is left (06 R238). -/
def endSeq (q : Nat) (s : State) : State :=
  match s.getSeq q with
  | none => s
  | some x => if (match x.closing with | some d => !anyAlive s d | none => false) && (pagesOf s q).isEmpty then dropCalib x.sref (s.delSeq q) else s

/-- SEQ_CLOSE's effect (06 R238): every page is freed under the deferral and the slot returned. -/
def closeSeq (q : Nat) (deps : List Nat) (s : State) : State :=
  let pgs := (pagesOf s q).map (·.1)
  endSeq q (freePages pgs deps (s.updSeq q (fun x => { x with closing := some deps })))

end Sys2Proof.Machine
end

