-- ==== Sys2Proof/Machine/Ctx.lean ====
section
/-! DEFINITION. Commands and contexts: how a queue entry completes, stops and is discarded (02 R64-R71), how a run is cut (03 R115), requests
that end (12 R454), fault teardown (11 R431) and the freeing of a context (11 R433). -/

namespace Sys2Proof.Machine

/-- The key of queue n of a context; function admin queues have keys 0 to 33. -/
def ctxQ (c n : Nat) : Nat := 64 + c * 4 + n

/-- The entry of a command. -/
def findEntry (s : State) (q uid : Nat) : Option Entry :=
  match s.getQueue q with
  | some x => x.es.find? (fun e => e.uid = uid)
  | none => none

/-- Changes the entry of a command. -/
def updEntry (q uid : Nat) (g : Entry → Entry) (s : State) : State :=
  s.updQueue q (fun x => { x with es := x.es.map (fun e => if e.uid = uid then g e else e) })

/-- Whether an entry has completed. -/
def Entry.isDone (e : Entry) : Bool := match e.ph with | .done _ _ _ => true | _ => false

/-- The kind of a completed entry. -/
def Entry.kind (e : Entry) : Option Kind := match e.ph with | .done st _ _ => some (kindOf st) | _ => none

/-- Marks an entry as completed. -/
def setDone (q uid : Nat) (r : Res) (s : State) : State := updEntry q uid (fun e => { e with ph := .done r.st r.det r.res }) s

/-- Whether function f may act for a casement: its port owns it, and a virtual function serves its own alone (02 R79, R80; log 19). -/
def reachesCas (s : State) (f cas : Nat) : Bool :=
  (s.casAt cas).owner = fnPort f + 1 && (isPF f || fnNum f = cas + 1)

/-- Whether function f reaches a context (02 R79). -/
def reaches (s : State) (f c : Nat) : Bool :=
  match s.getCtx c with
  | some x => reachesCas s f x.cas
  | none => false

/-- Whether a packet of queue q whose CTX is c may name latch l (03 R131; 02 R589 step 9). -/
def mayName (s : State) (q c l : Nat) : Bool :=
  match s.getLatch l with
  | none => false
  | some x => if q < 64 then (x.owner = c || reaches s q x.owner) else x.owner = c

/-- Poisons the latch a discarded or stopped command would have signalled (02 R68), unless its signal has taken effect. -/
def poisonSig (q : Nat) (e : Entry) (s : State) : State :=
  if hSigEn e.hdr && !e.sigged && mayName s q e.ctxf (hSigLatch e.hdr) then poisonLatch (hSigLatch e.hdr) s else s

/-- Poisons the latch that a discarded LATCH_SIGNAL would have signalled (02 R69, Table 2.9). -/
def poisonArg (q : Nat) (e : Entry) (s : State) : State :=
  if e.opc = 0x0503 && !e.isDone && mayName s q e.ctxf (hA e.hdr) then poisonLatch (hA e.hdr) s else s

/-- An entry is gone from its queue once its record is posted and its signal, if it has one to make, is made. -/
def Entry.gone (e : Entry) : Bool := e.posted && (e.sigged || !hSigEn e.hdr || e.kind ≠ some .outcome)

def sweepQ (q : Nat) (s : State) : State := s.updQueue q (fun x => { x with es := x.es.filter (fun e => !e.gone) })

/-! Engine commands and cores. -/

/-- Poisons the envelope latch of an engine command. -/
def poisonEnv (e : ECmd) (s : State) : State := if eSigEn e.words then poisonLatch (eSigLatch e.words) s else s

/-- SPECULATION_CANCEL (03 R123): every command that depends on one of the BRLs is withdrawn or stopped, its held signal dropped, and the
shadow buffer it targeted marked stale; held skips of those BRLs go. A load that had started stopped at its next 128-byte write: where it got to is
open, so that what it was to write is undefined (07 R276; log 8). -/
def cancelSpec (cl : Nat) (ids : List Nat) (s : State) : State :=
  let c := s.coreAt cl
  let hit := fun (l : List Nat) => l.any (fun i => ids.contains i)
  let gone := c.eq.filter (fun e => hit e.spec)
  let s : State := forEach gone (fun e s => settleWrites e.uid (undefWrites (tgetD s.wlog e.uid []) s)) s
  s.modCore cl (fun c => { c with
    eq := c.eq.filter (fun e => !hit e.spec),
    stale := dedupN (c.stale ++ gone.filterMap (·.shadow)),
    held := c.held.filter (fun x => !hit x.spec),
    brls := c.brls.filter (fun b => !ids.contains b.id) })

/-- The held envelope signals of a core take effect once the commands they wait for have completed (03 R109). -/
def fireEnv (cl : Nat) (s : State) : State :=
  let c := s.coreAt cl
  let ready := fun (g : Sigl) => g.env && !(c.eq.any (fun e => g.deps.contains e.uid))
  let s : State := forEach (c.sigls.filter ready) (fun g => signalLatch g.latch g.value g.add) s
  s.modCore cl (fun c => { c with sigls := c.sigls.filter (fun g => !ready g) })

/-- Withdraws what a core has pushed and not started: engine commands and pending SIGLs, their latches poisoned (03 R115). Its BRLs resolve no more;
a speculative command that has started runs to its end (log 70). -/
def withdraw (cl : Nat) (s : State) : State :=
  let c := s.coreAt cl
  let s : State := forEach (c.eq.filter (fun e => e.st = .queued)) poisonEnv s
  let s : State := forEach (c.sigls.filter (fun g => !g.env)) (fun g => poisonLatch g.latch) s
  fireEnv cl (s.modCore cl (fun c => { c with eq := c.eq.filter (fun e => e.st ≠ .queued), sigls := c.sigls.filter (·.env), brls := [], held := [] }))

/-- The sequences of a request. -/
def Req.named (r : Req) : List Nat := r.seqs.filter (fun q => q ≠ 0xFFFF)

/-- The physical clusters whose cores a run holds, ascending. -/
def coresOf (s : State) (r : Nat) : List Nat := tkeys (tfilter (fun _ c => c.run = some r) s.core)

/-- Cuts a run (03 R115): its cores stop issuing and what has not started is withdrawn. The first stop observed decides the status
(R101); a run that holds no cluster has nothing to wait for. -/
def cutRun (r st : Nat) (s : State) : State :=
  match s.getRun r with
  | none => s
  | some x =>
    let s : State := if x.st = .running || x.st = .preempting || x.st = .saving then
        forEach (coresOf s r) (fun cl s => withdraw cl (s.modCore cl (fun c => { c with st := .cut, stall := none, stopReq := false }))) s
      else s
    s.updRun r (fun x => { x with stop := some (x.stop.getD st) })

/-- The run of a queue entry. -/
def runOf (s : State) (uid : Nat) : Option Nat := s.run.findSome? (fun e => if e.2.uid = uid && e.2.keeper.isNone then some e.1 else none)

/-- Whether a run holds no clusters: it waits to start, or is saved whole (11 R422, R425). -/
def Run.idle (r : Run) : Bool := r.st = .waiting || r.st = .saved || r.st = .restoring

/-- Forgets a run's shutter records. -/
def voidSaved (r : Nat) (s : State) : State := s.onSaved (tfilter (fun _ v => v.run ≠ r))

/-- What a run had written is undefined: its commands that have ended, and its cores' own stores (02 R69, 15 R526). -/
def spoilRun (r : Nat) (s : State) : State :=
  match s.getRun r with
  | none => s
  | some x => (undefWrites x.wrote s).updRun r (fun y => { y with wrote := [] })

/-- Releases the clusters a run holds; its cores become idle and remember the context that ran last (11 R417). -/
def releaseRun (r : Nat) (s : State) : State :=
  voidSaved r ((s.onCore (tmap (fun _ c => if c.run = some r then { c with st := .idle, run := none, stall := none, brls := [], eq := [], sigls := [], held := [], stopReq := false, late := false } else c))).delRun r)

/-! Park jobs. -/

/-- The directory record of a page whose job ends: a mark COPYING, or RESTORING of a page that stays, goes or becomes COMPLETE (09 R358, R359). -/
def endMark (p : Nat) (s : State) : State :=
  match s.getFdir p with
  | some d =>
    if d.mark = .copying then s.delFdir p
    else if d.mark = .restoring then
      (match s.getPage p with
       | some g => if g.st = .resident then s.delFdir p else s.putFdir p { d with mark := .complete }
       | none => s.putFdir p { d with mark := .complete })
    else s
  | none => s

/-- Ends a park job or restore: the page in hand goes back to where it stood (15 R539: copy in hand EMPTY, restore in hand PARKED). -/
def abortJob (j : Nat) (s : State) : State :=
  match s.getJob j with
  | none => s
  | some x => (forEach (x.pages.take 1) endMark s).delJob j

/-- Ends a job whose page in hand is to stay RESIDENT: also a journal mark already written is taken back (13 R487). -/
def dropJob (j : Nat) (s : State) : State :=
  match s.getJob j with
  | none => s
  | some x =>
    let s : State := if x.park && x.phase = 3 then (match x.pages with | p :: _ => s.delFdir p | [] => s) else s
    abortJob j s

/-! Requests. -/

/-- The home leaf of a casement: the leaf of its lowest-numbered cluster (11 R407). -/
def homeLeaf (s : State) (cas : Nat) : Nat := match (ones (s.casAt cas).clusters).head? with | some n => leafOfCluster n | none => 0

/-- The committed length of a request's partners. -/
def reqC (s : State) (r : Req) : Nat := match r.named.head? with | some q => (match s.getSeq q with | some x => x.c | none => 0) | none => 0

/-- Tokens written at OUT_ADDR so far or at the end (12 R454). -/
def reqTokBytes (r : Req) : List Byte := r.toks.flatMap (fun t => toLE t 4)

/-- The request record (12 Table 12.6). -/
def reqRecord (s : State) (id : Nat) (r : Req) (doneF : Bool) : List Byte :=
  toLE r.accept.toNat 8 ++ toLE r.endTime.toNat 8 ++ toLE r.toks.length 4 ++ toLE (reqC s r) 4 ++ toLE id 4 ++ toLE r.steps 4
  ++ toLE (match r.firstUs with | some u => u | none => 0xFFFFFFFF) 4 ++ toLE r.pages 4
  ++ toLE (if doneF then r.status else 0) 1 ++ toLE r.cause 1 ++ toLE (homeLeaf s r.cas) 1 ++ toLE (if doneF then 0x80 else 0) 1 ++ zeros 20

/-- The end of a request (12 R454): its tokens where they were not streamed, the final record, then the latch: set for an outcome,
poisoned for a discard. A cancel that waits for it completes. `seqs` are no longer held. -/
def finishReq (id : Nat) (s : State) : State :=
  match s.getReq id with
  | none => s
  | some r =>
    let s : State := if r.stream then s else vaPut r.ctx r.outAddr (reqTokBytes r) s
    let s : State := vaPut r.ctx r.recAddr (reqRecord s id r true) s
    let s : State := if r.sigEn && ownsLatch s r.ctx r.sigLatch then (if r.status = stDiscarded then poisonLatch r.sigLatch s else signalLatch r.sigLatch r.sigVal false s) else s
    let s : State := s.onSeq (tmap (fun _ q => if q.held = some id then { q with held := none } else q))
    let s : State := match r.cancel with
      | some (q, u) => updEntry q u (fun e => if e.isDone then e else { e with ph := .done stOK 0 0 }) s
      | none => s
    s.updReq id (fun x => { x with st := .ended, cancel := none })

/-- A request that has not ended ends DISCARDED with a cause (12 R455, R458-R460); a job for it ends with it. -/
def discardReq (cause id : Nat) (s : State) : State :=
  match s.getReq id with
  | none => s
  | some r =>
    if r.st = .ended then s
    else
      let s : State := forEach (tkeys (tfilter (fun _ j => j.req = some id) s.job)) dropJob s
      let s : State := trace (4 + homeLeaf s r.cas) 0x4002 2 (BitVec.ofNat 64 id) (BitVec.ofNat 64 cause) s
      finishReq id (s.updReq id (fun x => { x with status := stDiscarded, cause := cause, endTime := s.ctr (homeLeaf s r.cas) }))

/-- Requests of a context that have not ended, in acceptance order. -/
def liveReqs (s : State) (p : Req → Bool) : List Nat :=
  (sortBy (fun e : Nat × Req => e.2.order) (s.req.filter (fun e => e.2.st ≠ .ended && p e.2))).map (·.1)

/-! Discards, stops, faults. -/

/-- The summary of a SCRUB_RANGE that is cut is undefined (09 R348): free bytes. -/
def scrubCut (e : Entry) (s : State) : State :=
  if e.opc = 0x0701 then
    let (k, s) := State.fresh s
    vaPut e.ctxf (le e.pl 16 8) (freeBytes k 576) s
  else s

/-- A command completes DISCARDED (02 R68, R69): a running PROG_RUN is cut and completes when its started commands have ended; anything
else completes at once. -/
def discardEntry (q : Nat) (e : Entry) (s : State) : State :=
  if e.posted then s
  else
    let s : State := poisonArg q e (poisonSig q e s)
    match e.ph with
    | .running =>
      match runOf s e.uid with
      | some r =>
        match s.getRun r with
        | some x =>
          if x.idle then setDone q e.uid (Res.stat stDiscarded) (releaseRun r (spoilRun r s))
          else (cutRun r stDiscarded s).updRun r (fun x => { x with stop := some stDiscarded })
        | none => s
      | none =>
        let s : State := forEach (tkeys (tfilter (fun _ j => j.uid = e.uid && j.req.isNone) s.job)) dropJob s
        setDone q e.uid (Res.stat stDiscarded) (settleWrites e.uid (undefWrites (tgetD s.wlog e.uid []) (scrubCut e s)))
    | _ => setDone q e.uid (Res.stat stDiscarded) s

/-- The entries of a queue after a command. -/
def entriesAfter (x : Queue) (uid : Nat) : List Entry := (x.es.dropWhile (fun e => e.uid ≠ uid)).drop 1

/-- A stop in a context queue (02 R69): the queue becomes STOPPED and every later command is discarded. -/
def stopQueue (q uid : Nat) (s : State) : State :=
  match s.getQueue q with
  | none => s
  | some x =>
    let s : State := if x.st = .active then s.updQueue q (fun x => { x with st := .stopped }) else s
    forEach (entriesAfter x uid) (discardEntry q) s

/-- What a fault record says of its cause (11 Table 11.7). -/
structure FaultInfo where
  cause   : Nat
  status  : Nat
  qk      : Nat
  slot    : Nat
  tag     : Nat
  cluster : Nat
  pc      : Nat
  addr    : Nat
deriving DecidableEq, Repr

/-- Commands of a context's queues that have no record yet, apart from one. -/
def pendingOf (s : State) (c uid : Nat) : List (Nat × Entry) :=
  (List.range 4).flatMap (fun n => match s.getQueue (ctxQ c n) with
    | some x => (x.es.filter (fun e => !e.posted && e.uid ≠ uid)).map (fun e => (ctxQ c n, e))
    | none => [])

/-- The admin commands that wait on queue `q` (02 R49, R50) complete. -/
def endWaits (q : Nat) (s : State) : State :=
  match s.getQueue q with
  | none => s
  | some x =>
    match x.resume with
    | some (aq, u, _) => setDone aq u (Res.skip 6) (s.updQueue q (fun x => { x with resume := none, drain := false }))
    | none => s

/-- Steps 1, 2, 4 and 5 of 11 R431 and the discard of step 3: queues halted, runs cut, pending commands discarded, latches poisoned, armed
areas disarmed; `keep` is the failing command, which completes with its own status. -/
def tearDown (c keep : Nat) (s : State) : State :=
  let s : State := forEach (List.range 4) (fun n s => endWaits (ctxQ c n) (s.updQueue (ctxQ c n) (fun x => { x with st := .halted }))) s
  let pend := pendingOf s c keep
  let s : State := forEach pend (fun p => discardEntry p.1 p.2) s
  let s : State := forEach (tkeys (tfilter (fun _ r => r.ctx = c) s.run)) (fun r s =>
    match s.getRun r with
    | some x => if x.keeper.isSome && x.idle then releaseRun r s else cutRun r stDiscarded s
    | none => s) s
  let s : State := poisonCtxLatches c s
  s.onArmed (fun l => l.filter (fun a => a.ctx ≠ c))

/-- The fault record (11 Table 11.7). -/
def faultRecord (s : State) (c : Nat) (i : FaultInfo) (ndisc npois : Nat) : List Byte :=
  let leaf := if i.cluster = 0xFFFF then homeLeaf s (ctxCas s c) else leafOfCluster i.cluster
  toLE (s.ctr leaf).toNat 8 ++ toLE leaf 1 ++ toLE i.cause 1 ++ toLE i.status 1 ++ toLE (i.qk % 4) 1 ++ toLE i.slot 2 ++ toLE i.tag 2
  ++ toLE i.cluster 2 ++ toLE i.pc 3 ++ zeros 3 ++ toLE i.addr 8 ++ toLE ndisc 4 ++ toLE npois 4 ++ zeros 24

/-- CONTEXT_FAULT (11 R431): the teardown of an ACTIVE context, its requests' end (12 R459), its migration's end (11 R439), and the fault
record with its interrupt. `keep` is the uid of the failing host command. -/
def ctxFault (c keep : Nat) (i : FaultInfo) (s : State) : State :=
  match s.getCtx c with
  | none => s
  | some x =>
    if x.st ≠ .active then s
    else
      let s : State := s.updCtx c (fun x => { x with st := .faulted, mig := none })
      let s : State := match x.mig with | some m => setDone m.q m.uid (Res.stat stDiscarded) s | none => s
      let nd := (pendingOf s c keep).length
      let np := (latchesOf s c).length
      let s : State := tearDown c keep s
      let s : State := forEach (liveReqs s (fun r => r.ctx = c)) (discardReq 6) s
      let s : State := forEach (tkeys (tfilter (fun _ v => v.svc.ctx = some c) s.cas)) (fun k s =>
        s.modCas k (fun v => { v with svc := { v.svc with ctx := none, rows := [], run := none, result := none } })) s
      let s : State := if x.faultAddr = 0 then s else busWrite (fnPort x.fn) x.faultAddr.toNat (faultRecord s c i nd np) s
      msix x.fn x.faultVec s

/-- Completes a command (02 R68): an outcome first drains its writes, and ends with ECC_UNCORR instead where one of them met an
uncorrectable word (09 R340); a stop leaves what it had written undefined (15 R526), poisons its latch and stops its queue, and faults the context where
its status says so; the admin queue goes on (R48). -/
def completeEntry (q uid : Nat) (r : Res) (addr : Nat) (s : State) : State :=
  match findEntry s q uid with
  | none => s
  | some e =>
    if e.isDone then s
    else
      let s : State := drainOwned uid s
      let r := if kindOf r.st = .outcome && hitBad s uid then Res.stat stEccUncorr else r
      let s : State := if kindOf r.st = .stop || kindOf r.st = .discard then undefWrites (tgetD s.wlog uid []) s else s
      let s : State := setDone q uid r (settleWrites uid (clearBad uid s))
      match kindOf r.st with
      | .stop =>
        let s : State := poisonSig q e s
        if q < 64 then s
        else
          let s : State := stopQueue q uid s
          if faultsCtx r.st then
            ctxFault e.ctxf uid { cause := if r.st = stScaleSkew then 1 else 2, status := r.st, qk := q, slot := e.slot, tag := e.tag,
                                  cluster := 0xFFFF, pc := 0, addr := if r.st = stPageFault then addr else 0 } s
          else s
      | .discard => poisonArg q e (poisonSig q e s)
      | _ => s

/-! Freeing a context. -/

/-- An entry names latch l and has not completed, its signal included: in its header, or as the latch a latch packet acts on (03 R132, Table 3.12). -/
def Entry.names (l : Nat) (e : Entry) : Bool :=
  (!e.isDone && ((hWaitEn e.hdr && hWaitLatch e.hdr = l) || (decide (0x0502 ≤ e.opc) && decide (e.opc ≤ 0x0506) && hA e.hdr = l)))
  || ((!e.isDone || e.kind = some .outcome) && hSigEn e.hdr && !e.sigged && hSigLatch e.hdr = l)

/-- Commands and signals that name latch l and are still to come to their end (03 R132). -/
def namersOf (s : State) (l : Nat) : List Nat :=
  s.queue.flatMap (fun e => (e.2.es.filter (Entry.names l)).map (·.uid))
  ++ ((allECmds s).filter (fun x => (eSigEn x.words && eSigLatch x.words = l) || (eWaitEn x.words && eWaitLatch x.words = l))).map (·.uid)
  ++ s.core.flatMap (fun e => (e.2.sigls.filter (fun g => g.latch = l)).map (·.uid))

/-- A latch index is freed, poisoned first; commands that named it hold its reuse back (03 R132). -/
def freeLatch (l : Nat) (s : State) : State :=
  let n := namersOf s l
  let s : State := (poisonLatch l s).delLatch l
  if n.isEmpty then s else s.putLatchHold l n

/-- Everything a context owns goes (11 R433): runs and cores, queues, sequences (their PARKED pages stay as orphans where a reset destroys
the context, 15 R534), allocations, latches, descriptors, programs, shutter area, aperture windows, calibration pairs, its part in
collectives. A later context of the same number is another context to the zero fills of 11 R417. -/
def freeCtx (orphan : Bool) (c : Nat) (s : State) : State :=
  let s : State := forEach (tkeys (tfilter (fun _ r => r.ctx = c) s.run)) releaseRun s
  let s : State := s.onSaved (tfilter (fun k _ => k / 128 ≠ c))
  let s : State := s.onQueue (tfilter (fun k _ => k < 64 || (k - 64) / 4 ≠ c))
  let s : State := forEach (tkeys (tfilter (fun _ j => j.q ≥ 64 && (j.q - 64) / 4 = c) s.job)) (if orphan then abortJob else dropJob) s
  let seqs := tkeys (tfilter (fun _ q => q.ctx = c) s.seq)
  let s : State := if orphan then
      s.onPage (tmap (fun _ p => if seqs.contains p.seq && (p.st = .parked) then { p with orphan := true } else p))
    else s
  let s : State := forEach seqs (fun q s => closeSeq q [] s) s
  let s : State := forEach (tkeys (tfilter (fun _ p => p.ctx = c && !p.orphan) s.page)) freePage s
  let s : State := forEach ((s.alloc.filter (fun e => e.2.ctx = c)).map (·.2)) (fun a => releaseAlloc a []) s
  let s : State := s.onAlloc (tfilter (fun _ a => a.ctx ≠ c))
  let s : State := forEach (latchesOf s c) freeLatch s
  let s : State := s.onDesc (tfilter (fun k _ => k / 65536 ≠ c))
  let s : State := s.onProg (tfilter (fun k _ => k / 512 ≠ c))
  let s : State := match s.getCtx c with
    | some x => match x.shutter with
      | some h => forEach [h.p0, h.p1] (fun p s => if p.len = 0 then s else giveUp false p.stks (casBs s x.cas) p.off p.len [] s) s
      | none => s
    | none => s
  let s : State := s.onApw (tmap (fun _ w => if w.ctx = c then { w with enable := false } else w))
  let s : State := s.onCalib (tfilter (fun _ k => k.1 ≠ c))
  let s : State := s.onColl (tfilter (fun _ x => x.ctx ≠ c))
  let s : State := s.onArea (tfilter (fun k _ => k / 2 ^ 52 ≠ c))
  let s : State := s.onArmed (fun l => l.filter (fun a => a.ctx ≠ c))
  let s : State := s.onReq (tfilter (fun _ r => r.ctx ≠ c))
  let s : State := s.onCas (tmap (fun _ v => if v.svc.ctx = some c then { v with svc := { v.svc with ctx := none, rows := [], run := none, result := none } } else v))
  let s : State := s.onCas (tmap (fun _ v => match v.place with
    | some p => if p.ctx = c then { v with place := none, stage := none } else v
    | none => v))
  let s : State := s.onCore (tmap (fun _ k => if k.live = some c then { k with live := none } else k))
  let s : State := s.onCore (tmap (fun _ k => if k.lastCtx = some c then { k with lastCtx := none } else k))
  let s : State := s.onUnitCtx (tfilter (fun _ k => k ≠ c))
  s.delCtx c

end Sys2Proof.Machine
end

