-- ==== Sys2Proof/Machine/Desc.lean ====
section
/-! DEFINITION. Movement descriptors (07 Table 7.2, R262-R271, R281, R282) and attention descriptors (06 Table 6.9, R239, R240). -/

namespace Sys2Proof.Machine

/-- A movement descriptor, taken apart (07 Table 7.2). -/
structure MDesc where
  kind   : Nat
  fmt    : Nat
  fmtD   : Nat
  padw   : Bool
  inpl   : Bool
  hdr    : Bool
  blk    : Bool
  acc    : Bool
  spfmt  : Nat
  sspace : Nat
  dspace : Nat
  g      : Nat
  sfmt   : Nat
  perm   : Nat
  padv   : Nat
  rows   : Nat
  size   : List Nat
  sst    : List Int
  dst    : List Nat
  pad    : List Nat               -- PAD0_LO, PAD0_HI, PAD1_LO, PAD1_HI
  sbase  : Nat
  dbase  : Nat
  sslide : Nat
  dslide : Nat
  salign : Nat
  dalign : Nat
  resv   : Bool                   -- a reserved bit is set
deriving DecidableEq, Repr

/-- A signed 64-bit number. -/
def sInt64 (n : Nat) : Int := if n < 2 ^ 63 then (n : Int) else (n : Int) - 2 ^ 64

/-- Reads a movement descriptor. -/
def mdescOf (b : List Byte) : MDesc :=
  let fl := le b 3 1
  let sp := le b 4 1
  { kind := le b 0 1, fmt := le b 1 1, fmtD := le b 2 1, padw := fl.testBit 0, inpl := fl.testBit 1, hdr := fl.testBit 2,
    blk := fl.testBit 3, acc := fl.testBit 4, spfmt := fldN fl 6 5, sspace := sp % 4, dspace := sp / 4 % 4, g := le b 5 1 % 4,
    sfmt := le b 5 1 / 4 % 2, perm := le b 6 2 % 2 ^ 15, padv := le b 8 4, rows := le b 12 4,
    size := (List.range 5).map (fun i => le b (16 + 4 * i) 4), sst := (List.range 4).map (fun i => sInt64 (le b (36 + 8 * i) 8)),
    dst := (List.range 4).map (fun i => le b (68 + 8 * i) 8), pad := (List.range 4).map (fun i => le b (100 + 2 * i) 2),
    sbase := le b 108 8, dbase := le b 116 8, sslide := le b 124 8, dslide := le b 132 8, salign := le b 140 1, dalign := le b 141 1,
    resv := fl.testBit 7 || sp / 16 ≠ 0 || le b 5 1 / 8 ≠ 0 || (le b 6 2).testBit 15 || le b 142 50 ≠ 0 }

/-- Size of source dimension d. -/
def MDesc.sz (m : MDesc) (d : Nat) : Nat := nth m.size d 1

/-- The source dimension of destination dimension d (07 R264). -/
def MDesc.pi (m : MDesc) (d : Nat) : Nat :=
  if m.kind = 2 then (if d = 0 then 1 else if d = 1 then 0 else d) else if m.kind = 3 then fldN m.perm (3 * d + 2) (3 * d) else d

/-- Elements of pad before, and after, destination dimension d. -/
def MDesc.padLo (m : MDesc) (d : Nat) : Nat := if d = 0 then nth m.pad 0 0 else if d = 1 then nth m.pad 2 0 else 0
def MDesc.padHi (m : MDesc) (d : Nat) : Nat := if d = 0 then nth m.pad 1 0 else if d = 1 then nth m.pad 3 0 else 0

/-- Extent of destination dimension d. -/
def MDesc.ext (m : MDesc) (d : Nat) : Nat := m.sz (m.pi d) + m.padLo d + m.padHi d

def MDesc.noPads (m : MDesc) : Bool := m.pad.all (fun p => p = 0)

/-- Whether a format code may be named (07 Table 7.2). -/
def moveFmt (f : Nat) : Bool := [0x00, 0x01, 0x02, 0x03, 0x10, 0x11, 0x12, 0x13, 0x20, 0x21].contains f

/-- The conversion set (07 R267). -/
def convSet (f : Nat) : Bool := [0x01, 0x02, 0x03, 0x10, 0x11].contains f

/-- W formats of 04 Table 4.1. -/
def isWFmt (f : Nat) : Bool := [0x02, 0x03, 0x10, 0x11, 0x12, 0x13, 0x20, 0x21].contains f

/-- 07 Table 7.3. -/
def MDesc.fmtOk (m : MDesc) : Bool :=
  moveFmt m.fmt && moveFmt m.fmtD
  && (if m.kind = 5 && m.acc then convSet m.fmt && [0x01, 0x02, 0x03].contains m.fmtD
      else m.fmtD = m.fmt || (convSet m.fmt && convSet m.fmtD && m.g = 0))
  && (if m.fmt = 0x12 then [1, 4, 5].contains m.kind else true)
  && (if m.blk && m.g ≠ 0 then m.fmt ≠ 0x00 && m.fmtD = m.fmt else true)
  && (if m.spfmt = 1 || m.spfmt = 2 then isWFmt m.fmt && m.fmtD = m.fmt else true)

/-- Formats of ajar service (07 R266). -/
def ajarMoveFmt (f : Nat) : Bool := [0x00, 0x01, 0x02, 0x10, 0x11].contains f

/-- Whole bytes of an element. -/
def fmtUnit (f : Nat) : Nat := (fmtBits f + 7) / 8

/-- PERM is a permutation of 0 to 4. -/
def permOk (p : Nat) : Bool := (List.range 5).all (fun d => (List.range 5).any (fun k => fldN p (3 * k + 2) (3 * k) = d))

/-- The conditions of an in-place transpose (07 R282). -/
def MDesc.inplOk (m : MDesc) : Bool :=
  m.kind = 2 && m.sz 0 = m.sz 1 && decide (64 ≤ m.sz 0) && decide (m.sz 0 ≤ 256) && m.fmt = m.fmtD && m.sspace = m.dspace
  && m.sbase = m.dbase && m.sslide = m.dslide && m.salign = m.dalign
  && (List.range 4).all (fun i => nth m.sst i 0 = (nth m.dst i 0 : Int)) && m.noPads && !m.hdr && !m.blk && m.spfmt = 0

/-- The rules of 07 R268. -/
def MDesc.rulesOk (m : MDesc) : Bool :=
  let e8 := fmtBits m.fmt
  let d8 := fmtBits m.fmtD
  let gs := m.kind = 4 || m.kind = 5
  let h := if m.hdr || m.blk then 64 else 0
  let gran := fun f => if f = 0x13 || f = 0x21 then 2 else if f = 0x12 then 4 else 1
  let q := Nat.max (gran m.fmt) (gran m.fmtD)
  let mult := fun n => n % q = 0
  decide (1 ≤ m.kind) && decide (m.kind ≤ 5) && !m.resv && m.sspace ≠ 3 && m.dspace ≠ 3 && m.spfmt ≠ 3
  && (if m.kind = 3 then permOk m.perm else m.perm = 0)
  && m.size.all (fun s => decide (1 ≤ s) && decide (s ≤ 2 ^ 24))
  && (if gs then decide (1 ≤ m.rows) else true)
  && decide (m.ext 0 * d8 ≤ nth m.dst 0 0 * 8) && decide (h + nth m.dst 0 0 * m.ext 1 ≤ nth m.dst 1 0)
  && decide (nth m.dst 1 0 * m.ext 2 ≤ nth m.dst 2 0) && decide (nth m.dst 2 0 * m.ext 3 ≤ nth m.dst 3 0)
  && mult (m.sz 0) && mult (m.padLo 0) && mult (m.padHi 0) && mult (m.ext 0)
  && (if m.kind = 4 then m.padLo 1 = 0 && m.padHi 1 = 0 else true) && (if m.kind = 5 then m.noPads else true)
  && (if gs || m.blk || m.spfmt ≠ 0 then m.sz 2 = 1 && m.sz 3 = 1 && m.sz 4 = 1 else true)
  && !(m.hdr && m.blk) && !(gs && (m.hdr || m.blk))
  && (if m.blk && m.g ≠ 0 then m.kind = 1 && m.noPads && nth m.sst 0 0 = (nth m.dst 0 0 : Int) && nth m.dst 0 0 * 8 = m.sz 0 * e8
        && m.sz 0 * m.sz 1 % gSize m.g = 0 else true)
  && (if m.acc then m.kind = 5 else true) && (if m.inpl then m.inplOk else true)
  && (if m.spfmt ≠ 0 then m.kind = 1 && m.sz 0 = 64 && (m.sz 1 = 64 || m.sz 1 = 128) && m.noPads && m.fmt = m.fmtD else true)
  && decide (m.salign ≤ 21) && decide (m.dalign ≤ 21) && m.sbase % fmtUnit m.fmt = 0 && m.dbase % fmtUnit m.fmtD = 0
  && m.sslide % 2 ^ m.salign = 0 && m.dslide % 2 ^ m.dalign = 0

/-- Length of the Transom block of a BLK block with G not 0, and of the metadata (07 R269). -/
def MDesc.tLen (m : MDesc) : Nat := if m.blk && m.g ≠ 0 then transomLen (m.sz 0 * m.sz 1 / gSize m.g) else 0
def MDesc.mLen (m : MDesc) : Nat := if m.spfmt = 1 then m.sz 1 * 16 else if m.spfmt = 2 then m.sz 1 * 24 else 0

/-- Bytes of a row of the source and of the destination. -/
def MDesc.srcRow (m : MDesc) : Nat := fmtBytes m.fmt (m.sz 0)
def MDesc.dstRow (m : MDesc) : Nat := fmtBytes m.fmtD (m.ext 0)

/-- lo and hi of one side without slide (07 R269): dimensions as (extent, stride). -/
def footprint (base : Nat) (dims : List (Nat × Int)) (tail : Nat) : Int × Int :=
  dims.foldl (fun r d => if 0 < d.2 then (r.1, r.2 + (d.1 - 1) * d.2) else (r.1 + (d.1 - 1) * d.2, r.2)) ((base : Int), (base : Int) + tail - 1)

/-- The source footprint, slides left out. -/
def MDesc.srcFoot (m : MDesc) : Int × Int :=
  footprint m.sbase (if m.kind = 4 then [(m.rows, nth m.sst 0 0)] else (List.range 4).map (fun i => (m.sz (i + 1), nth m.sst i 0)))
    ((if m.blk then 64 else 0) + m.srcRow + m.tLen + m.mLen)

/-- The destination footprint, slides left out. -/
def MDesc.dstFoot (m : MDesc) : Int × Int :=
  footprint m.dbase (if m.kind = 5 then [(m.rows, (nth m.dst 0 0 : Int))] else (List.range 4).map (fun i => (m.ext (i + 1), (nth m.dst i 0 : Int))))
    ((if m.hdr || m.blk then 64 else 0) + m.dstRow + m.tLen + m.mLen)

/-- Both sides with their slides. -/
def MDesc.srcAll (m : MDesc) : Int × Int := (m.srcFoot.1, m.srcFoot.2 + m.sslide)
def MDesc.dstAll (m : MDesc) : Int × Int := (m.dstFoot.1, m.dstFoot.2 + m.dslide)

/-- A footprint lies inside one allocation of the context, or inside its scratchpad (07 R269); a source also inside one that the model context maps for it
(11 R411; log 20). -/
def footOk (s : State) (c space : Nat) (src : Bool) (f : Int × Int) : Bool :=
  let n := (f.2 - f.1).toNat + 1
  decide (0 ≤ f.1) && (if space = 0 then (if src then insideOne s c f.1.toNat n else insideOwn s c f.1.toNat n (fun _ => true))
    else decide (f.2 < (if space = 1 then 2 ^ 19 else 2 ^ 20)))

/-- Two footprints in one space intersect (07 R281). -/
def MDesc.overlaps (m : MDesc) (a b : Int × Int) : Bool := m.sspace = m.dspace && decide (a.1 ≤ b.2) && decide (b.1 ≤ a.2)

/-- The checks of 07 R266 before the table. DESIGN CHOICE (log 71): a KIND that no movement has counts among the rules of R268, step 3. -/
def moveCheck (s : State) (c : Nat) (m : MDesc) : Option Res :=
  if s.dev.compatLevel = 0 && m.spfmt ≠ 0 then some (Res.stat stVersionUnsup)
  else if !m.fmtOk || (s.dev.service ≠ .full && !(ajarMoveFmt m.fmt && ajarMoveFmt m.fmtD)) then some (Res.stat stFormatUnsup)
  else if !m.rulesOk then some (Res.skip 6)
  else if !(footOk s c m.sspace true m.srcAll && footOk s c m.dspace false m.dstAll) then some (Res.stat stDescRange)
  else if (m.kind = 2 || m.kind = 3) && !m.inpl && m.overlaps m.srcAll m.dstAll then some (Res.stat stDescOverlap)
  else none

/-- An attention descriptor (06 Table 6.9). -/
structure ADesc where
  fmtQ  : Nat
  fmtK  : Nat
  fmtV  : Nat
  fmtO  : Nat
  sg    : Nat
  hd    : Nat
  kvh   : Nat
  r     : Nat
  paths : Nat
  mask  : Nat
  scale : BitVec 32
  resv  : Bool
deriving DecidableEq, Repr

def adescOf (b : List Byte) : ADesc :=
  { fmtQ := le b 1 1, fmtK := le b 2 1, fmtV := le b 3 1, fmtO := le b 4 1, sg := le b 5 1, hd := le b 6 1, kvh := le b 7 1,
    r := le b 8 1, paths := le b 9 1, mask := le b 10 1, scale := BitVec.ofNat 32 (le b 12 4),
    resv := le b 11 1 ≠ 0 || le b 16 48 ≠ 0 || le b 9 1 / 4 ≠ 0 || le b 5 1 / 8 ≠ 0 }

/-- Key and value storage formats (06 R240). -/
def isKvFmt (f : Nat) : Bool := f = 0x10 || f = 0x11 || f = 0x13

/-- 06 R240. -/
def attnCheck (s : State) (a : ADesc) : Option Res :=
  let pairOk := isKvFmt a.fmtK && (if a.fmtQ = 0x03 then !a.paths.testBit 0 else a.fmtQ = 0x02 || a.fmtQ = 0x10 || a.fmtQ = 0x11)
  let pathed := a.paths.testBit 0 || a.paths.testBit 1
  if (pathed && !pairOk) || !isKvFmt a.fmtV || !(a.fmtO = 0x01 || a.fmtO = 0x02)
      || (s.dev.service ≠ .full && [a.fmtQ, a.fmtK, a.fmtV, a.fmtO].any (fun f => f = 0x03 || f = 0x13)) then some (Res.stat stFormatUnsup)
  else if a.resv || !pathed || a.sg % 4 = 0 || 2 < a.hd || a.kvh < 1 || 16 < a.kvh || a.r < 1 || 64 < a.r || 1 < a.mask then some (Res.skip 6)
  else none

/-- Whether a live descriptor names a range of virtual addresses in a footprint (07 R271). -/
def descTouches (d : Desc) (lo hi : Nat) : Bool :=
  if le d.bytes 0 1 = 0x20 then false
  else
    let m := mdescOf d.bytes
    let hit := fun (sp : Nat) (f : Int × Int) => sp = 0 && decide (f.1 < (hi : Int)) && decide ((lo : Int) ≤ f.2)
    hit m.sspace m.srcAll || hit m.dspace m.dstAll

/-- A usable descriptor of a context: valid, not destroyed, not stale. -/
def liveDesc (s : State) (c h : Nat) : Option Desc :=
  match s.getDesc (c * 65536 + h) with
  | some d => if h = 0 || 65535 < h || d.stale || !d.dead.isEmpty then none else some d
  | none => none

end Sys2Proof.Machine
end

