-- ==== Sys2Proof/Machine/Queue.lean ====
section
/-! DEFINITION. Queues: fetching a packet (02 R51-R60), the order of checks (02 R589, R590), completion records (02 R62-R65, R86) and header
latch signals (02 R66). What a command does when it starts stands in the Host files. -/

namespace Sys2Proof.Machine

/-- A row of the opcode map (02 Table 2.7). -/
structure OpRow where
  opc    : Nat
  keeper : Bool
  admin  : Bool
  ctx    : Bool
  pf     : Bool
  low    : Bool                   -- exists below level 2
  lens   : List Nat               -- payload lengths it takes (R590)
  ma     : Nat                    -- argument bits its rule defines
  mb     : Nat
  mc     : Nat
  md     : Nat
deriving DecidableEq, Repr

/-- 64 bits of an argument. -/
def all64 : Nat := 2 ^ 64 - 1
def all32 : Nat := 2 ^ 32 - 1

/-- The opcode map (02 Table 2.7; payload lengths and argument bits from each opcode's rule). -/
def opRowsA : List OpRow :=
  [{ opc := 0x0100, keeper := false, admin := true, ctx := true, pf := false, low := true, lens := [0], ma := 0, mb := 0, mc := 0, md := 0 },
   { opc := 0x0101, keeper := true, admin := true, ctx := false, pf := false, low := true, lens := [64], ma := 0, mb := 0, mc := 0, md := 0 },
   { opc := 0x0102, keeper := true, admin := true, ctx := false, pf := false, low := true, lens := [0], ma := 0, mb := 0, mc := 0, md := 0 },
   { opc := 0x0103, keeper := true, admin := true, ctx := false, pf := false, low := true, lens := [64], ma := 0, mb := 0, mc := 0, md := 0 },
   { opc := 0x0104, keeper := true, admin := true, ctx := false, pf := false, low := true, lens := [0], ma := 3, mb := 0, mc := 0, md := 0 },
   { opc := 0x0105, keeper := true, admin := true, ctx := false, pf := false, low := true, lens := [0], ma := 3, mb := 0, mc := all64, md := 0 },
   { opc := 0x0106, keeper := true, admin := true, ctx := false, pf := true, low := true, lens := [0, 64], ma := 15, mb := 0, mc := 0, md := 0 },
   { opc := 0x0107, keeper := true, admin := true, ctx := false, pf := true, low := true, lens := [0], ma := 15, mb := 0, mc := 0, md := 0 },
   { opc := 0x0108, keeper := true, admin := true, ctx := false, pf := false, low := false, lens := [256], ma := 0, mb := 0, mc := 0, md := 0 },
   { opc := 0x0109, keeper := true, admin := true, ctx := false, pf := false, low := true, lens := [0], ma := 7, mb := 0, mc := 0, md := 0 },
   { opc := 0x0201, keeper := true, admin := false, ctx := true, pf := false, low := true, lens := [64], ma := 0, mb := 0, mc := 0, md := 0 },
   { opc := 0x0202, keeper := true, admin := false, ctx := true, pf := false, low := true, lens := [0], ma := 0, mb := 0, mc := all64, md := 0 },
   { opc := 0x0203, keeper := true, admin := false, ctx := true, pf := false, low := true, lens := [32], ma := 0, mb := 0, mc := 0, md := 0 },
   { opc := 0x0204, keeper := false, admin := false, ctx := true, pf := false, low := true, lens := [0], ma := 1, mb := 0, mc := 0, md := 0 },
   { opc := 0x0205, keeper := false, admin := false, ctx := true, pf := false, low := true, lens := [32], ma := 0, mb := 0, mc := 0, md := 0 },
   { opc := 0x0206, keeper := false, admin := false, ctx := true, pf := false, low := true, lens := [32], ma := 0, mb := 0, mc := 0, md := 0 },
   { opc := 0x0301, keeper := false, admin := false, ctx := true, pf := false, low := true, lens := [64, 192], ma := 0, mb := 0, mc := 0, md := 0 },
   { opc := 0x0302, keeper := false, admin := false, ctx := true, pf := false, low := true, lens := [0], ma := all32, mb := 0, mc := 0, md := 0 },
   { opc := 0x0401, keeper := true, admin := false, ctx := true, pf := false, low := true, lens := [64], ma := 0, mb := 0, mc := 0, md := 0 },
   { opc := 0x0402, keeper := false, admin := false, ctx := true, pf := false, low := true, lens := [128], ma := 0, mb := 3, mc := 0, md := 0 },
   { opc := 0x0403, keeper := true, admin := false, ctx := true, pf := false, low := true, lens := [0], ma := all32, mb := 0, mc := 0, md := 0 },
   { opc := 0x0404, keeper := false, admin := false, ctx := true, pf := false, low := true, lens := [0], ma := all32, mb := 1, mc := 0, md := all64 }]

/-- Classes 0x05 on. SEQ_CLOSE names its sequence in ARG_A bits 13:0, as SEQ_COMMIT and SEQ_DROP do (06 R238 names no place: DESIGN CHOICE, log 74). -/
def opRowsB : List OpRow :=
  [{ opc := 0x0501, keeper := true, admin := false, ctx := true, pf := false, low := true, lens := [0], ma := 1, mb := 0, mc := all64, md := 0 },
   { opc := 0x0502, keeper := true, admin := false, ctx := true, pf := false, low := true, lens := [0], ma := all32, mb := 0, mc := 0, md := 0 },
   { opc := 0x0503, keeper := false, admin := false, ctx := true, pf := false, low := true, lens := [0], ma := all32, mb := 1, mc := all64, md := 0 },
   { opc := 0x0504, keeper := false, admin := false, ctx := true, pf := false, low := true, lens := [0], ma := all32, mb := 0, mc := all64, md := 0 },
   { opc := 0x0505, keeper := false, admin := false, ctx := true, pf := false, low := true, lens := [0], ma := all32, mb := 0, mc := 0, md := 0 },
   { opc := 0x0506, keeper := false, admin := false, ctx := true, pf := false, low := true, lens := [0], ma := all32, mb := 0, mc := 0, md := all64 },
   { opc := 0x0601, keeper := true, admin := false, ctx := true, pf := false, low := true, lens := [128], ma := 0, mb := 0, mc := 0, md := 0 },
   { opc := 0x0602, keeper := false, admin := false, ctx := true, pf := false, low := true, lens := [0], ma := 0x3FFF, mb := 0, mc := all64, md := all64 },
   { opc := 0x0603, keeper := true, admin := false, ctx := true, pf := false, low := false, lens := [0], ma := 0x3FFF, mb := 0xFFFF, mc := all64, md := all64 },
   { opc := 0x0604, keeper := true, admin := false, ctx := true, pf := false, low := true, lens := [0], ma := 0x3FFF, mb := 0, mc := 0, md := 0 },
   { opc := 0x0605, keeper := true, admin := false, ctx := true, pf := false, low := true, lens := [128], ma := 0, mb := 0, mc := 0, md := 0 },
   { opc := 0x0606, keeper := true, admin := false, ctx := true, pf := false, low := true, lens := [0], ma := all32, mb := 0, mc := 0, md := 0 },
   { opc := 0x0607, keeper := true, admin := false, ctx := true, pf := false, low := false, lens := [32], ma := 0, mb := 0, mc := 0, md := 0 },
   { opc := 0x0608, keeper := true, admin := false, ctx := true, pf := false, low := false, lens := [32], ma := 0, mb := 0, mc := 0, md := 0 },
   { opc := 0x0701, keeper := true, admin := false, ctx := true, pf := false, low := true, lens := [32], ma := 0, mb := 0, mc := 0, md := 0 },
   { opc := 0x0702, keeper := true, admin := true, ctx := false, pf := false, low := true, lens := [32], ma := 0, mb := 0, mc := 0, md := 0 },
   { opc := 0x0703, keeper := true, admin := true, ctx := false, pf := true, low := true, lens := [32], ma := 0, mb := 0, mc := 0, md := 0 },
   { opc := 0x0704, keeper := true, admin := true, ctx := false, pf := true, low := false, lens := [0], ma := 0xFFFF, mb := 0, mc := 0, md := 0 },
   { opc := 0x0801, keeper := true, admin := true, ctx := false, pf := true, low := true, lens := [128], ma := 0, mb := 0, mc := 0, md := 0 },
   { opc := 0x0802, keeper := true, admin := true, ctx := false, pf := true, low := true, lens := [0], ma := 0, mb := 0, mc := 0, md := 0 },
   { opc := 0x0803, keeper := true, admin := true, ctx := false, pf := true, low := true, lens := [0], ma := 0, mb := 0, mc := all64, md := all64 },
   { opc := 0x0901, keeper := true, admin := true, ctx := false, pf := true, low := true, lens := [0], ma := 0xFFFF, mb := 0, mc := 0, md := 0 },
   { opc := 0x0902, keeper := true, admin := true, ctx := false, pf := true, low := true, lens := [0], ma := 0, mb := 0, mc := 0, md := all64 }]

/-- The row of an opcode. -/
def opRow (o : Nat) : Option OpRow := (opRowsA ++ opRowsB).find? (fun r => r.opc = o)

/-- A set bit of x outside a mask. -/
def outside (x m : Nat) : Bool := x &&& m ≠ x

/-- Opcodes a salvage queue runs (11 R432). -/
def salvageOps : List Nat := [0x0100, 0x0204, 0x0205, 0x0202, 0x0404, 0x0506, 0x0502, 0x0302, 0x0403, 0x0604]

/-- Admin opcodes that act on an existing context (02 R589 step 8). -/
def onCtxOps : List Nat := [0x0103, 0x0104, 0x0105, 0x0102, 0x0108, 0x0109]

/-- The Keeper that parses a packet (02 R75): processor 4 or 5. -/
def keeperOf (s : State) (q : Nat) (h : Hdr) (pl : List Byte) : Nat :=
  let cls := hOpc h / 256
  if 64 ≤ q then 4 + homeLeaf s (ctxCas s ((q - 64) / 4))
  else if cls = 7 then
    if hOpc h = 0x0702 then
      (if le pl 1 1 % 32 = 16 then 4 + leafOfStack (le pl 2 1) else 4 + homeLeaf s (le pl 0 1))
    else if hOpc h = 0x0703 then 4 + leafOfStack (le pl 1 1)
    else 4
  else 4

/-- A processor answers nothing: it restarts, is held down, or has not been loaded and released yet (13 R469, R486, R488; 15 R548). In recovery
only Deadbolt runs (13 R480). -/
def procDown (s : State) (p : Nat) : Bool :=
  (s.procAt p).restarting || (s.procAt p).held || (if s.dev.recovery then p ≠ 0 else !s.dev.bootLock)
  || ((p = 2 || p = 3) && !s.dev.mullUp.getLsbD (p - 2))

/-- Checks of step 3 on a native header: the lowest DETAIL code that applies (02 R58-R60, R590). `bad3` is a v3 SLOTS3 above 15. -/
def formCheck (h : Hdr) (resv bad3 : Bool) : Option Nat :=
  match opRow (hOpc h) with
  | none => some 1
  | some r =>
    if resv || outside (hA h) r.ma || outside (hB h) r.mb || outside (hC h) r.mc || outside (hD h) r.md then some 2
    else if bad3 then some 3
    else if hInline h && (hSlots h * 64 < hPlen h || hPaddr h ≠ 0) then some 3
    else if !hInline h && (hSlots h ≠ 0 || 2 ^ 24 < hPlen h) then some 3
    else if !r.lens.contains (hPlen h) then some 3
    else if hPaddr h % 64 ≠ 0 then some 4
    else none

/-- The native form of a packet header. -/
def nativeHdr (h : Hdr) : Hdr := if hVer h = 3 then v3Native h else h

/-- The opcode a header spells, under its own layout. -/
def pktOpcode (h : Hdr) : Nat := hOpc (nativeHdr h)

/-- Checks 1 to 7 of 02 R589 and the BUSY of R74, on the header as fetched. -/
def parseCheck (s : State) (q : Nat) (x : Queue) (h : Hdr) (pl : List Byte) : Option Res :=
  let n := nativeHdr h
  if q < 64 && !isPF q && (s.casAt (fnNum q - 1)).owner ≠ fnPort q + 1 then some (Res.deny 1)
  else if hVer h ≠ (if x.v3 then 3 else 4) then some (Res.stat stVersionUnsup)
  else match formCheck n (hdrReserved h) (hVer h = 3 && decide (15 < v3Slots h)) with
    | some d => some (Res.skip d)
    | none =>
      match opRow (hOpc n) with
      | none => some (Res.skip 1)
      | some r =>
        if (if q < 64 then !r.admin else !r.ctx) || (x.salvage && !salvageOps.contains (hOpc n)) then some (Res.skip 5)
        else if r.pf && q < 64 && !isPF q then some (Res.deny 2)
        else if !r.low && s.dev.compatLevel < 2 then some (Res.stat stVersionUnsup)
        else if 64 ≤ q && hCtx n ≠ x.ctx then some (Res.deny 5)
        else if r.keeper && hNowait n && procDown s (keeperOf s q n pl) then some (Res.stat stBusy)
        else none

/-- Checks 8 and 9 of 02 R589. -/
def startCheck (s : State) (q : Nat) (e : Entry) : Option Res :=
  let c := e.ctxf
  let latchBad := fun (en : Bool) (l : Nat) => en && !(
    if q < 64 && !onCtxOps.contains e.opc then (match s.getLatch l with | some x => reaches s q x.owner | none => false)
    else ownsLatch s c l)
  if q < 64 && onCtxOps.contains e.opc && (match s.getCtx c with | some x => x.st = .destroying | none => true) then some (Res.skip 6)
  else if q < 64 && onCtxOps.contains e.opc && !reaches s q c then some (Res.deny 1)
  else if latchBad (hWaitEn e.hdr) (hWaitLatch e.hdr) || latchBad (hSigEn e.hdr) (hSigLatch e.hdr) then some (Res.skip 6)
  else none

/-- Completion entries that hold records the host has not released (02 R56). -/
def cplHeld (x : Queue) : Nat := (x.cplTail + 2 ^ x.cplLog2 - x.head) % 2 ^ x.cplLog2

/-- The completion ring is full (02 R56). -/
def cplFull (x : Queue) : Bool := 2 ^ x.cplLog2 ≤ cplHeld x + 1

/-- Slots between the fetch pointer and the tail. -/
def avail (x : Queue) : Nat := (x.tail + 2 ^ x.subLog2 - x.fetch) % 2 ^ x.subLog2

/-- The fetch pointer stands at the slot that a QUEUE_RESUME names (02 R49): the packet there is not discarded. -/
def atResume (x : Queue) : Bool := match x.resume with | some r => x.fetch = r.2.2 | none => false

/-- Whether a queue fetches: it runs, no drain, halt or resume slot holds it, its completion ring is not full (02 Table 2.2, R49, R56; 16 R561). -/
def fetches (x : Queue) : Bool := x.st ≠ .halted && !x.drain && x.destroy.isNone && !cplFull x && !atResume x

/-- How the read of the slots of a ring in device memory ended (09 Table 9.4): header failed, payload failed. -/
def ringRead (s : State) (x : Queue) (ext : Nat) : State × Bool × Bool :=
  if !x.subDev then (s, false, false)
  else
    let slotVa := fun (i : Nat) => x.subBase.toNat + (x.fetch + i) % 2 ^ x.subLog2 * 64
    match vaRead x.ctx 0 (slotVa 0) 64 s with
    | (s, .ecc) => (s, true, false)
    | (s, _) =>
      (List.range (ext - 1)).foldl (fun (r : State × Bool × Bool) i =>
        if r.2.2 then r else match vaRead x.ctx 0 (slotVa (i + 1)) 64 r.1 with
          | (s, .ecc) => (s, false, true)
          | (s, _) => (s, false, false)) (s, false, false)

/-- Appends the entry of a fetched packet. -/
def appendEntry (q : Nat) (e : Entry) (n : Nat) (s : State) : State :=
  s.updQueue q (fun x => { x with es := x.es ++ [e], fetch := (x.fetch + n) % 2 ^ x.subLog2 })

/-- Fetches the packet with header `h` and inline payload `pl` (02 R55-R57): a STOPPED queue, and one that a QUEUE_RESUME steps through,
discards it (R49, R53); a refused packet completes at once (R589); the others wait to start. -/
def fetchPacket (q : Nat) (h : Hdr) (pl : List Byte) (s : State) : State :=
  match s.getQueue q with
  | none => s
  | some x =>
    let ext := pktExtent h
    if !fetches x || avail x < ext then s
    else
      let n := nativeHdr h
      let (uid, s) := s.newUid
      let (s, hbad, pbad) := ringRead s x ext
      let base : Entry :=
        { uid := uid, slot := x.fetch, tag := hTag h, ctxf := recCtx h, opc := hOpc n, hdr := n, pl := pl.take (hPlen n),
          irq := hIrq n, ph := .waiting, sigged := false, posted := false, chk := false, met := false, deps := [] }
      let noSig : Hdr := { n with w3 := 0 }
      if hbad || pbad then
        let e : Entry := { base with tag := if hbad then 0 else hTag h, hdr := noSig, opc := 0, irq := !hbad && base.irq }
        completeEntry q uid (Res.stat stEccUncorr) 0 (appendEntry q e (if hbad then 1 else ext) s)
      else
        let parse := parseCheck s q x h pl
        if x.st = .stopped || x.resume.isSome then
          let e : Entry := if parse.isSome then { base with hdr := noSig, opc := 0 } else base
          completeEntry q uid (Res.stat stDiscarded) 0 (appendEntry q e ext s)
        else
          match parse with
          | some r => appendEntry q { base with hdr := noSig, opc := 0, ph := .done r.st r.det r.res } ext s
          | none => appendEntry q base ext s

/-- The 16 bytes of a completion record (02 Table 2.5, Table 2.12). The posting leaf is the home leaf for a context queue and leaf 0 for an admin
queue; RESULT of a status for which no rule gives a value is 0 (DESIGN CHOICE, log 74). -/
def recordBytes (s : State) (q : Nat) (x : Queue) (e : Entry) (st det res : Nat) : List Byte :=
  if x.v3 then
    toLE (st + b2n x.phase * 2 ^ 8 + e.tag * 2 ^ 16 + res % 2 ^ 32 * 2 ^ 32) 8 ++ toLE e.slot 2 ++ zeros 6
  else
    let leaf := if q < 64 then 0 else homeLeaf s (ctxCas s x.ctx)
    toLE (e.tag + e.slot * 2 ^ 16 + st * 2 ^ 32 + det * 2 ^ 40 + b2n x.admin * 2 ^ 47 + b2n x.phase * 2 ^ 48 + leaf * 2 ^ 49
      + x.qid * 2 ^ 50 + e.ctxf * 2 ^ 52) 8
    ++ toLE (res % 2 ^ 32 + (s.ctr leaf).toNat % 2 ^ 32 * 2 ^ 32) 8

/-- Writes a record at the completion tail (02 R63); a device-memory ring takes it through the context's address space. -/
def writeRecord (x : Queue) (bs : List Byte) (s : State) : State :=
  let a := x.cplBase.toNat + x.cplTail * 16
  if x.cplDev then vaPut x.ctx a bs s else busWrite (fnPort x.fn) a bs s

/-- The oldest entry without a record. -/
def nextToPost (x : Queue) : Option Entry := x.es.find? (fun e => !e.posted)

/-- Posts the record of the oldest command if it has completed (02 R62-R65): the record, the tail and its pass parity, and the vector when
the packet asked for it. -/
def postOldest (q : Nat) (s : State) : State :=
  match s.getQueue q with
  | none => s
  | some x =>
    match nextToPost x with
    | none => s
    | some e =>
      match e.ph with
      | .done st det res =>
        if cplFull x then s
        else
          let s : State := writeRecord x (recordBytes s q x e st det res) s
          let t := (x.cplTail + 1) % 2 ^ x.cplLog2
          let s : State := s.updQueue q (fun y => { y with cplTail := t, phase := if t = 0 then !y.phase else y.phase })
          let s : State := updEntry q e.uid (fun e => { e with posted := true }) s
          let s : State := if e.irq then msix x.fn x.vector s else s
          sweepQ q s
      | _ => s

/-- Every earlier command of the queue has completed. -/
def earlierDone (x : Queue) (uid : Nat) : Bool := (x.es.takeWhile (fun e => e.uid ≠ uid)).all (fun e => e.isDone)

/-- The header latch signal of a command that completed with an outcome (02 R66). -/
def headerSignal (q uid : Nat) (s : State) : State :=
  match s.getQueue q with
  | none => s
  | some x =>
    match x.es.find? (fun e => e.uid = uid) with
    | none => s
    | some e =>
      if hSigEn e.hdr && !e.sigged && e.kind = some .outcome && earlierDone x uid then
        sweepQ q (updEntry q uid (fun e => { e with sigged := true }) (signalLatch (hSigLatch e.hdr) (hSigVal e.hdr) (hSigAdd e.hdr) s))
      else s

end Sys2Proof.Machine
end

