-- ==== Sys2Proof/Machine/Run.lean ====
section
/-! DEFINITION. Runs and the cluster arbiter: starting a run (03 R100), priorities, quanta and preemption (11 R420-R424), shutter save and
restore (11 R425-R430), the dump (03 R142). -/

namespace Sys2Proof.Machine

/-- The physical cluster of a logical number of a context (11 R419). -/
def physOf (s : State) (c n : Nat) : Nat := match s.getCtx c with | some x => tgetD x.cmap n n | none => n

/-- The physical clusters of a run. -/
def runPhys (s : State) (r : Run) : List Nat := r.clusters.map (physOf s r.ctx)

/-- The priority of a run's context. -/
def runPrio (s : State) (r : Run) : Nat := match s.getCtx r.ctx with | some x => x.prio | none => 0

/-- Whether a cluster is held by a run. -/
def held (s : State) (cl : Nat) : Bool := (s.coreAt cl).run.isSome

/-- Whether a context is being moved and has not moved yet: the arbiter starts no run of it (11 R436, R439). -/
def migrating (s : State) (c : Nat) : Bool := match s.getCtx c with | some x => x.mig.isSome | none => false

/-- Waiting and saved runs in the arbiter's order: highest priority first, then longest wait (11 R422). -/
def waitingRuns (s : State) : List (Nat × Run) :=
  let w := sortBy (fun e : Nat × Run => e.2.order) (s.run.filter (fun e => (e.2.st = .waiting || e.2.st = .saved) && e.2.stop.isNone))
  sortBy (fun e : Nat × Run => 7 - runPrio s e.2) w

/-- A run may start or resume: its context is ACTIVE and not being moved, its clusters are free and awake. -/
def startable (s : State) (r : Run) : Bool :=
  (match s.getCtx r.ctx with | some x => x.st = .active | none => false) && !migrating s r.ctx
  && (runPhys s r).all (fun cl => !held s cl && !s.gated.contains (.cluster cl))

/-- The run that starts next (11 R422): the first in order reserves its clusters; a later one may start only where it needs none of them. -/
def nextRun (s : State) : Option (Nat × Run) :=
  match waitingRuns s with
  | [] => none
  | f :: rest =>
    if startable s f.2 then some f
    else rest.find? (fun e => startable s e.2 && (runPhys s e.2).all (fun cl => !(runPhys s f.2).contains cl))

/-- The Sill stores that a context last used become undefined (05 R178). -/
def havocSill (c : Nat) (s : State) : State :=
  forEach (tkeys (tfilter (fun _ k => k = c) s.unitCtx)) (fun u s =>
    let (k, s) := State.fresh s
    let (k', s) := State.fresh s
    (s.modOpStore u (fun _ => { cells := [], free := some k, bad := [] })).modAccStore u (fun _ => { cells := [], free := some k', bad := [] })) s

/-- Zeros a cluster's scratchpads and local memory (11 R417). -/
def zeroCluster (cl : Nat) (s : State) : State :=
  let s : State := s.onLocalMem (fun m => mclear m (cl * 2 ^ 14) (2 ^ 14))
  let s : State := s.onSharedMem (fun m => mclear m (cl * 2 ^ 20) (2 ^ 20))
  let s : State := s.onTileMem (fun m => mclear m (cl * 2 ^ 21) (2 ^ 21))
  s.onBadWords (fun l => l.filter (fun w => w / 2 ^ 18 ≠ cl))

/-- The accumulators of a cluster's tiles become undefined (04 R159); nothing is in flight. -/
def havocTiles (cl : Nat) (s : State) : State :=
  forEach (List.range 4) (fun t s =>
    let (k, s) := State.fresh s
    s.modTile (4 * cl + t) (fun x => { x with acc := [], accFree := some k, fl := [], sinceMma := none, sinceDrain := none })) s

/-- The registers of a core at a run's start (03 R100): arguments in X1-X8, rank, count and logical number in X9-X11. -/
def startRegs (args : List Word) (rank n logical : Nat) : Tbl Word :=
  let put := fun (t : Tbl Word) (k : Nat) (v : Word) => if v = 0 then t else tset t k v
  let t := (List.range 8).foldl (fun t i => put t (i + 1) (nth args i 0)) []
  put (put (put t 9 (BitVec.ofNat 64 rank)) 10 (BitVec.ofNat 64 n)) 11 (BitVec.ofNat 64 logical)

/-- Starts the core of one cluster of a run (03 R100). -/
def startCore (r : Nat) (x : Run) (rank : Nat) (s : State) : State :=
  let lg := nth x.clusters rank 0
  let cl := physOf s x.ctx lg
  let old := s.coreAt cl
  let s : State := if old.lastCtx = some x.ctx then s else zeroCluster cl s
  let s : State := havocTiles cl s
  let tmpl := match s.getProg (x.ctx * 512 + x.prog) with | some p => p.tmpl | none => []
  let s : State := s.onSharedMem (fun m => mwrite m (cl * 2 ^ 20) tmpl)
  s.modCore cl (fun _ =>
    { Core.init with x := startRegs x.args rank x.clusters.length lg, pc := x.entryPc, st := .running, run := some r, logical := lg,
                     lastCtx := some x.ctx, live := some x.ctx })

/-- Starts run r on its clusters. -/
def startRun (r : Nat) (x : Run) (s : State) : State :=
  let s : State := (havocSill x.ctx s).onArmed (fun l => l.map (fun a => if a.ctx = x.ctx then { a with saved := none } else a))
  let s : State := forEach (List.range x.clusters.length) (startCore r x) s
  s.updRun r (fun y => { y with st := .running, heldSince := s.ctr (homeLeaf s (ctxCas s x.ctx)),
                                watch := bitW (tgetD s.dev.hzWatch (x.ctx / 64) 0) (x.ctx % 64) })

/-- A saved run takes its clusters again; RUN_RESTORE reads its records (11 R428). -/
def resumeRun (r : Nat) (x : Run) (s : State) : State :=
  let s : State := forEach (runPhys s x) (fun cl s => s.modCore cl (fun c => { c with run := some r, st := .idle })) s
  s.updRun r (fun y => { y with st := .restoring, heldSince := s.ctr (homeLeaf s (ctxCas s x.ctx)) })

/-- PREEMPTION_REQUEST (11 R424): every core of the run stops at its next resumable hinge point. -/
def requestPreempt (r : Nat) (s : State) : State :=
  match s.getRun r with
  | none => s
  | some x =>
    if x.st ≠ .running then s
    else
      let s : State := forEach (coresOf s r) (fun cl s => s.modCore cl (fun c => if c.st = .running then { c with stopReq := true } else c)) s
      s.updRun r (fun y => { y with st := .preempting })

/-- Runs that hold a cluster which run P waits for. -/
def holdersOf (s : State) (p : Run) : List (Nat × Run) :=
  let need := runPhys s p
  s.run.filter (fun e => (coresOf s e.1).any (fun cl => need.contains cl))

/-- Run P cannot start only because runs of other contexts of its casement hold some of its clusters (11 R421): its context could run, its clusters are
awake, and no run before it has reserved one of them (R422). -/
def onlyHeld (s : State) (r : Nat) (p : Run) : Bool :=
  let need := runPhys s p
  let hs := holdersOf s p
  (match s.getCtx p.ctx with | some x => x.st = .active | none => false) && !migrating s p.ctx
  && need.all (fun cl => !s.gated.contains (.cluster cl))
  && !hs.isEmpty && hs.all (fun e => e.2.ctx ≠ p.ctx && ctxCas s e.2.ctx = ctxCas s p.ctx)
  && (match waitingRuns s with
      | f :: _ => f.1 = r || need.all (fun cl => !(runPhys s f.2).contains cl)
      | [] => false)

/-- Run Q has held its clusters for the quantum of its casement, in µs of the home leaf's counter at 1.05 GHz (11 R421). -/
def pastQuantum (s : State) (q : Run) : Bool :=
  let k := ctxCas s q.ctx
  decide ((s.casAt k).quantum * 1050 ≤ (s.ctr (homeLeaf s k) - q.heldSince).toNat)

/-- The arbiter's work at any moment (11 R421): a run that waits wakes its clusters (01 R36) and asks at once for those of lower-priority runs, and
for those of an equal that has held them a quantum. -/
def arbitrate (s : State) : State :=
  let s : State := forEach (waitingRuns s) (fun p s => forEach (runPhys s p.2) (fun cl s => wakeFor (.cluster cl) s) s) s
  forEach (waitingRuns s) (fun p s =>
    if onlyHeld s p.1 p.2 then
      forEach (holdersOf s p.2) (fun b s =>
        if runPrio s b.2 < runPrio s p.2 || (runPrio s b.2 = runPrio s p.2 && pastQuantum s b.2) then requestPreempt b.1 s else s) s
    else s) s

/-- Run q blocks an equal-priority run (11 R421). -/
def blocksEqual (s : State) (q : Nat) : Bool :=
  (waitingRuns s).any (fun p => onlyHeld s p.1 p.2 && (holdersOf s p.2).any (fun b => b.1 = q && runPrio s b.2 = runPrio s p.2))

/-- A core has reached the run's hinge point: stopped, ended or cut, with nothing of it in its queues (11 R424). -/
def coreAtHinge (c : Core) : Bool := (c.st = .hinge || c.st = .ended || c.st = .stopped) && c.eq.isEmpty && c.sigls.isEmpty

/-- A core of a run has come to its end: ended, stopped or cut, its queues empty (03 R101, R115). -/
def coreFinished (c : Core) : Bool := (c.st = .ended || c.st = .stopped || c.st = .cut) && c.eq.isEmpty && c.sigls.isEmpty

/-- The entries of a memory in a range, moved by an offset. -/
def moved (m : Mem) (a n b : Nat) : Mem := (m.filter (fun e => decide (a ≤ e.1) && decide (e.1 < a + n))).map (fun e => (e.1 - a + b, e.2))

/-- Copies a range of one memory over a range of another; the entries of the source need be in no order. -/
def moveMem (src dst : Mem) (a n b : Nat) : Mem := (moved src a n b).foldl (fun m e => mset m e.1 e.2) (mclear dst b n)

/-- The bytes of a cluster's record after its core state (11 Table 11.5): local data memory, tile scratchpads, shared scratchpad. -/
def recordOf (s : State) (cl : Nat) : Mem :=
  moved s.localMem (cl * 2 ^ 14) (2 ^ 14) (16 * 1024) ++ moved s.tileMem (cl * 2 ^ 21) (2 ^ 21) (32 * 1024)
  ++ moved s.sharedMem (cl * 2 ^ 20) (2 ^ 20) (2080 * 1024)

/-- Writes a record whole at its place: fresh check symbols, and a poisoned code word for each uncorrectable scratchpad word (11 R430). -/
def writeRec (p : ShutPart) (bs : BitVec 64) (base cl : Nat) (s : State) : State :=
  let m := recordOf s cl
  let bad := (s.badWords.filter (fun w => w / 2 ^ 18 = cl)).map (fun w => shutAddr p bs (base + 32 * 1024 + w % 2 ^ 18 * 8) / 64)
  let s : State := forEach (List.range 776) (fun g s =>
    let a := shutAddr p bs (base + g * 4096)
    (s.onStackMem (fun m => mclear m a 4096)).onHealth (fun h => h.filter (fun e => !(decide (a ≤ e.1 * 64) && decide (e.1 * 64 < a + 4096))))) s
  let s : State := s.onStackMem (fun d => m.foldl (fun d e => mset d (shutAddr p bs (base + e.1)) e.2) d)
  forEach bad (fun cw s => s.putHealth cw .poison) s

/-- SHUTTER_SAVE of one cluster (11 R425, Table 11.5): its core, local memory and scratchpads go to its record, and the cluster is
released. -/
def spillCluster (r cl : Nat) (s : State) : State :=
  match s.getRun r with
  | none => s
  | some x =>
    let c := s.coreAt cl
    match shutPlace s x.ctx c.logical with
    | none => s
    | some (p, bs, base) =>
      let s : State := writeRec p bs base cl (reachPart p bs s)
      let s : State := s.putSaved (x.ctx * 128 + c.logical) { run := r, core := { c with stopReq := false, late := false } }
      let s : State := s.modCore cl (fun c => { Core.init with lastCtx := c.lastCtx, live := none })
      if (coresOf s r).isEmpty then
        let (u, s) := State.newUid s
        s.updRun r (fun y => { y with st := .saved, order := u })
      else s

/-- The bytes of a record, from its start. -/
def readRec (s : State) (p : ShutPart) (bs : BitVec 64) (base : Nat) : Mem :=
  s.stackMem.filterMap (fun e => match shutByte p bs e.1 with
    | some j => if decide (base ≤ j) && decide (j < base + shutRec) then some (j - base, e.2) else none
    | none => none)

/-- Reads the code words of a record that do not decode clean (09 R341, R344); whether one is uncorrectable. -/
def checkRec (p : ShutPart) (bs : BitVec 64) (base : Nat) (s : State) : State × Bool :=
  let hit := s.health.filter (fun e => match shutByte p bs (e.1 * 64) with
    | some j => decide (base ≤ j) && decide (j < base + shutRec)
    | none => false)
  hit.foldl (fun (t : State × Bool) e => let z := readWord 0 e.1 t.1; (z.1, t.2 || z.2.isNone)) (s, false)

/-- RUN_RESTORE of one cluster (11 R428): onto the physical cluster that the map names now; whether its record has an uncorrectable word. -/
def restoreCluster (r ctx lg : Nat) (t : State × Bool) : State × Bool :=
  let s := t.1
  match s.getSaved (ctx * 128 + lg), shutPlace s ctx lg with
  | some v, some (p, bs, base) =>
    let cl := physOf s ctx lg
    let (s, bad) := checkRec p bs base (reachPart p bs s)
    let m := readRec s p bs base
    let s : State := s.onLocalMem (fun d => moveMem m d (16 * 1024) (2 ^ 14) (cl * 2 ^ 14))
    let s : State := s.onTileMem (fun d => moveMem m d (32 * 1024) (2 ^ 21) (cl * 2 ^ 21))
    let s : State := s.onSharedMem (fun d => moveMem m d (2080 * 1024) (2 ^ 20) (cl * 2 ^ 20))
    let s : State := s.onBadWords (fun l => l.filter (fun w => w / 2 ^ 18 ≠ cl))
    let s : State := havocTiles cl s
    ((s.modCore cl (fun _ => { v.core with run := some r, st := if v.core.st = .hinge then .running else v.core.st,
                                           lastCtx := some ctx, live := some ctx })).delSaved (ctx * 128 + lg), t.2 || bad)
  | _, _ => t

/-- RUN_RESTORE (11 R428, R430): a record with an uncorrectable word stops the run with ECC_UNCORR. -/
def restoreRun (r : Nat) (s : State) : State :=
  match s.getRun r with
  | none => s
  | some x =>
    if x.st ≠ .restoring then s
    else
      let (s, bad) := x.clusters.foldl (fun t lg => restoreCluster r x.ctx lg t) (havocSill x.ctx s, false)
      let s : State := s.updRun r (fun y => { y with st := .running })
      if bad then cutRun r stEccUncorr s else s

/-! The dump. -/

/-- One generator of a core-state area (03 Table 3.18). -/
def genBytes (g : Gen) : List Byte :=
  toLE g.base.toNat 8 ++ zeros 8
  ++ (List.range 4).flatMap (fun i => toLE (nth g.count i 0).toNat 4 ++ toLE (nth g.index i 0).toNat 4 ++ toLE (nth g.stride i 0).toNat 8)
  ++ zeros 48

/-- One loop level, or 16 zero bytes. -/
def levelBytes (l : Option Level) : List Byte :=
  match l with
  | some v => toLE v.first 4 ++ toLE v.last 4 ++ toLE v.ln 1 ++ [1] ++ zeros 6
  | none => zeros 16

/-- The 64 KiB core-state area (03 Table 3.18). -/
def coreBytes (s : State) (cl : Nat) : List Byte :=
  let c := s.coreAt cl
  let occ := fun (k : Nat) => (c.eq.filter (fun e => e.qk = k)).length
  let a := (List.range 32).flatMap (fun i => toLE (if i = 0 then 0 else (tgetD c.x i 0).toNat) 8)
    ++ (List.range 8).map (fun i => BitVec.ofNat 8 (b2n (i = 0 || c.p.getLsbD i)))
    ++ (List.range 4).flatMap (fun i => toLE (tgetD c.l i 0).toNat 4) ++ toLE c.pc 8 ++ toLE c.pushes.toNat 8
  let b := padTo 0x140 a ++ (List.range 4).flatMap (fun i => levelBytes (c.loops[i]?))
  let d := padTo 0x200 b ++ (List.range 16).flatMap (fun i => genBytes (tgetD c.g i Gen.init))
  let e := padTo 0xA00 d ++ (List.range 5).flatMap (fun k => toLE (occ k) 2)
  padTo 0xC000 e ++ mread s.localMem (cl * 2 ^ 14) (2 ^ 14)

/-- One element of a tile's accumulator: undefined elements are free values (04 R159). -/
def accAt (t : Tile) (i : Nat) : BitVec 32 :=
  match tget t.acc i with
  | some v => v
  | none => match t.accFree with | some k => (Config.freeWord k i).setWidth 32 | none => 0

/-- The record of one cluster (03 Table 3.15). -/
def clusterDump (s : State) (cl : Nat) : List Byte :=
  coreBytes s cl
  ++ (List.range 4).flatMap (fun t => (List.range 4096).flatMap (fun i => toLE (accAt (s.tileAt (4 * cl + t)) i).toNat 4))
  ++ mread s.tileMem (cl * 2 ^ 21) (2 ^ 21) ++ mread s.sharedMem (cl * 2 ^ 20) (2 ^ 20)

/-- The dump's header page (03 Table 3.15). -/
def dumpHeader (s : State) (x : Run) (cls : List Nat) : List Byte :=
  padTo 4096 (toLE x.stopIndex.toNat 8 ++ toLE cls.length 4
    ++ cls.flatMap (fun cl => toLE (s.coreAt cl).logical 1 ++ toLE (b2n ((s.coreAt cl).st = .ended)) 1 ++ toLE (s.coreAt cl).pushes.toNat 8))

/-- Bytes of the dump of k clusters (03 R142). -/
def dumpLen (k : Nat) : Nat := 4096 + k * (3200 * 1024)

/-- Writes the dump of a run (03 R141, R142). -/
def writeDump (x : Run) (s : State) : State × WRes :=
  let cls := runPhys s x
  match vaWrite x.ctx x.uid x.dumpAddr (dumpHeader s x cls) s with
  | (s, .ok) =>
    (List.range cls.length).foldl (fun (a : State × WRes) i =>
      match a.2 with
      | .ok => vaWrite x.ctx x.uid (x.dumpAddr + 4096 + i * (3200 * 1024)) (padTo (3200 * 1024) (clusterDump a.1 (nth cls i 0))) a.1
      | _ => a) (s, WRes.ok)
  | z => z

end Sys2Proof.Machine
end

