-- ==== Sys2Proof/Machine/Pivot.lean ====
section
/-! DEFINITION. Pivot movement (07 R272-R292): scratchpad and memory accesses of an engine command, and what MOVE does. -/

namespace Sys2Proof.Machine

/-- How an engine command ends: a status and, for PAGE_FAULT, the address. -/
structure EOut where
  st   : Nat
  addr : Nat
deriving DecidableEq, Repr

def EOut.ok : EOut := { st := stOK, addr := 0 }
def EOut.stop (st addr : Nat) : EOut := { st := st, addr := addr }

/-- Reads a tile scratchpad; none where a word is uncorrectable (04 R158). -/
def tileRead (s : State) (t a n : Nat) : Option (List Byte) :=
  if s.badWords.any (fun w => decide (t * 2 ^ 16 + a / 8 ≤ w) && decide (w * 8 < t * 2 ^ 19 + a + n)) then none
  else some (mread s.tileMem (t * 2 ^ 19 + a) n)

/-- Writes a tile scratchpad; a word written whole is good again. -/
def tileWrite (t a : Nat) (bs : List Byte) (s : State) : State :=
  (s.onTileMem (fun m => mwrite m (t * 2 ^ 19 + a) bs)).onBadWords (fun l =>
    l.filter (fun w => !(decide (t * 2 ^ 19 + a ≤ w * 8) && decide (w * 8 + 8 ≤ t * 2 ^ 19 + a + bs.length))))

/-- An access comes to a scratchpad: that of a gated cluster keeps it waiting (01 R39). -/
def reachCluster (cl : Nat) (s : State) : State :=
  let g := GUnit.cluster cl
  if s.gated.contains g then
    let s : State := wakeFor g s
    if s.acc.on then s.onAcc (fun r => { r with units := if r.units.contains g then r.units else r.units ++ [g] }) else s
  else s

/-- Reads and writes of one space: 0 virtual addresses, 1 a tile of cluster `cl`, 2 its shared scratchpad (07 R265). -/
def spRead (c space cl tmask a n : Nat) (s : State) : State × MRes :=
  if space = 0 then vaRead c 0 a n s
  else
    let s : State := reachCluster cl s
    if space = 1 then
      match tileRead s (4 * cl + (bitsWhere 4 (fun i => tmask.testBit i)).headD 0) a n with
      | some bs => (s, .ok bs)
      | none => (s, .ecc)
    else (s, .ok (mread s.sharedMem (cl * 2 ^ 20 + a) n))

def spWrite (c owner space cl tmask a : Nat) (bs : List Byte) (s : State) : State × WRes :=
  if space = 0 then vaWrite c owner a bs s
  else if space = 1 then
    (forEach (bitsWhere 4 (fun i => tmask.testBit i)) (fun i s =>
      tileWrite (4 * cl + i) a bs (noteWrite owner 4 ((4 * cl + i) * 2 ^ 19 + a) bs.length s)) (reachCluster cl s), .ok)
  else ((noteWrite owner 3 (cl * 2 ^ 20 + a) bs.length (reachCluster cl s)).onSharedMem (fun m => mwrite m (cl * 2 ^ 20 + a) bs), .ok)

/-- Writes a list of (address, bytes); stops at the first failure. -/
def spWriteAll (c owner space cl tmask : Nat) : List (Nat × List Byte) → State → State × WRes
  | [], s => (s, .ok)
  | (a, bs) :: r, s =>
    match spWrite c owner space cl tmask a bs s with
    | (s, .ok) => spWriteAll c owner space cl tmask r s
    | z => z

/-- Reads rows of n bytes at a list of addresses. -/
def spReadAll (c space cl tmask n : Nat) : List Nat → List (List Byte) → State → State × Except EOut (List (List Byte))
  | [], acc, s => (s, .ok acc)
  | a :: r, acc, s =>
    match spRead c space cl tmask a n s with
    | (s, .ok bs) => spReadAll c space cl tmask n r (acc ++ [bs]) s
    | (s, .fault va) => (s, .error (EOut.stop stPageFault va))
    | (s, .ecc) => (s, .error (EOut.stop stEccUncorr 0))

/-- Ranges that a stop leaves undefined take free bytes (02 R69; log 8). -/
def havocRanges (c owner space cl tmask : Nat) (l : List (Nat × Nat)) (s : State) : State :=
  forEach l (fun p s =>
    let (k, s) := State.fresh s
    (spWrite c owner space cl tmask p.1 (freeBytes k p.2) s).1) s

/-! PQ body (07 Table 7.4). -/

def qSslide (h : Hdr) : Nat := h.w3.toNat
def qDslide (h : Hdr) : Nat := h.w4.toNat
def qDesc (h : Hdr) : Nat := fld h.w5 63 48
def qCluster (h : Hdr) : Nat := fld h.w5 47 41
def qTmask (h : Hdr) : Nat := fld h.w5 40 37
def qTag (h : Hdr) : Nat := fld h.w5 36 33
def qIcount (h : Hdr) : Nat := fld h.w5 31 0
def qIdx (h : Hdr) : Nat := h.w6.toNat

/-- An address: base, slide and signed offsets. -/
def mAddr (base slide : Nat) (off : Int) : Nat := ((base : Int) + slide + off).toNat

/-- Index tuples (i1, i2, i3, i4) below four extents, i1 fastest. -/
def tuples (e1 e2 e3 e4 : Nat) : List (List Nat) :=
  (List.range e4).flatMap (fun i4 => (List.range e3).flatMap (fun i3 => (List.range e2).flatMap (fun i2 => (List.range e1).map (fun i1 => [i1, i2, i3, i4]))))

/-- Σ i_d × stride_d. -/
def dotI (is : List Nat) (ss : List Int) : Int := ((List.range 4).map (fun d => (nth is d 0 : Int) * nth ss d 0)).foldl (· + ·) 0

def MDesc.dstI (m : MDesc) : List Int := m.dst.map (fun x => (x : Int))

/-- Header bytes ahead of each side's rows. -/
def MDesc.srcH (m : MDesc) : Nat := if m.blk then 64 else 0
def MDesc.dstH (m : MDesc) : Nat := if m.hdr || m.blk then 64 else 0

/-- The source element that lands in a destination position: element 0 index and row number; none for a pad (07 R264, R289). -/
def MDesc.srcOf (m : MDesc) (j : List Nat) : Option (List Nat) :=
  let k := (List.range 5).map (fun d => (nth j d 0, m.padLo d, m.sz (m.pi d)))
  if k.all (fun x => decide (x.2.1 ≤ x.1) && decide (x.1 < x.2.1 + x.2.2)) then
    some ((List.range 5).map (fun e => match (List.range 5).find? (fun d => m.pi d = e) with
      | some d => nth j d 0 - m.padLo d
      | none => 0))
  else none

/-- A destination row: elements, none for a pad, with whether a NaN turned to +0. -/
def MDesc.rowOf (m : MDesc) (rows : List (List Byte)) (j : List Nat) : List (Option (Nat × Bool)) :=
  (List.range (m.ext 0)).map (fun j0 => (m.srcOf (j0 :: j)).map (fun i =>
    let r := nth i 1 0 + m.sz 1 * (nth i 2 0 + m.sz 2 * (nth i 3 0 + m.sz 3 * nth i 4 0))
    convElem m.fmt m.fmtD (elemAt m.fmt (nth rows r []) (nth i 0 0))))

/-- What of a row is written, from byte offset: all of it where pads are written, else the data (07 R290, R291). -/
def MDesc.cutRow (m : MDesc) (row : List (Option (Nat × Bool))) : List (Nat × List Byte) :=
  if m.dspace ≠ 0 || m.padw then [(0, packElems m.fmtD (row.map (fun e => match e with | some x => x.1 | none => m.padv)))]
  else
    let d := row.filterMap id
    if d.isEmpty then [] else [(fmtBytes m.fmtD (m.padLo 0), packElems m.fmtD (d.map (·.1)))]

/-- The header a block gets (07 R278, R279). -/
def MDesc.outHdr (m : MDesc) (tag : Nat) (nanz poison : Bool) : List Byte :=
  dhdrBytes { len := fmtBytes m.fmtD (m.ext 0) * m.ext 1, rows := m.ext 1, cols := m.ext 0, fmt := m.fmtD, g := m.g, sfmt := m.sfmt,
              poison := poison, nanz := nanz, tag := tag }

/-- Bytes a block's source header starts with, its Transom block, the metadata: what BLK and SPFMT read besides the rows (07 R277, R279;
the Transom block before the metadata, as R269 counts them, log 21). -/
structure Extras where
  hdr  : List Byte
  tr   : List Byte
  mdat : List Byte
deriving DecidableEq, Repr

/-- End of the payload on each side, and where the Transom block and the metadata stand. -/
def MDesc.srcEnd (m : MDesc) (slide : Nat) : Nat := mAddr m.sbase slide (m.srcH + (m.sz 1 - 1 : Int) * nth m.sst 0 0 + m.srcRow)
def MDesc.dstEnd (m : MDesc) (slide : Nat) : Nat := mAddr m.dbase slide (m.dstH + (m.ext 1 - 1 : Int) * nth m.dstI 0 0 + m.dstRow)

/-- The check of a data block against its Transom block (04 R167, 07 R279). -/
def blkCheck (m : MDesc) (x : Extras) : Bool :=
  let d := dhdrOf x.hdr
  let t := thdrOf x.tr
  d.fmt = m.fmt && !d.poison && d.g = m.g && d.sfmt = m.sfmt
  && (m.g = 0 || (t.tag = d.tag && t.g = d.g && t.sfmt = d.sfmt && t.count = m.sz 0 * m.sz 1 / gSize m.g))

/-- One read where `want` holds, nothing otherwise. -/
def readIf (want : Bool) (c space cl tmask a n : Nat) (s : State) : State × Except EOut (List Byte) :=
  if !want then (s, .ok [])
  else match spRead c space cl tmask a n s with
    | (s, .ok bs) => (s, .ok bs)
    | (s, .fault va) => (s, .error (EOut.stop stPageFault va))
    | (s, .ecc) => (s, .error (EOut.stop stEccUncorr 0))

/-- Reads the extras. -/
def readExtras (c cl tmask slide : Nat) (m : MDesc) (s : State) : State × Except EOut Extras :=
  let te := alignUp (m.srcEnd slide) 64
  thenE (readIf m.blk c m.sspace cl tmask (mAddr m.sbase slide 0) 64 s) (fun h s =>
    thenE (readIf (decide (0 < m.tLen)) c m.sspace cl tmask te m.tLen s) (fun t s =>
      thenE (readIf (decide (0 < m.mLen)) c m.sspace cl tmask (if 0 < m.tLen then te + m.tLen else m.srcEnd slide) m.mLen s) (fun x s => (s, .ok { hdr := h, tr := t, mdat := x }))))

/-- The headers of every destination block: addresses. -/
def MDesc.blockAddrs (m : MDesc) (slide : Nat) : List (List Nat × Nat) :=
  (tuples 1 (m.ext 2) (m.ext 3) (m.ext 4)).map (fun j => (j, mAddr m.dbase slide (dotI j m.dstI)))

/-- The writes of one block: header, rows, Transom block and metadata (07 R264, R278, R279). -/
def MDesc.blockWrites (m : MDesc) (rows : List (List Byte)) (x : Extras) (slide tag : Nat) (b : List Nat × Nat) : List (Nat × List Byte) :=
  let rs := (List.range (m.ext 1)).map (fun j1 => (j1, m.rowOf rows (j1 :: b.1.drop 1)))
  let nanz := rs.any (fun r => r.2.any (fun e => match e with | some v => v.2 | none => false))
  let d := dhdrOf x.hdr
  let h := if m.hdr then [(b.2, m.outHdr tag nanz false)] else if m.blk then [(b.2, m.outHdr d.tag (d.nanz || nanz) false)] else []
  let tEnd := m.dstEnd slide + (alignUp (m.srcEnd slide) 64 - m.srcEnd slide)
  h ++ rs.flatMap (fun r => (m.cutRow r.2).map (fun w => (b.2 + m.dstH + r.1 * nth m.dst 0 0 + w.1, w.2)))
  ++ (if 0 < m.tLen then [(tEnd, x.tr)] else []) ++ (if 0 < m.mLen then [(if 0 < m.tLen then tEnd + m.tLen else m.dstEnd slide, x.mdat)] else [])

/-- Reads the index list one index at a time; what was read before a failure is kept. -/
def readIdx (c : Nat) : Nat → Nat → List Nat → State → State × List Nat × EOut
  | 0, _, acc, s => (s, acc, EOut.ok)
  | n + 1, a, acc, s =>
    match vaRead c 0 a 4 s with
    | (s, .ok bs) => readIdx c n (a + 4) (acc ++ [leNat bs]) s
    | (s, .fault va) => (s, acc, EOut.stop stPageFault va)
    | (s, .ecc) => (s, acc, EOut.stop stEccUncorr 0)

/-- The end of a movement: `w` are its writes in order; where the footprints intersect, or a stop came, every byte of them is undefined
(07 R276, R283). -/
def moveEnd (c owner cl tmask : Nat) (m : MDesc) (w : List (Nat × List Byte)) (s : State) : State × EOut :=
  if m.kind ≠ 2 && m.kind ≠ 3 && m.overlaps m.srcAll m.dstAll then
    (havocRanges c owner m.dspace cl tmask (w.map (fun x => (x.1, x.2.length))) s, EOut.ok)
  else
    match spWriteAll c owner m.dspace cl tmask w s with
    | (s, .ok) => (s, EOut.ok)
    | (s, .fault va) => (havocRanges c owner m.dspace cl tmask (w.map (fun x => (x.1, x.2.length))) s, EOut.stop stPageFault va)
    | (s, .ecc) => (havocRanges c owner m.dspace cl tmask (w.map (fun x => (x.1, x.2.length))) s, EOut.stop stEccUncorr 0)

/-- COPY, TRANSPOSE, PERMUTE (07 R263, R264, R277-R282). The headers that a failed BLK check leaves stay as they are written (R276). -/
def moveShape (c owner cl tmask ss ds tag : Nat) (m : MDesc) (s : State) : State × EOut :=
  let blank := (m.blockAddrs ds).flatMap (m.blockWrites [] { hdr := zeros 64, tr := zeros m.tLen, mdat := zeros m.mLen } ds tag)
  let bad := fun (e : EOut) (s : State) => (havocRanges c owner m.dspace cl tmask (blank.map (fun x => (x.1, x.2.length))) s, e)
  match readExtras c cl tmask ss m s with
  | (s, .error e) => bad e s
  | (s, .ok x) =>
    if m.blk && !blkCheck m x then
      let s : State := havocRanges c owner m.dspace cl tmask (blank.map (fun x => (x.1, x.2.length))) s
      let hs := (m.blockAddrs ds).map (fun b => (b.2, m.outHdr (dhdrOf x.hdr).tag (dhdrOf x.hdr).nanz true))
      ((spWriteAll c owner m.dspace cl tmask hs s).1.delWlog owner, EOut.stop stScaleSkew 0)
    else
      let addrs := (tuples (m.sz 1) (m.sz 2) (m.sz 3) (m.sz 4)).map (fun i => mAddr m.sbase ss (m.srcH + dotI i m.sst))
      match spReadAll c m.sspace cl tmask m.srcRow addrs [] s with
      | (s, .error e) => bad e s
      | (s, .ok rows) =>
        let r := moveEnd c owner cl tmask m ((m.blockAddrs ds).flatMap (m.blockWrites rows x ds tag)) s
        if m.dspace = 0 && (m.hdr || m.blk) then (spoilHdrs c ((m.blockAddrs ds).map (·.2)) r.1, r.2) else r

/-- The bytes a GATHER or SCATTER row writes. -/
def MDesc.flatRow (m : MDesc) (row : Option (List Byte)) : List (Nat × List Byte) :=
  match row with
  | some bs => m.cutRow ((List.range (m.ext 0)).map (fun j0 =>
      if j0 < m.padLo 0 || m.padLo 0 + m.sz 0 ≤ j0 then none else some (convElem m.fmt m.fmtD (elemAt m.fmt bs (j0 - m.padLo 0)))))
  | none => m.cutRow ((List.range (m.ext 0)).map (fun _ => none))

/-- Reads the rows that a list of indices names: none for an index at or beyond TABLE_ROWS. -/
def readRowsAt (c space cl tmask n : Nat) : List (Option Nat) → List (Option (List Byte)) → State → State × Except EOut (List (Option (List Byte)))
  | [], acc, s => (s, .ok acc)
  | none :: r, acc, s => readRowsAt c space cl tmask n r (acc ++ [none]) s
  | some a :: r, acc, s =>
    match spRead c space cl tmask a n s with
    | (s, .ok bs) => readRowsAt c space cl tmask n r (acc ++ [some bs]) s
    | (s, .fault va) => (s, .error (EOut.stop stPageFault va))
    | (s, .ecc) => (s, .error (EOut.stop stEccUncorr 0))

/-- The ranges that row k of a GATHER writes, and a row of a SCATTER. -/
def MDesc.gatherAt (m : MDesc) (ds k : Nat) (row : Option (List Byte)) : List (Nat × List Byte) :=
  (m.flatRow row).map (fun w => (mAddr m.dbase ds (k * nth m.dstI 0 0) + w.1, w.2))

/-- The ranges of the rows whose index a GATHER has read: their pads only where pads are written (07 R286, R291). -/
def MDesc.gatherRanges (m : MDesc) (ds : Nat) (idx : List Nat) : List (Nat × Nat) :=
  ((List.range idx.length).flatMap (fun k => m.gatherAt ds k (if nth idx k 0 < m.rows then some (zeros m.srcRow) else none))).map (fun x => (x.1, x.2.length))

/-- GATHER (07 R284, R286). -/
def moveGather (c owner cl tmask ss ds : Nat) (m : MDesc) (idx : List Nat) (s : State) : State × EOut :=
  let want := idx.map (fun j => if j < m.rows then some (mAddr m.sbase ss (j * nth m.sst 0 0)) else none)
  match readRowsAt c m.sspace cl tmask m.srcRow want [] s with
  | (s, .error e) => (havocRanges c owner m.dspace cl tmask (m.gatherRanges ds idx) s, e)
  | (s, .ok rows) => moveEnd c owner cl tmask m ((List.range rows.length).flatMap (fun k => m.gatherAt ds k (nth rows k none))) s

/-- A row as FP32 values. -/
def rowF32 (fmt n : Nat) (bs : List Byte) : List (BitVec 32) := (elems fmt n bs).map (fun e => r32 (decodeVal fmt e))

/-- The sums of one window: each table row named, in order of first mention, with the FP32 sum of its source rows in list order (07 R287). -/
def windowSums (m : MDesc) (l : List (Nat × List Byte)) : List (Nat × List (BitVec 32)) :=
  l.foldl (fun acc e =>
    let v := rowF32 m.fmt (m.sz 0) e.2
    if acc.any (fun a => a.1 = e.1) then acc.map (fun a => if a.1 = e.1 then (a.1, List.zipWith add32 a.2 v) else a) else acc ++ [(e.1, v)]) []

/-- Adds the sums of one window into the table (07 R287). -/
def accWindow (c owner cl tmask ds : Nat) (m : MDesc) : List (Nat × List (BitVec 32)) → State → State × EOut
  | [], s => (s, EOut.ok)
  | (j, v) :: r, s =>
    let a := mAddr m.dbase ds (j * nth m.dstI 0 0)
    match spRead c m.dspace cl tmask a m.dstRow s with
    | (s, .fault va) => (s, EOut.stop stPageFault va)
    | (s, .ecc) => (s, EOut.stop stEccUncorr 0)
    | (s, .ok bs) =>
      let old := (elems m.fmtD (m.sz 0) bs).map (decodeVal m.fmtD)
      let new := packElems m.fmtD (List.zipWith (fun o x => (encodeVal m.fmtD (o.add (v32 x))).1) old v)
      match spWrite c owner m.dspace cl tmask a new s with
      | (s, .ok) => accWindow c owner cl tmask ds m r s
      | (s, .fault va) => (s, EOut.stop stPageFault va)
      | (s, .ecc) => (s, EOut.stop stEccUncorr 0)

/-- Every window in list order. -/
def accWindows (c owner cl tmask ds : Nat) (m : MDesc) : Nat → List (Nat × List Byte) → State → State × EOut
  | 0, _, s => (s, EOut.ok)
  | _ + 1, [], s => (s, EOut.ok)
  | n + 1, l, s =>
    match accWindow c owner cl tmask ds m (windowSums m ((l.take 4096).filter (fun e => decide (e.1 < m.rows)))) s with
    | (s, o) => if o.st = stOK then accWindows c owner cl tmask ds m n (l.drop 4096) s else (s, o)

/-- What the accumulating SCATTERs in flight, other than one, have written. -/
def accFlying (s : State) (owner : Nat) : List (Nat × Nat × Nat) :=
  (allECmds s).flatMap (fun e =>
    if e.qk = 1 && eEop e.words = 1 && e.st ≠ .queued && e.uid ≠ owner
        && (match s.getDesc (e.ctx * 65536 + qDesc e.words) with | some d => (mdescOf d.bytes).acc | none => false)
    then tgetD s.wlog e.uid [] else [])

/-- The overlap of two ranges of one space. -/
def rangeMeet (a b : Nat × Nat × Nat) : Option (Nat × Nat × Nat) :=
  let lo := Nat.max a.2.1 b.2.1
  let hi := Nat.min (a.2.1 + a.2.2) (b.2.1 + b.2.2)
  if a.1 = b.1 && decide (lo < hi) then some (a.1, lo, hi - lo) else none

/-- Where an accumulating SCATTER has written what another in flight has written too, an update may be lost: free bytes stand there (07 R288; log 8). -/
def loseUpdates (owner : Nat) (s : State) : State :=
  let other := accFlying s owner
  undefWrites ((tgetD s.wlog owner []).flatMap (fun a => other.filterMap (rangeMeet a))) s

/-- SCATTER (07 R285-R288). -/
def moveScatter (c owner cl tmask ss ds : Nat) (m : MDesc) (idx : List Nat) (s : State) : State × EOut :=
  let rowsAt := idx.filterMap (fun j => if j < m.rows then some (mAddr m.dbase ds (j * nth m.dstI 0 0), m.dstRow) else none)
  let bad := fun (e : EOut) (s : State) => (havocRanges c owner m.dspace cl tmask rowsAt s, e)
  match spReadAll c m.sspace cl tmask m.srcRow ((List.range idx.length).map (fun k => mAddr m.sbase ss (k * nth m.sst 0 0))) [] s with
  | (s, .error e) => bad e s
  | (s, .ok rows) =>
    if m.overlaps m.srcAll m.dstAll then (havocRanges c owner m.dspace cl tmask rowsAt s, EOut.ok)
    else if m.acc then
      match accWindows c owner cl tmask ds m (idx.length + 1) (idx.zip rows) s with
      | (s, o) => if o.st = stOK then (loseUpdates owner s, o) else bad o s
    else
      moveEnd c owner cl tmask m ((idx.zip rows).flatMap (fun e =>
        if e.1 < m.rows then (m.flatRow (some e.2)).map (fun w => (mAddr m.dbase ds (e.1 * nth m.dstI 0 0) + w.1, w.2)) else [])) s

/-- MOVE (07 R275-R292): context, uid, the words of the command and its descriptor. -/
def moveRun (c owner : Nat) (h : Hdr) (m : MDesc) (s : State) : State × EOut :=
  let cl := physOf s c (qCluster h)
  if m.kind = 4 || m.kind = 5 then
    match readIdx c (qIcount h) (qIdx h) [] s with
    | (s, idx, e) =>
      if e.st ≠ stOK then
        let rows := if m.kind = 4 then m.gatherRanges (qDslide h) idx
          else idx.filterMap (fun j => if j < m.rows then some (mAddr m.dbase (qDslide h) (j * nth m.dstI 0 0), m.dstRow) else none)
        (havocRanges c owner m.dspace cl (qTmask h) rows s, e)
      else if m.kind = 4 then moveGather c owner cl (qTmask h) (qSslide h) (qDslide h) m idx s
      else moveScatter c owner cl (qTmask h) (qSslide h) (qDslide h) m idx s
  else moveShape c owner cl (qTmask h) (qSslide h) (qDslide h) (qTag h) m s

/-- The push checks of a PQ body (07 R273, R120, R124): reason and INFO. `core` is the pushing core, `shadows` the buffers its image
declares (offset, size). DESIGN CHOICE (log 72): a reserved bit of the body gives BAD_FIELD before the cases of R273. -/
def pqCheck (s : State) (c : Nat) (core : Core) (shadows : List (Nat × Nat)) (h : Hdr) : Option (Nat × Nat) :=
  let ch := eTarget h
  if h.w7 ≠ 0 || bitW h.w5 32 then some (rsBadField, ch)
  else match liveDesc s c (qDesc h) with
  | none => some (rsBadHandle, ch)
  | some d =>
    if le d.bytes 0 1 = 0x20 then some (rsBadHandle, ch)
    else
      let m := mdescOf d.bytes
      let pre := eEop h = 2
      let pad := m.sspace ≠ 0 || m.dspace ≠ 0
      let gs := m.kind = 4 || m.kind = 5
      let cl := physOf s c (qCluster h)
      if (m.kind = 3 && !([14, 15, 30, 31].contains ch)) || (pad && !(s.casAt (ctxCas s c)).clusters.getLsbD cl) then some (rsBadTarget, ch)
      else if m.sslide < qSslide h || qSslide h % 2 ^ m.salign ≠ 0 || m.dslide < qDslide h || qDslide h % 2 ^ m.dalign ≠ 0
          || (if gs then decide (m.sz 1 < qIcount h) || qIdx h % 4 ≠ 0 else qIcount h ≠ 0 || qIdx h ≠ 0)
          || (qTmask h = 0 && (m.sspace = 1 || m.dspace = 1))
          || (m.sspace = 1 && 1 < (bitsWhere 4 (fun i => (qTmask h).testBit i)).length)
          || (m.inpl && qSslide h ≠ qDslide h) || (pre && qDslide h ≠ 0) then some (rsBadField, ch)
      else
        let df := (m.dstFoot.1 + qDslide h, m.dstFoot.2 + qDslide h)
        let sf := (m.srcFoot.1 + qSslide h, m.srcFoot.2 + qSslide h)
        let inside := shadows.any (fun b => decide ((b.1 : Int) ≤ df.1) && decide (df.2 < (b.1 + b.2 : Nat)))
        if eShadow h && !pre && !(m.dspace = 2 && qCluster h = core.logical && inside) then some (rsShadowOut, ch)
        else if m.sspace = 2 && (s.coreAt cl).stale.any (fun i =>
            let b := nth shadows i (0, 0)
            decide ((b.1 : Int) ≤ sf.2) && decide (sf.1 < (b.1 + b.2 : Nat))) then some (rsShadowStale, ch)
        else none

/-- The shadow buffer a shadow load targets. -/
def pqShadow (s : State) (c : Nat) (shadows : List (Nat × Nat)) (h : Hdr) : Option Nat :=
  match liveDesc s c (qDesc h) with
  | none => none
  | some d =>
    let m := mdescOf d.bytes
    if !eShadow h || eEop h = 2 then none
    else (List.range shadows.length).find? (fun i =>
      let b := nth shadows i (0, 0)
      decide ((b.1 : Int) ≤ m.dstFoot.1 + qDslide h) && decide (m.dstFoot.2 + qDslide h < (b.1 + b.2 : Nat)))

end Sys2Proof.Machine
end

