-- ==== Sys2Proof/Machine/Skip.lean ====
section
/-! DEFINITION. The skip log (03 R135-R138) and stops that a run's own commands cause (03 R101, R115; 11 R431). -/

namespace Sys2Proof.Machine

/-- Cores whose run is known: the run's number and the run. -/
def coreRun (s : State) (cl : Nat) : Option (Nat × Run) :=
  match (s.coreAt cl).run with
  | some r => (s.getRun r).map (fun x => (r, x))
  | none => none

/-- Adds one entry to a context's skip log, which keeps the first 256 since the last clear (03 R136, Table 13.13). -/
def addSkip (c : Nat) (k : Skip) (s : State) : State :=
  s.updCtx c (fun x => { x with skips := if x.skips.length < 256 then x.skips ++ [k] else x.skips, skipN := x.skipN + 1 })

/-- What the fault record says of a command of a run (11 Table 11.7). -/
def runFault (s : State) (x : Run) (cause st cluster pc addr : Nat) : FaultInfo :=
  { cause := cause, status := st, qk := (x.q - 64) % 4, slot := match findEntry s x.q x.uid with | some e => e.slot | none => 0, tag := x.tag,
    cluster := cluster, pc := pc, addr := addr }

/-- Logs a skip or a note of the run that core `cl` holds: `time` is its TIME, `idx` its CMDIDX. A skip counts toward SKIP_LIMIT; at the limit
the device logs SKIP_LIMIT and faults the context (03 R137, R138). INFO is free where the table gives none (log 50). -/
def logSkip (cl pc reason info : Nat) (idx : Word) (time : Word) (s : State) : State :=
  match coreRun s cl with
  | none => s
  | some (r, x) =>
    let (f, s) := State.fresh s
    let k : Skip := { time := time.setWidth 32, cmdIdx := idx.setWidth 32, pc := pc, reason := reason, cluster := (s.coreAt cl).logical,
                      leaf := leafOfCluster cl, info := if info = noInfo then (Config.freeByte f 0).toNat else info % 256, tag := x.tag }
    let s : State := addSkip x.ctx k s
    let s : State := s.updRun r (fun y => { y with added := y.added + 1, skips := if reason < 0x20 then y.skips + 1 else y.skips })
    if reason < 0x20 && x.skipLimit ≠ 0 && x.skips + 1 = x.skipLimit then
      let s : State := addSkip x.ctx { k with reason := rsSkipLimit, info := (Config.freeByte f 1).toNat } s
      let s : State := s.updRun r (fun y => { y with added := y.added + 1, stop := some stDiscarded })
      ctxFault x.ctx 0 (runFault s x 3 stDiscarded 0xFFFF 0 0) s
    else s

/-- A stop of a run's own: an engine command that ends with a stop status, or a failed wait of a core (03 R101, R134). The run is cut, and a
status that faults the context faults it now (11 R431), the PROG_RUN completing with its own status. -/
def stopRun (cl st pc addr : Nat) (s : State) : State :=
  match coreRun s cl with
  | none => s
  | some (r, x) =>
    let s : State := cutRun r st s
    if faultsCtx st then
      ctxFault x.ctx x.uid (runFault s x (if st = stScaleSkew then 1 else 2) st (s.coreAt cl).logical pc (if st = stPageFault then addr else 0)) s
    else s

end Sys2Proof.Machine
end

