-- ==== Sys2Proof/Machine/Tile.lean ====
section
/-! DEFINITION. Tensor tiles (04 R144-R172): command bodies, push checks, and the tile advanced cycle by cycle along Table 4.4. -/

namespace Sys2Proof.Machine

/-- Dense K and R of an operand pair (04 Table 4.1). -/
def pairOf (a w : Nat) : Option (Nat × Nat) :=
  let f8 := fun f => f = 0x10 || f = 0x11 || f = 0x12
  if f8 a && (f8 w || w = 0x13) then some (64, 1)
  else if a = 0x13 && f8 w then some (64, 1)
  else if a = 0x13 && w = 0x13 then some (128, 1)
  else if a = 0x20 && (w = 0x20 || w = 0x21) then some (64, 1)
  else if a = 0x21 && w = 0x20 then some (64, 1)
  else if a = 0x21 && w = 0x21 then some (128, 1)
  else if a = 0x02 && (w = 0x02 || w = 0x10 || w = 0x11 || w = 0x13) then some (64, 4)
  else if a = 0x03 && w = 0x03 then some (64, 4)
  else none

/-- Fields of TQ bodies (04 Table 4.2, Table 4.3). DRAIN has FMT_O where MMA has FMT_A, CLEAR where it has ACCUM, OG where it has SPARSE. -/
def tGap (h : Hdr) : Nat := fld h.w3 63 48
def tFmtA (h : Hdr) : Nat := fld h.w3 47 40
def tFmtW (h : Hdr) : Nat := fld h.w3 39 32
def tM (h : Hdr) : Nat := fld h.w3 31 26 + 1
def tAccRow (h : Hdr) : Nat := fld h.w3 25 20
def tAccum (h : Hdr) : Bool := bitW h.w3 19
def tSparse (h : Hdr) : Nat := fld h.w3 18 17
def tAbmp (h : Hdr) : Bool := bitW h.w3 16
def tG (h : Hdr) : Nat := fld h.w3 15 14
def tOBen (h : Hdr) : Bool := bitW h.w3 16
/-- The four 13-bit addresses of word 4 and the two of word 5, in bytes. -/
def tW4 (h : Hdr) (i : Nat) : Nat := fld h.w4 (63 - 13 * i) (51 - 13 * i) * 64
def tW5 (h : Hdr) (i : Nat) : Nat := fld h.w5 (63 - 13 * i) (51 - 13 * i) * 64

/-- Dense K, R and logical K of an MMA (04 Table 4.1, R170). -/
def tK (h : Hdr) : Nat := match pairOf (tFmtA h) (tFmtW h) with | some p => p.1 | none => 64
def tR (h : Hdr) : Nat := match pairOf (tFmtA h) (tFmtW h) with | some p => p.2 | none => 1
def tLK (h : Hdr) : Nat := if tSparse h = 0 then tK h else 2 * tK h

/-- Both operands are 16 bits wide; the A operand carries scales (04 R147, R163). -/
def both16 (h : Hdr) : Bool := (tFmtA h = 0x02 && tFmtW h = 0x02) || (tFmtA h = 0x03 && tFmtW h = 0x03)
def aScaled (h : Hdr) : Bool := tFmtA h ≠ 0x02

/-- Bytes of the panel, the metadata, an A row, and the two Transom blocks (04 R149, Table 4.13). -/
def tPanel (h : Hdr) : Nat := fmtBytes (tFmtW h) (tK h * 64)
def tMeta (h : Hdr) : Nat := if tSparse h = 1 then tK h * 16 else if tSparse h = 2 then tK h * 24 else 0
def tARow (h : Hdr) : Nat := fmtBytes (tFmtA h) (tLK h)
def tWS (h : Hdr) : Nat := if tG h = 0 then 0 else transomLen (64 * (tLK h / gSize (tG h)))
def tAS (h : Hdr) : Nat := if tG h = 0 || !aScaled h then 0 else transomLen (tM h * (tLK h / gSize (tG h)))

/-- WL, E and S (04 R149). -/
def tWL (h : Hdr) : Nat := (tPanel h + tMeta h + 255) / 256
def tE (h : Hdr) : Nat := tWL h + 2
def tS (h : Hdr) : Nat := (128 + tWS h + tAS h + 127) / 128

/-- DRAIN: scales per row, output row bytes, output Transom block (04 R164, R169). -/
def oPer (h : Hdr) : Nat := if tSparse h = 1 then 2 else if tSparse h = 2 then 1 else 0
def oRow (h : Hdr) : Nat := fmtBytes (tFmtA h) 64
def oT (h : Hdr) : Nat := if tSparse h = 0 then 0 else transomLen (tM h * oPer h)

/-- A block lies in one half of the scratchpad (04 R147). -/
def inHalf (a n : Nat) : Bool := decide (a + n ≤ 2 ^ 19) && a / 2 ^ 18 = (a + n - 1) / 2 ^ 18

/-- Cycle offset of the last write of a command (04 Table 4.4). -/
def lastWrite (eop : Nat) (h : Hdr) : Nat :=
  if eop = 1 then tE h + (tM h - 1) * tR h + tR h + 71
  else if eop = 2 then (if tOBen h then tM h + 7 else tM h + 6)
  else 0

/-! Push checks (04 R144, R145, R147, R151). -/

/-- The distances of 04 Table 4.5 that a new command meets on one tile. -/
def distOk (t : Tile) (eop : Nat) (h : Hdr) : Bool :=
  let d := tGap h
  if eop = 1 then
    (match t.sinceMma with | some (g, w, sc, me) => decide (Nat.max (Nat.max w sc) (me - tE h) ≤ g + d) | none => true)
    && (match t.sinceDrain with | some (g, _) => decide (2 ≤ g + d) | none => true)
  else if eop = 2 then
    (match t.sinceMma with | some (g, _, sc, _) => decide (sc ≤ g + d) | none => true)
    && (match t.sinceDrain with | some (g, m) => decide (m + 5 ≤ g + d) | none => true)
  else true

/-- The distances a tile keeps after a command is pushed. -/
def noteDist (eop : Nat) (h : Hdr) (t : Tile) : Tile :=
  let d := tGap h
  { t with
    sinceMma := if eop = 1 then some (0, tWL h + 1, tS h, tM h * tR h + tE h) else t.sinceMma.map (fun x => (x.1 + d, x.2)),
    sinceDrain := if eop = 2 then some (0, tM h) else t.sinceDrain.map (fun x => (x.1 + d, x.2)) }

/-- Body rules of MMA beyond the pair (04 R147). -/
def mmaBad (h : Hdr) : Bool :=
  let g := gSize (tG h)
  fld h.w3 13 0 ≠ 0 || fld h.w4 11 0 ≠ 0 || fld h.w5 37 0 ≠ 0 || h.w6 ≠ 0 || h.w7 ≠ 0 || tGap h = 0 || tSparse h = 3
  || 64 < tAccRow h + tM h || (tG h ≠ 0 && (tLK h % g ≠ 0 || both16 h))
  || !inHalf (tW4 h 0) (64 + tPanel h) || !inHalf (tW4 h 1) (64 + tM h * tARow h)
  || (tG h ≠ 0 && !inHalf (tW4 h 2) (tWS h)) || (tAS h ≠ 0 && !inHalf (tW4 h 3) (tAS h))
  || (tSparse h ≠ 0 && !inHalf (tW5 h 0) (tMeta h)) || (tAbmp h && !inHalf (tW5 h 1) 2)
  || tW4 h 0 / 2 ^ 18 = tW4 h 1 / 2 ^ 18

/-- Body rules of DRAIN (04 R147). -/
def drainBad (h : Hdr) : Bool :=
  fld h.w3 39 32 ≠ 0 || fld h.w3 15 0 ≠ 0 || fld h.w4 11 0 ≠ 0 || h.w5 ≠ 0 || h.w6 ≠ 0 || h.w7 ≠ 0 || tGap h = 0 || tSparse h = 3
  || 64 < tAccRow h + tM h || (tSparse h ≠ 0 && (tFmtA h = 0x02 || tFmtA h = 0x03))
  || !inHalf (tW4 h 0) (64 + tM h * oRow h)
  || (tSparse h ≠ 0 && (!inHalf (tW4 h 1) 128 || !inHalf (tW4 h 2) (oT h))) || (tOBen h && !inHalf (tW4 h 3) 1)

/-- Formats of ajar service (04 R145). -/
def ajarTileFmt (f : Nat) : Bool := f = 0x02 || f = 0x10 || f = 0x11

/-- The push checks of a TQ body for the tiles of cluster `cl`: reason and INFO. -/
def tqCheck (s : State) (cl : Nat) (h : Hdr) : Option (Nat × Nat) :=
  let eop := eEop h
  let info := eTarget h
  let tiles := (bitsWhere 4 (fun i => info.testBit i)).map (fun i => s.tileAt (4 * cl + i))
  let ajar := s.dev.service ≠ .full
  let far := tiles.any (fun t => !distOk t eop h)
  if eop = 1 then
    if (pairOf (tFmtA h) (tFmtW h)).isNone then some (rsBadField, info)
    else if s.dev.compatLevel = 0 && (tSparse h ≠ 0 || tAbmp h) then some (rsLevel, info)
    else if (ajar && !(ajarTileFmt (tFmtA h) && ajarTileFmt (tFmtW h))) || mmaBad h || far then some (rsBadField, info)
    else none
  else if eop = 2 then
    if !isWFmt (tFmtA h) || (ajar && !ajarTileFmt (tFmtA h)) || drainBad h || far then some (rsBadField, info) else none
  else if fld h.w3 47 0 ≠ 0 || h.w4 ≠ 0 || h.w5 ≠ 0 || h.w6 ≠ 0 || h.w7 ≠ 0 || tGap h = 0 then some (rsBadField, info)
  else none

/-! What is still to land, for HZ_WATCH (04 R155). -/

/-- A place a tile command reads or writes: accumulator row, or a range of the scratchpad. -/
inductive Place4
  | acc (row : Nat)
  | pad (a n : Nat)
deriving DecidableEq, Repr

def Place4.meets : Place4 → Place4 → Bool
  | .acc r, .acc q => r = q
  | .pad a n, .pad b m => decide (a < b + m) && decide (b < a + n)
  | _, _ => false

/-- The writes of a command with their cycles: accumulator writes and DRAIN's writes to its scratchpad. -/
def writesOf (x : Issued) : List (Nat × Place4) :=
  let h := x.words
  if x.eop = 1 then (List.range (tM h)).map (fun i => (x.t + tE h + i * tR h + tR h + 71, .acc (tAccRow h + i)))
  else if x.eop = 2 then
    [(x.t + 3, .pad (tW4 h 0) 64)]
    ++ (if tSparse h = 0 then [] else [(x.t + 4, .pad (tW4 h 2) 64), (x.t + 5, .pad (tW4 h 2 + 64) (oT h - 64))])
    ++ (List.range (tM h)).map (fun i => (x.t + 7 + i, .pad (tW4 h 0 + 64 + i * oRow h) (oRow h)))
    ++ (if tAccum h then (List.range (tM h)).map (fun i => (x.t + 4 + i, .acc (tAccRow h + i))) else [])
    ++ (if tOBen h then [(x.t + tM h + 7, .pad (tW4 h 3) 1)] else [])
  else []

/-- The cycle by which the pending writes of earlier commands to a place have landed, where that is not before cycle c; a command that has stopped has
no write pending. -/
def landsAt (earlier : List Issued) (c : Nat) (p : Place4) : Option Nat :=
  ((earlier.filter (fun x => !x.failed && x.ecc.isNone)).flatMap writesOf).foldl (fun m w => if w.2.meets p && decide (c ≤ w.1) then some (Nat.max w.1 (m.getD 0)) else m) none

/-! Reading and computing. -/

/-- Reads a piece of a list of scratchpad ranges laid end to end. -/
def catRange : List (Nat × Nat) → Nat → Nat → List (Nat × Nat)
  | [], _, _ => []
  | (a, n) :: r, lo, k =>
    if n ≤ lo then catRange r (lo - n) k
    else if k ≤ n - lo then [(a + lo, k)]
    else (a + lo, n - lo) :: catRange r 0 (k - (n - lo))

/-- The ranges an in-flight command reads in cycle c, with the kind of place of an HZ_EARLY note, modulo 4: 0 accumulator, 1 data (5: A rows), 2 header,
Transom block or bitmap (04 R155); a block that the bitmap declares zero is not read (R171). -/
def readsAt (x : Issued) (c : Nat) : List (Nat × Place4) :=
  let h := x.words
  let o := c - x.t
  if c ≤ x.t || x.failed || x.ecc.isSome then []
  else if x.eop = 1 then
    (if o ≤ tS h then (catRange [(tW4 h 0, 64), (tW4 h 1, 64), (tW4 h 2, tWS h), (tW4 h 3, tAS h)] (128 * (o - 1)) (Nat.min 128 (128 + tWS h + tAS h - 128 * (o - 1)))).map (fun r => (2, .pad r.1 r.2)) else [])
    ++ (if 2 ≤ o && o ≤ tWL h + 1 then (catRange [(tW4 h 0 + 64, tPanel h), (tW5 h 0, tMeta h)] (256 * (o - 2)) (Nat.min 256 (tPanel h + tMeta h - 256 * (o - 2)))).map (fun r => (1, .pad r.1 r.2)) else [])
    ++ (if o = tS h + 1 && tAbmp h then [(2, .pad (tW5 h 1) 2)] else [])
    ++ (if tE h ≤ o + 1 && (o + 1 - tE h) % tR h = 0 && decide ((o + 1 - tE h) / tR h < tM h) then
          let i := (o + 1 - tE h) / tR h
          let bm := leNat x.bmp
          let kb := tLK h / 32
          (List.range kb).filterMap (fun b =>
            if tAbmp h && !bm.testBit (i / 32 * kb + b) then none
            else some (5, .pad (tW4 h 1 + 64 + i * tARow h + fmtBytes (tFmtA h) (32 * b)) (fmtBytes (tFmtA h) 32)))
        else [])
    ++ (if tAccum h && tE h + tR h + 67 ≤ o && (o - (tE h + tR h + 67)) % tR h = 0 && decide ((o - (tE h + tR h + 67)) / tR h < tM h) then
          [(0, .acc (tAccRow h + (o - (tE h + tR h + 67)) / tR h))] else [])
  else if x.eop = 2 then
    (if tSparse h ≠ 0 && o ≤ 2 then [(2, .pad (tW4 h 1 + 64 * (o - 1)) 64)] else [])
    ++ (if 3 ≤ o && decide (o - 3 < tM h) then [(0, .acc (tAccRow h + (o - 3)))] else [])
  else []

/-- The 64 values of an accumulator row. -/
def accRow (t : Tile) (r : Nat) : List (BitVec 32) := (List.range 64).map (fun n => accAt t (64 * r + n))

/-- Sets an accumulator row. -/
def setAccRow (r : Nat) (v : List (BitVec 32)) (t : Tile) : Tile :=
  { t with acc := (List.range 64).foldl (fun a n => tset a (64 * r + n) (nth v n 0)) t.acc }

/-- One read's outcome put into the command (04 R149, R158): the bytes to its buffer, or the cycle of the uncorrectable word. -/
def takeRead (s : State) (tl : Nat) (c : Nat) (x : Issued) (k : Nat) (p : Place4) : Issued :=
  let h := x.words
  let o := c - x.t
  match p with
  | .acc r => { x with accIn := tset x.accIn (r - tAccRow h) (accRow (s.tileAt tl) r) }
  | .pad a n =>
    match tileRead s tl a n with
    | none => { x with ecc := some c }
    | some bs =>
      if x.eop = 2 then { x with cal := x.cal ++ bs }
      else if k = 2 then (if o ≤ tS h then { x with hdr := x.hdr ++ bs } else { x with bmp := bs })
      else if k = 1 then { x with panel := x.panel ++ bs }
      else
        let i := (a - (tW4 h 1 + 64)) / tARow h
        { x with aRows := tset x.aRows i (overlay (tgetD x.aRows i (zeros (tARow h))) ((a - (tW4 h 1 + 64)) % tARow h) bs) }

/-- The check of R167 on what the scale port has read. -/
def mmaCheck (x : Issued) : Bool :=
  let h := x.words
  let w := dhdrOf (x.hdr.take 64)
  let a := dhdrOf ((x.hdr.drop 64).take 64)
  let wt := thdrOf (x.hdr.drop 128)
  let at_ := thdrOf (x.hdr.drop (128 + tWS h))
  let n := tLK h / gSize (tG h)
  w.fmt = tFmtW h && a.fmt = tFmtA h && !w.poison && !a.poison
  && (tG h = 0 || (w.g = tG h && wt.g = tG h && w.tag = wt.tag && w.sfmt = wt.sfmt && wt.count = 64 * n
      && (if aScaled h then a.g = tG h && at_.g = tG h && a.tag = at_.tag && a.sfmt = at_.sfmt && at_.count = tM h * n else a.g = 0)))

/-- The logical position of kept weight j of a column (04 R170, Table 4.13). -/
def keptAt (x : Issued) (n j : Nat) : Nat :=
  let h := x.words
  if tSparse h = 0 then j
  else
    let bits := if tSparse h = 1 then 2 else 3
    let col := (x.panel.drop (tPanel h + n * (tMeta h / 64))).take (tMeta h / 64)
    let idx := fldN (leNat col) (j * bits + bits - 1) (j * bits)
    if tSparse h = 1 then j / 2 * 4 + idx else j / 4 * 8 + idx

/-- The scale of group g: of W column n, of A row i (04 R163, R166). -/
def wScale (x : Issued) (n g : Nat) : Val :=
  let h := x.words
  if tG h = 0 then vOne
  else scaleVal (thdrOf (x.hdr.drop 128)).sfmt (x.hdr.getD (128 + 64 + n * (tLK h / gSize (tG h)) + g) 0)

def aScale (x : Issued) (i g : Nat) : Val :=
  let h := x.words
  if tG h = 0 || !aScaled h then vOne
  else scaleVal (thdrOf (x.hdr.drop (128 + tWS h))).sfmt (x.hdr.getD (128 + tWS h + 64 + i * (tLK h / gSize (tG h)) + g) 0)

/-- The exact product of activation k of row i and kept weight j of column n; a block declared zero contributes +0 (04 R171). -/
def mmaTerm (x : Issued) (i n j : Nat) : Val :=
  let h := x.words
  let k := keptAt x n j
  let kb := tLK h / 32
  if tAbmp h && !(leNat x.bmp).testBit (i / 32 * kb + k / 32) then vZero false
  else (decodeVal (tFmtA h) (elemAt (tFmtA h) (tgetD x.aRows i []) k)).mul (decodeVal (tFmtW h) (elemAt (tFmtW h) x.panel (64 * j + n)))

/-- One element of a row of results (04 R162). -/
def mmaElem (x : Issued) (i n : Nat) : BitVec 32 :=
  let h := x.words
  let groups := if tG h = 0 then 1 else tLK h / gSize (tG h)
  let per := tK h / groups
  (List.range groups).foldl (fun acc g =>
    let terms := (List.range per).map (fun j => mmaTerm x i n (g * per + j))
    let sum := if fmtBits (tFmtA h) ≤ 8 && fmtBits (tFmtW h) ≤ 8 then exactSum terms else treeSum 0 terms.length terms
    let v := r32 ((sum.mul (aScale x i g)).mul (wScale x n g))
    if !tAccum h && g = 0 then v else add32 acc v) (if tAccum h then nth (tgetD x.accIn i []) n 0 else 0)

/-- The calibrated scale of column n of a DRAIN, its block's header. -/
def calHdr (x : Issued) : THdr := thdrOf x.cal
def calScale (x : Issued) (n : Nat) : Val := scaleVal (calHdr x).sfmt (x.cal.getD (64 + n / (64 / oPer x.words)) 0)

/-- The converted elements of row i of a DRAIN, each with whether a NaN became +0 (04 R164). -/
def drainRow (x : Issued) (i : Nat) : List (Nat × Bool) :=
  (List.range 64).map (fun n =>
    let v := v32 (nth (tgetD x.accIn i []) n 0)
    encodeVal (tFmtA x.words) (if tSparse x.words = 0 then v else v.div (calScale x n)))

/-- The output header of a DRAIN (04 R169). -/
def drainHdr (x : Issued) (nanz : Bool) : List Byte :=
  let h := x.words
  let sc := tSparse h ≠ 0
  dhdrBytes { len := tM h * oRow h, rows := tM h, cols := 64, fmt := tFmtA h, g := if sc then tSparse h else 0,
              sfmt := if sc then (calHdr x).sfmt else 0, poison := false, nanz := nanz, tag := if sc then (calHdr x).tag else 0 }

/-- A row of an output bitmap: whether each K block of 32 columns holds a value other than ±0. -/
def rowBits (fmt : Nat) (l : List (Nat × Bool)) : List Bool :=
  [0, 1].map (fun b => ((l.drop (32 * b)).take 32).any (fun e => !(decodeVal fmt e.1).isZero))

/-! One cycle. -/

/-- Puts an in-flight command back. -/
def putIssued (tl : Nat) (x : Issued) (s : State) : State :=
  s.modTile tl (fun t => { t with fl := t.fl.map (fun y => if y.uid = x.uid then x else y) })

/-- The accumulator rows that a command stopped in cycle c had written are undefined (02 R69, 04 R158): free values. -/
def havocAcc (tl c : Nat) (x : Issued) (s : State) : State :=
  let (k, s) := s.fresh
  (writesOf x).foldl (fun s w => match w.2 with
    | .acc r => if w.1 < c then s.modTile tl (setAccRow r ((List.range 64).map (fun n => (Config.freeWord k (64 * r + n)).setWidth 32))) else s
    | .pad _ _ => s) s

/-- Notes an early read once for a command (04 R155): TIME is its issue cycle, on the counter of its leaf (03 Table 3.13). -/
def noteEarly (tl : Nat) (x : Issued) (early kind : Nat) (s : State) : State :=
  let cl := tl / 4
  match (s.coreAt cl).eq.find? (fun e => e.uid = x.uid) with
  | none => s
  | some e => logSkip cl e.pc rsHzEarly (Nat.min early 15 * 16 + kind * 4 + tl % 4) e.cmdIdx x.time s

/-- Writes of a tile command to its scratchpad; they are remembered under it (02 R69). -/
def tilePut (tl uid a : Nat) (bs : List Byte) (s : State) : State :=
  noteWrite uid 4 (tl * 2 ^ 19 + a) bs.length (tileWrite tl a bs s)

/-- The reads of one command in cycle c: all of them return what the location holds, and an uncorrectable word stops the command. -/
def doReads (tl c : Nat) (x : Issued) (s : State) : State :=
  (readsAt x c).foldl (fun s r =>
    match (s.tileAt tl).fl.find? (fun y => y.uid = x.uid) with
    | none => s
    | some y =>
      let earlier := (s.tileAt tl).fl.takeWhile (fun z => z.uid ≠ x.uid)
      let hit := if y.watch && y.early.isNone then landsAt earlier c r.2 else none
      let y' := match hit with | some l => { y with early := some (l - c + 1, r.1 % 4) } | none => y
      let z := takeRead s tl c y' r.1 r.2
      let s : State := putIssued tl z s
      let s : State := match hit with | some l => noteEarly tl y (l - c + 1) (r.1 % 4) s | none => s
      if z.ecc.isSome && y.ecc.isNone then havocAcc tl c z s else s) s

/-- Poisons the rows of a command whose check failed (04 R168). -/
def poisonRows (tl : Nat) (x : Issued) (s : State) : State :=
  (putIssued tl { x with failed := true } s).modTile tl (fun t =>
    (List.range (tM x.words)).foldl (fun t i => setAccRow (tAccRow x.words + i) (List.replicate 64 nan32) t) t)

/-- The cycle of a command's check (04 Table 4.4, R167). -/
def checkAt (x : Issued) : Nat := x.t + (if x.eop = 1 then tS x.words + 1 else 2)

/-- The check of a command fails in its cycle (04 R167): an MMA's headers, a DRAIN's calibrated block. -/
def checkFails (x : Issued) : Bool :=
  if x.eop = 1 then !mmaCheck x else if x.eop = 2 then tSparse x.words ≠ 0 && (calHdr x).g ≠ tSparse x.words else false

/-- The writes of one command in cycle c (04 Table 4.4). The check stands before an uncorrectable word read in the same cycle (15 R528). -/
def doWrites (tl c : Nat) (x : Issued) (s : State) : State :=
  let h := x.words
  let o := c - x.t
  if c ≤ x.t || x.failed || (match x.ecc with | some e => decide (e < c) | none => false) then s
  else if c = checkAt x && checkFails x then poisonRows tl x s
  else if x.ecc.isSome then s
  else if x.eop = 1 then
    let b := tE h + tR h + 71
    if b ≤ o && (o - b) % tR h = 0 && decide ((o - b) / tR h < tM h) then
      let i := (o - b) / tR h
      s.modTile tl (setAccRow (tAccRow h + i) ((List.range 64).map (mmaElem x i)))
    else s
  else if x.eop = 2 then
    let s : State := if o = 3 then tilePut tl x.uid (tW4 h 0) (drainHdr x false) s else s
    let th := thdrBytes { count := tM h * oPer h, g := tSparse h, sfmt := (calHdr x).sfmt, tag := (calHdr x).tag }
    let s : State := if o = 4 && tSparse h ≠ 0 then tilePut tl x.uid (tW4 h 2) th s else s
    let s : State := if o = 5 && tSparse h ≠ 0 then
        tilePut tl x.uid (tW4 h 2 + 64) (padTo (oT h - 64) ((List.range (tM h)).flatMap (fun _ => (x.cal.drop 64).take (oPer h)))) s else s
    let s : State := if 4 ≤ o && decide (o - 4 < tM h) && tAccum h then s.modTile tl (setAccRow (tAccRow h + (o - 4)) (List.replicate 64 0)) else s
    let s : State := if 7 ≤ o && decide (o - 7 < tM h) then
        let i := o - 7
        let row := drainRow x i
        let nz := x.nanz || row.any (·.2)
        let bits := rowBits (tFmtA h) row
        let at_ := fun (j : Nat) => x.bits.getD j false || (if j / 2 = i / 32 then bits.getD (j % 2) false else false)
        let s : State := putIssued tl { x with nanz := nz, bits := (List.range 4).map at_ } s
        let s : State := tilePut tl x.uid (tW4 h 0 + 64 + i * oRow h) (packElems (tFmtA h) (row.map (·.1))) s
        if nz && !x.nanz then tilePut tl x.uid (tW4 h 0) (drainHdr x true) s else s
      else s
    if o = tM h + 7 && tOBen h then
      tilePut tl x.uid (tW4 h 3) [BitVec.ofNat 8 (((List.range 4).map (fun j => b2n (x.bits.getD j false) * 2 ^ j)).foldl (· + ·) 0)] s
    else s
  else s

/-- One cycle c of a tile: every read returns what the location holds, then the writes land (04 R149). -/
def tileTick (c tl : Nat) (s : State) : State :=
  let s : State := forEach (s.tileAt tl).fl (doReads tl c) s
  forEach (s.tileAt tl).fl (fun x s =>
    match (s.tileAt tl).fl.find? (fun y => y.uid = x.uid) with | some y => doWrites tl c y s | none => s) s

/-- One compute-clock cycle of every tile that has a command in flight. -/
def tilesTick (s : State) : State :=
  let c := s.dev.cycle + 1
  (forEach (tkeys (tfilter (fun _ t => !t.fl.isEmpty) s.tile)) (tileTick c) s).onDev (fun d => { d with cycle := c })

/-- One cycle of the leaf counters (01 R34). -/
def ctrTick (s : State) : State := s.onDev (fun d => { d with ctr := tset (tset d.ctr 0 (tgetD d.ctr 0 0 + 1)) 1 (tgetD d.ctr 1 0 + 1) })

/-- A compute-clock cycle passes with this count of the leaf counters: with each, but with every second in ajar service, whose compute clock runs at
525 MHz (01 R33; log 2), and with none while the compute clocks are stopped. -/
def computes (s : State) : Bool := !s.dev.clockStop && (s.dev.service ≠ .ajar || (s.ctr 0).getLsbD 0)

/-- The next compute cycle in which a command can issue on a tile (04 R148). -/
def issueAt (s : State) (tl : Nat) (h : Hdr) : Nat := Nat.max ((s.tileAt tl).lastIssue + tGap h) (s.dev.cycle + 1)

/-- Issues a TQ command on one tile in the cycle of `issueAt` (04 R148). -/
def tileIssue (tl uid eop ctx : Nat) (h : Hdr) (watch : Bool) (s : State) : State :=
  let c := issueAt s tl h
  let time := s.ctr (leafOfCluster (tl / 4)) + BitVec.ofNat 64 (c - s.dev.cycle)
  s.modTile tl (fun t => { t with lastIssue := c, fl := t.fl ++ [
    { uid := uid, eop := eop, words := h, t := c, time := time, ctx := ctx, watch := watch, hdr := [], panel := [], bmp := [], aRows := [],
      accIn := [], cal := [], failed := false, ecc := none, nanz := false, early := none, bits := [] }] })

/-- A command has completed on one tile, or has stopped there (04 R150). -/
def tileDone (s : State) (uid tl : Nat) : Bool :=
  match (s.tileAt tl).fl.find? (fun y => y.uid = uid) with
  | none => true
  | some x => x.failed || x.ecc.isSome || decide (x.t + lastWrite x.eop x.words + 1 ≤ s.dev.cycle)

/-- The compute cycle in which a command will have completed on one tile. -/
def tileEnd (s : State) (uid tl : Nat) : Nat :=
  match (s.tileAt tl).fl.find? (fun y => y.uid = uid) with
  | none => 0
  | some x => x.t + lastWrite x.eop x.words + 1

/-- The worse of two statuses of one command on several tiles (15 R528). -/
def worse (a b : Nat) : Nat := if a = stOK then b else if b = stOK then a else if stopRank a ≤ stopRank b then a else b

/-- How a command stopped on one tile: the cycle and the status. -/
def tileStop (s : State) (uid tl : Nat) : Option (Nat × Nat) :=
  match (s.tileAt tl).fl.find? (fun y => y.uid = uid) with
  | none => none
  | some x => if x.failed then some (checkAt x, stScaleSkew) else x.ecc.map (fun c => (c, stEccUncorr))

/-- The first stop of a command over its tiles; in one cycle the order of 15 R528 decides. -/
def firstStop (l : List (Nat × Nat)) : Nat :=
  let c := l.foldl (fun m x => Nat.min m x.1) (l.headD (0, 0)).1
  (l.filter (fun x => x.1 = c)).foldl (fun st x => worse st x.2) stOK

/-- A command leaves its tiles. -/
def tileTake (uid : Nat) (tiles : List Nat) (s : State) : State :=
  forEach tiles (fun tl s => s.modTile tl (fun t => { t with fl := t.fl.filter (fun y => y.uid ≠ uid) })) s

end Sys2Proof.Machine
end

