-- ==== Sys2Proof/Machine/Sill.lean ====
section
/-! DEFINITION. Sill operations (05 R177-R208): the SQ body, its push checks, what EOP 0x01 to 0x09 do beneath their bank sets, and how a command's
writes land row step by row step. -/

namespace Sys2Proof.Machine

/-- Fields of the SQ body (05 Table 5.3); offsets and lengths in bytes. -/
def sBs (h : Hdr) : BitVec 64 := h.w3
def sStripe (h : Hdr) : Nat := fld h.w4 63 48
def sFmtA (h : Hdr) : Nat := fld h.w4 47 40
def sFmtW (h : Hdr) : Nat := fld h.w4 39 32
def sFmtO (h : Hdr) : Nat := fld h.w4 31 24
def sG (h : Hdr) : Nat := fld h.w4 23 22
def sB (h : Hdr) : Nat := fld h.w4 21 16 + 1
def sFn (h : Hdr) : Nat := fld h.w4 15 8
def sParam (h : Hdr) : Nat := fld h.w4 7 0
def sSrc (h : Hdr) : Nat := fld h.w5 63 40 * 64
def sDst (h : Hdr) : Nat := fld h.w5 39 16 * 64
def sAccum (h : Hdr) : Bool := bitW h.w5 15
def sKeep (h : Hdr) : Bool := bitW h.w5 14
def sAcc (h : Hdr) : Nat := fld h.w5 13 4 * 64
def sAux (h : Hdr) : Nat := fld h.w6 63 40 * 64
def sScl (h : Hdr) : Nat := fld h.w6 39 16 * 64
def sOps (h : Hdr) : Nat := fld h.w6 15 4 * 64
def sN (h : Hdr) : Nat := fld h.w7 63 32
def sK (h : Hdr) : Nat := fld h.w7 31 12

/-- The fields in order, as numbers: FMT_A, FMT_W, FMT_O, G, BM1, FN, PARAM, SRC, DST, ACCUM, KEEP, ACC, AUX, SCL, OPS, N, K. -/
def sFields (h : Hdr) : List Nat :=
  [sFmtA h, sFmtW h, sFmtO h, sG h, sB h - 1, sFn h, sParam h, sSrc h, sDst h, b2n (sAccum h), b2n (sKeep h), sAcc h, sAux h, sScl h, sOps h, sN h, sK h]

/-- The fields each operation uses, by their places (05 R185, Table 5.4, Table 6.11); LOADOP and GATHER name their format in FMT_A (log 73). -/
def sUsed (eop fn : Nat) : List Nat :=
  if eop = 1 then [0, 6, 7, 14, 15]
  else if eop = 2 then [0, 1, 2, 3, 4, 7, 8, 9, 10, 11, 13, 14, 15, 16]
  else if eop = 3 || eop = 4 then [0, 2, 5, 7, 8, 12, 14, 15, 16]
  else if eop = 5 then [1, 2, 3, 7, 8, 13, 15]
  else if eop = 6 then [0, 6, 7, 8, 15, 16]
  else if eop = 7 then [0, 7, 8, 12, 13, 15, 16]
  else if eop = 8 then [0, 8, 11, 12, 15, 16]
  else if eop = 9 then [0, 8, 15, 16]
  else if fn = 0 then [0, 1, 2, 3, 4, 5, 6, 8, 12, 14, 15, 16]
  else if fn = 1 then [0, 1, 2, 3, 4, 5, 6, 7, 8, 12, 15, 16]
  else if fn = 2 then [0, 1, 2, 5, 6, 7, 8, 12, 13, 15, 16]
  else List.range 17

/-- A reserved bit or a field the operation does not use is not 0. -/
def sResv (h : Hdr) : Bool :=
  fld h.w5 3 0 ≠ 0 || fld h.w6 3 0 ≠ 0 || fld h.w7 11 0 ≠ 0
  || (List.range 17).any (fun i => !(sUsed (eEop h) (sFn h)).contains i && nth (sFields h) i 0 ≠ 0)

/-- The GEMV pairs with their output formats (05 Table 5.5). -/
def gemvOk (a w o : Nat) : Bool :=
  let f8 := fun f => f = 0x10 || f = 0x11
  if (a = 0x02 || a = 0x03) && (f8 w || w = 0x13) then o = 0x01 || o = 0x02 || o = 0x03
  else if a = w && (a = 0x02 || a = 0x03) then o = 0x01 || o = a
  else if f8 a && (f8 w || w = 0x13) then o = 0x01 || o = 0x02
  else if a = 0x20 && (w = 0x20 || w = 0x21) then o = 0x01
  else false

/-- EWISE functions (05 Table 5.6). -/
def ewFn (fn : Nat) : Bool := fn ≤ 7 || (0x10 ≤ fn && fn ≤ 0x17)
def ewBin (fn : Nat) : Bool := fn ≤ 6
def ewFmt (f : Nat) : Bool := [0x01, 0x02, 0x03, 0x10, 0x11].contains f
def f16or32 (f : Nat) : Bool := f = 0x01 || f = 0x02 || f = 0x03

/-- Bytes of a data block of n elements, its last code word whole (05 R189). -/
def blockLen (fmt n : Nat) : Nat := 64 + alignUp (fmtBytes fmt n) 64

/-- Groups of a source of n elements. -/
def groupsOf (g n : Nat) : Nat := if gSize g = 0 then 0 else (n + gSize g - 1) / gSize g

/-- Ranges an operation names in the stripe: offset and length (05 R186). -/
def sRanges (h : Hdr) : List (Nat × Nat) :=
  let n := sN h
  let k := sK h
  let e := eEop h
  if e = 1 then [(sSrc h, n)]
  else if e = 2 then
    [(sSrc h, 64 + fmtBytes (sFmtW h) (n * k))] ++ (if sG h = 0 then [] else [(sScl h, transomLen (n * k / gSize (sG h)))])
    ++ (if sKeep h then [] else [(sDst h, blockLen (sFmtO h) (sB h * n))])
  else if e = 3 then
    [(sSrc h, 64 + fmtBytes (sFmtA h) n), (sDst h, blockLen (sFmtO h) n)]
    ++ (if ewBin (sFn h) && sAux h ≠ 0 then [(sAux h, 64 + fmtBytes (sFmtA h) n)] else [])
  else if e = 4 then [(sSrc h, 64 + fmtBytes (sFmtA h) (n * k)), (sDst h, blockLen (sFmtO h) (n * k)), (sAux h, 64)]
  else if e = 5 then
    [(sSrc h, 64 + fmtBytes (sFmtW h) n), (sDst h, blockLen (sFmtO h) n)]
    ++ (if sG h = 0 then [] else [(sScl h, transomLen (groupsOf (sG h) n))])
  else if e = 6 then [(sSrc h, 64 + fmtBytes (sFmtA h) (n * k)), (sDst h, 64 + alignUp (n * (sParam h + 1) * 8) 64)]
  else if e = 7 then [(sAux h, n * 4), (sDst h, 64 + n * k), (sScl h, 64)]
  else if e = 8 then [(sDst h, n * k * 2), (sAux h, n * 8)]
  else if e = 9 then [(sDst h, n * k * 2)]
  else []

/-- A format of 04 Table 4.10 that a data block can have. -/
def dataFmt (f : Nat) : Bool := [0x01, 0x02, 0x03, 0x10, 0x11, 0x12, 0x13, 0x20, 0x21].contains f

/-- Formats and limits of an operation (05 R186, R193-R199). -/
def sOpBad (h : Hdr) (a : Alloc) : Bool :=
  let e := eEop h
  let n := sN h
  let k := sK h
  if e = 1 then (sFmtA h ≠ 0 && !dataFmt (sFmtA h)) || !a.bsmask.getLsbD (sParam h) || 64 ≤ sParam h || 2 ^ 18 < sOps h + n
  else if e = 2 then
    !gemvOk (sFmtA h) (sFmtW h) (sFmtO h) || k = 0 || 2 ^ 18 < sOps h + fmtBytes (sFmtA h) (sB h * k) || 16384 < sB h * n
    || 2 ^ 16 < sAcc h + 4 * (sB h * n)
  else if e = 3 then
    !ewFmt (sFmtA h) || !ewFmt (sFmtO h) || !ewFn (sFn h)
    || (ewBin (sFn h) && sAux h = 0 && (k = 0 || 2 ^ 18 < sOps h + fmtBytes (sFmtA h) k))
  else if e = 4 then
    !f16or32 (sFmtA h) || sFmtO h ≠ sFmtA h || 1 < sFn h || k = 0 || 8192 < fmtBytes (sFmtA h) k
    || 2 ^ 18 < sOps h + fmtBytes (sFmtA h) k * (sFn h + 1)
  else if e = 5 then !([0x10, 0x11, 0x13, 0x20, 0x21].contains (sFmtW h)) || !f16or32 (sFmtO h)
  else if e = 6 then !f16or32 (sFmtA h) || k < sParam h + 1
  else if e = 7 then !dataFmt (sFmtA h) || k = 0 || k % 64 ≠ 0
  else if e = 8 then sFmtA h ≠ 0x02 || k = 0 || k % 32 ≠ 0 || 4096 < n || 2 ^ 16 < sAcc h + 8 * n
  else if e = 9 then sFmtA h ≠ 0x02 || k = 0 || k % 32 ≠ 0 || 4096 < n
  else false

/-- Formats of ajar service (05 R187); `f32in` admits FP32 operands, the accumulation format of SMX_MERGE. -/
def sAjarBad (h : Hdr) (f32in : Bool) : Bool :=
  let ok := fun f => f = 0 || f = 0x02 || f = 0x10 || f = 0x11
  !(ok (sFmtA h) || (f32in && sFmtA h = 0x01)) || !(ok (sFmtW h) || (f32in && sFmtW h = 0x01)) || !(ok (sFmtO h) || sFmtO h = 0x01)

/-- Rows armed on a unit, the area at `base` of context c apart, which an SMX_ARM there arms anew (05 R199, 06 R245). -/
def armedRows (s : State) (c u base : Nat) : Nat :=
  ((s.armed.filter (fun a => a.unit = u && !(a.ctx = c && a.base = base))).map (·.n)).foldl (· + ·) 0

/-- An SMX_ARM that would arm more than 4,096 rows on a selected unit (05 R199). -/
def armFull (s : State) (c : Nat) (h : Hdr) (a : Alloc) : Bool :=
  eEop h = 8 && (ones (sBs h)).any (fun b => decide (4096 < armedRows s c (eTarget h * 64 + b) (a.off + sDst h) + sN h))

/-- The push checks of an SQ body that every operation shares (05 R186, R187), for the stack it targets. -/
def sqCheck (s : State) (c : Nat) (h : Hdr) : Option (Nat × Nat) :=
  let t := eTarget h
  match stripeOf s c (sStripe h) with
  | none => some (rsBadHandle, t)
  | some a =>
    if sBs h = 0 || a.smask ≠ BitVec.twoPow 12 t || (sBs h &&& ~~~ a.bsmask) ≠ 0 then some (rsBadTarget, t)
    else if sResv h || (s.dev.service ≠ .full && sAjarBad h (eEop h = 10 && sFn h = 2)) || sOpBad h a || armFull s c h a
        || (gSize (sG h) ≠ 0 && sK h % gSize (sG h) ≠ 0)
        || (sRanges h).any (fun r => decide (a.unit < r.1 + alignUp r.2 64)) then some (rsBadField, t)
    else none

/-! The stores. -/

/-- Bytes of a store; one outside what was written is free, or 0 (05 R178). -/
def Store.read (x : Store) (a n : Nat) : List Byte :=
  (List.range n).map (fun i => match tget x.cells (a + i) with
    | some b => b
    | none => match x.free with | some k => Config.freeByte k (a + i) | none => 0)

/-- A write of a store: a word written whole is good again (05 R177). -/
def Store.write (x : Store) (a : Nat) (bs : List Byte) : Store :=
  { x with cells := putCells x.cells a bs, bad := x.bad.filter (fun w => !(decide (a ≤ 8 * w) && decide (8 * w + 8 ≤ a + bs.length))) }

/-- A range of a store holds an uncorrectable word (05 R177). -/
def Store.ue (x : Store) (a n : Nat) : Bool := x.bad.any (fun w => decide (8 * w < a + n) && decide (a < 8 * w + 8))

/-- A read by a command, which stops at an uncorrectable word (05 R177). -/
def storeRead (x : Store) (a n : Nat) (s : State) : State × Except Nat (List Byte) :=
  (s, if Store.ue x a n then .error stEccUncorr else .ok (x.read a n))

/-- FP32 value i of an accumulator store from byte a. -/
def accStoreVal (x : Store) (a i : Nat) : BitVec 32 := BitVec.ofNat 32 (leNat (Store.read x (a + 4 * i) 4))

/-- A unit about to serve a context other than its previous one fills its stores with zeros (11 R417). -/
def claimUnit (c u : Nat) (s : State) : State :=
  if s.getUnitCtx u = some c then s
  else ((s.modOpStore u (fun _ => Store.init)).modAccStore u (fun _ => Store.init)).putUnitCtx u c

/-- Capture state under a range of the accumulator store that a command overwrites is lost: free values. -/
def clobberArmed (u a n : Nat) (s : State) : State :=
  if s.armed.any (fun x => x.unit = u && decide (x.acc < a + n) && decide (a < x.acc + 8 * x.n)) then
    let (k, s) := s.fresh
    s.onArmed (fun l => l.map (fun x =>
      if x.unit = u && decide (x.acc < a + n) && decide (a < x.acc + 8 * x.n) then
        { x with rows := (List.range x.n).map (fun r => (r, ((Config.freeWord k (2 * r)).setWidth 32, (Config.freeWord k (2 * r + 1)).setWidth 32))) }
      else x))
  else s

/-! One unit's work. -/

/-- Where a command works: context, uid, stripe, stack, and whether its checks of 05 R190 stand behind it. -/
structure SEnv where
  ctx   : Nat
  uid   : Nat
  a     : Alloc
  stack : Nat
  going : Bool
deriving DecidableEq, Repr

def SEnv.addr (v : SEnv) (b rel : Nat) : Nat := stAddr v.stack b (v.a.off + rel)
def SEnv.unit (v : SEnv) (b : Nat) : Nat := v.stack * 64 + b

/-- The virtual address of an offset of a stripe's bank set (09 R323). -/
def SEnv.va (v : SEnv) (b rel : Nat) : Nat := v.a.base + ((ones v.a.bsmask).takeWhile (fun x => x ≠ b)).length * v.a.unit + rel

/-- What one unit would write: bytes of its bank set and of its accumulator store. -/
structure SOut where
  dst : List (Nat × List Byte)
  acc : List (Nat × List Byte)
deriving DecidableEq, Repr

/-- Bytes read at `a` with what stood there before the row steps of the command in hand laid over them. -/
def layOld (a : Nat) (old : List (Nat × List Byte)) (bs : List Byte) : List Byte :=
  if old.isEmpty then bs
  else (List.range bs.length).map (fun i => match old.find? (fun o => decide (o.1 ≤ a + i) && decide (a + i < o.1 + o.2.length)) with
    | some o => o.2.getD (a + i - o.1) 0
    | none => bs.getD i 0)

/-- Reads a range of the stripe beneath a bank set; what the command's own row steps have overwritten it has read before. -/
def SEnv.rd (v : SEnv) (b rel n : Nat) (s : State) : State × Except Nat (List Byte) :=
  match sillRead (v.addr b rel) n s with
  | (s, some bs) => (s, .ok (layOld (v.addr b rel) (s.bankAt (v.unit b)).old bs))
  | (s, none) => (s, .error stEccUncorr)

/-- The check of a data block and its scales, before the command's first write (05 R190): the group scales, none with G = 0, where FMT and POISON alone
are compared. -/
def SEnv.chk (v : SEnv) (b rel fmt g scl count : Nat) (s : State) : State × Except Nat (List Val) :=
  thenE (v.rd b rel 64 s) (fun hb s =>
    let d := dhdrOf hb
    if !v.going && (d.fmt ≠ fmt || d.poison || (g ≠ 0 && d.g ≠ g)) then (s, .error stScaleSkew)
    else if g = 0 then (s, .ok [])
    else thenE (v.rd b scl (64 + count) s) (fun tb s =>
        let t := thdrOf tb
        if !v.going && (t.tag ≠ d.tag || t.g ≠ g || t.sfmt ≠ d.sfmt || t.count ≠ count) then (s, .error stScaleSkew)
        else (s, .ok ((tb.drop 64).map (scaleVal t.sfmt)))))

/-- A data block written from values (05 R189): TAG 0, G 0, NANZ as R161 says, the last code word filled with zeros. -/
def outBlock (fmt rows cols : Nat) (vals : List Val) : List Byte :=
  let es := vals.map (encodeVal fmt)
  let p := packElems fmt (es.map (·.1))
  let h := dhdrBytes { len := p.length, rows := rows, cols := cols, fmt := fmt, g := 0, sfmt := 0, poison := false, nanz := es.any (·.2), tag := 0 }
  h ++ padTo (alignUp p.length 64) p

/-- The header a failed check leaves (05 R190, 04 R168). -/
def poisonHdr (fmt rows cols len : Nat) : List Byte :=
  dhdrBytes { len := len, rows := rows, cols := cols, fmt := fmt, g := 0, sfmt := 0, poison := true, nanz := false, tag := 0 }

/-- The output block of an operation: format, rows, columns and payload bytes. -/
def sShape (h : Hdr) : Nat × Nat × Nat × Nat :=
  let e := eEop h
  if e = 2 then (sFmtO h, sB h, sN h, fmtBytes (sFmtO h) (sB h * sN h))
  else if e = 4 then (sFmtO h, sN h, sK h, fmtBytes (sFmtO h) (sN h * sK h))
  else if e = 6 then (sFmtA h, sN h, sParam h + 1, sN h * (sParam h + 1) * 8)
  else if e = 7 then (sFmtA h, sN h, sK h, sN h * sK h)
  else (sFmtO h, 1, sN h, fmtBytes (sFmtO h) (sN h))

/-- One dot product under the arithmetic of 04 R162 (05 R191): x at element base i × K, W at n × K. -/
def dotGroups (fa fw : Nat) (xs ws : List Byte) (k i n : Nat) (gsz : Nat) (sc : List Val) (init : Option (BitVec 32)) : Option (BitVec 32) :=
  let ng := if gsz = 0 then 1 else k / gsz
  let gl := if gsz = 0 then k else gsz
  (List.range ng).foldl (fun acc j =>
    let ts := (List.range gl).map (fun q =>
      (decodeVal fa (elemAt fa xs (i * k + j * gl + q))).mul (decodeVal fw (elemAt fw ws (n * k + j * gl + q))))
    let sum := if fmtBits fa ≤ 8 && fmtBits fw ≤ 8 then exactSum ts else treeSum 1 ts.length ts
    let v := r32 (if gsz = 0 then sum else sum.mul (nth sc (n * ng + j) vOne))
    match acc with
    | none => some v
    | some a => some (add32 a v)) init

/-- GEMV (05 R191-R193). -/
def wGemv (v : SEnv) (h : Hdr) (b : Nat) (s : State) : State × Except Nat SOut :=
  let n := sN h
  let k := sK h
  let gsz := gSize (sG h)
  thenE (v.chk b (sSrc h) (sFmtW h) (sG h) (sScl h) (if gsz = 0 then 0 else n * (k / gsz)) s) (fun sc s =>
    thenE (v.rd b (sSrc h + 64) (fmtBytes (sFmtW h) (n * k)) s) (fun ws s =>
    thenE (storeRead (s.opStoreAt (v.unit b)) (sOps h) (fmtBytes (sFmtA h) (sB h * k)) s) (fun xs s =>
    thenE (storeRead (s.accStoreAt (v.unit b)) (sAcc h) (if sAccum h then 4 * (sB h * n) else 0) s) (fun _ s =>
      let old := s.accStoreAt (v.unit b)
      let res := (List.range (sB h)).flatMap (fun i => (List.range n).map (fun m =>
        (dotGroups (sFmtA h) (sFmtW h) xs ws k i m gsz sc (if sAccum h then some (accStoreVal old (sAcc h) (i * n + m)) else none)).getD 0))
      (s, .ok { dst := if sKeep h then [] else [(sDst h, outBlock (sFmtO h) (sB h) n (res.map v32))],
                acc := [(sAcc h, res.flatMap (fun x => toLE x.toNat 4))] })))))

/-- An EWISE function on FP32 operands (05 Table 5.6); FN 0x07 only converts. -/
def ewApply (fn : Nat) (a b : Val) : Val :=
  let x := r32 a
  let y := r32 b
  if fn = 0 then a.add b
  else if fn = 1 then a.add b.neg
  else if fn = 2 then a.mul b
  else if fn = 3 then v32 (max32 x y)
  else if fn = 4 then v32 (min32 x y)
  else if fn = 5 then a.mul (v32 (sSigmoid y))
  else if fn = 6 then (v32 (sSilu x)).mul b
  else if fn = 7 then a
  else if fn = 0x10 then v32 (sExp x)
  else if fn = 0x11 then v32 (sSilu x)
  else if fn = 0x12 then v32 (sGelu x)
  else if fn = 0x13 then v32 (sSigmoid x)
  else if fn = 0x14 then v32 (sTanh x)
  else if fn = 0x15 then v32 (sRecip x)
  else if fn = 0x16 then v32 (sRsqrt x)
  else a.mul a

/-- n values of a data block's payload. -/
def SEnv.vals (v : SEnv) (b rel fmt n : Nat) (s : State) : State × Except Nat (List Val) :=
  thenE (v.rd b (rel + 64) (fmtBytes fmt n) s) (fun bs s => (s, .ok ((elems fmt n bs).map (decodeVal fmt))))

/-- The second operand of EWISE. -/
def ewSecond (v : SEnv) (h : Hdr) (b : Nat) (s : State) : State × Except Nat (List Val) :=
  let n := sN h
  if !ewBin (sFn h) then (s, .ok [])
  else if sAux h ≠ 0 then
    thenE (v.chk b (sAux h) (sFmtA h) 0 0 0 s) (fun _ s => v.vals b (sAux h) (sFmtA h) n s)
  else
    thenE (storeRead (s.opStoreAt (v.unit b)) (sOps h) (fmtBytes (sFmtA h) (sK h)) s) (fun x s =>
      let vec := (elems (sFmtA h) (sK h) x).map (decodeVal (sFmtA h))
      (s, .ok ((List.range n).map (fun i => nth vec (i % sK h) .nan))))

/-- EWISE (05 R194). -/
def wEwise (v : SEnv) (h : Hdr) (b : Nat) (s : State) : State × Except Nat SOut :=
  thenE (v.chk b (sSrc h) (sFmtA h) 0 0 0 s) (fun _ s =>
    thenE (v.vals b (sSrc h) (sFmtA h) (sN h) s) (fun xs s =>
      thenE (ewSecond v h b s) (fun ys s =>
        let res := (List.range (sN h)).map (fun i => ewApply (sFn h) (nth xs i .nan) (nth ys i .nan))
        (s, .ok { dst := [(sDst h, outBlock (sFmtO h) 1 (sN h) res)], acc := [] }))))

/-- One row of NORM (05 R195; the formulas are those the names stand for, log 22). -/
def normRow (fn : Nat) (eps : BitVec 32) (xs gain bias : List (BitVec 32)) : List Val :=
  let k := r32 (.fin false xs.length 1)
  let mean := div32 (sum32 xs) k
  let cs := if fn = 0 then xs else xs.map (fun x => sub32 x mean)
  let var := div32 (sum32 (cs.map (fun x => mul32 x x))) k
  let inv := sRsqrt (add32 var eps)
  (List.range xs.length).map (fun i =>
    let y := mul32 (mul32 (nth cs i 0) inv) (nth gain i 0)
    v32 (if fn = 0 then y else add32 y (nth bias i 0)))

/-- A vector of k elements of an operand store, as FP32. -/
def storeVec (f k off : Nat) (st : Store) : List (BitVec 32) := (elems f k (st.read off (fmtBytes f k))).map (fun e => r32 (decodeVal f e))

/-- NORM (05 R195). -/
def wNorm (v : SEnv) (h : Hdr) (b : Nat) (s : State) : State × Except Nat SOut :=
  let k := sK h
  let f := sFmtA h
  thenE (v.chk b (sSrc h) f 0 0 0 s) (fun _ s =>
    thenE (v.vals b (sSrc h) f (sN h * k) s) (fun xs s =>
      thenE (v.rd b (sAux h) 4 s) (fun eb s =>
      thenE (storeRead (s.opStoreAt (v.unit b)) (sOps h) (fmtBytes f k * (sFn h + 1)) s) (fun _ s =>
        let st := s.opStoreAt (v.unit b)
        let res := (List.range (sN h)).flatMap (fun r =>
          normRow (sFn h) (BitVec.ofNat 32 (leNat eb)) (((xs.drop (r * k)).take k).map r32) (storeVec f k (sOps h) st) (storeVec f k (sOps h + fmtBytes f k) st))
        (s, .ok { dst := [(sDst h, outBlock (sFmtO h) (sN h) k res)], acc := [] })))))

/-- DEQ (05 R196). -/
def wDeq (v : SEnv) (h : Hdr) (b : Nat) (s : State) : State × Except Nat SOut :=
  thenE (v.chk b (sSrc h) (sFmtW h) (sG h) (sScl h) (groupsOf (sG h) (sN h)) s) (fun sc s =>
    thenE (v.vals b (sSrc h) (sFmtW h) (sN h) s) (fun xs s =>
      let res := (List.range (sN h)).map (fun i =>
        if sG h = 0 then nth xs i .nan else (nth xs i .nan).mul (nth sc (i / gSize (sG h)) vOne))
      (s, .ok { dst := [(sDst h, outBlock (sFmtO h) 1 (sN h) res)], acc := [] })))

/-- Whether element x ranks strictly above y: NaN below every number (05 R197). -/
def ranksAbove (x y : Val) : Bool := if y.isNan then !x.isNan else y.lt x

/-- Indices of a row by rank, equal values by lower index first. -/
def rankRow (xs : List Val) : List Nat :=
  (List.range xs.length).foldl (fun acc i =>
    let above := acc.takeWhile (fun j => !ranksAbove (nth xs i .nan) (nth xs j .nan))
    above ++ [i] ++ acc.drop above.length) []

/-- TOPK (05 R197). -/
def wTopk (v : SEnv) (h : Hdr) (b : Nat) (s : State) : State × Except Nat SOut :=
  let k := sK h
  let f := sFmtA h
  thenE (v.chk b (sSrc h) f 0 0 0 s) (fun _ s =>
    thenE (v.rd b (sSrc h + 64) (fmtBytes f (sN h * k)) s) (fun bs s =>
      let es := elems f (sN h * k) bs
      let out := (List.range (sN h)).flatMap (fun r =>
        let row := (es.drop (r * k)).take k
        ((rankRow (row.map (decodeVal f))).take (sParam h + 1)).flatMap (fun i => toLE i 4 ++ padTo 4 (toLE (nth row i 0) (fmtUnit f))))
      let sh := sShape h
      let hd := dhdrBytes { len := out.length, rows := sh.2.1, cols := sh.2.2.1, fmt := sh.1, g := 0, sfmt := 0, poison := false, nanz := false, tag := 0 }
      (s, .ok { dst := [(sDst h, hd ++ padTo (alignUp out.length 64) out)], acc := [] })))

/-- The rows of GATHER, one index at a time: zeros at or beyond the table's length, free bytes where a row runs past the stripe (log 23). -/
def gatherRows (v : SEnv) (h : Hdr) (b tlen : Nat) : List Nat → List Byte → State → State × Except Nat (List Byte)
  | [], acc, s => (s, .ok acc)
  | j :: r, acc, s =>
    if tlen ≤ j then gatherRows v h b tlen r (acc ++ zeros (sK h)) s
    else if v.a.unit < sSrc h + (j + 1) * sK h then
      let (k, s) := s.fresh
      gatherRows v h b tlen r (acc ++ freeBytes k (sK h)) s
    else thenE (v.rd b (sSrc h + j * sK h) (sK h) s) (fun bs s => gatherRows v h b tlen r (acc ++ bs) s)

/-- GATHER (05 R198). -/
def wGather (v : SEnv) (h : Hdr) (b : Nat) (s : State) : State × Except Nat SOut :=
  thenE (v.rd b (sScl h) 4 s) (fun tl s =>
    thenE (v.rd b (sAux h) (4 * sN h) s) (fun ix s =>
      thenE (gatherRows v h b (leNat tl) ((List.range (sN h)).map (fun i => le ix (4 * i) 4)) [] s) (fun out s =>
        let hd := dhdrBytes { len := out.length, rows := sN h, cols := sK h, fmt := sFmtA h, g := 0, sfmt := 0, poison := false, nanz := false, tag := 0 }
        (s, .ok { dst := [(sDst h, hd ++ out)], acc := [] }))))

/-- The armed area of a context at an offset of a unit. -/
def armedOf (s : State) (c u base : Nat) : Option Armed := s.armed.find? (fun a => a.ctx = c && a.unit = u && a.base = base)

/-- A state record: m and s of each row, FP32, padded to whole code words (06 R246). -/
def stateRecord (a : Armed) : List Byte :=
  let b := (List.range a.n).flatMap (fun r => toLE (a.row r).1.toNat 4 ++ toLE (a.row r).2.toNat 4)
  padTo (alignUp b.length 64) b

/-- SMX_NORM of one area (05 R200): code words that the capture did not see, and those of a row that a write against 06 R244 touched, become free bytes; an area that is not armed with this N and K is
undefined throughout (log 8). -/
def wSmxNorm (v : SEnv) (h : Hdr) (b : Nat) (s : State) : State × Except Nat SOut :=
  let n := sN h
  let k := sK h
  match armedOf s v.ctx (v.unit b) (v.a.off + sDst h) with
  | none =>
    let (f, s) := s.fresh
    (s, .ok { dst := [(sDst h, freeBytes f (n * k * 2))], acc := [] })
  | some a =>
    if a.n ≠ n || a.k ≠ k then
      let (f, s) := s.fresh
      (s, .ok { dst := [(sDst h, freeBytes f (n * k * 2))], acc := [] })
    else thenE (v.rd b (sDst h) (n * k * 2) s) (fun bs s =>
        let (f, s) := s.fresh
        let word := fun (w : Nat) =>
          if a.seen.contains w && !a.spoilt.contains (w * 32 / k) then
            let st := a.row (w * 32 / k)
            packElems 0x02 ((elems 0x02 32 ((bs.drop (64 * w)).take 64)).map (fun e =>
              (encodeVal 0x02 (v32 (div32 (sExp (sub32 (r32 (decodeVal 0x02 e)) st.1)) st.2))).1))
          else (List.range 64).map (fun i => Config.freeByte f (64 * w + i))
        (s, .ok { dst := [(sDst h, (List.range (n * k / 32)).flatMap word), (a.aux - v.a.off, stateRecord a)], acc := [] }))

/-- One unit's work by operation. -/
def sillWork (v : SEnv) (h : Hdr) (b : Nat) (s : State) : State × Except Nat SOut :=
  let e := eEop h
  if e = 2 then wGemv v h b s
  else if e = 3 then wEwise v h b s
  else if e = 4 then wNorm v h b s
  else if e = 5 then wDeq v h b s
  else if e = 6 then wTopk v h b s
  else if e = 7 then wGather v h b s
  else wSmxNorm v h b s

/-! A whole command. -/

/-- A command's work: bytes of its output block in each bank set (0: none), the header that a failed check leaves there, whether its output begins
with a header, and what one unit makes of what it reads. -/
structure SJob where
  len  : Nat
  hd   : Option (List Byte)
  head : Bool
  work : Nat → State → State × Except Nat SOut

/-- What each selected unit came to. -/
def workAll (work : Nat → State → State × Except Nat SOut) : List Nat → List (Nat × SOut) → Option Nat → State → State × List (Nat × SOut) × Option Nat
  | [], acc, st, s => (s, acc, st)
  | b :: r, acc, st, s =>
    match work b s with
    | (s, .ok o) => workAll work r (acc ++ [(b, o)]) st s
    | (s, .error e) => workAll work r acc (some (match st with | some x => if stopRank e < stopRank x then e else x | none => e)) s

/-- The row steps of a unit's writes: each piece of one DRAM row (05 R175, R176), with its address. -/
def rowSteps (v : SEnv) (p : Nat × SOut) : List (Nat × List Byte) := p.2.dst.flatMap (fun w => cutBytes 4096 (v.addr p.1 w.1) w.2)

/-- One row step's write lands. -/
def landStep (v : SEnv) (w : Nat × List Byte) (s : State) : State := sillWrite v.uid w.1 w.2 s

/-- A data block header that lands in an armed area spoils the row it touches (06 R244). -/
def landHead (v : SEnv) (h : Hdr) (j : SJob) (b : Nat) (s : State) : State :=
  if j.head && 0 < j.len then spoilRow (v.unit b) (v.a.off + sDst h) s else s

/-- Row steps up to number n of a unit's writes land; what stood at their addresses is kept for the reads of later ones (05 R208). -/
def landSome (v : SEnv) (h : Hdr) (j : SJob) (n : Nat) (p : Nat × SOut) (s : State) : State :=
  let u := v.unit p.1
  let m := (s.bankAt u).prog
  let ws := ((rowSteps v p).take n).drop m
  let s : State := s.modBank u (fun b => { b with prog := Nat.max m n, old := b.old ++ ws.map (fun w => (w.1, layOld w.1 b.old (mread s.stackMem w.1 w.2.length))) })
  let s : State := forEach ws (landStep v) s
  if m = 0 && 0 < ws.length then landHead v h j p.1 s else s

/-- Lands the rest of what a unit wrote (05 R184). -/
def landOut (v : SEnv) (h : Hdr) (j : SJob) (p : Nat × SOut) (s : State) : State :=
  let u := v.unit p.1
  let s : State := forEach p.2.acc (fun w s => (clobberArmed u w.1 w.2.length s).modAccStore u (fun x => x.write w.1 w.2)) s
  let m := (s.bankAt u).prog
  let s : State := forEach ((rowSteps v p).drop m) (landStep v) s
  if m = 0 then landHead v h j p.1 s else s

/-- The accumulator values of a GEMV that does not end are undefined (05 R203). -/
def havocAccOut (v : SEnv) (h : Hdr) (b : Nat) (s : State) : State :=
  if eEop h = 2 then
    let (k, s) := State.fresh s
    let u := v.unit b
    (clobberArmed u (sAcc h) (4 * (sB h * sN h)) s).modAccStore u (fun x => x.write (sAcc h) (freeBytes k (4 * (sB h * sN h))))
  else s

/-- Outputs of a stopped command are undefined (05 R203): the DST block of each selected bank set, and the accumulator values of a GEMV. -/
def havocOut (v : SEnv) (h : Hdr) (bs : List Nat) (len : Nat) (s : State) : State :=
  forEach bs (fun b s =>
    let (k, s) := State.fresh s
    let s : State := if v.a.ctx = v.ctx then sillWrite v.uid (v.addr b (sDst h)) (freeBytes k len) s else s
    havocAccOut v h b s) s

/-- A command whose work fails with a status: its outputs are undefined, and a failed check leaves poisoned headers (05 R190, R203; 04 R168). -/
def sillFail (v : SEnv) (h : Hdr) (j : SJob) (st : Nat) (s : State) : State × EOut :=
  let bs := ones (sBs h)
  let s : State := havocOut v h bs j.len s
  let s : State := match j.hd with
    | some x => if st = stScaleSkew && v.a.ctx = v.ctx then (forEach bs (fun b s => sillWrite v.uid (v.addr b (sDst h)) x s) s).delWlog v.uid else s
    | none => s
  (s, EOut.stop st 0)

/-- The state before a trial `t`, with the free values that it used up and the accesses that it met. -/
def rewind (s t : State) : State := (s.onFreeCtr (fun _ => t.freeCtr)).onAcc (fun _ => t.acc)

/-- A command starts: its stop, where what it finds stops it; otherwise it is under way and nothing has been written. -/
def sillTry (v : SEnv) (h : Hdr) (j : SJob) (s : State) : State × Option EOut :=
  let bs := ones (sBs h)
  match workAll j.work bs [] none s with
  | (t, _, none) => (rewind s t, if 0 < j.len && v.a.ctx ≠ v.ctx then some (EOut.stop stPageFault (v.va (bs.headD 0) (sDst h))) else none)
  | (t, _, some st) => let r := sillFail v h j st t; (r.1, some r.2)

/-- A command comes to its end: what its row steps have not yet written lands. -/
def sillLand (v : SEnv) (h : Hdr) (j : SJob) (s : State) : State × EOut :=
  match workAll j.work (ones (sBs h)) [] none s with
  | (s, outs, none) => (forEach outs (landOut v h j) s, EOut.ok)
  | (s, _, some st) => sillFail v h j st s

/-- At a yield some row steps of a bank set have been completed since the last one; how many is free (05 R204, R208; log 34). -/
def sillSteps (v : SEnv) (h : Hdr) (j : SJob) (b : Nat) (s : State) : State :=
  match j.work b s with
  | (t, .ok o) =>
    let (k, s) := (rewind s t).fresh
    let m := (s.bankAt (v.unit b)).prog
    let total := (rowSteps v (b, o)).length
    landSome v h j (m + (Config.freeWord k 0).toNat % (total - m + 1)) (b, o) s
  | (_, .error _) => s

/-- LOADOP reads its bytes (05 R188): N of bank set PARAM. -/
def loadopRead (v : SEnv) (h : Hdr) (s : State) : State × Except Nat (List Byte) := v.rd (sParam h) (sSrc h) (sN h) s

/-- The operand stores that a LOADOP writes take bytes. -/
def loadopWrite (v : SEnv) (h : Hdr) (bs : List Byte) (s : State) : State :=
  forEach ((ones (sBs h)).map v.unit) (fun u s => s.modOpStore u (fun x => x.write (sOps h) bs)) s

/-- What a LOADOP that does not end had written is undefined (05 R203). -/
def loadopHavoc (v : SEnv) (h : Hdr) (s : State) : State :=
  forEach ((ones (sBs h)).map v.unit) (fun u s =>
    let (k, s) := State.fresh s
    s.modOpStore u (fun x => x.write (sOps h) (freeBytes k (sN h)))) s

/-- SMX_ARM arms an area in each selected unit (05 R199, 06 R245), for run r; areas armed past the 4,096 rows of a unit keep no state. -/
def runArm (v : SEnv) (h : Hdr) (r : Nat) (s : State) : State :=
  forEach (ones (sBs h)) (fun b s =>
    let u := v.unit b
    let base := v.a.off + sDst h
    let full := decide (4096 < armedRows s v.ctx u base + sN h)
    let s : State := clobberArmed u (sAcc h) (8 * sN h) s
    let (k, s) := State.fresh s
    let s : State := s.modAccStore u (fun x => x.write (sAcc h) (freeBytes k (8 * sN h)))
    s.onArmed (fun l => l.filter (fun a => !(a.ctx = v.ctx && a.unit = u && a.base = base))
      ++ [{ unit := u, ctx := v.ctx, base := base, n := sN h, k := sK h, acc := sAcc h, aux := v.a.off + sAux h, rows := [], seen := [],
            spoilt := if full then List.range (sN h) else [], run := r, saved := none, norm := none }])) s

/-- Bytes of an operation's output in each bank set. -/
def sOutLen (h : Hdr) : Nat :=
  if eEop h = 9 then sN h * sK h * 2
  else if eEop h = 2 && sKeep h then 0
  else 64 + alignUp (sShape h).2.2.2 64

/-- The work of EOP 0x02 to 0x07 and 0x09 (05 R191-R200). -/
def opJob (v : SEnv) (h : Hdr) : SJob :=
  let sh := sShape h
  let e := eEop h
  { len := sOutLen h, head := e ≠ 9, hd := if e = 9 || (e = 2 && sKeep h) then none else some (poisonHdr sh.1 sh.2.1 sh.2.2.1 sh.2.2.2), work := sillWork v h }

/-- The areas that an SMX_NORM names. -/
def normArea (v : SEnv) (h : Hdr) (a : Armed) : Bool :=
  a.ctx = v.ctx && (ones (sBs h)).any (fun b => a.unit = v.unit b) && a.base = v.a.off + sDst h

/-- Starts EOP 0x01 to 0x09 (05 R188-R200): its stop, if it has one. From here on an SMX_NORM's areas capture nothing (R200). -/
def sillOp (v : SEnv) (h : Hdr) (r : Nat) (s : State) : State × Option EOut :=
  let e := eEop h
  if e = 1 then
    match loadopRead v h s with
    | (t, .ok _) => (rewind s t, none)
    | (t, .error st) => (loadopHavoc v h t, some (EOut.stop st 0))
  else if e = 8 then (runArm v h r s, none)
  else match sillTry v h (opJob v h) s with
    | (s, none) => (if e = 9 then s.onArmed (fun l => l.map (fun a => if normArea v h a then { a with norm := some v.uid } else a)) else s, none)
    | x => x

/-- Ends EOP 0x01 to 0x09 (05 R184): SMX_NORM disarms its areas (R200). -/
def sillEnd (v : SEnv) (h : Hdr) (s : State) : State × EOut :=
  let e := eEop h
  if e = 1 then
    match loadopRead v h s with
    | (s, .ok bs) => (loadopWrite v h bs s, EOut.ok)
    | (s, .error st) => (loadopHavoc v h s, EOut.stop st 0)
  else if e = 8 then (s, EOut.ok)
  else
    let out := sillLand v h (opJob v h) s
    if e = 9 && out.2.st = stOK then (out.1.onArmed (fun l => l.filter (fun a => a.norm ≠ some v.uid)), out.2) else out

/-- What a cut leaves of a command's stores (05 R203): a LOADOP's operand bytes and a GEMV's accumulator values undefined, an SMX_NORM's areas
armed. -/
def sillCut (v : SEnv) (h : Hdr) (s : State) : State :=
  let s : State := if eEop h = 1 then loadopHavoc v h s else forEach (ones (sBs h)) (havocAccOut v h) s
  s.onArmed (fun l => l.map (fun a => if a.norm = some v.uid then { a with norm := none } else a))

end Sys2Proof.Machine
end

