-- ==== Sys2Proof/Machine/Attn.lean ====
section
/-! DEFINITION. Attention in the stacks (06 R249-R254): KV_SCORE, KV_APPLY and SMX_MERGE, and their push checks. -/

namespace Sys2Proof.Machine

/-- Sequence, layer and descriptor handle of a routine body (06 Table 6.11). -/
def uSeq (h : Hdr) : Nat := fld h.w7 63 50
def uLayer (h : Hdr) : Nat := fld h.w7 49 42
def uDesc (h : Hdr) : Nat := fld h.w6 63 40

/-- Columns of a page in a score row (06 R249). -/
def scoreS (q : Seq) : Nat := Nat.max (2 ^ q.nlog2) 32

/-- MASK_SCORE in BF16 (06 R242). -/
def maskScore : Nat := 0xC780

/-- An open sequence of a context. -/
def liveSeq (s : State) (c q : Nat) : Option Seq :=
  match s.getSeq q with
  | some x => if x.ctx = c && x.closing.isNone then some x else none
  | none => none

/-- The push checks of KV_SCORE and KV_APPLY (06 R250). -/
def kvCheck (s : State) (c : Nat) (h : Hdr) : Option (Nat × Nat) :=
  let t := eTarget h
  match liveDesc s c (uDesc h), liveSeq s c (uSeq h), stripeOf s c (sStripe h) with
  | some d, some q, some a =>
    if le d.bytes 0 1 ≠ 0x20 then some (rsBadHandle, t)
    else
      let x := adescOf d.bytes
      let dd := headDim q.headDim
      let b := sB h
      let l := sK h
      let tt := sParam h + 1
      let fmts := if sFn h = 0 then sFmtA h = x.fmtQ && sFmtW h = x.fmtK && x.fmtK = q.kfmt && sFmtO h = 0x02
        else sFmtA h = 0x02 && sFmtW h = x.fmtV && x.fmtV = q.vfmt && sFmtO h = 0x01
      let ranges := if sFn h = 0 then [(sDst h, q.kvh * b * l * 2)] else [(sSrc h, q.kvh * b * l * 2), (sDst h, blockLen 0x01 (q.kvh * b * dd))]
      if !fmts || x.kvh ≠ q.kvh || x.hd ≠ q.headDim || sG h ≠ x.sg % 4 || sG h ≠ q.sg % 4 || x.sg / 4 % 2 ≠ q.sg / 4 % 2
          || !x.paths.testBit 1 || b ≠ x.r * tt || 4096 < q.kvh * b || 2 ^ 18 < q.kvh * b * dd * fmtUnit x.fmtQ || 2 ^ 18 < b * l * 2
          || 16384 < b * dd || l = 0 || l % scoreS q ≠ 0 || q.layers ≤ uLayer h || fld h.w7 41 32 ≠ 0
          || (sFn h = 0 && 2 ^ 18 < sOps h + q.kvh * b * dd * fmtUnit x.fmtQ)
          || ranges.any (fun r => decide (a.unit < r.1 + alignUp r.2 64)) then some (rsBadField, t)
      else none
  | _, _, _ => some (rsBadHandle, t)

/-- The push checks of SMX_MERGE (06 Table 6.11, R250). -/
def mergeCheck (s : State) (c : Nat) (h : Hdr) : Option (Nat × Nat) :=
  let t := eTarget h
  let j := sParam h + 1
  let rec8 := alignUp (8 * sN h) 64
  match stripeOf s c (sStripe h) with
  | none => some (rsBadHandle, t)
  | some a =>
    let ranges := [(sSrc h, j * blockLen 0x01 (sN h * sK h)), (sAux h, j * rec8), (sDst h, blockLen (sFmtO h) (sN h * sK h))]
      ++ (if sScl h = 0 then [] else [(sScl h, rec8)])
    if sFmtA h ≠ 0x01 || sFmtW h ≠ 0x01 || !(sFmtO h = 0x01 || sFmtO h = 0x02) || (ones (sBs h)).length ≠ 1 || sK h = 0
        || ranges.any (fun r => decide (a.unit < r.1 + alignUp r.2 64)) then some (rsBadField, t)
    else none

/-- The push checks of a UCALL beyond R186; a routine this model knows nothing of has none (log 25). -/
def ucallCheck (s : State) (c : Nat) (h : Hdr) : Option (Nat × Nat) :=
  if sFn h ≤ 1 then kvCheck s c h else if sFn h = 2 then mergeCheck s c h else none

/-- The pages of a sequence and layer in a bank set, in slot order (06 R249). -/
def bankPages (s : State) (q l t b : Nat) : List Page :=
  sortBy (fun p : Page => p.slot) (((pagesOf s q).filter (fun e => e.2.layer = l && (e.2.st = .resident || e.2.st = .tentative) && e.2.stack = t && e.2.bset = b)).map (·.2))

/-- The position of column c: page and position, where a page has one (06 R249, R251). -/
def colAt (q : Seq) (ps : List Page) (c : Nat) : Option (Page × Nat) :=
  match ps[c / scoreS q]? with
  | some p => if c % scoreS q < 2 ^ q.nlog2 then some (p, slotStart q p.slot + c % scoreS q) else none
  | none => none

/-- A column that row token i may see (06 R251). -/
def visible (q : Seq) (l t mask i : Nat) (x : Page × Nat) : Bool :=
  !(q.dropped.contains (l, x.1.slot)) && decide (x.2 < q.c + t) && !(mask = 1 && decide (q.c + i < x.2))

/-- Offset in a bank set of a position's key, or value, of head h (06 Table 6.3; log 18). -/
def kvOff (q : Seq) (p : Page) (h pos : Nat) (value : Bool) : Nat :=
  p.off + h * (kBytes q + vBytes q) + (if value then kBytes q else 0)
    + (pos - slotStart q p.slot) * (headDim q.headDim * kvHalf (if value then q.vfmt else q.kfmt) / 2)

/-- The elements of every visible column of head h, read once: column ↦ elements (06 R255). -/
def readCols (t b : Nat) (q : Seq) (ps : List Page) (l tt hd : Nat) (value : Bool) : List Nat → Tbl (List Nat) → State → State × Except Nat (Tbl (List Nat))
  | [], acc, s => (s, .ok acc)
  | c :: r, acc, s =>
    match colAt q ps c with
    | none => readCols t b q ps l tt hd value r acc s
    | some x =>
      if !visible q l tt 0 0 x then readCols t b q ps l tt hd value r acc s
      else
        let f := if value then q.vfmt else q.kfmt
        match sillRead (stAddr t b (kvOff q x.1 hd x.2 value)) (headDim q.headDim * kvHalf f / 2) s with
        | (s, some bs) => readCols t b q ps l tt hd value r (tset acc c (elems f (headDim q.headDim) bs)) s
        | (s, none) => (s, .error stEccUncorr)

/-- The same for every head from `hd` up. -/
def readHeads (t b : Nat) (q : Seq) (ps : List Page) (l tt cols : Nat) (value : Bool) : List Nat → List (Tbl (List Nat)) → State → State × Except Nat (List (Tbl (List Nat)))
  | [], acc, s => (s, .ok acc)
  | hd :: r, acc, s =>
    thenE (readCols t b q ps l tt hd value (List.range cols) [] s) (fun x s => readHeads t b q ps l tt cols value r (acc ++ [x]) s)

/-- KV_SCORE in one bank set (06 R251). -/
def wScore (v : SEnv) (h : Hdr) (q : Seq) (d : ADesc) (cal : List Byte) (b : Nat) (s : State) : State × Except Nat SOut :=
  let ps := bankPages s (uSeq h) (uLayer h) v.stack b
  let dd := headDim q.headDim
  let bb := sB h
  let l := sK h
  let ng := dd / gSize (sG h)
  thenE (readHeads v.stack b q ps (uLayer h) (sParam h + 1) l false (List.range q.kvh) [] s) (fun keys s =>
    thenE (storeRead (s.opStoreAt (v.unit b)) (sOps h) (fmtBytes d.fmtQ (q.kvh * bb * dd)) s) (fun qs s =>
    let score := fun (hd r c : Nat) =>
      match colAt q ps c with
      | none => maskScore
      | some x =>
        if !visible q (uLayer h) (sParam h + 1) d.mask (r / d.r) x then maskScore
        else
          let kb := packElems q.kfmt (tgetD (nth keys hd []) c [])
          let sc := (List.range ng).map (fun j => scaleVal (q.sg / 4 % 2) (cal.getD (hd * 2 * ng + j) 0))
          let dot := (dotGroups d.fmtQ q.kfmt qs kb dd (hd * bb + r) 0 (gSize (sG h)) sc none).getD 0
          (encodeVal 0x02 ((v32 d.scale).mul (v32 dot))).1
    let rows := (List.range q.kvh).flatMap (fun hd => (List.range bb).map (fun r => packElems 0x02 ((List.range l).map (score hd r))))
    (s, .ok { dst := [(sDst h, rows.flatten)], acc := [] })))

/-- KV_APPLY in one bank set (06 R252). -/
def wApply (v : SEnv) (h : Hdr) (q : Seq) (d : ADesc) (cal : List Byte) (b : Nat) (s : State) : State × Except Nat SOut :=
  let ps := bankPages s (uSeq h) (uLayer h) v.stack b
  let dd := headDim q.headDim
  let bb := sB h
  let l := sK h
  let ng := dd / gSize (sG h)
  thenE (v.rd b (sSrc h) (q.kvh * bb * l * 2) s) (fun pb s =>
    thenE (readHeads v.stack b q ps (uLayer h) (sParam h + 1) l true (List.range q.kvh) [] s) (fun vals s =>
      let out := (List.range q.kvh).flatMap (fun hd => (List.range bb).flatMap (fun r =>
        let cs := (List.range l).filter (fun c => match colAt q ps c with
          | some x => visible q (uLayer h) (sParam h + 1) d.mask (r / d.r) x
          | none => false)
        let ws := (elems 0x02 l (pb.drop ((hd * bb + r) * l * 2))).map (decodeVal 0x02)
        (List.range dd).map (fun e =>
          let ts := cs.map (fun c => (nth ws c .nan).mul (decodeVal q.vfmt (nth (tgetD (nth vals hd []) c []) e 0)))
          v32 (r32 ((treeSum 1 ts.length ts).mul (scaleVal (q.sg / 4 % 2) (cal.getD (hd * 2 * ng + ng + e / gSize (sG h)) 0)))))))
      (s, .ok { dst := [(sDst h, outBlock 0x01 (q.kvh * bb) dd out)], acc := [] })))

/-- The partial blocks and state records of SMX_MERGE, each checked (06 R253, 05 R190). -/
def readPartials (v : SEnv) (h : Hdr) (b : Nat) : List Nat → List (List Val × List Byte) → State → State × Except Nat (List (List Val × List Byte))
  | [], acc, s => (s, .ok acc)
  | j :: r, acc, s =>
    let n := sN h * sK h
    thenE (v.chk b (sSrc h + j * blockLen 0x01 n) 0x01 0 0 0 s) (fun _ s =>
      thenE (v.vals b (sSrc h + j * blockLen 0x01 n) 0x01 n s) (fun xs s =>
        thenE (v.rd b (sAux h + j * alignUp (8 * sN h) 64) (8 * sN h) s) (fun rb s => readPartials v h b r (acc ++ [(xs, rb)]) s)))

/-- SMX_MERGE (06 R253). -/
def wMerge (v : SEnv) (h : Hdr) (b : Nat) (s : State) : State × Except Nat SOut :=
  thenE (readPartials v h b (List.range (sParam h + 1)) [] s) (fun ps s =>
    let row := fun (r : Nat) =>
      let ms := ps.map (fun p => BitVec.ofNat 32 (le p.2 (8 * r) 4))
      let ss := ps.map (fun p => BitVec.ofNat 32 (le p.2 (8 * r + 4) 4))
      let m := ms.foldl max32 (ms.headD 0)
      let w := List.zipWith (fun s' m' => mul32 s' (sExp (sub32 m' m))) ss ms
      let os := (List.range (sK h)).map (fun e =>
        v32 (div32 (sum32 (List.zipWith (fun w' (p : List Val × List Byte) => mul32 w' (r32 (nth p.1 (r * sK h + e) .nan))) w ps)) (sum32 w)))
      (os, m, sum32 w)
    let rows := (List.range (sN h)).map row
    let rcd := rows.flatMap (fun x => toLE x.2.1.toNat 4 ++ toLE x.2.2.toNat 4)
    (s, .ok { dst := [(sDst h, outBlock (sFmtO h) (sN h) (sK h) (rows.flatMap (·.1)))]
                ++ (if sScl h = 0 then [] else [(sScl h, padTo (alignUp rcd.length 64) rcd)]), acc := [] }))

/-- Bytes of the output of KV_SCORE or KV_APPLY in each bank set (06 R251, R252). -/
def kvLen (q : Seq) (h : Hdr) : Nat :=
  if sFn h = 0 then q.kvh * sB h * sK h * 2 else blockLen 0x01 (q.kvh * sB h * headDim q.headDim)

/-- The work of KV_SCORE or KV_APPLY (06 R251-R254). It reads the page table of the layer and the calibration table; a PARKED or EXPIRED page of the
layer, or a closed sequence, stops it with PAGE_FAULT. A sequence whose page table was written over gives undefined results (R225): free bytes. -/
def kvJob (v : SEnv) (h : Hdr) (s : State) : State × Except EOut SJob :=
  match liveSeq s v.ctx (uSeq h), s.getDesc (v.ctx * 65536 + uDesc h) with
  | some q, some d =>
    let x := adescOf d.bytes
    let len := kvLen q h
    let n := q.kvh * sB h * headDim q.headDim
    let hd := if sFn h = 0 then none else some (poisonHdr 0x01 (q.kvh * sB h) (headDim q.headDim) (fmtBytes 0x01 n))
    let ng := headDim q.headDim / gSize (sG h)
    let stop := fun (o : EOut) (s : State) => (havocOut v h (ones (sBs h)) len s, Except.error o)
    if q.wild then
      let (k, s) := State.fresh s
      (s, .ok { len := len, hd := none, head := false, work := fun b s => (s, .ok { dst := [(sDst h, (List.range len).map (fun i => Config.freeByte k (b * 2 ^ 30 + i)))], acc := [] }) })
    else match vaRead v.ctx 0 (q.pt + uLayer h * q.pmax * 8) (q.pmax * 8) s with
      | (s, .fault va) => stop (EOut.stop stPageFault va) s
      | (s, .ecc) => stop (EOut.stop stEccUncorr 0) s
      | (s, .ok _) =>
        if (pagesOf s (uSeq h)).any (fun e => e.2.layer = uLayer h && (e.2.st = .parked || e.2.st = .expired)) then
          stop (EOut.stop stPageFault (q.pt + uLayer h * q.pmax * 8)) s
        else match vaRead v.ctx 0 (q.calib + uLayer h * q.kvh * 2 * ng) (q.kvh * 2 * ng) s with
          | (s, .fault va) => stop (EOut.stop stPageFault va) s
          | (s, .ecc) => stop (EOut.stop stEccUncorr 0) s
          | (s, .ok cal) => (s, .ok { len := len, hd := hd, head := sFn h ≠ 0, work := if sFn h = 0 then wScore v h q x cal else wApply v h q x cal })
  | _, _ => (s, .error (EOut.stop stPageFault 0))

/-- The work of SMX_MERGE (06 R253). -/
def mergeJob (v : SEnv) (h : Hdr) : SJob :=
  { len := blockLen (sFmtO h) (sN h * sK h), head := true, hd := some (poisonHdr (sFmtO h) (sN h) (sK h) (fmtBytes (sFmtO h) (sN h * sK h))),
    work := wMerge v h }

/-- The work of a UCALL (05 R202): the three routines of every image; the effect of another loaded routine is its own, which no rule gives (log 25). -/
def ucallJob (v : SEnv) (h : Hdr) (s : State) : State × Except EOut SJob :=
  if sFn h ≤ 1 then kvJob v h s
  else if sFn h = 2 then (s, .ok (mergeJob v h))
  else (s, .ok { len := 0, hd := none, head := false, work := fun _ s => (s, .ok { dst := [], acc := [] }) })

/-! An SQ command from its start to its end. -/

/-- Starts an SQ command: its stop, if it has one (05 R190, R202, R203). -/
def sillStart (v : SEnv) (h : Hdr) (r : Nat) (s : State) : State × Option EOut :=
  if eEop h = 10 then
    match ucallJob v h s with
    | (t, .error o) => (t, some o)
    | (t, .ok j) => sillTry v h j (rewind s t)
  else sillOp v h r s

/-- An SQ command comes to its end (05 R184). -/
def sillFinish (v : SEnv) (h : Hdr) (s : State) : State × EOut :=
  if eEop h = 10 then
    match ucallJob v h s with
    | (t, .error o) => (t, o)
    | (t, .ok j) => sillLand v h j t
  else sillEnd v h s

/-- Row steps of an SQ command's writes to a bank set land while it runs (05 R208); LOADOP and SMX_ARM write none. -/
def sillYield (v : SEnv) (h : Hdr) (b : Nat) (s : State) : State :=
  if eEop h = 1 || eEop h = 8 then s
  else if eEop h = 10 then
    match ucallJob v h (s.onAcc (fun _ => { on := true, who := v.uid, units := [], banks := [] })) with
    | (t, .ok j) => if t.acc.units.isEmpty && t.acc.banks.isEmpty then sillSteps v h j b (s.onFreeCtr (fun _ => t.freeCtr)) else s
    | (_, .error _) => s
  else sillSteps v h (opJob v h) b s

/-- An SQ command is cut (05 R203): further row steps may have landed before the cut; what it wrote is undefined. -/
def sillCutAll (v : SEnv) (h : Hdr) (s : State) : State :=
  let s : State := sillCut v h (forEach (ones (sBs h)) (fun b s => sillYield v h b s) s)
  undefWrites (tgetD s.wlog v.uid []) s

end Sys2Proof.Machine
end

