-- ==== Sys2Proof/Machine/Wicket.lean ====
section
/-! DEFINITION. The Wicket engines (08): placement tables, GATE, COMBINE, SELECT and STEP, and the push checks of WQ bodies. -/

namespace Sys2Proof.Machine

/-- Reads n bytes of a context's address space for an engine. -/
def vRd (c a n : Nat) (s : State) : State × Except EOut (List Byte) := readIf true c 0 0 0 a n s

/-- Writes a list of (address, bytes) of a context's address space for an engine command. -/
def vWr (c owner : Nat) (w : List (Nat × List Byte)) (s : State) : State × EOut :=
  match spWriteAll c owner 0 0 0 w s with
  | (s, .ok) => (s, EOut.ok)
  | (s, .fault va) => (s, EOut.stop stPageFault va)
  | (s, .ecc) => (s, EOut.stop stEccUncorr 0)

/-- Writes a range of a cluster's shared scratchpad; a buffer that it meets is no longer stale (03 R124). -/
def freshen (s : State) (cl a n : Nat) (shadows : List (Nat × Nat)) : State :=
  s.modCore cl (fun c => { c with stale := c.stale.filter (fun i =>
    let b := nth shadows i (0, 0)
    !(decide (b.1 < a + n) && decide (a < b.1 + b.2))) })

/-- The shadow buffers that the image of a core's run declares. -/
def shadowsOf (s : State) (cl : Nat) : List (Nat × Nat) :=
  match (s.coreAt cl).run with
  | some r => match s.getRun r with
    | some x => match s.getProg (x.ctx * 512 + x.prog) with | some p => p.shadow | none => []
    | none => []
  | none => []

/-- A command or a core writes bytes of a shared scratchpad; that of a gated cluster keeps it waiting (01 R39). -/
def sharedPut (owner cl a : Nat) (bs : List Byte) (s : State) : State :=
  if bs.isEmpty then s
  else (noteWrite owner 3 (cl * 2 ^ 20 + a) bs.length (reachCluster cl s)).onSharedMem (fun m => mwrite m (cl * 2 ^ 20 + a) bs)

/-- What an engine command writes to a shared scratchpad ends the staleness of the buffers it meets (03 R124). -/
def sharedWrite (owner cl a : Nat) (bs : List Byte) (s : State) : State :=
  if bs.isEmpty then s else sharedPut owner cl a bs (freshen s cl a bs.length (shadowsOf s cl))

/-! Bodies (08 Table 8.4, Table 8.8, R314, R317). -/

def gT (h : Hdr) : Nat := fld h.w6 63 50 + 1
def gE (h : Hdr) : Nat := fld h.w6 49 40 + 1
def gK (h : Hdr) : Nat := fld h.w6 39 36 + 1
def gSigmoid (h : Hdr) : Bool := bitW h.w6 35
def gNorm (h : Hdr) : Bool := bitW h.w6 34
def gOvf (h : Hdr) : Bool := bitW h.w6 33
def gRR (h : Hdr) : Nat := fld h.w6 32 30
def gBias (h : Hdr) : Bool := bitW h.w6 29
def gCap (h : Hdr) : Nat := fld h.w6 28 13
def gLayer (h : Hdr) : Nat := fld h.w6 12 5
def gSum (h : Hdr) : Nat := fld h.w7 63 47 * 8
def gCluster (h : Hdr) : Nat := fld h.w7 46 40
def gNsum (h : Hdr) : Nat := fld h.w7 39 33
def gLen (h : Hdr) : Nat := fld h.w7 31 0 * 64
def cD (h : Hdr) : Nat := fld h.w7 63 48
def cFmtR (h : Hdr) : Nat := fld h.w7 47 40
def cFmtO (h : Hdr) : Nat := fld h.w7 39 32
/-- SUM and CLUSTER of SELECT, OUT and CLUSTER of STEP. -/
def w6Sum (h : Hdr) : Nat := fld h.w6 63 47 * 8
def w6Cluster (h : Hdr) : Nat := fld h.w6 46 40
def lN (h : Hdr) : Nat := fld h.w5 31 18 + 1
def lCond (h : Hdr) : Nat := fld h.w5 17 16

/-- A placement table header (08 Table 8.2). -/
structure PtHdr where
  fromStep : Nat
  nloc     : Nat
  layers   : Nat
  experts  : Nat
  self     : Nat
  group    : Nat
  ready    : Bool
  epoch    : Nat
deriving DecidableEq, Repr

def ptHdrOf (b : List Byte) : PtHdr :=
  let x := le b 0 16
  { fromStep := le b 16 8, nloc := fldN x 89 80, layers := fldN x 79 72, experts := fldN x 71 61, self := fldN x 60 47,
    group := fldN x 46 32, ready := x.testBit 8, epoch := fldN x 7 0 }

/-- A placement entry (08 Table 8.3). -/
structure PEnt where
  valid : Bool
  dest  : Nat
  lslot : Nat
deriving DecidableEq, Repr

def pEntOf (x : Nat) : PEnt := { valid := x.testBit 31, dest := fldN x 23 10, lslot := fldN x 9 0 }

/-- 08 R299. -/
def unplaceable (p : PtHdr) (e : PEnt) : Bool := !e.valid || decide (p.group ≤ e.dest) || (e.dest = p.self && decide (p.nloc ≤ e.lslot))

/-- Offsets of the parts of a dispatch area: expert counts, destination table, local lists, tags, end (08 Table 8.5). -/
def areaCounts (t k : Nat) : Nat := 64 + alignUp (t * k * 16) 64
def areaDest (t k e : Nat) : Nat := areaCounts t k + alignUp (e * 4) 64
def areaLists (t k e g : Nat) : Nat := areaDest t k e + alignUp (g * 8) 64
def areaTags (t k e g nloc cap : Nat) : Nat := areaLists t k e g + nloc * alignUp (cap * 4) 64
def areaEnd (t k e g nloc cap : Nat) : Nat := areaTags t k e g nloc cap + alignUp (t * k) 64

/-- The dispatch area header (08 Table 8.6). -/
structure DlHdr where
  stale : Nat
  short : Nat
  unpl  : Nat
  rer   : Nat
  drop  : Nat
  ents  : Nat
  toks  : Nat
  self  : Nat
  group : Nat
  layer : Nat
  km1   : Nat
  epoch : Nat
  cap   : Nat
  ptbad : Bool
  pois  : Bool
deriving DecidableEq, Repr

def dlHdrBytes (d : DlHdr) : List Byte :=
  toLE (b2n d.pois + b2n d.ptbad * 2 + d.cap * 2 ^ 47 + d.epoch % 256 * 2 ^ 63 + d.km1 % 16 * 2 ^ 71 + d.layer % 256 * 2 ^ 75
    + d.group % 2 ^ 15 * 2 ^ 83 + d.self % 2 ^ 14 * 2 ^ 98 + d.toks % 2 ^ 16 * 2 ^ 112) 16
  ++ toLE d.ents 4 ++ toLE d.drop 4 ++ toLE d.rer 4 ++ toLE d.unpl 4 ++ toLE d.short 4 ++ toLE d.stale 4 ++ zeros 24

def dlHdrOf (b : List Byte) : DlHdr :=
  let x := le b 0 16
  { stale := le b 36 4, short := le b 32 4, unpl := le b 28 4, rer := le b 24 4, drop := le b 20 4, ents := le b 16 4,
    toks := fldN x 127 112, self := fldN x 111 98, group := fldN x 97 83, layer := fldN x 82 75, km1 := fldN x 74 71, epoch := fldN x 70 63,
    cap := fldN x 62 47, ptbad := x.testBit 1, pois := x.testBit 0 }

/-- A dispatch entry (08 Table 8.7). -/
structure DEnt where
  weight : BitVec 32
  dest   : Nat
  lslot  : Nat
  expert : Nat
  rank   : Nat
  rr     : Bool
  row    : Nat
  epoch  : Nat
  token  : Nat
deriving DecidableEq, Repr

def dEntBytes (d : DEnt) : List Byte :=
  toLE (d.token + d.epoch % 256 * 2 ^ 32 + d.row % 2 ^ 16 * 2 ^ 40 + b2n d.rr * 2 ^ 57 + d.rank * 2 ^ 58 + d.expert * 2 ^ 62 + d.lslot * 2 ^ 72
    + d.dest * 2 ^ 82 + d.weight.toNat * 2 ^ 96) 16

def dEntOf (b : List Byte) : DEnt :=
  let x := le b 0 16
  { weight := BitVec.ofNat 32 (fldN x 127 96), dest := fldN x 95 82, lslot := fldN x 81 72, expert := fldN x 71 62, rank := fldN x 61 58,
    rr := x.testBit 57, row := fldN x 55 40, epoch := fldN x 39 32, token := fldN x 13 0 }

/-! Push checks. -/

/-- A word of a body asks for room in the shared scratchpad of a cluster of the casement. -/
def sharedBad (s : State) (c lg off n : Nat) : Bool :=
  !(s.casAt (ctxCas s c)).clusters.getLsbD (physOf s c lg) || decide (2 ^ 20 < off + n)

/-- 08 R301. The placement table header is read as it stands at the push; one that cannot be read counts as GROUP 0 and NLOC 0 (log 27). -/
def gateCheck (s : State) (c : Nat) (h : Hdr) : State × Bool :=
  let (s, p) := match vRd c h.w5.toNat 64 s with
    | (s, .ok b) => (s, ptHdrOf b)
    | (s, .error _) => (s, ptHdrOf (zeros 64))
  (s, fld h.w6 4 0 ≠ 0 || bitW h.w7 32 || h.w4.toNat % 64 ≠ 0 || h.w5.toNat % 64 ≠ 0
    || gE h < gK h || 65536 < gT h * gK h || (gRR h ≠ 0 && !gOvf h) || gE h < gK h + gRR h || gCap h = 0 || 64 < gNsum h
    || (gNsum h ≠ 0 && sharedBad s c (gCluster h) (gSum h) (8 * (gNsum h + 1)))
    || gLen h < areaEnd (gT h) (gK h) (gE h) p.group p.nloc (gCap h))

/-- The push checks of a WQ body (08 R301, R312, R314, R317): reason and INFO. -/
def wqCheck (s : State) (c : Nat) (h : Hdr) : State × Option (Nat × Nat) :=
  let t := eTarget h
  let e := eEop h
  let bad := fun (b : Bool) => if b then some (rsBadField, t) else none
  let f := fun (x : Nat) => x = 0x01 || x = 0x02
  if e = 1 then
    match gateCheck s c h with
    | (s, true) => (s, some (rsBadField, t))
    | (s, false) => (s, if gOvf h && s.dev.compatLevel < 2 then some (rsLevel, t) else none)
  else if e = 2 then
    (s, bad (fld h.w7 31 0 ≠ 0 || cD h % 64 ≠ 0 || cD h < 64 || 32768 < cD h || !f (cFmtR h) || !f (cFmtO h)))
  else if e = 3 then
    (s, bad (h.w7 ≠ 0 || fld h.w6 39 0 ≠ 0 || fld h.w5 15 0 ≠ 0 || h.w4.toNat % 64 ≠ 0 || sharedBad s c (w6Cluster h) (w6Sum h) 16))
  else
    (s, bad (h.w7 ≠ 0 || fld h.w6 39 0 ≠ 0 || h.w3.toNat % 64 ≠ 0 || h.w4.toNat % 64 ≠ 0 || h.w5.toNat % 64 ≠ 0
      || sharedBad s c (w6Cluster h) (w6Sum h) 16))

/-! GATE. -/

/-- A logit widened to FP32, infinities brought to the largest finite value (08 R303). -/
def logit32 (fmt x : Nat) : BitVec 32 :=
  match decodeVal fmt x with
  | .inf true => 0xFF7FFFFF
  | .inf false => 0x7F7FFFFF
  | v => r32 v

/-- What one token selects: choices, candidates, and the score of each expert (08 R303). -/
structure TokSel where
  choice : List Nat
  cand   : List Nat
  score  : List (BitVec 32)
deriving DecidableEq, Repr

def tokSel (h : Hdr) (ls bias : List (BitVec 32)) : TokSel :=
  let sel := (List.range ls.length).map (fun e => v32 (if gBias h then add32 (nth ls e 0) (nth bias e 0) else nth ls e 0))
  let bad := fun (e : Nat) => (v32 (nth ls e 0)).isNan || (nth sel e .nan).isNan
  let order := (rankRow sel).filter (fun e => !bad e)
  let ok := ls.filter (fun l => !(v32 l).isNan)
  let mx := ok.foldl max32 (ok.headD 0)
  let den := sum32 (ok.map (fun l => sExp (sub32 l mx)))
  { choice := order.take (gK h), cand := (order.drop (gK h)).take (gRR h),
    score := ls.map (fun l => if gSigmoid h then sSigmoid l else div32 (sExp (sub32 l mx)) den) }

/-- Admission so far (08 R304). -/
structure Adm where
  count : Tbl Nat
  ents  : List (Nat × Nat × Nat × Nat × Bool)     -- token, rank, expert, ROW, rerouted: in admission order
  drop  : Nat
  unpl  : Nat
  rer   : Nat
deriving DecidableEq, Repr

/-- One route of the loops of 08 R304. -/
def admitOne (h : Hdr) (ok : Nat → Bool) (sel : List TokSel) (a : Adm) (r t : Nat) : Adm :=
  let x := nth sel t { choice := [], cand := [], score := [] }
  let room := fun (e : Nat) => ok e && decide (tgetD a.count e 0 < gCap h)
  match x.choice[r]? with
  | none => a
  | some e =>
    let n := tgetD a.count e 0
    if room e then { a with count := tset a.count e (n + 1), ents := a.ents ++ [(t, r, e, n, false)] }
    else
      let a := { a with drop := a.drop + 1, unpl := if ok e then a.unpl else a.unpl + 1 }
      match (if gOvf h then x.cand.find? (fun c => !(a.ents.any (fun y => y.1 = t && y.2.2.1 = c)) && room c) else none) with
      | some c =>
        let n := tgetD a.count c 0
        { a with count := tset a.count c (n + 1), ents := a.ents ++ [(t, r, c, n, true)], rer := a.rer + 1 }
      | none => a

/-- Every route, rank by rank (08 R304). -/
def admitAll (h : Hdr) (ok : Nat → Bool) (sel : List TokSel) : Adm :=
  ((List.range (gK h)).flatMap (fun r => (List.range (gT h)).map (fun t => (r, t)))).foldl (fun a x => admitOne h ok sel a x.1 x.2)
    { count := [], ents := [], drop := 0, unpl := 0, rer := 0 }

/-- The dispatch entries, sorted by DEST, LSLOT and ROW (08 R305, R307). -/
def gateEnts (h : Hdr) (p : PtHdr) (pe : List PEnt) (sel : List TokSel) (a : Adm) : List DEnt :=
  let pOf := fun (t e : Nat) => nth (nth sel t { choice := [], cand := [], score := [] }).score e 0
  let ents := a.ents.map (fun x =>
    let mine := (a.ents.filter (fun y => y.1 = x.1)).map (fun y => pOf y.1 y.2.2.1)
    let w := pOf x.1 x.2.2.1
    let q := nth pe x.2.2.1 { valid := false, dest := 0, lslot := 0 }
    ({ weight := if gNorm h then div32 w (sum32 mine) else w, dest := q.dest, lslot := q.lslot, expert := x.2.2.1, rank := x.2.1, rr := x.2.2.2.2,
       row := x.2.2.2.1, epoch := p.epoch, token := x.1 } : DEnt))
  sortBy (fun (d : DEnt) => d.dest * 2 ^ 26 + d.lslot * 2 ^ 16 + d.row) ents

/-- The dispatch area after its header (08 R306, R307). -/
def gateArea (h : Hdr) (p : PtHdr) (a : Adm) (es : List DEnt) : List Byte :=
  let local_ := fun (i : Nat) => (es.filter (fun d => d.dest = p.self && d.lslot = i)).flatMap (fun d => toLE d.token 4)
  padTo (alignUp (gT h * gK h * 16) 64) (es.flatMap dEntBytes)
  ++ padTo (alignUp (gE h * 4) 64) ((List.range (gE h)).flatMap (fun e => toLE (tgetD a.count e 0) 4))
  ++ padTo (alignUp (p.group * 8) 64) ((List.range p.group).flatMap (fun r =>
      toLE (es.filter (fun d => d.dest < r)).length 4 ++ toLE (es.filter (fun d => d.dest = r)).length 4))
  ++ (List.range p.nloc).flatMap (fun i => padTo (alignUp (gCap h * 4) 64) (local_ i))
  ++ zeros (alignUp (gT h * gK h) 64)

/-- The summary: routes of each local slot and their total (08 R308); with NSUM = 0 there is none (log 27). -/
def gateSummary (h : Hdr) (p : PtHdr) (es : List DEnt) : List Byte :=
  if gNsum h = 0 then []
  else
    let loc := es.filter (fun d => d.dest = p.self)
    (List.range (gNsum h)).flatMap (fun i => toLE (loc.filter (fun d => d.lslot = i)).length 8) ++ toLE loc.length 8

/-- A dispatch area header from the body. -/
def gateHdr (h : Hdr) (p : PtHdr) : DlHdr :=
  { stale := 0, short := 0, unpl := 0, rer := 0, drop := 0, ents := 0, toks := gT h, self := p.self, group := p.group, layer := gLayer h,
    km1 := gK h - 1, epoch := p.epoch, cap := gCap h, ptbad := false, pois := false }

/-- How a Wicket command ended. -/
def wicketEnd (r : State × Except EOut EOut) : State × EOut :=
  match r with
  | (s, .ok e) => (s, e)
  | (s, .error e) => (s, e)

/-- A failed check (04 R168): the ranges of the output are undefined, then the header `hd` stands at `at_`. -/
def poisonOut (c owner at_ n : Nat) (hd : List Byte) (s : State) : State × Except EOut EOut :=
  let s : State := havocRanges c owner 0 0 0 [(at_, n)] s
  match vWr c owner [(at_, hd)] s with
  | (s, e) => if e.st = stOK then (s.delWlog owner, .error (EOut.stop stScaleSkew 0)) else (s, .error e)

/-- GATE (08 R302-R308). -/
def gateRun (c owner : Nat) (h : Hdr) (s : State) : State × EOut :=
  let dl := h.w4.toNat
  let pt := h.w5.toNat
  let lg := h.w3.toNat
  let cl := physOf s c (gCluster h)
  wicketEnd (
    thenE (vRd c lg 64 s) (fun hb s =>
      let d := dhdrOf hb
      if !((d.fmt = 0x01 || d.fmt = 0x02) && !d.poison && d.rows = gT h && d.cols = gE h) then
        poisonOut c owner dl (gLen h) (dlHdrBytes { gateHdr h (ptHdrOf (zeros 64)) with pois := true }) s
      else
        thenE (vRd c pt 64 s) (fun pb s =>
          let p := ptHdrOf pb
          if !p.ready || p.experts ≠ gE h || p.layers ≤ gLayer h || p.group ≤ p.self then
            let (s, e) := vWr c owner [(dl, dlHdrBytes { gateHdr h p with ptbad := true })] s
            if e.st ≠ stOK then (s, .error e)
            else (sharedWrite owner cl (gSum h) (zeros (if gNsum h = 0 then 0 else 8 * (gNsum h + 1))) s, .ok EOut.ok)
          else
            thenE (vRd c (pt + 64 + gLayer h * gE h * 4) (gE h * 4) s) (fun eb s =>
              let pe := (List.range (gE h)).map (fun e => pEntOf (le eb (4 * e) 4))
              let n := fmtBytes d.fmt (gT h * gE h)
              thenE (vRd c (lg + 64) n s) (fun xb s =>
                thenE (readIf (gBias h) c 0 0 0 (lg + 64 + n) (gE h * 4) s) (fun bb s =>
                  let bias := (List.range (gE h)).map (fun e => BitVec.ofNat 32 (le bb (4 * e) 4))
                  let ls := (elems d.fmt (gT h * gE h) xb).map (logit32 d.fmt)
                  let sel := (List.range (gT h)).map (fun t => tokSel h ((ls.drop (t * gE h)).take (gE h)) bias)
                  let a := admitAll h (fun e => !unplaceable p (nth pe e { valid := false, dest := 0, lslot := 0 })) sel
                  let es := gateEnts h p pe sel a
                  let short := ((List.range (gT h)).filter (fun t => decide ((a.ents.filter (fun y => y.1 = t)).length < gK h))).length
                  let hd := { gateHdr h p with short := short, unpl := a.unpl, rer := a.rer, drop := a.drop, ents := es.length }
                  let (s, e) := vWr c owner [(dl, dlHdrBytes hd ++ gateArea h p a es)] s
                  if e.st ≠ stOK then (s, .error e)
                  else
                    let s : State := s.putArea (c * 2 ^ 52 + dl) (gE h, p.nloc)
                    (sharedWrite owner cl (gSum h) (gateSummary h p es) s, .ok EOut.ok)))))))

/-! COMBINE. -/

/-- The tag bytes of a dispatch area: where they stand follows from E and NLOC of the GATE that wrote it; of any other area no rule says, and
they are free values (log 26). -/
def readTags (c dl : Nat) (d : DlHdr) (s : State) : State × Except EOut (List Byte) :=
  match s.getArea (c * 2 ^ 52 + dl) with
  | some (e, nloc) => vRd c (dl + areaTags d.toks (d.km1 + 1) e d.group nloc d.cap) d.ents s
  | none =>
    let (k, s) := s.fresh
    (s, .ok (freeBytes k d.ents))

/-- Reads the result rows of the entries whose tag is 1, others as none. -/
def readResults (c a n : Nat) : List (Nat × Bool) → List (Option (List Byte)) → State → State × Except EOut (List (Option (List Byte)))
  | [], acc, s => (s, .ok acc)
  | (_, false) :: r, acc, s => readResults c a n r (acc ++ [none]) s
  | (i, true) :: r, acc, s => thenE (vRd c (a + i * n) n s) (fun bs s => readResults c a n r (acc ++ [some bs]) s)

/-- One output row of COMBINE (08 R313). -/
def combineRow (fmtR d : Nat) (init : List (BitVec 32)) (es : List (DEnt × Option (List Byte))) : List (BitVec 32) :=
  es.foldl (fun acc x => match x.2 with
    | some bs => List.zipWith (fun a y => add32 a (mul32 x.1.weight y)) acc (rowF32 fmtR d bs)
    | none => acc) init

/-- The address of the missing count (08 R313). -/
def missingAt (h : Hdr) (t : Nat) : Nat := alignUp (h.w5.toNat + 64 + t * fmtBytes (cFmtO h) (cD h)) 64

/-- COMBINE (08 R313). -/
def combineRun (c owner : Nat) (h : Hdr) (s : State) : State × EOut :=
  let dl := h.w3.toNat
  let dd := cD h
  let out := h.w5.toNat
  let rs := h.w6.toNat
  let rowO := fmtBytes (cFmtO h) dd
  match vRd c dl 64 s with
  | (s, .error e) => (s, e)
  | (s, .ok hb) =>
    let d := dlHdrOf hb
    let t := d.toks
    wicketEnd (
      thenE (readIf (rs ≠ 0) c 0 0 0 rs 64 s) (fun rb s =>
        let rh := dhdrOf rb
        if d.pois || (rs ≠ 0 && (rh.fmt ≠ cFmtO h || rh.poison)) then
          poisonOut c owner out (missingAt h t + 4 - out) (poisonHdr (cFmtO h) t dd (t * rowO)) s
        else
          thenE (vRd c (dl + 64) (d.ents * 16) s) (fun eb s =>
            thenE (readTags c dl d s) (fun tags s =>
              let ents := (List.range d.ents).map (fun i => dEntOf (eb.drop (16 * i)))
              let have_ := (List.range d.ents).map (fun i => (i, decide (nth tags i 0 = 1)))
              thenE (readResults c h.w4.toNat (fmtBytes (cFmtR h) dd) have_ [] s) (fun rows s =>
                thenE (readIf (rs ≠ 0) c 0 0 0 (rs + 64) (t * rowO) s) (fun resb s =>
                  let both := ents.zip rows
                  let outs := (List.range t).map (fun i =>
                    let init := if rs ≠ 0 then rowF32 (cFmtO h) dd ((resb.drop (i * rowO)).take rowO) else List.replicate dd f32Zero
                    combineRow (cFmtR h) dd init (sortBy (fun x : DEnt × Option (List Byte) => x.1.rank) (both.filter (fun x => x.1.token = i))))
                  let miss := (both.filter (fun x => decide (x.1.token < t) && x.2.isNone)).length
                  let enc := outs.map (fun r => r.map (fun v => encodeVal (cFmtO h) (v32 v)))
                  let hd := dhdrBytes { len := t * rowO, rows := t, cols := dd, fmt := cFmtO h, g := 0, sfmt := 0, poison := false,
                                        nanz := enc.any (fun r => r.any (·.2)), tag := 0 }
                  let (s, e) := vWr c owner [(out, hd ++ enc.flatMap (fun r => packElems (cFmtO h) (r.map (·.1)))), (missingAt h t, toLE miss 4)] s
                  if e.st = stOK then (s, .ok EOut.ok) else (s, .error e)))))))

/-! SELECT and STEP. -/

/-- v_i against THRESH (08 R317): a NaN fails every condition. -/
def selCond (k : Nat) (v t : Val) : Bool :=
  if v.isNan || t.isNan then false
  else if k = 0 then t.lt v else if k = 1 then !v.lt t else if k = 2 then v.lt t else !t.lt v

/-- SELECT (08 R317). -/
def selectRun (c owner : Nat) (h : Hdr) (s : State) : State × EOut :=
  let n := lN h
  let dst := h.w4.toNat
  let cl := physOf s c (w6Cluster h)
  wicketEnd (
    thenE (vRd c h.w3.toNat 64 s) (fun hb s =>
      let d := dhdrOf hb
      if !((d.fmt = 0x01 || d.fmt = 0x02) && !d.poison && d.rows * d.cols = n) then (s, .error (EOut.stop stScaleSkew 0))
      else
        thenE (vRd c (h.w3.toNat + 64) (fmtBytes d.fmt n) s) (fun xb s =>
          let xs := (elems d.fmt n xb).map (decodeVal d.fmt)
          let th := v32 (BitVec.ofNat 32 (fld h.w5 63 32))
          let pass := (List.range n).filter (fun i => selCond (lCond h) (nth xs i .nan) th)
          let fail := (List.range n).filter (fun i => !selCond (lCond h) (nth xs i .nan) th)
          let (s, e) := vWr c owner [(dst, toLE pass.length 4 ++ toLE fail.length 4), (dst + 64, (pass ++ fail).flatMap (fun i => toLE i 4))] s
          if e.st ≠ stOK then (s, .error e)
          else (sharedWrite owner cl (w6Sum h) (toLE pass.length 8 ++ toLE fail.length 8) s, .ok EOut.ok))))

/-- The step record (08 R314): STEP, EPOCH, SEL, LATE. -/
def stepRec (step epoch : Nat) (sel late : Bool) : List Byte := padTo 64 (toLE (step % 2 ^ 64) 8 ++ toLE (epoch + b2n sel * 256 + b2n late * 512) 2)

/-- The table that step number n selects, from SEL and the headers of A and B (08 R314): true B. -/
def stepSel (n : Nat) (old : Bool) (a b : PtHdr) : Bool :=
  let can := fun (p : PtHdr) => p.ready && decide (p.fromStep ≤ n)
  if can a && can b then decide (a.fromStep < b.fromStep) else if can a then false else if can b then true else old

/-- LATE of step n (08 R314). -/
def stepLate (n : Nat) (sel : Bool) (a b : PtHdr) : Bool :=
  let x := if sel then a else b
  let y := if sel then b else a
  !x.ready && decide (x.fromStep ≤ n) && decide (y.fromStep < x.fromStep)

/-- Remembers which record and tables a casement's STEP named (10 R405), and at which step it changed SEL (08 R315); `sw` is that step. -/
def notePlace (c rec a b : Nat) (sw : Option Nat) (s : State) : State :=
  s.modCas (ctxCas s c) (fun v => { v with place := some (match v.place with
    | some p => { p with ctx := c, recAddr := rec, tabA := a, tabB := b, switchAt := sw.getD p.switchAt }
    | none => { ctx := c, recAddr := rec, tabA := a, tabB := b, staged := false, epoch := 0, loads := [], committed := none, old := [], freed := [], switchAt := sw.getD 0, lastDone := (0, 0) }) })

/-- STEP (08 R314). -/
def stepRun (c owner : Nat) (h : Hdr) (s : State) : State × EOut :=
  let cl := physOf s c (w6Cluster h)
  wicketEnd (
    thenE (vRd c h.w3.toNat 64 s) (fun rb s =>
      thenE (vRd c h.w4.toNat 64 s) (fun ab s =>
        thenE (vRd c h.w5.toNat 64 s) (fun bb s =>
          let a := ptHdrOf ab
          let b := ptHdrOf bb
          let n := (le rb 0 8 + 1) % 2 ^ 64
          let sel := stepSel n ((le rb 8 2).testBit 8) a b
          let late := stepLate n sel a b
          let ep := if sel then b.epoch else a.epoch
          let (s, e) := vWr c owner [(h.w3.toNat, stepRec n ep sel late)] s
          if e.st ≠ stOK then (s, .error e)
          else
            let s : State := notePlace c h.w3.toNat h.w4.toNat h.w5.toNat (if sel = (le rb 8 2).testBit 8 then none else some n) s
            (sharedWrite owner cl (w6Sum h) (toLE (if sel then h.w5 else h.w4).toNat 8 ++ toLE (n % 2 ^ 32 * 2 ^ 32 + b2n late * 256 + ep) 8) s, .ok EOut.ok)))))

end Sys2Proof.Machine
end

