-- ==== Sys2Proof/Machine/Link.lean ====
section
/-! DEFINITION. Flits on their way: ranks and coordinates (10 R376), dimension-order routing (R374), the virtual channels and the service
of a port (R375), replay (R370), and management messages (R389). -/

namespace Sys2Proof.Machine

/-- Port states (10 Table 10.3). -/
def portCode : PortSt → Nat
  | .down => 0 | .train => 1 | .negotiate => 2 | .up => 3 | .miswired => 4 | .retrain => 5

/-- Size of dimension d of the group's torus. -/
def dimSize (s : State) (d : Nat) : Nat := nth s.fab.sizes d 1

/-- Coordinate d of a rank (10 R376). -/
def rankCoord (s : State) (r d : Nat) : Nat :=
  r / ((List.range d).map (dimSize s)).foldl (· * ·) 1 % Nat.max 1 (dimSize s d)

/-- The rank of coordinates. -/
def coordRank (s : State) (c : List Nat) : Nat :=
  nth c 0 0 + dimSize s 0 * (nth c 1 0 + dimSize s 1 * (nth c 2 0 + dimSize s 2 * nth c 3 0))

/-- Whether the way from x to y in a ring of n is positive: the shorter one, positive on a tie (10 R374). -/
def goesPos (x y n : Nat) : Bool := decide (2 * ((y + n - x) % n) ≤ n)

/-- The ports of a dimension and direction. -/
def dirPorts (s : State) (d : Nat) (pos : Bool) : List Nat := ones (nth s.fab.portmap (2 * d + (if pos then 0 else 1)) 0)

/-- The port of a direction that a flow keeps to (10 R374), if it is UP. -/
def flowPort (s : State) (l : List Nat) (f : Flit) : Option Nat :=
  match l[Config.flowHash f.src f.dst f.plan % Nat.max 1 l.length]? with
  | some p => if (s.portAt p).st = .up then some p else none
  | none => none

/-- The dimension and direction a port leads to. -/
def portDir (s : State) (p : Nat) : Option (Nat × Bool) :=
  (List.range 4).findSome? (fun d =>
    if (dirPorts s d true).contains p then some (d, true) else if (dirPorts s d false).contains p then some (d, false) else none)

/-- The first dimension in which a rank lies elsewhere, and the shorter way there (10 R374). -/
def firstHop (s : State) (dst : Nat) : Option (Nat × Bool) :=
  ((List.range 4).find? (fun d => rankCoord s s.fab.rank d ≠ rankCoord s dst d)).map (fun d =>
    (d, goesPos (rankCoord s s.fab.rank d) (rankCoord s dst d) (dimSize s d)))

/-- The ports over which data for a rank leaves this member. -/
def hopPorts (s : State) (dst : Nat) : List Nat := match firstHop s dst with | some (d, pos) => dirPorts s d pos | none => []

/-- The next rank in a dimension and direction. -/
def nextRank (s : State) (r d : Nat) (pos : Bool) : Nat :=
  let n := Nat.max 1 (dimSize s d)
  coordRank s ((List.range 4).map (fun k =>
    let x := rankCoord s r k
    if k = d then (if pos then (x + 1) % n else (x + n - 1) % n) else x))

/-- The rank that the topology map expects behind a port (10 R376). -/
def expectRank (s : State) (p : Nat) : Option Nat := (portDir s p).map (fun dd => nextRank s s.fab.rank dd.1 dd.2)

/-- Where a flit goes next (10 R374): port, virtual channel, and whether it has been turned; none where it is dropped. `from_` is the port it
came in on: within a dimension it keeps its direction. A flit meets an unusable port where the one of its flow is not UP: it is turned the first
time and dropped the second. Where it crosses from coordinate X_d - 1 to 0 it moves from channel 0 to 1 (R375). `via` are the ports of its
plan's step, at the member that sends it. -/
def routeVia (s : State) (from_ : Option Nat) (via : List Nat) (f : Flit) : Option (Nat × Nat × Bool) :=
  match firstHop s f.dst with
  | none => none
  | some (d, short) =>
    let n := dimSize s d
    let came := match from_ with
      | some p => (match portDir s p with | some (d', pos) => if d' = d then some (!pos) else none | none => none)
      | none => none
    let dir := came.getD short
    let vcOf := fun (pos : Bool) => if f.vc = 0 && pos && rankCoord s s.fab.rank d + 1 = n then 1 else f.vc
    match flowPort s (if via.isEmpty then dirPorts s d dir else via) f with
    | some p => some (p, vcOf dir, f.turned)
    | none =>
      if f.turned then none
      else match flowPort s (dirPorts s d (!dir)) f with
        | some p => some (p, vcOf (!dir), true)
        | none => none

/-- A flit joins those that wait on its port for their channel's turn (10 R375), or is dropped. -/
def sendVia (from_ : Option Nat) (via : List Nat) (f : Flit) (s : State) : State :=
  match routeVia s from_ via f with
  | some (p, vc, t) => s.modPort p (fun y => { y with wait := y.wait ++ [(from_, { f with vc := vc, turned := t })] })
  | none => s

/-- Forwards a flit, or drops it. -/
def sendFlit (from_ : Option Nat) (f : Flit) (s : State) : State := sendVia from_ [] f s

/-- A port changes its state (a calibration in hand ends where it leaves UP, 10 R372); its Mullion processor logs PORT_STATE (13 Table
13.14). Where it leaves UP, the flits that wait on it take another way (R374). -/
def setPort (p : Nat) (st : PortSt) (s : State) : State :=
  let x := s.portAt p
  if x.st = st then s
  else
    let s : State := trace (2 + p / 8 % 2) 0x3001 1 (BitVec.ofNat 64 p) (BitVec.ofNat 64 (portCode st)) (s.modPort p (fun x =>
      { x with st := st, calib := if st = .up then x.calib else [], lcal := if st = .up then x.lcal else none, wait := if st = .up then x.wait else [] }))
    if st = .up then s else forEach x.wait (fun f => sendFlit f.1 f.2) s

/-! Service of a port (10 R370, R375). -/

/-- The flit that a port serves next: channel 3 first, then 2, then 0 and 1 in turn. -/
def nextFlit (y : Port) : Option (Option Nat × Flit) :=
  let of := fun (v : Nat) => y.wait.find? (fun f => f.2.vc = v)
  (((of 3).or (of 2)).or (of y.rr)).or (of (1 - y.rr))

/-- Sends the waiting flits of an UP port in the order of service: each takes a link sequence number and is held until it is acknowledged, at
most 256 of them (10 R370; log 58); below link level 2 its EPOCH is 0 (Table 10.4). -/
def servePort (p : Nat) : Nat → State → State
  | 0, s => s
  | n + 1, s =>
    let x := s.portAt p
    if x.st ≠ .up || 256 ≤ x.replay.length then s
    else match nextFlit x with
      | none => s
      | some f =>
        let g : Flit := { f.2 with lseq := x.nextSeq, epoch := if x.level < 2 then 0 else f.2.epoch }
        let s : State := s.modPort p (fun y => { y with
          wait := y.wait.erase f, rr := if f.2.vc < 2 then 1 - f.2.vc else y.rr, nextSeq := (y.nextSeq + 1) % 4096, replay := y.replay ++ [(f.1, g)] })
        servePort p n (s.onOut (fun o => { o with flits := (p, g) :: o.flits }))

/-- Every port sends what it may. -/
def servePorts (s : State) : State := forEach (tkeys s.port) (fun p s => servePort p (s.portAt p).wait.length s) s

/-- The peer acknowledges everything up to a flit held (10 R370); the failed replays of the next are counted anew. -/
def portAck (p seq : Nat) (s : State) : State :=
  s.modPort p (fun y => if y.replay.any (fun f => f.2.lseq = seq) then
    { y with replay := (y.replay.dropWhile (fun f => f.2.lseq ≠ seq)).drop 1, fails := 0 } else y)

/-- What a port sends on its link beside flits. -/
def linkSend (p : Nat) (m : LinkOut) (s : State) : State := s.onOut (fun o => { o with links := (p, m) :: o.links })

/-- What this end reports of itself in NEGOTIATE (10 R367): digest, level, and once it has joined its group and place. -/
def ownIdent (s : State) : PeerId :=
  let j := s.fab.member || s.fab.wait = .joining
  { digest := Config.fabDigest, level := s.dev.compatLevel, joined := j, group := if j then s.fab.group else 0, rank := if j then s.fab.rank else 0 }

/-- Every link that has locked hears anew who this end is. -/
def identAll (s : State) : State :=
  forEach (List.range 16) (fun p s =>
    if [PortSt.negotiate, .up, .miswired].contains (s.portAt p).st then linkSend p (.ident (ownIdent s)) s else s) s

/-! Flits of this member. -/

/-- The header of a flit (10 Table 10.4). -/
def Flit.header (f : Flit) : BitVec 128 :=
  BitVec.ofNat 14 f.dst ++ BitVec.ofNat 14 f.src ++ BitVec.ofNat 4 f.type ++ BitVec.ofNat 2 f.vc ++ BitVec.ofNat 8 f.epoch ++ 0#6
  ++ BitVec.ofNat 12 f.plan ++ BitVec.ofNat 16 f.cseq ++ BitVec.ofNat 12 f.step ++ BitVec.ofNat 28 f.offset ++ BitVec.ofNat 12 f.lseq

/-- A flit of this member with every field it does not use at 0. -/
def newFlit (s : State) (dst type vc : Nat) : Flit :=
  { dst := dst, src := s.fab.rank, type := type, vc := vc, epoch := 0, plan := 0, cseq := 0, step := 0, offset := 0, lseq := 0, row := 0, entry := 0,
    slot := 0, ret := false, counts := [], turned := false, payload := [] }

/-- Own message version (10 R389): the N of the Mullion image. -/
def ownMver (s : State) : Nat := (s.procAt 2).ver

/-- The version this member sends in (10 R389): the one in use in its group, which is the lowest among the members, or its own outside one. -/
def sendMver (s : State) : Nat := if s.fab.member then s.fab.mver else ownMver s

/-- A message of version v is accepted (10 R389): N and N - 1. -/
def takesMver (s : State) (v : Nat) : Bool := v = ownMver s || v + 1 = ownMver s

/-- The 12 bytes each management message begins with (10 R389). -/
def msgHead (s : State) (ver code : Nat) : List Byte :=
  toLE (ver % 256) 1 ++ toLE code 1 ++ toLE s.fab.group.toNat 4 ++ toLE s.fab.rank 2 ++ toLE s.fab.msgSeq 4

/-- A management message in a given version (10 R389), as code and fields: TYPE 2 flits on channel 2, each a head and 244 bytes of the body, and
the model's record of what it says. Codes and bodies are the model's (log 35). -/
def sendMsgV (ver dst : Nat) (fields : List Nat) (s : State) : State :=
  let body := (fields.drop 1).flatMap (fun x => toLE x 8)
  let head := msgHead s ver (nth fields 0 0)
  let s : State := forEach (List.range (Nat.max 1 ((body.length + 243) / 244))) (fun i s =>
    sendFlit none { newFlit s dst 2 2 with offset := i, payload := padTo 256 (head ++ (body.drop (244 * i)).take 244) } s) s
  (s.onFab (fun f => { f with msgSeq := (f.msgSeq + 1) % 2 ^ 32 })).onOut (fun o => { o with msgs := (dst, fields) :: o.msgs })

/-- A management message of this member's own. -/
def sendMsg (dst : Nat) (fields : List Nat) (s : State) : State := sendMsgV (sendMver s) dst fields s

end Sys2Proof.Machine
end

