-- ==== Sys2Proof/Machine/Mullion.lean ====
section
/-! DEFINITION. Mullion collectives (10 R393-R401): the MQ body and its push checks, the steps of a plan, DISPATCH and RETURN. What the flits
of these carry beside the fields of Table 10.4 is the model's (log 28). -/

namespace Sys2Proof.Machine

/-! MQ body (10 Table 10.10). -/

def mSrc (h : Hdr) : Nat := h.w3.toNat
def mDst (h : Hdr) : Nat := h.w4.toNat
def mPlan (h : Hdr) : Nat := fld h.w5 63 48
def mFmt (h : Hdr) : Nat := fld h.w5 47 40
def mRop (h : Hdr) : Nat := fld h.w5 39 38
def mRoot (h : Hdr) : Nat := fld h.w5 37 24
def mCount (h : Hdr) : Nat := fld h.w6 63 32
def mSum (h : Hdr) : Nat := fld h.w6 31 15 * 8
def mCluster (h : Hdr) : Nat := fld h.w6 14 8
def mAux (h : Hdr) : Nat := h.w7.toNat

/-- The plan kind of an opcode, in the order of HANDLES (10 Table 10.6). -/
def planKind (eop : Nat) : Nat := if eop ≤ 6 then eop - 1 else if eop = 7 then 5 else eop - 2

/-- The level in force for an MQ push: the group level of its plan (10 R393). -/
def mqLevel (s : State) (h : Hdr) : Nat := match s.getPlan (mPlan h) with | some p => p.level | none => 2

/-- The push checks of an MQ body (10 R394): reason and INFO. AUX is 0 where Table 10.10 says so, and a summary must lie in a cluster of the
casement (log 29). -/
def mqCheck (s : State) (c : Nat) (h : Hdr) : Option (Nat × Nat) :=
  let t := eTarget h
  let e := eEop h
  match s.getPlan (mPlan h) with
  | none => some (rsBadHandle, t)
  | some p =>
    if !p.usable || p.closed || !p.cases.getLsbD (ctxCas s c) || p.kind ≠ planKind e then some (rsBadHandle, t)
    else
      let red := e = 1 || e = 2
      let rows := e = 6 || e = 7
      if (if red then !([0x01, 0x02, 0x03].contains (mFmt h)) || mRop h = 3 else mFmt h ≠ 0 || mRop h ≠ 0)
          || mCount h = 0 || (rows && mCount h % 64 ≠ 0)
          || !(p.ranks.contains (mRoot h)) || (e = 6 && sharedBad s c (mCluster h) (mSum h) 512)
          || (!rows && mAux h ≠ 0) || fld h.w5 7 0 ≠ 0 || fld h.w6 7 0 ≠ 0 then some (rsBadField, t)
      else none

/-! A collective. -/

/-- Bytes of an element. -/
def Coll.esz (c : Coll) : Nat := if c.fmt = 0 then 1 else fmtUnit c.fmt

/-- The team of a plan. -/
def planRanks (s : State) (h : Nat) : List Nat := match s.getPlan h with | some p => p.ranks | none => []

/-- Team index of a rank. -/
def teamIndex (l : List Nat) (r : Nat) : Nat := (l.takeWhile (fun x => x ≠ r)).length

/-- Where block i of n begins in the buffer: ALLREDUCE and BROADCAST cut COUNT elements in n parts, the others hold n × COUNT elements. -/
def Coll.blockAt (c : Coll) (n i : Nat) : Nat :=
  if c.kind = 1 || c.kind = 4 then c.count * i / Nat.max 1 n * c.esz
  else if c.kind = 9 then 0
  else i * c.count * c.esz

/-- Byte range of k blocks from block i. -/
def Coll.blocks (c : Coll) (n i k : Nat) : Nat × Nat := (Coll.blockAt c n i, Coll.blockAt c n (i + k) - Coll.blockAt c n i)

/-- Bytes a member reads from SRC, and the length of the buffer and of DST (10 Table 10.9). -/
def Coll.srcLen (c : Coll) (n : Nat) (me : Nat) : Nat :=
  if c.kind = 2 then n * c.count * c.esz else if c.kind = 4 then (if me = c.root then c.count * c.esz else 0)
  else if c.kind = 9 then 0 else c.count * c.esz
def Coll.bufLen (c : Coll) (n : Nat) : Nat :=
  if c.kind = 2 || c.kind = 3 || c.kind = 5 then n * c.count * c.esz else if c.kind = 9 then 0 else c.count * c.esz

/-- What a member's DST holds at the end; none where it has none. -/
def Coll.result (c : Coll) (l : List Nat) (me : Nat) : List Byte :=
  if c.kind = 2 then (c.buf.drop (teamIndex l me * c.count * c.esz)).take (c.count * c.esz)
  else if c.kind = 5 then (if me = c.root then c.buf else [])
  else c.buf

/-- The ring of a team (10 R400): successor and predecessor of a rank. -/
def ringNext (l : List Nat) (r : Nat) : Nat := nth l ((teamIndex l r + 1) % Nat.max 1 l.length) r
def ringPrev (l : List Nat) (r : Nat) : Nat := nth l ((teamIndex l r + l.length - 1) % Nat.max 1 l.length) r

/-- The steps a collective takes: those of its plan, for its ROOT, or the one of RING_SHIFT. -/
def collSteps (s : State) (c : Coll) : List PlanStep :=
  match s.getPlan c.plan with
  | none => []
  | some p =>
    let me := s.fab.rank
    if c.kind = 8 then
      [{ root := 0, sendTo := ringNext p.ranks me, sendOff := 0, sendLen := 1, recvFrom := ringPrev p.ranks me, recvOff := 0, recvLen := 1,
         reduce := false, ports := hopPorts s (ringNext p.ranks me) }]
    else if c.kind = 4 || c.kind = 5 then p.steps.filter (fun x => x.root = c.root) else p.steps

/-- Marks an engine command as ended. -/
def endCmd (cl uid : Nat) (o : EOut) (s : State) : State :=
  s.modCore cl (fun c => { c with eq := c.eq.map (fun e => if e.uid = uid then { e with st := .done o.st o.addr } else e) })

/-- A collective ends with a status (10 R397). -/
def collEnd (uid : Nat) (o : EOut) (s : State) : State :=
  match s.getColl uid with
  | none => s
  | some c =>
    let s : State := endCmd c.cl uid o s
    if c.kind = 6 && o.st = stOK then s.updColl uid (fun x => { x with finished := true, buf := [], recv := [], rowsIn := [] }) else s.delColl uid

/-- The landing area that a DISPATCH writes, and the rows of a RETURN's results area (10 R398, R399): length, by the areas' headers. -/
def rowsLen (c : Coll) (s : State) : Nat :=
  if c.kind = 6 then
    match vRd c.ctx c.dst 64 s with
    | (_, .ok hb) => 64 + alignUp (le hb 0 2 % 1024 * 8) 64 + alignUp (le hb 4 4 * 8) 64 + le hb 4 4 * c.count
    | _ => 64
  else
    match s.getColl c.disp with
    | none => 0
    | some d => (match vRd c.ctx d.aux 64 s with | (_, .ok hb) => (dlHdrOf hb).ents * c.count | _ => 0)

/-- A stop of a collective: its DST is undefined (10 R401; 15 R526). -/
def collStop (uid : Nat) (o : EOut) (s : State) : State :=
  match s.getColl uid with
  | none => s
  | some c =>
    let n := (planRanks s c.plan).length
    let len := if c.kind = 2 then c.count * c.esz else if c.kind = 6 || c.kind = 7 then rowsLen c s
      else if c.kind = 5 && s.fab.rank ≠ c.root then 0 else Coll.bufLen c n
    collEnd uid o (if len = 0 then s else havocRanges c.ctx uid 0 0 0 [(c.dst, len)] s)

/-- Combines received elements into the buffer's (10 R396): widened to FP32, rounded to FMT. -/
def reduceBytes (fmt rop : Nat) (a b : List Byte) : List Byte :=
  let n := a.length / Nat.max 1 (fmtUnit fmt)
  let op := fun (x y : BitVec 32) => if rop = 0 then add32 x y else if rop = 1 then max32 x y else min32 x y
  packElems fmt ((List.range n).map (fun i =>
    (encodeVal fmt (v32 (op (r32 (decodeVal fmt (elemAt fmt a i))) (r32 (decodeVal fmt (elemAt fmt b i)))))).1))

/-- The pieces of a byte string as flit payloads; an empty string still takes one flit. -/
def flitPieces (bs : List Byte) : List (Nat × List Byte) :=
  (List.range (Nat.max 1 ((bs.length + 255) / 256))).map (fun i => (i, (bs.drop (256 * i)).take 256))

/-- The largest EXT held from any member of a team (10 R403). -/
def extHeld (s : State) (ranks : List Nat) : Nat :=
  (s.fab.notices.filter (fun e => ranks.contains e.1)).foldl (fun m e => Nat.max m e.2.2.1) 0

/-- The timeout of a collective's steps in µs (10 R401): TOUT or the group default, with the extension in force. -/
def stepLimit (s : State) (c : Coll) : Nat := (if c.tout = 0 then s.fab.stepUs else c.tout) + extHeld s (planRanks s c.plan)

/-- The timeouts in force follow the notices in force (10 R403). -/
def relimit (s : State) : State := s.onColl (tmap (fun _ c => if c.finished then c else { c with limit := stepLimit s c }))

/-- A flit of this collective has not been acknowledged yet. -/
def ownHeld (s : State) (c : Coll) : Bool :=
  s.port.any (fun e => (e.2.wait ++ e.2.replay).any (fun f =>
    f.2.src = s.fab.rank && f.2.type = 0 && f.2.plan = c.plan % 4096 && f.2.cseq = c.cseq))

/-- A flit of a collective. -/
def collFlit (s : State) (c : Coll) (dst type : Nat) : Flit := { newFlit s dst type 0 with plan := c.plan % 4096, cseq := c.cseq, step := c.step }

/-- A member posts its own part of a step (10 R401). -/
def postStep (c : Coll) (p : PlanStep) (s : State) : State :=
  if p.sendTo = s.fab.rank then s
  else
    let r := Coll.blocks c (planRanks s c.plan).length p.sendOff p.sendLen
    forEach (flitPieces ((c.buf.drop r.1).take r.2)) (fun x s =>
      sendVia none p.ports { collFlit s c p.sendTo 0 with offset := x.1, payload := x.2 } s) s

/-- The step in hand has all it awaits; RING_SHIFT awaits the acknowledgement of its own block too (10 R400; log 58). -/
def stepMet (s : State) (c : Coll) (p : PlanStep) : Bool :=
  (p.recvFrom = s.fab.rank || (decide (0 < c.flits) && decide ((Coll.blocks c (planRanks s c.plan).length p.recvOff p.recvLen).2 ≤ c.got)))
  && (c.kind ≠ 8 || !ownHeld s c)

/-- What a step received goes into the buffer. -/
def takeStep (s : State) (c : Coll) (p : PlanStep) : Coll :=
  let r := Coll.blocks c (planRanks s c.plan).length p.recvOff p.recvLen
  let bs := padTo r.2 c.recv
  let old := (c.buf.drop r.1).take r.2
  let new := if p.recvFrom = s.fab.rank then old else if p.reduce then reduceBytes c.fmt c.rop old bs else bs
  { c with buf := overlay c.buf r.1 new, step := c.step + 1, posted := false, recv := [], got := 0, flits := 0 }

/-- Writes DST and ends the collective. -/
def collFinish (uid : Nat) (c : Coll) (s : State) : State :=
  match vWr c.ctx uid [(c.dst, Coll.result c (planRanks s c.plan) s.fab.rank)] s with
  | (s, o) => if o.st = stOK then collEnd uid o s else collStop uid o s

/-- Goes through the steps of a collective as far as what has arrived allows. -/
def collAdvance (uid : Nat) : Nat → State → State
  | 0, s => s
  | n + 1, s =>
    match s.getColl uid with
    | none => s
    | some c =>
      if c.finished || c.kind = 6 || c.kind = 7 then s
      else match (collSteps s c)[c.step]? with
        | none => collFinish uid c s
        | some p =>
          let s : State := if c.posted then s else (postStep c p s).updColl uid (fun x => { x with posted := true, limit := stepLimit s c })
          if stepMet s c p then collAdvance uid n (s.updColl uid (fun x => takeStep s x p)) else s

/-! DISPATCH and RETURN (10 R398, R399). -/

/-- Pieces of a row. -/
def rowPieces (n : Nat) : Nat := Nat.max 1 ((n + 255) / 256)

/-- Whole rows among the pieces: the first piece of each, with the row's bytes. -/
def wholeRows (n : Nat) (l : List Flit) : List (Flit × List Byte) :=
  (l.filter (fun f => f.offset = 0)).filterMap (fun f =>
    let ps := (List.range (rowPieces n)).map (fun i => l.find? (fun g => g.src = f.src && g.entry = f.entry && g.offset = i))
    if ps.all (·.isSome) then some (f, padTo n (ps.flatMap (fun x => match x with | some g => g.payload | none => []))) else none)

/-- Sends a row. -/
def sendRow (c : Coll) (dst row entry slot epoch : Nat) (ret : Bool) (bs : List Byte) (s : State) : State :=
  forEach (flitPieces bs) (fun x s =>
    sendFlit none { collFlit s c dst 1 with offset := x.1, payload := x.2, row := row, entry := entry, slot := slot, epoch := epoch, ret := ret } s) s

/-- Reads the token rows of DISPATCH one by one and sends each. -/
def sendTokens (c : Coll) : List (Nat × DEnt) → State → State × EOut
  | [], s => (s, EOut.ok)
  | (i, e) :: r, s =>
    match vRd c.ctx (c.src + e.token * c.count) c.count s with
    | (s, .error o) => (s, o)
    | (s, .ok bs) => sendTokens c r (sendRow c e.dest e.row i e.lslot e.epoch false bs s)

/-- The entries of a run of a dispatch area that go to a rank: where the destination table has a record of it, its run there; entries that a
program laid out itself are looked through (10 R398; 08 R307; log 26). -/
def destRun (tab : List Byte) (es : List (Nat × DEnt)) (r : Nat) : List (Nat × DEnt) :=
  if 8 * r + 8 ≤ tab.length then (es.drop (le tab (8 * r) 4)).take (le tab (8 * r + 4) 4) else es.filter (fun x => x.2.dest = r)

/-- DISPATCH sends (10 R398): to each team member its routes per slot out of the destination table, zero counts included, for the slots a member
has (log 28), then the rows. -/
def dispatchSend (uid : Nat) (c : Coll) (s : State) : State × EOut :=
  match vRd c.ctx c.aux 64 s with
  | (s, .error o) => (s, o)
  | (s, .ok hb) =>
    let d := dlHdrOf hb
    match vRd c.ctx (c.aux + 64) (16 * d.ents) s with
    | (s, .error o) => (s, o)
    | (s, .ok eb) =>
      let rec_ := s.getArea (c.ctx * 2 ^ 52 + c.aux)
      match (match rec_ with
        | some (e, _) => vRd c.ctx (c.aux + areaDest d.toks (d.km1 + 1) e) (8 * d.group) s
        | none => (s, .ok [])) with
      | (s, .error o) => (s, o)
      | (s, .ok tab) =>
        let es := (List.range d.ents).map (fun i => (i, dEntOf (eb.drop (16 * i))))
        let out := es.filter (fun x => x.2.dest ≠ d.self)
        let nloc := match rec_ with | some (_, n) => n | none => 0
        let s : State := forEach ((planRanks s c.plan).filter (fun r => r ≠ s.fab.rank)) (fun r s =>
          let mine := destRun tab es r
          let top := mine.foldl (fun m x => Nat.max m (x.2.lslot + 1)) nloc
          sendFlit none { collFlit s c r 1 with epoch := d.epoch, counts := (List.range top).map (fun k => (mine.filter (fun x => x.2.lslot = k)).length) } s) s
        let s : State := s.updColl uid (fun x => { x with sent := out.length, epoch := d.epoch })
        sendTokens c out s

/-- Every peer has announced itself. -/
def allCounted (s : State) (c : Coll) : Bool :=
  ((planRanks s c.plan).filter (fun r => r ≠ s.fab.rank)).all (fun r => (tget c.counts r).isSome)

/-- Rows announced. -/
def rowsDue (c : Coll) : Nat := c.counts.foldl (fun n e => n + e.2.foldl (· + ·) 0) 0

/-- The landing area once every row is here (10 R398, Table 10.11): rows of a slot from all senders in ascending rank, in ROW order. TOTAL
counts the rows laid out, OVER the rest (log 30). -/
def landRows (uid : Nat) (c : Coll) (s : State) : State × EOut :=
  match vRd c.ctx c.dst 64 s with
  | (s, .error o) => (s, o)
  | (s, .ok hb) =>
    let nloc := le hb 0 2 % 1024
    let cap := le hb 4 4
    let rows := sortBy (fun (x : Flit × List Byte) => x.1.slot * 2 ^ 32 + x.1.src * 2 ^ 16 + x.1.row) (wholeRows c.count c.rowsIn)
    let kept := rows.take cap
    let slotTab := (List.range nloc).flatMap (fun k =>
      toLE (kept.filter (fun x => x.1.slot < k)).length 4 ++ toLE (kept.filter (fun x => x.1.slot = k)).length 4)
    let srcMap := kept.flatMap (fun x => toLE (x.1.src + x.1.entry % 2 ^ 16 * 2 ^ 14 + x.1.epoch % 256 * 2 ^ 30) 8)
    let a1 := c.dst + 64
    let a2 := a1 + alignUp (nloc * 8) 64
    let a3 := a2 + alignUp (cap * 8) 64
    let w := [(c.dst + 8, toLE kept.length 4 ++ toLE (rows.length - kept.length) 4), (a1, padTo (alignUp (nloc * 8) 64) slotTab), (a2, srcMap)]
      ++ (List.range kept.length).map (fun i => (a3 + i * c.count, (kept.map (·.2)).getD i []))
    let (s, o) := vWr c.ctx uid w s
    if o.st ≠ stOK then (s, o)
    else
      (sharedWrite uid (physOf s c.ctx c.cluster) c.sum ((List.range 64).flatMap (fun k => toLE (kept.filter (fun x => x.1.slot = k)).length 8)) s, o)

/-- DISPATCH goes on as far as what has arrived allows. -/
def dispatchAdvance (uid : Nat) (s : State) : State :=
  match s.getColl uid with
  | none => s
  | some c =>
    if c.finished || !allCounted s c || decide ((wholeRows c.count c.rowsIn).length < rowsDue c) then s
    else match landRows uid c s with
      | (s, o) => if o.st = stOK then collEnd uid o s else collStop uid o s

/-- RETURN sends (10 R399): to each team member how many rows it returns, then the rows of the source map. -/
def returnRowsGo (c : Coll) (smap : List Byte) : List Nat → State → State × EOut
  | [], s => (s, EOut.ok)
  | i :: r, s =>
    match vRd c.ctx (c.src + i * c.count) c.count s with
    | (s, .error o) => (s, o)
    | (s, .ok bs) =>
      let m := le smap (8 * i) 8
      returnRowsGo c smap r (sendRow c (fldN m 13 0) 0 (fldN m 29 14) 0 (fldN m 37 30) true bs s)

def returnSend (c : Coll) (s : State) : State × EOut :=
  match vRd c.ctx c.aux 64 s with
  | (s, .error o) => (s, o)
  | (s, .ok hb) =>
    let nloc := le hb 0 2 % 1024
    let total := le hb 8 4
    match vRd c.ctx (c.aux + 64 + alignUp (nloc * 8) 64) (8 * total) s with
    | (s, .error o) => (s, o)
    | (s, .ok smap) =>
      let s : State := forEach ((planRanks s c.plan).filter (fun r => r ≠ s.fab.rank)) (fun r s =>
        let n := ((List.range total).filter (fun i => fldN (le smap (8 * i) 8) 13 0 = r)).length
        sendFlit none { collFlit s c r 1 with ret := true, counts := [n] } s) s
      returnRowsGo c smap (List.range total) s

/-- Retired epochs of a context in migration: from step 4 to MIG_DONE its rows stamped with one go to the discard sink (11 R437). -/
def sinkEpoch (s : State) (c e : Nat) : Bool :=
  match s.getCtx c with
  | some x => (match x.mig with | some m => m.moved && x.retired.contains e | none => false)
  | none => false

/-- One returned row (08 R311, 11 R437): into the results area with its tag set, or to the discard sink, counted in STALE. -/
def landReturn (uid : Nat) (c : Coll) (area : Nat) (f : Flit) (bs : List Byte) (s : State) : State × EOut :=
  match vRd c.ctx area 64 s with
  | (s, .error o) => (s, o)
  | (s, .ok hb) =>
    let d := dlHdrOf hb
    let low := match s.getPlan c.plan with | some p => decide (p.level < 2) | none => false
    if (low || f.epoch = d.epoch) && !sinkEpoch s c.ctx f.epoch then
      let tag := match s.getArea (c.ctx * 2 ^ 52 + area) with
        | some (e, nloc) => [(area + areaTags d.toks (d.km1 + 1) e d.group nloc d.cap + f.entry, [1])]
        | none => []
      vWr c.ctx uid ((c.dst + f.entry * c.count, bs) :: tag) s
    else vWr c.ctx uid [(area + 36, toLE ((d.stale + 1) % 2 ^ 32) 4)] s

/-- Every whole row of a RETURN lands. -/
def returnLand (uid : Nat) (c : Coll) (area : Nat) : List (Flit × List Byte) → State → State × EOut
  | [], s => (s, EOut.ok)
  | x :: r, s =>
    match landReturn uid c area x.1 x.2 s with
    | (s, o) =>
      if o.st ≠ stOK then (s, o)
      else
        let s : State := s.updColl uid (fun y => { y with landed := x.1.src :: y.landed, rowsIn := y.rowsIn.filter (fun g => !(g.src = x.1.src && g.entry = x.1.entry)) })
        returnLand uid c area r (s.updColl c.disp (fun y => { y with back := y.back + 1 }))

/-- RETURN goes on as far as what has arrived allows; at its end the DISPATCH it answers is forgotten. -/
def returnAdvance (uid : Nat) (s : State) : State :=
  match s.getColl uid with
  | none => s
  | some c =>
    if c.finished then s
    else
      let area := match s.getColl c.disp with | some d => d.aux | none => 0
      match returnLand uid c area (wholeRows c.count c.rowsIn) s with
      | (s, o) =>
        if o.st ≠ stOK then collStop uid o s
        else match s.getColl uid with
          | none => s
          | some c => if allCounted s c && decide (rowsDue c ≤ c.landed.length) then (collEnd uid EOut.ok s).delColl c.disp else s

/-! Flits in. -/

/-- Whether a flit is for the step a collective has in hand. -/
def flitFits (s : State) (c : Coll) (f : Flit) : Bool :=
  !c.finished && f.plan = c.plan % 4096 && f.cseq = c.cseq
  && (if c.kind = 6 || c.kind = 7 then f.type = 1 && f.ret = decide (c.kind = 7)
      else f.type = 0 && f.step = c.step && c.posted && (match (collSteps s c)[c.step]? with | some p => p.recvFrom = f.src | none => false))

/-- Puts a flit into a collective. -/
def takeFlit (c : Coll) (f : Flit) : Coll :=
  if c.kind = 6 || c.kind = 7 then
    (if f.counts ≠ [] || f.payload = [] then { c with counts := tset c.counts f.src f.counts } else { c with rowsIn := c.rowsIn ++ [f] })
  else
    { c with recv := overlay (padTo (Nat.max c.recv.length (256 * f.offset + f.payload.length)) c.recv) (256 * f.offset) f.payload,
             got := c.got + f.payload.length, flits := c.flits + 1 }

/-- A collective goes on, taking what waits for it in the early buffer (10 R395). -/
def collGo (uid : Nat) : Nat → State → State
  | 0, s => s
  | n + 1, s =>
    let k := match s.getColl uid with | some c => (collSteps s c).length + 1 | none => 0
    let s : State := returnOrNot s k
    match s.getColl uid with
    | none => s
    | some c =>
      match s.fab.early.find? (fun e => flitFits s c e.2) with
      | none => s
      | some f => collGo uid n ((s.onFab (fun x => { x with early := x.early.erase f })).updColl uid (fun x => takeFlit x f.2))
where
  returnOrNot (s : State) (k : Nat) : State :=
    match s.getColl uid with
    | none => s
    | some c => if c.kind = 6 then dispatchAdvance uid s else if c.kind = 7 then returnAdvance uid s else collAdvance uid k s

/-- Lets a collective run as far as it can; an access to a gated stack or inside a burst waits (01 R39, 05 R204). -/
def collPump (uid : Nat) (s : State) : State := attempt uid (fun s => collGo uid (s.fab.early.length + 1) s) s

/-- Every collective in flight goes on as far as it can. -/
def collPumpAll (s : State) : State := forEach (tkeys (s.coll.filter (fun e => !e.2.finished))) collPump s

/-- A flit of a collective of this member that has ended: nothing waits for it. -/
def flitLate (s : State) (f : Flit) : Bool :=
  s.fab.cseqs.any (fun e => e.1 % 4096 = f.plan && decide (f.cseq < e.2))
  && !(s.coll.any (fun e => !e.2.finished && e.2.plan % 4096 = f.plan && e.2.cseq = f.cseq))

/-- Whether a data or row flit is taken (10 R395): one that a collective awaits, one whose plan is unknown or whose collective has ended, or
one for which the early buffer of the port's engine has room (1 MiB, 4,096 flits); else credits hold the sender. -/
def flitRoom (s : State) (k : Nat) (f : Flit) : Bool :=
  s.coll.any (fun e => flitFits s e.2 f) || flitLate s f || !(s.plan.any (fun e => e.1 % 4096 = f.plan))
  || decide ((s.fab.early.filter (fun e => e.1 = k)).length < 4096)

/-- A data or row flit for this member: to the early buffer of engine k where its plan is known, and on to the collective it fits (10 R395). -/
def flitIn (k : Nat) (f : Flit) (s : State) : State :=
  if !flitLate s f && s.plan.any (fun e => e.1 % 4096 = f.plan) then
    let s : State := s.onFab (fun x => { x with early := x.early ++ [(k, f)] })
    match s.coll.findSome? (fun e => if flitFits s e.2 f then some e.1 else none) with
    | some u => collPump u s
    | none => s
  else s

/-- The DISPATCH that a returned row answers where the row must go to the discard sink (11 R437): of a context in migration, stamped with a
retired epoch. -/
def sinkOf (s : State) (f : Flit) : Option Nat :=
  if f.type = 1 && f.ret && f.payload ≠ [] then
    ((s.coll.filter (fun e => e.2.kind = 6 && e.2.plan % 4096 = f.plan && e.2.epoch = f.epoch && sinkEpoch s e.2.ctx f.epoch)).getLast?).map (·.1)
  else none

/-- A returned row that waits goes to the discard sink: it stores nothing, and the row counts in STALE and among those returned (11 R437, R438). -/
def sinkRow (x : Nat × Flit) (s : State) : State :=
  match sinkOf s x.2 with
  | none => s
  | some u =>
    attempt u (fun s =>
      let s : State := s.onFab (fun y => { y with early := y.early.erase x })
      if x.2.offset ≠ 0 then s
      else match s.getColl u with
        | none => s
        | some d =>
          match vRd d.ctx d.aux 64 s with
          | (s, .error _) => s.updColl u (fun y => { y with back := y.back + 1 })
          | (s, .ok hb) =>
            (vWr d.ctx u [(d.aux + 36, toLE (((dlHdrOf hb).stale + 1) % 2 ^ 32) 4)] s).1.updColl u (fun y => { y with back := y.back + 1 })) s

/-- Every row that waits for the discard sink. -/
def sinkRows (s : State) : State := forEach s.fab.early sinkRow s

/-- The latest DISPATCH of a context on a plan that a RETURN answers: the DISPATCH that wrote to it last. -/
def dispOf (s : State) (ctx plan : Nat) : Nat :=
  (s.coll.filter (fun e => e.2.kind = 6 && e.2.ctx = ctx && e.2.plan = plan)).foldl (fun m e => Nat.max m e.1) 0

/-- A collective starts on this member (10 R383, R395): on a plan that has become unusable it ends with PEER_LOST at once. It runs within the
attempt of its command's start. -/
def collStart (cl uid ctx : Nat) (h : Hdr) (s : State) : State :=
  match s.getPlan (mPlan h) with
  | none => endCmd cl uid (EOut.stop stPeerLost 0) s
  | some p =>
    if !p.usable then endCmd cl uid (EOut.stop stPeerLost 0) s
    else
      let n := tgetD s.fab.cseqs (mPlan h) 0
      let s : State := s.onFab (fun x => { x with cseqs := tset x.cseqs (mPlan h) ((n + 1) % 2 ^ 16) })
      let me := s.fab.rank
      let c0 : Coll :=
        { cl := cl, uid := uid, ctx := ctx, plan := mPlan h, cseq := n, kind := eEop h, fmt := mFmt h, rop := mRop h, root := mRoot h, dst := mDst h,
          src := mSrc h, count := mCount h, aux := mAux h, sum := mSum h, cluster := mCluster h, tout := fld h.w5 23 8, limit := 0, step := 0, posted := false, buf := [], recv := [],
          got := 0, flits := 0, counts := [], rowsIn := [], landed := [], sent := 0, back := 0, epoch := 0, disp := 0, finished := false }
      let c0 := { c0 with limit := stepLimit s c0 }
      let pump := fun (s : State) => collGo uid (s.fab.early.length + 1) s
      if c0.kind = 6 then
        match dispatchSend uid c0 (s.putColl uid c0) with
        | (s, o) => if o.st = stOK then pump s else collStop uid o s
      else if c0.kind = 7 then
        let c0 := { c0 with disp := dispOf s ctx c0.plan }
        match returnSend c0 (s.putColl uid c0) with
        | (s, o) => if o.st = stOK then pump s else collStop uid o s
      else
        let len := Coll.srcLen c0 p.ranks.length me
        match vRd ctx c0.src len s with
        | (s, .error o) => collStop uid o (s.putColl uid c0)
        | (s, .ok bs) =>
          let buf := if c0.kind = 3 || c0.kind = 5 then overlay (zeros (Coll.bufLen c0 p.ranks.length)) (teamIndex p.ranks me * c0.count * c0.esz) bs
            else padTo (Coll.bufLen c0 p.ranks.length) bs
          pump (s.putColl uid { c0 with buf := buf })

/-- The ranks whose data a collective still waits for: of a step its sender, of RING_SHIFT the successor too while the own block is not
acknowledged; of DISPATCH and RETURN those that have announced nothing or whose rows are not all here. -/
def collAwaits (s : State) (c : Coll) : List Nat :=
  if c.kind = 6 || c.kind = 7 then
    (planRanks s c.plan).filter (fun r => r ≠ s.fab.rank && (match tget c.counts r with
      | none => true
      | some l => decide (((wholeRows c.count c.rowsIn).filter (fun x => x.1.src = r)).length + (c.landed.filter (fun x => x = r)).length
          < l.foldl (· + ·) 0)))
  else match (collSteps s c)[c.step]? with
    | some p => (if p.recvFrom = s.fab.rank then [] else [p.recvFrom]) ++ (if c.kind = 8 && ownHeld s c then [p.sendTo] else [])
    | none => []

/-- A collective in flight whose step was not satisfied in time (10 R401): PEER_LOST, and DST undefined. -/
def collTimeout (uid : Nat) (s : State) : State :=
  match s.getColl uid with
  | none => s
  | some c => if c.finished then s else collStop uid (EOut.stop stPeerLost 0) s

end Sys2Proof.Machine
end

