-- ==== Sys2Proof/Machine/Front.lean ====
section
/-! DEFINITION. The queue front end (03 R103-R109, R119-R124): building an engine command, the checks in order, skips held while their path
is not confirmed, and the resolution of a BRL. -/

namespace Sys2Proof.Machine

/-- Register i of a core; X0 reads as 0 (03 Table 3.1). -/
def Core.xr (c : Core) (i : Nat) : Word := if i = 0 then 0 else tgetD c.x i 0

/-- Writes register i; a write to X0 is ignored. -/
def Core.setX (c : Core) (i : Nat) (v : Word) : Core := if i = 0 then c else { c with x := tset c.x i v }

/-- The command that a PUSH builds (03 R103): the template with word w replaced for each bit w of PATCH by the next register from XBASE. -/
def pushWords (s : State) (cl : Nat) (w : Word) : Hdr :=
  let c := s.coreAt cl
  let t := mread s.sharedMem (cl * 2 ^ 20 + pTmpl w * 64) 64
  let p := pPatch w
  let word := fun (i : Nat) =>
    if p.testBit i then Core.xr c (pXbase w + (bitsWhere i (fun j => p.testBit j)).length) else BitVec.ofNat 64 (le t (8 * i) 8)
  { w0 := word 0, w1 := word 1, w2 := word 2, w3 := word 3, w4 := word 4, w5 := word 5, w6 := word 6, w7 := word 7 }

/-- The patch registers run past X31. -/
def patchOver (w : Word) : Bool := decide (32 < pXbase w + (bitsWhere 8 (fun j => (pPatch w).testBit j)).length)

/-- Opcodes the engines define (04 R144, 07 R272, 05 R182, 08 R296, 10 R393); a UCALL only of a routine loaded on the stack's leaf (05 R202). -/
def eopDefined (s : State) (q : Nat) (h : Hdr) : Bool :=
  let e := eEop h
  decide (1 ≤ e) && (if q = 0 then decide (e ≤ 3) else if q = 1 then decide (e ≤ 2)
    else if q = 2 then (if e = 10 then (tget s.fw.uram (leafOfStack (eTarget h) * 64 + sFn h)).isSome else decide (e ≤ 9))
    else if q = 3 then decide (e ≤ 4) else decide (e ≤ 9))

/-- Steps 3 and 4 of 03 R106: reason and INFO. A stack that is not in service is out of range (log 31). Bits 7:4 of a tile mask, which Table
3.8 has at 0, count as a bad target (DESIGN CHOICE, log 74). -/
def targetCheck (s : State) (c q : Nat) (h : Hdr) : Option (Nat × Nat) :=
  let t := eTarget h
  if q = 1 && decide (t < 32) && !s.fuse.pivotEn.getLsbD t then some (rsEngineAbsent, t)
  else if q = 0 then (if t % 16 = 0 || 16 ≤ t then some (rsBadTarget, t) else none)
  else if q = 1 then (if (s.casAt (ctxCas s c)).pivot.getLsbD t && decide (t < 32) then none else some (rsBadTarget, t))
  else if q = 2 then (if decide (t < 12) && s.dev.stackIn.getLsbD t then none else some (rsBadTarget, t))
  else if q = 3 then (if t < 4 then none else some (rsBadTarget, t))
  else (if t < 2 then none else some (rsBadTarget, t))

/-- Steps 2 to 8 of 03 R106. -/
def envCheck (s : State) (c q : Nat) (h : Hdr) : Option (Nat × Nat) :=
  if fld h.w0 15 0 ≠ 0 then some (rsBadField, q)
  else match targetCheck s c q h with
    | some r => some r
    | none =>
      if !eopDefined s q h then some (rsEngineOp, q)
      else if (q = 3 && eEop h = 4 && s.dev.compatLevel < 2) || (q = 4 && eEop h = 8 && mqLevel s h < 2) then some (rsLevel, q)
      else if (eWaitEn h && !ownsLatch s c (eWaitLatch h)) || (eSigEn h && !ownsLatch s c (eSigLatch h)) then some (rsLatchNotOwned, q)
      else if eShadow h && q ≠ 1 then some (rsShadowOut, q)
      else none

/-- Every check of 03 R106: the first that fails, with its INFO. -/
def pushCheck (s : State) (cl c : Nat) (w : Word) (h : Hdr) : State × Option (Nat × Nat) :=
  let q := pQueue w
  if 5 ≤ q then (s, some (rsBadQueue, q))
  else if patchOver w || fld w 21 0 ≠ 0 then (s, some (rsBadField, q))
  else match envCheck s c q h with
    | some r => (s, some r)
    | none =>
      if q = 0 then (s, tqCheck s cl h)
      else if q = 1 then (s, pqCheck s c (s.coreAt cl) (shadowsOf s cl) h)
      else if q = 2 then (s, match sqCheck s c h with | some r => some r | none => if eEop h = 10 then ucallCheck s c h else none)
      else if q = 3 then wqCheck s c h
      else (s, mqCheck s c h)

/-- Depths (03 Table 3.9). -/
def queueDepth (q : Nat) : Nat := if q = 0 then 128 else if q = 1 then 32 else if q = 2 then 64 else 16

/-- Counts a push; at STOP_INDEX the core stops (03 R141), at that push itself and not at the next (DESIGN CHOICE, log 74). -/
def countPush (cl : Nat) (stopIndex : Word) (s : State) : State :=
  s.modCore cl (fun c =>
    let n := c.pushes + 1
    { c with pushes := n, st := if stopIndex ≠ 0 && n = stopIndex && c.st = .running then .stopped else c.st })

/-- The gated unit that a command of a queue would need (01 Table 1.7). -/
def unitOf (q : Nat) (h : Hdr) : Option GUnit :=
  let t := eTarget h
  if q = 1 then some (.pivot t) else if q = 2 then some (.stack t) else if q = 3 then some (.wicket t) else if q = 4 then some (.mullion t) else none

/-- A push wakes the unit that its command needs (01 R36, Table 1.7). -/
def wakeUnit (q : Nat) (h : Hdr) (s : State) : State := match unitOf q h with | some u => wakeFor u s | none => s

/-- The leaf counter of a cluster. -/
def clTime (s : State) (cl : Nat) : Word := s.ctr (leafOfCluster cl)

/-- The BRLs a core has not resolved. -/
def liveBrls (s : State) (cl : Nat) : List Nat := (s.coreAt cl).brls.map (·.id)

/-- A push that the front end skips (03 R107, R119): counted and logged now, or held with its BRLs. CMDIDX of its entry counts the push itself
(DESIGN CHOICE, log 74). -/
def skipPush (cl pc : Nat) (r : Nat × Nat) (stopIndex : Word) (s : State) : State :=
  let spec := liveBrls s cl
  if spec.isEmpty then
    let s : State := countPush cl stopIndex s
    logSkip cl pc r.1 r.2 (s.coreAt cl).pushes (clTime s cl) s
  else
    let (u, s) := s.newUid
    s.modCore cl (fun c => { c with held := c.held ++ [{ uid := u, spec := spec, pc := pc, reason := r.1, info := r.2 }] })

/-- A push that enters its queue. -/
def enqueue (cl pc c q run : Nat) (h : Hdr) (stopIndex : Word) (s : State) : State :=
  let spec := liveBrls s cl
  let (u, s) := s.newUid
  let s : State := if spec.isEmpty then countPush cl stopIndex s else s
  let e : ECmd :=
    { uid := u, qk := q, words := h, pc := pc, cmdIdx := (s.coreAt cl).pushes, run := run, ctx := c, spec := spec, stall := false, met := false, st := .queued,
      shadow := if q = 1 then pqShadow s c (shadowsOf s cl) h else none }
  let s : State := s.modCore cl (fun k => { k with eq := k.eq ++ [e] })
  if q = 0 then forEach (bitsWhere 4 (fun i => (eTarget h).testBit i)) (fun i s => s.modTile (4 * cl + i) (noteDist (eEop h) h)) s else s

/-! Resolving a BRL. -/

/-- COND of BRL and CMP (03 Table 3.10, Table 3.17). -/
def condHolds (k : Nat) (a b : Word) : Bool :=
  if k = 0 then a = b else if k = 1 then a ≠ b else if k = 2 then a.slt b else if k = 3 then !a.slt b else if k = 4 then a.ult b else !a.ult b

/-- Where execution goes after the instruction with index `p` falls through: levels whose body ends there return or close (03 R94);
innermost level first. -/
def fallGo (p : Nat) : List Level → Tbl (BitVec 32) → List Level × Tbl (BitVec 32) × Nat
  | [], l => ([], l, (p + 1) % 2 ^ 24)
  | v :: r, l =>
    if v.last ≠ p then (v :: r, l, (p + 1) % 2 ^ 24)
    else
      let n := (tgetD l v.ln 0).toNat - 1
      if 0 < n then (v :: r, tset l v.ln (BitVec.ofNat 32 n), v.first) else fallGo p r (tset l v.ln 0)

/-- Falls through from the instruction with index `p`. -/
def Core.fallFrom (c : Core) (p : Nat) : Core :=
  let r := fallGo p c.loops.reverse c.l
  { c with loops := r.1.reverse, l := r.2.1, pc := r.2.2 }

/-- Takes a branch to index `t`: every level whose body does not hold it closes, with those inside (03 R94). -/
def Core.branchTo (c : Core) (t : Nat) : Core :=
  let keep := c.loops.takeWhile (fun v => decide (v.first ≤ t) && decide (t ≤ v.last))
  { c with pc := t, loops := keep, l := (c.loops.drop keep.length).foldl (fun l v => tset l v.ln 0) c.l }

/-- An item of a confirmed path: an engine command or a held skip, at its place in push order. -/
inductive Confirmed
  | cmd (uid : Nat)
  | skip (k : HeldSkip)
deriving DecidableEq, Repr

/-- STOP_INDEX of a core's run. -/
def stopIdx (s : State) (cl : Nat) : Word := match coreRun s cl with | some (_, x) => x.stopIndex | none => 0

/-- A confirmed command counts in the push counter, up to STOP_INDEX (03 R141); a confirmed skip counts and is logged (03 R119, R122). -/
def confirmOne (cl : Nat) (x : Confirmed) (s : State) : State :=
  match x with
  | .cmd u =>
    let s : State := countPush cl (stopIdx s cl) s
    s.modCore cl (fun c => { c with eq := c.eq.map (fun e => if e.uid = u then { e with cmdIdx := c.pushes } else e) })
  | .skip k =>
    let s : State := countPush cl (stopIdx s cl) s
    logSkip cl k.pc k.reason k.info (s.coreAt cl).pushes (clTime s cl) s

/-- BRL `id` resolved as predicted: what depended on it alone is confirmed, in push order (03 R122). -/
def confirmBrl (cl id : Nat) (s : State) : State :=
  let c := s.coreAt cl
  let drop := fun (l : List Nat) => l.filter (fun i => i ≠ id)
  let cs := (c.eq.filter (fun e => e.spec = [id])).map (fun e => (e.uid, Confirmed.cmd e.uid))
  let ks := (c.held.filter (fun k => k.spec = [id])).map (fun k => (k.uid, Confirmed.skip k))
  let s : State := s.modCore cl (fun c => { c with
    brls := c.brls.filter (fun b => b.id ≠ id),
    eq := c.eq.map (fun e => { e with spec := drop e.spec }),
    held := (c.held.filter (fun k => k.spec ≠ [id])).map (fun k => { k with spec := drop k.spec }) })
  forEach ((sortBy (·.1) (cs ++ ks)).map (·.2)) (confirmOne cl) s

/-- BRL b and those issued after it: what depends on it. -/
def brlsFrom (s : State) (cl : Nat) (b : Brl) : List Nat := ((s.coreAt cl).brls.dropWhile (fun x => x.id ≠ b.id)).map (·.id)

/-- A BRL resolved against its prediction (03 R123): the state at the BRL comes back and the right path issues. -/
def mispredict (cl : Nat) (b : Brl) (taken : Bool) (s : State) : State :=
  let s : State := cancelSpec cl (brlsFrom s cl b) s
  s.modCore cl (fun c =>
    let c := { c with x := b.x, p := b.p, l := b.l, g := b.g, loops := b.loops, stall := none }
    if taken then Core.branchTo c b.target else Core.fallFrom c b.pc)

/-- How the wait of a BRL stands; once its latch has reached its value, later poison does not touch it (03 R129). -/
def brlWait (s : State) (b : Brl) : Wait := if b.met then .met else waitOn s b.latch b.value

/-- The outcome of a BRL whose word is valid (03 R117). -/
def brlTaken (s : State) (cl : Nat) (b : Brl) : Bool :=
  condHolds b.cond (BitVec.ofNat 64 (leNat (mread s.sharedMem (cl * 2 ^ 20 + b.addr) 8))) b.cmp

/-- BRL_RESOLVE (03 R117, R122, R123, R126): the first BRL of a core whose latch has reached its value, or is poisoned, resolves, whether or not
older ones wait. -/
def resolveBrl (cl : Nat) (s : State) : State :=
  match (s.coreAt cl).brls.find? (fun b => brlWait s b ≠ .pending) with
  | none => s
  | some b =>
    if brlWait s b = .failed then stopRun cl stLatchPoisoned b.pc 0 (cancelSpec cl (liveBrls s cl) s)
    else
      let taken := brlTaken s cl b
      if taken = b.hint then confirmBrl cl b.id s else mispredict cl b taken s

end Sys2Proof.Machine
end

