-- ==== Sys2Proof/Machine/Engine.lean ====
section
/-! DEFINITION. Engine commands: when one starts (03 R106, R108; 05 R183; 07 R261; 08 R295), what each opcode does at its start, and its
completion (03 R101, R109, R115, R121, R124). A tile command's reads and writes stand at their cycles, a Sill command's writes at its row
steps; the effect on memory of the others is made whole at their start; a completion is a step of its own (log 2, log 34). -/

namespace Sys2Proof.Machine

/-- Bytes of the operand store that a Sill command reads: offset and end (05 R188-R195, 06 R251); of a routine with no rule, to the end of the store
(log 25). -/
def opsRead (s : State) (c : Nat) (h : Hdr) : Nat × Nat :=
  let e := eEop h
  if e = 2 then (sOps h, sOps h + fmtBytes (sFmtA h) (sB h * sK h))
  else if e = 3 && ewBin (sFn h) && sAux h = 0 then (sOps h, sOps h + fmtBytes (sFmtA h) (sK h))
  else if e = 4 then (sOps h, sOps h + fmtBytes (sFmtA h) (sK h) * (sFn h + 1))
  else if e = 10 && sFn h = 0 then
    match liveSeq s c (uSeq h), s.getDesc (c * 65536 + uDesc h) with
    | some q, some d => (sOps h, sOps h + fmtBytes (adescOf d.bytes).fmtQ (q.kvh * sB h * headDim q.headDim))
    | _, _ => (0, 0)
  else if e = 10 && 3 ≤ sFn h then (sOps h, 2 ^ 18)
  else (0, 0)

/-- A started command `r` keeps `e` from starting: one movement command a channel, one WQ command an engine, one SQ command of a casement a
stack but for a LOADOP beside a command whose operands it does not touch (05 R183, 07 R261, 08 R295). A speculative command holds its channel, as
its queue entry, until it is confirmed or cancelled, though it has made its last write (DESIGN CHOICE, log 74). -/
def blocks (s : State) (r e : ECmd) : Bool :=
  r.st ≠ .queued && sameEngine r e
  && (if e.qk = 1 || e.qk = 3 then true
      else if e.qk = 2 then
        ctxCas s r.ctx = ctxCas s e.ctx
        && !(eEop e.words = 1 && eEop r.words ≠ 1
             && (let o := opsRead s r.ctx r.words; decide (sOps e.words + sN e.words ≤ o.1) || decide (o.2 ≤ sOps e.words)))
      else false)

/-- The WAIT of an engine command; once satisfied, later poison does not touch it (03 R129). -/
def cmdWait (s : State) (e : ECmd) : Wait := if eWaitEn e.words && !e.met then waitOn s (eWaitLatch e.words) e.words.w1 else .met

/-- A command may start now, its WAIT and its engine's turn apart. -/
def mayStart (s : State) (cl : Nat) (e : ECmd) : Bool :=
  !s.dev.inReset && !s.dev.clockStop && e.st = .queued && !behind (s.coreAt cl) e && !((allECmds s).any (fun r => blocks s r e))
  && (match unitOf e.qk e.words with | some u => !s.gated.contains u | none => true)

/-- The key of an engine that serves cores in turn: a channel within its casement, or a Wicket engine. -/
def turnKey (s : State) (e : ECmd) : Nat := e.qk * 64 + eTarget e.words + (if e.qk = 1 then ctxCas s e.ctx * 1024 else 0)

/-- A core has a command ready for an engine: it may start, and its WAIT is satisfied. -/
def readyFor (s : State) (k cl : Nat) : Bool :=
  (s.coreAt cl).eq.any (fun e => turnKey s e = k && mayStart s cl e && cmdWait s e = .met)

/-- The engine's turn is this core's (07 R261, 08 R295): a channel and a Wicket engine take one command from each core that has one ready, in the
order of the cores' numbers (log 75). -/
def hasTurn (s : State) (cl : Nat) (e : ECmd) : Bool :=
  if e.qk ≠ 1 && e.qk ≠ 3 then true
  else
    let k := turnKey s e
    let ready := (sortBy id (tkeys s.core)).filter (readyFor s k)
    let last := match tget s.turn k with | some x => x + 1 | none => 0
    (ready.filter (fun x => decide (last ≤ x)) ++ ready).head? = some cl

/-- Sets the state of an engine command. -/
def setSt (cl uid : Nat) (st : EcSt) (s : State) : State :=
  s.modCore cl (fun c => { c with eq := c.eq.map (fun e => if e.uid = uid then { e with st := st } else e) })

/-- A command is started: its engine's turn goes on. -/
def begun (cl : Nat) (e : ECmd) (s : State) : State :=
  let s : State := setSt cl e.uid .running s
  if e.qk = 1 || e.qk = 3 then s.onTurn (fun t => tset t (turnKey s e) cl) else s

/-- Starts command `uid` of a core's queue `q` with opcode `op` (03 R108, R134): nothing where it cannot start; a failed wait stops the run,
unless the command is still speculative (R125). Where it meets a gated unit or a bank set inside a burst, it waits (01 R39, 05 R204). -/
def startCmd (q op cl uid : Nat) (run : ECmd → State → State) (s : State) : State :=
  match (s.coreAt cl).eq.find? (fun e => e.uid = uid) with
  | none => s
  | some e =>
    if e.qk ≠ q || eEop e.words ≠ op || !mayStart s cl e then s
    else match cmdWait s e with
      | .pending => s
      | .failed => if e.spec.isEmpty then stopRun cl stLatchPoisoned e.pc 0 (poisonEnv e s) else s
      | .met => if hasTurn s cl e then attempt uid (fun s => run e (begun cl e s)) s else s

/-! Tile commands, and the passing of compute cycles. -/

/-- The tiles of a TQ command. -/
def tilesOf (cl : Nat) (e : ECmd) : List Nat := (bitsWhere 4 (fun i => (eTarget e.words).testBit i)).map (4 * cl + ·)

/-- What a tile command does at its start: it issues on each tile of its mask, each in its cycle (04 R148). -/
def tileCmd (op cl : Nat) (e : ECmd) (s : State) : State :=
  let watch := match coreRun s cl with | some (_, x) => x.watch | none => false
  forEach (tilesOf cl e) (fun tl s => tileIssue tl e.uid op e.ctx e.words watch s) s

/-- Starts a tile command. -/
def startTile (op cl uid : Nat) (s : State) : State := startCmd 0 op cl uid (tileCmd op cl) s

/-- A tile command whose cycle has come issues (04 R148): nothing else delays it (log 2). -/
def issueDue (cl : Nat) (e : ECmd) (s : State) : State :=
  if e.qk = 0 && (tilesOf cl e).any (fun tl => issueAt s tl e.words = s.dev.cycle + 1) && cmdWait s e = .met then startTile (eEop e.words) cl e.uid s else s

/-- Every tile command whose cycle has come. -/
def issueAll (s : State) : State := forEach (tkeys s.core) (fun cl s => forEach (s.coreAt cl).eq (issueDue cl) s) s

/-- One cycle of the leaf counters, and the compute cycle that passes with it (01 R33, R34; log 2). -/
def passCycle (s : State) : State :=
  let s : State := ctrTick s
  if computes s then tilesTick (issueAll s) else s

/-- Cycles pass, at most n, until a command has completed on its tiles. -/
def passUntil (uid : Nat) (tls : List Nat) : Nat → State → State
  | 0, s => s
  | n + 1, s => if tls.all (tileDone s uid) then s else passUntil uid tls n (passCycle s)

/-- A tile command comes to its end on every tile: the cycles that it still takes pass. -/
def tileFinish (cl : Nat) (e : ECmd) (s : State) : State :=
  let last := (tilesOf cl e).foldl (fun m tl => Nat.max m (tileEnd s e.uid tl)) 0
  passUntil e.uid (tilesOf cl e) (2 * (last - s.dev.cycle) + 2) s

/-- What MOVE does at its start (07 R275): a write to a shared scratchpad by a command that is not speculative ends the staleness of the
buffers it meets. -/
def moveCmd (cl : Nat) (e : ECmd) (s : State) : State :=
  match s.getDesc (e.ctx * 65536 + qDesc e.words) with
  | none => endCmd cl e.uid EOut.ok s
  | some d =>
    let m := mdescOf d.bytes
    let (s, o) := moveRun e.ctx e.uid e.words m s
    let k := physOf s e.ctx (qCluster e.words)
    let lo := (m.dstFoot.1 + qDslide e.words).toNat
    let s : State := if m.dspace = 2 && e.spec.isEmpty then freshen s k lo ((m.dstFoot.2 + qDslide e.words).toNat + 1 - lo) (shadowsOf s k) else s
    endCmd cl e.uid o s

/-- Starts a MOVE. -/
def startMove (cl uid : Nat) (s : State) : State := startCmd 1 1 cl uid (moveCmd cl) s

/-- Where a Sill command works, with or without its checks behind it. -/
def sillEnv (s : State) (e : ECmd) (going : Bool) : Option SEnv :=
  (stripeOf s e.ctx (sStripe e.words)).map (fun a => { ctx := e.ctx, uid := e.uid, a := a, stack := eTarget e.words, going := going })

/-- The bank sets of a Sill command. -/
def sillUnits (e : ECmd) : List Nat := (ones (sBs e.words)).map (fun b => eTarget e.words * 64 + b)

/-- The bank sets of a Sill command are free again. -/
def freeBanks (uid : Nat) (s : State) : State :=
  s.onBank (tmap (fun _ b => if b.busy = some uid then { b with busy := none, burst := false, prog := 0, old := [] } else b))

/-- What a Sill command does at its start: its units are claimed for its context (11 R417), and unless something stops it its bank sets enter a
burst, one in a refresh when that ends (05 R204). -/
def sillCmd (cl : Nat) (e : ECmd) (s : State) : State :=
  match sillEnv s e false with
  | none => endCmd cl e.uid (EOut.stop stPageFault 0) s
  | some v =>
    match sillStart v e.words e.run (forEach (sillUnits e) (claimUnit e.ctx) s) with
    | (s, some o) => endCmd cl e.uid o s
    | (s, none) => forEach (sillUnits e) (fun u s => s.modBank u (fun b => { b with busy := some e.uid, burst := !b.refresh, prog := 0, old := [] })) s

/-- Starts a Sill command. -/
def startSill (op cl uid : Nat) (s : State) : State := startCmd 2 op cl uid (sillCmd cl) s

/-- A UCALL row of one routine; FN 0 to 2 are the routines of every image (06 R249). -/
def ucallFn (s : State) (cl uid : Nat) : Option Nat := ((s.coreAt cl).eq.find? (fun e => e.uid = uid)).map (fun e => sFn e.words)

/-- What a Wicket command does at its start. -/
def wicketCmd (run : Nat → Nat → Hdr → State → State × EOut) (cl : Nat) (e : ECmd) (s : State) : State :=
  let (s, o) := run e.ctx e.uid e.words s; endCmd cl e.uid o s

/-- Starts a Wicket command. -/
def startWicket (op cl uid : Nat) (run : Nat → Nat → Hdr → State → State × EOut) (s : State) : State :=
  startCmd 3 op cl uid (wicketCmd run cl) s

/-- What a collective does at its start. -/
def collCmd (cl : Nat) (e : ECmd) (s : State) : State := collStart cl e.uid e.ctx e.words s

/-- Starts a collective. -/
def startColl (op cl uid : Nat) (s : State) : State := startCmd 4 op cl uid (collCmd cl) s

/-- What PREFETCH does at its start: it ends (07 R274). -/
def prefetchCmd (cl : Nat) (e : ECmd) (s : State) : State := endCmd cl e.uid EOut.ok s

/-! The rows. -/

/-- MMA (04 R149, R162). -/
def execMma (cl uid : Nat) (s : State) : Host.Outcome State Fault Refusal := .next (startTile 1 cl uid s)
/-- DRAIN (04 R164, R169). -/
def execDrain (cl uid : Nat) (s : State) : Host.Outcome State Fault Refusal := .next (startTile 2 cl uid s)
/-- TNOP (04 Table 4.4): occupies an issue. -/
def execTnop (cl uid : Nat) (s : State) : Host.Outcome State Fault Refusal := .next (startTile 3 cl uid s)
/-- MOVE (07 R275). -/
def execMove (cl uid : Nat) (s : State) : Host.Outcome State Fault Refusal := .next (startMove cl uid s)
/-- PREFETCH (07 R274, 03 R120): warms translation; no destination. -/
def execPrefetch (cl uid : Nat) (s : State) : Host.Outcome State Fault Refusal :=
  .next (startCmd 1 2 cl uid (prefetchCmd cl) s)
/-- LOADOP (05 R188). -/
def execLoadop (cl uid : Nat) (s : State) : Host.Outcome State Fault Refusal := .next (startSill 1 cl uid s)
/-- GEMV (05 R191-R193). -/
def execGemv (cl uid : Nat) (s : State) : Host.Outcome State Fault Refusal := .next (startSill 2 cl uid s)
/-- EWISE (05 R194). -/
def execEwise (cl uid : Nat) (s : State) : Host.Outcome State Fault Refusal := .next (startSill 3 cl uid s)
/-- NORM (05 R195). -/
def execNorm (cl uid : Nat) (s : State) : Host.Outcome State Fault Refusal := .next (startSill 4 cl uid s)
/-- DEQ (05 R196). -/
def execDeq (cl uid : Nat) (s : State) : Host.Outcome State Fault Refusal := .next (startSill 5 cl uid s)
/-- TOPK (05 R197). -/
def execTopk (cl uid : Nat) (s : State) : Host.Outcome State Fault Refusal := .next (startSill 6 cl uid s)
/-- GATHER of the Sill units (05 R198). -/
def execSqGather (cl uid : Nat) (s : State) : Host.Outcome State Fault Refusal := .next (startSill 7 cl uid s)
/-- SMX_ARM (05 R199). -/
def execSmxArm (cl uid : Nat) (s : State) : Host.Outcome State Fault Refusal := .next (startSill 8 cl uid s)
/-- SMX_NORM (05 R200). -/
def execSmxNorm (cl uid : Nat) (s : State) : Host.Outcome State Fault Refusal := .next (startSill 9 cl uid s)
/-- UCALL of a routine other than the attention routines (05 R202). -/
def execUcall (cl uid : Nat) (s : State) : Host.Outcome State Fault Refusal :=
  .next (match ucallFn s cl uid with | some f => if f ≤ 2 then s else startSill 10 cl uid s | none => s)
/-- KV_SCORE (06 R251). -/
def execKvScore (cl uid : Nat) (s : State) : Host.Outcome State Fault Refusal := .next (if ucallFn s cl uid = some 0 then startSill 10 cl uid s else s)
/-- KV_APPLY (06 R252). -/
def execKvApply (cl uid : Nat) (s : State) : Host.Outcome State Fault Refusal := .next (if ucallFn s cl uid = some 1 then startSill 10 cl uid s else s)
/-- SMX_MERGE (06 R253). -/
def execSmxMerge (cl uid : Nat) (s : State) : Host.Outcome State Fault Refusal := .next (if ucallFn s cl uid = some 2 then startSill 10 cl uid s else s)
/-- GATE (08 R302-R308). -/
def execGate (cl uid : Nat) (s : State) : Host.Outcome State Fault Refusal := .next (startWicket 1 cl uid gateRun s)
/-- COMBINE (08 R313). -/
def execCombine (cl uid : Nat) (s : State) : Host.Outcome State Fault Refusal := .next (startWicket 2 cl uid combineRun s)
/-- SELECT (08 R317). -/
def execSelect (cl uid : Nat) (s : State) : Host.Outcome State Fault Refusal := .next (startWicket 3 cl uid selectRun s)
/-- STEP (08 R314). -/
def execStepRecord (cl uid : Nat) (s : State) : Host.Outcome State Fault Refusal := .next (startWicket 4 cl uid stepRun s)
/-- ALLREDUCE (10 Table 10.9). -/
def execAllreduce (cl uid : Nat) (s : State) : Host.Outcome State Fault Refusal := .next (startColl 1 cl uid s)
/-- REDUCE_SCATTER (10 Table 10.9). -/
def execReduceScatter (cl uid : Nat) (s : State) : Host.Outcome State Fault Refusal := .next (startColl 2 cl uid s)
/-- ALLGATHER (10 Table 10.9). -/
def execAllgather (cl uid : Nat) (s : State) : Host.Outcome State Fault Refusal := .next (startColl 3 cl uid s)
/-- BROADCAST (10 Table 10.9). -/
def execBroadcast (cl uid : Nat) (s : State) : Host.Outcome State Fault Refusal := .next (startColl 4 cl uid s)
/-- GATHER of the Mullion engine (10 Table 10.9). -/
def execMqGather (cl uid : Nat) (s : State) : Host.Outcome State Fault Refusal := .next (startColl 5 cl uid s)
/-- DISPATCH (10 R398). -/
def execDispatch (cl uid : Nat) (s : State) : Host.Outcome State Fault Refusal := .next (startColl 6 cl uid s)
/-- RETURN (10 R399). -/
def execReturnRows (cl uid : Nat) (s : State) : Host.Outcome State Fault Refusal := .next (startColl 7 cl uid s)
/-- RING_SHIFT (10 R400). -/
def execRingShift (cl uid : Nat) (s : State) : Host.Outcome State Fault Refusal := .next (startColl 8 cl uid s)
/-- BARRIER (10 Table 10.9). -/
def execBarrier (cl uid : Nat) (s : State) : Host.Outcome State Fault Refusal := .next (startColl 9 cl uid s)

/-! Completion. -/

/-- How a started command ended; none while it runs. The cycles that a tile command still takes pass, a Sill command's last row steps land. -/
def outcomeOf (cl : Nat) (e : ECmd) (s : State) : State × Option EOut :=
  match e.st with
  | .queued => (s, none)
  | .done st a => (s, some (if st = stOK then EOut.ok else EOut.stop st a))
  | .running =>
    if e.qk = 0 then
      let s : State := tileFinish cl e s
      if (tilesOf cl e).all (tileDone s e.uid) then
        let st := firstStop ((tilesOf cl e).filterMap (tileStop s e.uid))
        (tileTake e.uid (tilesOf cl e) s, some (if st = stOK then EOut.ok else EOut.stop st 0))
      else (s, none)
    else if e.qk = 2 then
      match sillEnv s e true with
      | none => (s, some (EOut.stop stPageFault 0))
      | some v => let r := sillFinish v e.words (freeBanks e.uid s); (r.1, some r.2)
    else (s, none)

/-- A Sill command cut before its end leaves undefined what it wrote (05 R203). -/
def cutSill (e : ECmd) (s : State) : State := match sillEnv s e true with | none => s | some v => sillCutAll v e.words s

/-- The writes of a command that has ended OK stand under its run (02 R69). -/
def handWrites (e : ECmd) (s : State) : State :=
  let w := tgetD s.wlog e.uid []
  if w.isEmpty then s else s.updRun e.run (fun r => { r with wrote := r.wrote ++ w.filter (fun x => !r.wrote.contains x) })

/-- A command's envelope signal: at once, or behind the earlier commands of its queue (03 R109). -/
def envSignal (cl : Nat) (e : ECmd) (deps : List Nat) (s : State) : State :=
  if !eSigEn e.words then s
  else if deps.isEmpty then signalLatch (eSigLatch e.words) e.words.w2 (eSigAdd e.words) s
  else s.modCore cl (fun c => { c with sigls := c.sigls ++ [
    { uid := e.uid, env := true, latch := eSigLatch e.words, value := e.words.w2, add := eSigAdd e.words, deps := deps }] })

/-- A command leaves its queue with an outcome: a confirmed shadow load ends its buffer's staleness (03 R124), and the signal follows. With a stop
status, or cut, what it had written is undefined (02 R69), its latch is poisoned, and but for one that was never confirmed (R125) its run
stops. -/
def leaveQueue (cl : Nat) (e : ECmd) (o : EOut) (cut : Bool) (s : State) : State :=
  let deps := ((s.coreAt cl).eq.takeWhile (fun x => x.uid ≠ e.uid)).filterMap (fun x => if x.qk = e.qk then some x.uid else none)
  let s : State := s.modCore cl (fun c => { c with eq := c.eq.filter (fun x => x.uid ≠ e.uid) })
  if o.st = stOK && !cut then
    let s : State := match e.shadow with
      | some i => s.modCore cl (fun c => { c with stale := c.stale.filter (fun j => j ≠ i) })
      | none => s
    fireEnv cl (envSignal cl e deps (settleWrites e.uid (handWrites e s)))
  else
    let s : State := fireEnv cl (poisonEnv e (settleWrites e.uid (undefWrites (tgetD s.wlog e.uid []) s)))
    if o.st = stOK || !e.spec.isEmpty then s else stopRun cl o.st e.pc o.addr s

/-- ENGINE_COMMAND_COMPLETION (03 R101, R109, R115): a speculative command waits to be confirmed (R121), or, of a run that is cut, goes as far as its
end (log 70). An outcome waits until its writes have reached their banks; a Sill command of a cut core is cut (05 R203). -/
def engineComplete (cl uid : Nat) (s : State) : State :=
  match (s.coreAt cl).eq.find? (fun e => e.uid = uid) with
  | none => s
  | some e =>
    if !e.spec.isEmpty && (s.coreAt cl).st ≠ .cut then s
    else if e.qk = 2 && e.st = .running && (s.coreAt cl).st = .cut then
      leaveQueue cl e EOut.ok true (clearBad uid (freeBanks uid (cutSill e s)))
    else attempt uid (fun s =>
      match outcomeOf cl e s with
      | (s, none) => s
      | (s, some o) =>
        let s : State := setSt cl uid (.done o.st o.addr) (drainOwned uid s)
        if o.st = stOK && owns s uid then s
        else leaveQueue cl e (if o.st = stOK && hitBad s uid then EOut.stop stEccUncorr 0 else o) false (freeBanks uid (clearBad uid s))) s

end Sys2Proof.Machine
end

