-- ==== Sys2Proof/Machine/HostCore.lean ====
section
/-! DEFINITION. What host commands share, and the commands on contexts, queues and casements: CTX_CREATE, CTX_DESTROY, CTX_PRIORITY,
CTX_MIGRATE (11), QUEUE_CREATE, QUEUE_DESTROY, QUEUE_RESUME (02), CASE_ASSIGN, CASE_RELEASE (02 R81, 11 R408, R409), NOP. An operation takes
its queue, its entry (whose `pl` is the whole payload) and the state, once the checks of 02 R589 up to step 9 have passed; it answers the
completion and the address of a PAGE_FAULT, or none where the command goes on running. -/

namespace Sys2Proof.Machine

/-- What an operation answers. -/
abbrev HRes := State × Option (Res × Nat)

/-- The command completes. -/
def fin (r : Res) (s : State) : HRes := (s, some (r, 0))

/-- The command stops. -/
def stopAt (st a : Nat) (s : State) : HRes := (s, some (Res.stat st, a))

/-- The command goes on. -/
def going (s : State) : HRes := (s, none)

/-- The command completes DEFERRED with the Keeper's estimate (02 Table 2.8; log 8). -/
def deferOp (s : State) : HRes := let (k, s) := State.fresh s; fin (Res.defer k) s

/-- Bytes of a payload that must be 0. -/
def dirty (pl : List Byte) (lo n : Nat) : Bool := le pl lo n ≠ 0

/-- Ajar service (15 R545); full service has not begun. -/
def ajar (s : State) : Bool := s.dev.service ≠ .full

/-- Enabled clusters of a casement. -/
def liveClusters (s : State) (k : Nat) : List Nat := ones ((s.casAt k).clusters &&& s.fuse.clusterEn)

/-- The ajar casement (15 R545): the lowest that holds an enabled cluster. -/
def ajarCas (s : State) : Option Nat := (List.range 16).find? (fun k => !(liveClusters s k).isEmpty)

/-- A self-test of a casement's own resources is in hand (15 R542); a test of WINDOW alone uses none. -/
def testing (s : State) (k : Nat) : Bool := match (s.casAt k).selftest with | some (_, _, t, _) => decide (t % 16 ≠ 0) | none => false

/-- Contexts of a casement. -/
def ctxsOf (s : State) (k : Nat) : List Nat := tkeys (tfilter (fun _ x => x.cas = k) s.ctx)

/-- The queue of an entry speaks v3. -/
def isV3 (s : State) (q : Nat) : Bool := match s.getQueue q with | some x => x.v3 | none => false

/-! Contexts. -/

/-- Stacks on which a casement's shutter records may lie (11 R426). -/
def shutterStacks (s : State) (leaf : Nat) : List Nat :=
  if ajar s then [leaf * 6] else (List.range 6).filterMap (fun i => if s.dev.stackIn.getLsbD (leaf * 6 + i) then some (leaf * 6 + i) else none)

/-- The place of the records of one leaf's clusters: on the stacks of that leaf in service, at one offset of every bank set of the casement (11 R426);
none where they do not fit. -/
def takePart (s : State) (k leaf : Nat) : Option ShutPart :=
  let bs := casBs s k
  let n := ((ones (s.casAt k).clusters).filter (fun c => leafOfCluster c = leaf)).length
  let st := shutterStacks s leaf
  let room := st.length * (ones bs).length
  if n = 0 then some { off := 0, len := 0, stks := 0 }
  else if room = 0 then none
  else
    let len := (n * 776 + room - 1) / room * 4096
    (freeOff s (ofOnes 12 st) bs len).map (fun o => { off := o, len := len, stks := ofOnes 12 st })

/-- The place of a shutter area (11 R414, R426). -/
def takeShutter (s : State) (k : Nat) : Option Shutter :=
  match takePart s k 0, takePart s k 1 with
  | some a, some b => some { p0 := a, p1 := b }
  | _, _ => none

/-- CTX_CREATE (11 R413, R414). -/
def opCtxCreate (q : Nat) (e : Entry) (s : State) : HRes :=
  let pl := e.pl
  let k := le pl 0 1
  let fl := le pl 2 1
  let addr := le pl 8 8
  if dirty pl 3 1 || dirty pl 6 2 || dirty pl 16 48 || 7 < le pl 1 1 || 3 < fl || 15 < k || 2047 < le pl 4 2 || addr % 64 ≠ 0
      || (s.casAt k).clusters = 0 then fin (Res.skip 6) s
  else if !reachesCas s q k then fin (Res.deny 1) s
  else if (ajar s && ajarCas s ≠ some k) || testing s k then deferOp s
  else
    let sh := takeShutter s k
    match tfree s.ctx 0 (if isV3 s q then 1024 else 4096) with
    | none => fin (Res.deny 3) s
    | some c =>
      if (fl.testBit 1 && (modelOf s k).isSome) || (fl.testBit 0 && sh.isNone) then fin (Res.deny 3) s
      else
        fin (Res.ok c) (s.putCtx c
          { st := .active, cas := k, prio := le pl 1 1, shutter := if fl.testBit 0 then sh else none, model := fl.testBit 1, fn := q,
            faultVec := le pl 4 2, faultAddr := BitVec.ofNat 64 addr, cmap := [], retired := [], mig := none, skips := [], skipN := 0,
            destroy := none })

/-- CTX_DESTROY starts (11 R433, R412): its context enters DESTROYING; it completes with the end of the teardown. -/
def opCtxDestroy (q : Nat) (e : Entry) (s : State) : HRes :=
  match s.getCtx e.ctxf with
  | none => fin (Res.skip 6) s
  | some x =>
    if x.model && 1 < (ctxsOf s x.cas).length then fin (Res.deny 4) s
    else if x.mig.isSome then deferOp s
    else
      let s : State := s.updCtx e.ctxf (fun x => { x with st := .destroying, destroy := some (q, e.uid) })
      let s : State := tearDown e.ctxf e.uid s
      going (forEach (liveReqs s (fun r => r.ctx = e.ctxf)) (discardReq 6) s)

/-- Everything of a context has ended: its queues' records are posted, its runs and engine commands are over. -/
def ctxDrained (s : State) (c : Nat) : Bool :=
  (List.range 4).all (fun n => match s.getQueue (ctxQ c n) with | some x => x.es.all (fun e => e.posted) | none => true)
  && !(s.run.any (fun e => e.2.ctx = c)) && !((allECmds s).any (fun e => e.ctx = c))

/-- CTX_PRIORITY (11 R423). -/
def opCtxPriority (_q : Nat) (e : Entry) (s : State) : HRes :=
  match s.getCtx e.ctxf with
  | none => fin (Res.skip 6) s
  | some x => fin (Res.ok x.prio) (arbitrate (s.updCtx e.ctxf (fun y => { y with prio := hA e.hdr % 8 })))

/-- Targets of a CTX_MIGRATE: logical cluster and new physical one. -/
def migMap (pl : List Byte) : List (Nat × Nat) := (List.range 128).filterMap (fun n => if le pl n 1 = 0xFF then none else some (n, le pl n 1))

/-- CTX_MIGRATE (11 R435, R436 steps 1 and 2). -/
def opCtxMigrate (q : Nat) (e : Entry) (s : State) : HRes :=
  match s.getCtx e.ctxf with
  | none => fin (Res.skip 6) s
  | some x =>
    let pl := e.pl
    let m := migMap pl
    let cl := (s.casAt x.cas).clusters
    let new := m.foldl (fun t p => tset t p.1 p.2) x.cmap
    let img := (List.range 128).map (fun n => tgetD new n n)
    let tabs := (List.range 4).map (fun i => le pl (128 + 8 * i) 8)
    if m.any (fun p => p.2 < 128 && !s.fuse.clusterEn.getLsbD p.2) then fin (Res.stat stEngineAbsent) s
    else if dirty pl 162 94 || m.any (fun p => !cl.getLsbD p.2) || (dedupN img).length < 128
        || tabs.any (fun a => a ≠ 0 && (a % 64 ≠ 0 || !(insideOwn s e.ctxf a 64 (fun _ => true))))
        || 10000 < le pl 160 2 || x.st ≠ .active then fin (Res.skip 6) s
    else if x.mig.isSome then deferOp s
    else
      let g : Mig := { q := q, uid := e.uid, map := m, ptabs := tabs.filter (fun a => a ≠ 0), moved := false, result := 0,
                       drainMs := if le pl 160 2 = 0 then 100 else le pl 160 2 }
      let s : State := s.updCtx e.ctxf (fun y => { y with mig := some g })
      going (forEach (tkeys (tfilter (fun _ r => r.ctx = e.ctxf && r.st = .running) s.run)) requestPreempt s)

/-- The new EPOCH of a placement table, written as one code word (11 R436 step 4); answers the old and the new value. -/
def bumpEpoch (c a : Nat) (s : State) : State × Option (Nat × Nat) :=
  match vaRead c 0 a 64 s with
  | (s, .ok b) =>
    let old := (ptHdrOf b).epoch
    let new := (old + 128) % 256
    (vaPut c a (overlay b 0 [BitVec.ofNat 8 new]) s, some (old, new))
  | (s, _) => (s, none)

/-- Steps 3 and 4 of a migration, once no run of the context holds a cluster (11 R436). -/
def migMove (c : Nat) (s : State) : State :=
  match s.getCtx c with
  | none => s
  | some x =>
    match x.mig with
    | none => s
    | some m =>
      let first := match findEntry s m.q m.uid with | some e => le e.pl 128 8 | none => 0
      let (s, olds, res) := m.ptabs.foldl (fun (r : State × List Nat × Nat) a =>
        match bumpEpoch c a r.1 with
        | (s, some (o, n)) => (s, r.2.1 ++ [o], if a = first then n else r.2.2)
        | (s, none) => (s, r.2.1, r.2.2)) (s, [], 0)
      s.updCtx c (fun y => { y with cmap := m.map.foldl (fun t p => tset t p.1 p.2) y.cmap, retired := olds,
                                    mig := some { m with moved := true, result := res } })

/-- The old placement has drained (11 R437). -/
def migDrained (s : State) (c : Nat) (x : Ctx) : Bool :=
  s.coll.all (fun k => !(k.2.ctx = c && k.2.kind = 6 && x.retired.contains k.2.epoch) || k.2.back = k.2.sent)

/-- MIG_DONE (11 R436 step 6). -/
def migDone (c : Nat) (s : State) : State :=
  match s.getCtx c with
  | none => s
  | some x =>
    match x.mig with
    | none => s
    | some m => completeEntry m.q m.uid (Res.ok m.result) 0 (s.updCtx c (fun y => { y with mig := none, retired := [] }))

/-- Whether a run of a context holds clusters or is coming back to them. -/
def holdsAny (s : State) (c : Nat) : Bool := s.run.any (fun e => e.2.ctx = c && !(e.2.st = .waiting || e.2.st = .saved))

/-- One migration goes on as far as it can. -/
def migGo (c : Nat) (s : State) : State :=
  match s.getCtx c with
  | none => s
  | some x =>
    match x.mig with
    | none => s
    | some m =>
      if m.moved then (if migDrained s c x then migDone c s else s)
      else
        let s : State := forEach (tkeys (tfilter (fun _ r => r.ctx = c && r.st = .running && r.stop.isNone) s.run)) requestPreempt s
        if holdsAny s c then s
        else
          let s : State := migMove c s
          match s.getCtx c with
          | some y => if migDrained s c y then migDone c s else s
          | none => s

/-! Queues. -/

/-- A ring may lie at a base (02 R46, R47). -/
def ringOk (s : State) (c : Nat) (dev : Bool) (base n : Nat) : Bool :=
  base % 4096 = 0 && (!dev || insideOwn s c base n (fun a => a.kind = .interleaved || a.kind = .stripe || a.kind = .far))

/-- A queue that starts at slot 0. -/
def newQueue (f c n v : Nat) (sub cpl : Word) (sl cl : Nat) (sd cd v3 salvage : Bool) : Queue :=
  { st := .active, admin := false, fn := f, ctx := c, qid := n, subBase := sub, cplBase := cpl, subLog2 := sl, cplLog2 := cl,
    subDev := sd, cplDev := cd, vector := v, v3 := v3, salvage := salvage, drain := false, tail := 0, fetch := 0, head := 0,
    cplTail := 0, phase := true, dbErr := false, es := [], resume := none, destroy := none }

/-- QUEUE_CREATE (02 R46, R47; 11 R432). -/
def opQueueCreate (q : Nat) (e : Entry) (s : State) : HRes :=
  let pl := e.pl
  let c := e.ctxf
  let loc := le pl 18 1
  let sl := le pl 16 1
  let cl := le pl 17 1
  let n := le pl 19 1
  if dirty pl 22 42 || 3 < loc then fin (Res.skip 2) s
  else if sl < 6 || 16 < sl || cl < 6 || 16 < cl || 3 < n || 2047 < le pl 20 2
      || !ringOk s c (loc.testBit 0) (le pl 0 8) (2 ^ sl * 64) || !ringOk s c (loc.testBit 1) (le pl 8 8) (2 ^ cl * 16) then fin (Res.skip 6) s
  else if (s.getQueue (ctxQ c n)).isSome then fin (Res.deny 3) s
  else
    let salvage := match s.getCtx c with | some x => x.st ≠ .active | none => false
    fin (Res.ok 0) (s.putQueue (ctxQ c n)
      (newQueue q c n (le pl 20 2) (BitVec.ofNat 64 (le pl 0 8)) (BitVec.ofNat 64 (le pl 8 8)) sl cl (loc.testBit 0) (loc.testBit 1)
        (decide (s.dev.compatLevel < 2)) salvage))

/-- Commands of a queue that have not completed. -/
def notDone (x : Queue) : List Entry := x.es.filter (fun e => !e.isDone)

/-- QUEUE_DESTROY starts (02 R50): the count of records discarded is kept with its entry. -/
def opQueueDestroy (q : Nat) (e : Entry) (s : State) : HRes :=
  let k := ctxQ e.ctxf (hA e.hdr % 4)
  match s.getQueue k with
  | none => fin (Res.skip 6) s
  | some x =>
    let l := notDone x
    let s : State := updEntry q e.uid (fun y => { y with deps := [l.length] }) s
    let s : State := endWaits k s
    let s : State := s.updQueue k (fun x => { x with destroy := some (q, e.uid) })
    going (forEach l (discardEntry k) s)

/-- QUEUE_RESUME starts (02 R49). -/
def opQueueResume (_q : Nat) (e : Entry) (s : State) : HRes :=
  match s.getQueue (ctxQ e.ctxf (hA e.hdr % 4)) with
  | none => fin (Res.skip 6) s
  | some x => if x.st = .halted || x.destroy.isSome || 2 ^ x.subLog2 ≤ hC e.hdr then fin (Res.skip 6) s else going s

/-- The resume slot of a queue lies ahead of its fetch pointer (02 R49 step 2). -/
def slotAhead (x : Queue) (t : Nat) : Bool :=
  let n := 2 ^ x.subLog2
  x.fetch ≠ t && decide ((t + n - x.fetch) % n ≤ (x.tail + n - x.fetch) % n)

/-- A QUEUE_RESUME in progress goes on (02 R49): it drains, then discards up to its slot, then restarts the queue there. -/
def resumeGo (q : Nat) (e : Entry) (s : State) : State :=
  let k := ctxQ e.ctxf (hA e.hdr % 4)
  let t := hC e.hdr
  match s.getQueue k with
  | none => completeEntry q e.uid (Res.skip 6) 0 s
  | some x =>
    if x.st = .halted || x.destroy.isSome then completeEntry q e.uid (Res.skip 6) 0 s
    else
      match x.resume with
      | none => s.updQueue k (fun x => { x with resume := some (q, e.uid, t), drain := true })
      | some (q', u, _) =>
        if q' ≠ q || u ≠ e.uid || !(x.es.all (fun y => y.posted)) then s
        else if slotAhead x t then s.updQueue k (fun x => { x with drain := false })
        else completeEntry q e.uid (Res.ok 0) 0
          (s.updQueue k (fun x => { x with st := .active, fetch := t, drain := false, resume := none }))

/-- A QUEUE_DESTROY in progress goes on: once the last record is posted, every signal still due is made and the queue is gone. -/
def destroyGo (q : Nat) (e : Entry) (s : State) : State :=
  let k := ctxQ e.ctxf (hA e.hdr % 4)
  match s.getQueue k with
  | none => completeEntry q e.uid (Res.ok (nth e.deps 0 0)) 0 s
  | some x =>
    if x.es.all (fun y => y.posted) then
      let s : State := forEach (x.es.map (fun y => y.uid)) (headerSignal k) s
      completeEntry q e.uid (Res.ok (nth e.deps 0 0)) 0 (s.delQueue k)
    else s

/-! Casements. -/

/-- CASE_ASSIGN (02 R81; 11 R408, R409; 15 Table 15.9). -/
def opCaseAssign (q : Nat) (e : Entry) (s : State) : HRes :=
  let k := hA e.hdr % 16
  let me := fnPort q + 1
  let v := s.casAt k
  let pl := e.pl
  let own := fun (s : State) => s.modCas k (fun v => { v with owner := me })
  if v.owner ≠ 0 && v.owner ≠ me then fin (Res.deny 1) s
  else if hPlen e.hdr = 0 then fin (Res.ok k) (own s)
  else if ajar s || testing s k then deferOp s
  else
    let cl := BitVec.ofNat 128 (le pl 0 16)
    let bs := BitVec.ofNat 64 (le pl 16 8)
    let pv := BitVec.ofNat 32 (le pl 24 4)
    let la := le pl 28 2
    let qu := le pl 32 4
    let anyOf := cl ≠ 0 || bs ≠ 0 || pv ≠ 0
    let qn := if qu = 0 then 2000 else qu
    let others := (List.range 16).filter (fun i => i ≠ k)
    if dirty pl 30 2 || dirty pl 36 28 || 16384 < la || (qu ≠ 0 && (qu < 100 || 100000 < qu))
        || (anyOf && (cl = 0 || bs = 0 || pv = 0)) then fin (Res.skip 6) s
    else if (cl &&& ~~~ s.fuse.clusterEn) ≠ 0 || (pv &&& ~~~ s.fuse.pivotEn) ≠ 0 then fin (Res.stat stEngineAbsent) s
    else if !(ctxsOf s k).isEmpty then
      if cl = v.clusters && bs = v.bsmask && pv = v.pivot && la = v.latches && qn = v.quantum then fin (Res.ok k) (own s)
      else fin (Res.deny 4) s
    else if others.any (fun i => (cl &&& (s.casAt i).clusters) ≠ 0 || (bs &&& (s.casAt i).bsmask) ≠ 0 || (pv &&& (s.casAt i).pivot) ≠ 0)
        || 16384 < others.foldl (fun n i => n + (s.casAt i).latches) la then fin (Res.deny 3) s
    else fin (Res.ok k) (own (s.modCas k (fun v => { v with clusters := cl, bsmask := bs, pivot := pv, latches := la, quantum := qn })))

/-- CASE_RELEASE (02 R81). -/
def opCaseRelease (q : Nat) (e : Entry) (s : State) : HRes :=
  let k := hA e.hdr % 16
  let v := s.casAt k
  if v.owner ≠ 0 && v.owner ≠ fnPort q + 1 then fin (Res.deny 1) s
  else if !(ctxsOf s k).isEmpty then fin (Res.deny 4) s
  else fin (Res.ok 0) (s.modCas k (fun v => { v with owner := 0 }))

/-- NOP (02 Table 2.7). -/
def opNop (_q : Nat) (_e : Entry) (s : State) : HRes := fin (Res.ok 0) s

end Sys2Proof.Machine
end

