-- ==== Sys2Proof/Machine/HostMem.lean ====
section
/-! DEFINITION. Memory commands: MEM_ALLOC, MEM_FREE, MEM_MAP_HOST (09 R324-R327), MEM_FENCE (05 R217), MEM_COPY, MEM_FILL (09 R328),
SCRUB_RANGE (09 R345-R348). -/

namespace Sys2Proof.Machine

/-- Virtual ranges a context may not take again: its own, its model context's, and for the model context those of its casement (11 R412). -/
def takenRanges (s : State) (c : Nat) : List (Nat × Nat) :=
  let m := modelOf s (ctxCas s c)
  s.alloc.filterMap (fun e => if e.2.ctx = c || some e.2.ctx = m || (some c = m && ctxCas s e.2.ctx = ctxCas s c) then some (e.2.base, e.2.len) else none)

/-- A wanted base breaks a rule of 09 R325 for VA. -/
def vaBad (s : State) (c va len : Nat) : Bool :=
  va % 4096 ≠ 0 || decide (2 ^ 52 < va + len) || (takenRanges s c).any (fun r => decide (va < r.1 + r.2) && decide (r.1 < va + len))

/-- A stripe handle in use among those a context names (09 R325, 11 R411). -/
def handleUsed (s : State) (c h : Nat) : Bool :=
  let m := modelOf s (ctxCas s c)
  s.alloc.any (fun e => e.2.kind = .stripe && e.2.handle = h
    && (e.2.ctx = c || some e.2.ctx = m || (some c = m && ctxCas s e.2.ctx = ctxCas s c)))

/-- Allocations of a context have reached 4,096, or the device's 65,536 (09 R325). -/
def allocFull (s : State) (c : Nat) : Bool := 4096 ≤ (s.alloc.filter (fun e => e.2.ctx = c)).length || 65536 ≤ s.alloc.length

/-- Enters an allocation at the lowest free table place. -/
def addAlloc (a : Alloc) (s : State) : State := match tfree s.alloc 0 65536 with | some i => s.putAlloc i a | none => s

/-- Ends an allocation command: RESULT is the low 32 bits of base ÷ 4 KiB. -/
def allocated (a : Alloc) (s : State) : HRes := fin (Res.ok (a.base / 4096 % 2 ^ 32)) (addAlloc a s)

/-- MEM_ALLOC (09 R324, R325; 11 R412); one that names a failed stack is DENIED in any service (15 R549). -/
def opMemAlloc (_q : Nat) (e : Entry) (s : State) : HRes :=
  let pl := e.pl
  let c := e.ctxf
  let va := le pl 0 8
  let len := le pl 8 8
  let kind := le pl 16 1
  let stack := le pl 17 1
  let h := le pl 18 2
  let sm := BitVec.ofNat 12 (le pl 20 2)
  let bs := BitVec.ofNat 64 (le pl 24 8)
  let nb := (ones bs).length
  let smask := if kind = 1 then BitVec.twoPow 12 stack else sm
  let ns := (ones smask).length
  let unit := if kind = 0 then alignUp len (ns * nb * 4096) / (ns * nb) else alignUp len 4096
  let vlen := if kind = 0 then unit * (ns * nb) else if kind = 1 then unit * nb else unit
  if dirty pl 22 2 || dirty pl 32 32 || 4095 < le pl 20 2 || 2 < kind || len = 0 || (kind = 1 && 2 ^ 30 < len)
      || (kind ≠ 2 && bs = 0) || (kind = 0 && sm = 0) || (kind ≠ 2 && (bs &&& ~~~ casBs s (ctxCas s c)) ≠ 0) || 11 < stack
      || (kind = 1 && (h = 0 || handleUsed s c h)) || (va ≠ 0 && vaBad s c va vlen) then fin (Res.skip 6) s
  else if ajar s && (kind = 2 || ((smask &&& ~~~ s.dev.stackIn) ≠ 0 && (smask &&& s.dev.stackFail) = 0)) then deferOp s
  else if allocFull s c || (kind ≠ 2 && (smask &&& ~~~ s.dev.stackIn) ≠ 0) then fin (Res.deny 3) s
  else
    match (if kind = 2 then freeFar s vlen else freeOff s smask bs unit), (if va ≠ 0 then some va else freeBase s c vlen) with
    | some off, some base =>
      allocated { ctx := c, base := base, len := vlen, kind := if kind = 0 then .interleaved else if kind = 1 then .stripe else .far, off := off,
                  unit := if kind = 1 then unit else 0, smask := if kind = 2 then 0 else smask, bsmask := if kind = 2 then 0 else bs,
                  handle := if kind = 1 then h else 0, port := 0, ro := false } s
    | _, _ => fin (Res.deny 3) s

/-- Contexts that name an allocation of context c: itself, or for a model context every context of the casement (11 R411). -/
def readersOf (s : State) (c : Nat) : List Nat := if modelOf s (ctxCas s c) = some c then ctxsOf s (ctxCas s c) else [c]

/-- Descriptors over a range become stale (07 R271). -/
def staleDescs (cs : List Nat) (lo hi : Nat) (s : State) : State :=
  s.onDesc (tmap (fun k d => if cs.contains (k / 65536) && descTouches d lo hi then { d with stale := true } else d))

/-- An allocation is held by an open sequence or a queue (09 R326). -/
def allocHeld (s : State) (c : Nat) (a : Alloc) : Bool :=
  s.seq.any (fun e => e.2.ctx = c && e.2.closing.isNone && (a.has e.2.pt || a.has e.2.calib || (a.kind = .stripe && e.2.pool.contains a.handle)))
  || (List.range 4).any (fun n => match s.getQueue (ctxQ c n) with
      | some x => (x.subDev && a.has x.subBase.toNat) || (x.cplDev && a.has x.cplBase.toNat)
      | none => false)

/-- A SCRUB_RANGE that runs covers some of the allocation, of whichever context that reads it (09 R326; 11 R411). -/
def scrubbing (s : State) (c : Nat) (a : Alloc) : Bool :=
  (readersOf s c).any (fun k => (List.range 4).any (fun n => match s.getQueue (ctxQ k n) with
    | some x => x.es.any (fun e => e.ph = .running && e.opc = 0x0701
        && decide (le e.pl 0 8 < a.base + a.len) && decide (a.base < le e.pl 0 8 + le e.pl 8 8))
    | none => false))

/-- MEM_FREE (09 R326). -/
def opMemFree (_q : Nat) (e : Entry) (s : State) : HRes :=
  let c := e.ctxf
  match s.alloc.find? (fun x => x.2.ctx = c && x.2.base = hC e.hdr) with
  | none => fin (Res.skip 6) s
  | some (i, a) =>
    if allocHeld s c a then fin (Res.skip 6) s
    else if scrubbing s c a then deferOp s
    else
      let cs := readersOf s c
      let deps := (cs.flatMap (fun k => startedUids s (some k))).filter (fun u => u ≠ e.uid)
      let s : State := staleDescs cs a.base (a.base + a.len) (s.delAlloc i)
      fin (Res.ok 0) (releaseAlloc a deps s)

/-- MEM_MAP_HOST (09 R327). -/
def opMemMapHost (q : Nat) (e : Entry) (s : State) : HRes :=
  let pl := e.pl
  let c := e.ctxf
  let bus := le pl 0 8
  let len := le pl 8 8
  let va := le pl 16 8
  if dirty pl 25 7 || 1 < le pl 24 1 || bus % 4096 ≠ 0 || len % 4096 ≠ 0 || len = 0 || (va ≠ 0 && vaBad s c va len) then fin (Res.skip 6) s
  else if allocFull s c then fin (Res.deny 3) s
  else
    match (if va ≠ 0 then some va else freeBase s c len) with
    | none => fin (Res.deny 3) s
    | some base =>
      let own := (s.casAt (ctxCas s c)).owner
      let port := if own = 0 then (match s.getQueue q with | some x => fnPort x.fn | none => 0) else own - 1
      allocated { ctx := c, base := base, len := len, kind := .host, off := bus, unit := 0, smask := 0, bsmask := 0, handle := 0, port := port,
                  ro := (le pl 24 1).testBit 0 } s

/-- A command that its queue has taken up but that cannot start yet: a LATCH_WAIT that waits, a PROG_RUN that waits for its clusters (02 R64, 03
R99). -/
def heldBack (s : State) (e : Entry) : Bool :=
  e.opc = 0x0504
  || (e.opc = 0x0402 && (match runOf s e.uid with | some r => (match s.getRun r with | some v => v.st = .waiting | none => false) | none => false))

/-- Commands of a context's queues, and engine commands of its runs, that have started (05 R217). -/
def ctxStarted (s : State) (c : Nat) : List Nat :=
  (List.range 4).flatMap (fun n => match s.getQueue (ctxQ c n) with
    | some x => (x.es.filter (fun e => e.ph = .running && !heldBack s e)).map (fun e => e.uid)
    | none => [])
  ++ ((allECmds s).filter (fun x => x.st ≠ .queued && x.ctx = c)).map (fun x => x.uid)

/-- A MEM_FENCE with SCOPE notes, when it reaches the head of its queue, what has started (05 R217). -/
def fenceNote (q : Nat) (e : Entry) (s : State) : State :=
  if e.opc = 0x0204 && (hA e.hdr).testBit 0 then
    updEntry q e.uid (fun y => { y with deps := (ctxStarted s e.ctxf).filter (fun u => u ≠ e.uid) }) s
  else s

/-- MEM_FENCE (05 R217): it holds its queue until every earlier command has completed (`holdsLater`), and completes once what it noted has ended
too. -/
def opMemFence (_q : Nat) (_e : Entry) (s : State) : HRes := going s

/-- A MEM_FENCE in progress goes on: what it waited for has ended, and every line drains (05 R217; 09 R332). -/
def fenceGo (q : Nat) (e : Entry) (s : State) : State :=
  match s.getQueue q with
  | none => s
  | some x =>
    if earlierDone x e.uid && !anyAlive s e.deps then
      attempt e.uid (fun s => completeEntry q e.uid (Res.ok 0) 0 (forEach (List.range 12) drainStack s)) s
    else s

/-- Writes at a destination, which a stop leaves undefined. -/
def copyOut (c uid dst : Nat) (bs : List Byte) (s : State) : HRes :=
  match vaWrite c uid dst bs s with
  | (s, .ok) => fin (Res.ok 0) s
  | (s, .fault a) => stopAt stPageFault a s
  | (s, .ecc) => stopAt stEccUncorr 0 s

/-- MEM_COPY (09 R328): an overlapping destination is undefined (07 R283). -/
def opMemCopy (_q : Nat) (e : Entry) (s : State) : HRes :=
  let c := e.ctxf
  let src := le e.pl 0 8
  let dst := le e.pl 8 8
  let n := le e.pl 16 8
  if dirty e.pl 24 8 then fin (Res.skip 2) s
  else if !(insideOne s c src n && insideOne s c dst n) then fin (Res.stat stDescRange) s
  else
    match vaRead c 0 src n s with
    | (s, .ok bs) =>
      if src < dst + n && dst < src + n then
        let (k, s) := State.fresh s
        copyOut c e.uid dst (freeBytes k n) s
      else copyOut c e.uid dst bs s
    | (s, .fault a) => stopAt stPageFault a (havocVa c e.uid dst n s)
    | (s, .ecc) => stopAt stEccUncorr 0 (havocVa c e.uid dst n s)

/-- MEM_FILL (09 R328). -/
def opMemFill (_q : Nat) (e : Entry) (s : State) : HRes :=
  let c := e.ctxf
  let dst := le e.pl 0 8
  let n := le e.pl 8 8
  if dirty e.pl 24 8 then fin (Res.skip 2) s
  else if !insideOne s c dst n then fin (Res.stat stDescRange) s
  else copyOut c e.uid dst ((List.range n).map (fun i => (e.pl.drop 16).getD (i % 8) 0)) s

/-- What a scrub has found: rows, words, corrections, uncorrectable words, their addresses. -/
structure Scrub where
  rows : Nat
  words : Nat
  corr : Nat
  unc  : Nat
  addrs : List Nat
deriving DecidableEq, Repr

/-- One code word of a scrub at stack address `a`, virtual address `va` (09 R346, R347). -/
def scrubWord (wb : Bool) (r : State × Scrub) (a va : Nat) : State × Scrub :=
  let (s, x) := r
  let s : State := reachBank a (reachStack a s)
  let x := { x with words := x.words + 1 }
  match s.getHealth (a / 64) with
  | none => (s, x)
  | some (.corr _) =>
    let s : State := countCorr (a / 64) s
    (if wb then s.delHealth (a / 64) else s, { x with corr := x.corr + 1 })
  | some _ => (logUe 3 a s, { x with unc := x.unc + 1, addrs := x.addrs ++ [va] })

/-- The lines and merge entries of a DRAM row drain (09 R347). -/
def drainDramRow (a : Nat) (s : State) : State :=
  drainWhere (saStack a) (fun l => l.addr * 128 / 4096 = a / 4096) (fun l => l.addr * 64 / 4096 = a / 4096) s

/-- One granule of a scrub. -/
def scrubGranule (c : Nat) (wb : Bool) (r : State × Scrub) (va : Nat) : State × Scrub :=
  match findAlloc r.1 c va with
  | some (a, _) =>
    match a.loc va with
    | .stk x =>
      (List.range 64).foldl (fun r i => scrubWord wb r (x + 64 * i) (va + 64 * i)) (drainDramRow x r.1, { r.2 with rows := r.2.rows + 1 })
    | _ => r
  | none => r

/-- The scrub summary record (09 Table 9.5). -/
def scrubSummary (x : Scrub) : List Byte :=
  toLE x.rows 8 ++ toLE x.words 8 ++ toLE x.corr 8 ++ toLE x.unc 8 ++ toLE (Nat.min x.addrs.length 64) 2 ++ zeros 30
  ++ padTo 512 ((x.addrs.take 64).flatMap (fun a => toLE a 8))

/-- The 4 KiB granules that a SCRUB_RANGE touches. -/
def scrubGranules (pl : List Byte) : List Nat :=
  let base := le pl 0 8
  (List.range ((base + le pl 8 8 + 4095) / 4096 - base / 4096)).map (fun i => (base / 4096 + i) * 4096)

/-- SCRUB_RANGE (09 R345): it runs until the record of its queue that comes next is asked for (log 34). -/
def opScrubRange (_q : Nat) (e : Entry) (s : State) : HRes :=
  let pl := e.pl
  let c := e.ctxf
  let sum := le pl 16 8
  let inStk := fun (va : Nat) => match findAlloc s c va with | some (a, _) => a.kind = .interleaved || a.kind = .stripe | none => false
  if dirty pl 25 7 || 1 < le pl 24 1 || le pl 8 8 = 0 || 2 ^ 52 < le pl 0 8 + le pl 8 8 || sum % 64 ≠ 0 || !mapped s c sum 576
      || !((scrubGranules pl).all inStk) then fin (Res.skip 6) s
  else going s

/-- A SCRUB_RANGE in progress reads its rows and ends (09 R346, R347), unless its Keeper is down. Its reads are device accesses: a gated stack is
woken, and a bank set inside a burst waits (01 R41; 05 R205). -/
def scrubGo (q : Nat) (e : Entry) (s : State) : State :=
  let c := e.ctxf
  let gs := scrubGranules e.pl
  if procDown s (keeperOf s q e.hdr e.pl) || s.dev.inReset then s
  else attempt e.uid (fun s =>
    let (s, x) := gs.foldl (scrubGranule c ((le e.pl 24 1).testBit 0)) (s, { rows := 0, words := 0, corr := 0, unc := 0, addrs := [] })
    match vaWrite c e.uid (le e.pl 16 8) (scrubSummary x) s with
    | (s, .ok) => completeEntry q e.uid (Res.ok (x.corr % 2 ^ 32)) 0 s
    | (s, .fault a) => completeEntry q e.uid (Res.stat stPageFault) a s
    | (s, .ecc) => completeEntry q e.uid (Res.stat stEccUncorr) 0 s) s

/-- The oldest command of a queue without a record ends, if it is a SCRUB_RANGE in progress. -/
def scrubOldest (q : Nat) (s : State) : State :=
  match s.getQueue q with
  | none => s
  | some x => match nextToPost x with
    | some e => if e.ph = .running && e.opc = 0x0701 then scrubGo q e s else s
    | none => s

end Sys2Proof.Machine
end

