-- ==== Sys2Proof/Machine/HostProg.lean ====
section
/-! DEFINITION. Descriptors, programs, the skip log and latches: DESC_CREATE, DESC_DESTROY (07 R262-R271, 06 R239-R241), PROG_LOAD, PROG_RUN,
PROG_UNLOAD (03 R96-R102), SKIPLOG_READ (R139) and the latch packets (R132, R133). -/

namespace Sys2Proof.Machine

/-! Descriptors. -/

/-- DESC_CREATE (07 R262, R266; 06 R239, R240). That PAYLOAD_LEN fits KIND is looked at here, once the payload has been read, and not at R589
step 3 (DESIGN CHOICE, log 74). -/
def opDescCreate (_q : Nat) (e : Entry) (s : State) : HRes :=
  let c := e.ctxf
  let attn := le e.pl 0 1 = 0x20
  if e.pl.length ≠ (if attn then 64 else 192) then fin (Res.skip 3) s
  else
    match (if attn then attnCheck s (adescOf e.pl) else moveCheck s c (mdescOf e.pl)) with
    | some r => fin r s
    | none =>
      match tfree s.desc (c * 65536 + 1) 65535 with
      | none => fin (Res.deny 3) s
      | some k => fin (Res.ok (k % 65536)) (s.putDesc k { bytes := e.pl, stale := false, dead := [] })

/-- Engine commands of a context that name descriptor h. -/
def descNamers (s : State) (c h : Nat) : List Nat :=
  ((allECmds s).filter (fun x => x.ctx = c && ((x.qk = 1 && qDesc x.words = h) || (x.qk = 2 && eEop x.words = 10 && uDesc x.words = h)))).map (fun x => x.uid)

/-- DESC_DESTROY (07 R270): the handle stays taken while commands that named it are in progress. -/
def opDescDestroy (_q : Nat) (e : Entry) (s : State) : HRes :=
  let h := hA e.hdr
  let k := e.ctxf * 65536 + h
  if h = 0 || 65535 < h then fin (Res.skip 6) s
  else
    match s.getDesc k with
    | none => fin (Res.skip 6) s
    | some d =>
      if !d.dead.isEmpty then fin (Res.skip 6) s
      else
        let l := descNamers s e.ctxf h
        fin (Res.ok 0) (if l.isEmpty then s.delDesc k else s.putDesc k { d with dead := l })

/-- Destroyed descriptors, and freed latches, that nothing names any longer are handed out again (07 R270, 03 R132). -/
def dropDead (s : State) : State :=
  let s : State := s.onDesc (tfilter (fun _ d => d.dead.isEmpty || anyAlive s d.dead))
  s.onLatchHold (tfilter (fun l us => us.any (fun u => (namersOf s l).contains u)))

/-! Programs. -/

/-- The declared shadow buffers of an image header: offset and size. -/
def imgShadow (b : List Byte) (n : Nat) : List (Nat × Nat) := (List.range n).map (fun i => (le b (80 + 8 * i) 4, le b (84 + 8 * i) 4))

/-- Two shadow buffers of a list overlap. -/
def shadowsMeet : List (Nat × Nat) → Bool
  | [] => false
  | x :: r => r.any (fun y => decide (x.1 < y.1 + y.2) && decide (y.1 < x.1 + x.2)) || shadowsMeet r

/-- First byte of the template area of an image of n instructions (03 R96). -/
def imgTmpl (n : Nat) : Nat := alignUp (256 + 8 * n) 64

/-- An image header is malformed (03 R97). -/
def imgBad (b : List Byte) (len : Nat) : Bool :=
  let n := le b 8 4
  let tl := le b 12 4
  let ns := le b 7 1
  let sh := imgShadow b ns
  le b 0 4 ≠ 0x49505847 || le b 4 1 ≠ 2 || 2 < le b 5 1 || 3 < le b 6 1 || le b 144 112 ≠ 0 || 8 < ns || le b (80 + 8 * ns) (64 - 8 * ns) ≠ 0
  || n = 0 || tl % 64 ≠ 0 || 65536 < tl || len < (if tl = 0 then 256 + 8 * n else imgTmpl n + tl)
  || sh.any (fun x => x.2 = 0 || 2 ^ 20 < x.1 + x.2) || shadowsMeet sh || 2 ^ 19 < sh.foldl (fun m x => m + x.2) 0

/-- The program of an image. -/
def imgProg (b : List Byte) : Prog :=
  let n := le b 8 4
  { level := le b 5 1, features := BitVec.ofNat 8 (le b 6 1), entry := (List.range 16).map (fun i => le b (16 + 4 * i) 4),
    shadow := imgShadow b (le b 7 1), words := (List.range n).map (fun i => BitVec.ofNat 64 (le b (256 + 8 * i) 8)),
    tmpl := (b.drop (imgTmpl n)).take (le b 12 4) }

/-- PROG_LOAD (03 R96, R97; 02 R88). -/
def opProgLoad (_q : Nat) (e : Entry) (s : State) : HRes :=
  let c := e.ctxf
  let a := le e.pl 0 8
  let len := le e.pl 8 4
  if dirty e.pl 12 52 then fin (Res.skip 2) s
  else if a % 64 ≠ 0 || len < 256 || 2 ^ 24 < len then fin (Res.skip 6) s
  else
    match vaRead c 0 a len s with
    | (s, .fault va) => stopAt stPageFault va s
    | (s, .ecc) => stopAt stEccUncorr 0 s
    | (s, .ok b) =>
      if imgBad b len then fin (Res.skip 6) s
      else if s.dev.compatLevel < le b 5 1 || (s.dev.compatLevel = 0 && (le b 6 1).testBit 0) then fin (Res.stat stVersionUnsup) s
      else
        match tfree s.prog (c * 512 + 1) 256 with
        | none => fin (Res.deny 3) s
        | some k => fin (Res.ok (k % 512)) (s.putProg k (imgProg b))

/-- PROG_RUN (03 R98, R99; 11 R419): its run waits for its clusters; the arbiter looks at it at once (11 R421). -/
def opProgRun (q : Nat) (e : Entry) (s : State) : HRes :=
  let c := e.ctxf
  let pl := e.pl
  let prog := le pl 0 8
  let lg := ones (BitVec.ofNat 128 (le pl 16 16))
  let ph := lg.map (physOf s c)
  let entry := le pl 8 1
  let stop := le pl 32 8
  let p := if prog = 0 || 256 < prog then none else s.getProg (c * 512 + prog)
  let pcOk := match p with | some x => decide (entry < 16) && decide (nth x.entry entry 0 < x.words.length) | none => false
  if dirty pl 9 1 || dirty pl 12 4 || dirty pl 56 8 then fin (Res.skip 2) s
  else if ph.any (fun k => !s.fuse.clusterEn.getLsbD k) then fin (Res.stat stEngineAbsent) s
  else if lg.isEmpty || ph.any (fun k => !(s.casAt (ctxCas s c)).clusters.getLsbD k) || !pcOk
      || (stop ≠ 0 && (le pl 40 8 % 4096 ≠ 0 || le pl 48 8 < dumpLen lg.length)) then fin (Res.skip 6) s
  else
    match p, tfree s.run 1 (s.run.length + 1) with
    | some x, some r =>
      let (u, s) := s.newUid
      let v : Run :=
        { ctx := c, q := q, uid := e.uid, prog := prog, entryPc := nth x.entry entry 0, clusters := lg, skipLimit := le pl 10 2,
          stopIndex := BitVec.ofNat 64 stop, dumpAddr := le pl 40 8, dumpLen := le pl 48 8,
          args := (List.range 8).map (fun i => BitVec.ofNat 64 (le pl (64 + 8 * i) 8)), noSave := (hB e.hdr).testBit 0,
          release := (hB e.hdr).testBit 1, skips := 0, added := 0, st := .waiting, order := u, heldSince := 0, stop := none, tag := e.tag,
          keeper := none, migHold := false, watch := false, wrote := [] }
      going (arbitrate (s.putRun r v))
    | _, _ => fin (Res.skip 6) s

/-- PROG_UNLOAD (03 R102; 12 R441): DEFERRED while a fetched PROG_RUN may name the program, or it is the step program of a serving
casement. -/
def opProgUnload (_q : Nat) (e : Entry) (s : State) : HRes :=
  let c := e.ctxf
  let h := hA e.hdr
  let k := c * 512 + h
  let busy := s.queue.any (fun x => x.2.ctx = c && !x.2.admin && x.2.es.any (fun y =>
    y.opc = 0x0402 && !y.isDone && (if y.pl.isEmpty then true else le y.pl 0 8 = h)))
  let serving := s.cas.any (fun x => x.2.svc.mode ≠ 0 && x.2.svc.ctx = some c && x.2.svc.prog = h)
  if h = 0 || 256 < h || (s.getProg k).isNone then fin (Res.skip 6) s
  else if busy || serving then deferOp s
  else fin (Res.ok 0) (s.delProg k)

/-! The skip log. -/

/-- A skip-log entry as it is read (03 Table 3.13). -/
def skipBytes (k : Skip) : List Byte :=
  toLE (k.tag + k.info % 256 * 2 ^ 16 + k.leaf * 2 ^ 24 + k.cluster % 128 * 2 ^ 25 + k.reason * 2 ^ 32 + k.pc % 2 ^ 24 * 2 ^ 40) 8
  ++ toLE k.cmdIdx.toNat 4 ++ toLE k.time.toNat 4

/-- SKIPLOG_READ (03 R139). -/
def opSkiplogRead (_q : Nat) (e : Entry) (s : State) : HRes :=
  match s.getCtx e.ctxf with
  | none => fin (Res.skip 6) s
  | some x =>
    let l := x.skips.take (hA e.hdr)
    match vaWrite e.ctxf e.uid (hD e.hdr) (padTo 16 (toLE x.skipN 8 ++ toLE x.skips.length 2) ++ l.flatMap skipBytes) s with
    | (s, .fault a) => stopAt stPageFault a s
    | (s, .ecc) => stopAt stEccUncorr 0 s
    | (s, .ok) =>
      fin (Res.ok l.length) (if (hB e.hdr).testBit 0 then s.updCtx e.ctxf (fun x => { x with skips := [], skipN := 0 }) else s)

/-! Latches. -/

/-- Latches a casement's contexts hold. -/
def latchesHeld (s : State) (k : Nat) : Nat := (s.latch.filter (fun e => ctxCas s e.2.owner = k && (s.getCtx e.2.owner).isSome)).length

/-- The lowest free latch index of a leaf, below a limit; a freed index that commands still name is not free (03 R132; log 17). -/
def freeLatchOn (s : State) (leaf lim : Nat) : Option Nat :=
  (List.range 8192).findSome? (fun i =>
    let l := leaf * 8192 + i
    if l < lim && (s.getLatch l).isNone && (s.getLatchHold l).isNone then some l else none)

/-- LATCH_ALLOC (03 Table 3.12; 11 R410; 02 R87). -/
def opLatchAlloc (q : Nat) (e : Entry) (s : State) : HRes :=
  let c := e.ctxf
  let k := ctxCas s c
  let home := homeLeaf s k
  let first := if (hA e.hdr).testBit 0 then 1 - home else home
  let lim := if isV3 s q then 4096 else 16384
  if (s.casAt k).latches ≤ latchesHeld s k then fin (Res.deny 3) s
  else
    match (freeLatchOn s first lim).orElse (fun _ => freeLatchOn s (1 - first) lim) with
    | none => fin (Res.deny 3) s
    | some l => fin (Res.ok l) (s.putLatch l { value := BitVec.ofNat 64 (hC e.hdr), poison := false, owner := c })

/-- Cores stalled in a wait on latch l go on, or fail (03 R129, R134). -/
def wakeCores (l : Nat) (s : State) : State :=
  forEach (tkeys s.core) (fun cl s =>
    match (s.coreAt cl).stall with
    | some (l', v) =>
      if l' ≠ l then s
      else match waitOn s l v with
        | .met => s.modCore cl (fun c => { c with stall := none })
        | .failed => stopRun cl stLatchPoisoned (s.coreAt cl).pc 0 (s.modCore cl (fun c => { c with stall := none }))
        | .pending => s
    | none => s) s

/-- Engine commands at the head of their engine whose wait on latch l fails stop their run (03 R129, R134). -/
def failCmds (l : Nat) (s : State) : State :=
  forEach (tkeys s.core) (fun cl s =>
    match (s.coreAt cl).eq.find? (fun e => e.st = .queued && e.spec.isEmpty && eWaitEn e.words && eWaitLatch e.words = l && !e.met && !behind (s.coreAt cl) e) with
    | some e => (match waitOn s l e.words.w1 with
      | .failed => stopRun cl stLatchPoisoned e.pc 0 (poisonEnv e s)
      | _ => s)
    | none => s) s

/-- A command that waits at the head of its queue, or holds it as a LATCH_WAIT, on a poisoned latch fails (03 R128, R129), but for one whose wait
has been satisfied. -/
def failWaits (l : Nat) (s : State) : State :=
  forEach (tkeys s.queue) (fun q s =>
    match s.getQueue q with
    | none => s
    | some x =>
      forEach (x.es.filter (fun e => !e.met && (
        (e.ph = .waiting && e.chk && hWaitEn e.hdr && hWaitLatch e.hdr = l) || (e.ph = .running && e.opc = 0x0504 && hA e.hdr = l)))) (fun e s =>
          match waitOn s l (if e.ph = .waiting then hWaitVal e.hdr else BitVec.ofNat 64 (hC e.hdr)) with
          | .failed => completeEntry q e.uid (Res.stat stLatchPoisoned) 0 s
          | _ => s) s) s

/-- Every wait on latch l is looked at (03 R129). -/
def evalWaits (l : Nat) (s : State) : State := failWaits l (failCmds l (wakeCores l (noteMet l s)))

/-- LATCH_FREE (03 R132): the latch is poisoned, the waits pending on it fail, and it is freed. -/
def opLatchFree (_q : Nat) (e : Entry) (s : State) : HRes :=
  let l := hA e.hdr
  if !ownsLatch s e.ctxf l then fin (Res.skip 6) s
  else fin (Res.ok 0) (freeLatch l (evalWaits l (poisonLatch l s)))

/-- LATCH_SIGNAL starts; its signal comes when every earlier command of its queue has completed (02 R66, Table 2.9). -/
def opLatchSignal (_q : Nat) (e : Entry) (s : State) : HRes := if ownsLatch s e.ctxf (hA e.hdr) then going s else fin (Res.skip 6) s

/-- A LATCH_SIGNAL in progress goes on. -/
def signalGo (q : Nat) (e : Entry) (s : State) : State :=
  match s.getQueue q with
  | none => s
  | some x =>
    if !earlierDone x e.uid then s
    else
      let l := hA e.hdr
      let s : State := if ownsLatch s e.ctxf l then signalLatch l (BitVec.ofNat 64 (hC e.hdr)) ((hB e.hdr).testBit 0) s else s
      completeEntry q e.uid (Res.ok 0) 0 s

/-- LATCH_WAIT starts: it holds its queue while its wait is pending (03 Table 3.12). -/
def opLatchWait (_q : Nat) (e : Entry) (s : State) : HRes := if ownsLatch s e.ctxf (hA e.hdr) then going s else fin (Res.skip 6) s

/-- A LATCH_WAIT in progress goes on. -/
def waitGo (q : Nat) (e : Entry) (s : State) : State :=
  match (if e.met then .met else waitOn s (hA e.hdr) (BitVec.ofNat 64 (hC e.hdr))) with
  | .met => completeEntry q e.uid (Res.ok 0) 0 s
  | .failed => completeEntry q e.uid (Res.stat stLatchPoisoned) 0 s
  | .pending => s

/-- LATCH_POISON (03 Table 3.12). -/
def opLatchPoison (_q : Nat) (e : Entry) (s : State) : HRes :=
  if ownsLatch s e.ctxf (hA e.hdr) then fin (Res.ok 0) (poisonLatch (hA e.hdr) s) else fin (Res.skip 6) s

/-- LATCH_READ (03 Table 3.12; 02 R87). -/
def opLatchRead (q : Nat) (e : Entry) (s : State) : HRes :=
  match s.getLatch (hA e.hdr) with
  | none => fin (Res.skip 6) s
  | some x =>
    if x.owner ≠ e.ctxf then fin (Res.skip 6) s
    else
      let res := if isV3 s q && decide (2 ^ 32 ≤ x.value.toNat) then 0xFFFFFFFF else x.value.toNat % 2 ^ 32
      if hD e.hdr = 0 then fin (Res.ok res) s
      else
        match vaWrite e.ctxf e.uid (hD e.hdr) (toLE x.value.toNat 8 ++ toLE (b2n x.poison) 1 ++ toLE x.owner 2 ++ zeros 5) s with
        | (s, .ok) => fin (Res.ok res) s
        | (s, .fault a) => stopAt stPageFault a s
        | (s, .ecc) => stopAt stEccUncorr 0 s

end Sys2Proof.Machine
end

