-- ==== Sys2Proof/Machine/HostSeq.lean ====
section
/-! DEFINITION. Sequences: SEQ_OPEN, SEQ_COMMIT, SEQ_DROP, SEQ_CLOSE (06 R218-R238, 12 R451). -/

namespace Sys2Proof.Machine

/-- A sequence as a SEQ_OPEN payload describes it (06 Table 6.1). -/
def seqOf (c sref use : Nat) (pl : List Byte) : Seq :=
  { ctx := c, pt := le pl 0 8, calib := le pl 8 8, sref := sref, r0Base := le pl 16 4, r0Len := le pl 20 4, r1Base := le pl 24 4,
    r1Len := le pl 28 4, nlog2 := le pl 32 1, layout := le pl 33 1, kfmt := le pl 34 1, vfmt := le pl 35 1, sg := le pl 36 1,
    headDim := le pl 37 1, kvh := le pl 38 1, layers := le pl 39 1, pmax := le pl 40 2,
    pool := (List.range 12).map (fun i => le pl (48 + 2 * i) 2), c := 0, dropped := [], held := none, closing := none, lastKey := 0,
    lastUse := use, wild := false }

/-- Bytes of the calibration set (06 R226). -/
def calibLen (x : Seq) : Nat := x.layers * x.kvh * 2 * (headDim x.headDim / gSize (x.sg % 4))

/-- The conditions of 06 R220. -/
def seqBad (s : State) (c : Nat) (x : Seq) : Bool :=
  let p := 2 ^ x.nlog2
  x.nlog2 < 4 || 14 < x.nlog2 || x.r0Len = 0 || x.r0Len % p ≠ 0 || x.r1Len % p ≠ 0 || 1 < x.layout || !isKvFmt x.kfmt || !isKvFmt x.vfmt
  || x.sg % 4 = 0 || 2 < x.headDim || x.kvh < 1 || 16 < x.kvh || x.layers < 1 || x.pmax < 1 || 4096 < x.pmax || x.pt % 4096 ≠ 0
  || x.calib % 64 ≠ 0
  || (x.r1Len ≠ 0 && decide (x.r0Base < x.r1Base + x.r1Len) && decide (x.r1Base < x.r0Base + x.r0Len))
  || 2 ^ 26 < x.r0Base + x.r0Len || (x.r1Len ≠ 0 && 2 ^ 26 < x.r1Base + x.r1Len)
  || x.pmax < (x.r0Len + x.r1Len) / p || (x.layout = 0 && (x.r0Base ≠ 0 || x.r1Len ≠ 0))
  || !insideOwn s c x.pt (x.layers * x.pmax * 8) (fun _ => true) || !insideOwn s c x.calib (calibLen x) (fun _ => true)
  || (List.range 12).any (fun t => nth x.pool t 0 ≠ 0 && !(s.alloc.any (fun e =>
      e.2.kind = .stripe && e.2.ctx = c && e.2.handle = nth x.pool t 0 && e.2.smask = BitVec.twoPow 12 t)))
  || (ajar s && (x.kfmt = 0x13 || x.vfmt = 0x13))

/-- The calibration entry of a context and address: the one registered, or the lowest free (06 R226). -/
def calibEntry (s : State) (c a : Nat) : Option Nat :=
  match s.calib.find? (fun e => e.2.1 = c && e.2.2 = a) with
  | some (k, _) => some k
  | none => tfree s.calib 0 4096

/-- SEQ_OPEN (06 R218-R220): takes the lowest free slot, writes its page table, and places the pages of its reserve. The key that an automatic
park would use before any request has named the sequence is not stated (12 R447; log 8). -/
def opSeqOpen (_q : Nat) (e : Entry) (s : State) : HRes :=
  let c := e.ctxf
  let pl := e.pl
  if dirty pl 42 2 || dirty pl 72 56 || 8 ≤ le pl 36 1 then fin (Res.skip 2) s
  else if seqBad s c (seqOf c 0 0 pl) then fin (Res.skip 6) s
  else
    match tfree s.seq 0 16384, calibEntry s c (le pl 8 8) with
    | some q, some k =>
      let (u, s1) := s.newUid
      let (n, s1) := State.fresh s1
      let x : Seq := { seqOf c k u pl with lastKey := Config.freeWord n 0 }
      let s1 : State := (s1.putSeq q x).putCalib k (c, x.calib)
      let s1 : State := vaPut c x.pt (zeros (x.layers * x.pmax * 8)) s1
      match reserveSlots q (Nat.min (le pl 44 4) (2 ^ 26)) s1 with
      | some s2 => fin (Res.ok q) s2
      | none => fin (Res.deny 3) s
    | _, _ => fin (Res.deny 3) s

/-- The sequence a packet names, when it is open in the packet's context. -/
def namedSeq (s : State) (c q : Nat) : Option Seq := liveSeq s c q

/-- SEQ_COMMIT (06 R232; 12 R451). -/
def opSeqCommit (_q : Nat) (e : Entry) (s : State) : HRes :=
  let q := hA e.hdr
  match namedSeq s e.ctxf q with
  | none => fin (Res.skip 6) s
  | some x =>
    if x.held.isSome then deferOp s
    else let (r, s) := seqCommitDo q (hC e.hdr) (hD e.hdr) s; fin r s

/-- SEQ_DROP (06 R237): a layer or slot that the sequence has not is out of range. It frees RESIDENT and TENTATIVE pages; a PARKED or EXPIRED one
keeps its state (R230). -/
def opSeqDrop (_q : Nat) (e : Entry) (s : State) : HRes :=
  let q := hA e.hdr
  let l0 := hB e.hdr % 256
  let l1 := hB e.hdr / 256
  let k0 := hC e.hdr
  let n := hD e.hdr
  match namedSeq s e.ctxf q with
  | none => fin (Res.skip 6) s
  | some x =>
    if x.held.isSome then deferOp s
    else if l1 < l0 || x.layers ≤ l1 || slotCount x < k0 + n
        || (List.range n).any (fun i => x.c < slotStart x (k0 + i) + 2 ^ x.nlog2) then fin (Res.skip 6) s
    else
      let lk := (List.range (l1 - l0 + 1)).flatMap (fun a => (List.range n).map (fun i => (l0 + a, k0 + i)))
      let pgs := lk.filterMap (fun p => (pageAt s q p.1 p.2).map (fun y => y.1))
      let deps := (startedUids s (some e.ctxf)).filter (fun u => u ≠ e.uid)
      let s : State := s.updSeq q (fun y => { y with dropped := y.dropped ++ lk.filter (fun p => !(y.dropped.contains p)) })
      let s : State := freePages (pgs.filter (fun i => match s.getPage i with | some p => p.st = .resident || p.st = .tentative | none => false)) deps s
      fin (Res.ok pgs.length) (forEach lk (fun p s => writePte q p.1 p.2 s) s)

/-- SEQ_CLOSE (06 R238). -/
def opSeqClose (_q : Nat) (e : Entry) (s : State) : HRes :=
  let q := hA e.hdr
  match namedSeq s e.ctxf q with
  | none => fin (Res.skip 6) s
  | some x =>
    if x.held.isSome then deferOp s
    else
      let n := ((pagesOf s q).filter (fun p => p.2.freeing.isNone)).length
      fin (Res.ok n) (closeSeq q ((startedUids s (some e.ctxf)).filter (fun u => u ≠ e.uid)) s)

end Sys2Proof.Machine
end

