-- ==== Sys2Proof/Machine/HostReq.lean ====
section
/-! DEFINITION. Requests and parking: REQ_SUBMIT, REQ_CANCEL (12 R449-R455), REQ_PARK, REQ_RESUME (12 R461-R463, 09 R357-R359). -/

namespace Sys2Proof.Machine

/-- The casement serves requests through context c (12 R442). -/
def serves (s : State) (c : Nat) : Bool := let v := (s.casAt (ctxCas s c)).svc; v.mode ≠ 0 && v.ctx = some c

/-- The sequences named in four 16-bit fields; 0xFFFF names none. -/
def seqNames (pl : List Byte) (lo : Nat) : List Nat := ((List.range 4).map (fun i => le pl (lo + 2 * i) 2)).filter (fun q => q ≠ 0xFFFF)

/-- The first position past a sequence's ranges. -/
def rangesEnd (x : Seq) : Nat := Nat.max (x.r0Base + x.r0Len) (if x.r1Len = 0 then 0 else x.r1Base + x.r1Len)

/-- Same committed length and ranges. -/
def partners (x y : Seq) : Bool :=
  x.c = y.c && x.r0Base = y.r0Base && x.r0Len = y.r0Len && x.r1Len = y.r1Len && (x.r1Len = 0 || x.r1Base = y.r1Base)

/-- A range of one of a context's own allocations after another: every granule is its own. -/
def ownMapped (s : State) (c va n : Nat) : Bool :=
  decide (va + n ≤ 2 ^ 52) && (pieces 4096 va n).all (fun p => s.alloc.any (fun e => e.2.ctx = c && e.2.has p.1))

/-- TOP_P lies above 0 and at most 1. -/
def topPok (x : Nat) : Bool := decide (0 < x) && decide (x ≤ 0x3F800000)

/-- The conditions of 12 R450 step 2. -/
def reqBad (s : State) (c : Nat) (pl : List Byte) : Bool :=
  let v := (s.casAt (ctxCas s c)).svc
  let plen := le pl 8 4
  let mt := le pl 12 4
  let out := le pl 16 8
  let recA := le pl 24 8
  let sg := le pl 38 2
  let seqs := seqNames pl 48
  let fl := le pl 36 1
  let xs := seqs.filterMap (fun q => namedSeq s c q)
  dirty pl 37 1 || 16 ≤ fl || fl / 4 % 4 = 3 || sg.testBit 14 || dirty pl 74 2 || dirty pl 100 28 || le pl 0 8 % 4 ≠ 0 || plen < 1
  || 16777216 < plen || 65536 < mt || out % 64 ≠ 0 || (mt = 0 && out ≠ 0) || recA % 64 ≠ 0 || le pl 48 2 = 0xFFFF || !topPok (le pl 68 4)
  || le pl 72 2 < 1 || v.sampleK < le pl 72 2 || (sg.testBit 15 && !ownsLatch s c (sg % 2 ^ 14))
  || !ownMapped s c (le pl 0 8) (4 * plen) || (mt ≠ 0 && !ownMapped s c out (4 * mt)) || !ownMapped s c recA 64
  || xs.length < seqs.length
  || (match xs with | x :: r => r.any (fun y => !partners x y) || rangesEnd x < x.c + plen + mt | [] => true)

/-- A sequence has a PARKED page. -/
def hasParked (s : State) (q : Nat) : Bool := (pagesOf s q).any (fun p => p.2.st = .parked)

/-- Requests of a casement that have not ended. -/
def liveOf (s : State) (k : Nat) : Nat := (s.req.filter (fun e => e.2.cas = k && e.2.st ≠ .ended)).length

/-- The lowest request ID that no unended request has. -/
def freeReq (s : State) : Option Nat :=
  (List.range (s.req.length + 1)).find? (fun i => match s.getReq i with | some r => r.st = .ended | none => true)

/-- A request as its payload describes it (12 Table 12.4). -/
def reqOf (s : State) (c order : Nat) (pl : List Byte) : Req :=
  let k := ctxCas s c
  let now := s.ctr (homeLeaf s k)
  let fl := le pl 36 1
  let dl := le pl 32 4
  { ctx := c, cas := k, st := .queued, order := order, prompt := le pl 0 8, promptLen := le pl 8 4, maxTok := le pl 12 4,
    outAddr := le pl 16 8, recAddr := le pl 24 8, deadline := if dl = 0 then none else some (now.toNat + dl * 1050),
    keep := fl.testBit 0, stream := fl.testBit 1, onEnd := fl / 4 % 4, sigEn := (le pl 38 2).testBit 15, sigLatch := le pl 38 2 % 2 ^ 14,
    sigVal := BitVec.ofNat 64 (le pl 40 8), seqs := (List.range 4).map (fun i => le pl (48 + 2 * i) 2), seed := BitVec.ofNat 64 (le pl 56 8),
    temp := BitVec.ofNat 32 (le pl 64 4), topP := BitVec.ofNat 32 (le pl 68 4), topK := le pl 72 2,
    stops := (List.range 3).map (fun i => le pl (76 + 4 * i) 4), key := BitVec.ofNat 64 (le pl 88 8), ttl := le pl 96 4, accept := now,
    taken := 0, toks := [], steps := 0, firstUs := none, pages := 0, status := 0, cause := 0, cancel := none, endTime := 0 }

/-- The keys of a request's sequences: SEQi parks with key + i (12 Table 12.4). `pl` holds the four fields at `lo`. -/
def seqKeys (pl : List Byte) (lo : Nat) (key : Nat) : List (Nat × Word) :=
  (List.range 4).filterMap (fun i => let q := le pl (lo + 2 * i) 2; if q = 0xFFFF then none else some (q, BitVec.ofNat 64 (key + i)))

/-- REQ_SUBMIT (12 R442, R449, R450). -/
def opReqSubmit (_q : Nat) (e : Entry) (s : State) : HRes :=
  let c := e.ctxf
  let pl := e.pl
  let seqs := seqNames pl 48
  if !serves s c then fin (Res.skip 5) s
  else if reqBad s c pl then fin (Res.skip 6) s
  else if s.dev.compatLevel < 2 && (le pl 36 1 / 4 % 4 = 1 || seqs.any (hasParked s)) then fin (Res.stat stVersionUnsup) s
  else if seqs.any (fun q => match s.getSeq q with | some x => x.held.isSome | none => false) then deferOp s
  else if (s.casAt (ctxCas s c)).svc.maxReq ≤ liveOf s (ctxCas s c) then fin (Res.deny 3) s
  else
    match freeReq s with
    | none => fin (Res.deny 3) s
    | some id =>
      let (u, s) := s.newUid
      let s : State := s.putReq id (reqOf s c u pl)
      let s : State := forEach (seqKeys pl 48 (le pl 88 8)) (fun k s => s.updSeq k.1 (fun x => { x with held := some id, lastKey := k.2, lastUse := u })) s
      fin (Res.ok id) s

/-- REQ_CANCEL starts (12 R455): it completes after the request's final record. -/
def opReqCancel (q : Nat) (e : Entry) (s : State) : HRes :=
  let id := hA e.hdr
  if !serves s e.ctxf then fin (Res.skip 5) s
  else
    match s.getReq id with
    | none => fin (Res.skip 6) s
    | some r =>
      if r.ctx ≠ e.ctxf || r.st = .ended then fin (Res.skip 6) s
      else going (s.updReq id (fun r => { r with cancel := some (q, e.uid) }))

/-- A REQ_CANCEL in progress goes on. -/
def cancelGo (q : Nat) (e : Entry) (s : State) : State :=
  match s.getReq (hA e.hdr) with
  | some r => if r.st = .ended then completeEntry q e.uid (Res.ok 0) 0 s else s
  | none => completeEntry q e.uid (Res.ok 0) 0 s

/-- Enters a park job or restore; one with no page to move has nothing to do. -/
def addJob (j : Job) (s : State) : State := if j.pages.isEmpty then s else let (u, s) := s.newUid; s.putJob u j

/-- The command of a job goes on while the job is there, and completes at once where no page was to move. -/
def jobStarted (uid : Nat) (s : State) : HRes := if s.job.any (fun j => j.2.uid = uid && j.2.req.isNone) then going s else fin (Res.ok 0) s

/-- A sequence is held by a request. -/
def seqHeld (s : State) (q : Nat) : Bool := match s.getSeq q with | some x => x.held.isSome | none => false

/-- A park job over sequences: their TENTATIVE pages are freed and their RESIDENT pages are listed in page map order (09 R357, R358). -/
def startPark (keys : List (Nat × Word)) (ttl leaf q uid : Nat) (req : Option Nat) (s : State) : State :=
  let mine := fun (p : Page) => !p.orphan && p.freeing.isNone && keys.any (fun k => k.1 = p.seq)
  let tent := (s.page.filter (fun e => mine e.2 && e.2.st = .tentative)).map (fun e => e.1)
  let s : State := freePages tent [] s
  let res := (s.page.filter (fun e => mine e.2 && e.2.st = .resident)).map (fun e => e.1)
  addJob { park := true, leaf := leaf, pages := res, phase := 0, keys := keys, ttl := ttl, q := q, uid := uid, req := req, moved := 0, unit := 0 } s

/-- REQ_PARK starts (12 R461). -/
def opReqPark (q : Nat) (e : Entry) (s : State) : HRes :=
  let pl := e.pl
  let c := e.ctxf
  let seqs := seqNames pl 0
  if dirty pl 20 12 then fin (Res.skip 2) s
  else if le pl 0 2 = 0xFFFF || seqs.any (fun x => (namedSeq s c x).isNone) then fin (Res.skip 6) s
  else if ajar s || seqs.any (seqHeld s) then deferOp s
  else jobStarted e.uid (startPark (seqKeys pl 0 (le pl 8 8)) (le pl 16 4) (homeLeaf s (ctxCas s c)) q e.uid none s)

/-- Restores the PARKED (and meets the EXPIRED) pages of sequences, earliest EXPIRY first (12 R462, R463). -/
def startRestore (seqs : List Nat) (leaf q uid : Nat) (req : Option Nat) (s : State) : State :=
  let l := s.page.filter (fun e => !e.2.orphan && e.2.freeing.isNone && seqs.contains e.2.seq && (e.2.st = .parked || e.2.st = .expired))
  addJob { park := false, leaf := leaf, pages := (sortBy (fun e : Nat × Page => e.2.expiry) l).map (fun e => e.1), phase := 0, keys := [],
           ttl := 0, q := q, uid := uid, req := req, moved := 0, unit := 0 } s

/-- The far records that a resumption adopts for one sequence: valid, with its key, and no page of another context (11 R416). -/
def adoptable (s : State) (c : Nat) (key : Word) : List (Nat × FRec) :=
  (fdir s).filter (fun e => e.2.crcOk && e.2.mark = .complete && e.2.key = key
    && (match s.getPage e.1 with | some p => (p.orphan || p.ctx = c) && p.st = .parked | none => false))

/-- A record fits the sequence that adopts it. -/
def adoptFits (x : Seq) (d : FRec) : Bool :=
  d.size = x.nlog2 && d.kfmt = x.kfmt && d.vfmt = x.vfmt && d.sfmt = x.sg / 4 % 2 && d.g = x.sg % 4 && decide (d.layer < x.layers)
  && decide (d.slot < x.pmax)

/-- CLEN lies within the adopted slots, and every slot below it is adopted in every layer. -/
def adoptCovers (x : Seq) (clen : Nat) (l : List (Nat × FRec)) : Bool :=
  (clen = 0 || l.any (fun d => decide (clen ≤ slotStart x d.2.slot + 2 ^ x.nlog2)))
  && (List.range (slotCount x)).all (fun k => decide (clen ≤ slotStart x k)
      || (List.range x.layers).all (fun ly => l.any (fun d => d.2.layer = ly && d.2.slot = k)))

/-- Two records for one layer and slot. -/
def twice : List (Nat × FRec) → Bool
  | [] => false
  | x :: r => r.any (fun y => x.2.layer = y.2.layer && x.2.slot = y.2.slot) || twice r

/-- Takes over one record and its page map entry for sequence q. -/
def adoptOne (c q : Nat) (x : Seq) (d : Nat × FRec) (s : State) : State :=
  let old := match s.getPage d.1 with | some p => if p.orphan then none else some (p.seq, p.layer, p.slot) | none => none
  let s : State := s.putFdir d.1 { d.2 with ctx := c, seq := q, sref := x.sref }
  let s : State := s.updPage d.1 (fun p => { p with ctx := c, seq := q, sref := x.sref, layer := d.2.layer, slot := d.2.slot, orphan := false })
  let s : State := writePte q d.2.layer d.2.slot s
  match old with | some (a, l, k) => writePte a l k s | none => s

/-- REQ_RESUME starts (12 R462); the committed length of an adopting sequence never decreases (06 R231). -/
def opReqResume (q : Nat) (e : Entry) (s : State) : HRes :=
  let pl := e.pl
  let c := e.ctxf
  let seqs := seqNames pl 0
  let adopt := (le pl 20 1).testBit 0
  let clen := le pl 16 4
  let keys := seqKeys pl 0 (le pl 8 8)
  let leaf := homeLeaf s (ctxCas s c)
  if dirty pl 21 11 || 1 < le pl 20 1 then fin (Res.skip 2) s
  else if le pl 0 2 = 0xFFFF || seqs.any (fun x => (namedSeq s c x).isNone) then fin (Res.skip 6) s
  else if ajar s || seqs.any (seqHeld s) then deferOp s
  else if !adopt then jobStarted e.uid (startRestore seqs leaf q e.uid none s)
  else
    let bad := keys.any (fun k => match s.getSeq k.1 with
      | none => true
      | some x =>
        let l := adoptable s c k.2
        !(pagesOf s k.1).isEmpty || twice l || !(l.all (fun d => adoptFits x d.2)) || !adoptCovers x clen l)
    if bad then fin (Res.skip 6) s
    else
      let s : State := forEach keys (fun k s => match s.getSeq k.1 with
        | none => s
        | some x => forEach (adoptable s c k.2) (adoptOne c k.1 x) (s.updSeq k.1 (fun y => { y with c := Nat.max y.c clen }))) s
      jobStarted e.uid (startRestore seqs leaf q e.uid none s)

end Sys2Proof.Machine
end

