-- ==== Sys2Proof/Machine/HostMaint.lean ====
section
/-! DEFINITION. Maintenance and power: SELFTEST (15 R540-R543), ECC_TEST (09 R349-R351), LINK_CALIB (10 R371, R372), PWR_SET_LIMIT, PWR_READ
(14 R516, R517). -/

namespace Sys2Proof.Machine

/-! Self-test. -/

/-- A self-test with WINDOW is running on a stack. -/
def windowTest (s : State) (st : Nat) : Bool :=
  s.cas.any (fun e => match e.2.selftest with | some (_, _, t, k) => t.testBit 4 && k = st | none => false)

/-- SELFTEST starts (15 R540, R541). One test at a time runs for a CASEMENT, a test of WINDOW alone among them (log 47). -/
def opSelftest (q : Nat) (e : Entry) (s : State) : HRes :=
  let pl := e.pl
  let k := le pl 0 1
  let t := le pl 1 1
  let st := le pl 2 1
  if dirty pl 3 5 || dirty pl 16 16 || 31 < t || t = 0 || 15 < k || 11 < st || le pl 8 8 % 64 ≠ 0 then fin (Res.skip 6) s
  else if t ≠ 16 && !reachesCas s q k then fin (Res.deny 1) s
  else if ajar s then deferOp s
  else if t % 16 ≠ 0 && !(ctxsOf s k).isEmpty then fin { st := stDeferred, det := 0, res := 0xFFFFFFFF } s
  else if (s.casAt k).selftest.isSome || (t.testBit 4 && windowTest s st) then deferOp s
  else going (s.modCas k (fun v => { v with selftest := some (q, e.uid, t, st) }))

/-- The test window of a stack becomes undefined (09 R351, 15 R542). -/
def havocWindow (st : Nat) (s : State) : State :=
  let (k, s) := State.fresh s
  (s.onWindow (tfilter (fun w _ => w / 16384 ≠ st))).putWinFree st k

/-- The result record of a self-test (15 R543): `res` gives units, failures, first failing unit and duration of each test. -/
def selftestRecord (t : Nat) (res : List (Nat × Nat × Nat × Nat)) : List Byte :=
  padTo 128 ((List.range 5).flatMap (fun i =>
    if t.testBit i then
      let r := nth res i (0, 0, 0xFFFFFFFF, 0)
      toLE r.1 4 ++ toLE r.2.1 4 ++ toLE (if r.2.1 = 0 then 0xFFFFFFFF else r.2.2.1) 4 ++ toLE r.2.2.2 4
    else zeros 16))

/-- Zeros a casement's bank sets but for the test window (15 R542). -/
def zeroBanks (bs : BitVec 64) (s : State) : State :=
  forEach ((List.range 12).flatMap (fun t => (ones bs).map (fun b => stAddr t b 0))) (fun a s =>
    let n := if saBank a = 63 then 0x3FF00000 else 2 ^ 30
    (s.onStackMem (fun m => mclear m a n)).onHealth (fun h => h.filter (fun e => !(decide (a ≤ e.1 * 64) && decide (e.1 * 64 < a + n))))) s

/-- SELFTEST_DONE (15 R542, R543). -/
def selftestDone (k : Nat) (res : List (Nat × Nat × Nat × Nat)) (s : State) : State :=
  match (s.casAt k).selftest with
  | none => s
  | some (q, uid, t, st) =>
    let s : State := s.modCas k (fun v => { v with selftest := none })
    let s : State := if t.testBit 2 then zeroBanks (casBs s k) s else s
    let s : State := if t.testBit 4 then havocWindow st s else s
    match findEntry s q uid with
    | none => s
    | some e =>
      let s : State := busWrite (fnPort q) (le e.pl 8 8) (selftestRecord t res) s
      let total := (List.range 5).foldl (fun n i => if t.testBit i then n + (nth res i (0, 0, 0, 0)).2.1 else n) 0
      completeEntry q uid (Res.ok (total % 2 ^ 32)) 0 s

/-- A reset discards a self-test in its scope (15 R542): its record is undefined, and so is what it tested. -/
def dropTest (k : Nat) (s : State) : State :=
  match (s.casAt k).selftest with
  | none => s
  | some (q, uid, t, st) =>
    let s : State := s.modCas k (fun v => { v with selftest := none })
    let s : State := if t.testBit 2 then zeroBanks (casBs s k) s else s
    let s : State := if t.testBit 4 then havocWindow st s else s
    match findEntry s q uid with
    | none => s
    | some e =>
      let (n, s) := State.fresh s
      setDone q uid (Res.stat stDiscarded) (busWrite (fnPort q) (le e.pl 8 8) (freeBytes n 128) s)

/-! The ECC test window. -/

/-- Stack address of a window offset. -/
def winAddr (st off : Nat) : Nat := stAddr st 63 (0x3FF00000 + off)

/-- Data and check bytes stored at window word w of a stack. -/
def winRead (s : State) (st w : Nat) : List Byte × List Byte :=
  match s.getWindow (st * 16384 + w) with
  | some x => x
  | none =>
    let k := tgetD s.winFree st st
    ((List.range 64).map (fun i => Config.freeByte k (w * 72 + i)), (List.range 8).map (fun i => Config.freeByte k (w * 72 + 64 + i)))

/-- The check bytes of data at an address (09 R336), of the generator that no rule gives (log 11). -/
def checkOf (a : Nat) (d : List Byte) : List Byte := padTo 8 (Config.eccEncode a d)

/-- The check bytes of a poisoned code word (09 R337). -/
def poisonedOf (a : Nat) (d : List Byte) : List Byte := (List.range 8).map (fun i => nth (checkOf a d) i 0 ^^^ nth Config.poisonPattern i 0)

/-- Symbol j of a string replaced. -/
def putSym (d : List Byte) (j v : Nat) : List Byte := overlay d (2 * j) (toLE v 2)

/-- What the decoder says of data and check bytes at an address (09 R336, R337): 0 clean, 1 corrected, 2 uncorrectable, 3 poisoned; the
symbol; the data it returns. A word one symbol away from a code word is corrected to it, and no other is. -/
def eccVerdict (a : Nat) (d c : List Byte) : Nat × Nat × List Byte :=
  if c = checkOf a d then (0, 0xFF, d)
  else if c = poisonedOf a d then (3, 0xFF, d)
  else
    match (List.range 32).findSome? (fun j => (List.range 65536).findSome? (fun v =>
      if c = checkOf a (putSym d j v) then some (j, putSym d j v) else none)) with
    | some (j, d') => (1, j, d')
    | none =>
      match (List.range 4).find? (fun j => (List.range 65536).any (fun v => putSym c j v = checkOf a d)) with
      | some j => (1, 32 + j, d)
      | none => (2, 0xFF, d)

/-- The symbols, of the 36 of a code word, in which two words differ (09 Table 9.3). -/
def symDiff (d c d' c' : List Byte) : List Nat := bitsWhere 36 (fun j => le (d ++ c) (2 * j) 2 ≠ le (d' ++ c') (2 * j) 2)

/-- The address of a code word: one of those of the 768 bank sets (09 R321). -/
def isWordAddr (a : Nat) : Prop := a % 64 = 0 ∧ a < 768 * 2 ^ 30

/-- What Table 9.3 and R337 say of the generator and of the poison pattern (09 R336; log 11): code words of one address differ in at least four
symbols, so that an error in one is corrected and any in two is detected; a code word of one address is at least two symbols from those of another,
so that it does not decode there; and so is a poisoned word from every code word of its address. -/
def eccLawful : Prop :=
  (∀ (a : Nat) (d d' : List Byte), isWordAddr a → d.length = 64 → d'.length = 64 → d ≠ d' →
    4 ≤ (symDiff d (checkOf a d) d' (checkOf a d')).length)
  ∧ (∀ (a b : Nat) (d d' : List Byte), isWordAddr a → isWordAddr b → d.length = 64 → d'.length = 64 → a ≠ b →
    2 ≤ (symDiff d (checkOf a d) d' (checkOf b d')).length)
  ∧ ∀ (a : Nat) (d d' : List Byte), isWordAddr a → d.length = 64 → d'.length = 64 → 2 ≤ (symDiff d (poisonedOf a d) d' (checkOf a d')).length

/-- ECC_TEST acts (09 R350, R351): an access to the window wakes its stack and waits for a yield (01 R41; 05 R205, R209). -/
def eccDo (q : Nat) (e : Entry) (s : State) : HRes :=
  let pl := e.pl
  let op := le pl 0 1 % 128
  let count := (le pl 0 1).testBit 7
  let st := le pl 1 1
  let off := le pl 4 4
  let buf := le pl 8 8
  let port := fnPort q
  let a := winAddr st off
  let w := off / 64
  let verdict := fun (v : Nat × Nat × List Byte) (d c : List Byte) =>
    toLE v.1 1 ++ toLE v.2.1 1 ++ padTo 8 (Config.eccSyndrome a d c) ++ zeros 46
  let s : State := if op = 4 then s else reachBank a s
  if op = 1 then fin (Res.ok 0) (s.putWindow (st * 16384 + w) (busRead s port buf 64, busRead s port (buf + 64) 8))
  else if op = 4 then fin (Res.ok 0) (busWrite port (buf + 64) (checkOf a (busRead s port buf 64)) s)
  else
    let (d, c) := winRead s st w
    let v := eccVerdict a d c
    if op = 2 then fin (Res.ok 0) (busWrite port buf (d ++ c ++ verdict v d c) s)
    else
      let s : State := if !count then s else if v.1 = 1 then countCorr (a / 64) s else if v.1 = 0 then s else logUeAt 1 a s
      fin (Res.ok 0) (busWrite port buf (v.2.2 ++ c ++ verdict v d c) s)

/-- ECC_TEST starts (09 R349); it waits while its window is under test (15 R542). -/
def opEccTest (q : Nat) (e : Entry) (s : State) : HRes :=
  let pl := e.pl
  let op := le pl 0 1 % 128
  let st := le pl 1 1
  let off := le pl 4 4
  if dirty pl 2 2 || dirty pl 16 16 then fin (Res.skip 2) s
  else if op < 1 || 4 < op || 11 < st || off % 64 ≠ 0 || 2 ^ 20 ≤ off || le pl 8 8 % 64 ≠ 0 then fin (Res.skip 6) s
  else if !s.dev.stackIn.getLsbD st then deferOp s
  else if windowTest s st then going s
  else eccDo q e s

/-- An ECC_TEST in progress goes on. -/
def eccGo (q : Nat) (e : Entry) (s : State) : State :=
  if windowTest s (le e.pl 1 1) then s
  else attempt e.uid (fun s => match eccDo q e s with
    | (s, some (r, a)) => completeEntry q e.uid r a s
    | (s, none) => s) s

/-! Links. -/

/-- A port may calibrate its lanes (10 R372). -/
def canCalib (x : Port) : Bool := x.st = .up && !x.spare && x.level = 2

/-- LINK_CALIB starts (10 R372). -/
def opLinkCalib (q : Nat) (e : Entry) (s : State) : HRes :=
  let l := if ajar s then [] else (bitsWhere 16 (fun p => (hA e.hdr).testBit p)).filter (fun p => canCalib (s.portAt p))
  let s : State := updEntry q e.uid (fun y => { y with deps := [0] }) s
  going (forEach l (fun p s => s.modPort p (fun x => { x with calib := [0, 1, 2, 3], lcal := some (q, e.uid) })) s)

/-- A LINK_CALIB in progress goes on: it completes when no port works for it any longer. -/
def calibGo (q : Nat) (e : Entry) (s : State) : State :=
  if s.port.any (fun p => p.2.lcal = some (q, e.uid)) then s else completeEntry q e.uid (Res.ok (nth e.deps 0 0)) 0 s

/-! Power. -/

/-- The limit in force (14 R516). -/
def plim (s : State) : Nat :=
  let l := s.lvr
  Nat.max 600 (Nat.min l.hostLim (Nat.min (match l.share with | some w => w | none => l.hostLim) l.thermLim))

/-- The power record (14 Table 14.4). -/
def powerRecord (s : State) : List Byte :=
  let l := s.lvr
  let tmax := s.therm.temp.foldl (fun m e => if m < e.2 then e.2 else m) 0
  padTo 64 (toLE (plim s) 2 ++ toLE l.hostLim 2 ++ toLE (match l.share with | some w => w | none => 0) 2 ++ toLE l.draw 2 ++ toLE l.fixed 2
    ++ (List.range 2).flatMap (fun u => toLE (nth l.load u 0 / 8) 1) ++ (List.range 12).flatMap (fun u => toLE (nth l.load (2 + u) 0) 1)
    ++ (List.range 14).flatMap (fun u => toLE (tgetD l.step u 0) 1)
    ++ toLE (b2n l.floor + b2n (!s.therm.hot.isEmpty) * 2 + b2n s.therm.trip * 4 + b2n (procDown s 1) * 8) 1 ++ toLE (tmax / 4).toNat 1)

/-- PWR_SET_LIMIT (14 R517). -/
def opPwrSetLimit (_q : Nat) (e : Entry) (s : State) : HRes :=
  let w := hA e.hdr
  if w < 600 || 1100 < w then fin (Res.skip 6) s
  else
    let s : State := s.onLvr (fun l => { l with hostLim := w })
    fin (Res.ok (plim s)) s

/-- PWR_READ (14 R517). -/
def opPwrRead (q : Nat) (e : Entry) (s : State) : HRes :=
  fin (Res.ok s.lvr.draw) (if hD e.hdr = 0 then s else busWrite (fnPort q) (hD e.hdr) (powerRecord s) s)

end Sys2Proof.Machine
end

