-- ==== Sys2Proof/Machine/HostFab.lean ====
section
/-! DEFINITION. Groups: plans and their generations (10 R390, R391), the join record (R380), what ends a member's wait, and FAB_JOIN, FAB_LEAVE
and FAB_STATUS (R377-R392). Management messages are recorded as code and fields (log 35). -/

namespace Sys2Proof.Machine

/-! Members. -/

/-- A Mullion processor restarts: management messages go unanswered, and their senders repeat them (10 R382; log 36). -/
def mullBusy (s : State) : Bool := procDown s 2 || procDown s 3

/-- Whether a rank is live in the member table. -/
def liveRank (s : State) (r : Nat) : Bool := decide (r < s.fab.members) && !s.fab.lost.contains r

/-- The live ranks, ascending. -/
def liveRanks (s : State) : List Nat := bitsWhere s.fab.members (fun r => !s.fab.lost.contains r)

/-- Sends a message that its receiver answers; until then it may be repeated (10 R382). -/
def sendAsk (dst : Nat) (fields : List Nat) (s : State) : State :=
  (sendMsg dst fields s).onFab (fun f => { f with repeats := f.repeats ++ [(dst, fields)] })

/-- The answer to the messages of a code to a rank has come. -/
def answered (dst code : Nat) (s : State) : State :=
  s.onFab (fun f => { f with repeats := f.repeats.filter (fun m => !(m.1 = dst && m.2.head? = some code)) })

/-- Sends a message to every other live member. -/
def sendAll (fields : List Nat) (s : State) : State :=
  forEach ((liveRanks s).filter (fun r => r ≠ s.fab.rank)) (fun r => sendMsg r fields) s

/-- The answer to FAB_JOIN or FAB_LEAVE: the waiting command completes. -/
def fabAnswer (r : Res) (s : State) : State :=
  let by_ := s.fab.waitBy
  let s : State := s.onFab (fun f => { f with wait := .none, waitBy := none })
  match by_ with
  | some (q, u) => completeEntry q u r 0 s
  | none => s

/-! Links and levels. -/

/-- Every link that has light retrains (10 R368; 10 Table 10.3). -/
def retrainAll (s : State) : State :=
  forEach (List.range 16) (fun p s => if (State.portAt s p).st = .down then s else setPort p .retrain s) s

/-- A requested compatibility level takes effect (10 R368, 16 R560). -/
def applyCompat (s : State) : State :=
  retrainAll (s.onDev (fun d => { d with compatLevel := d.compatReq, compatPend := false }))

/-- The device belongs to no group any longer: plans, member table and the lintel's share go (14 R518), and a held COMPAT_LEVEL takes effect.
Ranks and port maps stay, for transit flits (10 R384). -/
def leaveGroup (s : State) : State :=
  let s : State := s.onPlan (fun _ => [])
  let s : State := s.onFab (fun f => { Fab.init with
    rank := f.rank, sizes := f.sizes, coord := f.coord, portmap := f.portmap, ownNotice := f.ownNotice })
  let s : State := s.onLvr (fun l => { l with share := none, shareNext := none })
  if s.dev.compatPend then applyCompat s else s

/-! Plans. The schedules are the model's: no rule says how the lintel builds them (log 24). The steps of the members of a team stand side by side:
what one sends in its step k another awaits in its own. -/

/-- The plan kinds of a level, in the order of HANDLES (10 Table 10.6): no RING_SHIFT below level 2. -/
def planKinds (level : Nat) : List Nat := (List.range 8).filter (fun k => k ≠ 6 || 2 ≤ level)

/-- The handle of the plan of a generation, team and kind (log 24). -/
def planHandleOf (gen team kind : Nat) : Nat := (gen * 520 + team * 8 + kind) % 65520 + 1

/-- One step: index and count of the blocks sent and received; a team index of its own stands for nothing. -/
def stepOfPlan (s : State) (ranks : List Nat) (root me nx so sn from_ ro rn : Nat) (red : Bool) : PlanStep :=
  let rk := fun (i : Nat) => nth ranks i 0
  { root := root, sendTo := rk nx, sendOff := so, sendLen := sn, recvFrom := rk from_, recvOff := ro, recvLen := rn, reduce := red,
    ports := if nx = me then [] else hopPorts s (rk nx) }

/-- A round of a ring of n: in step k each member sends block i - k - d to its successor and takes the one before it from its predecessor. With
d = 1 and a reduction the blocks come to their own members reduced; with d = 0 every block goes round. -/
def ringSteps (s : State) (ranks : List Nat) (me d : Nat) (red : Bool) : List PlanStep :=
  let n := ranks.length
  (List.range (n - 1)).map (fun k =>
    stepOfPlan s ranks 0 me ((me + 1) % n) ((me + 2 * n - k - d) % n) 1 ((me + n - 1) % n) ((me + 2 * n - k - d - 1) % n) 1 red)

/-- The broadcast tree of a root: in step k the first 2^k members after the root send the buffer on to the next 2^k. -/
def treeSteps (s : State) (ranks : List Nat) (me root : Nat) : List PlanStep :=
  let n := ranks.length
  let rt := teamIndex ranks root
  let i := (me + n - rt) % Nat.max 1 n
  let at_ := fun (x : Nat) => (x + rt) % Nat.max 1 n
  ((List.range 15).filter (fun k => 2 ^ k < n)).map (fun k =>
    if i < 2 ^ k then stepOfPlan s ranks root me (if i + 2 ^ k < n then at_ (i + 2 ^ k) else me) 0 n me 0 0 false
    else if i < 2 ^ (k + 1) then stepOfPlan s ranks root me me 0 0 (at_ (i - 2 ^ k)) 0 n false
    else stepOfPlan s ranks root me me 0 0 me 0 0 false)

/-- A gather at a root: in step k the k-th member after it sends it its block. -/
def gatherSteps (s : State) (ranks : List Nat) (me root : Nat) : List PlanStep :=
  let n := ranks.length
  let rt := teamIndex ranks root
  let i := (me + n - rt) % Nat.max 1 n
  (List.range (n - 1)).map (fun k =>
    if i = k + 1 then stepOfPlan s ranks root me rt me 1 me 0 0 false
    else if i = 0 then stepOfPlan s ranks root me me 0 0 ((rt + k + 1) % n) ((rt + k + 1) % n) 1 false
    else stepOfPlan s ranks root me me 0 0 me 0 0 false)

/-- A barrier: n - 1 empty flits round the ring. -/
def barrierSteps (s : State) (ranks : List Nat) (me : Nat) : List PlanStep :=
  let n := ranks.length
  (List.range (n - 1)).map (fun _ => stepOfPlan s ranks 0 me ((me + 1) % n) 0 0 ((me + n - 1) % n) 0 0 false)

/-- The steps of this member in a plan of a kind, in the order of HANDLES (10 R390, R393). DISPATCH and RETURN, and RING_SHIFT, follow their own
rules (R398-R400). -/
def planSteps (s : State) (kind : Nat) (ranks : List Nat) : List PlanStep :=
  let me := teamIndex ranks s.fab.rank
  if kind = 0 then ringSteps s ranks me 1 true ++ ringSteps s ranks me 0 false
  else if kind = 1 then ringSteps s ranks me 1 true
  else if kind = 2 then ringSteps s ranks me 0 false
  else if kind = 3 then ranks.flatMap (treeSteps s ranks me)
  else if kind = 4 then ranks.flatMap (gatherSteps s ranks me)
  else if kind = 7 then barrierSteps s ranks me
  else []

/-- One plan for this member (10 R390). -/
def buildPlan (s : State) (gen level team kind : Nat) (ranks : List Nat) (cases : BitVec 16) : Plan :=
  { handle := planHandleOf gen team kind, gen := gen, kind := kind, team := team, level := level, ranks := ranks, cases := cases,
    steps := planSteps s kind ranks, usable := true, retiring := false, closed := false }

/-- The plans of one team. -/
def teamPlans (s : State) (gen level team : Nat) (ranks : List Nat) (cases : BitVec 16) : List Plan :=
  if ranks.contains s.fab.rank then (planKinds level).map (fun k => buildPlan s gen level team k ranks cases) else []

/-- Every plan of a generation, over the live members. -/
def newPlans (s : State) (gen level : Nat) : List Plan :=
  teamPlans s gen level 0 (liveRanks s) (BitVec.allOnes 16)
  ++ s.fab.teams.flatMap (fun t => teamPlans s gen level t.1 (t.2.filter (liveRank s)) (tgetD s.fab.teamCase t.1 0))

/-- An MQ command still names a plan. -/
def planNamed (s : State) (h : Nat) : Bool :=
  (allECmds s).any (fun e => e.qk = 4 && mPlan e.words = h) || s.coll.any (fun e => !e.2.finished && e.2.plan = h)

/-- Retired plans that no command names any longer go. -/
def dropPlans (s : State) : State := s.onPlan (tfilter (fun h p => !p.closed || planNamed s h))

/-- The grace period of a generation ends (10 R390, R391): its handles are known no longer; collectives in flight run on. -/
def endGrace (gen : Nat) (s : State) : State :=
  dropPlans (s.onPlan (tmap (fun _ p => if p.gen = gen && p.retiring then { p with closed := true } else p)))

/-- The oldest generation still in its grace period. -/
def oldestGen (s : State) : Option Nat :=
  (s.plan.filter (fun e => e.2.retiring && !e.2.closed)).foldl (fun m e => match m with
    | none => some e.2.gen
    | some g => some (Nat.min g e.2.gen)) none

/-- Makes room for n plans: at most 2,048 are held (10 R390). -/
def planRoom (n : Nat) : Nat → State → State
  | 0, s => s
  | k + 1, s =>
    if s.plan.length + n ≤ 2048 then s
    else match oldestGen s with
      | some g => planRoom n k (endGrace g s)
      | none => s

/-- Installs plans of a generation; those of earlier ones begin their grace period (10 R391). Teams are learnt from their plans,
and the ranks that live again (R385). -/
def installPlans (gen level : Nat) (l : List Plan) (s : State) : State :=
  let s : State := s.onPlan (tmap (fun _ p => if p.gen = gen then p else { p with retiring := true }))
  let s : State := planRoom l.length s.plan.length s
  let s : State := forEach l (fun p s => s.putPlan p.handle p) s
  s.onFab (fun f => { f with
    planGen := gen, level := level, lost := f.lost.filter (fun r => !(l.any (fun p => p.team = 0 && p.ranks.contains r))),
    teams := l.foldl (fun t p => if p.team = 0 then t else tset t p.team p.ranks) f.teams,
    teamCase := l.foldl (fun t p => if p.team = 0 then t else tset t p.team p.cases) f.teamCase })

/-- The handle of a team and kind in the current generation; 0 where there is none. -/
def handleNow (s : State) (team kind : Nat) : Nat :=
  match s.plan.find? (fun e => e.2.gen = s.fab.planGen && e.2.team = team && e.2.kind = kind && !e.2.retiring) with
  | some e => e.1
  | none => 0

/-- The join record of a team (10 Table 10.6). -/
def joinRecord (s : State) (team : Nat) : List Byte :=
  let f := s.fab
  padTo 64 (toLE f.group.toNat 4 ++ toLE f.rank 2 ++ toLE f.lintel 2 ++ toLE f.members 2 ++ toLE f.level 1 ++ toLE f.mver 1 ++ toLE team 2
    ++ zeros 2 ++ (List.range 8).flatMap (fun k => toLE (handleNow s team k) 2) ++ toLE f.planGen 4)

/-- Writes the join record of the waiting FAB_JOIN. -/
def writeJoin (team : Nat) (s : State) : State :=
  match s.fab.waitBy with
  | some (q, _) => busWrite (fnPort q) s.fab.recAddr.toNat (joinRecord s team) s
  | none => s

/-! Formation (10 R379, R380). -/

/-- Own announcement, with what a successor of the lintel collects (R382). -/
def ownAnnounce (s : State) : AnnounceMsg :=
  let f := s.fab
  { rank := f.rank, level := s.dev.compatLevel, mver := ownMver s, group := f.group, sizes := f.sizes, live := liveRanks s, reports := f.stepReps,
    staged := s.cas.filterMap (fun e => match e.2.place with
      | some p => if p.staged then some (e.1, p.committed.getD 0, p.committed.isSome) else none
      | none => none) }

/-- Holds an announcement, one for each rank. -/
def holdAnnounce (m : AnnounceMsg) (s : State) : State :=
  s.onFab (fun f => { f with anns := f.anns.filter (fun a => a.rank ≠ m.rank) ++ [m] })

/-- What an announcement says, as the fields of a message of a code (10 R379 step 1, R382): level, version, topology, and for a successor of the
lintel the member table, step reports and placement state. -/
def annFields (code : Nat) (m : AnnounceMsg) : List Nat :=
  [code, m.rank, m.level, m.mver, m.group.toNat, m.sizes.length] ++ m.sizes
  ++ (if code = 6 then [m.live.length] ++ m.live ++ [m.reports.length] ++ m.reports.flatMap (fun x => [x.1, x.2.1, x.2.2.1, x.2.2.2])
        ++ [m.staged.length] ++ m.staged.flatMap (fun x => [x.1, x.2.1, b2n x.2.2]) else [])

/-- The refusal of a member: this member's own FAB_JOIN ends, or JOIN_REFUSE goes out in the version of its announcement; `ver` tells
VERSION_UNSUP. -/
def refuseJoin (r mver : Nat) (ver : Bool) (s : State) : State :=
  let s : State := s.onFab (fun f => { f with anns := f.anns.filter (fun a => a.rank ≠ r) })
  if r = s.fab.rank then fabAnswer (if ver then Res.stat stVersionUnsup else Res.skip 6) s else sendMsgV mver r [2, b2n ver] s

/-- LINTEL_CHANGE (13 Table 13.14). -/
def lintelChange (r : Nat) (s : State) : State := trace 2 0x3002 2 (s.fab.group.setWidth 64) (BitVec.ofNat 64 r) s

/-- GROUP_COMMIT at a member: the plans are installed and the join record written, and its FAB_JOIN completes with the level (R379 step 5).
A member in its group learns its new lintel (R382). A message of a version it does not accept is none (R389). -/
def commitGroup (m : CommitMsg) (s : State) : State :=
  let f := s.fab
  let now := s.ctr 0
  let seat := fun (s : State) => (if f.lintel = m.lintel && f.member then s else lintelChange m.lintel s).onFab (fun f => { f with
    lintel := m.lintel, isLintel := decide (m.lintel = f.rank), lintelLost := false, announced := true, beatAt := now, level := m.level, mver := m.mver,
    levels := m.levels.foldl (fun t x => tset t x.1 x.2) f.levels })
  if !takesMver s m.mver then s
  else if f.wait = .joining then
    let s : State := seat (s.onFab (fun f => { f with member := true }))
    let s : State := installPlans m.gen m.level m.plans s
    fabAnswer (Res.ok m.level) (writeJoin 0 (identAll s))
  else if f.member then answered f.candidate 6 (seat s)
  else s

/-- Step 4 (R379): once the announcements of all ranks are in, members out of level or version are refused, or else the lintel commits. A
group of more than 4,096 needs level 2 (Table 10.8). -/
def tryForm (s : State) : State :=
  let f := s.fab
  let l := f.anns
  if f.wait ≠ .joining || f.rank ≠ f.lintel || !((List.range f.members).all (fun r => l.any (fun a => a.rank = r))) then s
  else
    let lv := l.foldl (fun m a => Nat.min m a.level) 2
    let mv := l.foldl (fun m a => Nat.min m a.mver) 255
    let bad := (l.filter (fun a => decide (lv + 1 < a.level) || decide (mv + 1 < a.mver))).map (fun a => a.rank)
    if !bad.isEmpty then forEach bad (fun r s => refuseJoin r ((l.find? (fun a => a.rank = r)).map (·.mver) |>.getD mv) true s) s
    else if lv < 2 && 4096 < f.members then s
    else
      let lvs := l.map (fun a => (a.rank, a.level))
      let s : State := forEach ((List.range f.members).filter (fun r => r ≠ f.rank)) (fun r =>
        sendMsgV mv r ([3, lv, mv, f.rank, 1] ++ lvs.flatMap (fun x => [x.1, x.2]))) s
      commitGroup { level := lv, mver := mv, lintel := f.rank, gen := 1, team := 0, plans := newPlans s 1 lv, levels := lvs } s

/-- FAB_JOIN fields (10 Table 10.5). -/
def jSizes (pl : List Byte) : List Nat := (List.range 4).map (fun d => le pl (24 + 2 * d) 2)
def jCoord (pl : List Byte) : List Nat := (List.range 4).map (fun d => le pl (16 + 2 * d) 2)
def jMasks (pl : List Byte) : List Nat := (List.range 8).map (fun i => le pl (32 + 2 * i) 2)

/-- Two of a list of port masks share a port. -/
def masksMeet : List Nat → Bool
  | [] => false
  | m :: r => r.any (fun x => x &&& m ≠ 0) || masksMeet r

/-- Strictly ascending. -/
def ascends : List Nat → Bool
  | [] => true
  | [_] => true
  | a :: b :: r => decide (a < b) && ascends (b :: r)

/-- The ranks of a TEAM, read from host memory. -/
def jTeam (s : State) (q : Nat) (pl : List Byte) : List Nat :=
  let n := le pl 74 2
  let b := busRead s (fnPort q) (le pl 80 8) (2 * n)
  (List.range n).map (fun i => le b (2 * i) 2)

/-- What FAB_JOIN refuses (10 R378, R376). The N of a TEAM is that of the group the device is in. -/
def joinBad (s : State) (q : Nat) (pl : List Byte) : Bool :=
  let a := le pl 0 1
  let nd := le pl 1 1
  let sz := jSizes pl
  let n := sz.foldl (· * ·) 1
  let ms := jMasks pl
  dirty pl 48 16 || dirty pl 76 4 || dirty pl 88 40 || 2 < a || 1 < le pl 2 1 || nd < 1 || 4 < nd || le pl 4 4 = 0
  || (List.range 4).any (fun d => if d < nd then nth sz d 0 < 2 else nth sz d 0 ≠ 1) || n < 2 || 16384 < n
  || (List.range 4).any (fun d => nth sz d 0 ≤ nth (jCoord pl) d 0) || masksMeet ms || (List.range (2 * nd)).any (fun i => nth ms i 0 = 0)
  || (le pl 2 1 = 1 && n ≤ le pl 8 2) || (a = 0 && s.fab.member) || (a ≠ 0 && !s.fab.member)
  || (a = 2 && (le pl 74 2 < 2 || s.fab.members < le pl 74 2 || !ascends (jTeam s q pl) || (jTeam s q pl).any (fun r => s.fab.members ≤ r)))
  || s.fab.wait ≠ .none

/-- ACTION 0 (10 R379 step 1): the member takes its place and announces itself; the lintel holds its own announcement. -/
def startJoin (q uid : Nat) (pl : List Byte) (s : State) : State :=
  let sz := jSizes pl
  let orD := fun (x d : Nat) => if x = 0 then d else x
  let s : State := s.onFab (fun f => { Fab.init with
    ownNotice := f.ownNotice, group := BitVec.ofNat 32 (le pl 4 4), members := sz.foldl (· * ·) 1, sizes := sz, coord := jCoord pl,
    portmap := (jMasks pl).map (fun m => BitVec.ofNat 16 m), lmode := le pl 2 1, lintel := if le pl 2 1 = 1 then le pl 8 2 else 0,
    stepUs := orD (le pl 10 2) 200, formMs := orD (le pl 12 4) 30000, recAddr := BitVec.ofNat 64 (le pl 64 8), wait := .joining,
    waitBy := some (q, uid) })
  let s : State := identAll (s.onFab (fun f => { f with rank := coordRank s f.coord, candidate := coordRank s f.coord, announced := false }))
  if s.fab.rank = s.fab.lintel then tryForm (holdAnnounce (ownAnnounce s) s)
  else sendMsg s.fab.lintel (annFields 1 (ownAnnounce s)) s

/-! The lintel's decisions. -/

/-- A publication holds the team that a waiting FAB_JOIN with ACTION 2 asked for (10 R380). -/
def isOwnTeam (m : CommitMsg) (s : State) : Bool :=
  m.team ≠ 0 && m.plans.any (fun p => p.team = m.team && p.ranks = s.fab.teamReq.filter (liveRank s) && p.cases = s.fab.teamMask)

/-- PLAN_PUBLISH at a member (10 R391): the generation is installed; a RAISE or TEAM that waits for it completes. -/
def takePlans (m : CommitMsg) (s : State) : State :=
  if !s.fab.member || !takesMver s m.mver then s
  else
    let s : State := installPlans m.gen m.level m.plans s
    if s.fab.wait = .raising && m.level = s.fab.raiseTo then
      fabAnswer (Res.ok m.level) (answered s.fab.lintel 19 s)
    else if s.fab.wait = .teaming && isOwnTeam m s then
      fabAnswer (Res.ok m.level) (writeJoin m.team (answered s.fab.lintel 23 s))
    else s

/-- The lintel builds every plan anew and publishes them (10 R391). -/
def rebuildPlans (level : Nat) (s : State) : State :=
  let g := s.fab.planGen + 1
  let s : State := sendAll [10, g, level] s
  takePlans { level := level, mver := s.fab.mver, lintel := s.fab.rank, gen := g, team := 0, plans := newPlans s g level, levels := s.fab.levels } s

/-- Whether the lintel may set a level (10 R388): every member's level in the member table is at or above it. -/
def mayRaise (s : State) (lv : Nat) : Bool :=
  lv ≤ 2 && (liveRanks s).all (fun r => match tget s.fab.levels r with | some x => decide (lv ≤ x) | none => false)

/-- A new team at the lintel (10 R379, Table 10.7): the lowest number that is free, 1 to 64, and its plans in the current generation. -/
def addTeam (ranks : List Nat) (cases : BitVec 16) (s : State) : Option (Nat × State) :=
  match (List.range 64).find? (fun i => (tget s.fab.teams (i + 1)).isNone) with
  | none => none
  | some i =>
    let t := i + 1
    let f := s.fab
    let s : State := s.onFab (fun f => { f with teams := tset f.teams t ranks, teamCase := tset f.teamCase t cases })
    let s : State := sendAll [10, f.planGen, f.level, t] s
    some (t, takePlans { level := f.level, mver := f.mver, lintel := f.rank, gen := f.planGen, team := t,
                         plans := teamPlans s f.planGen f.level t (ranks.filter (liveRank s)) cases, levels := f.levels } s)

/-! The commands. -/

/-- FAB_JOIN (10 R377-R380, R388). Under LMODE 1 without a lintel, RAISE and TEAM end PEER_LOST (R382). -/
def opFabJoin (q : Nat) (e : Entry) (s : State) : HRes :=
  let pl := e.pl
  if joinBad s q pl then fin (Res.skip 6) s
  else if ajar s then deferOp s
  else if le pl 0 1 = 0 then going (startJoin q e.uid pl s)
  else if s.fab.lmode = 1 && s.fab.lintelLost then stopAt stPeerLost 0 s
  else
    let rec_ := BitVec.ofNat 64 (le pl 64 8)
    if le pl 0 1 = 1 then
      let lv := le pl 3 1
      if s.fab.isLintel then
        if mayRaise s lv then fin (Res.ok lv) (rebuildPlans lv s) else fin (Res.stat stVersionUnsup) s
      else
        let s : State := s.onFab (fun f => { f with wait := .raising, waitBy := some (q, e.uid), raiseTo := lv })
        going (sendAsk s.fab.lintel [19, lv] s)
    else
      let l := jTeam s q pl
      let m := BitVec.ofNat 16 (le pl 72 2)
      if s.fab.isLintel then
        match addTeam l m s with
        | none => fin (Res.deny 3) s
        | some (t, s) => fin (Res.ok s.fab.level) (busWrite (fnPort q) rec_.toNat (joinRecord s t) s)
      else
        let s : State := s.onFab (fun f => { f with wait := .teaming, waitBy := some (q, e.uid), teamReq := l, teamMask := m, recAddr := rec_ })
        going (sendAsk s.fab.lintel ([23, m.toNat] ++ l) s)

/-- FAB_LEAVE starts (10 R384). -/
def opFabLeave (_q : Nat) (_e : Entry) (s : State) : HRes :=
  if !s.fab.member || s.fab.wait ≠ .none then fin (Res.skip 6) s else going s

/-- A FAB_LEAVE in progress goes on (10 R384): once every collective has ended, a lintel under LMODE 0 hands its role to the lowest live
rank, and LEAVE goes to the lintel. A device that is the only one left, or the fixed lintel, has nobody to acknowledge it; one that a trip has
taken out of its group meanwhile has left (R404; log 37). -/
def leaveGo (q : Nat) (e : Entry) (s : State) : State :=
  if s.fab.wait ≠ .none || s.coll.any (fun c => !c.2.finished) then s
  else if !s.fab.member then completeEntry q e.uid (Res.ok 0) 0 s
  else
    let others := (liveRanks s).filter (fun r => r ≠ s.fab.rank)
    match s.fab.isLintel, s.fab.lmode, others with
    | true, 1, _ => leaveGroup (completeEntry q e.uid (Res.ok 0) 0 s)
    | true, _, [] => leaveGroup (completeEntry q e.uid (Res.ok 0) 0 s)
    | true, _, r :: _ =>
      let s : State := sendAll ([3, s.fab.level, s.fab.mver, r, s.fab.planGen] ++ s.fab.levels.flatMap (fun x => [x.1, x.2])) s
      let s : State := (lintelChange r s).onFab (fun f => { f with isLintel := false, lintel := r, wait := .leaving, waitBy := some (q, e.uid) })
      sendAsk r [7, s.fab.rank] s
    | false, _, _ =>
      let s : State := s.onFab (fun f => { f with wait := .leaving, waitBy := some (q, e.uid) })
      sendAsk s.fab.lintel [7, s.fab.rank] s

/-- FAB_STATUS (10 R392); zeros where the device is no member (log 38). -/
def opFabStatus (q : Nat) (e : Entry) (s : State) : HRes :=
  let t := hC e.hdr
  if t ≠ 0 && (tget s.fab.teams t).isNone then fin (Res.skip 6) s
  else
    let ports := (List.range 16).flatMap (fun p =>
      let x := s.portAt p
      toLE (portCode x.st) 1 ++ toLE x.width 1 ++ toLE x.level 1 ++ toLE (b2n x.spare) 1 ++ toLE x.peer 2 ++ toLE x.retrained 2)
    let rec_ := padTo 256 ((if s.fab.member then joinRecord s t else zeros 64) ++ ports ++ toLE s.fab.lost.length 2)
    fin (Res.ok (if s.fab.member then (liveRanks s).length else 0)) (busWrite (fnPort q) (hD e.hdr) rec_ s)

end Sys2Proof.Machine
end

