-- ==== Sys2Proof/Machine/Moves.lean ====
section
/-! DEFINITION. Moving experts in fabric-steered service (10 R405, R406; 08 R315, R316): what a Keeper does with its casement's tables, and the
lintel's side of the exchange; what declares a member lost (R383). -/

namespace Sys2Proof.Machine

/-- The step record of a casement: STEP, EPOCH and SEL, as its context reads them. -/
def placeRec (p : Place) (s : State) : Nat × Nat × Bool :=
  match vaRead p.ctx 0 p.recAddr 64 s with
  | (_, .ok b) => (le b 0 8, le b 8 1, (le b 9 1).testBit 0)
  | _ => (0, 0, false)

/-- The table not selected, and the one selected. -/
def placeTabs (p : Place) (s : State) : Nat × Nat := if (placeRec p s).2.2 then (p.tabA, p.tabB) else (p.tabB, p.tabA)

/-- The table not selected may be written (08 R315): it has not been selected at the step before the current one or later. -/
def mayStage (p : Place) (s : State) : Bool := decide (p.switchAt + 1 ≤ (placeRec p s).1)

/-- Header bytes of a table. -/
def tabHead (c a : Nat) (s : State) : List Byte := match vaRead c 0 a 64 s with | (_, .ok b) => b | _ => zeros 64

/-- The staged header (10 Table 10.13): the selected table's dimensions, the new EPOCH, READY at 0, FROM_STEP left as it stands. -/
def stagedHead (old new : List Byte) (epoch : Nat) : List Byte :=
  overlay (overlay (padTo 64 (old.take 16)) 0 [BitVec.ofNat 8 epoch, 0]) 16 ((new.drop 16).take 8)

/-- The placement in force (10 R406): of the table committed, or else of the one selected: its EPOCH and its entries. -/
def inForce (p : Place) (s : State) : Nat × List Nat :=
  let a := if p.committed.isSome then (placeTabs p s).1 else (placeTabs p s).2
  let h := tabHead p.ctx a s
  let d := ptHdrOf h
  (le h 0 1, match vaRead p.ctx 0 (a + 64) (4 * d.layers * d.experts) s with
    | (_, .ok b) => (List.range (d.layers * d.experts)).map (fun i => le b (4 * i) 4)
    | _ => [])

/-- Local slots that an old table uses and a new one does not: entries of this member that move away. -/
def movedSlots (self : Nat) (old new : List PEnt) : List Nat :=
  dedupN ((List.range old.length).filterMap (fun i =>
    let o := nth old i { valid := false, dest := 0, lslot := 0 }
    let n := nth new i { valid := false, dest := 0, lslot := 0 }
    if o.valid && o.dest = self && !(n.valid && n.dest = self && n.lslot = o.lslot) then some o.lslot else none))

/-- A message of the exchange from this member's Keeper to the lintel. -/
def toLintel (fields : List Nat) (own : State → State) (s : State) : State :=
  if s.fab.isLintel then own s else sendMsg s.fab.lintel fields s

/-! The lintel. -/

/-- PLACE_COMMIT at a Keeper: FROM_STEP and READY = 1 in one code-word write (10 R405 step 5). -/
def commitPlace (k fromStep : Nat) (s : State) : State :=
  match (s.casAt k).place with
  | none => s
  | some p =>
    if !p.staged then s
    else
      let a := (placeTabs p s).1
      let h := overlay (overlay (tabHead p.ctx a s) 16 (toLE fromStep 8)) 1 [1]
      let s : State := if p.committed.isSome then s else vaPut p.ctx a h s
      s.modCas k (fun v => { v with place := some { p with committed := some (p.committed.getD fromStep) } })

/-- PLACE_ABORT at a Keeper (10 R406): READY stays 0, the slots loaded are free, and the table selected stays in force. -/
def abortPlace (k : Nat) (s : State) : State :=
  s.modCas k (fun v => { v with
    stage := none,
    place := v.place.map (fun p => if p.staged && p.committed.isNone then
      { p with staged := false, loads := [], old := [], freed := dedupN (p.freed ++ p.loads) } else p) })

/-- PLACE_RELEASE at a Keeper (10 R405 step 8): the old slots of moved experts may be reused from now on. -/
def releasePlace (k : Nat) (s : State) : State :=
  s.modCas k (fun v => { v with place := v.place.map (fun p => if p.committed.isSome then
      { p with staged := false, committed := none, loads := [], old := [], freed := dedupN (p.freed ++ p.old) } else p) })

/-- The lintel gives a member the placement in force, with its EPOCH (10 R406). -/
def givePlace (r k : Nat) (s : State) : State :=
  match (s.casAt k).place with
  | none => s
  | some p =>
    let x := inForce p s
    (sendAsk r ([11, k, x.1] ++ x.2) s).onFab (fun f => { f with giving := f.giving.filter (fun g => g ≠ (r, k)) ++ [(r, k)] })

/-- A PLACE_STAGE to a rank has been answered, or is given up. -/
def stageAnswered (k : Nat) (q : Nat → Bool) (s : State) : State :=
  s.onFab (fun f => { f with repeats := f.repeats.filter (fun m => !(q m.1 && m.2.head? = some 11 && nth m.2 1 0 = k)) })

/-- The members that the lintel has asked to stage a move and that have not answered. -/
def stageWaits (s : State) (k : Nat) : List Nat :=
  (s.fab.repeats.filter (fun m => m.2.head? = some 11 && nth m.2 1 0 = k && !s.fab.giving.contains (m.1, k))).map (·.1)

/-- The lintel commits a move once every live member that was asked has staged it: FROM_STEP is the greatest step reported, plus 4 (10 R405 step
4). A member that rejoined meanwhile is given the placement. -/
def tryCommit (k : Nat) (s : State) : State :=
  match tget s.fab.staged k with
  | none => s
  | some l =>
    if !(l.any (fun x => x.1 = s.fab.rank)) || (stageWaits s k).any (liveRank s) then s
    else
      let frm := (l.filter (fun x => liveRank s x.1)).foldl (fun m x => Nat.max m x.2) 0 + 4
      let ep := match (s.casAt k).place with | some p => p.epoch | none => 0
      let s : State := sendAll [14, k, frm] s
      let s : State := s.onFab (fun f => { f with staged := tdel f.staged k, commits := tset f.commits k (frm, ep) })
      forEach ((liveRanks s).filter (fun r => !l.any (fun x => x.1 = r))) (fun r => givePlace r k) (commitPlace k frm s)

/-- The lintel releases a move once every live member has completed a step at or after FROM_STEP under the new epoch (10 R405 step 7). -/
def tryRelease (k : Nat) (s : State) : State :=
  match tget s.fab.commits k with
  | none => s
  | some (frm, ep) =>
    if (liveRanks s).all (fun r => s.fab.stepReps.any (fun x => x.1 = r && x.2.1 = k && decide (frm ≤ x.2.2.1) && x.2.2.2 = ep)) then
      releasePlace k ((sendAll [17, k] s).onFab (fun f => { f with commits := tdel f.commits k }))
    else s

/-- After a change of members the lintel looks at every move again (10 R406). -/
def recheckMoves (s : State) : State :=
  let s : State := forEach (tkeys s.fab.staged) tryCommit s
  forEach (tkeys s.fab.commits) tryRelease s

/-- PLACE_STAGED at the lintel (10 R405 step 3); a member that was given the placement in force commits it at its current step (R406; log 40). -/
def gotStaged (rank k cur : Nat) (s : State) : State :=
  if !s.fab.isLintel then s
  else if s.fab.giving.contains (rank, k) then
    let s : State := (stageAnswered k (fun r => r = rank) s).onFab (fun f => { f with giving := f.giving.filter (fun g => g ≠ (rank, k)) })
    sendMsg rank [14, k, cur] s
  else
    match tget s.fab.staged k with
    | none => s
    | some l =>
      tryCommit k ((stageAnswered k (fun r => r = rank) s).onFab (fun f => { f with staged := tset f.staged k (l.filter (fun x => x.1 ≠ rank) ++ [(rank, cur)]) }))

/-- STEP_REPORT at the lintel (10 R405 step 6; 14 R518). -/
def gotReport (rank k step epoch want : Nat) (s : State) : State :=
  if !s.fab.isLintel then s
  else
    tryRelease k (s.onFab (fun f => { f with
      stepReps := f.stepReps.filter (fun x => !(x.1 = rank && x.2.1 = k)) ++ [(rank, k, step, epoch)], wants := tset f.wants rank want }))

/-- PLACE_STAGED_TIMEOUT (10 R406): the lintel aborts the move and asks no longer. -/
def stageTimeout (k : Nat) (s : State) : State :=
  match tget s.fab.staged k with
  | none => s
  | some _ =>
    if !s.fab.isLintel then s
    else abortPlace k ((sendAll [15, k] (stageAnswered k (fun r => !s.fab.giving.contains (r, k)) s)).onFab (fun f => { f with staged := tdel f.staged k }))

/-! The Keeper. -/

/-- A casement whose Keeper takes part: fabric-steered service in a group (12 Table 12.1). -/
def steered (s : State) (k : Nat) : Bool := s.fab.member && decide ((s.casAt k).svc.mode = 2)

/-- Staging goes on once the table may be written (10 R405 step 2): each expert that moves here is loaded into its slot, the entries and the
header are written, and PLACE_STAGED follows with the current step. -/
def stageGo (k : Nat) (s : State) : State :=
  let v := s.casAt k
  match v.stage, v.place with
  | some m, some p =>
    if !steered s k || !mayStage p s then s
    else
      let (dst, src) := placeTabs p s
      let old := tabHead p.ctx src s
      let hd := ptHdrOf old
      let oldE := match vaRead p.ctx 0 (src + 64) (4 * hd.layers * hd.experts) s with
        | (_, .ok b) => (List.range (hd.layers * hd.experts)).map (fun i => pEntOf (le b (4 * i) 4))
        | _ => []
      let s : State := forEach m.loads (fun l => vaPut p.ctx l.addr l.bytes) s
      let s : State := vaPut p.ctx dst (stagedHead old (tabHead p.ctx dst s) m.epoch) s
      let s : State := vaPut p.ctx (dst + 64) (m.entries.flatMap (fun e => toLE e.toNat 4)) s
      let cur := (placeRec p s).1
      let s : State := s.modCas k (fun v => { v with
        stage := none,
        place := some { p with staged := true, epoch := m.epoch, loads := m.loads.map (·.slot), committed := none,
                               old := movedSlots hd.self oldE (m.entries.map (fun e => pEntOf e.toNat)),
                               freed := p.freed.filter (fun x => !(m.loads.any (fun l => l.slot = x))) } })
      toLintel [12, k, cur] (gotStaged s.fab.rank k cur) s
  | _, _ => s

/-- PLACE_STAGE (10 R405 steps 1 and 2). At the lintel it stands for its decision to move: it counts the EPOCH up modulo 256 (08 R315) and sends
the new placement to every Keeper, its own among them (log 40). -/
def takeStage (m : PlaceMsg) (s : State) : State :=
  if !steered s m.cas then s
  else if !s.fab.isLintel then stageGo m.cas (s.modCas m.cas (fun v => { v with stage := some m }))
  else
    let ep := match (s.casAt m.cas).place with | some p => ((inForce p s).1 + 1) % 256 | none => m.epoch
    let s : State := forEach ((liveRanks s).filter (fun r => r ≠ s.fab.rank)) (fun r =>
      sendAsk r ([11, m.cas, ep] ++ m.entries.map (·.toNat))) (s.onFab (fun f => { f with staged := tset f.staged m.cas [] }))
    stageGo m.cas (s.modCas m.cas (fun v => { v with stage := some { m with epoch := ep } }))

/-! Loss (10 R383). -/

/-- MEMBER_LOST at a member (10 R383): every plan with the rank is unusable. -/
def memberLost (r : Nat) (s : State) : State :=
  let s : State := s.onFab (fun f => { f with lost := if f.lost.contains r then f.lost else f.lost ++ [r] })
  s.onPlan (tmap (fun _ p => if p.ranks.contains r then { p with usable := false } else p))

/-- The lintel declares a member lost (10 R383, R406; Table 10.7): it tells every member, looks at its moves again and rebuilds the plans. -/
def declareLost (r : Nat) (s : State) : State :=
  if !liveRank s r || r = s.fab.rank then s
  else
    let s : State := memberLost r (s.onFab (fun f => { f with
      reports := f.reports.filter (fun x => x.2 ≠ r), linkReps := f.linkReps.filter (fun x => x.1 ≠ r && x.2 ≠ r), giving := f.giving.filter (fun x => x.1 ≠ r),
      repeats := f.repeats.filter (fun x => x.1 ≠ r) }))
    let s : State := recheckMoves (sendAll [9, r] s)
    rebuildPlans s.fab.level s

/-- The neighbours of a rank in the torus. -/
def neighboursOf (s : State) (r : Nat) : List Nat :=
  dedupN (((List.range 4).filter (fun d => 2 ≤ dimSize s d)).flatMap (fun d => [true, false].map (fun pos => nextRank s r d pos)))

/-- No port that leads to a neighbour is UP. -/
def linksDown (s : State) (r : Nat) : Bool :=
  (List.range 16).all (fun p => expectRank s p ≠ some r || (s.portAt p).st ≠ .up)

/-- The lintel hears whether a member's links to a neighbour are not UP: a member of which every live neighbour says so is lost (10 R383). -/
def gotLinks (src r : Nat) (down : Bool) (s : State) : State :=
  if !s.fab.member || !s.fab.isLintel || !liveRank s src then s
  else
    let s : State := s.onFab (fun f => { f with linkReps := f.linkReps.filter (fun x => x ≠ (src, r)) ++ (if down then [(src, r)] else []) })
    let ns := (neighboursOf s r).filter (liveRank s)
    if !ns.isEmpty && ns.all (fun n => s.fab.linkReps.contains (n, r)) then declareLost r s else s

/-- A member whose links to a neighbour leave UP, or return, reports it to the lintel (10 R383). -/
def reportLinks (s : State) : State :=
  if !s.fab.member || mullBusy s then s
  else
    let old := s.fab.linkDown
    let down := (neighboursOf s s.fab.rank).filter (linksDown s)
    if down = old then s
    else
      let s : State := s.onFab (fun f => { f with linkDown := down })
      let say := fun (r : Nat) (b : Bool) (s : State) => if s.fab.isLintel then gotLinks s.fab.rank r b s else sendMsg s.fab.lintel [24, r, b2n b] s
      forEach (old.filter (fun r => !down.contains r)) (fun r => say r false) (forEach (down.filter (fun r => !old.contains r)) (fun r => say r true) s)

end Sys2Proof.Machine
end

