-- ==== Sys2Proof/Machine/Start.lean ====
section
/-! DEFINITION. How queued commands start and go on: payloads (02 R61), the order of starts (R64, R73, R74), the checks of R589 steps 8 and 9 at
the head of a queue, and what any change may let go on (`pumpAll`). -/

namespace Sys2Proof.Machine

/-- Reads the payload of a command that starts (02 R59-R61): inline bytes, host memory on an admin queue, the context's memory otherwise. -/
def takePayload (q : Nat) (e : Entry) (s : State) : State × Except (Nat × Nat) (List Byte) :=
  let n := hPlen e.hdr
  if n = 0 then (s, .ok [])
  else if hInline e.hdr then (s, .ok (padTo n e.pl))
  else if q < 64 then (s, .ok (busRead s (fnPort q) (hPaddr e.hdr) n))
  else match vaRead e.ctxf 0 (hPaddr e.hdr) n s with
    | (s, .ok b) => (s, .ok b)
    | (s, .fault va) => (s, .error (stPageFault, va))
    | (s, .ecc) => (s, .error (stEccUncorr, 0))

/-- What each opcode of 02 Table 2.7 does when its command starts. -/
def opTable : List (Nat × (Nat → Entry → State → HRes)) :=
  [(0x0100, opNop), (0x0101, opCtxCreate), (0x0102, opCtxDestroy), (0x0103, opQueueCreate), (0x0104, opQueueDestroy), (0x0105, opQueueResume),
   (0x0106, opCaseAssign), (0x0107, opCaseRelease), (0x0108, opCtxMigrate), (0x0109, opCtxPriority), (0x0201, opMemAlloc), (0x0202, opMemFree),
   (0x0203, opMemMapHost), (0x0204, opMemFence), (0x0205, opMemCopy), (0x0206, opMemFill), (0x0301, opDescCreate), (0x0302, opDescDestroy),
   (0x0401, opProgLoad), (0x0402, opProgRun), (0x0403, opProgUnload), (0x0404, opSkiplogRead), (0x0501, opLatchAlloc), (0x0502, opLatchFree),
   (0x0503, opLatchSignal), (0x0504, opLatchWait), (0x0505, opLatchPoison), (0x0506, opLatchRead)]
  ++ [(0x0601, opSeqOpen), (0x0602, opSeqCommit), (0x0603, opSeqDrop), (0x0604, opSeqClose), (0x0605, opReqSubmit), (0x0606, opReqCancel),
   (0x0607, opReqPark), (0x0608, opReqResume), (0x0701, opScrubRange), (0x0702, opSelftest), (0x0703, opEccTest), (0x0704, opLinkCalib),
   (0x0801, opFabJoin), (0x0802, opFabLeave), (0x0803, opFabStatus), (0x0901, opPwrSetLimit), (0x0902, opPwrRead)]

/-- The opcode's operation. -/
def opFor (o : Nat) : Option (Nat → Entry → State → HRes) := (opTable.find? (fun r => r.1 = o)).map (fun r => r.2)

/-- A command that starts is running, the Keeper logs one of its opcodes, and its payload is read. -/
def beginEntry (q : Nat) (e : Entry) (s : State) : State × Except (Nat × Nat) (List Byte) :=
  let s : State := updEntry q e.uid (fun y => { y with ph := .running }) s
  let s : State := match opRow e.opc, s.getQueue q with
    | some r, some x =>
      if r.keeper then
        trace (keeperOf s q e.hdr (match takePayload q e s with | (_, .ok b) => b | _ => [])) 0x4001 0 (BitVec.ofNat 64 (x.ctx * 4 + x.qid)) (BitVec.ofNat 64 e.slot) s
      else s
    | _, _ => s
  takePayload q e s

/-- The entry that an operation works on: running, with its whole payload. -/
def Entry.begun (e : Entry) (pl : List Byte) : Entry := { e with pl := pl, ph := .running }

/-- What an operation's answer means for its entry: it completes, or goes on. -/
def endOp (q uid : Nat) (r : HRes) : State :=
  match r with
  | (s, some (r, a)) => completeEntry q uid r a s
  | (s, none) => s

/-- A command starts: its payload is read, its operation runs, and it completes unless it goes on. Where an access of it meets a gated unit or a bank
set inside a burst, it waits and has not started (01 R39; 05 R205; log 66). -/
def startEntry (q : Nat) (e : Entry) (s : State) : State :=
  attempt e.uid (fun s => match beginEntry q e s with
    | (s, .error (st, a)) => completeEntry q e.uid (Res.stat st) a s
    | (s, .ok pl) =>
      match opFor e.opc with
      | none => s
      | some f => endOp q e.uid (f q (e.begun pl) (updEntry q e.uid (fun y => { y with pl := pl }) s))) s

/-- A started command that holds the later ones of its queue (02 R64): a LATCH_WAIT that waits, a PROG_RUN that waits for its clusters, a
MEM_FENCE behind earlier commands (05 R217), a FAB_JOIN that waits (10 R380). -/
def holdsLater (s : State) (x : Queue) (e : Entry) : Bool :=
  e.ph = .running && (heldBack s e || e.opc = 0x0801 || (e.opc = 0x0204 && !earlierDone x e.uid))

/-- A completion entry is free for a command (02 R56), behind the earlier commands that have theirs reserved. -/
def hasRoom (x : Queue) (uid : Nat) : Bool :=
  let before := (x.es.takeWhile (fun e => e.uid ≠ uid)).filter (fun e => !e.posted)
  decide (cplHeld x + before.length + 1 < 2 ^ x.cplLog2)

/-- The processor that parses a packet: its Keeper, where it is Keeper-parsed. -/
def keeperAt (s : State) (q : Nat) (e : Entry) : Option Nat :=
  match opRow e.opc with
  | some r => if r.keeper then some (keeperOf s q e.hdr (match takePayload q e s with | (_, .ok b) => b | _ => [])) else none
  | none => none

/-- The Keeper of a packet restarts or is not loaded yet (02 R74). -/
def keeperGone (s : State) (q : Nat) (e : Entry) : Bool := match keeperAt s q e with | some k => procDown s k | none => false

/-- The Keeper of a packet does not parse it now: it is gone, or, for the Keeper of Leaf 0 and class 0x06, the directory walk of bring-up has not
ended (15 R548), or, for class 0x09, Louvre is (13 Table 13.11). -/
def keeperWaits (s : State) (q : Nat) (e : Entry) : Bool :=
  match keeperAt s q e with
  | some k => procDown s k || (e.opc / 256 = 6 && k = 4 && !s.dev.dirWalked) || (e.opc / 256 = 9 && procDown s 1)
  | none => false

/-- The condition of a header WAIT; one that has been satisfied stays so (03 R129). -/
def headerWait (s : State) (e : Entry) : Wait := if hWaitEn e.hdr && !e.met then waitOn s (hWaitLatch e.hdr) (hWaitVal e.hdr) else .met

/-- One step of a queue: its first waiting command is checked, refused, stopped or started; none where it must wait. One with NOWAIT that meets a
restarting Keeper completes BUSY (02 R74, R589). A MEM_FENCE that reaches the head notes what it waits for (05 R217). -/
def pumpOne (q : Nat) (s : State) : Option State :=
  match s.getQueue q with
  | none => none
  | some x =>
    match x.es.find? (fun e => e.ph = .waiting) with
    | none => none
    | some e =>
      let before := x.es.takeWhile (fun y => y.uid ≠ e.uid)
      let hw := match opRow e.opc with | some r => !r.keeper | none => true
      if x.st ≠ .active || s.dev.inReset || before.any (holdsLater s x) then none
      else if keeperWaits s q e then
        if hNowait e.hdr && keeperGone s q e then some (completeEntry q e.uid (Res.stat stBusy) 0 s) else none
      else if !e.chk then
        match startCheck s q e with
        | some r => some (completeEntry q e.uid r 0 s)
        | none => some (fenceNote q e (updEntry q e.uid (fun y => { y with chk := true }) s))
      else if !hasRoom x e.uid || (hOrd e.hdr && !before.all (fun y => y.isDone)) then none
      else match headerWait s e with
        | .pending => none
        | .failed => some (completeEntry q e.uid (Res.stat stLatchPoisoned) 0 s)
        | .met => some (if s.therm.trip && hw then completeEntry q e.uid (Res.stat stThermalTrip) 0 s else startEntry q e s)

/-- A queue goes as far as it can. -/
def pumpGo (q : Nat) : Nat → State → State
  | 0, s => s
  | n + 1, s => match pumpOne q s with | some s => pumpGo q n s | none => s

def pump (q : Nat) (s : State) : State :=
  match s.getQueue q with
  | some x => pumpGo q (2 * x.es.length + 2) s
  | none => s

/-- A started command goes on. -/
def goOn (q : Nat) (e : Entry) (s : State) : State :=
  if e.opc = 0x0105 then resumeGo q e s
  else if e.opc = 0x0104 then destroyGo q e s
  else if e.opc = 0x0204 then fenceGo q e s
  else if e.opc = 0x0503 then signalGo q e s
  else if e.opc = 0x0504 then waitGo q e s
  else if e.opc = 0x0606 then cancelGo q e s
  else if e.opc = 0x0703 then eccGo q e s
  else if e.opc = 0x0704 then calibGo q e s
  else if e.opc = 0x0802 then leaveGo q e s
  else s

/-- The end of a context's teardown (11 R433). -/
def destroyDone (c : Nat) (s : State) : State :=
  match s.getCtx c with
  | none => s
  | some x =>
    match x.destroy with
    | some (q, u) => if ctxDrained s c then completeEntry q u (Res.ok 0) 0 (freeCtx false c s) else s
    | none => s

/-- Everything that a change may let go on, once: started commands, teardowns and migrations, sequences, moves of experts, preemptions (11 R421),
collectives and the discard sink (10 R395, 11 R437). -/
def settle (s : State) : State :=
  let runs := s.queue.flatMap (fun x => (x.2.es.filter (fun e => e.ph = .running)).map (fun e => (x.1, e.uid)))
  let s : State := forEach runs (fun p s => match findEntry s p.1 p.2 with
    | some e => if e.ph = .running then goOn p.1 e s else s
    | none => s) s
  let s : State := forEach (tkeys s.ctx) (fun c s => destroyDone c (migGo c s)) s
  let s : State := forEach (tkeys s.seq) endSeq (dropDead s)
  let s : State := forEach (tkeys (tfilter (fun _ v => v.stage.isSome) s.cas)) stageGo s
  sinkRows (collPumpAll (arbitrate (dropPlans s)))

/-- Commands in hand. -/
def inHand (s : State) : Nat := s.queue.foldl (fun n x => n + (x.2.es.filter (fun e => !e.isDone)).length) 0

def pumpLoop : Nat → State → State
  | 0, s => s
  | n + 1, s => pumpLoop n (forEach (tkeys s.queue) pump (settle s))

/-- Every queue, and everything that waits inside the device, goes as far as it can; then its links are reported and its ports send (10 R383,
R375). -/
def pumpAll (s : State) : State := servePorts (reportLinks (pumpLoop (inHand s + 2) s))

end Sys2Proof.Machine
end

