-- ==== Sys2Proof/Machine/Banks.lean ====
section
/-! DEFINITION. Bank sets and memory in the background: host aperture accesses (09 R329, R330), yields and refresh (05 R204-R214), Letterbox and
merge drains (09 R332, R338), the patrol (R343), the ECC bucket leak (R342), zero fills (11 R417), gating and waking (01 R36-R41, 14 R499, R500)
and microcode swaps (05 R181). -/

namespace Sys2Proof.Machine

/-! The host aperture. -/

/-- Records the completion of an aperture read. -/
def apReply (f : Nat) (bs : List Byte) (poisoned : Bool) (s : State) : State := s.onOut (fun o => { o with reads := (f, bs, poisoned) :: o.reads })

/-- A host access of a stack is served (09 R330, R331, R333; Table 9.4): an uncorrectable word gives poisoned data. -/
def serveAcc (r : HostAcc) (s : State) : State :=
  match r.bs with
  | some b => stWrite 0 r.addr b s
  | none =>
    match stRead 1 r.addr r.len s with
    | (s, some b) => apReply r.fn b false s
    | (s, none) => apReply r.fn (mread s.stackMem r.addr r.len) true s

/-- Serves up to n host accesses that wait at a bank set, oldest first. -/
def serveHost (n u : Nat) (s : State) : State :=
  let l := (s.bankAt u).host
  if l.isEmpty then s else forEach (l.take n) serveAcc (s.modBank u (fun b => { b with host := b.host.drop n }))

/-- Up to n Letterbox lines and merge entries that wait for a bank set drain into it, lines first (09 R332, R338). -/
def serveDue (n u : Nat) (s : State) : State :=
  let b := s.lbAt (u / 64)
  let ls := (b.lines.filter (fun l => l.due && l.addr * 128 / 2 ^ 30 = u)).take n
  let ms := (b.merge.filter (fun l => l.due && l.addr * 64 / 2 ^ 30 = u)).take (n - ls.length)
  forEach ms (fun l => drainMerge l.addr) (forEach ls (drainLine (u / 64)) s)

/-- Something waits for a bank set. -/
def waitsAt (s : State) (u : Nat) : Bool :=
  let b := s.bankAt u
  let l := s.lbAt (u / 64)
  !b.host.isEmpty || !b.dev.isEmpty || l.lines.any (fun x => x.due && x.addr * 128 / 2 ^ 30 = u) || l.merge.any (fun x => x.due && x.addr * 64 / 2 ^ 30 = u)

/-- A bank set admits a foreign access now: no burst, no refresh, its Sill domain awake. -/
def bankFree (s : State) (u : Nat) : Bool := let b := s.bankAt u; !b.burst && !b.refresh && !s.gated.contains (.stack (u / 64))

/-- What waits at bank sets where no Sill operation runs is served without limit (05 R205). -/
def serveIdle (s : State) : State :=
  forEach (tkeys (tfilter (fun u _ => waitsAt s u && bankFree s u) s.bank)) (fun u s =>
    (serveDue 288 u (serveHost (s.bankAt u).host.length u s)).modBank u (fun b => { b with dev := [], grant := [] })) s

/-- The window register of an access, if VALID is 1 (09 R329, 16 R559). -/
def openWindow (s : State) (f win : Nat) : Option Apw :=
  let w := s.apwAt (f * 64 + win)
  if win < (if isPF f then 64 else 4) && w.enable && reaches s f w.ctx then some w else none

/-- The context, address and allocation of an aperture access; none where it fails (09 R330). -/
def apTarget (s : State) (f win off : Nat) : Option (Nat × Nat × Alloc × Bool) :=
  match openWindow s f win with
  | none => none
  | some w =>
    let va := w.baseHi * 2 ^ 32 + off
    match findAlloc s w.ctx va with
    | some (a, ro) => if a.kind = .host then none else some (w.ctx, va, a, ro)
    | none => none

/-- An access that PCI Express can make: inside one 4 KiB granule of a window. -/
def apShape (off len : Nat) : Bool := decide (0 < len) && decide (off % 4096 + len ≤ 4096) && decide (off < 2 ^ 32)

/-- HOST_APERTURE_READ (09 R330, 05 R205-R209): a failed read returns all ones. A read of a busy or gated bank set waits; the access wakes a gated
stack (01 R36). -/
def apRead (f win off len : Nat) (s : State) : State :=
  match apTarget s f win off with
  | none => apReply f (List.replicate len (BitVec.allOnes 8)) false (setApwErr f s)
  | some (_, va, a, _) =>
    match a.loc va with
    | .stk x =>
      let u := x / 2 ^ 30
      let r : HostAcc := { fn := f, addr := x, len := len, bs := none }
      if bankFree s u then serveAcc r s else (wakeFor (.stack (u / 64)) s).modBank u (fun b => { b with host := b.host ++ [r] })
    | .far x =>
      (match farRead 1 x len s with
      | (s, some b) => apReply f b false s
      | (s, none) => apReply f (zeros len) true s)
    | .host _ _ => s

/-- HOST_APERTURE_READ (09 R330). -/
def execHostApertureRead (f win off len : Nat) (s : State) : Host.Outcome State Fault Refusal := .next (if apShape off len then apRead f win off len s else s)

/-- HOST_APERTURE_WRITE (09 R330, R331): into the Letterbox or the far tier; a failed write is dropped. One to a gated stack waits for the wake (01 R41,
05 R209). -/
def apWrite (f win off : Nat) (bs : List Byte) (s : State) : State :=
  match apTarget s f win off with
  | none => setApwErr f s
  | some (c, va, a, ro) =>
    if ro then setApwErr f s
    else match a.loc va with
      | .stk x =>
        if s.gated.contains (.stack (saStack x)) then
          (wakeFor (.stack (saStack x)) s).modBank (x / 2 ^ 30) (fun b => { b with host := b.host ++ [{ fn := f, addr := x, len := bs.length, bs := some bs }] })
        else stWrite 0 x bs s
      | _ => (vaWrite c 0 va bs s).1

/-- HOST_APERTURE_WRITE (09 R330). -/
def execHostApertureWrite (f win off : Nat) (bs : List Byte) (s : State) : Host.Outcome State Fault Refusal :=
  .next (if apShape off bs.length then apWrite f win off bs s else s)

/-- ATOMICOP_REQUEST (09 R335): an Unsupported Request; nothing is written. -/
def execAtomicopRequest (_f _win _off : Nat) (s : State) : Host.Outcome State Fault Refusal := .next (s.onOut (fun o => { o with ur := o.ur + 1 }))

/-! Yields and refresh. -/

/-- A bank set number. -/
def unitNo (st bs : Nat) : Nat := st * 64 + bs

/-- A refresh starts: no burst goes on (05 R211). -/
def startRefresh (u : Nat) (s : State) : State := s.modBank u (fun b => { b with refresh := true, forced := false, burst := false })

/-- The row steps that the Sill command at a bank set has completed by now have landed (05 R208). -/
def rowsLand (u : Nat) (s : State) : State :=
  match (s.bankAt u).busy with
  | none => s
  | some uid =>
    match (allECmds s).find? (fun e => e.uid = uid && e.st = .running) with
    | none => s
    | some e => match sillEnv s e true with | some v => sillYield v e.words (u % 64) s | none => s

/-- What a yield admits (05 R205 items 2 and 3): host accesses, oldest first, then what drains into the bank set and device accesses, up to 8 each;
then a new burst of the command in hand. A command of which one access is admitted makes all that it has there (log 66). -/
def yieldServe (u : Nat) (s : State) : State :=
  let s : State := s.modBank u (fun b => { b with burst := false, refresh := false })
  let s : State := serveDue 8 u (serveHost 8 u s)
  s.modBank u (fun b => { b with burst := true, grant := b.grant.filter (fun w => w ≠ 0) ++ b.dev.take 8, dev := b.dev.drop 8 })

/-- BURST_YIELD (05 R204, R205): a forced refresh goes first; else what waits is served and a new burst begins. -/
def burstYield (u : Nat) (s : State) : State :=
  if !(s.bankAt u).burst then s
  else
    let s : State := rowsLand u s
    if (s.bankAt u).forced then startRefresh u s else yieldServe u s

/-- BURST_YIELD (05 R205). -/
def execBurstYield (st bs : Nat) (s : State) : Host.Outcome State Fault Refusal := .next (pumpAll (burstYield (unitNo st bs) s))

/-- REFRESH_DUE (05 R211, R214): one more refresh owed, or, with 8 owed, a forced one; a gated stack refreshes itself. -/
def execRefreshDue (st bs : Nat) (s : State) : Host.Outcome State Fault Refusal :=
  .next (if s.gated.contains (.stack st) then s
    else s.modBank (unitNo st bs) (fun b => if b.debt < 8 then { b with debt := b.debt + 1 } else { b with forced := true }))

/-- FORCED_REFRESH (05 R211, R212): at a row boundary, ahead of everything else. -/
def execForcedRefresh (st bs : Nat) (s : State) : Host.Outcome State Fault Refusal :=
  .next (let b := s.bankAt (unitNo st bs); if b.forced && !b.refresh then startRefresh (unitNo st bs) s else s)

/-- OPPORTUNISTIC_REFRESH (05 R211): nothing pending, no burst: one refresh of the debt is paid. -/
def execOpportunisticRefresh (st bs : Nat) (s : State) : Host.Outcome State Fault Refusal :=
  .next (
    let u := unitNo st bs
    let b := s.bankAt u
    if b.burst || b.refresh || waitsAt s u || b.debt = 0 || s.gated.contains (.stack st) then s
    else startRefresh u (s.modBank u (fun b => { b with debt := b.debt - 1 })))

/-- A refresh ends (05 R211): pending accesses as at a yield, then a new burst of the operation in hand; with none, all that waits. -/
def refreshDone (u : Nat) (s : State) : State :=
  if !(s.bankAt u).refresh then s
  else if (s.bankAt u).busy.isSome then yieldServe u (rowsLand u s)
  else serveIdle (s.modBank u (fun b => { b with refresh := false }))

/-- REFRESH_COMPLETE (05 R211). -/
def execRefreshComplete (st bs : Nat) (s : State) : Host.Outcome State Fault Refusal := .next (pumpAll (refreshDone (unitNo st bs) s))

/-! Drains, patrol, bucket. -/

/-- LETTERBOX_LINE_DRAIN (09 R332): a line idle for 256 cycles. -/
def execLetterboxLineDrain (st line : Nat) (s : State) : Host.Outcome State Fault Refusal :=
  .next (match (s.lbAt st).lines.find? (fun l => l.addr = line) with | some l => drainLine st l s | none => s)

/-- MERGE_ENTRY_DRAIN (09 R338-R340): an entry idle for 1,024 cycles. -/
def execMergeEntryDrain (st cw : Nat) (s : State) : Host.Outcome State Fault Refusal := .next (if saStack (cw * 64) = st then drainMerge cw s else s)

/-- One code word of the patrol (09 R343, R347): corrections are counted and written back; the test window is passed over. -/
def patrolWord (a : Nat) (s : State) : State :=
  if inWindow a then s
  else match s.getHealth (a / 64) with
    | none => s
    | some (.corr _) => (countCorr (a / 64) s).delHealth (a / 64)
    | some _ => logUe 4 a s

/-- The next row of the patrol of a stack: its lines and entries drain, and its words are read as device accesses (05 R205). -/
def patrolRow (st : Nat) (s : State) : State :=
  let r := (s.eccAt st).patrol
  let a := st * 2 ^ 36 + r * 4096
  let s : State := forEach (List.range 64) (fun i => patrolWord (a + 64 * i)) (drainDramRow a (reachBank a s))
  s.modEcc st (fun e => { e with patrol := (r + 1) % 2 ^ 24 })

/-- PATROL_ROW (09 R343, R347): the next DRAM row of a stack in service; off while the period is 0. Inside a burst it waits for a yield. -/
def execPatrolRow (st : Nat) (s : State) : Host.Outcome State Fault Refusal :=
  .next (
    if s.eccReg.period = 0 || !s.dev.stackIn.getLsbD st || s.gated.contains (.stack st) then s
    else attempt 0 (patrolRow st) s)

/-- ECC_BUCKET_LEAK (09 R342). -/
def execEccBucketLeak (st : Nat) (s : State) : Host.Outcome State Fault Refusal := .next (s.modEcc st (fun e => { e with level := e.level - 1 }))

/-- ZERO_FILL_DONE (11 R417, 09 R326): once the commands it waits for have ended, the given-up space is zero and free. -/
def execZeroFillDone (i : Nat) (s : State) : Host.Outcome State Fault Refusal :=
  .next (match s.getFills i with
    | none => s
    | some x =>
      if anyAlive s x.deps then s
      else (zeroFill x (forEach (if x.far then [] else ones x.smask) drainStack s)).delFills i)

/-! Gating. -/

/-- A cluster holds data live for a context (14 R498). -/
def clusterLive (s : State) (n : Nat) : Bool :=
  match (s.coreAt n).live with
  | some c => (match s.getCtx c with | some x => x.st = .active | none => false)
  | none => false

/-- A command for engine n of queue q is queued or running. -/
def engineBusy (s : State) (q n : Nat) : Bool := (allECmds s).any (fun e => e.qk = q && eTarget e.words = n)

/-- A fused cluster or channel: permanently unpowered (00 R9). -/
def fusedOff (s : State) (u : GUnit) : Bool :=
  match u with
  | .cluster n => !s.fuse.clusterEn.getLsbD n
  | .pivot n => !s.fuse.pivotEn.getLsbD n
  | _ => false

/-- A unit has power. -/
def powered (s : State) (u : GUnit) : Bool := !fusedOff s u && !s.gated.contains u

/-- A SCRUB_RANGE in progress covers some of a stack (14 Table 14.1). -/
def stackScrubbed (s : State) (n : Nat) : Bool :=
  s.queue.any (fun x => x.2.es.any (fun e => e.ph = .running && e.opc = 0x0701
    && (scrubGranules e.pl).any (fun va => match findAlloc s e.ctxf va with
      | some (a, _) => (match a.loc va with | .stk y => saStack y = n | _ => false)
      | none => false)))

/-- The gating conditions of 14 Table 14.1; the idle time is the sender's (log 3). -/
def mayGate (s : State) (u : GUnit) : Bool :=
  powered s u && !s.dev.inReset
  && (match u with
    | .cluster n => decide (n < 128) && !held s n && !clusterLive s n && !(s.run.any (fun e => e.2.st = .saved && (runPhys s e.2).contains n))
    | .stack n => decide (n < 12) && !engineBusy s 2 n && !(s.armed.any (fun a => a.unit / 64 = n))
        && !(s.job.any (fun e => match e.2.pages with
          | p :: _ => (match s.getPage p with | some x => x.stack = n | none => false)
          | [] => false)) && !stackScrubbed s n && (List.range 64).all (fun b => !waitsAt s (n * 64 + b))
    | .pivot n => decide (n < 32) && !engineBusy s 1 n
    | .wicket n => decide (n < 4) && !engineBusy s 3 n
    | .mullion n => decide (n < 2) && !engineBusy s 4 n && !(s.coll.any (fun c => !c.2.finished)))

/-- A gated cluster keeps none of its contents (01 R37, 03 R100): free bytes. -/
def havocCluster (n : Nat) (s : State) : State :=
  let (k, s) := State.fresh s
  let s : State := s.onLocalMem (fun m => mwrite m (n * 2 ^ 14) (freeBytes k (2 ^ 14)))
  let (k, s) := State.fresh s
  let s : State := s.onSharedMem (fun m => mwrite m (n * 2 ^ 20) (freeBytes k (2 ^ 20)))
  let (k, s) := State.fresh s
  havocTiles n ((s.onTileMem (fun m => mwrite m (n * 2 ^ 21) (freeBytes k (2 ^ 21)))).onBadWords (fun l => l.filter (fun w => w / 2 ^ 18 ≠ n)))

/-- A stack's refresh is its own while its domain is gated, and its counters restart at the wake (05 R214). -/
def quietBanks (n : Nat) (s : State) : State :=
  s.onBank (tmap (fun u b => if u / 64 = n then { b with debt := 0, forced := false, refresh := false } else b))

/-- The stores of a stack's Sill units are undefined once its domain has been gated (05 R178). -/
def havocStores (n : Nat) (s : State) : State :=
  forEach ((List.range 64).map (fun b => n * 64 + b)) (fun u s =>
    let (k, s) := State.fresh s
    let (k', s) := State.fresh s
    (s.modOpStore u (fun _ => { cells := [], free := some k, bad := [] })).modAccStore u (fun _ => { cells := [], free := some k', bad := [] })) s

/-- Gates a unit (14 R499, R500). -/
def gate (u : GUnit) (s : State) : State :=
  let s : State := match u with
    | .cluster n => havocCluster n s
    | .stack n => havocStores n (quietBanks n (drainStack n s))
    | _ => s
  s.onGated (fun l => l ++ [u])

/-- UNIT_GATE (14 R499). -/
def execUnitGate (u : GUnit) (s : State) : Host.Outcome State Fault Refusal := .next (if mayGate s u then gate u s else s)

/-- UNIT_WAKE_DONE (01 R36, R39-R41): the wake that an event of Table 1.7 began is over, and what waited for the unit goes on. A trip keeps every
Sill domain gated (14 R513). -/
def execUnitWakeDone (u : GUnit) (s : State) : Host.Outcome State Fault Refusal :=
  .next (
    let stk := match u with | .stack _ => true | _ => false
    if !s.gated.contains u || !s.wake.contains u || fusedOff s u || s.dev.inReset || (stk && s.therm.trip) then s
    else pumpAll (serveIdle ((s.onGated (fun l => l.filter (fun x => x ≠ u))).onWake (fun l => l.filter (fun x => x ≠ u)))))

/-! Microcode. -/

/-- A UCALL queued or running on a leaf names a routine. -/
def routineNamed (s : State) (leaf fn : Nat) : Bool :=
  (allECmds s).any (fun e => e.qk = 2 && eEop e.words = 10 && sFn e.words = fn && leafOfStack (eTarget e.words) = leaf)

/-- Micro-words of a leaf's microcode RAM that routines other than k take (05 R179). -/
def ucodeWords (w : Fw) (k : Nat) : Nat := (w.uram.filter (fun e => e.1 / 64 = k / 64 && e.1 ≠ k)).foldl (fun n e => n + e.2.2.length) 0

/-- Routine k of microcode RAM is changed or removed; one that the 4,096 micro-words of the leaf do not hold is not loaded (05 R179; log 25). -/
def putRoutine (k : Nat) (v : Option (Nat × List (BitVec 128))) (w : Fw) : Fw :=
  match v with
  | some r => if ucodeWords w k + r.2.length ≤ 4096 then { w with uram := tset w.uram k r } else w
  | none => { w with uram := tdel w.uram k }

/-- MICROCODE_SWAP (05 R181): a deferred change takes effect once no command names the routine; the leaf's Keeper makes it, and microcode RAM stands as
it is while that restarts. -/
def execMicrocodeSwap (leaf fn : Nat) (s : State) : Host.Outcome State Fault Refusal :=
  .next (
    let k := leaf * 64 + fn
    match s.fw.ucodePend.find? (fun e => e.1 = k) with
    | none => s
    | some e =>
      if routineNamed s leaf fn || procDown s (4 + leaf % 2) then s
      else (trace (4 + leaf % 2) 0x4004 1 (BitVec.ofNat 64 fn) (BitVec.ofNat 64 (match e.2 with | some v => v.1 | none => 0)) s).onFw (fun w =>
        putRoutine k e.2 { w with ucodePend := w.ucodePend.filter (fun x => x.1 ≠ k) }))

end Sys2Proof.Machine
end

