-- ==== Sys2Proof/Machine/CoreInstr.lean ====
section
/-! DEFINITION. The control-core instructions (03 R89-R95, R591, Table 3.17; R103-R134). Each row of the table is one instruction issued by
the core of a physical cluster; it acts only where that core is running, not stalled, and its image holds that word at its program counter
(log 32). -/

namespace Sys2Proof.Machine

/-- The word a core would issue next. -/
def imageWord (s : State) (cl : Nat) : Option Word :=
  match coreRun s cl with
  | some (_, x) => match s.getProg (x.ctx * 512 + x.prog) with
    | some p => p.words[(s.coreAt cl).pc]?
    | none => none
  | none => none

/-- The core issues `w`, whose OP is one of `ops`: clocks run, the core runs and does not wait. -/
def issues (s : State) (cl : Nat) (w : Word) (ops : List Nat) : Bool :=
  let c := s.coreAt cl
  !s.dev.inReset && !s.dev.clockStop && c.st = .running && c.stall.isNone && imageWord s cl = some w && ops.contains (iOp w)

/-- The guard of 03 R92. -/
def guardHolds (c : Core) (w : Word) : Bool := (iGP w = 0 || c.p.getLsbD (iGP w)) != iGN w

/-- A skipped instruction (03 R135): the program counter advances and the skip is logged. -/
def skipInstr (cl reason info : Nat) (s : State) : State :=
  let c := s.coreAt cl
  logSkip cl c.pc reason info c.pushes (clTime s cl) (s.modCore cl (fun c => c.fallFrom c.pc))

/-- One instruction: nothing where the core does not issue it; only the program counter advances where the guard fails; a skip (03 R119: held
off while a BRL is unresolved) where `bad` gives a reason; else its effect, which waits for every BRL where `waits`. -/
def instrStep (ops : List Nat) (cl : Nat) (w : Word) (bad : Option (Nat × Nat)) (waits : Bool) (eff : State → State) (s : State) : State :=
  if !issues s cl w ops then s
  else
    let c := s.coreAt cl
    if !guardHolds c w then s.modCore cl (fun c => c.fallFrom c.pc)
    else match bad with
      | some r => if c.brls.isEmpty then skipInstr cl r.1 r.2 s else s
      | none => if waits && !c.brls.isEmpty then s else eff s

/-- The effect of an instruction that changes its core and goes on. -/
def coreEff (cl : Nat) (g : Core → Core) (s : State) : State := s.modCore cl (fun c => (g c).fallFrom c.pc)

/-- BAD_FIELD where a condition holds. -/
def badField (b : Bool) : Option (Nat × Nat) := if b then some (rsBadField, noInfo) else none

/-- XD, XA, XB. -/
def alu3 (op cl : Nat) (w : Word) (f : Word → Word → Word) (s : State) : State :=
  instrStep [op] cl w (badField (fld w 36 0 ≠ 0)) false (coreEff cl (fun c => c.setX (iXD w) (f (c.xr (iXA w)) (c.xr (iXB w))))) s

/-- XD, XA, IMM32; a shift takes 0 to 63. -/
def aluI (op cl : Nat) (w : Word) (shift : Bool) (f : Word → Word → Word) (s : State) : State :=
  instrStep [op] cl w (badField (fld w 41 32 ≠ 0 || (shift && decide (64 ≤ fld w 31 0)))) false
    (coreEff cl (fun c => c.setX (iXD w) (f (c.xr (iXA w)) (iImm w)))) s

/-- The operations of the scalar class (03 Table 3.17). -/
def opMul (a b : Word) : Word := a * b
def opShl (a b : Word) : Word := a <<< (b.toNat % 64)
def opShr (a b : Word) : Word := a >>> (b.toNat % 64)
def opSra (a b : Word) : Word := a.sshiftRight (b.toNat % 64)
def opMin (a b : Word) : Word := if a.sle b then a else b
def opMax (a b : Word) : Word := if a.sle b then b else a
def opMinu (a b : Word) : Word := if a.ule b then a else b
def opMaxu (a b : Word) : Word := if a.ule b then b else a

/-- ADD (03 Table 3.17). -/
def execAdd (cl : Nat) (w : Word) (s : State) : Host.Outcome State Fault Refusal := .next (alu3 0x00 cl w (· + ·) s)

/-- SUB (03 Table 3.17). -/
def execSub (cl : Nat) (w : Word) (s : State) : Host.Outcome State Fault Refusal := .next (alu3 0x01 cl w (· - ·) s)

/-- MUL (03 Table 3.17). -/
def execMul (cl : Nat) (w : Word) (s : State) : Host.Outcome State Fault Refusal := .next (alu3 0x02 cl w opMul s)

/-- SHL (03 Table 3.17). -/
def execShl (cl : Nat) (w : Word) (s : State) : Host.Outcome State Fault Refusal := .next (alu3 0x03 cl w opShl s)

/-- SHR (03 Table 3.17). -/
def execShr (cl : Nat) (w : Word) (s : State) : Host.Outcome State Fault Refusal := .next (alu3 0x04 cl w opShr s)

/-- SRA (03 Table 3.17). -/
def execSra (cl : Nat) (w : Word) (s : State) : Host.Outcome State Fault Refusal := .next (alu3 0x05 cl w opSra s)

/-- AND (03 Table 3.17). -/
def execAndB (cl : Nat) (w : Word) (s : State) : Host.Outcome State Fault Refusal := .next (alu3 0x06 cl w (· &&& ·) s)

/-- OR (03 Table 3.17). -/
def execOrB (cl : Nat) (w : Word) (s : State) : Host.Outcome State Fault Refusal := .next (alu3 0x07 cl w (· ||| ·) s)

/-- XOR (03 Table 3.17). -/
def execXorB (cl : Nat) (w : Word) (s : State) : Host.Outcome State Fault Refusal := .next (alu3 0x08 cl w (· ^^^ ·) s)

/-- MIN (03 Table 3.17). -/
def execMinS (cl : Nat) (w : Word) (s : State) : Host.Outcome State Fault Refusal := .next (alu3 0x09 cl w opMin s)

/-- MAX (03 Table 3.17). -/
def execMaxS (cl : Nat) (w : Word) (s : State) : Host.Outcome State Fault Refusal := .next (alu3 0x0A cl w opMax s)

/-- MINU (03 Table 3.17). -/
def execMinu (cl : Nat) (w : Word) (s : State) : Host.Outcome State Fault Refusal := .next (alu3 0x0B cl w opMinu s)

/-- MAXU (03 Table 3.17). -/
def execMaxu (cl : Nat) (w : Word) (s : State) : Host.Outcome State Fault Refusal := .next (alu3 0x0C cl w opMaxu s)

/-- ADDI (03 Table 3.17). -/
def execAddi (cl : Nat) (w : Word) (s : State) : Host.Outcome State Fault Refusal := .next (aluI 0x10 cl w false (· + ·) s)

/-- SUBI (03 Table 3.17). -/
def execSubi (cl : Nat) (w : Word) (s : State) : Host.Outcome State Fault Refusal := .next (aluI 0x11 cl w false (· - ·) s)

/-- MULI (03 Table 3.17). -/
def execMuli (cl : Nat) (w : Word) (s : State) : Host.Outcome State Fault Refusal := .next (aluI 0x12 cl w false opMul s)

/-- SHLI (03 Table 3.17). -/
def execShli (cl : Nat) (w : Word) (s : State) : Host.Outcome State Fault Refusal := .next (aluI 0x13 cl w true opShl s)

/-- SHRI (03 Table 3.17). -/
def execShri (cl : Nat) (w : Word) (s : State) : Host.Outcome State Fault Refusal := .next (aluI 0x14 cl w true opShr s)

/-- SRAI (03 Table 3.17). -/
def execSrai (cl : Nat) (w : Word) (s : State) : Host.Outcome State Fault Refusal := .next (aluI 0x15 cl w true opSra s)

/-- ANDI (03 Table 3.17). -/
def execAndi (cl : Nat) (w : Word) (s : State) : Host.Outcome State Fault Refusal := .next (aluI 0x16 cl w false (· &&& ·) s)

/-- ORI (03 Table 3.17). -/
def execOri (cl : Nat) (w : Word) (s : State) : Host.Outcome State Fault Refusal := .next (aluI 0x17 cl w false (· ||| ·) s)

/-- XORI (03 Table 3.17). -/
def execXori (cl : Nat) (w : Word) (s : State) : Host.Outcome State Fault Refusal := .next (aluI 0x18 cl w false (· ^^^ ·) s)

/-- MINI (03 Table 3.17). -/
def execMini (cl : Nat) (w : Word) (s : State) : Host.Outcome State Fault Refusal := .next (aluI 0x19 cl w false opMin s)

/-- MAXI (03 Table 3.17). -/
def execMaxi (cl : Nat) (w : Word) (s : State) : Host.Outcome State Fault Refusal := .next (aluI 0x1A cl w false opMax s)

/-- MINUI (03 Table 3.17). -/
def execMinui (cl : Nat) (w : Word) (s : State) : Host.Outcome State Fault Refusal := .next (aluI 0x1B cl w false opMinu s)

/-- MAXUI (03 Table 3.17). -/
def execMaxui (cl : Nat) (w : Word) (s : State) : Host.Outcome State Fault Refusal := .next (aluI 0x1C cl w false opMaxu s)

/-- MOVI (03 Table 3.17). -/
def execMovi (cl : Nat) (w : Word) (s : State) : Host.Outcome State Fault Refusal :=
  .next (instrStep [0x1E] cl w (badField (fld w 46 32 ≠ 0)) false (coreEff cl (fun c => c.setX (iXD w) (iImm w))) s)

/-- MOVHI (03 Table 3.17): bits 63:32 of Xd. -/
def execMovhi (cl : Nat) (w : Word) (s : State) : Host.Outcome State Fault Refusal :=
  .next (instrStep [0x1F] cl w (badField (fld w 46 32 ≠ 0)) false
    (coreEff cl (fun c => c.setX (iXD w) (BitVec.ofNat 64 (fld w 31 0 * 2 ^ 32 + fld (c.xr (iXD w)) 31 0)))) s)

/-! Address generators. -/

/-- The generator that a 128-byte block describes (03 Table 3.17 GSET). -/
def genOf (b : List Byte) : Gen :=
  { base := BitVec.ofNat 64 (le b 0 8), count := (List.range 4).map (fun i => BitVec.ofNat 32 (le b (16 + 16 * i) 4)),
    stride := (List.range 4).map (fun i => BitVec.ofNat 64 (le b (24 + 16 * i) 8)), index := [0, 0, 0, 0] }

/-- A block that GSET refuses: a count of 0, or a byte outside its fields that is not 0. -/
def genBad (b : List Byte) : Bool :=
  (genOf b).count.any (fun n => n = 0) || le b 8 8 ≠ 0 || (List.range 4).any (fun i => le b (20 + 16 * i) 4 ≠ 0) || le b 80 48 ≠ 0

/-- GSET (03 Table 3.17); INFO of its skip is the generator index (Table 3.13). -/
def execGset (cl : Nat) (w : Word) (s : State) : Host.Outcome State Fault Refusal :=
  let a := ((s.coreAt cl).xr (iXA w)).toNat
  let b := mread s.localMem (cl * 2 ^ 14 + a) 128
  let bad := fld w 51 47 ≠ 0 || fld w 41 41 ≠ 0 || fld w 36 0 ≠ 0 || a % 128 ≠ 0 || 2 ^ 14 ≤ a || genBad b
  .next (instrStep [0x20] cl w (if bad then some (rsBadField, iG w) else none) false
    (coreEff cl (fun c => { c with g := tset c.g (iG w) (genOf b) })) s)

/-- The address of the present indices (03 R93). -/
def genAddr (g : Gen) : Word :=
  (List.range 4).foldl (fun a i => a + BitVec.ofNat 64 (nth g.index i 0).toNat * nth g.stride i 0) g.base

/-- The indices after one address: index i returns to 0 at its count and index i + 1 advances (03 R93). -/
def genNext : List (BitVec 32 × BitVec 32) → List (BitVec 32)
  | [] => []
  | (n, i) :: r => if i.toNat + 1 < n.toNat then (i + 1) :: r.map (·.2) else 0 :: genNext r

/-- GNEXT (03 R93). -/
def execGnext (cl : Nat) (w : Word) (s : State) : Host.Outcome State Fault Refusal :=
  let bad := fld w 46 41 ≠ 0 || fld w 36 0 ≠ 0
  .next (instrStep [0x21] cl w (if bad then some (rsBadField, iG w) else none) false
    (coreEff cl (fun c =>
      let g := tgetD c.g (iG w) Gen.init
      ({ c with g := tset c.g (iG w) { g with index := genNext (g.count.zip g.index) } } : Core).setX (iXD w) (genAddr g))) s)

/-- GRESET (03 Table 3.17). -/
def execGreset (cl : Nat) (w : Word) (s : State) : Host.Outcome State Fault Refusal :=
  let bad := fld w 51 41 ≠ 0 || fld w 36 0 ≠ 0
  .next (instrStep [0x22] cl w (if bad then some (rsBadField, iG w) else none) false
    (coreEff cl (fun c => { c with g := tset c.g (iG w) { tgetD c.g (iG w) Gen.init with index := [0, 0, 0, 0] } })) s)

/-! LOOP, predicates, branches. -/

/-- LOOP (03 R94): a fifth level gives LOOP_DEPTH, whatever else is wrong (log 33); a count of 0 skips the body. -/
def execLoopOp (cl : Nat) (w : Word) (s : State) : Host.Outcome State Fault Refusal :=
  let c := s.coreAt cl
  let n := (c.xr (iXA w)).toNat
  let bad := fld w 49 47 ≠ 0 || fld w 41 24 ≠ 0 || iB w = 0 || c.loops.any (fun v => v.ln = iLN w) || 2 ^ 32 ≤ n
    || c.loops.any (fun v => decide (v.last < c.pc + iB w))
  .next (instrStep [0x28] cl w (if 4 ≤ c.loops.length then some (rsLoopDepth, noInfo) else badField bad) false
    (fun s => s.modCore cl (fun c =>
      if n = 0 then c.fallFrom (c.pc + iB w)
      else { c with l := tset c.l (iLN w) (BitVec.ofNat 32 n), loops := c.loops ++ [{ ln := iLN w, first := c.pc + 1, last := c.pc + iB w }],
                    pc := (c.pc + 1) % 2 ^ 24 })) s)

/-- Predicate i; P0 reads as 1. -/
def Core.pr (c : Core) (i : Nat) : Bool := i = 0 || c.p.getLsbD i

/-- Writes predicate i; a write to P0 is ignored. -/
def Core.setP (c : Core) (i : Nat) (b : Bool) : Core := if i = 0 then c else { c with p := setBit c.p i b }

/-- CMP (03 Table 3.17). -/
def execCmp (cl : Nat) (w : Word) (s : State) : Host.Outcome State Fault Refusal :=
  .next (instrStep [0x30] cl w (badField (fld w 51 50 ≠ 0 || fld w 33 0 ≠ 0 || 6 ≤ iCond w)) false
    (coreEff cl (fun c => c.setP (iPD w) (condHolds (iCond w) (c.xr (iXA w)) (c.xr (iXB w))))) s)

/-- CMPI (03 Table 3.17). -/
def execCmpi (cl : Nat) (w : Word) (s : State) : Host.Outcome State Fault Refusal :=
  .next (instrStep [0x31] cl w (badField (fld w 51 50 ≠ 0 || fld w 41 37 ≠ 0 || fld w 33 32 ≠ 0 || 6 ≤ iCond w)) false
    (coreEff cl (fun c => c.setP (iPD w) (condHolds (iCond w) (c.xr (iXA w)) (iImm w)))) s)

/-- PAND (03 Table 3.17). -/
def execPand (cl : Nat) (w : Word) (s : State) : Host.Outcome State Fault Refusal :=
  .next (instrStep [0x32] cl w (badField (fld w 51 50 ≠ 0 || fld w 46 45 ≠ 0 || fld w 41 40 ≠ 0 || fld w 36 0 ≠ 0)) false
    (coreEff cl (fun c => c.setP (iPD w) (c.pr (iPA w) && c.pr (iPB w)))) s)

/-- POR (03 Table 3.17). -/
def execPor (cl : Nat) (w : Word) (s : State) : Host.Outcome State Fault Refusal :=
  .next (instrStep [0x33] cl w (badField (fld w 51 50 ≠ 0 || fld w 46 45 ≠ 0 || fld w 41 40 ≠ 0 || fld w 36 0 ≠ 0)) false
    (coreEff cl (fun c => c.setP (iPD w) (c.pr (iPA w) || c.pr (iPB w)))) s)

/-- PNOT (03 Table 3.17). -/
def execPnot (cl : Nat) (w : Word) (s : State) : Host.Outcome State Fault Refusal :=
  .next (instrStep [0x34] cl w (badField (fld w 51 50 ≠ 0 || fld w 46 45 ≠ 0 || fld w 41 0 ≠ 0)) false
    (coreEff cl (fun c => c.setP (iPD w) (!c.pr (iPA w)))) s)

/-- The target of a branch: 24 bits of the program counter (03 Table 3.1). -/
def branchTarget (pc : Nat) (w : Word) : Nat := (BitVec.ofNat 64 pc + iDisp w).toNat % 2 ^ 24

/-- BR (03 Table 3.17). -/
def execBr (cl : Nat) (w : Word) (s : State) : Host.Outcome State Fault Refusal :=
  .next (instrStep [0x38] cl w (badField (fld w 51 28 ≠ 0 || fld w 3 0 ≠ 0)) false
    (fun s => s.modCore cl (fun c => c.branchTo (branchTarget c.pc w))) s)

/-- BRL operands (03 Table 3.10). -/
def brlXC (w : Word) : Nat := fld w 36 32
def brlCond (w : Word) : Nat := fld w 31 29

/-- The context of a core's run. -/
def coreCtx (s : State) (cl : Nat) : Nat := match coreRun s cl with | some (_, x) => x.ctx | none => 0

/-- What BRL does once it issues (03 R117, R118, R126): it resolves at once, waits behind four others, cancels the speculative work and stops on a
poisoned latch, or follows HINT. -/
def brlEff (cl : Nat) (w : Word) (s : State) : State :=
  let c := s.coreAt cl
  let l := (c.xr (iXD w)).toNat
  let v := c.xr (iXA w)
  let a := (c.xr (iXB w)).toNat
  let x := c.xr (brlXC w)
  let go := fun (taken : Bool) (s : State) => s.modCore cl (fun c => if taken then c.branchTo (branchTarget c.pc w) else c.fallFrom c.pc)
  if 4 ≤ c.brls.length then s
  else match waitOn s l v with
    | .failed => stopRun cl stLatchPoisoned c.pc 0 (cancelSpec cl (liveBrls s cl) s)
    | .met => go (condHolds (brlCond w) (BitVec.ofNat 64 (leNat (mread s.sharedMem (cl * 2 ^ 20 + a) 8))) x) s
    | .pending =>
      let (u, s) := s.newUid
      go (bitW w 28) (s.modCore cl (fun c => { c with brls := c.brls ++ [
        { id := u, pc := c.pc, latch := l, value := v, addr := a, cmp := x, cond := brlCond w, target := branchTarget c.pc w, hint := bitW w 28, met := false,
          x := c.x, p := c.p, l := c.l, g := c.g, loops := c.loops }] }))

/-- BRL (03 R117). -/
def execBrl (cl : Nat) (w : Word) (s : State) : Host.Outcome State Fault Refusal :=
  let c := s.coreAt cl
  let a := (c.xr (iXB w)).toNat
  let bad := fld w 3 0 ≠ 0 || 6 ≤ brlCond w || a % 8 ≠ 0 || 2 ^ 20 < a + 8
  .next (instrStep [0x39] cl w
    (if bad then some (rsBadField, noInfo) else if !ownsLatch s (coreCtx s cl) (c.xr (iXD w)).toNat then some (rsLatchNotOwned, noInfo) else none) false (brlEff cl w) s)

/-- BRL_RESOLVE (03 R117, R122, R123, R126). -/
def execBrlResolve (cl : Nat) (s : State) : Host.Outcome State Fault Refusal := .next (resolveBrl cl s)

/-! Memory. -/

/-- Xa + IMM32 sign-extended, on 64 bits (03 R591). -/
def memAddr (s : State) (cl : Nat) (w : Word) : Nat := ((s.coreAt cl).xr (iXA w) + iImm w).toNat

/-- A field out of range of a load or store in a memory of `size` bytes. -/
def memBad (s : State) (cl : Nat) (w : Word) (size : Nat) : Bool :=
  fld w 41 32 ≠ 0 || memAddr s cl w % 8 ≠ 0 || decide (size < memAddr s cl w + 8)

/-- A store of a core is remembered under its run, whose writes are undefined where it is cut (02 R69): spaces 3 and 5 are shared scratchpads
and local memories. -/
def coreWrote (cl : Nat) (w : Nat × Nat × Nat) (s : State) : State :=
  match coreRun s cl with
  | some (r, _) => s.updRun r (fun x => if x.wrote.contains w then x else { x with wrote := x.wrote ++ [w] })
  | none => s

/-- LDL (03 Table 3.17). -/
def execLdl (cl : Nat) (w : Word) (s : State) : Host.Outcome State Fault Refusal :=
  let v := BitVec.ofNat 64 (leNat (mread s.localMem (cl * 2 ^ 14 + memAddr s cl w) 8))
  .next (instrStep [0x40] cl w (badField (memBad s cl w (2 ^ 14))) false (coreEff cl (fun c => c.setX (iXD w) v)) s)

/-- STL (03 Table 3.17). -/
def execStl (cl : Nat) (w : Word) (s : State) : Host.Outcome State Fault Refusal :=
  .next (instrStep [0x41] cl w (badField (memBad s cl w (2 ^ 14))) true
    (fun s => coreEff cl id (coreWrote cl (5, cl * 2 ^ 14 + memAddr s cl w, 8)
      (s.onLocalMem (fun m => mwrite m (cl * 2 ^ 14 + memAddr s cl w) (toLE ((s.coreAt cl).xr (iXD w)).toNat 8))))) s)

/-- LDS (03 R95). -/
def execLds (cl : Nat) (w : Word) (s : State) : Host.Outcome State Fault Refusal :=
  let v := BitVec.ofNat 64 (leNat (mread s.sharedMem (cl * 2 ^ 20 + memAddr s cl w) 8))
  .next (instrStep [0x42] cl w (badField (memBad s cl w (2 ^ 20))) false (coreEff cl (fun c => c.setX (iXD w) v)) s)

/-- STS (03 Table 3.17): no command, so that it ends no staleness (R124). -/
def execSts (cl : Nat) (w : Word) (s : State) : Host.Outcome State Fault Refusal :=
  .next (instrStep [0x43] cl w (badField (memBad s cl w (2 ^ 20))) true
    (fun s => coreEff cl id (coreWrote cl (3, cl * 2 ^ 20 + memAddr s cl w, 8)
      (s.onSharedMem (fun m => mwrite m (cl * 2 ^ 20 + memAddr s cl w) (toLE ((s.coreAt cl).xr (iXD w)).toNat 8))))) s)

/-! PUSH and the latch instructions. -/

/-- The pushes of a core whose path is not confirmed: commands and held skips. -/
def specPushes (c : Core) : Nat := (c.eq.filter (fun e => !e.spec.isEmpty)).length + c.held.length

/-- What PUSH does (03 R103, R105-R107, R119): on a speculative path it stalls unless the command has SHADOW = 1, and where the pushes before it
reach STOP_INDEX (R141); a full queue stalls it. A command that enters its queue wakes its unit (01 R36). -/
def pushEff (cl : Nat) (w : Word) (s : State) : State :=
  match coreRun s cl with
  | none => s
  | some (r, x) =>
    let c := s.coreAt cl
    let h := pushWords s cl w
    if !c.brls.isEmpty && (!eShadow h || (x.stopIndex ≠ 0 && decide (x.stopIndex.toNat ≤ c.pushes.toNat + specPushes c))) then s
    else match pushCheck s cl x.ctx w h with
      | (s, some e) => skipPush cl c.pc e x.stopIndex (s.modCore cl (fun c => c.fallFrom c.pc))
      | (s, none) =>
        if queueDepth (pQueue w) ≤ (c.eq.filter (fun e => e.qk = pQueue w)).length then s
        else wakeUnit (pQueue w) h (enqueue cl c.pc x.ctx (pQueue w) r h x.stopIndex (s.modCore cl (fun c => c.fallFrom c.pc)))

/-- PUSH (03 R103, R106). -/
def execPush (cl : Nat) (w : Word) (s : State) : Host.Outcome State Fault Refusal := .next (instrStep [0x48] cl w none false (pushEff cl w) s)

/-- A reserved bit, or a latch the context does not own (03 R134). -/
def latchBad (s : State) (cl : Nat) (w : Word) (resv : Bool) : Option (Nat × Nat) :=
  if resv then some (rsBadField, noInfo)
  else if !ownsLatch s (coreCtx s cl) ((s.coreAt cl).xr (iXD w)).toNat then some (rsLatchNotOwned, noInfo) else none

/-- WAITL (03 R134): the core stalls while the wait is not satisfied, and a failed wait stops the PROG_RUN. -/
def execWaitl (cl : Nat) (w : Word) (s : State) : Host.Outcome State Fault Refusal :=
  let c := s.coreAt cl
  let l := (c.xr (iXD w)).toNat
  let v := c.xr (iXA w)
  .next (instrStep [0x50] cl w (latchBad s cl w (fld w 41 0 ≠ 0)) true (fun s =>
    match waitOn s l v with
    | .met => coreEff cl id s
    | .failed => stopRun cl stLatchPoisoned c.pc 0 s
    | .pending => s.modCore cl (fun c => { c.fallFrom c.pc with stall := some (l, v) })) s)

/-- Commands of a core in the queues of QMASK. -/
def qmaskDeps (c : Core) (w : Word) : List Nat := (c.eq.filter (fun e => (fld w 40 36).testBit e.qk)).map (·.uid)

/-- SIGL (03 R134): signals once every command pushed earlier into the queues of QMASK has completed. -/
def execSigl (cl : Nat) (w : Word) (s : State) : Host.Outcome State Fault Refusal :=
  let c := s.coreAt cl
  let l := (c.xr (iXD w)).toNat
  let v := c.xr (iXA w)
  let d := qmaskDeps c w
  .next (instrStep [0x51] cl w (latchBad s cl w (fld w 35 0 ≠ 0)) true (fun s =>
    if d.isEmpty then coreEff cl id (signalLatch l v (bitW w 41) s)
    else
      let (u, s) := s.newUid
      coreEff cl (fun c => { c with sigls := c.sigls ++ [{ uid := u, env := false, latch := l, value := v, add := bitW w 41, deps := d }] }) s) s)

/-- SIGL_SIGNAL (03 R134): a waiting SIGL signals once no command it waits for is left. -/
def execSiglSignal (cl uid : Nat) (s : State) : Host.Outcome State Fault Refusal :=
  let c := s.coreAt cl
  .next (match c.sigls.find? (fun g => g.uid = uid && !g.env) with
    | none => s
    | some g =>
      if c.eq.any (fun e => g.deps.contains e.uid) then s
      else (signalLatch g.latch g.value g.add s).modCore cl (fun c => { c with sigls := c.sigls.filter (fun x => x.uid ≠ uid) }))

/-- POISL (03 R134). -/
def execPoisl (cl : Nat) (w : Word) (s : State) : Host.Outcome State Fault Refusal :=
  let l := ((s.coreAt cl).xr (iXD w)).toNat
  .next (instrStep [0x52] cl w (latchBad s cl w (fld w 46 0 ≠ 0)) true (fun s => coreEff cl id (poisonLatch l s)) s)

/-- HINGE (03 R110, R111, R113): it does not execute while a command pushed before the preceding HINGE is left; with a stop request pending
the core stops after it. -/
def execHinge (cl : Nat) (w : Word) (s : State) : Host.Outcome State Fault Refusal :=
  .next (instrStep [0x58] cl w (badField (fld w 51 0 ≠ 0)) true (fun s =>
    let c := s.coreAt cl
    if c.eq.any (fun e => c.prevHinge.contains e.uid) then s
    else coreEff cl (fun c => { c with prevHinge := c.eq.map (·.uid), st := if c.stopReq then .hinge else c.st }) s) s)

/-- END (03 R101). -/
def execEndProgram (cl : Nat) (w : Word) (s : State) : Host.Outcome State Fault Refusal :=
  .next (instrStep [0x59] cl w (badField (fld w 51 0 ≠ 0)) true (fun s => s.modCore cl (fun c => { c with st := .ended })) s)

/-- The OPs of Table 3.17. -/
def definedOps : List Nat :=
  List.range 13 ++ (List.range 13).map (· + 0x10) ++ [0x1E, 0x1F, 0x20, 0x21, 0x22, 0x28, 0x30, 0x31, 0x32, 0x33, 0x34, 0x38, 0x39, 0x40, 0x41, 0x42,
    0x43, 0x48, 0x50, 0x51, 0x52, 0x58, 0x59]

/-- ILLEGAL_OP (03 R591, R135): an OP that Table 3.17 does not name. -/
def execIllegalOp (cl : Nat) (w : Word) (s : State) : Host.Outcome State Fault Refusal :=
  .next (if definedOps.contains (iOp w) then s else instrStep [iOp w] cl w (some (rsIllegalOp, noInfo)) false (fun s => s) s)

end Sys2Proof.Machine
end

