-- ==== Sys2Proof/Machine/Packets.lean ====
section
/-! DEFINITION. The packet commands: doorbells (02 R51-R56), the fetch of one packet of each opcode of 02 Table 2.7, completion records, latch
signals and waits, and deferred page frees. A packet's words come with the command (log 1). -/

namespace Sys2Proof.Machine

/-! Doorbells. -/

/-- BAR0 takes writes of functions from ajar service on (16 R552, R554), and in recovery, where its mailbox answers (13 R474). -/
def barOpen (s : State) : Bool := (s.dev.service ≠ .boot || s.dev.recovery) && !s.dev.inReset

/-- The value a write brings to a doorbell or to a WO, W1C or W1S register (16 R551). -/
def actVal (a : Acc) : Option Nat :=
  match a with
  | .full v => some v.toNat
  | .lo v => some v.toNat
  | .hi _ => none

/-- The queue of a doorbell offset of function f: none where the write is ignored with DB_ERR in Q_ADMIN_STATUS (02 R51, R52). -/
def bellQueue (s : State) (f off : Nat) : Option Nat :=
  if off < 0x20000 then (if (s.getQueue f).isSome then some f else none)
  else
    let k := (off - 0x20000) / 16
    match s.getQueue (64 + k) with
    | some x => if reaches s f (k / 4) && x.fn = f then some (64 + k) else none
    | none => none

/-- A doorbell write with index v moves the pointer that `g` sets, if v lies in the ring of size `n`. -/
def ringBell (f off : Nat) (a : Acc) (n : Queue → Nat) (g : Nat → Queue → Queue) (s : State) : State :=
  if !barOpen s then s
  else match actVal a with
    | none => s
    | some v =>
      match bellQueue s f off with
      | none => setDbErrFn f s
      | some q =>
        match s.getQueue q with
        | none => s
        | some x => if n x ≤ v then setDbErrQ q s else s.updQueue q (g v)

/-- Whether an offset of the Q_ window is a submission (0) or completion (8) doorbell (02 Table 2.3). -/
def isBell (off low : Nat) : Bool := off = 0x1000 + low || (decide (0x20000 ≤ off) && decide (off < 0x60000) && off % 16 = low)

/-- SUBMISSION_DOORBELL (02 R51-R55). -/
def execSubmissionDoorbell (f off : Nat) (a : Acc) (s : State) : Host.Outcome State Fault Refusal :=
  .next (if isBell off 0 then ringBell f off a (fun x => 2 ^ x.subLog2) (fun v x => { x with tail := v }) s else s)

/-- COMPLETION_DOORBELL (02 R51, R56): entries are released, and commands that waited for one may start. -/
def execCompletionDoorbell (f off : Nat) (a : Acc) (s : State) : Host.Outcome State Fault Refusal :=
  .next (if isBell off 8 then pumpAll (ringBell f off a (fun x => 2 ^ x.cplLog2) (fun v x => { x with head := v }) s) else s)

/-! Packets. -/

/-- Fetches one packet of an opcode: it passes the checks of 02 R589 and starts as soon as it may; a header that spells another opcode is not
this command's. A fetch from a ring in a gated stack, or in a bank set inside a burst, waits (01 R39, 05 R205; log 66). -/
def packet (op q : Nat) (h : Hdr) (pl : List Byte) (s : State) : State :=
  if pktOpcode h = op then pumpAll (pump q (attempt 0 (fetchPacket q h pl) s)) else s

/-- A packet that steps 1 to 7 of 02 R589 refuse. -/
def packetRefused (s : State) (q : Nat) (h : Hdr) (pl : List Byte) : Bool :=
  (opRow (pktOpcode h)).isNone || (match s.getQueue q with | some x => (parseCheck s q x h pl).isSome | none => false)

/-- UNKNOWN_OPCODE (02 R57-R60, R76, R589): any packet whose header is refused. -/
def execUnknownOpcode (q : Nat) (h : Hdr) (pl : List Byte) (s : State) : Host.Outcome State Fault Refusal :=
  .next (if packetRefused s q h pl then pumpAll (attempt 0 (fetchPacket q h pl) s) else s)

/-- NOP (02 Table 2.7). -/
def execNop (q : Nat) (h : Hdr) (pl : List Byte) (s : State) : Host.Outcome State Fault Refusal := .next (packet 0x0100 q h pl s)

/-- CTX_CREATE (11 R413). -/
def execCtxCreate (q : Nat) (h : Hdr) (pl : List Byte) (s : State) : Host.Outcome State Fault Refusal := .next (packet 0x0101 q h pl s)

/-- CTX_DESTROY (11 R433). -/
def execCtxDestroy (q : Nat) (h : Hdr) (pl : List Byte) (s : State) : Host.Outcome State Fault Refusal := .next (packet 0x0102 q h pl s)

/-- QUEUE_CREATE (02 R46). -/
def execQueueCreate (q : Nat) (h : Hdr) (pl : List Byte) (s : State) : Host.Outcome State Fault Refusal := .next (packet 0x0103 q h pl s)

/-- QUEUE_DESTROY (02 R50). -/
def execQueueDestroy (q : Nat) (h : Hdr) (pl : List Byte) (s : State) : Host.Outcome State Fault Refusal := .next (packet 0x0104 q h pl s)

/-- QUEUE_RESUME (02 R49). -/
def execQueueResume (q : Nat) (h : Hdr) (pl : List Byte) (s : State) : Host.Outcome State Fault Refusal := .next (packet 0x0105 q h pl s)

/-- CASE_ASSIGN (02 R81, 11 R408). -/
def execCaseAssign (q : Nat) (h : Hdr) (pl : List Byte) (s : State) : Host.Outcome State Fault Refusal := .next (packet 0x0106 q h pl s)

/-- CASE_RELEASE (02 R81). -/
def execCaseRelease (q : Nat) (h : Hdr) (pl : List Byte) (s : State) : Host.Outcome State Fault Refusal := .next (packet 0x0107 q h pl s)

/-- CTX_MIGRATE (11 R434-R437). -/
def execCtxMigrate (q : Nat) (h : Hdr) (pl : List Byte) (s : State) : Host.Outcome State Fault Refusal := .next (packet 0x0108 q h pl s)

/-- CTX_PRIORITY (11 R423). -/
def execCtxPriority (q : Nat) (h : Hdr) (pl : List Byte) (s : State) : Host.Outcome State Fault Refusal := .next (packet 0x0109 q h pl s)

/-- MEM_ALLOC (09 R324, R325). -/
def execMemAlloc (q : Nat) (h : Hdr) (pl : List Byte) (s : State) : Host.Outcome State Fault Refusal := .next (packet 0x0201 q h pl s)

/-- MEM_FREE (09 R326). -/
def execMemFree (q : Nat) (h : Hdr) (pl : List Byte) (s : State) : Host.Outcome State Fault Refusal := .next (packet 0x0202 q h pl s)

/-- MEM_MAP_HOST (09 R327). -/
def execMemMapHost (q : Nat) (h : Hdr) (pl : List Byte) (s : State) : Host.Outcome State Fault Refusal := .next (packet 0x0203 q h pl s)

/-- MEM_FENCE (05 R217). -/
def execMemFence (q : Nat) (h : Hdr) (pl : List Byte) (s : State) : Host.Outcome State Fault Refusal := .next (packet 0x0204 q h pl s)

/-- MEM_COPY (09 R328). -/
def execMemCopy (q : Nat) (h : Hdr) (pl : List Byte) (s : State) : Host.Outcome State Fault Refusal := .next (packet 0x0205 q h pl s)

/-- MEM_FILL (09 R328). -/
def execMemFill (q : Nat) (h : Hdr) (pl : List Byte) (s : State) : Host.Outcome State Fault Refusal := .next (packet 0x0206 q h pl s)

/-- DESC_CREATE (07 R262). -/
def execDescCreate (q : Nat) (h : Hdr) (pl : List Byte) (s : State) : Host.Outcome State Fault Refusal := .next (packet 0x0301 q h pl s)

/-- DESC_DESTROY (07 R270). -/
def execDescDestroy (q : Nat) (h : Hdr) (pl : List Byte) (s : State) : Host.Outcome State Fault Refusal := .next (packet 0x0302 q h pl s)

/-- PROG_LOAD (03 R96). -/
def execProgLoad (q : Nat) (h : Hdr) (pl : List Byte) (s : State) : Host.Outcome State Fault Refusal := .next (packet 0x0401 q h pl s)

/-- PROG_RUN (03 R98). -/
def execProgRun (q : Nat) (h : Hdr) (pl : List Byte) (s : State) : Host.Outcome State Fault Refusal := .next (packet 0x0402 q h pl s)

/-- PROG_UNLOAD (03 R102). -/
def execProgUnload (q : Nat) (h : Hdr) (pl : List Byte) (s : State) : Host.Outcome State Fault Refusal := .next (packet 0x0403 q h pl s)

/-- SKIPLOG_READ (03 R139). -/
def execSkiplogRead (q : Nat) (h : Hdr) (pl : List Byte) (s : State) : Host.Outcome State Fault Refusal := .next (packet 0x0404 q h pl s)

/-- LATCH_ALLOC (03 R132). -/
def execLatchAlloc (q : Nat) (h : Hdr) (pl : List Byte) (s : State) : Host.Outcome State Fault Refusal := .next (packet 0x0501 q h pl s)

/-- LATCH_FREE (03 R132). -/
def execLatchFree (q : Nat) (h : Hdr) (pl : List Byte) (s : State) : Host.Outcome State Fault Refusal := .next (packet 0x0502 q h pl s)

/-- LATCH_SIGNAL (03 R133). -/
def execLatchSignal (q : Nat) (h : Hdr) (pl : List Byte) (s : State) : Host.Outcome State Fault Refusal := .next (packet 0x0503 q h pl s)

/-- LATCH_WAIT (03 R133). -/
def execLatchWait (q : Nat) (h : Hdr) (pl : List Byte) (s : State) : Host.Outcome State Fault Refusal := .next (packet 0x0504 q h pl s)

/-- LATCH_POISON (03 R133). -/
def execLatchPoison (q : Nat) (h : Hdr) (pl : List Byte) (s : State) : Host.Outcome State Fault Refusal := .next (packet 0x0505 q h pl s)

/-- LATCH_READ (03 R133). -/
def execLatchRead (q : Nat) (h : Hdr) (pl : List Byte) (s : State) : Host.Outcome State Fault Refusal := .next (packet 0x0506 q h pl s)

/-- SEQ_OPEN (06 R218). -/
def execSeqOpen (q : Nat) (h : Hdr) (pl : List Byte) (s : State) : Host.Outcome State Fault Refusal := .next (packet 0x0601 q h pl s)

/-- SEQ_COMMIT (06 R232). -/
def execSeqCommit (q : Nat) (h : Hdr) (pl : List Byte) (s : State) : Host.Outcome State Fault Refusal := .next (packet 0x0602 q h pl s)

/-- SEQ_DROP (06 R237). -/
def execSeqDrop (q : Nat) (h : Hdr) (pl : List Byte) (s : State) : Host.Outcome State Fault Refusal := .next (packet 0x0603 q h pl s)

/-- SEQ_CLOSE (06 R238). -/
def execSeqClose (q : Nat) (h : Hdr) (pl : List Byte) (s : State) : Host.Outcome State Fault Refusal := .next (packet 0x0604 q h pl s)

/-- REQ_SUBMIT (12 R449). -/
def execReqSubmit (q : Nat) (h : Hdr) (pl : List Byte) (s : State) : Host.Outcome State Fault Refusal := .next (packet 0x0605 q h pl s)

/-- REQ_CANCEL (12 R455). -/
def execReqCancel (q : Nat) (h : Hdr) (pl : List Byte) (s : State) : Host.Outcome State Fault Refusal := .next (packet 0x0606 q h pl s)

/-- REQ_PARK (12 R461). -/
def execReqPark (q : Nat) (h : Hdr) (pl : List Byte) (s : State) : Host.Outcome State Fault Refusal := .next (packet 0x0607 q h pl s)

/-- REQ_RESUME (12 R462). -/
def execReqResume (q : Nat) (h : Hdr) (pl : List Byte) (s : State) : Host.Outcome State Fault Refusal := .next (packet 0x0608 q h pl s)

/-- SCRUB_RANGE (09 R345). -/
def execScrubRange (q : Nat) (h : Hdr) (pl : List Byte) (s : State) : Host.Outcome State Fault Refusal := .next (packet 0x0701 q h pl s)

/-- SELFTEST (15 R540). -/
def execSelftest (q : Nat) (h : Hdr) (pl : List Byte) (s : State) : Host.Outcome State Fault Refusal := .next (packet 0x0702 q h pl s)

/-- ECC_TEST (09 R349). -/
def execEccTest (q : Nat) (h : Hdr) (pl : List Byte) (s : State) : Host.Outcome State Fault Refusal := .next (packet 0x0703 q h pl s)

/-- LINK_CALIB (10 R372). -/
def execLinkCalib (q : Nat) (h : Hdr) (pl : List Byte) (s : State) : Host.Outcome State Fault Refusal := .next (packet 0x0704 q h pl s)

/-- FAB_JOIN (10 R377). -/
def execFabJoin (q : Nat) (h : Hdr) (pl : List Byte) (s : State) : Host.Outcome State Fault Refusal := .next (packet 0x0801 q h pl s)

/-- FAB_LEAVE (10 R384). -/
def execFabLeave (q : Nat) (h : Hdr) (pl : List Byte) (s : State) : Host.Outcome State Fault Refusal := .next (packet 0x0802 q h pl s)

/-- FAB_STATUS (10 R392). -/
def execFabStatus (q : Nat) (h : Hdr) (pl : List Byte) (s : State) : Host.Outcome State Fault Refusal := .next (packet 0x0803 q h pl s)

/-- PWR_SET_LIMIT (14 R517). -/
def execPwrSetLimit (q : Nat) (h : Hdr) (pl : List Byte) (s : State) : Host.Outcome State Fault Refusal := .next (packet 0x0901 q h pl s)

/-- PWR_READ (14 R517). -/
def execPwrRead (q : Nat) (h : Hdr) (pl : List Byte) (s : State) : Host.Outcome State Fault Refusal := .next (packet 0x0902 q h pl s)

/-! Records, signals and waits. -/

/-- COMPLETION_RECORD_POST (02 R62-R65); a SCRUB_RANGE that comes next ends with it (09 R346). -/
def execCompletionRecordPost (q : Nat) (s : State) : Host.Outcome State Fault Refusal := .next (pumpAll (attempt 0 (postOldest q) (scrubOldest q s)))

/-- HEADER_LATCH_SIGNAL (02 R66). -/
def execHeaderLatchSignal (q uid : Nat) (s : State) : Host.Outcome State Fault Refusal := .next (pumpAll (headerSignal q uid s))

/-- LATCH_WAIT_EVAL (03 R129): every wait on the latch is looked at. -/
def execLatchWaitEval (l : Nat) (s : State) : Host.Outcome State Fault Refusal := .next (pumpAll (evalWaits l s))

/-- ENGINE_COMMAND_COMPLETION (03 R109). -/
def execEngineCommandCompletion (cl uid : Nat) (s : State) : Host.Outcome State Fault Refusal := .next (serveIdle (pumpAll (engineComplete cl uid s)))

/-- PAGE_FREE_DEFERRED (06 R237, R238): a page whose commands have completed returns to FREE. -/
def execPageFreeDeferred (pmi : Nat) (s : State) : Host.Outcome State Fault Refusal :=
  .next (match s.getPage pmi with
    | some p => (match p.freeing with
      | some d => if anyAlive s d then s else pumpAll (freePage pmi s)
      | none => s)
    | none => s)

end Sys2Proof.Machine
end

