-- ==== Sys2Proof/Machine/Runs.lean ====
section
/-! DEFINITION. Events of runs: start, completion, quantum, hinge points, shutter save and restore, and the drain limit of a migration (03 R101,
R113-R115, R141; 11 R420-R437). -/

namespace Sys2Proof.Machine

/-- A run is over: with a stop status what it had written is undefined (02 R69); its clusters are free (and, with RELEASE, their contents given
up, whatever the status, 01 R37, 14 R498), and its PROG_RUN or the Keeper's step ends. -/
def endRun (r : Nat) (x : Run) (res : Res) (a : Nat) (s : State) : State :=
  let s : State := if kindOf res.st = .stop || kindOf res.st = .discard then spoilRun r s else s
  let cls := coresOf s r
  let s : State := releaseRun r s
  let s : State := if x.release then forEach cls (fun cl s => s.modCore cl (fun c => { c with live := none })) s else s
  match x.keeper with
  | some k => s.modCas k (fun v => if v.svc.run = some r then { v with svc := { v.svc with run := none, result := some res.st } } else v)
  | none => completeEntry x.q x.uid res a s

/-- PROG_RUN_COMPLETION (03 R101, R115, R141): every core has ended, stopped or been cut, and every command they pushed has completed. Its dump
waits for a gated stack or a yield (01 R39, 05 R205). -/
def runComplete (r : Nat) (s : State) : State :=
  match s.getRun r with
  | none => s
  | some x =>
    if !(x.st = .running || x.st = .preempting || x.st = .saving) || !((coresOf s r).all (fun cl => coreFinished (s.coreAt cl))) then s
    else match x.stop with
      | some st => endRun r x (Res.stat st) 0 s
      | none =>
        if x.st = .saving then s
        else if x.stopIndex = 0 then endRun r x (Res.ok x.added) 0 s
        else match writeDump x s with
          | (s, .ok) => endRun r x (Res.ok x.added) 0 s
          | (s, .fault va) => endRun r x (Res.stat stPageFault) va s
          | (s, .ecc) => endRun r x (Res.stat stEccUncorr) 0 s

/-- PROG_RUN_COMPLETION (03 R101). -/
def execProgRunCompletion (r : Nat) (s : State) : Host.Outcome State Fault Refusal := .next (pumpAll (attempt (match s.getRun r with | some x => x.uid | none => 0) (runComplete r) s))

/-- Clocks run: no trip and no reset. -/
def clocked (s : State) : Bool := !s.dev.inReset && !s.dev.clockStop

/-- RUN_START (11 R422). -/
def execRunStart (s : State) : Host.Outcome State Fault Refusal :=
  .next (if !clocked s then s
    else match nextRun s with
      | some (r, x) => pumpAll (if x.st = .saved then resumeRun r x s else startRun r x s)
      | none => s)

/-- QUANTUM_EXPIRY (11 R421): a run that blocks an equal is asked to stop; that its quantum has passed is the sender's (log 3). -/
def execQuantumExpiry (r : Nat) (s : State) : Host.Outcome State Fault Refusal := .next (if blocksEqual s r then requestPreempt r s else s)

/-- The armed areas whose state a run's hinge point writes (05 R201, 11 R424): those it armed, and with no other run of its context in progress
those of earlier runs too. -/
def ownArea (s : State) (r : Nat) (x : Run) (a : Armed) : Bool :=
  a.ctx = x.ctx && (a.run = r || !(s.run.any (fun e => e.1 ≠ r && e.2.ctx = x.ctx && !Run.idle e.2)))

/-- The state records of a run's armed areas: m and s of each row at AUX (05 R201). `keep`: a shutter save follows, after which they are reloaded. -/
def saveArmed (r : Nat) (x : Run) (keep : Bool) (s : State) : State :=
  let mine := ownArea s r x
  let s : State := forEach (s.armed.filter (fun a => mine a && a.saved.isNone)) (fun a =>
    sillWrite 0 (a.unit * 2 ^ 30 + a.aux) ((List.range a.n).flatMap (fun r => toLE (a.row r).1.toNat 4 ++ toLE (a.row r).2.toNat 4))) s
  if keep then s.onArmed (fun l => l.map (fun a => if mine a && a.saved.isNone then { a with saved := some r } else a)) else s

/-- Reloads what the shutter save of a run wrote; an uncorrectable word leaves the rows free (log 8). -/
def loadArmed (r : Nat) (s : State) : State :=
  let one := fun (a : Armed) (s : State) =>
    match sillRead (a.unit * 2 ^ 30 + a.aux) (8 * a.n) s with
    | (s, some b) =>
      (s, { a with saved := none, rows := (List.range a.n).map (fun r => (r, (BitVec.ofNat 32 (le b (8 * r) 4), BitVec.ofNat 32 (le b (8 * r + 4) 4)))) })
    | (s, none) =>
      let (k, s) := State.fresh s
      (s, { a with saved := none, rows := (List.range a.n).map (fun r =>
        (r, ((Config.freeWord k (2 * r)).setWidth 32, (Config.freeWord k (2 * r + 1)).setWidth 32))) })
  let z := s.armed.foldl (fun (t : State × List Armed) a =>
    if a.saved = some r then let y := one a t.1; (y.1, t.2 ++ [y.2]) else (t.1, t.2 ++ [a])) (s, [])
  z.1.onArmed (fun _ => z.2)

/-- HINGE_POINT_REACHED (03 R113; 11 R424, R429): a run that cannot be saved completes PREEMPTED; any other begins its shutter save. A run
whose cores have all ended completes instead. -/
def hingeReached (r : Nat) (s : State) : State :=
  match s.getRun r with
  | none => s
  | some x =>
    let cs := coresOf s r
    if x.st ≠ .preempting || x.stop.isSome || !cs.all (fun cl => coreAtHinge (s.coreAt cl)) || cs.all (fun cl => coreFinished (s.coreAt cl)) then s
    else
      let shut := match s.getCtx x.ctx with | some y => y.shutter.isSome | none => false
      let keep := !x.noSave && shut
      let s : State := saveArmed r x keep s
      if !keep then endRun r x (Res.stat stPreempted) 0 s else s.updRun r (fun y => { y with st := .saving })

/-- HINGE_POINT_REACHED (03 R113). -/
def execHingePointReached (r : Nat) (s : State) : Host.Outcome State Fault Refusal := .next (pumpAll (hingeReached r s))

/-- HINGE_LATE (03 R114): once for each request, a note in the skip log, while the hinge point is not reached. -/
def execHingeLate (cl : Nat) (s : State) : Host.Outcome State Fault Refusal :=
  .next (
    let c := s.coreAt cl
    if c.stopReq && !c.late && !(c.st = .ended) && !coreAtHinge c then
      (logSkip cl c.pc rsHingeLate noInfo c.pushes (clTime s cl) s).modCore cl (fun c => { c with late := true })
    else s)

/-- SHUTTER_SAVE (11 R425). -/
def execShutterSave (r cl : Nat) (s : State) : Host.Outcome State Fault Refusal :=
  .next (match s.getRun r with
    | some x => if x.st = .saving && x.stop.isNone && (s.coreAt cl).run = some r then pumpAll (attempt x.uid (spillCluster r cl) s) else s
    | none => s)

/-- RUN_RESTORE (11 R428, 05 R201). -/
def execRunRestore (r : Nat) (s : State) : Host.Outcome State Fault Refusal :=
  .next (match s.getRun r with
    | some x => if x.st = .restoring && clocked s then pumpAll (attempt x.uid (fun s => restoreRun r (loadArmed r s)) s) else s
    | none => s)

/-- MIGRATION_DRAIN_TIMEOUT (11 R437): DRAIN_MS have passed since step 4. -/
def execMigrationDrainTimeout (c : Nat) (s : State) : Host.Outcome State Fault Refusal :=
  .next (match s.getCtx c with
    | some x => (match x.mig with
      | some m => if m.moved then pumpAll (migDone c s) else s
      | none => s)
    | none => s)

end Sys2Proof.Machine
end

