-- ==== Sys2Proof/Machine/Thermal.lean ====
section
/-! DEFINITION. Power and heat (14): sensing and hot sites (R501-R503), Louvre steps and the control step (R505-R510), the floor limiter (R511,
R512), the thermal trip (R513, R514), and slow-notices (10 R402, R403). -/

namespace Sys2Proof.Machine

/-! Sites, numbered as TRIP_SITE (16 R567). Readings are in 0.25 °C. -/

/-- Hot, release and trip of a site in °C (14 Table 14.2); none for a number that names no site or for a disabled input. -/
def siteLimits (s : State) (i : Nat) : Option (Int × Int × Int) :=
  if i < 32 then some (100, 97, 115)
  else if 0x100 ≤ i && i < 0x100 + 192 then some (95, 92, 105)
  else if 0x200 ≤ i && i < 0x200 + 24 then some (100, 97, 115)
  else if 0x300 ≤ i && i < 0x304 then some (80, 77, 90)
  else if 0x400 ≤ i && i < 0x404 then
    match tget s.therm.inp (i - 0x400) with
    | some c => if c.en then some (c.hot, (c.hot : Int) - 3, c.trip) else none
    | none => none
  else none

/-- A THERM_IN input that reads open or shorted. -/
def inputOpen (s : State) (i : Nat) : Bool := 0x400 ≤ i && s.therm.openIn.getLsbD (i - 0x400)

/-- Whether two sites belong to what raises the device interrupt when hot: optical engines and inputs (14 R510). -/
def siteAlerts (i : Nat) : Bool := 0x300 ≤ i

/-- The controlled unit of a site: leaves 0 and 1, then 2 + stack. -/
def siteUnit (i : Nat) : Option Nat :=
  if i < 32 then some (i / 16)
  else if 0x100 ≤ i && i < 0x100 + 192 then some (2 + (i - 0x100) / 16)
  else if 0x200 ≤ i && i < 0x200 + 24 then some (2 + (i - 0x200) / 2)
  else none

/-- One reading (14 R501): it is hot at or above the hot threshold and stays so until it falls to the release threshold. -/
def sampleSite (r : Nat × Int) (s : State) : State :=
  match siteLimits s r.1 with
  | none => s
  | some (h, rel, _) =>
    if inputOpen s r.1 then s
    else
      let was := s.therm.hot.contains r.1
      let now := decide (4 * h ≤ r.2) || (was && decide (4 * rel < r.2))
      let s : State := s.onTherm (fun t => { t with
        temp := tset t.temp r.1 r.2,
        hot := if now then (if was then t.hot else t.hot ++ [r.1]) else t.hot.filter (fun x => x ≠ r.1) })
      if now && !was && siteAlerts r.1 then devEvent 1 s else s

/-- The hottest DRAM die of a stack. -/
def dramMax (s : State) (st : Nat) : Int :=
  (List.range 16).foldl (fun m k => let x := tgetD s.therm.temp (0x100 + 16 * st + k) 0; if m < x then x else m) 0

/-- The refresh interval of a stack halves above 85 °C and returns at 82 °C (05 R213). -/
def refreshRate (st : Nat) (s : State) : State :=
  let m := dramMax s st
  if 4 * 85 < m then s.onTherm (fun t => { t with ref2x := setBit t.ref2x st true })
  else if m ≤ 4 * 82 then s.onTherm (fun t => { t with ref2x := setBit t.ref2x st false })
  else s

/-- FAULT of an enabled input that reads open or shorted (14 R502, 16 R568). -/
def faultInput (i : Nat) (s : State) : State :=
  if !s.therm.openIn.getLsbD i || (siteLimits s (0x400 + i)).isNone || s.therm.fault.getLsbD i then s
  else devEvent 3 (s.onTherm (fun t => { t with fault := setBit t.fault i true }))

/-- SENSOR_SAMPLE (14 R501, R502). A faulty input gives no reading (its temperature and its hot state stand as they were). -/
def sensorSample (rs : List (Nat × Int)) (faulty : BitVec 4) (s : State) : State :=
  if s.dev.inReset then s
  else
    let s : State := s.onTherm (fun t => { t with openIn := faulty })
    let s : State := forEach rs sampleSite s
    let s : State := forEach (List.range 4) faultInput s
    forEach (List.range 12) refreshRate s

/-- SENSOR_SAMPLE (14 R501). -/
def execSensorSample (rs : List (Nat × Int)) (faulty : BitVec 4) (s : State) : Host.Outcome State Fault Refusal := .next (sensorSample rs faulty s)

/-- A view that writes the blocks of the physical functions and the management port (16 Table 16.1, R552, R554). -/
def pfOrMp (s : State) (v : View) : Bool := match v with | .fn f => decide (f < 34) && isPF f && barOpen s | .mp => !s.dev.inReset

/-- THERM_FAULT_CLEAR (16 R568). -/
def execThermFaultClear (v : View) (a : Acc) (s : State) : Host.Outcome State Fault Refusal :=
  .next (match actVal a with
    | some x => if pfOrMp s v then s.onTherm (fun t => { t with fault := t.fault &&& ~~~ BitVec.ofNat 4 (fldN x 11 8) }) else s
    | none => s)

/-- The number of an on-die site in the order of calibration: leaf pairs, DRAM dies, base dies. -/
def siteIndex (i : Nat) : Option Nat :=
  if i < 32 then some i
  else if 0x100 ≤ i && i < 0x100 + 192 then some (32 + (i - 0x100))
  else if 0x200 ≤ i && i < 0x200 + 24 then some (224 + (i - 0x200))
  else none

/-- DIODE_CALIBRATION (14 R503): the diode in hand, one of the two of a site, is done and the next begins; not while Louvre restarts
(13 Table 13.11). -/
def execDiodeCalibration (site : Nat) (s : State) : Host.Outcome State Fault Refusal :=
  .next (if siteIndex site = some (s.therm.calib / 2) && !procDown s 1 then s.onTherm (fun t => { t with calib := (t.calib + 1) % 496 }) else s)

/-! Louvre steps (14 Table 14.3). -/

/-- Compute clocks in units of 0.5 MHz; leaf and stack figures in units of 0.1 W; budgets f as 1 / 512 parts. -/
def stepClock : List Nat := [2100, 2000, 1900, 1800, 1700, 1600, 1500, 1400, 1300, 1200, 1100, 1050, 900, 750, 600, 525]
def leafPower : List Nat := [2275, 2100, 1930, 1770, 1620, 1480, 1340, 1210, 1090, 970, 860, 810, 670, 540, 420, 360]
def stackPower : List Nat := [450, 400, 349, 299, 248, 198, 147, 122, 97, 84, 71, 59, 52, 49, 48, 47]
def stepBudget : List Nat := [512, 448, 384, 320, 256, 192, 128, 96, 64, 48, 32, 16, 8, 4, 2, 1]

/-- Full-load power of a controlled unit at a step; on a GX880-S the tile part of a leaf figure is scaled by 448 / 512 (R505). -/
def fullPower (s : State) (u st : Nat) : Rat :=
  if u < 2 then
    let w : Rat := (nth leafPower st 0 : Rat) / 10
    if s.fuse.grade = 2 then w * (80 + 375 * 448 / 512) / 455 else w
  else (nth stackPower st 0 : Rat) / 10

/-- The step of a unit. -/
def stepOf (s : State) (u : Nat) : Nat := tgetD s.lvr.step u 0

/-- The compute clock of a leaf, in units of 0.5 MHz (R505): in ajar service at most 525 MHz; none while a trip or a cold reset stops it. -/
def leafClock (s : State) (l : Nat) : Nat :=
  if s.dev.clockStop then 0 else let c := nth stepClock (stepOf s l) 2100; if ajar s then Nat.min 1050 c else c

/-- The rate fraction f of R402 and R508: the lowest of the stack budgets, the leaf clocks and the width left to narrowed ports. -/
def rateF (s : State) : Rat :=
  let stk := (List.range 12).map (fun t => (nth stepBudget (stepOf s (2 + t)) 512 : Rat) / 512)
  let leaf := (List.range 2).map (fun l => (nth stepClock (stepOf s l) 2100 : Rat) / 2100)
  let ports := (s.port.filter (fun p => p.2.st = .up && p.2.width = 2)).map (fun _ => (1 : Rat) / 2)
  (stk ++ leaf ++ ports).foldl (fun m x => if x < m then x else m) 1

/-- EXT in µs (R402); below level 2 in units of 64 µs (10 Table 10.8). -/
def extOf (s : State) : Nat :=
  let f := rateF s
  let t := s.fab.stepUs
  let e := Nat.min ((t : Rat) * (1 - f) / f).ceil.toNat (15 * t)
  if s.fab.level < 2 then alignUp e 64 else e

/-! Slow-notices. -/

/-- The neighbours of this member among ranks: in each dimension and direction the nearest that shares its other coordinates (R403). -/
def teamNeighbours (s : State) (ranks : List Nat) : List Nat :=
  let me := s.fab.rank
  dedupN ((List.range 4).flatMap (fun d =>
    let n := dimSize s d
    let line := ranks.filter (fun r => r ≠ me && (List.range 4).all (fun k => k = d || rankCoord s r k = rankCoord s me k))
    let dist := fun (r : Nat) => (rankCoord s r d + n - rankCoord s me d) % Nat.max 1 n
    let up := (sortBy dist line).take 1
    let dn := (sortBy (fun r => n - dist r) line).take 1
    up ++ dn))

/-- The plans of this member that have a collective in flight. -/
def flyingPlans (s : State) : List Plan := dedupPlans ((s.coll.filter (fun c => !c.2.finished)).filterMap (fun c => s.getPlan c.2.plan))
where
  dedupPlans (l : List Plan) : List Plan := l.foldl (fun acc p => if acc.any (fun x => x.handle = p.handle) then acc else acc ++ [p]) []

/-- A notice as flits to some ranks: its plan in the header, origin, number and EXT as payload (log 28). -/
def sendNotice (n : Notice) (dsts : List Nat) (s : State) : State :=
  forEach dsts (fun r s => sendFlit none { newFlit s r 3 3 with plan := n.plan, payload := toLE n.origin 2 ++ toLE n.seq 4 ++ toLE n.ext 4 } s) s

/-- The origin's notice goes to its neighbours in the team of every plan in flight (R403). -/
def sendOwn (s : State) : State :=
  servePorts (forEach (flyingPlans s) (fun p s =>
    sendNotice { origin := s.fab.rank, seq := s.fab.ownNotice.2, ext := s.fab.ownNotice.1, plan := p.handle % 4096 } (teamNeighbours s p.ranks) s) s)

/-- SLOW_NOTICE_SEND (R402): a new notice whenever the EXT computed changes. -/
def noticeUpdate (s : State) : State :=
  let e := extOf s
  if e = s.fab.ownNotice.1 then s
  else sendOwn (s.onFab (fun f => { f with ownNotice := (e, f.ownNotice.2 + 1) }))

/-- SLOW_NOTICE_RENEW (R402): every 100 ms while EXT stays above 0, under a new number. -/
def execSlowNoticeRenew (s : State) : Host.Outcome State Fault Refusal :=
  .next (if s.fab.ownNotice.1 = 0 then s else sendOwn (s.onFab (fun f => { f with ownNotice := (f.ownNotice.1, f.ownNotice.2 + 1) })))

/-- Forwards a notice to the neighbours of this member in the team of its plan (R403). -/
def forwardNotice (n : Notice) (s : State) : State :=
  match s.plan.find? (fun p => p.1 % 4096 = n.plan && p.2.ranks.contains n.origin && p.2.ranks.contains s.fab.rank) with
  | some p => servePorts (sendNotice n ((teamNeighbours s p.2.ranks).filter (fun r => r ≠ n.origin)) s)
  | none => s

/-- SLOW_NOTICE_RECEIVE (R403): a newer notice of an origin takes effect on the step timeouts; each is forwarded once in the team of every plan that
it comes on. -/
def slowNotice (n : Notice) (s : State) : State :=
  if !s.fab.member || n.origin = s.fab.rank then s
  else
    let put := fun (l : List Nat) (s : State) => s.onFab (fun f => { f with notices := tset f.notices n.origin (n.seq, n.ext, l) })
    match tget s.fab.notices n.origin with
    | some (k, _, l) =>
      if k < n.seq then forwardNotice n (relimit (put [n.plan] s))
      else if k = n.seq && !l.contains n.plan then forwardNotice n (put (l ++ [n.plan]) s)
      else s
    | none => forwardNotice n (relimit (put [n.plan] s))

/-- SLOW_NOTICE_RECEIVE (R403). -/
def execSlowNoticeReceive (n : Notice) (s : State) : Host.Outcome State Fault Refusal := .next (slowNotice n s)

/-- SLOW_NOTICE_LAPSE (R402): 1,000 ms without renewal. -/
def execSlowNoticeLapse (origin : Nat) (s : State) : Host.Outcome State Fault Refusal :=
  .next (relimit (s.onFab (fun f => { f with notices := tdel f.notices origin })))

/-! The control step (14 R509, R510). -/

/-- A site of a unit is hot. -/
def unitHot (s : State) (u : Nat) : List Nat := s.therm.hot.filter (fun i => siteUnit i = some u)

/-- The step with half the budget of step t: the lowest whose budget is at most that (R510). -/
def halfStep (t : Nat) : Nat := ((List.range 16).find? (fun k => 2 * nth stepBudget k 0 ≤ nth stepBudget t 0)).getD 15

/-- The thermal step of a unit after a control step (R510). -/
def nextTherm (s : State) (u : Nat) : Nat :=
  let t := tgetD s.lvr.therm u 0
  let hot := unitHot s u
  if hot.isEmpty then t
  else if u < 2 then Nat.min 15 (t + 1)
  else
    let turned := hot.any (fun i => (tget s.therm.prev i).isNone)
    let stays := hot.any (fun i => match tget s.therm.prev i with
      | some p => decide (p - 4 < tgetD s.therm.temp i 0)
      | none => false)
    let t' := if stays then halfStep t else t
    if turned then Nat.max 4 t' else t'

/-- The limit by hot THERM_IN inputs (R510): each control step takes 50 W off the limit in force while one is hot (log 60). -/
def nextThermLim (s : State) : Nat := if s.therm.hot.any (fun i => 0x400 ≤ i) then Nat.max 600 (plim s - 50) else 1100

/-- Weights of the units in the division. -/
def unitWeight (u : Nat) : Rat := if u < 2 then 2275 / 10 else 45

/-- The division of the available power (R509): units that want less than their share keep their want, and the rest passes to the others. -/
def divide (want : Nat → Rat) : Nat → List Nat → Rat → List (Nat × Rat) → List (Nat × Rat)
  | 0, _, _, done => done
  | n + 1, open_, rest, done =>
    let w := open_.foldl (fun a u => a + unitWeight u) 0
    let share := fun (u : Nat) => rest * unitWeight u / w
    let small := open_.filter (fun u => decide (want u < share u))
    if small.isEmpty then done ++ open_.map (fun u => (u, share u))
    else
      divide want n (open_.filter (fun u => !small.contains u)) (small.foldl (fun a u => a - want u) rest) (done ++ small.map (fun u => (u, want u)))

/-- Measured power of a unit as a fraction of its full-load power at its step; a gated unit has none. -/
def unitLoad (s : State) (load : List Nat) (u : Nat) : Rat :=
  if 2 ≤ u && s.gated.contains (.stack (u - 2)) then 0 else ((nth load u 0 : Nat) : Rat) / 4 / fullPower s u (stepOf s u)

/-- The new step of a unit (R509): down at once, up two at most; never above the floor while it is engaged (R512). -/
def nextStep (s : State) (load share : Rat) (u : Nat) : Nat :=
  let p := ((List.range 16).find? (fun k => decide (load * fullPower s u k ≤ share))).getD 15
  let target := Nat.max p (Nat.max (tgetD s.lvr.therm u 0) (if s.lvr.floor then s.lvr.floorStep else 0))
  let cur := stepOf s u
  if cur < target then target else Nat.max target (cur - 2)

/-- Sets the step of a unit, as Louvre does: LVR_STEP is logged where it changes. -/
def writeStep (u st : Nat) (s : State) : State :=
  let s' := s.onLvr (fun l => { l with step := tset l.step u st, written := tset l.written u st })
  if stepOf s u = st then s' else trace 1 0x2001 0 (BitVec.ofNat 64 u) (BitVec.ofNat 64 st) s'

/-- CONTROL_STEP (R509-R512, R516, R518). None while Louvre restarts (R520) or a trip is in force (R513). -/
def controlStep (draw fixed : Nat) (load : List Nat) (s : State) : State :=
  if procDown s 1 || s.therm.trip || s.dev.inReset then s
  else
    let s : State := s.onLvr (fun l => { l with
      share := match l.shareNext with | some w => some w | none => l.share, shareNext := none, thermLim := nextThermLim s,
      therm := (List.range 14).foldl (fun t u => tset t u (nextTherm s u)) l.therm,
      floor := l.floor && !l.below, below := l.below && !l.floor, draw := draw, fixed := fixed, load := load })
    let s : State := s.onTherm (fun t => { t with prev := t.temp.filter (fun e => t.hot.contains e.1) })
    let ld := (List.range 14).map (unitLoad s load)
    let want := fun (u : Nat) => nth ld u 0 * fullPower s u 0
    let shares := divide want 15 (List.range 14) ((plim s : Rat) - fixed) []
    let steps := (List.range 14).map (fun u => (u, nextStep s (nth ld u 0) (((shares.find? (fun e => e.1 = u)).map (·.2)).getD 0) u))
    let s : State := forEach steps (fun e s => writeStep e.1 e.2 s) s
    noticeUpdate (s.onLvr (fun l => { l with
      want := ((List.range 14).foldl (fun a u => a + want u) 0).floor.toNat,
      shown := (plim s, l.hostLim, (match l.share with | some w => w | none => 0), l.margin, l.floorStep) }))

/-- CONTROL_STEP (14 R509): draw and fixed draw in W, the measured power of each unit in 0.25 W. -/
def execControlStep (draw fixed : Nat) (load : List Nat) (s : State) : Host.Outcome State Fault Refusal := .next (controlStep draw fixed load s)

/-- THERMAL_STEP_RELEASE (14 R510): 1 ms after the last, while no reading of the unit is hot. -/
def execThermalStepRelease (u : Nat) (s : State) : Host.Outcome State Fault Refusal :=
  .next (if u < 14 && (unitHot s u).isEmpty && !procDown s 1 then s.onLvr (fun l => { l with therm := tset l.therm u (tgetD l.therm u 0 - 1) }) else s)

/-! The floor limiter (14 R511, R512). -/

/-- The floor threshold, in units of 0.01 W. -/
def floorAt (s : State) : Nat := plim s * (100 + s.lvr.margin)

/-- FLOOR_ENGAGE (14 R511): `avg` is the 20 µs average in W. A unit that stands lower already is not touched. -/
def floorEngage (avg : Nat) (s : State) : State :=
  if avg * 100 ≤ floorAt s || s.therm.trip || s.dev.inReset then s
  else
    let s : State := s.onLvr (fun l => { l with
      floor := true, below := false, step := (List.range 14).foldl (fun t u => tset t u (Nat.max l.floorStep (tgetD t u 0))) l.step })
    noticeUpdate s

/-- FLOOR_ENGAGE (14 R511). -/
def execFloorEngage (avg : Nat) (s : State) : Host.Outcome State Fault Refusal := .next (floorEngage avg s)

/-- FLOOR_RELEASE (14 R511): while Louvre runs, the fall below the threshold lets the next control step release; without it, 1 ms below 0.9 PLIM
returns each unit to the step that Louvre last wrote. -/
def floorRelease (avg : Nat) (s : State) : State :=
  if !s.lvr.floor then s
  else if procDown s 1 then
    (if avg * 10 < plim s * 9 then
      noticeUpdate (s.onLvr (fun l => { l with floor := false, below := false, step := (List.range 14).foldl (fun t u => tset t u (tgetD l.written u 0)) l.step }))
    else s)
  else if avg * 100 < floorAt s then s.onLvr (fun l => { l with below := true })
  else s

/-- FLOOR_RELEASE (14 R511). -/
def execFloorRelease (avg : Nat) (s : State) : Host.Outcome State Fault Refusal := .next (floorRelease avg s)

/-! The trip (14 R513, R514). -/

/-- What a tile command that is stopped has written to the accumulators of its tiles is undefined (15 R526). -/
def cutTile (uid tl : Nat) (s : State) : State :=
  match (s.tileAt tl).fl.find? (fun y => y.uid = uid) with
  | none => s
  | some x => havocAcc tl (s.dev.cycle + 1) x s

/-- An engine command in flight stops where it stands: what it had written is undefined (15 R526), and its latch is poisoned (02 R69). -/
def cutFlying (cl : Nat) (e : ECmd) (s : State) : State :=
  let s : State :=
    if e.qk = 0 then tileTake e.uid (tilesOf cl e) (forEach (tilesOf cl e) (cutTile e.uid) s)
    else if e.qk = 2 && e.st = .running then cutSill e s
    else if e.qk = 4 then collStop e.uid (EOut.stop stThermalTrip 0) s
    else s
  poisonEnv e (freeBanks e.uid (settleWrites e.uid (undefWrites (tgetD s.wlog e.uid []) s)))

/-- Stops every command in flight of a core. -/
def stopFlying (cl : Nat) (s : State) : State :=
  let l := (s.coreAt cl).eq.filter (fun e => e.st ≠ .queued)
  let s : State := forEach l (cutFlying cl) s
  s.modCore cl (fun c => { c with eq := c.eq.filter (fun e => e.st = .queued) })

/-- A run that is not saved whole ends with THERMAL_TRIP, or with the stop it met first (R514). -/
def tripRun (r : Nat) (s : State) : State :=
  match s.getRun r with
  | none => s
  | some x =>
    if x.st = .saved then s
    else
      let st := x.stop.getD stThermalTrip
      endRun r x (Res.stat st) 0 (cutRun r st s)

/-- A port goes dark (10 Table 10.3). -/
def darkPort (p : Nat) (s : State) : State :=
  let s : State := setPort p .down s
  s.modPort p (fun x => { Port.init with retrained := x.retrained, nextSeq := x.nextSeq, rxSeq := x.rxSeq })

/-- The device leaves its group without FAB_LEAVE (10 R404): a FAB_LEAVE that waits is done, any other wait ends PEER_LOST. -/
def dropGroup (s : State) : State :=
  let s : State := match s.fab.wait with
    | .none => s
    | .leaving => fabAnswer (Res.ok 0) s
    | _ => fabAnswer (Res.stat stPeerLost) s
  leaveGroup s

/-- THERMAL_TRIP (R513, R514): that the site has reached its threshold is the comparator's word (log 3). -/
def thermalTrip (site : Nat) (s : State) : State :=
  match siteLimits s site with
  | none => s
  | some (_, _, t) =>
    if s.therm.trip || s.dev.inReset || inputOpen s site then s
    else
      let s : State := sampleSite (site, let c := tgetD s.therm.temp site 0; if c < 4 * t then 4 * t else c) s
      let s : State := (s.onDev (fun d => { d with clockStop := true })).onTherm (fun h => { h with trip := true, tripSite := site })
      let s : State := devEvent 2 (s.onPin (fun p => { p with tripN := false }))
      let s : State := forEach (tkeys s.core) stopFlying s
      let s : State := forEach (tkeys s.run) tripRun s
      let s : State := forEach ((List.range 12).filter (fun n => !s.gated.contains (.stack n))) (fun n => gate (.stack n)) s
      let s : State := forEach (List.range 16) darkPort s
      pumpAll (dropGroup s)

/-- THERMAL_TRIP (14 R513). -/
def execThermalTrip (site : Nat) (s : State) : Host.Outcome State Fault Refusal := .next (thermalTrip site s)

/-- Every site reads at or below its release threshold (R515). -/
def allReleased (s : State) : Bool :=
  s.therm.temp.all (fun e => match siteLimits s e.1 with | some (_, rel, _) => decide (e.2 ≤ 4 * rel) | none => true)

/-- The end of a trip (R515): every unit starts at FLOOR_STEP. The ports train again once there is light (10 R366). -/
def endTrip (s : State) : State :=
  let s : State := (s.onDev (fun d => { d with clockStop := false })).onTherm (fun t => { t with trip := false })
  let s : State := s.onPin (fun p => { p with tripN := true })
  noticeUpdate (s.onLvr (fun l =>
    let t := (List.range 14).map (fun u => (u, l.floorStep))
    { l with step := t, written := t }))

end Sys2Proof.Machine
end

