-- ==== Sys2Proof/Machine/Fabric.lean ====
section
/-! DEFINITION. Links and groups: port states, lanes, replay and calibration (10 R365-R372), arriving flits (R373-R375, R395-R399), formation,
the lintel, loss and leaving (R379-R391), expert moves (R405, R406) and power shares (14 R518). Management messages reach a restarting
Mullion processor without effect and are repeated (10 R382; log 36). -/

namespace Sys2Proof.Machine

/-! Links. -/

/-- A port number. -/
def isPort (p : Nat) : Bool := decide (p < 16)

/-- LINK_LIGHT_ON (10 Table 10.3): light on at least 2 lanes. -/
def execLinkLightOn (p lanes : Nat) (s : State) : Host.Outcome State Fault Refusal :=
  .next (if isPort p && 2 ≤ lanes && (s.portAt p).st = .down && !s.therm.trip && !s.dev.inReset then setPort p .train s else s)

/-- LINK_LIGHT_LOST (10 Table 10.3): on more than 3 lanes. -/
def execLinkLightLost (p lanes : Nat) (s : State) : Host.Outcome State Fault Refusal :=
  .next (if isPort p && 3 < lanes then pumpAll (noticeUpdate (darkPort p s)) else s)

/-- LANES_LOCKED (10 Table 10.3): in NEGOTIATE this end reports itself (R367). -/
def execLanesLocked (p : Nat) (s : State) : Host.Outcome State Fault Refusal :=
  .next (
    let st := (s.portAt p).st
    if isPort p && (st = .train || st = .retrain) && !s.dev.inReset then pumpAll (linkSend p (.ident (ownIdent s)) (setPort p .negotiate s)) else s)

/-- Width of a direction by the lanes that work, the spare among them (10 R369). -/
def laneWidth (l : BitVec 5) : Nat := let n := (ones l).length; if 4 ≤ n then 4 else if 2 ≤ n then 2 else 0

/-- The spare of a direction stands in for a failed lane. -/
def spareIn (l : BitVec 5) : Bool := l.getLsbD 4 && (List.range 4).any (fun i => !l.getLsbD i)

/-- Width of a port: that of its narrower direction. -/
def Port.lanesWidth (x : Port) : Nat := Nat.min (laneWidth x.tx) (laneWidth x.rx)

/-- A port whose spare stands in, in either direction. -/
def Port.spareUsed (x : Port) : Bool := spareIn x.tx || spareIn x.rx

/-- NEGOTIATION_COMPLETE (10 R367, R376): the lower of the two levels, and the peer's digest; a peer that reports another place than the map expects is
miswired. It comes again once an end has joined. -/
def negotiated (p : Nat) (peer : PeerId) (s : State) : State :=
  let x := s.portAt p
  let mine := s.fab.member || s.fab.wait = .joining
  let wrong := mine && peer.joined && (match expectRank s p with | some r => peer.group ≠ s.fab.group || peer.rank ≠ r | none => false)
  if !isPort p || s.dev.inReset || !(x.st = .negotiate || x.st = .up || x.st = .miswired) then s
  else
    let s : State := s.modPort p (fun y => { y with
      level := Nat.min s.dev.compatLevel peer.level, width := y.lanesWidth, spare := y.spareUsed, peer := if peer.joined then peer.rank else 0,
      peerDigest := peer.digest, fails := 0 })
    noticeUpdate (setPort p (if wrong then .miswired else .up) s)

/-- NEGOTIATION_COMPLETE (10 R367). -/
def execNegotiationComplete (p : Nat) (peer : PeerId) (s : State) : Host.Outcome State Fault Refusal := .next (pumpAll (negotiated p peer s))

/-- A lane of a port fails: 0 to 3 and the spare 4 of the transmit direction, 5 to 8 and 9 of the receive direction (10 R362). -/
def Port.failLane (x : Port) (lane : Nat) : Port :=
  if lane < 5 then { x with tx := setBit x.tx lane false } else { x with rx := setBit x.rx (lane - 5) false }

/-- LANE_FAIL (10 R369): the spare of its direction takes the lane's place; after that width 2; below two lanes the port goes DOWN. A failure that
takes the spare ends a calibration in hand. -/
def laneFail (p lane : Nat) (s : State) : State :=
  if !isPort p || 9 < lane || (s.portAt p).st = .down then s
  else
    let x := (s.portAt p).failLane lane
    if x.lanesWidth = 0 then noticeUpdate (darkPort p s)
    else
      noticeUpdate (s.modPort p (fun y => { y with
        tx := x.tx, rx := x.rx, width := if y.st = .up then x.lanesWidth else y.width, spare := x.spareUsed, calib := [], lcal := none }))

/-- LANE_FAIL (10 R369). -/
def execLaneFail (p lane : Nat) (s : State) : Host.Outcome State Fault Refusal := .next (pumpAll (laneFail p lane s))

/-- A management message comes in as a flit (10 R389): of a version that this member accepts, and not while its Mullion processors restart. Here is what has no
row of its own: the acknowledgement of an announcement (code 22; R379, R382), a report of links (code 24; R383) and a group budget for the lintel (code 25; 14 R518). -/
def takeMsg (fl : Flit) (s : State) : State :=
  let b := fl.payload
  let src := le b 6 2
  if mullBusy s || !takesMver s (le b 0 1) || le b 2 4 ≠ s.fab.group.toNat then s
  else if le b 1 1 = 22 then
    (if src = s.fab.lintel || src = s.fab.candidate then (answered src 6 s).onFab (fun f => { f with announced := true }) else s)
  else if le b 1 1 = 24 then gotLinks src (le b 12 8) (le b 20 8 = 1) s
  else if le b 1 1 = 25 && s.fab.isLintel then s.onFab (fun f => { f with budget := some (le b 12 8) })
  else s

/-- A flit for this device. -/
def ownFlit (s : State) (fl : Flit) : Bool := fl.dst = s.fab.rank && !s.fab.sizes.isEmpty

/-- Whether an arriving flit can be taken; where an early buffer is full, credits hold the sender (10 R395). -/
def arrivalRoom (p : Nat) (fl : Flit) (s : State) : Bool := !(ownFlit s fl && fl.type ≤ 1) || flitRoom s (p / 8) fl

/-- A flit has arrived in order at this device (10 R374, R395): its own data and rows wake the Mullion engine of the port's leaf (01 R36) and go to
their collective, transit flits on; what other messages, a notice or a beat say has a row of its own. -/
def takeArrival (p : Nat) (fl : Flit) (s : State) : State :=
  if ownFlit s fl then
    (if fl.type ≤ 1 then flitIn (p / 8) fl (wakeFor (.mullion (p / 8)) s) else if fl.type = 2 then takeMsg fl s else s)
  else sendFlit (some p) fl s

/-- What comes in on a link (10 R370, R374): an acknowledgement releases held flits. The flit that the link awaits is taken and acknowledged; one that was
here before is acknowledged again; one ahead of it is answered with a negative acknowledgement. -/
def flitReceive (p : Nat) (m : LinkIn) (s : State) : State :=
  if !isPort p || (s.portAt p).st ≠ .up || s.dev.inReset then s
  else
    let s : State := match m.ack with | some k => portAck p k s | none => s
    match m.flit with
    | none => s
    | some fl =>
      let n := (s.portAt p).rxSeq
      if fl.lseq = n then
        if arrivalRoom p fl s then takeArrival p fl (linkSend p (.ack n) (s.modPort p (fun y => { y with rxSeq := (y.rxSeq + 1) % 4096 }))) else s
      else if (n + 4096 - fl.lseq) % 4096 ≤ 256 then linkSend p (.ack ((n + 4095) % 4096)) s
      else linkSend p (.nak n) s

/-- FLIT_RECEIVE (10 R374). -/
def execFlitReceive (p : Nat) (m : LinkIn) (s : State) : Host.Outcome State Fault Refusal := .next (pumpAll (flitReceive p m s))

/-- The flits that a port holds are replayed, the first of which has been replayed `fails` times; after 16 failed replays of it the port retrains, and
they are re-routed (10 R370, R374). -/
def replayPort (p fails : Nat) (held : List (Option Nat × Flit)) (s : State) : State :=
  if fails < 16 then
    let s : State := s.modPort p (fun y => { y with replay := held, fails := fails + 1 })
    s.onOut (fun o => { o with flits := (held.map (fun f => (p, f.2))).reverse ++ o.flits })
  else
    let s : State := setPort p .retrain (s.modPort p (fun y => { y with replay := [], fails := 0 }))
    forEach held (fun f => sendFlit f.1 f.2) s

/-- NEGATIVE_ACK (10 R370): everything before `seq` has arrived. -/
def negativeAck (p seq : Nat) (s : State) : State :=
  let x := s.portAt p
  let held := x.replay.dropWhile (fun f => f.2.lseq ≠ seq)
  if !isPort p || x.st ≠ .up || held.isEmpty then s
  else replayPort p (if held.length < x.replay.length then 0 else x.fails) held s

/-- NEGATIVE_ACK (10 R370). -/
def execNegativeAck (p seq : Nat) (s : State) : Host.Outcome State Fault Refusal := .next (pumpAll (negativeAck p seq s))

/-- REPLAY_TIMEOUT (10 R370): 2 µs without any acknowledgement. -/
def execReplayTimeout (p : Nat) (s : State) : Host.Outcome State Fault Refusal :=
  .next (
    let x := s.portAt p
    if isPort p && x.st = .up && !x.replay.isEmpty then pumpAll (replayPort p x.fails x.replay s) else s)

/-- LANE_CALIBRATION (10 R371, R372): the lane in hand is retrained and counted; while the Mullion processor restarts it stays on the spare. -/
def laneCalibrated (p lane : Nat) (s : State) : State :=
  let x := s.portAt p
  if !isPort p || x.calib.head? ≠ some lane || procDown s (2 + p / 8) then s
  else
    let s : State := match x.lcal with
      | some (q, u) => updEntry q u (fun e => { e with deps := [nth e.deps 0 0 + 1] }) s
      | none => s
    s.modPort p (fun y => { y with
      retrained := y.retrained + 1, calib := y.calib.drop 1, lcal := if (y.calib.drop 1).isEmpty then none else y.lcal })

/-- LANE_CALIBRATION (10 R371). -/
def execLaneCalibration (p lane : Nat) (s : State) : Host.Outcome State Fault Refusal := .next (pumpAll (laneCalibrated p lane s))

/-- CALIBRATION_PERIOD (10 R371): every lane of the leaf's ports. -/
def execCalibrationPeriod (leaf : Nat) (s : State) : Host.Outcome State Fault Refusal :=
  .next (if 1 < leaf || procDown s (2 + leaf) then s
    else forEach ((List.range 8).map (fun i => leaf * 8 + i)) (fun p s =>
      s.modPort p (fun x => if canCalib x && x.calib.isEmpty then { x with calib := [0, 1, 2, 3] } else x)) s)

/-- PEER_LOST_REPORT (10 R383): two members that name one rank. -/
def peerLost (src lost : Nat) (s : State) : State :=
  if !s.fab.member || !s.fab.isLintel || mullBusy s || !liveRank s lost || !liveRank s src || src = lost then s
  else
    let l := if s.fab.reports.contains (src, lost) then s.fab.reports else s.fab.reports ++ [(src, lost)]
    let s : State := s.onFab (fun f => { f with reports := l })
    if 2 ≤ (l.filter (fun x => x.2 = lost)).length then declareLost lost s else s

/-- A step is not satisfied in time (10 R401): the collective ends, and the ranks it waits for are reported to the lintel, by the lintel itself to
itself. -/
def stepTimeout (uid : Nat) (s : State) : State :=
  match s.getColl uid with
  | none => s
  | some c =>
    if c.finished then s
    else forEach (collAwaits s c) (fun r s => if s.fab.isLintel then peerLost s.fab.rank r s else sendMsg s.fab.lintel [13, r] s) (collTimeout uid s)

/-- STEP_TIMEOUT (10 R401): that the step's time with its extension (`Coll.limit`) has run out is the sender's (log 3). -/
def execStepTimeout (uid : Nat) (s : State) : Host.Outcome State Fault Refusal := .next (pumpAll (stepTimeout uid s))

/-! Formation. -/

/-- A formation fails at this member (10 R380): FAB_JOIN completes PEER_LOST and the device belongs to no group. -/
def joinFails (s : State) : State := if s.fab.wait = .joining then leaveGroup (fabAnswer (Res.stat stPeerLost) s) else s

/-- Casements that move experts at the lintel (10 R406). -/
def placements (s : State) : List Nat :=
  s.cas.filterMap (fun e => if e.2.place.isSome && steered s e.1 then some e.1 else none)

/-- The level table as the fields of a message. -/
def levelFields (s : State) : List Nat := s.fab.levels.flatMap (fun x => [x.1, x.2])

/-- The lintel readmits a lost rank (10 R385, R386, R389, R406): within one level and one version; a lower level lowers the group's. It gives it the
placements in force. -/
def rejoin (m : AnnounceMsg) (s : State) : State :=
  let f := s.fab
  if m.group ≠ f.group || m.sizes ≠ f.sizes || !f.lost.contains m.rank then refuseJoin m.rank m.mver false s
  else if f.level + 1 < m.level || m.level + 1 < f.level || f.mver + 1 < m.mver || m.mver + 1 < f.mver then refuseJoin m.rank m.mver true s
  else
    let lv := Nat.min f.level m.level
    let mv := Nat.min f.mver m.mver
    let s : State := holdAnnounce m (s.onFab (fun f => { f with
      lost := f.lost.filter (fun r => r ≠ m.rank), mver := mv, levels := tset f.levels m.rank m.level }))
    let s : State := sendMsgV mv m.rank ([3, lv, mv, f.rank, f.planGen + 1] ++ levelFields s) s
    forEach (placements s) (givePlace m.rank) (rebuildPlans lv s)

/-- JOIN_ANNOUNCE (10 R379 steps 2 to 4, R385): the lintel acknowledges it in its version (R389). A member that is not the lintel passes it on to the lintel,
which a device that rejoins need not know (log 37). -/
def joinAnnounce (m : AnnounceMsg) (s : State) : State :=
  let f := s.fab
  if mullBusy s then s
  else if f.wait = .joining && f.rank = f.lintel then
    let s : State := sendMsgV m.mver m.rank [22] s
    if m.group ≠ f.group || m.sizes ≠ f.sizes || f.members ≤ m.rank then refuseJoin m.rank m.mver false s else tryForm (holdAnnounce m s)
  else if !f.member then s
  else if f.isLintel then rejoin m (sendMsgV m.mver m.rank [22] s)
  else if f.lintelLost then s
  else sendMsgV m.mver f.lintel (annFields 1 m) s

/-- JOIN_ANNOUNCE (10 R379). -/
def execJoinAnnounce (m : AnnounceMsg) (s : State) : Host.Outcome State Fault Refusal := .next (pumpAll (joinAnnounce m s))

/-- The next rank but one's own that a joining device tries (log 37). -/
def nextTry (s : State) : Nat :=
  let n := Nat.max 1 s.fab.members
  let c := (s.fab.candidate + 1) % n
  if c = s.fab.rank then (c + 1) % n else c

/-- The announcement is repeated to the lintel at formation and, under LMODE 0, where another may be lintel by now, to one rank after the other (10 R379
step 1, R385; log 37). -/
def announceAgain (s : State) : State :=
  let a := annFields 1 (ownAnnounce s)
  let s : State := if s.fab.rank = s.fab.lintel then s else sendMsg s.fab.lintel a s
  if s.fab.lmode = 1 then s
  else
    let c := nextTry s
    let s : State := s.onFab (fun f => { f with candidate := c })
    if c = s.fab.rank || c = s.fab.lintel then s else sendMsg c a s

/-- JOIN_ANNOUNCE_REPEAT (10 R379 step 1). -/
def execJoinAnnounceRepeat (s : State) : Host.Outcome State Fault Refusal :=
  .next (if s.fab.wait = .joining && !s.fab.announced && !mullBusy s then servePorts (announceAgain s) else s)

/-- JOIN_REFUSE (10 R379, R386): the waiting FAB_JOIN is refused. It answers a RAISE too (R388), and a TEAM beyond the 64 a group holds. -/
def joinRefuse (ver : Bool) (s : State) : State :=
  if mullBusy s then s
  else match s.fab.wait with
    | .joining => leaveGroup (fabAnswer (if ver then Res.stat stVersionUnsup else Res.skip 6) s)
    | .raising => fabAnswer (Res.stat stVersionUnsup) (answered s.fab.lintel 19 s)
    | .teaming => fabAnswer (Res.deny 3) (answered s.fab.lintel 23 s)
    | _ => s

/-- JOIN_REFUSE (10 R379). -/
def execJoinRefuse (ver : Bool) (s : State) : Host.Outcome State Fault Refusal := .next (pumpAll (joinRefuse ver s))

/-- GROUP_COMMIT (10 R379 step 5, R382). -/
def execGroupCommit (m : CommitMsg) (s : State) : Host.Outcome State Fault Refusal := .next (if mullBusy s then s else pumpAll (commitGroup m s))

/-- GROUP_ABORT (10 R380). -/
def execGroupAbort (s : State) : Host.Outcome State Fault Refusal := .next (if mullBusy s then s else pumpAll (joinFails s))

/-- FORMATION_TIMEOUT (10 R380): FORM_MS at the lintel, which tells the others, or 5 s more at a member. -/
def execFormationTimeout (s : State) : Host.Outcome State Fault Refusal :=
  .next (if s.fab.wait ≠ .joining then s
    else pumpAll (joinFails (if s.fab.rank = s.fab.lintel then sendAll [4] s else s)))

/-! The lintel's beat and its loss. -/

/-- This member's part of the beat: a TYPE 4 flit on channel 3 to those after it in the group's broadcast tree (10 R373, R375, R382). -/
def beatOn (s : State) : State :=
  match s.getPlan (handleNow s 0 3) with
  | none => s
  | some p =>
    servePorts (forEach (p.steps.filter (fun x => x.root = s.fab.lintel && x.sendTo ≠ s.fab.rank)) (fun x s =>
      sendVia none x.ports { newFlit s x.sendTo 4 3 with plan := p.handle % 4096 } s) s)

/-- LINTEL_BEAT_SEND (10 R382). -/
def execLintelBeatSend (s : State) : Host.Outcome State Fault Refusal :=
  .next (if s.fab.member && s.fab.isLintel && !mullBusy s then beatOn s else s)

/-- LINTEL_BEAT (10 R382): it is noted, and goes on along the tree. -/
def execLintelBeat (s : State) : Host.Outcome State Fault Refusal :=
  .next (if s.fab.member && !s.fab.isLintel then
      let s : State := s.onFab (fun f => { f with beatAt := s.ctr 0 })
      if mullBusy s then s else beatOn s
    else s)

/-- The lowest live rank above another (10 R382). -/
def nextLive (s : State) (r : Nat) : Option Nat := (liveRanks s).find? (fun x => decide (r < x))

/-- The member turns to a successor of the lost lintel, with its member table, step reports and placement state (10 R382). -/
def turnTo (r : Option Nat) (s : State) : State :=
  match r with
  | none => s
  | some c =>
    let s : State := (answered s.fab.candidate 6 s).onFab (fun f => { f with candidate := c, announced := false })
    if c = s.fab.rank then s else sendAsk c (annFields 6 (ownAnnounce s)) s

/-- What the announcements and this member say of a casement's move: whether any staged it, and a FROM_STEP of one that is READY. -/
def moveSaid (s : State) (k : Nat) : Bool × Option Nat :=
  let l := (s.fab.anns ++ [ownAnnounce s]).flatMap (fun a => a.staged.filter (fun x => x.1 = k))
  (!l.isEmpty, (l.find? (fun x => x.2.2)).map (fun x => x.2.1))

/-- The new lintel goes through the moves (10 R406): one that is READY at any member is committed again, any other is aborted. -/
def resumeMove (k : Nat) (s : State) : State :=
  match moveSaid s k with
  | (_, some frm) =>
    let ep := match (s.casAt k).place with | some p => p.epoch | none => 0
    tryRelease k (commitPlace k frm ((sendAll [14, k, frm] s).onFab (fun f => { f with commits := tset f.commits k (frm, ep) })))
  | (said, none) => if said || steered s k then abortPlace k (sendAll [15, k] s) else s

/-- A successor that holds the announcement of every live member becomes lintel (10 R382): level, plans and handles stay. A rank that any
member table shows lost is lost. -/
def trySucceed (s : State) : State :=
  let f := s.fab
  let waits := (liveRanks s).filter (fun r => r ≠ f.rank && r ≠ f.lintel)
  if !f.member || !f.lintelLost || f.lmode ≠ 0 || f.candidate ≠ f.rank || !waits.all (fun r => f.anns.any (fun a => a.rank = r)) then s
  else
    let got := f.anns.filter (fun a => waits.contains a.rank)
    let lost := dedupN (f.lost ++ (List.range f.members).filter (fun r => got.any (fun a => !a.live.contains r)))
    let reps := got.foldl (fun l a => l.filter (fun x => !(a.reports.any (fun y => y.1 = x.1 && y.2.1 = x.2.1))) ++ a.reports) f.stepReps
    let s : State := lintelChange f.rank s
    let s : State := s.onFab (fun f => { f with
      isLintel := true, lintel := f.rank, lintelLost := false, lost := lost, stepReps := reps, beatAt := s.ctr 0, reports := [], staged := [], commits := [], giving := [],
      levels := (got.map (fun a => (a.rank, a.level)) ++ [(f.rank, s.dev.compatLevel)]).foldl (fun t x => tset t x.1 x.2) f.levels })
    let s : State := sendAll ([3, f.level, f.mver, f.rank, f.planGen] ++ levelFields s) s
    let s : State := forEach (List.range 16) resumeMove s
    s.onFab (fun f => { f with anns := holdOwn (ownAnnounce s) f.anns })
where
  holdOwn (m : AnnounceMsg) (l : List AnnounceMsg) : List AnnounceMsg := l.filter (fun a => a.rank ≠ m.rank) ++ [m]

/-- LINTEL_LOST (10 R382): no beat for 1 s. Under LMODE 1 the group runs on, and RAISE and TEAM that wait end PEER_LOST. -/
def lintelLost (s : State) : State :=
  let f := s.fab
  if !f.member || f.isLintel || f.lintelLost || mullBusy s then s
  else
    let s : State := s.onFab (fun f => { f with lintelLost := true, anns := [], candidate := f.lintel })
    if f.lmode = 1 then (if f.wait = .raising || f.wait = .teaming then fabAnswer (Res.stat stPeerLost) s else s)
    else trySucceed (turnTo (nextLive s f.lintel) s)

/-- LINTEL_LOST (10 R382). -/
def execLintelLost (s : State) : Host.Outcome State Fault Refusal := .next (pumpAll (lintelLost s))

/-- LINTEL_ANNOUNCE_TIMEOUT (10 R382): one rank up after 1 s without an acknowledgement. -/
def execLintelAnnounceTimeout (s : State) : Host.Outcome State Fault Refusal :=
  .next (
    let f := s.fab
    if f.member && f.lintelLost && f.lmode = 0 && f.candidate ≠ f.rank && !f.announced && !mullBusy s then
      pumpAll (trySucceed (turnTo (nextLive s f.candidate) s)) else s)

/-- LOST_LINTEL_ANNOUNCEMENT (10 R382): accepted only by a rank that has itself declared the lintel lost. -/
def execLostLintelAnnouncement (m : AnnounceMsg) (s : State) : Host.Outcome State Fault Refusal :=
  .next (if s.fab.member && s.fab.lintelLost && s.fab.lmode = 0 && !mullBusy s then pumpAll (trySucceed (holdAnnounce m (sendMsgV m.mver m.rank [22] s))) else s)

/-! Loss and leaving. -/

/-- PEER_LOST_REPORT (10 R383). -/
def execPeerLostReport (src lost : Nat) (s : State) : Host.Outcome State Fault Refusal := .next (pumpAll (peerLost src lost s))

/-- MEMBER_LOST (10 R383). -/
def execMemberLost (rank : Nat) (s : State) : Host.Outcome State Fault Refusal :=
  .next (if s.fab.member && !mullBusy s then memberLost rank s else s)

/-- LEAVE at the lintel (10 R383, R384). -/
def execLeave (rank : Nat) (s : State) : Host.Outcome State Fault Refusal :=
  .next (if s.fab.member && s.fab.isLintel && !mullBusy s then pumpAll (declareLost rank (sendMsg rank [8] s)) else s)

/-- LEAVE_ACKNOWLEDGED (10 R384). -/
def execLeaveAcknowledged (s : State) : Host.Outcome State Fault Refusal :=
  .next (if s.fab.wait = .leaving && !mullBusy s then pumpAll (leaveGroup (fabAnswer (Res.ok 0) s)) else s)

/-- RAISE_REQUEST at the lintel (10 R388). -/
def execRaiseRequest (src level : Nat) (s : State) : Host.Outcome State Fault Refusal :=
  .next (if !s.fab.member || !s.fab.isLintel || mullBusy s then s
    else pumpAll (if mayRaise s level then rebuildPlans level s else sendMsg src [2, 1] s))

/-- PLAN_PUBLISH (10 R391). -/
def execPlanPublish (m : CommitMsg) (s : State) : Host.Outcome State Fault Refusal := .next (if mullBusy s then s else pumpAll (takePlans m s))

/-- PLAN_GRACE_EXPIRY (10 R391): 10 s after PLAN_PUBLISH. -/
def execPlanGraceExpiry (gen : Nat) (s : State) : Host.Outcome State Fault Refusal := .next (pumpAll (endGrace gen s))

/-- MANAGEMENT_MESSAGE_REPEAT (10 R382). -/
def execManagementMessageRepeat (i : Nat) (s : State) : Host.Outcome State Fault Refusal :=
  .next (match s.fab.repeats[i]? with | some m => servePorts (sendMsg m.1 m.2 s) | none => s)

/-! Expert moves (10 R405, R406). -/

/-- A casement's Keeper and the Mullion processors answer. -/
def moveReady (s : State) (k : Nat) : Bool := !mullBusy s && !procDown s (4 + homeLeaf s k)

/-- PLACE_STAGE (10 R405 steps 1 and 2). -/
def execPlaceStage (m : PlaceMsg) (s : State) : Host.Outcome State Fault Refusal := .next (if moveReady s m.cas then pumpAll (takeStage m s) else s)

/-- PLACE_STAGED at the lintel (10 R405 steps 3 and 4). -/
def execPlaceStaged (rank cas cur : Nat) (s : State) : Host.Outcome State Fault Refusal := .next (if moveReady s cas then servePorts (gotStaged rank cas cur s) else s)

/-- PLACE_STAGED_TIMEOUT (10 R406): 10 s after PLACE_STAGE. -/
def execPlaceStagedTimeout (cas : Nat) (s : State) : Host.Outcome State Fault Refusal := .next (if moveReady s cas then servePorts (stageTimeout cas s) else s)

/-- PLACE_COMMIT (10 R405 step 5). -/
def execPlaceCommit (cas fromStep : Nat) (s : State) : Host.Outcome State Fault Refusal := .next (if moveReady s cas then commitPlace cas fromStep s else s)

/-- PLACE_ABORT (10 R406). -/
def execPlaceAbort (cas : Nat) (s : State) : Host.Outcome State Fault Refusal := .next (if moveReady s cas then abortPlace cas s else s)

/-- PLACE_RELEASE (10 R405 step 8). -/
def execPlaceRelease (cas : Nat) (s : State) : Host.Outcome State Fault Refusal := .next (if moveReady s cas then releasePlace cas s else s)

/-- STEP_REPORT (10 R405 step 6, 14 R518): the last step completed, its epoch, and the module's want. -/
def execStepReport (cas : Nat) (s : State) : Host.Outcome State Fault Refusal :=
  .next (match (s.casAt cas).place with
    | some p =>
      if steered s cas && moveReady s cas then
        servePorts (toLintel [16, cas, p.lastDone.1, p.lastDone.2, s.lvr.want] (gotReport s.fab.rank cas p.lastDone.1 p.lastDone.2 s.lvr.want) s)
      else s
    | none => s)

/-- LINTEL_STEP_REPORT (10 R405 steps 6 and 7). -/
def execLintelStepReport (rank cas step epoch want : Nat) (s : State) : Host.Outcome State Fault Refusal :=
  .next (if moveReady s cas then servePorts (gotReport rank cas step epoch want s) else s)

/-! Power shares (14 R518). -/

/-- Some casement is in fabric-steered service. -/
def fabricSteered (s : State) : Bool := s.fab.member && s.cas.any (fun e => e.2.svc.mode = 2)

/-- POWER_SHARE (14 R516, R518): it applies at the next control step. -/
def execPowerShare (watts : Nat) (s : State) : Host.Outcome State Fault Refusal :=
  .next (if fabricSteered s && !mullBusy s then s.onLvr (fun l => { l with shareNext := some watts }) else s)

/-- The division of the group's budget by wants: shares below 600 W are fixed there, then shares above 1,100 W (log 41). -/
def splitBudget : Nat → List (Nat × Rat) → Rat → List (Nat × Nat) → List (Nat × Nat)
  | 0, _, _, done => done
  | n + 1, open_, rest, done =>
    let w := open_.foldl (fun a x => a + x.2) 0
    let share := fun (x : Nat × Rat) => if w = 0 then rest / open_.length else rest * x.2 / w
    let low := open_.filter (fun x => decide (share x < 600))
    let high := open_.filter (fun x => decide (1100 < share x))
    if !low.isEmpty then
      splitBudget n (open_.filter (fun x => decide (600 ≤ share x))) (rest - 600 * low.length) (done ++ low.map (fun x => (x.1, 600)))
    else if !high.isEmpty then
      splitBudget n (open_.filter (fun x => decide (share x ≤ 1100))) (rest - 1100 * high.length) (done ++ high.map (fun x => (x.1, 1100)))
    else done ++ open_.map (fun x => (x.1, (share x).floor.toNat))

/-- POWER_SHARE_SEND (14 R518): in proportion to the members' wants. -/
def powerShareSend (s : State) : State :=
  match s.fab.budget with
  | none => s
  | some b =>
    if !s.fab.isLintel || !fabricSteered s || mullBusy s then s
    else
      let l := (liveRanks s).map (fun r => (r, if r = s.fab.rank then ((s.lvr.want : Nat) : Rat) else ((tgetD s.fab.wants r 0 : Nat) : Rat)))
      forEach (splitBudget (l.length + 1) l b []) (fun x s =>
        if x.1 = s.fab.rank then s.onLvr (fun l => { l with shareNext := some x.2 }) else sendMsg x.1 [18, x.2] s) s

/-- POWER_SHARE_SEND (14 R518). -/
def execPowerShareSend (s : State) : Host.Outcome State Fault Refusal := .next (servePorts (powerShareSend s))

end Sys2Proof.Machine
end

