-- ==== Sys2Proof/Machine/Serving.lean ====
section
/-! DEFINITION. Keeper-tracked service (12 R444-R458), parking and restoring pages (09 R357-R360), the far directory and the far ports (09
R353-R361), and the start of full service (15 R548). -/

namespace Sys2Proof.Machine

/-! Sampling. -/

/-- The splitmix64 output function applied to one state (12 R453 names it; its constants are the usual ones: PRESUMED, log 42). -/
def splitmix64 (x : Word) : Word :=
  let z := x + 0x9E3779B97F4A7C15
  let z := (z ^^^ (z >>> 30)) * 0xBF58476D1CE4E5B9
  let z := (z ^^^ (z >>> 27)) * 0x94D049BB133111EB
  z ^^^ (z >>> 31)

/-- Running sums in FP32, from the left (log 42). -/
def runningSums : BitVec 32 → List (BitVec 32) → List (BitVec 32)
  | _, [] => []
  | a, x :: r => add32 a x :: runningSums (add32 a x) r

/-- a ≥ b; false where either is NaN. -/
def ge32 (a b : BitVec 32) : Bool := !(v32 a).isNan && !(v32 b).isNan && !Val.lt (v32 a) (v32 b)

/-- The token of a row from its candidates (12 R453), `n` tokens having been generated; none where no prefix or entry meets its condition
(a NaN): the spec states no token there. -/
def sampleToken (r : Req) (n : Nat) (c : List (Nat × BitVec 32)) : Option Nat :=
  let c0 := nth c 0 (0, 0)
  if (v32 r.temp).isZero then some c0.1
  else
    let w := (c.take r.topK).map (fun x => sExp (div32 (sub32 x.2 c0.2) r.temp))
    let rs := runningSums f32Zero w
    let total := nth rs (rs.length - 1) f32Zero
    match (List.range rs.length).find? (fun i => ge32 (nth rs i f32Zero) (mul32 r.topP total)) with
    | none => none
    | some m =>
      let u := r32 (.fin false ((splitmix64 (r.seed ^^^ BitVec.ofNat 64 n)) >>> 40).toNat (2 ^ 24))
      ((List.range (m + 1)).find? (fun i => ge32 (nth rs i f32Zero) (mul32 u (nth rs m f32Zero)))).map (fun i => (nth c i (0, 0)).1)

/-- Candidates in the layout of 12 R445. -/
def candidates (k : Nat) (bs : List Byte) : List (Nat × BitVec 32) :=
  (List.range k).map (fun i => (le bs (8 * i) 4, BitVec.ofNat 32 (le bs (8 * i + 4) 4)))

/-! The end of a request. -/

/-- Parks a request's sequences under ON_END = 1, with PARK_KEY + i for sequence i (12 Table 12.4). -/
def parkReq (id : Nat) (r : Req) (s : State) : State :=
  let keys := r.named.map (fun q => (q, match s.getSeq q with | some x => x.lastKey | none => 0))
  let s : State := startPark keys r.ttl (homeLeaf s r.cas) 0 0 (some id) s
  if s.job.any (fun j => j.2.req = some id) then s else finishReq id s

/-- A request ends with an outcome (12 R451-R454): ON_END is carried out, or, for an expired one without KEEP, its sequences are closed. -/
def endReq (st cause id : Nat) (t : Word) (s : State) : State :=
  match s.getReq id with
  | none => s
  | some r =>
    let s : State := s.updReq id (fun x => { x with status := st, cause := cause, endTime := t, st := .ending })
    let act := if st = stOK || r.keep then r.onEnd else 2
    if act = 1 then parkReq id r s
    else if act = 2 then
      let deps := startedUids s (some r.ctx)
      forEach r.named (fun q s => closeSeq q deps s) (finishReq id s)
    else finishReq id s

/-- The deadline lies before t. -/
def late (r : Req) (t : Word) : Bool := match r.deadline with | some d => decide (d < t.toNat) | none => false

/-! A step boundary. -/

/-- A sampled token (12 R453, R454): it is kept, written at once with STREAM, and may end the request. -/
def takeToken (id tok : Nat) (t : Word) (s : State) : State :=
  match s.getReq id with
  | none => s
  | some r =>
    let n := r.toks.length
    let first := match r.firstUs with | some u => some u | none => some ((t - r.accept).toNat / 1050)
    let s : State := s.updReq id (fun x => { x with st := .decode, toks := x.toks ++ [tok], firstUs := first, endTime := t })
    let s : State := if r.stream then
        let s : State := vaPut r.ctx (r.outAddr + 4 * n) (toLE tok 4) s
        match s.getReq id with | some y => vaPut r.ctx r.recAddr (reqRecord s id y false) s | none => s
      else s
    if r.stops.contains tok && tok ≠ 0xFFFFFFFF then endReq stOK 1 id t s
    else if r.maxTok ≤ n + 1 then endReq stOK 0 id t s
    else s

/-- Samples a row from the candidates the step wrote; a request whose candidates cannot be read ends DISCARDED with CAUSE 5 (log 43). -/
def sampleRow (c id a k : Nat) (t : Word) (s : State) : State :=
  match s.getReq id, vaRead c 0 a (8 * k) s with
  | some r, (s, .ok bs) =>
    (match sampleToken r r.toks.length (candidates k bs) with
     | some tok => takeToken id tok t s
     | none => let (m, s) := State.fresh s; takeToken id ((Config.freeWord m 0).toNat % 2 ^ 32) t s)
  | some _, (s, _) => discardReq 5 id s
  | none, _ => s

/-- One row of a step that completed OK (12 R446): a cancelled request is discarded, an expired one ends, any other is committed and, where the
row samples, sampled. `ca` is the row's candidate area. -/
def rowDone (c k : Nat) (t : Word) (ca : Nat) (row : Nat × Nat × Nat × Bool × Bool) (s : State) : State :=
  let (id, pos, n, pre, smp) := row
  match s.getReq id with
  | none => s
  | some r =>
    if r.st = .ended || r.st = .ending then s
    else if r.cancel.isSome then discardReq 4 id s
    else if late r t then endReq stExpired 2 id t s
    else
      let s : State := forEach r.named (fun q s => (seqCommitDo q (pos + n) 0 s).2) s
      let done := if pre then r.taken + n else r.taken
      let s : State := s.updReq id (fun x => { x with taken := done, endTime := t })
      if smp then sampleRow c id ca k t s
      else if pre && r.promptLen ≤ done then endReq stOK 0 id t s
      else s

/-- Requests of a serving context, oldest acceptance first. -/
def liveIn (s : State) (k c : Nat) (p : RState → Bool) : List Nat := liveReqs s (fun r => r.cas = k && r.ctx = c && p r.st)

/-- Bytes before the step tables in the work area (12 Table 12.2). -/
def workHead (v : Svc) : Nat := v.work + 65536 + v.maxReq * 256

/-- The step table of a step, and the candidate area (where in the work area they stand is the model's choice: log 42). -/
def stepTable (v : Svc) (n : Nat) : Nat := workHead v + n % 2 * (64 + v.maxBatch * 32)
def candArea (v : Svc) : Nat := workHead v + 2 * (64 + v.maxBatch * 32)

/-- The rows of the step in hand are taken up (12 R446, R458): after a stop each request with a row is discarded; a step that was preempted, or
not run, commits nothing. -/
def stepDone (k c : Nat) (v : Svc) (st : Nat) (t : Word) (s : State) : State :=
  if st = stOK then
    let s : State := forEach (List.range v.rows.length) (fun i s =>
      rowDone c v.sampleK t (candArea v + i * (v.sampleK * 8)) (nth v.rows i (0, 0, 0, false, false)) s) s
    match (s.casAt k).place with
    | some p =>
      let pr := placeRec p s
      s.modCas k (fun y => { y with place := some { p with lastDone := (pr.1, pr.2.1) } })
    | none => s
  else if kindOf st = .stop || kindOf st = .discard then forEach v.rows (fun r s => discardReq 5 r.1 s) s
  else s

/-- A RESUMING request whose restore has ended (12 R457, R463): it ends EXPIRED, or waits for its place. -/
def resumed (id : Nat) (t : Word) (s : State) : State :=
  match s.getReq id with
  | none => s
  | some r =>
    if s.job.any (fun j => j.2.req = some id) then s
    else if r.cause = 3 then endReq stExpired 3 id t s
    else if late r t then endReq stExpired 2 id t s
    else s.updReq id (fun x => { x with st := .queued })

/-- The reservations of an admission, one SEQ_COMMIT a sequence; whether all were granted. -/
def reserveReq (r : Req) (s : State) : Bool × State :=
  r.named.foldl (fun (a : Bool × State) q =>
    match a.2.getSeq q with
    | none => (false, a.2)
    | some x => let z := seqCommitDo q x.c (r.promptLen + r.maxTok) a.2; (a.1 && decide (z.1.st = stOK), z.2)) (true, s)

/-- Parks the idle sequence of a context that was used least recently (12 R447). -/
def autopark (k c ttl : Nat) (s : State) : State :=
  let idle := s.seq.filter (fun e => e.2.ctx = c && e.2.held.isNone && e.2.closing.isNone
    && (pagesOf s e.1).any (fun p => p.2.st = .resident && p.2.freeing.isNone) && !s.job.any (fun j => j.2.park && j.2.keys.any (fun y => y.1 = e.1)))
  match sortBy (fun e : Nat × Seq => e.2.lastUse) idle with
  | [] => s
  | (q, x) :: _ => startPark [(q, x.lastKey)] ttl (homeLeaf s k) 0 0 none s

/-- Admission of one QUEUED request (12 R447). -/
def admitReq (k c : Nat) (v : Svc) (id : Nat) (s : State) : State :=
  match s.getReq id with
  | none => s
  | some r =>
    if r.named.any (fun q => (pagesOf s q).any (fun p => p.2.st = .parked || p.2.st = .expired)) then
      startRestore r.named (homeLeaf s k) 0 0 (some id) (s.updReq id (fun x => { x with st := .resuming }))
    else
      let (ok, s) := reserveReq r s
      if ok then s.updReq id (fun x => { x with st := .prefill })
      else if v.autopark && s.dev.compatLevel = 2 then autopark k c v.autoTtl s
      else s

/-- The rows of the next step (12 R448): request, POS, NTOK, prefill, SAMPLE. -/
def buildRows (s : State) (k c : Nat) (v : Svc) : List (Nat × Nat × Nat × Bool × Bool) :=
  let pre := sortBy (fun id => match s.getReq id with | some r => r.deadline.getD (2 ^ 80) | none => 2 ^ 80) (liveIn s k c (fun x => x = .prefill))
  let row := fun (id : Nat) =>
    match s.getReq id with
    | none => (id, 0, 0, true, false)
    | some r => let n := Nat.min v.chunk (r.promptLen - r.taken); (id, reqC s r, n, true, decide (r.promptLen ≤ r.taken + n) && decide (0 < r.maxTok))
  let dec := (liveIn s k c (fun x => x = .decode)).map (fun id => (id, (match s.getReq id with | some r => reqC s r | none => 0), 1, false, true))
  ((pre.take 1).map row ++ dec).take v.maxBatch

/-- The clusters of a casement that are there, as a context numbers them, ascending (11 R419). -/
def stepClusters (s : State) (k c : Nat) : List Nat :=
  let m := match s.getCtx c with | some x => x.cmap | none => []
  sortBy id ((liveClusters s k).map (fun p => match m.find? (fun e => e.2 = p) with | some e => e.1 | none => p))

/-- The step table (12 Table 12.3). `n` is the step number. -/
def tableBytes (s : State) (v : Svc) (n : Nat) (rows : List (Nat × Nat × Nat × Bool × Bool)) : List Byte :=
  let pre := match (List.range rows.length).find? (fun i => (nth rows i (0, 0, 0, false, false)).2.2.2.1) with | some i => i | none => 0xFFFFFFFF
  padTo 64 (toLE n 8 ++ toLE rows.length 4 ++ toLE pre 4)
  ++ (List.range rows.length).flatMap (fun i =>
    let (id, pos, nt, p, smp) := nth rows i (0, 0, 0, false, false)
    match s.getReq id with
    | none => zeros 32
    | some r =>
      toLE id 4 ++ (List.range 4).flatMap (fun j => toLE (nth r.seqs j 0xFFFF) 2) ++ toLE pos 4 ++ toLE nt 4
      ++ toLE (if p then r.prompt + 4 * r.taken else v.work + n % 2 * 16384 + 4 * i) 8 ++ toLE (b2n p + b2n smp * 2) 1 ++ zeros 3)

/-- The step in hand starts (12 R444): tables and input tokens are written to the work area, and STEP_PROG is run on every cluster of the
casement. A program or cluster that is not there leaves the step unbuilt. -/
def startStep (k c : Nat) (v : Svc) (rows : List (Nat × Nat × Nat × Bool × Bool)) (s : State) : State :=
  let cls := stepClusters s k c
  match (if v.prog = 0 || 256 < v.prog then none else s.getProg (c * 512 + v.prog)), tfree s.run 1 (s.run.length + 1) with
  | some x, some r =>
    if cls.isEmpty || x.words.length ≤ nth x.entry v.entry 0 then s
    else
      let n := v.step
      let s : State := forEach (List.range rows.length) (fun i s =>
        let (id, _, _, p, _) := nth rows i (0, 0, 0, false, false)
        match s.getReq id with
        | some y => if p then s else vaPut c (v.work + n % 2 * 16384 + 4 * i) (toLE (nth y.toks (y.toks.length - 1) 0) 4) s
        | none => s) s
      let s : State := vaPut c (stepTable v n) (tableBytes s v n rows) s
      let s : State := forEach rows (fun row s => s.updReq row.1 (fun y => { y with steps := y.steps + 1 })) s
      let (u, s) := State.newUid s
      let run : Run :=
        { ctx := c, q := ctxQ c 0, uid := 0, prog := v.prog, entryPc := nth x.entry v.entry 0, clusters := cls, skipLimit := 0, stopIndex := 0,
          dumpAddr := 0, dumpLen := 0,
          args := [BitVec.ofNat 64 (stepTable v n), BitVec.ofNat 64 (candArea v), BitVec.ofNat 64 n], noSave := false, release := false, skips := 0,
          added := 0, st := .waiting, order := u, heldSince := 0, stop := none, tag := 0, keeper := some k, migHold := false, watch := false,
          wrote := [] }
      let s : State := s.modCas k (fun y => { y with svc := { y.svc with step := n + 1, rows := rows, run := some r } })
      arbitrate (s.putRun r run)
  | _, _ => s

/-- The work of a boundary (12 R446), in its order. -/
def boundary (k c : Nat) (s : State) : State :=
  let v := (s.casAt k).svc
  let t := s.ctr (homeLeaf s k)
  let s : State := match v.result with | some st => stepDone k c v st t s | none => s
  let s : State := s.modCas k (fun y => { y with svc := { y.svc with rows := [], run := none, result := none } })
  let cancelled := liveReqs s (fun r => r.cas = k && r.ctx = c && r.cancel.isSome && r.st ≠ .ending)
  let s : State := forEach cancelled (discardReq 4) s
  let s : State := forEach (liveIn s k c (fun x => x = .queued)) (fun id s =>
    match s.getReq id with | some r => if late r t then endReq stExpired 2 id t s else s | none => s) s
  let s : State := forEach (liveIn s k c (fun x => x = .resuming)) (fun id s => resumed id t s) s
  let s : State := forEach (liveIn s k c (fun x => x = .queued)) (fun id s => admitReq k c v id s) s
  let rows := buildRows s k c v
  if s.therm.trip || (rows.isEmpty && v.team = 0xFFFF) then s else startStep k c v rows s

/-- STEP_BOUNDARY (12 R446): the step's run has completed, or none is in hand. -/
def execStepBoundary (cas : Nat) (s : State) : Host.Outcome State Fault Refusal :=
  .next (
    let v := (s.casAt cas).svc
    match v.ctx with
    | some c =>
      if v.mode ≠ 0 && v.run.isNone && !procDown s (4 + homeLeaf s cas) then pumpAll (boundary cas c s) else s
    | none => s)

/-! Park jobs and restores. -/

/-- A job works: it is one of the first four of its leaf (09 R357), and the Keeper runs. -/
def jobRuns (s : State) (j : Nat) (x : Job) : Bool :=
  !procDown s (4 + x.leaf) && !s.dev.inReset && ((tkeys (tfilter (fun _ y => y.leaf = x.leaf) s.job)).take 4).contains j

/-- A job has ended: its command completes, or its request goes on (12 R461-R463). -/
def jobEnd (j : Nat) (expired : Bool) (s : State) : State :=
  match s.getJob j with
  | none => s
  | some x =>
    let s : State := s.delJob j
    match x.req with
    | none => completeEntry x.q x.uid (if expired then { st := stExpired, det := 0, res := x.moved } else Res.ok x.moved) 0 s
    | some id =>
      match s.getReq id with
      | none => s
      | some r =>
        if r.st = .ended then s
        else
          let s : State := s.updReq id (fun y => { y with pages := x.moved, cause := if expired then 3 else y.cause })
          if x.park then finishReq id s else s

/-- The job goes on to its next page. -/
def jobNext (j : Nat) (done : Bool) (s : State) : State :=
  let s : State := s.updJob j (fun x => { x with pages := x.pages.drop 1, phase := 0, unit := 0, moved := x.moved + b2n done })
  match s.getJob j with
  | some x => if x.pages.isEmpty then jobEnd j false s else s
  | none => s

def jobPhase (j n : Nat) (s : State) : State := s.updJob j (fun x => { x with phase := n })

/-- A record is written with a MARK (13 Table 13.14 PARK_PAGE). -/
def markTrace (leaf i mark : Nat) (s : State) : State := trace (4 + leaf) 0x4003 0 (BitVec.ofNat 64 i) (BitVec.ofNat 64 mark) s

/-- EXPIRY of a page whose time to live starts at a counter value (09 R360). -/
def expiryOf (now : Word) (ttl : Nat) : Nat := if ttl = 0 then 2 ^ 40 - 1 else (now.toNat + ttl * 1050000 + (2 ^ 20 - 1)) / 2 ^ 20

/-- An EXPIRY that the counter has reached. -/
def expiryDue (now : Word) (e : Nat) : Bool := e ≠ 2 ^ 40 - 1 && decide (e * 2 ^ 20 ≤ now.toNat)

/-- The record of a page that is to be parked (09 Table 9.8). -/
def parkRec (leaf units : Nat) (key : Word) (ttl : Nat) (p : Page) : FRec :=
  { mark := .copying, crcOk := true, key := key, ttl := ttl, expiry := 0, farloc := units, sref := p.sref, len := p.len / 4096, kfmt := p.kfmt,
    vfmt := p.vfmt, sfmt := p.sfmt, g := p.g, size := p.size, ctx := p.ctx, seq := p.seq, layer := p.layer, slot := p.slot, leaf := leaf }

/-- The far port that holds directory record i is up. -/
def recUp (s : State) (i : Nat) : Bool := s.far.up.getLsbD (farPort s (i * 64))

/-- Step 1 of 09 R358. -/
def parkBegin (j : Nat) (x : Job) (i : Nat) (p : Page) (s : State) : State :=
  if !recUp s i then jobNext j false s
  else match freeUnits s (p.len / 4096) with
  | none => jobNext j false s
  | some u =>
    let key := match x.keys.find? (fun k => k.1 = p.seq) with | some k => k.2 | none => 0
    jobPhase j 1 (markTrace x.leaf i 1 (s.putFdir i (parkRec x.leaf u key x.ttl p)))

/-- Step 2 of 09 R358: a page that cannot be read or stored is not parked. -/
def parkCopy (j : Nat) (x : Job) (i : Nat) (p : Page) (d : FRec) (s : State) : State :=
  let failed := fun (s : State) => jobNext j false (markTrace x.leaf i 0 (s.delFdir i))
  match stRead 7 (stAddr p.stack p.bset p.off) p.len s with
  | (s, none) => failed s
  | (s, some bs) => match farWrite (d.farloc * 4096) bs s with
    | (s, true) => jobPhase j 2 s
    | (s, false) => failed s

/-- Step 4 of 09 R358. -/
def parkMove (j i : Nat) (p : Page) (d : FRec) (s : State) : State :=
  let s : State := giveUp false (BitVec.twoPow 12 p.stack) (BitVec.twoPow 64 p.bset) p.off p.len [] s
  let s : State := s.updPage i (fun y => { y with st := .parked, farloc := d.farloc, expiry := d.expiry })
  jobNext j true (writePte p.seq p.layer p.slot s)

/-- One step of parking the page in hand (09 R358). -/
def parkStep (j : Nat) (x : Job) (s : State) : State :=
  match x.pages with
  | [] => jobEnd j false s
  | i :: _ =>
    match s.getPage i with
    | none => jobNext j false s
    | some p =>
      if p.st ≠ .resident || p.freeing.isSome then jobNext j false s
      else match s.getFdir i with
        | none => parkBegin j x i p s
        | some d =>
          if x.phase = 1 then parkCopy j x i p d s
          else if x.phase = 2 then
            if !recUp s i then jobNext j false (s.delFdir i)
            else jobPhase j 3 (markTrace x.leaf i 2 (s.putFdir i { d with mark := .complete, expiry := expiryOf (s.ctr x.leaf) x.ttl }))
          else if x.phase = 3 then parkMove j i p d s
          else parkBegin j x i p s

/-- PARK_STEP (09 R358). -/
def execParkStep (j : Nat) (s : State) : Host.Outcome State Fault Refusal :=
  .next (match s.getJob j with
    | some x => if x.park && jobRuns s j x && !ajar s then pumpAll (attempt x.uid (parkStep j x) s) else s
    | none => s)

/-- Steps 1 and 2 of 09 R359: a page whose EXPIRY is reached ends the restore; one that finds no place or reads poison stays PARKED. -/
def restoreBegin (j : Nat) (x : Job) (i : Nat) (p : Page) (s : State) : State :=
  if p.st = .expired || expiryDue (s.ctr x.leaf) p.expiry then jobEnd j true s
  else match s.getFdir i with
    | none => jobNext j false s
    | some d => if p.st ≠ .parked || !recUp s i then jobNext j false s else jobPhase j 1 (markTrace x.leaf i 3 (s.putFdir i { d with mark := .restoring }))

def restoreCopy (j : Nat) (x : Job) (i : Nat) (p : Page) (d : FRec) (s : State) : State :=
  let failed := fun (s : State) => jobNext j false (markTrace x.leaf i 2 (s.putFdir i { d with mark := .complete }))
  match s.getSeq p.seq with
  | none => failed s
  | some q =>
    match choosePlace s p.seq q p.layer with
    | none => failed s
    | some pl => match farRead 7 (d.farloc * 4096) p.len s with
      | (s, none) => failed s
      | (s, some bs) =>
        let a := stAddr pl.t pl.b pl.off
        jobPhase j 2 ((drainOwned x.uid (stWrite x.uid a bs s)).updJob j (fun y => { y with unit := a }))

/-- One step of restoring the page in hand (09 R359). -/
def restoreStep (j : Nat) (x : Job) (s : State) : State :=
  match x.pages with
  | [] => jobEnd j false s
  | i :: _ =>
    match s.getPage i with
    | none => jobNext j false s
    | some p =>
      match x.phase, s.getFdir i with
      | 1, some d => restoreCopy j x i p d s
      | 2, _ =>
        let s : State := s.updPage i (fun y => { y with st := .resident, stack := saStack x.unit, bset := saBank x.unit, off := saOff x.unit,
                                                        expiry := 0, farloc := 0 })
        jobPhase j 3 (writePte p.seq p.layer p.slot s)
      | 3, _ => jobNext j true (markTrace x.leaf i 0 (s.delFdir i))
      | _, _ => restoreBegin j x i p s

/-- RESTORE_STEP (09 R359). -/
def execRestoreStep (j : Nat) (s : State) : Host.Outcome State Fault Refusal :=
  .next (match s.getJob j with
    | some x => if !x.park && jobRuns s j x then pumpAll (attempt x.uid (restoreStep j x) s) else s
    | none => s)

/-! Time to live and recovery. -/

/-- One page of a sweep (09 R360, 06 R230): it becomes EXPIRED, or FREE where it is an orphan. -/
def expirePage (i : Nat) (s : State) : State :=
  match s.getPage i with
  | none => s
  | some p =>
    let s : State := if recUp s i then s.delFdir i else s
    if p.orphan then s.delPage i else writePte p.seq p.layer p.slot (s.updPage i (fun y => { y with st := .expired }))

/-- TTL_SWEEP (09 R360): a page whose restore is in hand is left to it. -/
def execTtlSweep (leaf : Nat) (s : State) : Host.Outcome State Fault Refusal :=
  .next (
    if procDown s (4 + leaf) || s.dev.inReset then s
    else
      let due := s.page.filter (fun e => e.2.st = .parked && e.2.freeing.isNone && expiryDue (s.ctr leaf) e.2.expiry
        && (match s.getFdir e.1 with | some d => d.leaf = leaf && d.mark ≠ .restoring | none => false))
      pumpAll (forEach (due.map (fun e => e.1)) expirePage s))

/-- The page map entry that a directory record gives (09 R361). An entry that survived stays what it is to its sequence; without one, the sequence is
gone and the entry is an orphan (15 R534). -/
def pageOfRec (s : State) (i : Nat) (d : FRec) (expiry : Nat) : Page :=
  { ctx := d.ctx, seq := d.seq, layer := d.layer, slot := d.slot, expiry := expiry, farloc := d.farloc, sref := d.sref, kfmt := d.kfmt, vfmt := d.vfmt,
    sfmt := d.sfmt, g := d.g, size := d.size, st := .parked, stack := 0, bset := 0, off := 0, len := d.len * 4096,
    orphan := (match s.getPage i with | some p => p.orphan | none => true),
    freeing := (match s.getPage i with | some p => p.freeing | none => none) }

/-- The far port on which directory record i lies. -/
def recPort (s : State) (i : Nat) : Nat := farPort s (i * 64)

/-- Entry i becomes PARKED from its record; its stack space, where the reset kept it, is given up. Where the counter has restarted since the record was
written, its full time to live begins again. -/
def parkFromRec (i : Nat) (d : FRec) (s : State) : State :=
  let e := if s.dev.coldWalk.getLsbD (recPort s i) then expiryOf (s.ctr d.leaf) d.ttl else d.expiry
  let s : State := match s.getPage i with
    | some p => if p.st = .resident || p.st = .tentative then giveUp false (BitVec.twoPow 12 p.stack) (BitVec.twoPow 64 p.bset) p.off p.len [] s else s
    | none => s
  let p := pageOfRec s i d e
  let s : State := (s.putFdir i { d with mark := .complete, expiry := e }).putPage i p
  if p.orphan then s else writePte p.seq p.layer p.slot s

/-- One record of the walk (09 R361). -/
def walkRec (i : Nat) (d : FRec) (s : State) : State :=
  if !d.crcOk || d.mark = .copying then s.delFdir i
  else if d.mark = .complete then parkFromRec i d s
  else match s.getPage i with
    | some p => if p.st = .resident then s.delFdir i else parkFromRec i d s
    | none => parkFromRec i d s

/-- The directory records that a walk reads: those of a port that is up and whose records are due for it (09 R356, R361). -/
def readableRecs (s : State) : Tbl FRec := tfilter (fun i _ => recUp s i && s.dev.walkDue.getLsbD (recPort s i)) (fdir s)

/-- Whether full service may begin (15 R548). -/
def fullReady (s : State) : Bool :=
  (s.dev.stackIn ||| s.dev.stackFail) = BitVec.allOnes 12 && s.dev.mullUp = 3 && s.dev.farDone = 3 && s.dev.dirWalked && s.dev.bootLock

/-- The service state moves on (15 R545, R548, R549); a device reset then no longer runs (R529). -/
def serviceCheck (s : State) : State :=
  if s.dev.service ≠ .full && fullReady s then s.onDev (fun d => { d with service := .full, rst := false })
  else if s.dev.service = .boot && s.dev.bootLock && s.dev.stackIn.getLsbD 0 && s.dev.stackIn.getLsbD 6 then s.onDev (fun d => { d with service := .ajar, rst := false })
  else s

/-- FAR_DIRECTORY_WALK (09 R361): once both far ports are trained or down. -/
def execFarDirectoryWalk (s : State) : Host.Outcome State Fault Refusal :=
  .next (
    if procDown s 4 || s.dev.inReset || s.dev.dirWalked || s.dev.farDone ≠ 3 then s
    else
      let s : State := forEach (readableRecs s) (fun e s => walkRec e.1 e.2 s) s
      pumpAll (serviceCheck (s.onDev (fun d => { d with dirWalked := true, walkDue := 0, coldWalk := d.coldWalk &&& ~~~ (d.walkDue &&& s.far.up) }))))

/-- Speeds and widths of the subset (09 Table 9.7): 32 or 16 GT/s, ×16 or ×8. -/
def expanderOk (x : Expander) : Bool := x.trained && x.active && decide (0 < x.cap) && (x.speed = 32 || x.speed = 16) && (x.width = 16 || x.width = 8)

/-- Once both far ports are up or down the layout stands, and the far heap, which no allocation holds after a reset, is zeros (09 R354; 11 R417; 15 Table
15.5). An expander that stays down keeps its bytes. -/
def layFar (s : State) : State :=
  if s.dev.farDone ≠ 3 then s
  else
    let keep := fun (k : Nat) => (tget s.far.cap (k / 2 ^ 44)).isNone || decide (farBack s k < parkPoolLen s)
    (s.onFarMem (fun m => m.filter (fun e => keep e.1))).onFarBad (fun l => l.filter (fun x => keep (64 * x)))

/-- FAR_PORT_BRINGUP (09 R353): a port with no expander, or whose bring-up fails, stays down. -/
def execFarPortBringup (p : Nat) (x : Expander) (s : State) : Host.Outcome State Fault Refusal :=
  .next (
    if 2 ≤ p || procDown s 4 || s.dev.inReset || s.dev.farDone.getLsbD p then s
    else
      let s : State := s.onDev (fun d => { d with farDone := setBit d.farDone p true })
      let s : State := if expanderOk x && !tgetD s.pin.prsntN p true then
          s.onFar (fun f => { f with up := setBit f.up p true, cap := tset f.cap p x.cap, speed := tset f.speed p x.speed, width := tset f.width p x.width })
        else setFarDown p s
      pumpAll (serviceCheck (layFar s)))

/-- FAR_LINK_DOWN (09 R356). -/
def execFarLinkDown (p : Nat) (s : State) : Host.Outcome State Fault Refusal :=
  .next (if p < 2 && s.far.up.getLsbD p then eccIrq (setFarDown p (s.onFar (fun f => { f with up := setBit f.up p false }))) else s)

/-- FAR_LINK_UP (09 R356): the link works again, and the port's directory records are walked before any packet of class 0x06. -/
def execFarLinkUp (p : Nat) (s : State) : Host.Outcome State Fault Refusal :=
  .next (
    if p < 2 && s.dev.farDone.getLsbD p && !s.far.up.getLsbD p && decide (0 < farCap s p) && !procDown s 4 then
      let s : State := (s.onFar (fun f => { f with up := setBit f.up p true })).onEccReg (fun e => { e with farDown := setBit e.farDown p false })
      s.onDev (fun d => { d with dirWalked := false, walkDue := setBit d.walkDue p true })
    else s)

/-- EXPANDER_EVENT (09 R356; 13 Table 13.14). -/
def execExpanderEvent (p kind : Nat) (s : State) : Host.Outcome State Fault Refusal :=
  .next (if p < 2 && s.far.up.getLsbD p then trace 4 0x4005 2 (BitVec.ofNat 64 p) (BitVec.ofNat 64 kind) s else s)

/-- SELFTEST_DONE (15 R542, R543). -/
def execSelftestDone (cas : Nat) (res : List (Nat × Nat × Nat × Nat)) (s : State) : Host.Outcome State Fault Refusal :=
  .next (pumpAll (selftestDone cas res s))

end Sys2Proof.Machine
end

