-- ==== Sys2Proof/Machine/Firmware.lean ====
section
/-! DEFINITION. Mailboxes and their messages (13 R478-R483, R490-R494; 12 R441; 14 R519), the flash and images (13 R468-R477), and what the
background work of a message writes. Where a table names the fields of a body and not their places, the places are the model's (log 44). -/

namespace Sys2Proof.Machine

/-! Mailboxes. -/

/-- The number of a mailbox, and the start of its buffers. -/
def mbxNo (f p : Nat) : Nat := f * 6 + p
def mbxBase (f p : Nat) : Nat := mbxNo f p * 8192

/-- A message in a request buffer (13 Table 13.7). -/
structure Msg where
  ver   : Nat
  ty    : Nat
  proc  : Nat
  flags : Nat
  len   : Nat
  seq   : Nat
  resv  : Bool
  body  : List Byte
deriving DecidableEq, Repr

def message (s : State) (f p : Nat) : Msg :=
  let h := mread s.mbxBuf (mbxBase f p) 32
  let len := le h 4 2
  { ver := le h 0 1, ty := le h 1 1, proc := le h 2 1, flags := le h 3 1, len := len, seq := le h 6 2, resv := 2 ≤ le h 3 1 || dirty h 8 24,
    body := mread s.mbxBuf (mbxBase f p + 32) (Nat.min len 4064) }

/-- A reply: status, MDETAIL, RESULT and body. -/
structure Reply where
  st   : Nat
  det  : Nat
  res  : Nat
  body : List Byte
deriving DecidableEq, Repr

def Reply.ok (r : Nat) (b : List Byte) : Reply := { st := stOK, det := 0, res := r, body := b }
def Reply.skip (d : Nat) : Reply := { st := stSkipped, det := d, res := 0, body := [] }
def Reply.deny (d : Nat) : Reply := { st := stDenied, det := d, res := 0, body := [] }

/-- DEFERRED or BUSY with the estimate of a wait, which the spec leaves to the device (log 8). -/
def replyWait (st : Nat) (s : State) : Reply × State :=
  let (k, s) := State.fresh s
  ({ st := st, det := 0, res := Config.estimateUs k % 2 ^ 32, body := [] }, s)

/-- The reply is written, DONE is set and OUTSTANDING cleared, and the vector is sent where the message asked for it (13 R478, R480; 16 R563).
`ver` is the version it is laid out in. -/
def answer (f p : Nat) (m : Msg) (ver : Nat) (r : Reply) (s : State) : State :=
  let env := [BitVec.ofNat 8 ver, BitVec.ofNat 8 m.ty, BitVec.ofNat 8 m.proc, BitVec.ofNat 8 m.flags] ++ toLE r.body.length 2 ++ toLE m.seq 2
    ++ [BitVec.ofNat 8 r.st, BitVec.ofNat 8 r.det, BitVec.ofNat 8 (s.procAt p).ver, 0] ++ toLE r.res 4 ++ toLE (s.ctr (procLeaf p)).toNat 8 ++ zeros 8
  let s : State := s.onMbxBuf (fun b => mwrite b (mbxBase f p + 4096) (env ++ r.body.take 4064))
  let s : State := s.modMbx (mbxNo f p) (fun x => { x with outstanding := false, done := true })
  if m.flags.testBit 0 && (s.fnAt f).mbxEn then msix f (s.fnAt f).mbxVec s else s

/-- The mailbox controller's BUSY (13 R486, R488): the remaining restart time, all ones where the processor is held down. -/
def answerBusy (f p : Nat) (s : State) : State :=
  let m := message s f p
  let (r, s) := replyWait stBusy s
  answer f p m m.ver (if (s.procAt p).held then { r with res := 0xFFFFFFFF } else r) s

/-- MBX_DB_p (13 R479; 16 R563). -/
def mbxBell (f p seq : Nat) (s : State) : State :=
  let x := s.mbxAt (mbxNo f p)
  if x.outstanding then s.modMbx (mbxNo f p) (fun x => { x with err := true })
  else
    let s : State := s.modMbx (mbxNo f p) (fun x => { x with outstanding := true, done := false, seq := seq })
    if procDown s p then answerBusy f p s else s

/-- The message types a processor serves (13 Table 13.8, 14 Table 14.5). -/
def msgKnown (p ty : Nat) : Bool :=
  [0x01, 0x02].contains ty || (p = 0 && decide (0x10 ≤ ty) && decide (ty ≤ 0x17)) || (p = 1 && decide (0x20 ≤ ty) && decide (ty ≤ 0x24))
  || ((p = 2 || p = 3) && ty = 0x30) || (p = 4 && ty = 0x41) || ((p = 4 || p = 5) && (ty = 0x40 || ty = 0x42))

/-- The version of a message is accepted (13 R481). -/
def verOk (s : State) (p v : Nat) : Bool := let n := (s.procAt p).ver; v = n || v + 1 = n

/-- A message waits on the mailbox and its processor serves it. -/
def msgWaits (s : State) (f p : Nat) : Bool :=
  decide (f < 34) && decide (p < 6) && (s.mbxAt (mbxNo f p)).outstanding && !procDown s p && !s.dev.inReset

/-- Serves the message on a mailbox if it is of type `ty` (13 R474, R480-R482): in recovery, from the wrong function, with a reserved bit or a
length other than `len`, it is refused; otherwise `act` decides. -/
def serve (ty : Nat) (pf : Bool) (len : Nat) (f p : Nat) (act : Msg → State → Reply × State) (s : State) : State :=
  let m := message s f p
  if !msgWaits s f p || m.ty ≠ ty || !msgKnown p ty || !verOk s p m.ver then s
  else if s.dev.recovery && (!isPF f || !([0x01, 0x11, 0x12, 0x15].contains ty)) then answer f p m m.ver (Reply.deny 0x27) s
  else if pf && !isPF f then answer f p m m.ver (Reply.deny 2) s
  else if m.resv then answer f p m m.ver (Reply.skip 2) s
  else if m.proc ≠ p || m.len ≠ len then answer f p m m.ver (Reply.skip 6) s
  else let (r, s) := act m s; pumpAll (answer f p m m.ver r s)

/-- UNKNOWN_MTYPE (13 R481, R482): a version or a type that the processor does not accept. -/
def execUnknownMtype (f p : Nat) (s : State) : Host.Outcome State Fault Refusal :=
  .next (
    let m := message s f p
    let n := (s.procAt p).ver
    if !msgWaits s f p then s
    else if !verOk s p m.ver then answer f p m n { st := stVersionUnsup, det := 0, res := 0, body := [] } s
    else if msgKnown p m.ty then s
    else answer f p m m.ver (if s.dev.recovery then Reply.deny 0x27 else Reply.skip 1) s)

/-! Any processor. -/

/-- FW_VERSION (13 Table 13.8). -/
def execFwVersion (f p : Nat) (s : State) : Host.Outcome State Fault Refusal :=
  .next (serve 0x01 false 0 f p (fun _ s =>
    let x := s.procAt p
    (Reply.ok 0 (toLE x.imgver.toNat 8 ++ toLE x.ver 1 ++ toLE x.hover 1 ++ toLE s.fw.active 1 ++ zeros 1 ++ toLE x.restarts 4), s)) s)

/-- TRACE_SET (13 R497). -/
def execTraceSet (f p : Nat) (s : State) : Host.Outcome State Fault Refusal :=
  .next (serve 0x02 true 8 f p (fun m s =>
    (Reply.ok ((s.procAt p).mask.toNat % 2 ^ 32) [], s.modProc p (fun x => { x with mask := BitVec.ofNat 64 (le m.body 0 8) }))) s)

/-! Images and the flash. -/

/-- Where a slot stands in the flash (13 Table 13.3). -/
def slotBase (sl : Nat) : Nat := 0x80000 + sl * 0x1800000
def slotLen : Nat := 0x1800000

/-- The image of a slot. -/
def slotImg (s : State) (sl : Nat) : SlotImg :=
  (tget s.fw.img sl).getD { valid := false, ver := 0, svn := 0, hover := 0, homin := 0, imgver := 0, meas := [], wins := [], ucode := [] }

/-- The state of a slot. -/
def slotSt (s : State) (sl : Nat) : SlotSt := (tget s.fw.slots sl).getD .empty

/-- A digest as it stands in memory. -/
def digestAt (m : List Byte) (lo : Nat) : BitVec 256 := BitVec.ofNat 256 (le m lo 32)

/-- The bytes of component c of an image (13 Table 13.4). -/
def compBytes (m : List Byte) (c : Nat) : List Byte := (m.drop (le m (65 + 128 * c) 4)).take (le m (69 + 128 * c) 4)

/-- The fields of a manifest that carry no digest are in range (13 R471). -/
def manifestOk (m : List Byte) : Bool :=
  decide (8592 ≤ m.length) && le m 0 4 = 0x4E524F44 && le m 4 1 = 1 && decide (le m 5 1 < 64) && le m 16 1 = 5 && decide (le m 17 1 < 4) && !dirty m 18 46
  && (List.range 5).all (fun c => le m (64 + 128 * c) 1 = c && decide (le m (65 + 128 * c) 4 + le m (69 + 128 * c) 4 ≤ m.length))

/-- The check of an image (13 R471, R490): the MDETAIL of the first rule it breaks, or none. A manifest out of range answers as an unsigned one
(log 45). -/
def imageFault (s : State) (m : List Byte) : Option Nat :=
  let pk := (m.drop 704).take 32
  let k := le m 17 1
  if !manifestOk m || Config.sha256 pk ≠ nth s.fuse.rootKeys k 0 || s.fuse.revoked.getLsbD k
      || !Config.slhVerify pk (m.take 736) ((m.drop 736).take 7856) then some 0x20
  else if le m 5 1 < s.fw.svn then some 0x22
  else if (List.range 5).any (fun c => Config.sha256 (compBytes m c) ≠ digestAt m (73 + 128 * c)) then some 0x21
  else if (slotImg s s.fw.booted).hover < le m 7 1 then some 0x23
  else none

/-- The 16 protection windows that a manifest declares for component c, 5 bytes each (13 R466, Table 13.4). -/
def manifestWins (m : List Byte) (c : Nat) : List Window :=
  (List.range 16).map (fun i =>
    let w := Config.windowOf ((m.drop (105 + 128 * c + 5 * i)).take 5)
    { base := w.1, limit := w.2.1, rights := w.2.2 })

/-- The routines of an image's microcode package, numbered 0 to 63 (05 R179, R180). -/
def packageUcode (m : List Byte) : Tbl (Nat × List (BitVec 128)) :=
  (Config.packageOf (compBytes m 4)).foldl (fun t e => if e.1 < 64 then tset t e.1 e.2 else t) []

/-- What a staged image holds. Its message version N is in no field of the manifest: a free value (log 8). -/
def imageOf (m : List Byte) (k : Nat) : SlotImg :=
  { valid := true, ver := (Config.freeWord k 0).toNat % 256, svn := le m 5 1, hover := le m 6 1, homin := le m 7 1, imgver := BitVec.ofNat 64 (le m 8 8),
    meas := (List.range 5).map (fun c => Config.sha256 (compBytes m c)) ++ [Config.sha256 (m.take 8592)],
    wins := (List.range 4).map (fun c => (c, manifestWins m c)), ucode := packageUcode m }

/-- The boot descriptor is rewritten (13 R469): the next generation takes the place of the copy with the lower one. -/
def Fw.rewrite (w : Fw) : Fw :=
  let n : BootCopy := { gen := w.bootGen + 1, crcOk := true, active := w.active, trial := w.trial, count := w.count, slots := w.slots }
  { w with bootGen := w.bootGen + 1, copies := match w.copies with
    | a :: b :: _ => if a.crcOk && (!b.crcOk || b.gen.toNat < a.gen.toNat) then [a, n] else [n, b]
    | _ => [n, n] }

/-- The boot descriptor as the ROM reads it (13 R469): the copy with the higher generation whose CRC matches. -/
def Fw.reread (w : Fw) : Fw :=
  let best := w.copies.foldl (fun (b : Option BootCopy) x =>
    if !x.crcOk then b else match b with | some y => if y.gen.toNat < x.gen.toNat then some x else b | none => some x) none
  match best with
  | some x => { w with active := x.active, trial := x.trial, count := x.count, slots := x.slots, bootGen := x.gen }
  | none => w

/-- Sets the state of a slot. -/
def setSlot (sl : Nat) (st : SlotSt) (s : State) : State := s.onFw (fun w => Fw.rewrite { w with slots := tset w.slots sl st })

/-- One of FW_STAGE, FW_ACTIVATE and FW_COMMIT is in progress (13 R483). -/
def fwBusy (s : State) : Bool := s.fw.work.any (fun w => w.kind = 0x12 || w.kind = 0x13)

/-- The last line of a buffer: the final status in byte 0, and, where it is DENIED, the reason in byte 1 (13 R483, R490; log 44). -/
def statusLine (st det : Nat) : List Byte := padTo 64 [BitVec.ofNat 8 st, BitVec.ofNat 8 det]

def addWork (w : FwWork) (s : State) : State := s.onFw (fun x => { x with work := x.work ++ [w] })

/-- Codes of a slot's state in FW_QUERY. -/
def slotCode : SlotSt → Nat
  | .empty => 0 | .staged => 1 | .good => 2 | .rejected => 3

/-! Deadbolt. -/

/-- ATTEST (13 R477): the report is made as background work. -/
def execAttest (f p : Nat) (s : State) : Host.Outcome State Fault Refusal :=
  .next (serve 0x10 false 40 f p (fun m s =>
    (Reply.ok 0 [], addWork { kind := 0x10, fn := f, addr := le m.body 32 8, len := 0, status := le m.body 32 8 + 17472, nonce := m.body.take 32 } s)) s)

/-- CERT_READ (13 R476): the chain lies in its flash region. -/
def execCertRead (f p : Nat) (s : State) : Host.Outcome State Fault Refusal :=
  .next (serve 0x11 false 12 f p (fun m s =>
    let chain := (Config.certChain.take 0x20000).take (le m.body 8 4)
    (Reply.ok chain.length [], busWrite (fnPort f) (le m.body 0 8) chain s)) s)

/-- FW_STAGE (13 R490, R483; 17 R581). -/
def execFwStage (f p : Nat) (s : State) : Host.Outcome State Fault Refusal :=
  .next (serve 0x12 true 20 f p (fun m s =>
    let n := le m.body 16 4
    if fwBusy s then replyWait stDeferred s
    else if !s.pin.flashWpN then (Reply.deny 0x26, s)
    else if slotLen < n then (Reply.skip 6, s)
    else (Reply.ok 0 [], addWork { kind := 0x12, fn := f, addr := le m.body 0 8, len := n, status := le m.body 8 8, nonce := [] } s)) s)

/-- The order of planned restarts (13 R491). -/
def restartOrder : List Nat := [1, 2, 3, 4, 5, 0]

/-- Planned restarts of processors, one at a time; the first begins as soon as it can (13 R489, R491, R492). One that a crash has stopped takes its turn
on its return. -/
def planRestarts (l : List Nat) (s : State) : State :=
  let s : State := s.onFw (fun w => { w with queue := w.queue ++ l.filter (fun p => !w.queue.contains p) })
  match s.fw.queue with
  | [] => s
  | p :: _ => s.modProc p (fun x => { x with planned := x.planned || !x.restarting })

/-- FW_ACTIVATE (13 R491 step 1). -/
def execFwActivate (f p : Nat) (s : State) : Host.Outcome State Fault Refusal :=
  .next (serve 0x13 true 8 f p (fun m s =>
    if fwBusy s then replyWait stDeferred s
    else match [0, 1].find? (fun sl => slotSt s sl = .staged) with
      | none => (Reply.deny 0x24, s)
      | some sl =>
        let s : State := s.onFw (fun w => Fw.rewrite { w with active := sl, booted := sl, trial := true, count := 0, queue := [] })
        let s : State := addWork { kind := 0x13, fn := f, addr := 0, len := 0, status := le m.body 0 8, nonce := [] } s
        (Reply.ok 0 [], planRestarts restartOrder s)) s)

/-- FW_COMMIT (13 R494). -/
def execFwCommit (f p : Nat) (s : State) : Host.Outcome State Fault Refusal :=
  .next (serve 0x14 true 1 f p (fun m s =>
    if 2 ≤ le m.body 0 1 then (Reply.skip 2, s)
    else if fwBusy s then replyWait stDeferred s
    else if !s.fw.trial then (Reply.deny 0x25, s)
    else
      let s : State := setSlot s.fw.active .good (s.onFw (fun w => { w with trial := false, window := false }))
      let svn := (slotImg s s.fw.active).svn
      (Reply.ok 0 [], if le m.body 0 1 = 1 then s.onFw (fun w => { w with svn := Nat.max w.svn svn }) else s)) s)

/-- FW_QUERY (13 Table 13.8). -/
def execFwQuery (f p : Nat) (s : State) : Host.Outcome State Fault Refusal :=
  .next (serve 0x15 false 0 f p (fun _ s =>
    let w := s.fw
    (Reply.ok 0 (toLE w.active 1 ++ toLE (b2n w.trial) 1 ++ toLE w.count 1 ++ toLE (slotCode (slotSt s 0)) 1 ++ toLE (slotCode (slotSt s 1)) 1 ++ zeros 3
      ++ toLE w.bootGen.toNat 4 ++ zeros 4
      ++ [0, 1].flatMap (fun sl => toLE (slotImg s sl).imgver.toNat 8 ++ toLE (slotImg s sl).svn 1 ++ zeros 7)), s)) s)

/-- FW_RESTART (13 R492). -/
def execFwRestart (f p : Nat) (s : State) : Host.Outcome State Fault Refusal :=
  .next (serve 0x17 true 1 f p (fun m s =>
    let k := le m.body 0 1
    if 64 ≤ k then (Reply.skip 2, s) else (Reply.ok 0 [], planRestarts (restartOrder.filter (fun p => k.testBit p)) s)) s)

/-! The configuration record. -/

/-- The record (log 44): 16 owners, 16 resource records in the layout of 11 Table 11.2, the park pool size, the CRC. -/
def cfgLen : Nat := 1048
def cfgRes (m : List Byte) (k : Nat) : List Byte := (m.drop (16 + 64 * k)).take 64
def cfgClusters (m : List Byte) (k : Nat) : BitVec 128 := BitVec.ofNat 128 (le (cfgRes m k) 0 16)
def cfgBs (m : List Byte) (k : Nat) : BitVec 64 := BitVec.ofNat 64 (le (cfgRes m k) 16 8)
def cfgPivot (m : List Byte) (k : Nat) : BitVec 32 := BitVec.ofNat 32 (le (cfgRes m k) 24 4)

/-- Resources that step 1 of 11 R409 refuses. -/
def cfgRefused (r : List Byte) : Bool :=
  let qu := le r 32 4
  dirty r 30 2 || dirty r 36 28 || decide (16384 < le r 28 2) || (qu ≠ 0 && (decide (qu < 100) || decide (100000 < qu)))
  || ((dirty r 0 16 || dirty r 16 8 || dirty r 24 4) && (!dirty r 0 16 || !dirty r 16 8 || !dirty r 24 4))

/-- The first rule of 13 R475 that a record breaks (the codes of CFG_INVALID), and the casement. -/
def cfgFault (s : State) (m : List Byte) : Option (Nat × Nat) :=
  let find := fun (p : Nat → Bool) => (List.range 16).find? p
  let meet := fun (k : Nat) => (List.range k).any (fun i =>
    (cfgClusters m i &&& cfgClusters m k) ≠ 0 || (cfgBs m i &&& cfgBs m k) ≠ 0 || (cfgPivot m i &&& cfgPivot m k) ≠ 0)
  match find (fun k => (cfgClusters m k &&& ~~~ s.fuse.clusterEn) ≠ 0 || (cfgPivot m k &&& ~~~ s.fuse.pivotEn) ≠ 0), find meet,
      find (fun k => cfgRefused (cfgRes m k)) with
  | some k, _, _ => some (1, k)
  | none, some k, _ => some (2, k)
  | none, none, some k => some (3, k)
  | none, none, none =>
    if 16384 < (List.range 16).foldl (fun n k => n + le (cfgRes m k) 28 2) 0 then some (4, 15) else none

/-- CFG_WRITE (13 R475; 17 R581). -/
def execCfgWrite (f p : Nat) (s : State) : Host.Outcome State Fault Refusal :=
  .next (serve 0x16 true 12 f p (fun m s =>
    let n := le m.body 8 4
    if 65536 < n then (Reply.skip 6, s)
    else
      let rec_ := busRead s (fnPort f) (le m.body 0 8) n
      if (cfgFault s (padTo cfgLen rec_)).isSome then (Reply.skip 6, s)
      else if !s.pin.flashWpN then (Reply.deny 0x26, s)
      else (Reply.ok 0 [], s.onFw (fun w => { w with mem := mwrite (mclear w.mem 0x10000 65536) 0x10000 rec_ }))) s)

/-- The configuration record found at cold reset (13 R475; 11 R410; 02 R80; 09 R354): it gives casements and park pool, or counts as absent. An
owner byte above 2, which no rule speaks of, counts modulo 3 (DESIGN CHOICE, log 74). -/
def applyConfig (s : State) : State :=
  let m := mread s.fw.mem 0x10000 cfgLen
  let crcOk := (crc32c (m.take 1044)).toNat = le m 1044 4
  let absent := (s.onCas (fun _ => [(0, { Cas.init0 with clusters := s.fuse.clusterEn, pivot := s.fuse.pivotEn })])).onFar (fun f => { f with parkPool := none })
  if !crcOk then absent
  else match cfgFault s m with
    | some (r, k) => trace 0 0x1004 3 (BitVec.ofNat 64 r) (BitVec.ofNat 64 k) absent
    | none =>
      (s.onCas (fun _ => (List.range 16).map (fun k =>
        let r := cfgRes m k
        (k, { Cas.init with owner := le m k 1 % 3, clusters := cfgClusters m k, bsmask := cfgBs m k, pivot := cfgPivot m k, latches := le r 28 2,
                            quantum := if le r 32 4 = 0 then 2000 else le r 32 4 })))).onFar (fun f => { f with parkPool := some (le m 1040 4) })

/-! Mullion, Keeper and Louvre. -/

/-- CALIB_PERIOD (10 R371). -/
def execCalibPeriod (f p : Nat) (s : State) : Host.Outcome State Fault Refusal :=
  .next (serve 0x30 true 2 f p (fun m s =>
    let h := le m.body 0 2
    if h < 1 || 720 < h then (Reply.skip 6, s) else (Reply.ok 0 [], s.onFw (fun w => { w with calibH := w.calibH.set (p - 2) h }))) s)

/-- PARK_SHARE (09 R357). -/
def execParkShare (f p : Nat) (s : State) : Host.Outcome State Fault Refusal :=
  .next (serve 0x41 true 1 f p (fun m s =>
    let h := le m.body 0 1
    if h < 5 || 100 < h then (Reply.skip 6, s) else (Reply.ok 0 [], s.onFar (fun x => { x with share := h }))) s)

/-- UCODE_QUERY (05 R180). -/
def execUcodeQuery (f p : Nat) (s : State) : Host.Outcome State Fault Refusal :=
  .next (serve 0x42 false 0 f p (fun _ s =>
    (Reply.ok 0 ((s.fw.uram.filter (fun e => e.1 / 64 = procLeaf p)).flatMap (fun e => toLE (e.1 % 64) 4 ++ toLE e.2.1 4 ++ toLE e.2.2.length 4)), s)) s)

/-- A field of SVC_CONFIG lies outside its range (12 Table 12.2), whatever MODE; in modes 1 and 2 STEP_PROG is loaded too. -/
def svcBad (s : State) (b : List Byte) : Bool :=
  let mode := le b 1 1
  let ch := le b 14 2
  let mb := le b 16 2
  let mr := le b 18 2
  let sk := le b 13 1
  let tm := le b 20 2
  2 < mode || le b 4 8 = 0 || 256 < le b 4 8 || (mode ≠ 0 && (s.getProg (le b 2 2 * 512 + le b 4 8)).isNone) || 15 < le b 12 1 || sk < 1 || 64 < sk
  || ch < 16 || 4096 < ch || ch % 16 ≠ 0 || mb < 1 || 4096 < mb || mr < 1 || 16384 < mr || (64 < tm && tm ≠ 0xFFFF) || le b 24 8 % 4096 ≠ 0
  || le b 32 4 < 65536 + mr * 256 + 2 * (64 + mb * 32) + mb * sk * 8

/-- The service of a casement as SVC_CONFIG sets it. -/
def svcOf (b : List Byte) : Svc :=
  { mode := le b 1 1, ctx := if le b 1 1 = 0 then none else some (le b 2 2), prog := le b 4 8, entry := le b 12 1, sampleK := le b 13 1,
    chunk := le b 14 2, maxBatch := le b 16 2, maxReq := le b 18 2, team := le b 20 2, autopark := (le b 22 1).testBit 0, work := le b 24 8,
    workLen := le b 32 4, autoTtl := le b 36 4, step := 0, rows := [], run := none, result := none }

/-- SVC_CONFIG (12 R441, R444; 15 Table 15.9): the answer, and the first step where there is one to run. The share goes where a casement leaves
mode 2 (14 R518). The message is forwarded to the Keeper of the home leaf: while that restarts it is answered BUSY (13 Table 13.8, R486; log 44). -/
def svcConfig (f : Nat) (b : List Byte) (s : State) : Reply × State :=
  let k := le b 0 1
  let mode := le b 1 1
  let team := le b 20 2
  if 15 < k then (Reply.skip 6, s)
  else if (s.casAt k).owner ≠ fnPort f + 1 then (Reply.deny 1, s)
  else if mode = 2 && s.fab.member && s.fab.level < 2 then ({ st := stVersionUnsup, det := 0, res := 0, body := [] }, s)
  else if mode = 2 && !s.fab.member then (Reply.deny 2, s)
  else if mode = 1 && 64 < (match tget s.fab.teams team with | some l => l.length | none => 0) then (Reply.deny 3, s)
  else if !(match s.getCtx (le b 2 2) with | some x => x.cas == k | none => false) then (Reply.deny 1, s)
  else if procDown s (4 + homeLeaf s k) then replyWait stBusy s
  else if 0 < liveOf s k || ((mode = 1 || mode = 2) && ajar s) then replyWait stDeferred s
  else if 2 ≤ le b 22 1 || dirty b 23 1 || dirty b 40 24 then (Reply.skip 2, s)
  else if svcBad s b then (Reply.skip 6, s)
  else
    let s : State := if (s.casAt k).svc.mode = 2 && mode ≠ 2 then s.onLvr (fun l => { l with share := none, shareNext := none }) else s
    let s : State := s.modCas k (fun v => { v with svc := svcOf b })
    (Reply.ok 0 [], match (svcOf b).ctx with
      | some c => boundary k c s
      | none => s)

/-- SVC_CONFIG (12 R441). -/
def execSvcConfig (f p : Nat) (s : State) : Host.Outcome State Fault Refusal :=
  .next (serve 0x40 true 64 f p (fun m s => svcConfig f m.body s) s)

/-- The sensor sites in the order of 14 Table 14.2. -/
def siteList : List Nat :=
  List.range 32 ++ (List.range 192).map (fun i => 0x100 + i) ++ (List.range 24).map (fun i => 0x200 + i) ++ (List.range 4).map (fun i => 0x300 + i)
  ++ (List.range 4).map (fun i => 0x400 + i)

/-- A reading as a 16-bit two's complement number. -/
def int16 (x : Int) : List Byte := toLE (x % 65536).toNat 2

/-- LVR_STATUS (14 R519). -/
def execLvrStatus (f p : Nat) (s : State) : Host.Outcome State Fault Refusal :=
  .next (serve 0x20 true 0 f p (fun _ s =>
    (Reply.ok 0 (powerRecord s ++ siteList.flatMap (fun i => int16 (tgetD s.therm.temp i 0 / 4))), s)) s)

/-- THERM_CFG (14 R502): four bytes an input: enable, hot, trip, 0. -/
def execThermCfg (f p : Nat) (s : State) : Host.Outcome State Fault Refusal :=
  .next (serve 0x21 true 16 f p (fun m s =>
    let one := fun (i : Nat) => (le m.body (4 * i) 1, le m.body (4 * i + 1) 1, le m.body (4 * i + 2) 1)
    if (List.range 4).any (fun i => 2 ≤ (one i).1 || dirty m.body (4 * i + 3) 1) then (Reply.skip 2, s)
    else if (List.range 4).any (fun i => (one i).1 = 1 && (decide (125 < (one i).2.1) || decide (125 < (one i).2.2) || decide ((one i).2.2 ≤ (one i).2.1))) then
      (Reply.skip 6, s)
    else
      let s : State := s.onTherm (fun t => { t with
        inp := (List.range 4).map (fun i => (i, { en := (one i).1 = 1, hot := (one i).2.1, trip := (one i).2.2 })),
        hot := t.hot.filter (fun x => x < 0x400 || (one (x - 0x400)).1 = 1) })
      (Reply.ok 0 [], s)) s)

/-- GATE_CFG (14 R499, Table 14.1): idle times of clusters, Sill domains and the other engines, 4 bytes each. -/
def execGateCfg (f p : Nat) (s : State) : Host.Outcome State Fault Refusal :=
  .next (serve 0x22 true 12 f p (fun m s =>
    let a := le m.body 0 4
    let b := le m.body 4 4
    let c := le m.body 8 4
    if a < 10 || 100000 < a || b < 100 || 1000000 < b || c < 5 || 10000 < c then (Reply.skip 6, s)
    else (Reply.ok 0 [], s.onLvr (fun l => { l with idleCluster := a, idleStack := b, idleOther := c }))) s)

/-- GROUP_BUDGET (14 R518): the lintel holds the budget. -/
def execGroupBudget (f p : Nat) (s : State) : Host.Outcome State Fault Refusal :=
  .next (serve 0x23 true 4 f p (fun m s =>
    let w := le m.body 0 4
    if !s.fab.member || s.fab.level < 2 then (Reply.deny 2, s)
    else if w < 600 * s.fab.members || 1100 * s.fab.members < w then (Reply.skip 6, s)
    else (Reply.ok 0 [], toLintel [25, w] (fun s => s.onFab (fun x => { x with budget := some w })) s)) s)

/-- FLOOR_CFG (14 R511). -/
def execFloorCfg (f p : Nat) (s : State) : Host.Outcome State Fault Refusal :=
  .next (serve 0x24 true 2 f p (fun m s =>
    let a := le m.body 0 1
    let b := le m.body 1 1
    if a < 4 || 15 < a || b < 5 || 25 < b then (Reply.skip 6, s)
    else (Reply.ok 0 [], s.onLvr (fun l => { l with floorStep := a, margin := b }))) s)

/-! Background work. -/

/-- Unplanned restarts of all processors. -/
def allRestarts (s : State) : Nat := (List.range 6).foldl (fun n p => n + (s.procAt p).restarts) 0

/-- Bytes 0 to 383 of an attestation report (13 Table 13.6). -/
def reportHead (s : State) (nonce : List Byte) : List Byte :=
  let d := fun (x : BitVec 256) => toLE x.toNat 32
  let ceil := if s.dev.compatPins = 3 then 2 else s.dev.compatPins.toNat
  padTo 384 (toLE 0x54534441 4 ++ toLE 1 1 ++ toLE s.fuse.grade.toNat 1 ++ toLE ceil 1 ++ toLE s.dev.compatLevel 1 ++ toLE s.fuse.serial.toNat 8
    ++ toLE (s.ctr 0).toNat 8 ++ toLE (s.fw.booted + b2n s.fw.trial * 128) 1 ++ toLE s.fw.svn 1 ++ toLE (slotImg s s.fw.booted).svn 1
    ++ toLE (b2n s.dev.recovery) 1 ++ toLE (allRestarts s) 4 ++ padTo 32 nonce
    ++ d (Config.sha256 (toLE s.fuse.clusterEn.toNat 16 ++ toLE s.fuse.pivotEn.toNat 4)) ++ zeros 32
    ++ (List.range 7).flatMap (fun i => d (nth s.fw.bootMeas i 0)))

/-- The report with its signature. -/
def report (s : State) (nonce : List Byte) : List Byte :=
  let h := reportHead s nonce
  h ++ padTo 17088 (Config.slhSign s.fuse.seed h)

/-- Work writes its buffer on the port of its function; for a function that has been reset (34 added) nothing is sent (15 R532). -/
def workWrite (w : FwWork) (a : Nat) (bs : List Byte) (s : State) : State := if w.fn < 34 then busWrite (fnPort w.fn) a bs s else s

/-- FW_STAGE's work (13 R490, R471). -/
def stageDone (w : FwWork) (flashOk : Bool) (s : State) : State :=
  let sl := 1 - s.fw.active % 2
  let m := busRead s (fnPort (w.fn % 34)) w.addr w.len
  let s : State := if flashOk && s.pin.flashWpN then s.onFw (fun x => { x with mem := mwrite (mclear x.mem (slotBase sl) slotLen) (slotBase sl) m }) else s
  let bad := if !flashOk || !s.pin.flashWpN then some 0x26 else imageFault s m
  match bad with
  | some d =>
    let s : State := s.onFw (fun x => { x with img := tdel x.img sl })
    let s : State := if d = 0x20 || d = 0x21 || d = 0x22 then trace 0 0x1002 3 (BitVec.ofNat 64 sl) (BitVec.ofNat 64 d) s else s
    workWrite w w.status (statusLine stDenied d) (setSlot sl .empty s)
  | none =>
    let (k, s) := State.fresh s
    let g := imageOf m k
    let s : State := setSlot sl .staged (s.onFw (fun x => { x with img := tset x.img sl g }))
    workWrite w w.status (statusLine stOK 0) (trace 0 0x1010 1 (BitVec.ofNat 64 sl) g.imgver s)

/-- A work is ready to end: an activation only after its last restart. -/
def workReady (s : State) (w : FwWork) : Bool := w.kind ≠ 0x13 || s.fw.queue.isEmpty

def dropWork (w : FwWork) (s : State) : State := s.onFw (fun x => { x with work := x.work.erase w })

/-- MAILBOX_WORK_DONE (13 R483, R491): the oldest work that is ready ends. -/
def workDone (flashOk : Bool) (s : State) : State :=
  if procDown s 0 || s.dev.inReset then s
  else match s.fw.work.find? (workReady s) with
    | none => s
    | some w =>
      let s : State := dropWork w s
      if w.kind = 0x12 then stageDone w flashOk s
      else if w.kind = 0x13 then
        workWrite w w.status (statusLine stOK 0)
          ((s.onFw (fun x => { x with window := true })).onProc (tmap (fun _ p => { p with newCrash := 0 })))
      else workWrite w w.status (statusLine stOK 0) (workWrite w w.addr (report s w.nonce) s)

/-- MAILBOX_WORK_DONE (13 R483). -/
def execMailboxWorkDone (flashOk : Bool) (s : State) : Host.Outcome State Fault Refusal := .next (workDone flashOk s)

/-- TRIAL_WINDOW_END (13 R494): 60 s after the activation. The image stays in trial until FW_COMMIT or a cold reset. -/
def execTrialWindowEnd (s : State) : Host.Outcome State Fault Refusal := .next (s.onFw (fun w => { w with window := false }))

end Sys2Proof.Machine
end

