-- ==== Sys2Proof/Machine/Restarts.lean ====
section
/-! DEFINITION. Crashes and restarts of the firmware processors (13 R484-R494; 12 R460) and the boot (13 R472-R474; 15 R545-R549; 16 R554). -/

namespace Sys2Proof.Machine

/-! Crashes. -/

/-- The messages outstanding to a processor are answered BUSY (13 R486). -/
def busyAll (p : Nat) (s : State) : State :=
  forEach ((List.range 34).filter (fun f => (s.mbxAt (mbxNo f p)).outstanding)) (fun f s => answerBusy f p s) s

/-- A FW_STAGE in progress ends DENIED and leaves its slot EMPTY when Deadbolt crashes (13 Table 13.11). -/
def failStage (s : State) : State :=
  match s.fw.work.find? (fun w => w.kind = 0x12) with
  | none => s
  | some w =>
    let sl := 1 - s.fw.active % 2
    let s : State := setSlot sl .empty ((dropWork w s).onFw (fun x => { x with img := tdel x.img sl }))
    workWrite w w.status (statusLine stDenied 0x26) s

/-- Every processor goes back to the previous slot (13 R494). -/
def rollback (p : Nat) (s : State) : State :=
  let bad := s.fw.active
  let old := 1 - bad % 2
  let s : State := s.onFw (fun w => { w with active := old, booted := old, trial := false, window := false, count := 0, queue := [] })
  let s : State := trace 0 0x1012 3 (BitVec.ofNat 64 p) (BitVec.ofNat 64 old) (setSlot bad .rejected s)
  planRestarts restartOrder s

/-- Counter ticks of 60 s. -/
def minute : Nat := 63000000000

/-- A processor crashes (13 R484, R488, R494): the cause is logged, its mailboxes are answered BUSY, and it restarts, is held down at its fourth
crash within 60 s, or, at its second on an image in its trial window, brings every processor back to the previous slot. -/
def crash (p pt : Nat) (a0 a1 : Word) (s : State) : State :=
  if 6 ≤ p || procDown s p || s.dev.inReset then s
  else
    let now := s.ctr (procLeaf p)
    let s : State := trace p pt 4 a0 a1 s
    let s : State := s.modProc p (fun x => { x with
      restarting := true, planned := false, crashes := now :: x.crashes.filter (fun c => decide ((now - c).toNat < minute)),
      newCrash := if s.fw.window then x.newCrash + 1 else x.newCrash })
    let s : State := busyAll p (if p = 0 then failStage s else s)
    let n := (s.procAt p).crashes.length
    if s.fw.window && 2 ≤ (s.procAt p).newCrash then rollback p s
    else if 4 ≤ n then
      let s : State := s.modProc p (fun x => { x with held := true })
      let s : State := trace p 0x0005 4 (BitVec.ofNat 64 n) 0 s
      busyAll p (devEvent 0 (s.onDev (fun d => { d with fwFail := setBit d.fwFail p true })))
    else s

/-- WDOG_EXPIRE (13 R484). -/
def execWdogExpire (p : Nat) (pc : Word) (s : State) : Host.Outcome State Fault Refusal := .next (crash p 0x0001 pc 0 s)

/-- FATAL_EXC (13 R484). -/
def execFatalExc (p : Nat) (cause pc : Word) (s : State) : Host.Outcome State Fault Refusal := .next (crash p 0x0002 cause pc s)

/-- The windows in force for a processor: its window registers, and what Table 13.2 always includes (13 R466). -/
def windowsOf (s : State) (p : Nat) : List Window :=
  (s.procAt p).win ++ (Config.reachOf p).map (fun w => { base := w.1, limit := w.2.1, rights := w.2.2 })

/-- An access with these rights (bit 0 read, 1 write, 2 execute) lies in a window in force. -/
def windowOpen (s : State) (p : Nat) (addr rights : Word) : Bool :=
  (windowsOf s p).any (fun w => decide (w.base ≤ addr.toNat) && decide (addr.toNat < w.limit) && (rights.truncate 3 &&& ~~~ w.rights) = 0)

/-- WINDOW_VIOL (13 R467): an access outside every window is aborted and the processor crashes. -/
def execWindowViol (p : Nat) (addr rights : Word) (s : State) : Host.Outcome State Fault Refusal :=
  .next (if windowOpen s p addr rights then s else crash p 0x0003 addr rights s)

/-! Returning to service. -/

/-- The jobs of a Keeper that crashed (13 R487): the record of the page in hand of a park job is written EMPTY and the page begun again; jobs
the Keeper started of its own accord are abandoned; a restore goes on where it stood. -/
def resumeJobs (leaf : Nat) (s : State) : State :=
  forEach (tkeys (tfilter (fun _ j => j.leaf = leaf) s.job)) (fun j s =>
    match s.getJob j with
    | none => s
    | some x =>
      if x.park && x.req.isNone && x.uid = 0 then dropJob j s
      else if x.park && 0 < x.phase then
        let s : State := match x.pages with | i :: _ => markTrace leaf i 0 (s.delFdir i) | [] => s
        s.updJob j (fun y => { y with phase := 0 })
      else s) s

/-- What a Keeper's crash did to the requests it tracked (12 R460): each ends DISCARDED with CAUSE 7, and nothing of the step in progress is
committed. -/
def loseRequests (leaf : Nat) (s : State) : State :=
  forEach ((List.range 16).filter (fun k => (s.casAt k).svc.mode ≠ 0 && homeLeaf s k = leaf)) (fun k s =>
    let s : State := s.modCas k (fun v => { v with svc := { v.svc with rows := [] } })
    forEach (liveReqs s (fun r => r.cas = k)) (discardReq 7) s) s

/-- The component of a processor, and its measurement taken at load (13 Table 13.1, R477). -/
def compOf (p : Nat) : Nat := if p = 0 then 0 else if p = 1 then 1 else if p < 4 then 2 else 3

/-- The window registers of a processor in reset are written with what the manifest of the running image declares for its component (13 R466). -/
def setWindows (p : Nat) (s : State) : State :=
  let w := ((tget (slotImg s s.fw.booted).wins (compOf p)).getD []).take 16
  s.modProc p (fun x => { x with win := w })

def loadImage (p : Nat) (s : State) : State :=
  let g := slotImg s s.fw.booted
  let m := nth g.meas (compOf p) 0
  let s : State := setWindows p (s.modProc p (fun x => { x with ver := g.ver, hover := g.hover, imgver := g.imgver }))
  s.onFw (fun w => { w with bootMeas := if compOf p < w.bootMeas.length then w.bootMeas.set (compOf p) m else w.bootMeas })

/-- The routines of the running image on both leaves, keyed as microcode RAM is. -/
def imageUcode (s : State) : Tbl (Nat × List (BitVec 128)) :=
  [0, 1].flatMap (fun leaf => (slotImg s s.fw.booted).ucode.map (fun e => (leaf * 64 + e.1, e.2)))

/-- The Keepers load the microcode package of an image that an update or a rollback has brought (05 R180, R181; 13 R491 step 3): every routine that it
adds, changes or removes is a swap to be made between commands. -/
def loadUcode (s : State) : State :=
  let new := imageUcode s
  let all := tkeys new ++ (tkeys s.fw.uram).filter (fun k => (tget new k).isNone)
  s.onFw (fun w => { w with ucodePend := (all.filter (fun k => decide (tget new k ≠ tget w.uram k))).map (fun k => (k, tget new k)) })

/-- The Keepers load microcode at boot: nothing runs on it yet (05 R180; 13 Table 13.5). -/
def bootUcode (s : State) : State :=
  let new := imageUcode s
  s.onFw (fun w => new.foldl (fun w e => putRoutine e.1 (some e.2) w) { w with uram := [], ucodePend := [] })

/-- A planned restart ends (13 R489, R491): the processor runs the component of the slot booted, and the next one's turn comes. -/
def plannedDone (p : Nat) (s : State) : State :=
  let s : State := loadImage p (s.modProc p (fun x => { x with restarting := false, planned := false }))
  let act := s.fw.work.any (fun w => w.kind = 0x13)
  let s : State := if act then trace 0 0x1011 1 (BitVec.ofNat 64 p) (s.procAt p).imgver s else s
  let s : State := if p = 5 then loadUcode s else s
  planRestarts [] (s.onFw (fun w => { w with queue := w.queue.filter (fun x => x ≠ p) }))

/-- RESTART_DONE (13 R484, R487, R489; 12 R460). The restart time in its log entry is not the model's to know (log 8). -/
def restartDone (p : Nat) (s : State) : State :=
  let x := s.procAt p
  if !x.restarting || x.held || s.dev.inReset then s
  else
    let plan := x.planned
    let (k, s) := State.fresh s
    let s : State := if plan then plannedDone p s
      else
        let s : State := s.modProc p (fun x => { x with restarting := false, restarts := x.restarts + 1 })
        if p = 4 || p = 5 then resumeJobs (p - 4) (loseRequests (p - 4) s) else s
    pumpAll (trace p 0x0004 1 (Config.freeWord k 0) (BitVec.ofNat 64 (b2n plan)) s)

/-- RESTART_DONE (13 R484). -/
def execRestartDone (p : Nat) (s : State) : Host.Outcome State Fault Refusal := .next (restartDone p s)

/-- A processor's quiet point (13 R489). -/
def quiet (s : State) (p : Nat) : Bool :=
  if p = 2 || p = 3 then s.fab.wait = .none && s.fab.repeats.isEmpty
  else if p = 4 || p = 5 then (List.range 16).all (fun k => (s.casAt k).svc.mode = 0 || homeLeaf s k ≠ p - 4 || (s.casAt k).svc.run.isNone)
  else true

/-- PLANNED_RESTART (13 R489): the processor whose turn it is writes its handover record and restarts; nothing is lost. -/
def execPlannedRestart (p : Nat) (s : State) : Host.Outcome State Fault Refusal :=
  .next (if p < 6 && ((s.procAt p).planned || s.fw.queue.head? = some p) && !procDown s p && !s.dev.inReset && quiet s p then
      (if (s.procAt p).planned then s else s.modProc p (fun x => { x with planned := true })).modProc p (fun x => { x with restarting := true })
    else s)

/-! Boot. -/

/-- The manifest of a slot is valid now (13 R471): the fused security version may have risen since it was staged. -/
def slotOk (s : State) (sl : Nat) : Bool := (slotImg s sl).valid && decide (s.fw.svn ≤ (slotImg s sl).svn)

/-- A slot may be booted in the other's place (13 R473). -/
def bootable (s : State) (sl : Nat) : Bool := (slotSt s sl = .good || slotSt s sl = .staged) && slotOk s sl

/-- Every processor will run the components of a slot; the ROM takes the measurements, the configuration record's among them. -/
def bootSlot (sl : Nat) (s : State) : State :=
  let g := slotImg s sl
  let s : State := s.onFw (fun w => { w with
    booted := sl,
    bootMeas := (List.range 6).map (fun i => nth g.meas i 0) ++ [Config.sha256 (mread w.mem 0x10000 65536)] })
  let s : State := forEach (List.range 6) (fun p s => s.modProc p (fun x => { x with ver := g.ver, hover := g.hover, imgver := g.imgver })) s
  trace 0 0x1001 1 0 (BitVec.ofNat 64 sl) s

/-- The trial count (13 R473): at 2 the other slot takes the place of the one in trial. -/
def countTrial (s : State) : State :=
  if !s.fw.trial then s
  else
    let s : State := s.onFw (fun w => Fw.rewrite { w with count := w.count + 1 })
    if s.fw.count < 2 then s
    else
      let bad := s.fw.active
      setSlot bad .rejected (s.onFw (fun w => { w with active := 1 - bad % 2, trial := false, count := 0 }))

/-- The ROM reads the boot descriptor, and a slot whose programming a reset cut short counts as EMPTY (13 R469; 17 R588). -/
def readDescriptor (s : State) : State :=
  let s : State := s.onFw Fw.reread
  forEach ([0, 1].filter (fun sl => (tget s.fw.img sl).isNone && slotSt s sl ≠ .empty && slotSt s sl ≠ .rejected)) (fun sl => setSlot sl .empty) s

/-- ROM_BOOT (13 R473, R474). -/
def romBoot (s : State) : State :=
  if s.dev.inReset || s.dev.bootLock || s.dev.recovery then s
  else
    let s : State := countTrial (readDescriptor s)
    let sl := s.fw.active
    let other := 1 - sl % 2
    if slotOk s sl then bootSlot sl s
    else if bootable s other then bootSlot other (trace 0 0x1003 3 (BitVec.ofNat 64 sl) (BitVec.ofNat 64 other) s)
    else s.onDev (fun d => { d with recovery := true, rst := false })

/-- ROM_BOOT (13 R473). -/
def execRomBoot (s : State) : Host.Outcome State Fault Refusal := .next (romBoot s)

/-- FIRST_STAGE_RELEASE (13 R472; 16 R554; 17 R586). The windows of every processor are set (R466). The second stage, which loads the Mullion
processors and the microcode, has no row of its own: both are there from here on (log 46). -/
def execFirstStageRelease (s : State) : Host.Outcome State Fault Refusal :=
  .next (
    if s.dev.inReset || s.dev.bootLock || s.dev.recovery then s
    else
      let s : State := s.onDev (fun d => { d with bootLock := true, mullUp := 3 })
      let s : State := bootUcode (forEach (List.range 6) setWindows s)
      pumpAll (serviceCheck (trace 0 0x1001 1 1 (BitVec.ofNat 64 s.fw.booted) s)))

/-- STACK_IN_SERVICE (15 R545, R547, R548). -/
def execStackInService (st : Nat) (s : State) : Host.Outcome State Fault Refusal :=
  .next (
    if 12 ≤ st || s.dev.inReset || procDown s (4 + leafOfStack st) || s.dev.stackIn.getLsbD st || s.dev.stackFail.getLsbD st then s
    else pumpAll (serviceCheck (s.onDev (fun d => { d with stackIn := setBit d.stackIn st true }))))

/-- STACK_TRAINING_FAIL (15 R549). -/
def execStackTrainingFail (st : Nat) (s : State) : Host.Outcome State Fault Refusal :=
  .next (
    if 12 ≤ st || s.dev.inReset || procDown s (4 + leafOfStack st) || s.dev.stackIn.getLsbD st then s
    else pumpAll (serviceCheck (s.onDev (fun d => { d with stackFail := setBit d.stackFail st true }))))

end Sys2Proof.Machine
end

