-- ==== Sys2Proof/Machine/Resets.lean ====
section
/-! DEFINITION. Resets (15 R529-R539; 17 R572, R576, R586, R587) and the end of a trip (14 R515). A reset acts whole when it is asked for;
RESET_COMPLETE is the moment its bit reads 0 (log 47). -/

namespace Sys2Proof.Machine

/-! What a reset destroys. -/

/-- The context whose pages a job moves. -/
def jobCtx (s : State) (x : Job) : Option Nat :=
  match x.pages.head?, x.keys.head? with
  | some i, _ => (s.getPage i).map (fun p => p.ctx)
  | none, some k => (s.getSeq k.1).map (fun q => q.ctx)
  | none, none => none

/-- Record i of a destroyed context after the walk of its reset (15 R533, Table 15.6; 09 R361): COPYING goes, any other gives an orphan. -/
def orphanRec (i : Nat) (d : FRec) (s : State) : State :=
  if d.mark = .copying || !d.crcOk then s.delFdir i
  else (parkFromRec i d s).updPage i (fun p => { p with orphan := true })

/-- Admin commands in progress on a context that a reset destroys end: its teardown is over, its migration is gone. -/
def endAdmin (c : Nat) (s : State) : State :=
  match s.getCtx c with
  | none => s
  | some x =>
    let s : State := match x.destroy with | some (q, u) => setDone q u (Res.ok 0) s | none => s
    let s : State := match x.mig with | some m => setDone m.q m.uid (Res.stat stDiscarded) s | none => s
    forEach (List.range 4) (fun n s => endWaits (ctxQ c n) s) s

/-- A reset destroys a context (15 R530, R538): as CTX_DESTROY, with no record; its PARKED pages stay as orphans. -/
def resetCtx (c : Nat) (s : State) : State :=
  let s : State := endAdmin c s
  let s : State := s.onJob (tfilter (fun _ x => jobCtx s x ≠ some c))
  let s : State := forEach ((fdir s).filter (fun e => e.2.ctx = c && recUp s e.1)) (fun e s => orphanRec e.1 e.2 s) s
  freeCtx true c s

/-- The contents of every test window become undefined (15 Table 15.5; 09 R351). -/
def havocWindows (s : State) : State := forEach (List.range 12) havocWindow s

/-- What a function reset takes of function f (15 Table 15.4, R531, R532): admin queue, aperture windows, host reads in hand, mailboxes. Work
that has been accepted goes on and sends nothing; a report is dropped. -/
def resetFn (f : Nat) (s : State) : State :=
  let s : State := s.delQueue f
  let s : State := s.modFn f (fun n => { n with enable := false, enabled := false })
  let s : State := s.onApw (tfilter (fun k _ => k / 64 ≠ f))
  let s : State := s.onMbx (tfilter (fun k _ => k / 6 ≠ f))
  let s : State := s.onBank (tmap (fun _ b => { b with host := b.host.filter (fun r => r.fn ≠ f) }))
  s.onFw (fun w => { w with work := (w.work.filter (fun x => !(x.fn = f && x.kind = 0x10))).map (fun x => if x.fn = f then { x with fn := f + 34 } else x) })

/-- The functions of a port. -/
def portFns (port : Nat) : List Nat := (List.range 17).map (fun n => port * 17 + n)

/-- Host mappings on a port whose functions are reset are removed (15 R536). -/
def dropHostMaps (port : Nat) (s : State) : State := s.onAlloc (tfilter (fun _ a => !(a.kind = .host && a.port = port)))

/-- A wider reset is in progress, and takes a narrower one into it (15 R535). -/
def absorbed (s : State) : Bool := s.dev.inReset || (s.dev.rst && s.dev.service = .boot)

/-- A function reset of this function, or of its whole port, is in progress (15 R535). -/
def resetting (s : State) (f : Nat) : Bool := s.dev.resets.any (fun e => e.2 = .function f || e.2 = .function (pfOf (fnPort f)))

/-- Enters a reset in progress, unless one like it is. -/
def beginReset (r : ResetKind) (s : State) : State :=
  if s.dev.resets.any (fun e => e.2 = r) then s
  else match tfree s.dev.resets 0 (s.dev.resets.length + 1) with
    | some i => s.onDev (fun d => { d with resets := tset d.resets i r })
    | none => s

/-- The function reset of a function, or, for a physical one, of every function of its port (15 R529). One that overlaps another in progress is part of
it (R535). -/
def functionReset (f : Nat) (s : State) : State :=
  if 34 ≤ f || absorbed s || resetting s f then s
  else
    let fs := if isPF f then portFns (fnPort f) else [f]
    let s : State := forEach (tkeys (tfilter (fun _ x => fs.contains x.fn) s.ctx)) resetCtx s
    let s : State := forEach ((List.range 16).filter (fun k => match (s.casAt k).selftest with | some t => fs.contains t.1 | none => false)) dropTest s
    let s : State := forEach fs resetFn s
    let s : State := if isPF f then dropHostMaps (fnPort f) s else s
    pumpAll (havocWindows (beginReset (.function f) s))

/-- FUNCTION_LEVEL_RESET (15 R529). -/
def execFunctionLevelReset (f : Nat) (s : State) : Host.Outcome State Fault Refusal := .next (functionReset f s)

/-- HOST_LINK_LOSS (15 R536). -/
def execHostLinkLoss (port : Nat) (s : State) : Host.Outcome State Fault Refusal := .next (if port < 2 then functionReset (pfOf port) s else s)

/-- PERST_ASSERT (17 R572): acts as a loss of link. -/
def execPerstAssert (port : Nat) (s : State) : Host.Outcome State Fault Refusal :=
  .next (if port < 2 then functionReset (pfOf port) (s.onPin (fun p => { p with perstN := tset p.perstN port false })) else s)

/-- PERST_DEASSERT (17 R586): the pin rises; training the host link has no state of its own here. -/
def execPerstDeassert (port : Nat) (s : State) : Host.Outcome State Fault Refusal :=
  .next (if port < 2 then s.onPin (fun p => { p with perstN := tset p.perstN port true }) else s)

/-- The reset of a casement (15 Table 15.4). -/
def casementReset (k : Nat) (s : State) : State :=
  if s.dev.caseRst.getLsbD k then s
  else
    let s : State := forEach (ctxsOf s k) resetCtx (if testing s k then dropTest k s else s)
    let o := (s.casAt k).owner
    let s : State := if o = 0 then s else
      let f := (o - 1) * 17 + k + 1
      (s.delQueue f).modFn f (fun n => { n with enable := false, enabled := false })
    let s : State := s.onDev (fun d => { d with caseRst := setBit d.caseRst k true })
    havocWindows (beginReset (.casement k) s)

/-- Whether a view may reset casement k (16 R558). -/
def mayReset (s : State) (v : View) (k : Nat) : Bool :=
  match v with
  | .fn f => (s.casAt k).owner = fnPort f + 1
  | .mp => true

/-- CASE_RST (16 R558). -/
def caseReset (v : View) (a : Acc) (s : State) : State :=
  match actVal a with
  | none => s
  | some x =>
    if !pfOrMp s v || absorbed s then s
    else pumpAll (forEach ((List.range 16).filter (fun k => x.testBit k && mayReset s v k)) casementReset s)

def execCaseRst (v : View) (a : Acc) (s : State) : Host.Outcome State Fault Refusal := .next (caseReset v a s)

/-- RESET_COMPLETE (15 R529, R535): a function reset waits for the resets of the casements its port owns. -/
def resetDone (i : Nat) (s : State) : State :=
  match tget s.dev.resets i with
  | none => s
  | some r =>
    let drop := fun (s : State) => s.onDev (fun d => { d with resets := tdel d.resets i })
    match r with
    | .casement k => drop (s.onDev (fun d => { d with caseRst := setBit d.caseRst k false }))
    | .function f => if (List.range 16).any (fun k => s.dev.caseRst.getLsbD k && reachesCas s f k) then s else drop s
    | _ => drop s

def execResetComplete (i : Nat) (s : State) : Host.Outcome State Fault Refusal := .next (resetDone i s)

/-! Device and cold reset. -/

/-- What both classes leave (15 Table 15.5): everything at its reset value but fuses, pins, flash, far directory and park pool, host memory, and
what the model alone holds. Stack memory is undefined and zeroed before any allocation: it is cleared here. -/
def clearAll (s : State) : State :=
  let s : State := forEach (List.range 16) dropTest s
  let stage := s.fw.work.any (fun w => w.kind = 0x12)
  let idle := 1 - s.fw.active % 2
  havocWindows { State.reset with
    pending := s.pending, freeCtr := s.freeCtr, nextUid := s.nextUid, fuse := s.fuse, pin := s.pin,
    dev := { State.reset.dev with ctr := s.dev.ctr, compatPins := s.dev.compatPins, compatLevel := s.dev.compatLevel, compatReq := s.dev.compatReq,
                                  compatPend := s.dev.compatPend, coldWalk := s.dev.coldWalk },
    hostMem := s.hostMem, farMem := s.farMem, farBad := s.farBad,
    far := { State.reset.far with parkPool := s.far.parkPool },
    therm := { Therm.init with temp := s.therm.temp, hot := s.therm.hot, openIn := s.therm.openIn },
    fw := { s.fw with work := [], window := false, queue := [], ucodePend := [],
                      img := if stage then tdel s.fw.img idle else s.fw.img },
    mgmt := s.mgmt, out := s.out }

/-- A processor after a device reset: reloaded, no longer held down; its ring and its mask stay, and so does the count of its restarts. -/
def reloaded (p : Proc) : Proc := { p with crashes := [], restarting := false, planned := false, held := false, newCrash := 0 }

/-- A device reset (15 R529, R530). A level that waited for the device to leave its group takes effect (16 R560). -/
def deviceReset (s : State) : State :=
  let z : State := clearAll s
  let z : State := z.onDev (fun d => { d with rst := true, boardId := s.dev.boardId, rack := s.dev.rack, slot := s.dev.slot })
  let z : State := z.onCas (fun _ => tmap (fun _ v => { v with svc := Svc.init, place := none, stage := none, selftest := none }) s.cas)
  let z : State := z.onLb (fun _ => tmap (fun _ b => { b with lines := [], merge := [], bad := [] }) s.lb)
  let z : State := z.onEcc (fun _ => s.ecc)
  let z : State := z.onEccReg (fun _ => { s.eccReg with farDown := 0 })
  let z : State := z.onFar (fun x => { x with share := s.far.share })
  let z : State := z.onPort (fun _ => tmap (fun _ x => { Port.init with retrained := x.retrained }) s.port)
  let z : State := z.onLvr (fun _ =>
    { Lvr.init with hostLim := s.lvr.hostLim, idleCluster := s.lvr.idleCluster, idleStack := s.lvr.idleStack, idleOther := s.lvr.idleOther,
                    floorStep := s.lvr.floorStep, margin := s.lvr.margin, shown := s.lvr.shown })
  let z : State := z.onTherm (fun x => { x with fault := s.therm.fault, inp := s.therm.inp, calib := s.therm.calib, ref2x := s.therm.ref2x })
  let z : State := z.onProc (fun _ => tmap (fun _ p => reloaded p) s.proc)
  if z.dev.compatPend then applyCompat z else z

/-- DEV_RST (15 R537): a reset asked for while TRIP is set waits for the end of the trip. -/
def devReset (v : View) (a : Acc) (s : State) : State :=
  match actVal a with
  | none => s
  | some x =>
    if !x.testBit 0 || !pfOrMp s v || absorbed s then s
    else if s.therm.trip then s.onDev (fun d => { d with rst := true })
    else deviceReset s

def execDevRst (v : View) (a : Acc) (s : State) : Host.Outcome State Fault Refusal := .next (devReset v a s)

/-- TRIP_CLEAR (14 R515; 15 R537; 16 R568). -/
def tripClear (v : View) (a : Acc) (s : State) : State :=
  match actVal a with
  | none => s
  | some x =>
    if !x.testBit 0 || !pfOrMp s v || !s.therm.trip || !allReleased s then s
    else
      let s : State := endTrip s
      if s.dev.rst then deviceReset s else pumpAll s

def execTripClear (v : View) (a : Acc) (s : State) : Host.Outcome State Fault Refusal := .next (tripClear v a s)

/-- A cold reset begins (17 R587): clocks stop, ports go dark, host links drop, and everything goes but what Table 15.5 keeps. -/
def coldAssert (s : State) : State :=
  if s.dev.inReset then s
  else
    let z : State := clearAll s
    let z : State := z.onDev (fun d => { d with inReset := true, clockStop := true, compatPend := false })
    let z : State := z.onFw (fun w => { w with calibH := [24, 24] })
    let z : State := z.onPin (fun p => { p with tripN := true })
    z.onCas (fun _ => [])

/-- COLD_RESET_ASSERT (17 R587). -/
def execColdResetAssert (s : State) : Host.Outcome State Fault Refusal := .next (coldAssert (s.onPin (fun p => { p with coldRstN := false })))

/-- PWR_GOOD_LOW (17 R576): as a cold reset. -/
def execPwrGoodLow (s : State) : Host.Outcome State Fault Refusal := .next (coldAssert (s.onPin (fun p => { p with pwrGood := false })))

/-- COLD_RESET_RELEASE (17 R586; 15 Table 15.5; 16 Table 16.12): the leaf counters start at 0, COMPAT_SEL is sampled, and the configuration
record gives the casements. -/
def coldRelease (s : State) : State :=
  if !s.dev.inReset then s
  else
    let p := s.pin.compatSel
    let lv := if p = 3 then 2 else p.toNat
    let s : State := s.onPin (fun p => { p with coldRstN := true, pwrGood := true })
    applyConfig (s.onDev (fun d => { d with
      inReset := false, clockStop := false, ctr := [], compatPins := p, compatLevel := lv, compatReq := lv, compatPend := false, coldWalk := 3 }))

/-- COLD_RESET_RELEASE (17 R586). -/
def execColdResetRelease (s : State) : Host.Outcome State Fault Refusal := .next (coldRelease s)

end Sys2Proof.Machine
end

