-- ==== Sys2Proof/Machine/Regs.lean ====
section
/-! DEFINITION. Registers (16): writes by their field access codes, admin queues, aperture windows, the registers that the management port reads,
the management port (17 R582-R584) and the test port (17 R585). Offsets are those of BAR0 (16 Table 16.1) but for rows that name a register. -/

namespace Sys2Proof.Machine

/-- A write laid over a register's bits: a half leaves the other half as it stands (16 R551). -/
def mergeAcc (old : Nat) (a : Acc) : Nat :=
  match a with
  | .full v => v.toNat
  | .lo v => old / 2 ^ 32 % 2 ^ 32 * 2 ^ 32 + v.toNat
  | .hi v => v.toNat * 2 ^ 32 + old % 2 ^ 32

/-- The view is a function whose BAR0 takes writes, or the management port out of reset (16 R552; 17 R583). -/
def viewOpen (s : State) (v : View) : Bool := match v with | .fn f => decide (f < 34) && barOpen s | .mp => !s.dev.inReset

/-- A physical function whose BAR0 takes writes. -/
def pfOpen (s : State) (v : View) : Bool := match v with | .fn f => decide (f < 34) && isPF f && barOpen s | .mp => false

/-! Admin queues. -/

/-- Q_ADMIN_CFG as it reads (16 Table 16.14). -/
def adminCfgRead (n : Func) : Nat := b2n n.enable * 2 ^ 63 + b2n n.enabled * 2 ^ 62 + n.vector * 2 ^ 32 + n.cplLog2 * 2 ^ 16 + n.subLog2 * 2 ^ 8

/-- A write of Q_ADMIN_CFG (16 R561; 13 R474: none in recovery): fields but ENABLE hold while the queue runs; ENABLE = 1 starts a queue that is not
running, at slot 0, if its ring sizes lie in 6 to 16, and clears its DB_ERR (DESIGN CHOICE, log 74); ENABLE = 0 stops its fetching. -/
def adminCfg (f : Nat) (a : Acc) (s : State) : State :=
  let n := s.fnAt f
  let v := mergeAcc (adminCfgRead n) a
  let en := v.testBit 63
  let s : State := if n.enabled then s
    else s.modFn f (fun n => { n with vector := fldN v 42 32, cplLog2 := fldN v 20 16, subLog2 := fldN v 12 8 })
  let m := s.fnAt f
  if !n.enabled && en then
    if m.subLog2 < 6 || 16 < m.subLog2 || m.cplLog2 < 6 || 16 < m.cplLog2 || s.dev.recovery then s
    else
      let q : Queue := { newQueue f 0 0 m.vector m.subBase m.cplBase m.subLog2 m.cplLog2 false false (decide (s.dev.compatLevel < 2)) false with admin := true }
      (s.putQueue f q).modFn f (fun n => { n with enable := true, enabled := true, dbErr := false })
  else if n.enabled && n.enable && !en then (s.updQueue f (fun x => { x with drain := true })).modFn f (fun n => { n with enable := false })
  else s

/-- The queue has run out: every fetched command has its record (16 R561). -/
def adminDrained (f : Nat) (s : State) : State :=
  let n := s.fnAt f
  match s.getQueue f with
  | some x =>
    if n.enabled && !n.enable && x.es.all (fun e => e.posted) then
      (forEach (x.es.map (fun e => e.uid)) (headerSignal f) s).delQueue f |>.modFn f (fun n => { n with enabled := false })
    else s
  | none => s

/-- ADMIN_QUEUE_ENABLE (16 R561): a write of Q_ADMIN_CFG that leaves ENABLE at 1. -/
def execAdminQueueEnable (f : Nat) (a : Acc) (s : State) : Host.Outcome State Fault Refusal :=
  .next (if f < 34 && barOpen s && (mergeAcc (adminCfgRead (s.fnAt f)) a).testBit 63 then adminCfg f a s else s)

/-- ADMIN_QUEUE_DISABLE (16 R561): a write of Q_ADMIN_CFG that leaves ENABLE at 0. -/
def execAdminQueueDisable (f : Nat) (a : Acc) (s : State) : Host.Outcome State Fault Refusal :=
  .next (if f < 34 && barOpen s && !(mergeAcc (adminCfgRead (s.fnAt f)) a).testBit 63 then adminCfg f a s else s)

/-- ADMIN_QUEUE_DRAINED (16 R561). -/
def execAdminQueueDrained (f : Nat) (s : State) : Host.Outcome State Fault Refusal := .next (if f < 34 then pumpAll (adminDrained f s) else s)

/-! Aperture windows. -/

/-- DEV_APW_w as it reads (16 Table 16.11, R559). -/
def apwRead (s : State) (f win : Nat) : Nat :=
  let w := s.apwAt (f * 64 + win)
  b2n w.enable * 2 ^ 63 + b2n (w.enable && reaches s f w.ctx) * 2 ^ 62 + w.ctx * 2 ^ 48 + w.baseHi

/-- A write of DEV_APW_w (16 R559): a virtual function has four windows. -/
def apwWrite (f win : Nat) (a : Acc) (s : State) : State :=
  if 34 ≤ f || !barOpen s || (if isPF f then 64 else 4) ≤ win then s
  else
    let v := mergeAcc (apwRead s f win) a
    s.modApw (f * 64 + win) (fun _ => { enable := v.testBit 63, ctx := fldN v 59 48, baseHi := fldN v 19 0 })

/-- APERTURE_WINDOW_WRITE (16 R559). -/
def execApertureWindowWrite (f win : Nat) (a : Acc) (s : State) : Host.Outcome State Fault Refusal := .next (apwWrite f win a s)

/-! Levels and ECC settings. -/

/-- The ceiling (16 Table 16.12). -/
def compatCeil (s : State) : Nat := if s.dev.compatPins = 3 then 2 else s.dev.compatPins.toNat

/-- A write of COMPAT_LEVEL (16 R560). -/
def compatWrite (v : View) (a : Acc) (s : State) : State :=
  let lv := fldN (mergeAcc s.dev.compatReq a) 1 0
  if !pfOpen s v || compatCeil s < lv then s
  else
    let s : State := s.onDev (fun d => { d with compatReq := lv })
    if s.fab.member then s.onDev (fun d => { d with compatPend := true }) else applyCompat s

/-- COMPAT_LEVEL_WRITE (16 R560, 10 R368). -/
def execCompatLevelWrite (v : View) (a : Acc) (s : State) : Host.Outcome State Fault Refusal := .next (compatWrite v a s)

/-- A write of ECC_CE_CFG (09 R342; 16 Table 16.21): a 0 in either field leaves it. -/
def ceCfgWrite (v : View) (a : Acc) (s : State) : State :=
  let x := mergeAcc (s.eccReg.leakMs * 2 ^ 16 + s.eccReg.thresh) a
  if !pfOrMp s v then s
  else s.onEccReg (fun e => { e with
    thresh := if fldN x 15 0 = 0 then e.thresh else fldN x 15 0, leakMs := if fldN x 31 16 = 0 then e.leakMs else fldN x 31 16 })

/-- ECC_CE_CFG_WRITE (09 R342). -/
def execEccCeCfgWrite (v : View) (a : Acc) (s : State) : Host.Outcome State Fault Refusal := .next (ceCfgWrite v a s)

/-- A write of ECC_CE_CLR (16 Table 16.21). -/
def ceClr (v : View) (a : Acc) (s : State) : State :=
  match actVal a with
  | none => s
  | some x => if !pfOrMp s v then s else forEach ((List.range 12).filter (fun t => x.testBit t)) (fun t s => s.modEcc t (fun e => { e with total := 0, ovf := 0 })) s

/-- ECC_CE_CLR (16 R566). -/
def execEccCeClr (v : View) (a : Acc) (s : State) : Host.Outcome State Fault Refusal := .next (ceClr v a s)

/-! Other registers, window by window. -/

/-- DEV_IRQ_CFG as it reads (16 Table 16.7). -/
def irqCfgRead (n : Func) : Nat := b2n n.devEn * 2 ^ 63 + b2n n.eccEn * 2 ^ 62 + n.eccVec * 2 ^ 32 + n.devVec

/-- DEV_BOARD as it reads (16 Table 16.10), and a write of it before BOOT_LOCK. -/
def boardRead (s : State) : Nat := s.dev.boardId.toNat * 2 ^ 32 + s.dev.rack.toNat * 2 ^ 16 + s.dev.slot.toNat
def boardWrite (a : Acc) (s : State) : State :=
  if s.dev.bootLock then s
  else
    let v := mergeAcc (boardRead s) a
    s.onDev (fun d => { d with boardId := BitVec.ofNat 32 (fldN v 63 32), rack := BitVec.ofNat 16 (fldN v 31 16), slot := BitVec.ofNat 8 v })

/-- The contexts whose HZ_WATCH bit a function reaches in register n (04 R154). -/
def hzReach (s : State) (f n b : Nat) : Bool := isPF f || reaches s f (64 * n + b)

def hzWrite (f n : Nat) (a : Acc) (s : State) : State :=
  let old := (tgetD s.dev.hzWatch n 0).toNat
  let new := mergeAcc old a
  let bits := (List.range 64).filter (fun b => if hzReach s f n b then new.testBit b else old.testBit b)
  s.onDev (fun d => { d with hzWatch := tset d.hzWatch n (ofOnes 64 bits) })

/-- The DEV_ window (16 Table 16.4, R557). -/
def devWrite (v : View) (off : Nat) (a : Acc) (s : State) : State :=
  if off = 0 then devReset v a s
  else if off = 0x20 then caseReset v a s
  else if off = 0x28 then (if pfOrMp s v then boardWrite a s else s)
  else match v with
    | .mp => s
    | .fn f =>
      if !viewOpen s v then s
      else if off = 8 then
        (match actVal a with | some x => if x.testBit 6 then s.modFn f (fun n => { n with apwErr := false }) else s | none => s)
      else if off = 0x10 && isPF f then
        let x := mergeAcc (irqCfgRead (s.fnAt f)) a
        s.modFn f (fun n => { n with devEn := x.testBit 63, eccEn := x.testBit 62, eccVec := fldN x 42 32, devVec := fldN x 10 0 })
      else if off = 0x18 && isPF f then
        (match actVal a with | some x => s.modFn f (fun n => { n with cause := n.cause &&& ~~~ (BitVec.ofNat 4 x) }) | none => s)
      else if 0x200 ≤ off && off < 0x400 && off % 8 = 0 then apwWrite f ((off - 0x200) / 8) a s
      else if 0x400 ≤ off && off < 0x600 && off % 8 = 0 then hzWrite f ((off - 0x400) / 8) a s
      else s

/-- The ECC_ window (16 Table 16.21). -/
def eccWrite (v : View) (off : Nat) (a : Acc) (s : State) : State :=
  if off = 8 then ceCfgWrite v a s
  else if off = 0x18 then ceClr v a s
  else if !pfOrMp s v then s
  else if off = 0x10 then s.onEccReg (fun e => { e with period := fldN (mergeAcc e.period a) 7 0 })
  else if off = 0 then
    match actVal a with
    | some x => s.onEccReg (fun e => { e with
        ue := e.ue &&& ~~~ (BitVec.ofNat 12 x), ceOvf := e.ceOvf &&& ~~~ (BitVec.ofNat 12 (x / 2 ^ 16)), farUe := e.farUe &&& ~~~ (BitVec.ofNat 2 (x / 2 ^ 32)) })
    | none => s
  else s

/-- THERM_STATUS (16 Table 16.25, R568). -/
def thermWrite (v : View) (off : Nat) (a : Acc) (s : State) : State :=
  if off ≠ 0 then s
  else
    let s : State := match actVal a with
      | some x => if pfOrMp s v then s.onTherm (fun t => { t with fault := t.fault &&& ~~~ (BitVec.ofNat 4 (x / 2 ^ 8)) }) else s
      | none => s
    tripClear v a s

/-- The Q_ window (16 Table 16.13, R561, R562). -/
def qWrite (f off : Nat) (a : Acc) (s : State) : State :=
  let n := s.fnAt f
  if off = 0 || off = 8 then
    if n.enabled then s
    else
      let base := fun (w : Word) => BitVec.ofNat 64 (mergeAcc w.toNat a / 4096 * 4096)
      s.modFn f (fun n => if off = 0 then { n with subBase := base n.subBase } else { n with cplBase := base n.cplBase })
  else if off = 0x10 then adminCfg f a s
  else if off = 0x18 then
    (match actVal a with
     | some x => if x.testBit 8 then (s.modFn f (fun n => { n with dbErr := false })).updQueue f (fun y => { y with dbErr := false }) else s
     | none => s)
  else if isBell off 0 then ringBell f off a (fun x => 2 ^ x.subLog2) (fun v x => { x with tail := v }) s
  else if isBell off 8 then pumpAll (ringBell f off a (fun x => 2 ^ x.cplLog2) (fun v x => { x with head := v }) s)
  else if 0x60000 ≤ off && off % 8 = 0 then
    let k := (off - 0x60000) / 8
    (match actVal a with
     | some x => if x.testBit 8 && reaches s f (k / 4) then s.updQueue (64 + k) (fun y => { y with dbErr := false }) else s
     | none => s)
  else s

/-- The bytes that a write brings, at its offset. -/
def accBytes (a : Acc) : Nat × List Byte :=
  match a with
  | .full v => (0, toLE v.toNat 8)
  | .lo v => (0, toLE v.toNat 4)
  | .hi v => (4, toLE v.toNat 4)

/-- The MBX_ window (16 Table 16.16): doorbells, ERR, MBX_CFG, and the request buffers. -/
def mbxWrite (f off : Nat) (a : Acc) (s : State) : State :=
  if off = 0x400 then
    let n := s.fnAt f
    let x := mergeAcc (b2n n.mbxEn * 2 ^ 63 + n.mbxVec) a
    s.modFn f (fun n => { n with mbxEn := x.testBit 63, mbxVec := fldN x 10 0 })
  else if off < 0xC0 then
    let p := off / 32
    (match actVal a with
     | some x =>
       if off % 32 = 0 then mbxBell f p (x % 65536) s
       else if off % 32 = 8 && x.testBit 2 then s.modMbx (mbxNo f p) (fun m => { m with err := false })
       else s
     | none => s)
  else if 0x10000 ≤ off && off < 0x1C000 && off % 0x2000 < 0x1000 then
    let b := accBytes a
    s.onMbxBuf (fun m => mwrite m (mbxBase f ((off - 0x10000) / 0x2000) + off % 0x2000 + b.1) b.2)
  else s

/-- A misaligned write completes as an Unsupported Request (16 R551). -/
def misaligned (v : View) (s : State) : State := match v with | .fn _ => s.onOut (fun o => { o with ur := o.ur + 1 }) | .mp => s

/-- A register write (16 R550-R553): an offset that the view does not reach and a reserved one change nothing. -/
def regWrite (v : View) (off : Nat) (a : Acc) (s : State) : State :=
  if !viewOpen s v then s
  else if off % 8 ≠ 0 then misaligned v s
  else if 0x1000 ≤ off && off < 0x2000 then devWrite v (off - 0x1000) a s
  else if off = 0x10008 then compatWrite v a s
  else if 0x11000 ≤ off && off < 0x12000 then thermWrite v (off - 0x11000) a s
  else if 0x20000 ≤ off && off < 0x30000 then eccWrite v (off - 0x20000) a s
  else match v with
    | .mp => s
    | .fn f =>
      if 0x200000 ≤ off && off < 0x400000 then mbxWrite f (off - 0x200000) a s
      else if 0x400000 ≤ off && off < 0x500000 then qWrite f (off - 0x400000) a s
      else s

/-- REGISTER_WRITE (16 R551; 00 R18). -/
def execRegisterWrite (v : View) (off : Nat) (a : Acc) (s : State) : Host.Outcome State Fault Refusal := .next (regWrite v off a s)

/-! Registers as they read in the management view (16 Table 16.1). -/

/-- ID_ (16 Table 16.2, Table 16.3). -/
def idRead (s : State) (off : Nat) : Nat :=
  let grade := s.fuse.grade.toNat + s.fuse.pivotEn.toNat * 2 ^ 32 + s.fuse.clusterEn.toNat * 2 ^ 64
  if off = 0 then s.fuse.stepping.toNat * 2 ^ 32 + 0x0880 * 2 ^ 16 + 0x1D7C
  else if off = 8 then s.fuse.serial.toNat
  else if 0x100 ≤ off && off < 0x120 then grade / 2 ^ (64 * ((off - 0x100) / 8)) % 2 ^ 64
  else 0

/-- SERVICE as DEV_STATUS codes it (16 Table 16.6). -/
def serviceCode : Service → Nat
  | .boot => 0 | .ajar => 1 | .full => 2

/-- DEV_STATUS without APW_ERR, which is a function's own (16 Table 16.6, R556). -/
def devStatus (s : State) : Nat :=
  s.dev.fwFail.toNat * 2 ^ 44 + s.dev.stackFail.toNat * 2 ^ 32 + s.dev.stackIn.toNat * 2 ^ 16 + b2n s.dev.bootLock * 2 ^ 7 + b2n s.dev.recovery * 2 ^ 5
  + serviceCode s.dev.service

/-- The hottest of some sites, in units of 0.25 °C. -/
def hottest (s : State) (l : List Nat) : Nat :=
  let x := l.foldl (fun (m : Option Int) i => let t := tgetD s.therm.temp i 0; match m with | none => some t | some y => some (if y < t then t else y)) none
  ((x.getD 0) % 65536).toNat

/-- THERM_ (16 Table 16.25). -/
def thermRead (s : State) (off : Nat) : Nat :=
  let t := s.therm
  let inRead := fun (i : Nat) =>
    if (match tget t.inp i with | some c => c.en | none => false) && !t.openIn.getLsbD i then hottest s [0x400 + i] else 0x8000
  if off = 0 then
    t.tripSite * 2 ^ 16 + t.fault.toNat * 2 ^ 8 + (List.range 4).foldl (fun n i => n + b2n (t.hot.contains (0x400 + i)) * 2 ^ (4 + i)) 0
    + b2n (t.hot.any (fun i => decide (0x300 ≤ i) && decide (i < 0x304))) * 4 + b2n (!t.hot.isEmpty) * 2 + b2n t.trip
  else if off = 0x10 || off = 0x18 then hottest s ((List.range 16).map (fun d => (off - 0x10) / 8 * 16 + d))
  else if 0x20 ≤ off && off < 0x80 then
    let k := (off - 0x20) / 8
    b2n (t.ref2x.getLsbD k) * 2 ^ 32 + hottest s [0x200 + 2 * k, 0x201 + 2 * k] * 2 ^ 16 + hottest s ((List.range 16).map (fun i => 0x100 + 16 * k + i))
  else if off = 0x80 then (List.range 4).foldl (fun n i => n + hottest s [0x300 + i] * 2 ^ (16 * i)) 0
  else if off = 0x88 then (List.range 4).foldl (fun n i => n + inRead i * 2 ^ (16 * i)) 0
  else if 0x90 ≤ off && off < 0xB0 then
    match tget t.inp ((off - 0x90) / 8) with
    | some c => b2n c.en * 2 ^ 63 + c.trip * 2 ^ 8 + c.hot
    | none => 0
  else 0

/-- LVR_ (16 Table 16.26): limits, shares and settings as of the last control step. -/
def lvrRead (s : State) (off : Nat) : Nat :=
  let l := s.lvr
  let (pl, hl, sh, mg, fl) := l.shown
  if off = 0 then l.fixed * 2 ^ 48 + l.draw * 2 ^ 32 + pl * 2 ^ 16 + b2n (procDown s 1) * 2 + b2n l.floor
  else if off = 8 then
    (List.range 12).foldl (fun n k => n + tgetD l.step (2 + k) 0 * 2 ^ (8 + 4 * k)) (tgetD l.step 1 0 * 2 ^ 4 + tgetD l.step 0 0)
  else if off = 0x10 then l.thermLim * 2 ^ 32 + sh * 2 ^ 16 + hl
  else if off = 0x18 then mg * 2 ^ 8 + fl
  else 0

/-- One block of ECC_ (16 Table 16.22, Table 16.23); block 12 is the far log. -/
def eccBlock (s : State) (t off : Nat) : Nat :=
  let e := s.eccAt t
  if off = 0 then (if t = 12 then 0 else e.total)
  else if off = 8 then (if t = 12 then 0 else e.level)
  else if off = 0x10 then (if t = 12 then 0 else e.ovf)
  else if off = 0x18 then e.ueHead
  else if 0x100 ≤ off && off < 0x200 then
    match e.ueLog.find? (fun x => x.index.toNat % 16 = (off - 0x100) / 16) with
    | some x => if off % 16 = 8 then x.loc.toNat else x.index.toNat * 2 ^ 48 + x.port * 2 ^ 40 + x.src * 2 ^ 32 + x.time.toNat
    | none => 0
  else 0

/-- ECC_ (16 Table 16.21). -/
def eccRead (s : State) (off : Nat) : Nat :=
  let e := s.eccReg
  if off = 0 then e.farDown.toNat * 2 ^ 40 + e.farUe.toNat * 2 ^ 32 + e.ceOvf.toNat * 2 ^ 16 + e.ue.toNat
  else if off = 8 then e.leakMs * 2 ^ 16 + e.thresh
  else if off = 0x10 then e.period
  else if 0x1000 ≤ off && off < 0x1000 + 13 * 0x400 then eccBlock s ((off - 0x1000) / 0x400) (off % 0x400)
  else 0

/-- LB_STAT_s (16 Table 16.24). -/
def lbRead (s : State) (off : Nat) : Nat :=
  if off < 0x100 || 0x100 + 12 * 0x20 ≤ off then 0
  else
    let b := s.lbAt ((off - 0x100) / 0x20)
    let occ := fun (g : Nat) => (b.merge.filter (fun l => saBank (l.addr * 64) / 16 = g)).length
    let w := off % 0x20
    if w = 0 then occ 3 * 2 ^ 40 + occ 2 * 2 ^ 32 + occ 1 * 2 ^ 24 + occ 0 * 2 ^ 16 + b.lines.length
    else if w = 8 then b.stalls.toNat else if w = 0x10 then b.ue.toNat else 0

/-- FAB_ (16 Table 16.27). -/
def fabRead (s : State) (off : Nat) : Nat :=
  let f := s.fab
  let m := fun (x : Nat) => if f.member then x else 0
  if off = 0 then m (2 ^ 63 + b2n f.isLintel * 2 ^ 62 + f.level * 2 ^ 48 + f.rank * 2 ^ 32 + f.group.toNat)
  else if off = 8 then m (f.mver * 2 ^ 32 + f.members * 2 ^ 16 + f.lintel)
  else if off = 0x10 then m f.planGen
  else if off = 0x18 then s.fuse.digest.toNat
  else if 0x100 ≤ off && off < 0x180 then
    let x := s.portAt ((off - 0x100) / 8)
    x.retrained * 2 ^ 32 + x.peer * 2 ^ 16 + b2n x.spare * 2 ^ 12 + x.level * 2 ^ 8 + x.width * 2 ^ 4 + portCode x.st
  else 0

/-- A register of the management view; none where it does not reach the offset. -/
def mgmtRead (s : State) (off : Nat) : Option Nat :=
  if off % 8 ≠ 0 then none
  else if off < 0x1000 then some (idRead s off)
  else if off = 0x1000 then some (b2n s.dev.rst)
  else if off = 0x1008 then some (devStatus s)
  else if off = 0x1020 then some s.dev.caseRst.toNat
  else if off = 0x1028 then some (boardRead s)
  else if 0x10000 ≤ off && off < 0x11000 then
    some (if off = 0x10000 then s.dev.compatPins.toNat * 2 ^ 8 + compatCeil s
          else if off = 0x10008 then b2n s.dev.compatPend * 2 ^ 16 + s.dev.compatLevel * 2 ^ 8 + s.dev.compatReq else 0)
  else if 0x11000 ≤ off && off < 0x12000 then some (thermRead s (off - 0x11000))
  else if 0x12000 ≤ off && off < 0x13000 then some (lvrRead s (off - 0x12000))
  else if 0x20000 ≤ off && off < 0x30000 then some (eccRead s (off - 0x20000))
  else if 0x30000 ≤ off && off < 0x31000 then some (lbRead s (off - 0x30000))
  else if 0x40000 ≤ off && off < 0x41000 then some (fabRead s (off - 0x40000))
  else none

/-! Registers as a function reads them. No command of the block is a host's read; these definitions say what one returns (16 R550-R552). -/

/-- The two words of LATCH_VIEW_i (16 Table 16.19, R565): zeros for a latch that is not allocated or whose owner the function does not reach. -/
def latchView (s : State) (f i : Nat) : Word × Word :=
  match s.getLatch i with
  | some l => if reaches s f l.owner then (l.value, BitVec.ofNat 64 (2 ^ 31 + l.owner * 2 ^ 16 + b2n l.poison)) else (0, 0)
  | none => (0, 0)

/-- Free latches held on a leaf: allocated to no context, and not a freed index that commands still name (03 R132). -/
def latchesFree (s : State) (leaf : Nat) : Nat :=
  8192 - ((tkeys s.latch ++ tkeys s.latchHold).filter (fun i => leafOfLatch i = leaf)).length

/-- LATCH_POOL (16 Table 16.20). -/
def latchPool (s : State) : Nat := latchesFree s 1 * 2 ^ 16 + latchesFree s 0

/-- The LATCH_ window (16 R564). -/
def latchRead (s : State) (f off : Nat) : Nat :=
  if off < 0x40000 then (let v := latchView s f (off / 16); if off % 16 = 0 then v.1.toNat else v.2.toNat)
  else if off = 0x40000 then latchPool s else 0

/-- Q_ADMIN_STATUS or Q_STATUS of a queue (16 Table 16.15). An admin queue that does not run reads its reset values. -/
def qStatus (x : Option Queue) (dbErr : Bool) : Nat :=
  match x with
  | some x =>
    b2n x.phase * 2 ^ 48 + x.cplTail % 2 ^ 16 * 2 ^ 32 + x.fetch % 2 ^ 16 * 2 ^ 16 + b2n (dbErr || x.dbErr) * 2 ^ 8 + b2n x.v3 * 8
      + (match x.st with | .active => 1 | .stopped => 2 | .halted => 3)
  | none => 2 ^ 48 + b2n dbErr * 2 ^ 8

/-- The Q_ window (16 Table 16.13, R562): a context queue that is not there, or is out of the function's reach, reads 0. -/
def qRead (s : State) (f off : Nat) : Nat :=
  let n := s.fnAt f
  if off = 0 then n.subBase.toNat
  else if off = 8 then n.cplBase.toNat
  else if off = 0x10 then adminCfgRead n
  else if off = 0x18 then qStatus (s.getQueue f) n.dbErr
  else if 0x60000 ≤ off && off < 0x80000 && reaches s f ((off - 0x60000) / 32) then
    (match s.getQueue (64 + (off - 0x60000) / 8) with | some x => qStatus (some x) false | none => 0)
  else 0

/-- The bytes of log ring p (13 R495, Table 13.13): entry i lies at slot i mod 2,048. -/
def logRing (s : State) (p slot : Nat) : List Byte :=
  match (s.procAt p).log.find? (fun e => e.index.toNat % 2048 = slot) with
  | some e => toLE e.time.toNat 8 ++ toLE e.index.toNat 4 ++ toLE e.trace.toNat 2 ++ toLE p 1 ++ toLE e.sev 1 ++ toLE e.arg0.toNat 8 ++ toLE e.arg1.toNat 8
  | none => zeros 32

/-- The MBX_ window (16 Tables 16.16-16.18, R563): log heads and rings are the physical functions'. -/
def mbxRead (s : State) (f off : Nat) : Nat :=
  if off = 0x400 then (let n := s.fnAt f; b2n n.mbxEn * 2 ^ 63 + n.mbxVec)
  else if off < 0xC0 then
    let p := off / 32
    let x := s.mbxAt (mbxNo f p)
    if off % 32 = 8 then b2n (s.procAt p).held * 16 + b2n (procDown s p) * 8 + b2n x.err * 4 + b2n x.outstanding * 2 + b2n x.done
    else if off % 32 = 0x10 && isPF f then (s.procAt p).logHead else 0
  else if 0x10000 ≤ off && off < 0x1C000 then le (mread s.mbxBuf (mbxBase f ((off - 0x10000) / 0x2000) + off % 0x2000) 8) 0 8
  else if 0x100000 ≤ off && off < 0x160000 && isPF f then le (logRing s ((off - 0x100000) / 0x10000) (off % 0x10000 / 32)) (off % 32) 8
  else 0

/-- The DEV_ window (16 Table 16.4, R556, R557). -/
def devRead (s : State) (f off : Nat) : Nat :=
  let n := s.fnAt f
  if off = 8 then devStatus s + b2n n.apwErr * 2 ^ 6
  else if 0x200 ≤ off && off < 0x400 then (if (off - 0x200) / 8 < (if isPF f then 64 else 4) then apwRead s f ((off - 0x200) / 8) else 0)
  else if 0x400 ≤ off && off < 0x600 then
    let k := (off - 0x400) / 8
    ((List.range 64).filter (fun b => hzReach s f k b && (tgetD s.dev.hzWatch k 0).getLsbD b)).foldl (fun a b => a + 2 ^ b) 0
  else if !isPF f then 0
  else if off = 0 then b2n s.dev.rst
  else if off = 0x10 then irqCfgRead n
  else if off = 0x18 then n.cause.toNat
  else if off = 0x20 then s.dev.caseRst.toNat
  else if off = 0x28 then boardRead s
  else 0

/-- A 64-bit register of function f at an 8-byte aligned offset of BAR0 (16 Table 16.1, R552; 15 R529). -/
def regRead (s : State) (f off : Nat) : Word :=
  if !barOpen s then BitVec.allOnes 64
  else if off % 8 ≠ 0 then 0
  else BitVec.ofNat 64 (
    if 0x1000 ≤ off && off < 0x2000 then devRead s f (off - 0x1000)
    else if 0x100000 ≤ off && off < 0x180000 then latchRead s f (off - 0x100000)
    else if 0x200000 ≤ off && off < 0x400000 then mbxRead s f (off - 0x200000)
    else if 0x400000 ≤ off && off < 0x500000 then qRead s f (off - 0x400000)
    else if off < 0x1000 || (0x10000 ≤ off && off < 0x11000) || isPF f then (mgmtRead s off).getD 0
    else 0)

/-! The management port (17 R582-R584). -/

/-- The response code of an access that starts (17 R582, R583): 3 in reset for any but a read of ID_ or DEV_STATUS, 2 not in the view, else pending. -/
def mgmtCode (s : State) (off : Nat) (write : Bool) : Nat :=
  if s.dev.inReset && (write || !(decide (off < 0x1000) || off = 0x1008)) then 3 else if (mgmtRead s off).isNone then 2 else 1

/-- A block write 0x10 or 0x11 (17 R582): discarded while an access is pending, and with code 4 where its PEC is bad. -/
def mgmtStart (off : Nat) (v : Word) (write pecOk : Bool) (s : State) : State :=
  if s.mgmt.code = 1 then s
  else if !pecOk then s.onMgmt (fun m => { m with code := 4 })
  else s.onMgmt (fun _ => { code := mgmtCode s off write, off := off, value := if write then v else 0, write := write })

/-- MGMT_REGISTER_READ (17 R582). -/
def execMgmtRegisterRead (off : Nat) (pecOk : Bool) (s : State) : Host.Outcome State Fault Refusal := .next (mgmtStart off 0 false pecOk s)

/-- MGMT_REGISTER_WRITE (17 R582). -/
def execMgmtRegisterWrite (off : Nat) (v : Word) (pecOk : Bool) (s : State) : Host.Outcome State Fault Refusal := .next (mgmtStart off v true pecOk s)

/-- MGMT_ACCESS_DONE (17 R582): the access takes effect, and its code becomes done. -/
def mgmtDone (s : State) : State :=
  let m := s.mgmt
  if m.code ≠ 1 then s
  else if m.write then (regWrite .mp m.off (.full m.value) s).onMgmt (fun x => { x with code := 0 })
  else s.onMgmt (fun x => { x with code := 0, value := BitVec.ofNat 64 ((mgmtRead s m.off).getD 0) })

def execMgmtAccessDone (s : State) : Host.Outcome State Fault Refusal := .next (mgmtDone s)

/-- MGMT_RESULT_READ (17 R582): response code, offset and value of the last access leave on the port. -/
def execMgmtResultRead (s : State) : Host.Outcome State Fault Refusal :=
  .next (s.onOut (fun o => { o with smb := (s.mgmt.code, s.mgmt.off, s.mgmt.value) :: o.smb }))

/-- MGMT_ALERT_RESPONSE (17 R584). -/
def execMgmtAlertResponse (s : State) : Host.Outcome State Fault Refusal := .next (s.onPin (fun p => { p with mgmtAlertN := true }))

/-! The test port (17 R585). -/

/-- The 32-bit IDCODE. -/
def idcodeWord (s : State) : Nat := (if s.fuse.stepping = 0xB1 then 1 else 0) * 2 ^ 28 + 0x0880D6B

/-- An instruction of the test port is taken; EXTEST and its variants act only while COLD_RST_N is low, else as BYPASS. -/
def jtag (i : Jtag) (s : State) : State :=
  let ext := i = .extest || i = .extestPulse || i = .extestTrain
  s.onPin (fun p => { p with trstN := true, jtagReset := false, jtagIr := if ext && p.coldRstN then .bypass else i })

/-- IDCODE (17 R585). -/
def execIdcode (s : State) : Host.Outcome State Fault Refusal :=
  .next ((jtag .idcode s).onOut (fun o => { o with tdo := idcodeWord s :: o.tdo }))

/-- BYPASS (17 R585). -/
def execBypass (s : State) : Host.Outcome State Fault Refusal := .next (jtag .bypass s)

/-- SAMPLE/PRELOAD (17 R585): the cells of the boundary-scan chain are not listed (log 49). -/
def execSamplePreload (s : State) : Host.Outcome State Fault Refusal := .next (jtag .samplePreload s)

/-- EXTEST (17 R585). -/
def execExtest (s : State) : Host.Outcome State Fault Refusal := .next (jtag .extest s)

/-- EXTEST_PULSE (17 R585). -/
def execExtestPulse (s : State) : Host.Outcome State Fault Refusal := .next (jtag .extestPulse s)

/-- EXTEST_TRAIN (17 R585). -/
def execExtestTrain (s : State) : Host.Outcome State Fault Refusal := .next (jtag .extestTrain s)

/-- TEST_LOGIC_RESET (17 R585): JTAG_TRST_N low. IEEE 1149.1 selects IDCODE there. -/
def execTestLogicReset (s : State) : Host.Outcome State Fault Refusal :=
  .next (s.onPin (fun p => { p with trstN := false, jtagReset := true, jtagIr := .idcode }))

end Sys2Proof.Machine
end

