-- ==== Sys2Proof/Machine/Dispatch.lean ====
section
/-! DEFINITION. One arm per command: the meaning it calls. -/

namespace Sys2Proof.Machine

def exec (i : Instr) (s : State) : Host.Outcome State Fault Refusal :=
  match i with
  | .submissionDoorbell f off a => Sys2Proof.Machine.execSubmissionDoorbell f off a s
  | .completionDoorbell f off a => Sys2Proof.Machine.execCompletionDoorbell f off a s
  | .unknownOpcode q h pl => Sys2Proof.Machine.execUnknownOpcode q h pl s
  | .nop q h pl => Sys2Proof.Machine.execNop q h pl s
  | .ctxCreate q h pl => Sys2Proof.Machine.execCtxCreate q h pl s
  | .ctxDestroy q h pl => Sys2Proof.Machine.execCtxDestroy q h pl s
  | .queueCreate q h pl => Sys2Proof.Machine.execQueueCreate q h pl s
  | .queueDestroy q h pl => Sys2Proof.Machine.execQueueDestroy q h pl s
  | .queueResume q h pl => Sys2Proof.Machine.execQueueResume q h pl s
  | .caseAssign q h pl => Sys2Proof.Machine.execCaseAssign q h pl s
  | .caseRelease q h pl => Sys2Proof.Machine.execCaseRelease q h pl s
  | .ctxMigrate q h pl => Sys2Proof.Machine.execCtxMigrate q h pl s
  | .ctxPriority q h pl => Sys2Proof.Machine.execCtxPriority q h pl s
  | .memAlloc q h pl => Sys2Proof.Machine.execMemAlloc q h pl s
  | .memFree q h pl => Sys2Proof.Machine.execMemFree q h pl s
  | .memMapHost q h pl => Sys2Proof.Machine.execMemMapHost q h pl s
  | .memFence q h pl => Sys2Proof.Machine.execMemFence q h pl s
  | .memCopy q h pl => Sys2Proof.Machine.execMemCopy q h pl s
  | .memFill q h pl => Sys2Proof.Machine.execMemFill q h pl s
  | .descCreate q h pl => Sys2Proof.Machine.execDescCreate q h pl s
  | .descDestroy q h pl => Sys2Proof.Machine.execDescDestroy q h pl s
  | .progLoad q h pl => Sys2Proof.Machine.execProgLoad q h pl s
  | .progRun q h pl => Sys2Proof.Machine.execProgRun q h pl s
  | .progRunCompletion r => Sys2Proof.Machine.execProgRunCompletion r s
  | .progUnload q h pl => Sys2Proof.Machine.execProgUnload q h pl s
  | .skiplogRead q h pl => Sys2Proof.Machine.execSkiplogRead q h pl s
  | .latchAlloc q h pl => Sys2Proof.Machine.execLatchAlloc q h pl s
  | .latchFree q h pl => Sys2Proof.Machine.execLatchFree q h pl s
  | .latchSignal q h pl => Sys2Proof.Machine.execLatchSignal q h pl s
  | .latchWait q h pl => Sys2Proof.Machine.execLatchWait q h pl s
  | .latchPoison q h pl => Sys2Proof.Machine.execLatchPoison q h pl s
  | .latchRead q h pl => Sys2Proof.Machine.execLatchRead q h pl s
  | .latchWaitEval l => Sys2Proof.Machine.execLatchWaitEval l s
  | .headerLatchSignal q uid => Sys2Proof.Machine.execHeaderLatchSignal q uid s
  | .completionRecordPost q => Sys2Proof.Machine.execCompletionRecordPost q s
  | .seqOpen q h pl => Sys2Proof.Machine.execSeqOpen q h pl s
  | .seqCommit q h pl => Sys2Proof.Machine.execSeqCommit q h pl s
  | .seqDrop q h pl => Sys2Proof.Machine.execSeqDrop q h pl s
  | .seqClose q h pl => Sys2Proof.Machine.execSeqClose q h pl s
  | .pageFreeDeferred pmi => Sys2Proof.Machine.execPageFreeDeferred pmi s
  | .reqSubmit q h pl => Sys2Proof.Machine.execReqSubmit q h pl s
  | .reqCancel q h pl => Sys2Proof.Machine.execReqCancel q h pl s
  | .reqPark q h pl => Sys2Proof.Machine.execReqPark q h pl s
  | .reqResume q h pl => Sys2Proof.Machine.execReqResume q h pl s
  | .scrubRange q h pl => Sys2Proof.Machine.execScrubRange q h pl s
  | .selftest q h pl => Sys2Proof.Machine.execSelftest q h pl s
  | .eccTest q h pl => Sys2Proof.Machine.execEccTest q h pl s
  | .linkCalib q h pl => Sys2Proof.Machine.execLinkCalib q h pl s
  | .fabJoin q h pl => Sys2Proof.Machine.execFabJoin q h pl s
  | .fabLeave q h pl => Sys2Proof.Machine.execFabLeave q h pl s
  | .fabStatus q h pl => Sys2Proof.Machine.execFabStatus q h pl s
  | .pwrSetLimit q h pl => Sys2Proof.Machine.execPwrSetLimit q h pl s
  | .pwrRead q h pl => Sys2Proof.Machine.execPwrRead q h pl s
  | .add cl w => Sys2Proof.Machine.execAdd cl w s
  | .sub cl w => Sys2Proof.Machine.execSub cl w s
  | .mul cl w => Sys2Proof.Machine.execMul cl w s
  | .shl cl w => Sys2Proof.Machine.execShl cl w s
  | .shr cl w => Sys2Proof.Machine.execShr cl w s
  | .sra cl w => Sys2Proof.Machine.execSra cl w s
  | .andB cl w => Sys2Proof.Machine.execAndB cl w s
  | .orB cl w => Sys2Proof.Machine.execOrB cl w s
  | .xorB cl w => Sys2Proof.Machine.execXorB cl w s
  | .minS cl w => Sys2Proof.Machine.execMinS cl w s
  | .maxS cl w => Sys2Proof.Machine.execMaxS cl w s
  | .minu cl w => Sys2Proof.Machine.execMinu cl w s
  | .maxu cl w => Sys2Proof.Machine.execMaxu cl w s
  | .addi cl w => Sys2Proof.Machine.execAddi cl w s
  | .subi cl w => Sys2Proof.Machine.execSubi cl w s
  | .muli cl w => Sys2Proof.Machine.execMuli cl w s
  | .shli cl w => Sys2Proof.Machine.execShli cl w s
  | .shri cl w => Sys2Proof.Machine.execShri cl w s
  | .srai cl w => Sys2Proof.Machine.execSrai cl w s
  | .andi cl w => Sys2Proof.Machine.execAndi cl w s
  | .ori cl w => Sys2Proof.Machine.execOri cl w s
  | .xori cl w => Sys2Proof.Machine.execXori cl w s
  | .mini cl w => Sys2Proof.Machine.execMini cl w s
  | .maxi cl w => Sys2Proof.Machine.execMaxi cl w s
  | .minui cl w => Sys2Proof.Machine.execMinui cl w s
  | .maxui cl w => Sys2Proof.Machine.execMaxui cl w s
  | .movi cl w => Sys2Proof.Machine.execMovi cl w s
  | .movhi cl w => Sys2Proof.Machine.execMovhi cl w s
  | .gset cl w => Sys2Proof.Machine.execGset cl w s
  | .gnext cl w => Sys2Proof.Machine.execGnext cl w s
  | .greset cl w => Sys2Proof.Machine.execGreset cl w s
  | .loopOp cl w => Sys2Proof.Machine.execLoopOp cl w s
  | .cmp cl w => Sys2Proof.Machine.execCmp cl w s
  | .cmpi cl w => Sys2Proof.Machine.execCmpi cl w s
  | .pand cl w => Sys2Proof.Machine.execPand cl w s
  | .por cl w => Sys2Proof.Machine.execPor cl w s
  | .pnot cl w => Sys2Proof.Machine.execPnot cl w s
  | .br cl w => Sys2Proof.Machine.execBr cl w s
  | .brl cl w => Sys2Proof.Machine.execBrl cl w s
  | .brlResolve cl => Sys2Proof.Machine.execBrlResolve cl s
  | .ldl cl w => Sys2Proof.Machine.execLdl cl w s
  | .stl cl w => Sys2Proof.Machine.execStl cl w s
  | .lds cl w => Sys2Proof.Machine.execLds cl w s
  | .sts cl w => Sys2Proof.Machine.execSts cl w s
  | .push cl w => Sys2Proof.Machine.execPush cl w s
  | .waitl cl w => Sys2Proof.Machine.execWaitl cl w s
  | .sigl cl w => Sys2Proof.Machine.execSigl cl w s
  | .siglSignal cl uid => Sys2Proof.Machine.execSiglSignal cl uid s
  | .poisl cl w => Sys2Proof.Machine.execPoisl cl w s
  | .hinge cl w => Sys2Proof.Machine.execHinge cl w s
  | .endProgram cl w => Sys2Proof.Machine.execEndProgram cl w s
  | .illegalOp cl w => Sys2Proof.Machine.execIllegalOp cl w s
  | .mma cl uid => Sys2Proof.Machine.execMma cl uid s
  | .drain cl uid => Sys2Proof.Machine.execDrain cl uid s
  | .tnop cl uid => Sys2Proof.Machine.execTnop cl uid s
  | .move cl uid => Sys2Proof.Machine.execMove cl uid s
  | .prefetch cl uid => Sys2Proof.Machine.execPrefetch cl uid s
  | .loadop cl uid => Sys2Proof.Machine.execLoadop cl uid s
  | .gemv cl uid => Sys2Proof.Machine.execGemv cl uid s
  | .ewise cl uid => Sys2Proof.Machine.execEwise cl uid s
  | .norm cl uid => Sys2Proof.Machine.execNorm cl uid s
  | .deq cl uid => Sys2Proof.Machine.execDeq cl uid s
  | .topk cl uid => Sys2Proof.Machine.execTopk cl uid s
  | .sqGather cl uid => Sys2Proof.Machine.execSqGather cl uid s
  | .smxArm cl uid => Sys2Proof.Machine.execSmxArm cl uid s
  | .smxNorm cl uid => Sys2Proof.Machine.execSmxNorm cl uid s
  | .ucall cl uid => Sys2Proof.Machine.execUcall cl uid s
  | .kvScore cl uid => Sys2Proof.Machine.execKvScore cl uid s
  | .kvApply cl uid => Sys2Proof.Machine.execKvApply cl uid s
  | .smxMerge cl uid => Sys2Proof.Machine.execSmxMerge cl uid s
  | .gate cl uid => Sys2Proof.Machine.execGate cl uid s
  | .combine cl uid => Sys2Proof.Machine.execCombine cl uid s
  | .select cl uid => Sys2Proof.Machine.execSelect cl uid s
  | .stepRecord cl uid => Sys2Proof.Machine.execStepRecord cl uid s
  | .allreduce cl uid => Sys2Proof.Machine.execAllreduce cl uid s
  | .reduceScatter cl uid => Sys2Proof.Machine.execReduceScatter cl uid s
  | .allgather cl uid => Sys2Proof.Machine.execAllgather cl uid s
  | .broadcast cl uid => Sys2Proof.Machine.execBroadcast cl uid s
  | .mqGather cl uid => Sys2Proof.Machine.execMqGather cl uid s
  | .dispatch cl uid => Sys2Proof.Machine.execDispatch cl uid s
  | .returnRows cl uid => Sys2Proof.Machine.execReturnRows cl uid s
  | .ringShift cl uid => Sys2Proof.Machine.execRingShift cl uid s
  | .barrier cl uid => Sys2Proof.Machine.execBarrier cl uid s
  | .engineCommandCompletion cl uid => Sys2Proof.Machine.execEngineCommandCompletion cl uid s
  | .runStart => Sys2Proof.Machine.execRunStart s
  | .quantumExpiry r => Sys2Proof.Machine.execQuantumExpiry r s
  | .hingePointReached r => Sys2Proof.Machine.execHingePointReached r s
  | .hingeLate cl => Sys2Proof.Machine.execHingeLate cl s
  | .shutterSave r cl => Sys2Proof.Machine.execShutterSave r cl s
  | .runRestore r => Sys2Proof.Machine.execRunRestore r s
  | .migrationDrainTimeout c => Sys2Proof.Machine.execMigrationDrainTimeout c s
  | .burstYield st bs => Sys2Proof.Machine.execBurstYield st bs s
  | .refreshDue st bs => Sys2Proof.Machine.execRefreshDue st bs s
  | .forcedRefresh st bs => Sys2Proof.Machine.execForcedRefresh st bs s
  | .opportunisticRefresh st bs => Sys2Proof.Machine.execOpportunisticRefresh st bs s
  | .refreshComplete st bs => Sys2Proof.Machine.execRefreshComplete st bs s
  | .hostApertureRead f win off len => Sys2Proof.Machine.execHostApertureRead f win off len s
  | .hostApertureWrite f win off bs => Sys2Proof.Machine.execHostApertureWrite f win off bs s
  | .atomicopRequest f win off => Sys2Proof.Machine.execAtomicopRequest f win off s
  | .letterboxLineDrain st line => Sys2Proof.Machine.execLetterboxLineDrain st line s
  | .mergeEntryDrain st cw => Sys2Proof.Machine.execMergeEntryDrain st cw s
  | .patrolRow st => Sys2Proof.Machine.execPatrolRow st s
  | .eccBucketLeak st => Sys2Proof.Machine.execEccBucketLeak st s
  | .zeroFillDone n => Sys2Proof.Machine.execZeroFillDone n s
  | .unitGate u => Sys2Proof.Machine.execUnitGate u s
  | .unitWakeDone u => Sys2Proof.Machine.execUnitWakeDone u s
  | .microcodeSwap leaf fn => Sys2Proof.Machine.execMicrocodeSwap leaf fn s
  | .sensorSample rs faulty => Sys2Proof.Machine.execSensorSample rs faulty s
  | .thermalTrip site => Sys2Proof.Machine.execThermalTrip site s
  | .tripClear v a => Sys2Proof.Machine.execTripClear v a s
  | .thermFaultClear v a => Sys2Proof.Machine.execThermFaultClear v a s
  | .diodeCalibration site => Sys2Proof.Machine.execDiodeCalibration site s
  | .controlStep draw fixed load => Sys2Proof.Machine.execControlStep draw fixed load s
  | .thermalStepRelease u => Sys2Proof.Machine.execThermalStepRelease u s
  | .floorEngage avg => Sys2Proof.Machine.execFloorEngage avg s
  | .floorRelease avg => Sys2Proof.Machine.execFloorRelease avg s
  | .slowNoticeRenew => Sys2Proof.Machine.execSlowNoticeRenew s
  | .slowNoticeReceive n => Sys2Proof.Machine.execSlowNoticeReceive n s
  | .slowNoticeLapse origin => Sys2Proof.Machine.execSlowNoticeLapse origin s
  | .linkLightOn p lanes => Sys2Proof.Machine.execLinkLightOn p lanes s
  | .linkLightLost p lanes => Sys2Proof.Machine.execLinkLightLost p lanes s
  | .lanesLocked p => Sys2Proof.Machine.execLanesLocked p s
  | .negotiationComplete p peer => Sys2Proof.Machine.execNegotiationComplete p peer s
  | .laneFail p lane => Sys2Proof.Machine.execLaneFail p lane s
  | .flitReceive p fl => Sys2Proof.Machine.execFlitReceive p fl s
  | .negativeAck p seq => Sys2Proof.Machine.execNegativeAck p seq s
  | .replayTimeout p => Sys2Proof.Machine.execReplayTimeout p s
  | .laneCalibration p lane => Sys2Proof.Machine.execLaneCalibration p lane s
  | .calibrationPeriod leaf => Sys2Proof.Machine.execCalibrationPeriod leaf s
  | .stepTimeout uid => Sys2Proof.Machine.execStepTimeout uid s
  | .joinAnnounce m => Sys2Proof.Machine.execJoinAnnounce m s
  | .joinAnnounceRepeat => Sys2Proof.Machine.execJoinAnnounceRepeat s
  | .joinRefuse ver => Sys2Proof.Machine.execJoinRefuse ver s
  | .groupCommit m => Sys2Proof.Machine.execGroupCommit m s
  | .groupAbort => Sys2Proof.Machine.execGroupAbort s
  | .formationTimeout => Sys2Proof.Machine.execFormationTimeout s
  | .lintelBeatSend => Sys2Proof.Machine.execLintelBeatSend s
  | .lintelBeat => Sys2Proof.Machine.execLintelBeat s
  | .lintelLost => Sys2Proof.Machine.execLintelLost s
  | .lintelAnnounceTimeout => Sys2Proof.Machine.execLintelAnnounceTimeout s
  | .peerLostReport src lost => Sys2Proof.Machine.execPeerLostReport src lost s
  | .memberLost rank => Sys2Proof.Machine.execMemberLost rank s
  | .leave rank => Sys2Proof.Machine.execLeave rank s
  | .planPublish m => Sys2Proof.Machine.execPlanPublish m s
  | .planGraceExpiry gen => Sys2Proof.Machine.execPlanGraceExpiry gen s
  | .placeStage m => Sys2Proof.Machine.execPlaceStage m s
  | .placeStaged rank cas cur => Sys2Proof.Machine.execPlaceStaged rank cas cur s
  | .placeStagedTimeout cas => Sys2Proof.Machine.execPlaceStagedTimeout cas s
  | .placeCommit cas fromStep => Sys2Proof.Machine.execPlaceCommit cas fromStep s
  | .placeAbort cas => Sys2Proof.Machine.execPlaceAbort cas s
  | .stepReport cas => Sys2Proof.Machine.execStepReport cas s
  | .placeRelease cas => Sys2Proof.Machine.execPlaceRelease cas s
  | .powerShare watts => Sys2Proof.Machine.execPowerShare watts s
  | .powerShareSend => Sys2Proof.Machine.execPowerShareSend s
  | .stepBoundary cas => Sys2Proof.Machine.execStepBoundary cas s
  | .parkStep j => Sys2Proof.Machine.execParkStep j s
  | .restoreStep j => Sys2Proof.Machine.execRestoreStep j s
  | .ttlSweep leaf => Sys2Proof.Machine.execTtlSweep leaf s
  | .farDirectoryWalk => Sys2Proof.Machine.execFarDirectoryWalk s
  | .farPortBringup p x => Sys2Proof.Machine.execFarPortBringup p x s
  | .farLinkDown p => Sys2Proof.Machine.execFarLinkDown p s
  | .farLinkUp p => Sys2Proof.Machine.execFarLinkUp p s
  | .expanderEvent p kind => Sys2Proof.Machine.execExpanderEvent p kind s
  | .fwVersion f p => Sys2Proof.Machine.execFwVersion f p s
  | .traceSet f p => Sys2Proof.Machine.execTraceSet f p s
  | .attest f p => Sys2Proof.Machine.execAttest f p s
  | .certRead f p => Sys2Proof.Machine.execCertRead f p s
  | .fwStage f p => Sys2Proof.Machine.execFwStage f p s
  | .fwActivate f p => Sys2Proof.Machine.execFwActivate f p s
  | .fwCommit f p => Sys2Proof.Machine.execFwCommit f p s
  | .fwQuery f p => Sys2Proof.Machine.execFwQuery f p s
  | .cfgWrite f p => Sys2Proof.Machine.execCfgWrite f p s
  | .fwRestart f p => Sys2Proof.Machine.execFwRestart f p s
  | .calibPeriod f p => Sys2Proof.Machine.execCalibPeriod f p s
  | .svcConfig f p => Sys2Proof.Machine.execSvcConfig f p s
  | .parkShare f p => Sys2Proof.Machine.execParkShare f p s
  | .ucodeQuery f p => Sys2Proof.Machine.execUcodeQuery f p s
  | .lvrStatus f p => Sys2Proof.Machine.execLvrStatus f p s
  | .thermCfg f p => Sys2Proof.Machine.execThermCfg f p s
  | .gateCfg f p => Sys2Proof.Machine.execGateCfg f p s
  | .groupBudget f p => Sys2Proof.Machine.execGroupBudget f p s
  | .floorCfg f p => Sys2Proof.Machine.execFloorCfg f p s
  | .unknownMtype f p => Sys2Proof.Machine.execUnknownMtype f p s
  | .mailboxWorkDone flashOk => Sys2Proof.Machine.execMailboxWorkDone flashOk s
  | .trialWindowEnd => Sys2Proof.Machine.execTrialWindowEnd s
  | .wdogExpire p pc => Sys2Proof.Machine.execWdogExpire p pc s
  | .fatalExc p cause pc => Sys2Proof.Machine.execFatalExc p cause pc s
  | .windowViol p addr rights => Sys2Proof.Machine.execWindowViol p addr rights s
  | .restartDone p => Sys2Proof.Machine.execRestartDone p s
  | .plannedRestart p => Sys2Proof.Machine.execPlannedRestart p s
  | .romBoot => Sys2Proof.Machine.execRomBoot s
  | .firstStageRelease => Sys2Proof.Machine.execFirstStageRelease s
  | .stackInService st => Sys2Proof.Machine.execStackInService st s
  | .stackTrainingFail st => Sys2Proof.Machine.execStackTrainingFail st s
  | .coldResetAssert => Sys2Proof.Machine.execColdResetAssert s
  | .coldResetRelease => Sys2Proof.Machine.execColdResetRelease s
  | .pwrGoodLow => Sys2Proof.Machine.execPwrGoodLow s
  | .perstAssert port => Sys2Proof.Machine.execPerstAssert port s
  | .hostLinkLoss port => Sys2Proof.Machine.execHostLinkLoss port s
  | .functionLevelReset f => Sys2Proof.Machine.execFunctionLevelReset f s
  | .caseRst v a => Sys2Proof.Machine.execCaseRst v a s
  | .devRst v a => Sys2Proof.Machine.execDevRst v a s
  | .adminQueueEnable f a => Sys2Proof.Machine.execAdminQueueEnable f a s
  | .adminQueueDisable f a => Sys2Proof.Machine.execAdminQueueDisable f a s
  | .adminQueueDrained f => Sys2Proof.Machine.execAdminQueueDrained f s
  | .apertureWindowWrite f win a => Sys2Proof.Machine.execApertureWindowWrite f win a s
  | .compatLevelWrite v a => Sys2Proof.Machine.execCompatLevelWrite v a s
  | .eccCeCfgWrite v a => Sys2Proof.Machine.execEccCeCfgWrite v a s
  | .eccCeClr v a => Sys2Proof.Machine.execEccCeClr v a s
  | .registerWrite v off a => Sys2Proof.Machine.execRegisterWrite v off a s
  | .mgmtRegisterRead off pecOk => Sys2Proof.Machine.execMgmtRegisterRead off pecOk s
  | .mgmtRegisterWrite off v pecOk => Sys2Proof.Machine.execMgmtRegisterWrite off v pecOk s
  | .mgmtAccessDone => Sys2Proof.Machine.execMgmtAccessDone s
  | .mgmtResultRead => Sys2Proof.Machine.execMgmtResultRead s
  | .mgmtAlertResponse => Sys2Proof.Machine.execMgmtAlertResponse s
  | .idcode => Sys2Proof.Machine.execIdcode s
  | .bypass => Sys2Proof.Machine.execBypass s
  | .samplePreload => Sys2Proof.Machine.execSamplePreload s
  | .extest => Sys2Proof.Machine.execExtest s
  | .extestPulse => Sys2Proof.Machine.execExtestPulse s
  | .extestTrain => Sys2Proof.Machine.execExtestTrain s
  | .testLogicReset => Sys2Proof.Machine.execTestLogicReset s
  | .perstDeassert port => Sys2Proof.Machine.execPerstDeassert port s
  | .leaveAcknowledged => Sys2Proof.Machine.execLeaveAcknowledged s
  | .lostLintelAnnouncement m => Sys2Proof.Machine.execLostLintelAnnouncement m s
  | .lintelStepReport rank cas step epoch want => Sys2Proof.Machine.execLintelStepReport rank cas step epoch want s
  | .raiseRequest src level => Sys2Proof.Machine.execRaiseRequest src level s
  | .managementMessageRepeat n => Sys2Proof.Machine.execManagementMessageRepeat n s
  | .selftestDone cas res => Sys2Proof.Machine.execSelftestDone cas res s
  | .resetComplete n => Sys2Proof.Machine.execResetComplete n s

end Sys2Proof.Machine
end

