-- ==== Sys2Proof/Machine/Idle.lean ====
section
/-! DEFINITION. The passing of time when no command waits. -/

namespace Sys2Proof.Machine

/-- One cycle of the leaf counters (01 R34) and of the compute clock, in which tiles issue, read and write (04 R148, R149); both stand while COLD_RST_N or
PWR_GOOD is low. Whatever else happens at a time is a command of its own (log 2, log 3). -/
def idle (s : State) : State := if s.dev.inReset then s else passCycle s

end Sys2Proof.Machine
end

