-- ==== Sys2Proof/WellFormed.lean ====
section
/-! DEFINITION. Which commands a sender can send: every operand that names a resource names one the spec gives the module. -/

namespace Sys2Proof

/-- The key of a queue: a function admin queue (02 R45, R79), or queue 0 to 3 of a context 0 to 4,095 (11 R413). -/
def queueOk (q : Nat) : Bool := decide (q < 34) || (decide (64 ≤ q) && decide (q < 64 + 4096 * 4))

/-- Inline payload: whole 64-byte slots, at most fifteen (02 R57, R59). -/
def slotsOk (pl : List Byte) : Bool := pl.length % 64 = 0 && decide (pl.length ≤ 960)

/-- One of 2 × 17 functions (02 R79). -/
def fnOk (f : Nat) : Bool := decide (f < 34)

def viewOk (v : View) : Bool := match v with | .fn f => fnOk f | .mp => true

/-- A cluster, stack, bank set, port, far port, processor, leaf, casement, rank (00 Table 0.3; 10 R362; 13 R464; 11 R407). -/
def clOk (n : Nat) : Bool := decide (n < 128)
def stackOk (n : Nat) : Bool := decide (n < 12)
def bankOk (n : Nat) : Bool := decide (n < 64)
def portOk (n : Nat) : Bool := decide (n < 16)
def pairOk (n : Nat) : Bool := decide (n < 2)
def procOk (n : Nat) : Bool := decide (n < 6)
def casOk (n : Nat) : Bool := decide (n < 16)
def rankOk (n : Nat) : Bool := decide (n < 16384)
def ctxOk (n : Nat) : Bool := decide (n < 4096)

/-- An offset inside a BAR0 of 2^25 bytes (00 R17; 16 Table 16.1). -/
def offOk (n : Nat) : Bool := decide (n < 2 ^ 25)

/-- The offset of a doorbell, a register of 8 bytes (16 R551). -/
def bellOk (n : Nat) : Bool := n % 8 = 0 && offOk n

/-- A power-gated unit (01 Table 1.7). -/
def unitOk (u : GUnit) : Bool :=
  match u with
  | .cluster n => clOk n
  | .stack n => stackOk n
  | .pivot n => decide (n < 32)
  | .wicket n => decide (n < 4)
  | .mullion n => pairOk n

/-- A command that can be sent. -/
def Instr.wf (i : Instr) : Bool :=
  match i with
  | .submissionDoorbell f off _ => fnOk f && bellOk off
  | .completionDoorbell f off _ => fnOk f && bellOk off
  | .unknownOpcode q _ pl => queueOk q && slotsOk pl
  | .nop q _ pl => queueOk q && slotsOk pl
  | .ctxCreate q _ pl => queueOk q && slotsOk pl
  | .ctxDestroy q _ pl => queueOk q && slotsOk pl
  | .queueCreate q _ pl => queueOk q && slotsOk pl
  | .queueDestroy q _ pl => queueOk q && slotsOk pl
  | .queueResume q _ pl => queueOk q && slotsOk pl
  | .caseAssign q _ pl => queueOk q && slotsOk pl
  | .caseRelease q _ pl => queueOk q && slotsOk pl
  | .ctxMigrate q _ pl => queueOk q && slotsOk pl
  | .ctxPriority q _ pl => queueOk q && slotsOk pl
  | .memAlloc q _ pl => queueOk q && slotsOk pl
  | .memFree q _ pl => queueOk q && slotsOk pl
  | .memMapHost q _ pl => queueOk q && slotsOk pl
  | .memFence q _ pl => queueOk q && slotsOk pl
  | .memCopy q _ pl => queueOk q && slotsOk pl
  | .memFill q _ pl => queueOk q && slotsOk pl
  | .descCreate q _ pl => queueOk q && slotsOk pl
  | .descDestroy q _ pl => queueOk q && slotsOk pl
  | .progLoad q _ pl => queueOk q && slotsOk pl
  | .progRun q _ pl => queueOk q && slotsOk pl
  | .progRunCompletion _ => true
  | .progUnload q _ pl => queueOk q && slotsOk pl
  | .skiplogRead q _ pl => queueOk q && slotsOk pl
  | .latchAlloc q _ pl => queueOk q && slotsOk pl
  | .latchFree q _ pl => queueOk q && slotsOk pl
  | .latchSignal q _ pl => queueOk q && slotsOk pl
  | .latchWait q _ pl => queueOk q && slotsOk pl
  | .latchPoison q _ pl => queueOk q && slotsOk pl
  | .latchRead q _ pl => queueOk q && slotsOk pl
  | .latchWaitEval l => decide (l < 16384)
  | .headerLatchSignal q _ => queueOk q
  | .completionRecordPost q => queueOk q
  | .seqOpen q _ pl => queueOk q && slotsOk pl
  | .seqCommit q _ pl => queueOk q && slotsOk pl
  | .seqDrop q _ pl => queueOk q && slotsOk pl
  | .seqClose q _ pl => queueOk q && slotsOk pl
  | .pageFreeDeferred pmi => decide (pmi < 65536)
  | .reqSubmit q _ pl => queueOk q && slotsOk pl
  | .reqCancel q _ pl => queueOk q && slotsOk pl
  | .reqPark q _ pl => queueOk q && slotsOk pl
  | .reqResume q _ pl => queueOk q && slotsOk pl
  | .scrubRange q _ pl => queueOk q && slotsOk pl
  | .selftest q _ pl => queueOk q && slotsOk pl
  | .eccTest q _ pl => queueOk q && slotsOk pl
  | .linkCalib q _ pl => queueOk q && slotsOk pl
  | .fabJoin q _ pl => queueOk q && slotsOk pl
  | .fabLeave q _ pl => queueOk q && slotsOk pl
  | .fabStatus q _ pl => queueOk q && slotsOk pl
  | .pwrSetLimit q _ pl => queueOk q && slotsOk pl
  | .pwrRead q _ pl => queueOk q && slotsOk pl
  | .add cl _ => clOk cl
  | .sub cl _ => clOk cl
  | .mul cl _ => clOk cl
  | .shl cl _ => clOk cl
  | .shr cl _ => clOk cl
  | .sra cl _ => clOk cl
  | .andB cl _ => clOk cl
  | .orB cl _ => clOk cl
  | .xorB cl _ => clOk cl
  | .minS cl _ => clOk cl
  | .maxS cl _ => clOk cl
  | .minu cl _ => clOk cl
  | .maxu cl _ => clOk cl
  | .addi cl _ => clOk cl
  | .subi cl _ => clOk cl
  | .muli cl _ => clOk cl
  | .shli cl _ => clOk cl
  | .shri cl _ => clOk cl
  | .srai cl _ => clOk cl
  | .andi cl _ => clOk cl
  | .ori cl _ => clOk cl
  | .xori cl _ => clOk cl
  | .mini cl _ => clOk cl
  | .maxi cl _ => clOk cl
  | .minui cl _ => clOk cl
  | .maxui cl _ => clOk cl
  | .movi cl _ => clOk cl
  | .movhi cl _ => clOk cl
  | .gset cl _ => clOk cl
  | .gnext cl _ => clOk cl
  | .greset cl _ => clOk cl
  | .loopOp cl _ => clOk cl
  | .cmp cl _ => clOk cl
  | .cmpi cl _ => clOk cl
  | .pand cl _ => clOk cl
  | .por cl _ => clOk cl
  | .pnot cl _ => clOk cl
  | .br cl _ => clOk cl
  | .brl cl _ => clOk cl
  | .brlResolve cl => clOk cl
  | .ldl cl _ => clOk cl
  | .stl cl _ => clOk cl
  | .lds cl _ => clOk cl
  | .sts cl _ => clOk cl
  | .push cl _ => clOk cl
  | .waitl cl _ => clOk cl
  | .sigl cl _ => clOk cl
  | .siglSignal cl _ => clOk cl
  | .poisl cl _ => clOk cl
  | .hinge cl _ => clOk cl
  | .endProgram cl _ => clOk cl
  | .illegalOp cl _ => clOk cl
  | .mma cl _ => clOk cl
  | .drain cl _ => clOk cl
  | .tnop cl _ => clOk cl
  | .move cl _ => clOk cl
  | .prefetch cl _ => clOk cl
  | .loadop cl _ => clOk cl
  | .gemv cl _ => clOk cl
  | .ewise cl _ => clOk cl
  | .norm cl _ => clOk cl
  | .deq cl _ => clOk cl
  | .topk cl _ => clOk cl
  | .sqGather cl _ => clOk cl
  | .smxArm cl _ => clOk cl
  | .smxNorm cl _ => clOk cl
  | .ucall cl _ => clOk cl
  | .kvScore cl _ => clOk cl
  | .kvApply cl _ => clOk cl
  | .smxMerge cl _ => clOk cl
  | .gate cl _ => clOk cl
  | .combine cl _ => clOk cl
  | .select cl _ => clOk cl
  | .stepRecord cl _ => clOk cl
  | .allreduce cl _ => clOk cl
  | .reduceScatter cl _ => clOk cl
  | .allgather cl _ => clOk cl
  | .broadcast cl _ => clOk cl
  | .mqGather cl _ => clOk cl
  | .dispatch cl _ => clOk cl
  | .returnRows cl _ => clOk cl
  | .ringShift cl _ => clOk cl
  | .barrier cl _ => clOk cl
  | .engineCommandCompletion cl _ => clOk cl
  | .runStart => true
  | .quantumExpiry _ => true
  | .hingePointReached _ => true
  | .hingeLate cl => clOk cl
  | .shutterSave _ cl => clOk cl
  | .runRestore _ => true
  | .migrationDrainTimeout c => ctxOk c
  | .burstYield st bs => stackOk st && bankOk bs
  | .refreshDue st bs => stackOk st && bankOk bs
  | .forcedRefresh st bs => stackOk st && bankOk bs
  | .opportunisticRefresh st bs => stackOk st && bankOk bs
  | .refreshComplete st bs => stackOk st && bankOk bs
  | .hostApertureRead f win off _ => fnOk f && decide (win < 64) && decide (off < 2 ^ 32)
  | .hostApertureWrite f win off _ => fnOk f && decide (win < 64) && decide (off < 2 ^ 32)
  | .atomicopRequest f win off => fnOk f && decide (win < 64) && decide (off < 2 ^ 32)
  | .letterboxLineDrain st _ => stackOk st
  | .mergeEntryDrain st _ => stackOk st
  | .patrolRow st => stackOk st
  | .eccBucketLeak st => stackOk st
  | .zeroFillDone _ => true
  | .unitGate u => unitOk u
  | .unitWakeDone u => unitOk u
  | .microcodeSwap leaf _ => pairOk leaf
  | .sensorSample _ _ => true
  | .thermalTrip _ => true
  | .tripClear v _ => viewOk v
  | .thermFaultClear v _ => viewOk v
  | .diodeCalibration _ => true
  | .controlStep _ _ _ => true
  | .thermalStepRelease u => decide (u < 14)
  | .floorEngage _ => true
  | .floorRelease _ => true
  | .slowNoticeRenew => true
  | .slowNoticeReceive _ => true
  | .slowNoticeLapse origin => rankOk origin
  | .linkLightOn p _ => portOk p
  | .linkLightLost p _ => portOk p
  | .lanesLocked p => portOk p
  | .negotiationComplete p _ => portOk p
  | .laneFail p lane => portOk p && decide (lane < 10)
  | .flitReceive p _ => portOk p
  | .negativeAck p _ => portOk p
  | .replayTimeout p => portOk p
  | .laneCalibration p lane => portOk p && decide (lane < 4)
  | .calibrationPeriod leaf => pairOk leaf
  | .stepTimeout _ => true
  | .joinAnnounce _ => true
  | .joinAnnounceRepeat => true
  | .joinRefuse _ => true
  | .groupCommit _ => true
  | .groupAbort => true
  | .formationTimeout => true
  | .lintelBeatSend => true
  | .lintelBeat => true
  | .lintelLost => true
  | .lintelAnnounceTimeout => true
  | .peerLostReport src lost => rankOk src && rankOk lost
  | .memberLost rank => rankOk rank
  | .leave rank => rankOk rank
  | .planPublish _ => true
  | .planGraceExpiry _ => true
  | .placeStage _ => true
  | .placeStaged rank cas _ => rankOk rank && casOk cas
  | .placeStagedTimeout cas => casOk cas
  | .placeCommit cas _ => casOk cas
  | .placeAbort cas => casOk cas
  | .stepReport cas => casOk cas
  | .placeRelease cas => casOk cas
  | .powerShare _ => true
  | .powerShareSend => true
  | .stepBoundary cas => casOk cas
  | .parkStep _ => true
  | .restoreStep _ => true
  | .ttlSweep leaf => pairOk leaf
  | .farDirectoryWalk => true
  | .farPortBringup p _ => pairOk p
  | .farLinkDown p => pairOk p
  | .farLinkUp p => pairOk p
  | .expanderEvent p _ => pairOk p
  | .fwVersion f p => fnOk f && procOk p
  | .traceSet f p => fnOk f && procOk p
  | .attest f p => fnOk f && procOk p
  | .certRead f p => fnOk f && procOk p
  | .fwStage f p => fnOk f && procOk p
  | .fwActivate f p => fnOk f && procOk p
  | .fwCommit f p => fnOk f && procOk p
  | .fwQuery f p => fnOk f && procOk p
  | .cfgWrite f p => fnOk f && procOk p
  | .fwRestart f p => fnOk f && procOk p
  | .calibPeriod f p => fnOk f && procOk p
  | .svcConfig f p => fnOk f && procOk p
  | .parkShare f p => fnOk f && procOk p
  | .ucodeQuery f p => fnOk f && procOk p
  | .lvrStatus f p => fnOk f && procOk p
  | .thermCfg f p => fnOk f && procOk p
  | .gateCfg f p => fnOk f && procOk p
  | .groupBudget f p => fnOk f && procOk p
  | .floorCfg f p => fnOk f && procOk p
  | .unknownMtype f p => fnOk f && procOk p
  | .mailboxWorkDone _ => true
  | .trialWindowEnd => true
  | .wdogExpire p _ => procOk p
  | .fatalExc p _ _ => procOk p
  | .windowViol p _ _ => procOk p
  | .restartDone p => procOk p
  | .plannedRestart p => procOk p
  | .romBoot => true
  | .firstStageRelease => true
  | .stackInService st => stackOk st
  | .stackTrainingFail st => stackOk st
  | .coldResetAssert => true
  | .coldResetRelease => true
  | .pwrGoodLow => true
  | .perstAssert port => pairOk port
  | .hostLinkLoss port => pairOk port
  | .functionLevelReset f => fnOk f
  | .caseRst v _ => viewOk v
  | .devRst v _ => viewOk v
  | .adminQueueEnable f _ => fnOk f
  | .adminQueueDisable f _ => fnOk f
  | .adminQueueDrained f => fnOk f
  | .apertureWindowWrite f win _ => fnOk f && decide (win < 64)
  | .compatLevelWrite v _ => viewOk v
  | .eccCeCfgWrite v _ => viewOk v
  | .eccCeClr v _ => viewOk v
  | .registerWrite v off _ => viewOk v && offOk off
  | .mgmtRegisterRead off _ => offOk off
  | .mgmtRegisterWrite off _ _ => offOk off
  | .mgmtAccessDone => true
  | .mgmtResultRead => true
  | .mgmtAlertResponse => true
  | .idcode => true
  | .bypass => true
  | .samplePreload => true
  | .extest => true
  | .extestPulse => true
  | .extestTrain => true
  | .testLogicReset => true
  | .perstDeassert port => pairOk port
  | .leaveAcknowledged => true
  | .lostLintelAnnouncement _ => true
  | .lintelStepReport rank cas _ _ _ => rankOk rank && casOk cas
  | .raiseRequest src _ => rankOk src
  | .managementMessageRepeat _ => true
  | .selftestDone cas _ => casOk cas
  | .resetComplete _ => true

end Sys2Proof
end

