-- ==== Sys2Proof/Safety.lean ====
section
/-! DEFINITION. The terms that claims about the module use: the canonical form of its memories, what no command changes, and safe outcomes. -/

namespace Sys2Proof.Machine

/-- Every byte memory of the module is in its canonical form: addresses strictly rising, no byte 0 listed. -/
structure MemOk (s : State) : Prop where
  mbxBuf     : Memory.wf s.mbxBuf = true
  localMem   : Memory.wf s.localMem = true
  sharedMem  : Memory.wf s.sharedMem = true
  tileMem    : Memory.wf s.tileMem = true
  stackMem   : Memory.wf s.stackMem = true
  farMem     : Memory.wf s.farMem = true
  hostMem    : Memory.wf s.hostMem = true

/-- The fuses are `F`, the commands still waiting are `P`, and every memory is canonical. A command keeps this whatever F and P are: no command
touches a fuse (16 R555), or the queue of commands. -/
structure Good (F : Fuse) (P : List Instr) (s : State) : Prop where
  fuse    : s.fuse = F
  pending : s.pending = P
  mem     : MemOk s

/-- What every command leaves as it found it: the fuses and the waiting commands; and a canonical memory stays canonical. -/
structure Kept (s t : State) : Prop where
  fuse    : t.fuse = s.fuse
  pending : t.pending = s.pending
  mem     : MemOk s → MemOk t

/-! The same of a state that comes in a pair, in an option, or as an outcome. -/

/-- The state that comes first in a pair is good. -/
def GoodL {α : Type} (F : Fuse) (P : List Instr) (p : State × α) : Prop := Good F P p.1

/-- The state that comes second in a pair is good. -/
def GoodR {α : Type} (F : Fuse) (P : List Instr) (p : α × State) : Prop := Good F P p.2

/-- The state, if there is one, is good. -/
def GoodO (F : Fuse) (P : List Instr) (o : Option State) : Prop := ∀ t, o = some t → Good F P t

/-- The state of the pair, if there is one, is good. -/
def GoodOR {α : Type} (F : Fuse) (P : List Instr) (o : Option (α × State)) : Prop := ∀ p, o = some p → Good F P p.2

/-- The command goes on, and to a good state. -/
def GoodN (F : Fuse) (P : List Instr) (o : Host.Outcome State Fault Refusal) : Prop := ∃ t, o = .next t ∧ Good F P t

/-- A safe outcome: the module goes on. -/
def Goes (o : Host.Outcome State Fault Refusal) : Prop := ∃ t, o = .next t

end Sys2Proof.Machine
end

