-- ==== Sys2Proof/Certificates/Slice0/Obligations.lean ====
section
/-! DEFINITION. The statements put to the provers: one `def Obligations.<Name> : Prop` each, and the terms they share. `goneOn`, `begun`, `settled` and the
like name a state that a command leaves; a conclusion `exec c s = .next t` says that the command completes in t. A statement over several groups of
commands joins the parts that stand before it. -/

namespace Sys2Proof.Claims

open Sys2Proof Sys2Proof.Machine

/-- Both leaf counters one cycle on (01 R34). -/
def ticked (s : State) : State := s.onDev (fun d => { d with ctr := tset (tset d.ctr 0 (tgetD d.ctr 0 0 + 1)) 1 (tgetD d.ctr 1 0 + 1) })

/-- No core has an engine command left, and no tile has one in flight. -/
def Unbusy (s : State) : Prop := (∀ e ∈ s.core, (s.coreAt e.1).eq = []) ∧ ∀ e ∈ s.tile, e.2.fl = []

/-- The core of cluster `cl` issues `w`, whose OP is `op` (03 R91; that a row acts only there is the model's choice, log 32), and its guard holds (R92). -/
def Issues (op cl : Nat) (w : Word) (s : State) : Prop := issues s cl w [op] = true ∧ guardHolds (s.coreAt cl) w = true

/-- Core `cl` changed by `g` has gone on behind the instruction it issued (03 R91, R94); nothing else of the module has changed. -/
def goneOn (cl : Nat) (g : Core → Core) (s : State) : State := s.modCore cl (fun c => (g c).fallFrom c.pc)

/-- IMM32, sign-extended to 64 bits (03 R591). -/
def imm32 (w : Word) : Word := (w.extractLsb' 0 32).signExtend 64

/-- The scalar instructions with three registers: their rows, OPs and results (03 Table 3.17). -/
def threeRows : List ((Nat → Word → Instr) × Nat × (Word → Word → Word)) :=
  [(.add, 0x00, fun a b => a + b), (.sub, 0x01, fun a b => a - b), (.mul, 0x02, fun a b => BitVec.ofNat 64 (a.toNat * b.toNat)),
   (.shl, 0x03, fun a b => a <<< (b.toNat % 64)), (.shr, 0x04, fun a b => a >>> (b.toNat % 64)),
   (.sra, 0x05, fun a b => a.sshiftRight (b.toNat % 64)), (.andB, 0x06, fun a b => a &&& b), (.orB, 0x07, fun a b => a ||| b),
   (.xorB, 0x08, fun a b => a ^^^ b), (.minS, 0x09, fun a b => if a.toInt ≤ b.toInt then a else b),
   (.maxS, 0x0A, fun a b => if a.toInt ≤ b.toInt then b else a), (.minu, 0x0B, fun a b => if a.toNat ≤ b.toNat then a else b),
   (.maxu, 0x0C, fun a b => if a.toNat ≤ b.toNat then b else a)]

/-- The scalar instructions with an immediate: their rows, OPs, whether they shift, and results (03 Table 3.17). -/
def immRows : List ((Nat → Word → Instr) × Nat × Bool × (Word → Word → Word)) :=
  [(.addi, 0x10, false, fun a b => a + b), (.subi, 0x11, false, fun a b => a - b),
   (.muli, 0x12, false, fun a b => BitVec.ofNat 64 (a.toNat * b.toNat)), (.shli, 0x13, true, fun a b => a <<< (b.toNat % 64)),
   (.shri, 0x14, true, fun a b => a >>> (b.toNat % 64)), (.srai, 0x15, true, fun a b => a.sshiftRight (b.toNat % 64)),
   (.andi, 0x16, false, fun a b => a &&& b), (.ori, 0x17, false, fun a b => a ||| b), (.xori, 0x18, false, fun a b => a ^^^ b),
   (.mini, 0x19, false, fun a b => if a.toInt ≤ b.toInt then a else b), (.maxi, 0x1A, false, fun a b => if a.toInt ≤ b.toInt then b else a),
   (.minui, 0x1B, false, fun a b => if a.toNat ≤ b.toNat then a else b), (.maxui, 0x1C, false, fun a b => if a.toNat ≤ b.toNat then b else a)]

/-- Every control-core instruction word, as a row, with its OP (03 Table 3.17). -/
def coreRows : List ((Nat → Word → Instr) × Nat) :=
  threeRows.map (fun r => (r.1, r.2.1)) ++ immRows.map (fun r => (r.1, r.2.1))
  ++ [(.movi, 0x1E), (.movhi, 0x1F), (.gset, 0x20), (.gnext, 0x21), (.greset, 0x22), (.loopOp, 0x28), (.cmp, 0x30), (.cmpi, 0x31), (.pand, 0x32),
      (.por, 0x33), (.pnot, 0x34), (.br, 0x38), (.brl, 0x39), (.ldl, 0x40), (.stl, 0x41), (.lds, 0x42), (.sts, 0x43), (.push, 0x48), (.waitl, 0x50),
      (.sigl, 0x51), (.poisl, 0x52), (.hinge, 0x58), (.endProgram, 0x59)]

/-- The instructions that write nothing but registers of their core (03 Table 3.3: scalar, address, predicate and load classes). -/
def registerRows : List (Nat → Word → Instr) :=
  threeRows.map (fun r => r.1) ++ immRows.map (fun r => r.1) ++ [.movi, .movhi, .gset, .gnext, .greset, .loopOp, .cmp, .cmpi, .pand, .por, .pnot, .br, .ldl, .lds]

/-- The four indices of a generator after one more address (03 R93). -/
def advanced (n i : List (BitVec 32)) : List (BitVec 32) :=
  match n, i with
  | [n0, n1, n2, n3], [i0, i1, i2, i3] =>
    if i0.toNat + 1 < n0.toNat then [i0 + 1, i1, i2, i3]
    else if i1.toNat + 1 < n1.toNat then [0, i1 + 1, i2, i3]
    else if i2.toNat + 1 < n2.toNat then [0, 0, i2 + 1, i3]
    else if i3.toNat + 1 < n3.toNat then [0, 0, 0, i3 + 1]
    else [0, 0, 0, 0]
  | _, _ => i

/-- Xa + IMM32 of a load or store (03 R591). -/
def address (s : State) (cl : Nat) (w : Word) : Nat := ((s.coreAt cl).xr (iXA w) + imm32 w).toNat

/-- The latch that an instruction names in XD, owned by the context of the core's run. -/
def OwnsXd (cl : Nat) (w : Word) (s : State) : Prop := ownsLatch s (coreCtx s cl) ((s.coreAt cl).xr (iXD w)).toNat = true

end Sys2Proof.Claims

section Core

open Sys2Proof Sys2Proof.Machine Sys2Proof.Claims

/-- A step with command `c` at the front of the queue is exactly `exec c` on the state with the queue's rest. -/
def Obligations.StepRunsFrontCommand : Prop :=
  (∀ (c : Instr) (rest : List Instr) (s : State), s.pending = c :: rest → step s = exec c { s with pending := rest })
  ∧ ∀ (c : Instr) (s : State), step { s with pending := c :: s.pending } = exec c s

/-- The model's choice for a step without a command (log 2): outside cold reset each leaf counter counts one cycle (01 R34), and where a compute cycle
passes with it, as with each count at 1,050 MHz and every second one in ajar service (01 R33), tile commands whose cycle has come issue and the tiles
read and write (04 R148, R149). With no such command in the module the counts are all that changes; while COLD_RST_N or PWR_GOOD is low nothing
changes, and while the compute clocks stand only the leaf counters count. -/
def Obligations.IdleStepCountsOneCycle : Prop :=
  ∀ s : State, s.pending = [] →
    (s.dev.inReset = true → step s = .next s)
    ∧ (s.dev.inReset = false →
        step s = .next (passCycle s) ∧ (ticked s).ctr 0 = s.ctr 0 + 1 ∧ (ticked s).ctr 1 = s.ctr 1 + 1
        ∧ (computes (ticked s) = (!s.dev.clockStop && (s.dev.service ≠ .ajar || ((ticked s).ctr 0).getLsbD 0)))
        ∧ (computes (ticked s) = false → passCycle s = ticked s)
        ∧ (computes (ticked s) = true → passCycle s = tilesTick (issueAll (ticked s))
            ∧ (Unbusy s → passCycle s = (ticked s).onDev (fun d => { d with cycle := d.cycle + 1 }))))

/-- No command ends in a fault or a refusal: whatever state it meets, the module goes on, with the same fuses (16 R555) and the commands that wait as they
were. -/
def Obligations.EveryCommandGoesOn : Prop := ∀ (c : Instr) (s : State), ∃ t, exec c s = .next t ∧ t.fuse = s.fuse ∧ t.pending = s.pending

/-- Every step, from any state whose seven byte memories are canonical (addresses strictly rising, no zero byte listed), gives a state whose
memories are canonical, with the same fuses and the queue's rest. The canonical form is the model's own (log 6). -/
def Obligations.StepKeepsMemoriesCanonical : Prop :=
  ∀ s : State, MemOk s → ∃ t, step s = .next t ∧ MemOk t ∧ t.fuse = s.fuse ∧ t.pending = s.pending.drop 1

/-- The state at reset has canonical memories, and no command waits. -/
def Obligations.ResetMemoriesCanonical : Prop := MemOk State.reset ∧ State.reset.pending = []

/-- What the spec says a module holds after reset: BOOT service with BOOT_LOCK 0 and no stack in service (16 Table 16.6, 15 R545), leaf counters 0
(01 R34), every aperture window closed (16 Table 16.11), THRESH 64, LEAK 1,000 ms, PERIOD 24 h (16 Table 16.21), limits 1,100 W (16 Table
16.26), FLOOR_STEP 8 and MARGIN 10 (14 R511), every port DOWN and no group (10 Table 10.3, 16 Table 16.27), no trip and no FAULT (16 Table 16.25),
casement 0 with every enabled resource where no configuration record stands (11 R410). The same of a module of either grade: a GX880-T has every
cluster and channel, a GX880-S two clusters fewer in each quadrant and all channels but 15 and 31 (00 R5-R8; 16 Table 16.3). -/
def Obligations.ResetHoldsStatedValues : Prop :=
  let s := State.reset
  s.dev.service = .boot ∧ s.dev.bootLock = false ∧ s.dev.stackIn = 0 ∧ s.dev.recovery = false ∧ s.dev.rst = false ∧ s.dev.caseRst = 0
  ∧ s.ctr 0 = 0 ∧ s.ctr 1 = 0 ∧ (∀ k, (s.apwAt k).enable = false) ∧ (∀ f, (s.fnAt f).enable = false ∧ (s.fnAt f).enabled = false)
  ∧ s.eccReg.thresh = 64 ∧ s.eccReg.leakMs = 1000 ∧ s.eccReg.period = 24 ∧ s.lvr.hostLim = 1100 ∧ s.lvr.floorStep = 8 ∧ s.lvr.margin = 10
  ∧ (∀ p, (s.portAt p).st = .down) ∧ s.fab.member = false ∧ s.therm.trip = false ∧ s.therm.fault = 0
  ∧ (s.casAt 0).clusters = s.fuse.clusterEn ∧ (s.casAt 0).pivot = s.fuse.pivotEn
  ∧ s.fuse.clusterEn = BitVec.allOnes 128 ∧ s.fuse.pivotEn = BitVec.allOnes 32 ∧ s.fuse.grade = 1
  ∧ ∀ f : Fuse, (State.resetWith f).fuse = f ∧ ((State.resetWith f).casAt 0).clusters = f.clusterEn ∧ ((State.resetWith f).casAt 0).pivot = f.pivotEn
    ∧ (f.grade = 1 → f.clusterEn = BitVec.allOnes 128 ∧ f.pivotEn = BitVec.allOnes 32)
    ∧ (f.grade = 2 → f.pivotEn = 0x7FFF7FFF ∧ ∀ q, q < 8 → ((List.range 16).filter (fun i => f.clusterEn.getLsbD (16 * q + i))).length = 14)
    ∧ (f.grade = 1 ∨ f.grade = 2)

/-- ADD, SUB, MUL, SHL, SHR, SRA, AND, OR, XOR, MIN, MAX, MINU, MAXU: Xd becomes the operation on Xa and Xb, the core goes on, and nothing else
changes (03 R591, Table 3.17). -/
def Sys2Proof.Claims.ThreeRegisterResults : Prop :=
  ∀ r ∈ threeRows, ∀ (cl : Nat) (w : Word) (s : State), Issues r.2.1 cl w s → fld w 36 0 = 0 →
    exec (r.1 cl w) s = .next (goneOn cl (fun c => c.setX (iXD w) (r.2.2 (c.xr (iXA w)) (c.xr (iXB w)))) s)

/-- ADDI, SUBI, MULI, SHLI, SHRI, SRAI, ANDI, ORI, XORI, MINI, MAXI, MINUI, MAXUI: Xd becomes the operation on Xa and the sign-extended IMM32 (a
shift takes 0 to 63); MOVI writes the immediate, MOVHI the upper half of Xd (03 R591, Table 3.17). -/
def Sys2Proof.Claims.ImmediateResults : Prop :=
  (∀ r ∈ immRows, ∀ (cl : Nat) (w : Word) (s : State), Issues r.2.1 cl w s → fld w 41 32 = 0 → (r.2.2.1 = true → fld w 31 0 < 64) →
    exec (r.1 cl w) s = .next (goneOn cl (fun c => c.setX (iXD w) (r.2.2.2 (c.xr (iXA w)) (imm32 w))) s))
  ∧ (∀ (cl : Nat) (w : Word) (s : State), Issues 0x1E cl w s → fld w 46 32 = 0 →
    exec (.movi cl w) s = .next (goneOn cl (fun c => c.setX (iXD w) (imm32 w)) s))
  ∧ ∀ (cl : Nat) (w : Word) (s : State), Issues 0x1F cl w s → fld w 46 32 = 0 →
    exec (.movhi cl w) s = .next (goneOn cl (fun c => c.setX (iXD w) (w.extractLsb' 0 32 ++ (c.xr (iXD w)).extractLsb' 0 32)) s)

/-- X0 reads as 0 and discards writes, every other register reads what was written to it last; P0 reads as 1 and discards writes (03 Table 3.1). -/
def Obligations.RegisterZeroAndPredicateZero : Prop :=
  (∀ (c : Core) (v : Word), c.xr 0 = 0 ∧ c.setX 0 v = c)
  ∧ (∀ (c : Core) (i : Nat) (v : Word), 0 < i → (c.setX i v).xr i = v ∧ ∀ j, j ≠ i → (c.setX i v).xr j = c.xr j)
  ∧ (∀ (c : Core) (b : Bool), c.pr 0 = true ∧ c.setP 0 b = c)
  ∧ ∀ (c : Core) (i : Nat) (b : Bool), 0 < i → i < 8 → (c.setP i b).pr i = b ∧ ∀ j, j ≠ i → (c.setP i b).pr j = c.pr j

/-- An instruction whose guard fails (predicate GP exclusive-or GN is 0) only lets the program counter go on: nothing is logged, the push counter
stays, and no other part of the module changes (03 R92). Every control-core instruction of Table 3.17. -/
def Obligations.FailedGuardHasNoEffect : Prop :=
  ∀ r ∈ coreRows, ∀ (cl : Nat) (w : Word) (s : State), issues s cl w [r.2] = true → ((s.coreAt cl).pr (iGP w) != iGN w) = false →
    exec (r.1 cl w) s = .next (goneOn cl id s) ∧ ((goneOn cl id s).coreAt cl).pushes = (s.coreAt cl).pushes
    ∧ ((goneOn cl id s).coreAt cl).x = (s.coreAt cl).x ∧ ((goneOn cl id s).coreAt cl).p = (s.coreAt cl).p

/-- The frame of the instructions that write only registers (scalar, address, loop, predicate, BR, LDL, LDS): nothing changes, or one core does and
keeps its push counter, queues, state, run and unresolved BRL, or the instruction is skipped: its core goes on and the skip is logged (03 R135). Other
cores, every memory, latch and register of the module stay. -/
def Obligations.RegisterInstructionsChangeOneCore : Prop :=
  ∀ i ∈ registerRows, ∀ (cl : Nat) (w : Word) (s t : State), exec (i cl w) s = .next t →
    t = s
    ∨ (∃ c : Core, t = s.modCore cl (fun _ => c) ∧ c.pushes = (s.coreAt cl).pushes ∧ c.eq = (s.coreAt cl).eq ∧ c.st = (s.coreAt cl).st
      ∧ c.run = (s.coreAt cl).run ∧ c.brls = (s.coreAt cl).brls ∧ c.sigls = (s.coreAt cl).sigls ∧ c.held = (s.coreAt cl).held)
    ∨ ∃ reason info, t = logSkip cl (s.coreAt cl).pc reason info (s.coreAt cl).pushes (s.ctr (leafOfCluster cl)) (goneOn cl id s)

/-- GNEXT Xd, Gn writes base + Σ index × stride of the four dimensions and advances the indices, index 0 first; GRESET sets all four to 0; GSET
loads the generator from the 128 bytes at Xa of local memory, all indices 0, and refuses a count of 0, skipped with BAD_FIELD, so that no generator it
loads holds one (03 R93, Table 3.17). -/
def Obligations.AddressGenerators : Prop :=
  (∀ (cl : Nat) (w : Word) (s : State) (b : Word) (n i : List (BitVec 32)) (k0 k1 k2 k3 : Word), Issues 0x21 cl w s → fld w 46 41 = 0 → fld w 36 0 = 0 →
    tgetD (s.coreAt cl).g (iG w) Gen.init = { base := b, count := n, stride := [k0, k1, k2, k3], index := i } → n.length = 4 → i.length = 4 →
    exec (.gnext cl w) s = .next (goneOn cl (fun c =>
      ({ c with g := tset c.g (iG w) { base := b, count := n, stride := [k0, k1, k2, k3], index := advanced n i } } : Core).setX (iXD w)
        (b + (nth i 0 0).setWidth 64 * k0 + (nth i 1 0).setWidth 64 * k1 + (nth i 2 0).setWidth 64 * k2 + (nth i 3 0).setWidth 64 * k3)) s))
  ∧ (∀ (cl : Nat) (w : Word) (s : State), Issues 0x22 cl w s → fld w 51 41 = 0 → fld w 36 0 = 0 →
    exec (.greset cl w) s = .next (goneOn cl (fun c => { c with g := tset c.g (iG w) { tgetD c.g (iG w) Gen.init with index := [0, 0, 0, 0] } }) s))
  ∧ (∀ (cl : Nat) (w : Word) (s : State) (a : Nat), Issues 0x20 cl w s → fld w 51 47 = 0 → fld w 41 41 = 0 → fld w 36 0 = 0 →
    a = ((s.coreAt cl).xr (iXA w)).toNat → a % 128 = 0 → a < 2 ^ 14 → genBad (mread s.localMem (cl * 2 ^ 14 + a) 128) = false →
    exec (.gset cl w) s = .next (goneOn cl (fun c => { c with g := tset c.g (iG w) (genOf (mread s.localMem (cl * 2 ^ 14 + a) 128)) }) s))
  ∧ ∀ (cl : Nat) (w : Word) (s : State) (a i : Nat), Issues 0x20 cl w s → (s.coreAt cl).brls = [] → a = ((s.coreAt cl).xr (iXA w)).toNat → a % 128 = 0 →
    a < 2 ^ 14 → i < 4 → leNat (mread s.localMem (cl * 2 ^ 14 + a + 16 + 16 * i) 4) = 0 →
    exec (.gset cl w) s = .next (logSkip cl (s.coreAt cl).pc 0x02 (iG w) (s.coreAt cl).pushes (s.ctr (leafOfCluster cl)) (goneOn cl id s))

/-- LOOP Ln, Xs, B opens a level over the B instructions that follow it with Ln = Xs; a count of 0 skips the body (03 R94). At the end of the body
the innermost level returns to its first instruction with its counter one lower, and closes with counter 0 after the last pass. -/
def Obligations.LoopLevels : Prop :=
  (∀ (cl : Nat) (w : Word) (s : State) (n : Nat), Issues 0x28 cl w s → n = ((s.coreAt cl).xr (iXA w)).toNat → n < 2 ^ 32 → (s.coreAt cl).loops = [] →
    fld w 49 47 = 0 → fld w 41 24 = 0 → 0 < iB w →
    (0 < n → exec (.loopOp cl w) s = .next (s.modCore cl (fun c => { c with
      l := tset c.l (iLN w) (BitVec.ofNat 32 n), loops := [{ ln := iLN w, first := c.pc + 1, last := c.pc + iB w }], pc := (c.pc + 1) % 2 ^ 24 })))
    ∧ (n = 0 → exec (.loopOp cl w) s = .next (s.modCore cl (fun c => { c with pc := (c.pc + iB w + 1) % 2 ^ 24 }))))
  ∧ ∀ (c : Core) (outer : List Level) (v : Level), c.loops = outer ++ [v] →
    (v.last ≠ c.pc → c.fallFrom c.pc = { c with pc := (c.pc + 1) % 2 ^ 24 })
    ∧ (v.last = c.pc → 1 < (tgetD c.l v.ln 0).toNat →
        c.fallFrom c.pc = { c with l := tset c.l v.ln (BitVec.ofNat 32 ((tgetD c.l v.ln 0).toNat - 1)), pc := v.first })
    ∧ (v.last = c.pc → (tgetD c.l v.ln 0).toNat ≤ 1 → outer = [] → c.fallFrom c.pc = { c with l := tset c.l v.ln 0, loops := [], pc := (c.pc + 1) % 2 ^ 24 })

/-- CMP and CMPI write their condition (EQ, NE, LT, GE signed, LTU, GEU) on Xa and Xb, or Xa and IMM32; PAND, POR and PNOT combine predicates
(03 R591, Table 3.17). -/
def Obligations.PredicateResults : Prop :=
  let cond := fun (k : Nat) (a b : Word) => k = 0 ∧ a = b ∨ k = 1 ∧ a ≠ b ∨ k = 2 ∧ a.toInt < b.toInt ∨ k = 3 ∧ b.toInt ≤ a.toInt
    ∨ k = 4 ∧ a.toNat < b.toNat ∨ k = 5 ∧ b.toNat ≤ a.toNat
  (∀ (cl : Nat) (w : Word) (s : State), Issues 0x30 cl w s → fld w 51 50 = 0 → fld w 33 0 = 0 → iCond w < 6 →
    ∃ b : Bool, (b = true ↔ cond (iCond w) ((s.coreAt cl).xr (iXA w)) ((s.coreAt cl).xr (iXB w)))
      ∧ exec (.cmp cl w) s = .next (goneOn cl (fun c => c.setP (iPD w) b) s))
  ∧ (∀ (cl : Nat) (w : Word) (s : State), Issues 0x31 cl w s → fld w 51 50 = 0 → fld w 41 37 = 0 → fld w 33 32 = 0 → iCond w < 6 →
    ∃ b : Bool, (b = true ↔ cond (iCond w) ((s.coreAt cl).xr (iXA w)) (imm32 w))
      ∧ exec (.cmpi cl w) s = .next (goneOn cl (fun c => c.setP (iPD w) b) s))
  ∧ (∀ r ∈ [((Instr.pand : Nat → Word → Instr), 0x32, fun a b : Bool => a && b), (Instr.por, 0x33, fun a b => a || b)],
    ∀ (cl : Nat) (w : Word) (s : State), Issues r.2.1 cl w s → fld w 51 50 = 0 → fld w 46 45 = 0 → fld w 41 40 = 0 → fld w 36 0 = 0 →
      exec (r.1 cl w) s = .next (goneOn cl (fun c => c.setP (iPD w) (r.2.2 (c.pr (iPA w)) (c.pr (iPB w)))) s))
  ∧ ∀ (cl : Nat) (w : Word) (s : State), Issues 0x34 cl w s → fld w 51 50 = 0 → fld w 46 45 = 0 → fld w 41 0 = 0 →
      exec (.pnot cl w) s = .next (goneOn cl (fun c => c.setP (iPD w) (!c.pr (iPA w))) s)

/-- BR goes to its own index plus DISP. BRL whose latch has reached XV resolves at once on the word at XA; one whose latch has not follows HINT and
leaves the core speculative, with its registers as its checkpoint; BRL_RESOLVE takes the first BRL whose latch has reached its value or is poisoned,
whether or not older ones wait: it confirms it where HINT was right, otherwise brings the checkpoint back and takes the other way, and on a poisoned
latch cancels every speculative command and stops the run (03 R117, R122, R123, R126, R591). -/
def Sys2Proof.Claims.Branches : Prop :=
  (∀ (cl : Nat) (w : Word) (s : State), Issues 0x38 cl w s → fld w 51 28 = 0 → fld w 3 0 = 0 →
    exec (.br cl w) s = .next (s.modCore cl (fun c => c.branchTo (branchTarget c.pc w))))
  ∧ (∀ (cl : Nat) (w : Word) (s : State) (c : Core) (l a : Nat) (v : Word) (go : Bool → State → State), Issues 0x39 cl w s → c = s.coreAt cl →
    fld w 3 0 = 0 → brlCond w < 6 → a = (c.xr (iXB w)).toNat → a % 8 = 0 → a + 8 ≤ 2 ^ 20 → l = (c.xr (iXD w)).toNat → OwnsXd cl w s →
    c.brls.length < 4 → v = c.xr (iXA w) →
    go = (fun b t => t.modCore cl (fun c => if b then c.branchTo (branchTarget c.pc w) else c.fallFrom c.pc)) →
    (waitOn s l v = .met →
      exec (.brl cl w) s = .next (go (condHolds (brlCond w) (BitVec.ofNat 64 (leNat (mread s.sharedMem (cl * 2 ^ 20 + a) 8))) (c.xr (brlXC w))) s))
    ∧ (waitOn s l v = .pending →
      exec (.brl cl w) s = .next (go (bitW w 28) ((s.onNextUid (fun n => n + 1)).modCore cl (fun c => { c with brls := c.brls ++ [
        { id := s.nextUid, pc := c.pc, latch := l, value := v, addr := a, cmp := c.xr (brlXC w), cond := brlCond w, target := branchTarget c.pc w,
          hint := bitW w 28, met := false, x := c.x, p := c.p, l := c.l, g := c.g, loops := c.loops }] })))))
  ∧ ∀ (cl : Nat) (s : State) (older : List Brl) (b : Brl) (rest : List Brl) (taken : Bool), (s.coreAt cl).brls = older ++ b :: rest →
    (∀ x ∈ older, brlWait s x = .pending) →
    taken = condHolds b.cond (BitVec.ofNat 64 (leNat (mread s.sharedMem (cl * 2 ^ 20 + b.addr) 8))) b.cmp →
    (brlWait s b = .met → exec (.brlResolve cl) s = .next (if taken = b.hint then confirmBrl cl b.id s else mispredict cl b taken s))
    ∧ (brlWait s b = .failed → exec (.brlResolve cl) s = .next (stopRun cl stLatchPoisoned b.pc 0 (cancelSpec cl (liveBrls s cl) s)))

/-- With four BRL unresolved a fifth stalls: nothing changes until one of them resolves. One that issues while its latch is pending makes one more
(03 R118). -/
def Sys2Proof.Claims.FifthBrlStalls : Prop :=
  (∀ (cl : Nat) (w : Word) (s : State), 4 ≤ (s.coreAt cl).brls.length → guardHolds (s.coreAt cl) w = true → exec (.brl cl w) s = .next s)
  ∧ ∀ (cl : Nat) (s : State), (∀ b ∈ (s.coreAt cl).brls, brlWait s b = .pending) → exec (.brlResolve cl) s = .next s

/-- LDL and LDS load the eight bytes at Xa + IMM32 of the local memory and the shared scratchpad into Xd, and nothing else changes but the program
counter; STL and STS store Xd there, the core goes on, and the run remembers the store (02 R69; log 8): no other byte of that memory changes, and nothing
else (03 R95, R591, Table 3.17). -/
def Obligations.LoadsAndStores : Prop :=
  (∀ (cl : Nat) (w : Word) (s : State), Issues 0x40 cl w s → fld w 41 32 = 0 → address s cl w % 8 = 0 → address s cl w + 8 ≤ 2 ^ 14 →
    exec (.ldl cl w) s = .next (goneOn cl (fun c => c.setX (iXD w) (BitVec.ofNat 64 (leNat (mread s.localMem (cl * 2 ^ 14 + address s cl w) 8)))) s))
  ∧ (∀ (cl : Nat) (w : Word) (s : State), Issues 0x42 cl w s → fld w 41 32 = 0 → address s cl w % 8 = 0 → address s cl w + 8 ≤ 2 ^ 20 →
    exec (.lds cl w) s = .next (goneOn cl (fun c => c.setX (iXD w) (BitVec.ofNat 64 (leNat (mread s.sharedMem (cl * 2 ^ 20 + address s cl w) 8)))) s))
  ∧ (∀ (cl : Nat) (w : Word) (s : State) (a : Nat) (m : Mem), Issues 0x41 cl w s → fld w 41 32 = 0 → address s cl w % 8 = 0 → address s cl w + 8 ≤ 2 ^ 14 →
    (s.coreAt cl).brls = [] → a = cl * 2 ^ 14 + address s cl w → m = mwrite s.localMem a (toLE ((s.coreAt cl).xr (iXD w)).toNat 8) →
    exec (.stl cl w) s = .next (goneOn cl id (coreWrote cl (5, a, 8) { s with localMem := m }))
    ∧ mread m a 8 = toLE ((s.coreAt cl).xr (iXD w)).toNat 8 ∧ ∀ b, b < a ∨ a + 8 ≤ b → mget m b = mget s.localMem b)
  ∧ ∀ (cl : Nat) (w : Word) (s : State) (a : Nat) (m : Mem), Issues 0x43 cl w s → fld w 41 32 = 0 → address s cl w % 8 = 0 → address s cl w + 8 ≤ 2 ^ 20 →
    (s.coreAt cl).brls = [] → a = cl * 2 ^ 20 + address s cl w → m = mwrite s.sharedMem a (toLE ((s.coreAt cl).xr (iXD w)).toNat 8) →
    exec (.sts cl w) s = .next (goneOn cl id (coreWrote cl (3, a, 8) { s with sharedMem := m }))
    ∧ mread m a 8 = toLE ((s.coreAt cl).xr (iXD w)).toNat 8 ∧ ∀ b, b < a ∨ a + 8 ≤ b → mget m b = mget s.sharedMem b

/-- The scalar instructions with three registers and with an immediate write Xd as Table 3.17 says (03 R591). -/
def Obligations.ScalarResults : Prop := Claims.ThreeRegisterResults ∧ Claims.ImmediateResults

/-- BR, BRL, BRL_RESOLVE and the limit of four unresolved BRL (03 R117, R118, R122, R123, R591). -/
def Obligations.BranchesAndSpeculation : Prop := Claims.Branches ∧ Claims.FifthBrlStalls

end Core

namespace Sys2Proof.Claims

open Sys2Proof Sys2Proof.Machine

/-- The command `uid` of core `cl` stands in queue `q` with opcode `op`, may start (03 R108, 05 R183, 07 R261, 08 R295), its WAIT, if it has one, is
satisfied or has been (03 R129, R134), and where its engine serves cores in turn the turn is this core's (07 R261, 08 R295; log 75). -/
structure Starts (q op cl uid : Nat) (e : ECmd) (s : State) : Prop where
  found : (s.coreAt cl).eq.find? (fun x => x.uid = uid) = some e
  queue : e.qk = q
  opcode : eEop e.words = op
  free  : mayStart s cl e = true
  wait  : eWaitEn e.words = true → e.met = true ∨ waitOn s (eWaitLatch e.words) e.words.w1 = .met
  turn  : q = 1 ∨ q = 3 → hasTurn s cl e = true

/-- The state in which what command `uid` is to do is tried: its accesses to gated units, and to bank sets inside a burst, are noted. -/
def tried (uid : Nat) (s : State) : State := s.onAcc (fun _ => { on := true, who := uid, units := [], banks := [] })

/-- What is to be done, `f`, meets no gated unit and no bank set inside a burst (01 R39, R41; 05 R204). -/
def Passes (uid : Nat) (f : State → State) (s : State) : Prop := (f (tried uid s)).acc.units = [] ∧ (f (tried uid s)).acc.banks = []

/-- The state after `f` where it meets nothing to wait for. -/
def passed (uid : Nat) (f : State → State) (s : State) : State := (f (tried uid s)).onAcc (fun _ => Reach.none)

/-- The state where it does: none of `f` has happened, the gated units that it met are to wake, and it waits at the bank sets (log 66). -/
def delayed (uid : Nat) (f : State → State) (s : State) : State :=
  forEach (f (tried uid s)).acc.banks (fun u s => s.modBank u (fun b => { b with dev := if b.dev.contains uid then b.dev else b.dev ++ [uid] }))
    (forEach (f (tried uid s)).acc.units wakeFor s)

/-- The Sill rows with their opcodes (05 Table 5.6); UCALL has rows of its own. -/
def sillRows : List ((Nat → Nat → Instr) × Nat) :=
  [(.loadop, 1), (.gemv, 2), (.ewise, 3), (.norm, 4), (.deq, 5), (.topk, 6), (.sqGather, 7), (.smxArm, 8), (.smxNorm, 9)]

/-- The rows of UCALL: the routines that the row runs (05 R202, 06 R249). -/
def ucallRows : List ((Nat → Nat → Instr) × (Nat → Bool)) :=
  [(.ucall, fun f => decide (2 < f)), (.kvScore, fun f => f = 0), (.kvApply, fun f => f = 1), (.smxMerge, fun f => f = 2)]

/-- The Wicket rows: opcode and work (08 Table 8.3). -/
def wicketRows : List ((Nat → Nat → Instr) × Nat × (Nat → Nat → Hdr → State → State × EOut)) :=
  [(.gate, 1, gateRun), (.combine, 2, combineRun), (.select, 3, selectRun), (.stepRecord, 4, stepRun)]

/-- The collectives with their opcodes (10 Table 10.9). -/
def mullionRows : List ((Nat → Nat → Instr) × Nat) :=
  [(.allreduce, 1), (.reduceScatter, 2), (.allgather, 3), (.broadcast, 4), (.mqGather, 5), (.dispatch, 6), (.returnRows, 7), (.ringShift, 8), (.barrier, 9)]

/-- Every engine row with its queue (03 Table 3.9) and opcode. -/
def engineRows : List ((Nat → Nat → Instr) × Nat × Nat) :=
  [(.mma, 0, 1), (.drain, 0, 2), (.tnop, 0, 3), (.move, 1, 1), (.prefetch, 1, 2)] ++ sillRows.map (fun r => (r.1, 2, r.2))
  ++ ucallRows.map (fun r => (r.1, 2, 10)) ++ wicketRows.map (fun r => (r.1, 3, r.2.1)) ++ mullionRows.map (fun r => (r.1, 4, r.2))

/-- A collective at its start: its fields out of the command's words (10 Table 10.8), its place in its plan's order, nothing sent or received. -/
def startedColl (cl uid ctx : Nat) (h : Hdr) (s : State) : Coll :=
  let c : Coll :=
    { cl := cl, uid := uid, ctx := ctx, plan := mPlan h, cseq := tgetD s.fab.cseqs (mPlan h) 0, kind := eEop h, fmt := mFmt h, rop := mRop h, root := mRoot h,
      dst := mDst h, src := mSrc h, count := mCount h, aux := mAux h, sum := mSum h, cluster := mCluster h, tout := fld h.w5 23 8, limit := 0, step := 0,
      posted := false, buf := [], recv := [], got := 0, flits := 0, counts := [], rowsIn := [], landed := [], sent := 0, back := 0, epoch := 0, disp := 0,
      finished := false }
  { c with limit := stepLimit s c }

/-- The next collective of a plan takes the next number of its order (10 R395). -/
def numbered (h : Hdr) (s : State) : State := s.onFab (fun x => { x with cseqs := tset x.cseqs (mPlan h) ((tgetD s.fab.cseqs (mPlan h) 0 + 1) % 2 ^ 16) })

/-- The buffer with which a collective other than DISPATCH and RETURN starts: the bytes read from SRC at the member's own place where each member gives a
part (ALLGATHER, GATHER), else from its start (10 Table 10.9). -/
def startBuf (c : Coll) (ranks : List Nat) (me : Nat) (bs : List Byte) : List Byte :=
  if c.kind = 3 ∨ c.kind = 5 then overlay (zeros (Coll.bufLen c ranks.length)) (teamIndex ranks me * c.count * c.esz) bs else padTo (Coll.bufLen c ranks.length) bs

end Sys2Proof.Claims

section Queues

open Sys2Proof Sys2Proof.Machine Sys2Proof.Claims

/-- WAITL goes on where its latch has reached XV, stalls the core where it has not, and stops the PROG_RUN with LATCH_POISONED where it is poisoned;
POISL poisons; SIGL signals at once where no earlier command of the queues in QMASK is left, and otherwise waits; SIGL_SIGNAL signals once they have
completed (03 R128, R134). -/
def Sys2Proof.Claims.LatchInstructions : Prop :=
  (∀ (cl : Nat) (w : Word) (s : State), Issues 0x50 cl w s → fld w 41 0 = 0 → OwnsXd cl w s → (s.coreAt cl).brls = [] →
    let l := ((s.coreAt cl).xr (iXD w)).toNat
    let v := (s.coreAt cl).xr (iXA w)
    (waitOn s l v = .met → exec (.waitl cl w) s = .next (goneOn cl id s))
    ∧ (waitOn s l v = .pending → exec (.waitl cl w) s = .next (s.modCore cl (fun c => { c.fallFrom c.pc with stall := some (l, v) })))
    ∧ (waitOn s l v = .failed → exec (.waitl cl w) s = .next (stopRun cl stLatchPoisoned (s.coreAt cl).pc 0 s)))
  ∧ (∀ (cl : Nat) (w : Word) (s : State), Issues 0x52 cl w s → fld w 46 0 = 0 → OwnsXd cl w s → (s.coreAt cl).brls = [] →
    exec (.poisl cl w) s = .next (goneOn cl id (poisonLatch ((s.coreAt cl).xr (iXD w)).toNat s)))
  ∧ (∀ (cl : Nat) (w : Word) (s : State), Issues 0x51 cl w s → fld w 35 0 = 0 → OwnsXd cl w s → (s.coreAt cl).brls = [] →
    let l := ((s.coreAt cl).xr (iXD w)).toNat
    let v := (s.coreAt cl).xr (iXA w)
    let deps := ((s.coreAt cl).eq.filter (fun e => (fld w 40 36).testBit e.qk)).map (fun e => e.uid)
    (deps = [] → exec (.sigl cl w) s = .next (goneOn cl id (signalLatch l v (bitW w 41) s)))
    ∧ (deps ≠ [] → exec (.sigl cl w) s = .next (goneOn cl
        (fun c => { c with sigls := c.sigls ++ [{ uid := s.nextUid, env := false, latch := l, value := v, add := bitW w 41, deps := deps }] })
        (s.onNextUid (fun n => n + 1)))))
  ∧ ∀ (cl uid : Nat) (s : State) (g : Sigl), (s.coreAt cl).sigls.find? (fun x => x.uid = uid && !x.env) = some g →
    (s.coreAt cl).eq.any (fun e => g.deps.contains e.uid) = false →
    exec (.siglSignal cl uid) s = .next ((signalLatch g.latch g.value g.add s).modCore cl (fun c => { c with sigls := c.sigls.filter (fun x => x.uid ≠ uid) }))

/-- PUSH builds the command from its template and patches; one that passes every check of the queue front end and finds its queue not full enters
it at the end, queued, and wakes its unit; it counts in the push counter on a confirmed path, and later on one that is not, where only a command with
SHADOW set enters, and none at or past STOP_INDEX; the core goes on behind the PUSH (03 R103, R105, R106, R119, R141; 01 R36). -/
def Obligations.PushEntersQueue : Prop :=
  ∀ (cl : Nat) (w : Word) (s t : State) (r : Nat) (x : Run) (h : Hdr), Issues 0x48 cl w s → coreRun s cl = some (r, x) →
    (s.coreAt cl).brls = [] ∨ (eShadow h = true ∧ (x.stopIndex = 0 ∨ (s.coreAt cl).pushes.toNat + specPushes (s.coreAt cl) < x.stopIndex.toNat)) →
    h = pushWords s cl w → pushCheck s cl x.ctx w h = (t, none) →
    ((s.coreAt cl).eq.filter (fun e => e.qk = pQueue w)).length < queueDepth (pQueue w) →
    exec (.push cl w) s = .next (wakeUnit (pQueue w) h (enqueue cl (s.coreAt cl).pc x.ctx (pQueue w) r h x.stopIndex (goneOn cl id t)))
    ∧ ∃ e : ECmd, ((enqueue cl (s.coreAt cl).pc x.ctx (pQueue w) r h x.stopIndex (goneOn cl id t)).coreAt cl).eq = (t.coreAt cl).eq ++ [e]
      ∧ e.words = h ∧ e.qk = pQueue w ∧ e.st = .queued ∧ e.ctx = x.ctx ∧ e.run = r ∧ e.spec = (t.coreAt cl).brls.map (fun b => b.id)

/-- HINGE goes on where no command pushed before the preceding HINGE is left, and with a stop request stops the core there (03 R111, R113); END ends
the core's program (R101); an OP that Table 3.17 does not name is skipped with ILLEGAL_OP: the program counter goes on and the skip is logged (R135,
R591). -/
def Sys2Proof.Claims.HingeEndAndIllegalOps : Prop :=
  (∀ (cl : Nat) (w : Word) (s : State), Issues 0x58 cl w s → fld w 51 0 = 0 → (s.coreAt cl).brls = [] →
    (s.coreAt cl).eq.any (fun e => (s.coreAt cl).prevHinge.contains e.uid) = false →
    exec (.hinge cl w) s = .next (goneOn cl (fun c => { c with prevHinge := c.eq.map (fun e => e.uid), st := if c.stopReq then .hinge else c.st }) s))
  ∧ (∀ (cl : Nat) (w : Word) (s : State), Issues 0x59 cl w s → fld w 51 0 = 0 → (s.coreAt cl).brls = [] →
    exec (.endProgram cl w) s = .next (s.modCore cl (fun c => { c with st := .ended })))
  ∧ ∀ (cl : Nat) (w : Word) (s : State), definedOps.contains (iOp w) = false → Issues (iOp w) cl w s → (s.coreAt cl).brls = [] →
    exec (.illegalOp cl w) s = .next (logSkip cl (s.coreAt cl).pc 0x01 noInfo (s.coreAt cl).pushes (s.ctr (leafOfCluster cl)) (goneOn cl id s))

/-- The latch operations: a signal sets VALUE to the greater value or adds to it, a sum past 2^64 - 1 poisons and leaves VALUE, a poisoned latch
ignores signals; a wait fails on poison, is satisfied at or above its value, and is pending below it (03 R128). -/
def Obligations.LatchOperations : Prop :=
  ∀ (l : Nat) (v : Word) (x : Latch) (s : State), s.getLatch l = some x →
    (signalLatch l v false s).getLatch l = some (if x.poison then x else { x with value := if x.value.toNat < v.toNat then v else x.value })
    ∧ (signalLatch l v true s).getLatch l = some (if x.poison then x else
        if x.value.toNat + v.toNat < 2 ^ 64 then { x with value := x.value + v } else { x with poison := true })
    ∧ (poisonLatch l s).getLatch l = some { x with poison := true }
    ∧ (∀ add, ∃ y, (signalLatch l v add s).getLatch l = some y ∧ x.value.toNat ≤ y.value.toNat)
    ∧ (waitOn s l v = .failed ↔ x.poison = true) ∧ (waitOn s l v = .met ↔ x.poison = false ∧ v.toNat ≤ x.value.toNat)
    ∧ (∀ k, k ≠ l → (signalLatch l v false s).getLatch k = s.getLatch k ∧ (signalLatch l v true s).getLatch k = s.getLatch k
        ∧ (poisonLatch l s).getLatch k = s.getLatch k)

/-- MMA, DRAIN and TNOP issue on each tile of their TARGET mask, in the cycle GAP cycles after the tile's last issue, or the next cycle where that is
later; in that cycle counted from zero the command's reads and writes begin, and it is in flight there (04 R147-R149). -/
def Obligations.TileCommandsIssue : Prop :=
  (∀ r ∈ [((Instr.mma : Nat → Nat → Instr), 1), (Instr.drain, 2), (Instr.tnop, 3)], ∀ (cl uid : Nat) (e : ECmd) (s : State), Starts 0 r.2 cl uid e s →
    exec (r.1 cl uid) s = .next (forEach ((bitsWhere 4 (fun i => (eTarget e.words).testBit i)).map (fun i => 4 * cl + i))
      (fun tl t => tileIssue tl uid r.2 e.ctx e.words (match coreRun s cl with | some (_, x) => x.watch | none => false) t)
      (setSt cl uid .running { s with acc := Reach.none })))
  ∧ ∀ (tl uid op ctx : Nat) (h : Hdr) (watch : Bool) (s : State),
    let c := Nat.max ((s.tileAt tl).lastIssue + tGap h) (s.dev.cycle + 1)
    ((tileIssue tl uid op ctx h watch s).tileAt tl).lastIssue = c
    ∧ (∃ x : Issued, ((tileIssue tl uid op ctx h watch s).tileAt tl).fl = (s.tileAt tl).fl ++ [x] ∧ x.uid = uid ∧ x.eop = op ∧ x.words = h ∧ x.t = c
        ∧ x.ctx = ctx ∧ x.failed = false ∧ x.ecc = none)
    ∧ ∀ k, k ≠ tl → (tileIssue tl uid op ctx h watch s).tileAt k = s.tileAt k

/-- MOVE runs its descriptor at its start and keeps its outcome for its completion; a write to a shared scratchpad by one that is not speculative ends
the staleness of the shadow buffers it meets. PREFETCH has no destination and ends at once (07 R272-R275, 03 R120, R124). An access to a gated unit or
inside a burst is not met here. -/
def Sys2Proof.Claims.PivotCommands : Prop :=
  (∀ (cl uid : Nat) (e : ECmd) (d : Desc) (s : State) (f : State → State), Starts 1 1 cl uid e s → s.getDesc (e.ctx * 65536 + qDesc e.words) = some d →
    (mdescOf d.bytes).dspace ≠ 2 ∨ e.spec ≠ [] →
    f = (fun t => endCmd cl uid (moveRun e.ctx uid e.words (mdescOf d.bytes) (begun cl e t)).2 (moveRun e.ctx uid e.words (mdescOf d.bytes) (begun cl e t)).1) →
    Passes uid f s → exec (.move cl uid) s = .next (passed uid f s))
  ∧ (∀ (cl uid : Nat) (e : ECmd) (d : Desc) (s : State) (m : MDesc) (lo : Nat) (f : State → State), Starts 1 1 cl uid e s →
    s.getDesc (e.ctx * 65536 + qDesc e.words) = some d → m = mdescOf d.bytes → m.dspace = 2 → e.spec = [] → lo = (m.dstFoot.1 + qDslide e.words).toNat →
    f = (fun t =>
      let u := (moveRun e.ctx uid e.words m (begun cl e t)).1
      let k := physOf u e.ctx (qCluster e.words)
      endCmd cl uid (moveRun e.ctx uid e.words m (begun cl e t)).2
        (freshen u k lo ((m.dstFoot.2 + qDslide e.words).toNat + 1 - lo) (shadowsOf u k))) →
    Passes uid f s → exec (.move cl uid) s = .next (passed uid f s))
  ∧ ∀ (cl uid : Nat) (e : ECmd) (s : State), Starts 1 2 cl uid e s →
    exec (.prefetch cl uid) s = .next (endCmd cl uid EOut.ok (begun cl e { s with acc := Reach.none }))

/-- The Sill commands (LOADOP, GEMV, EWISE, NORM, DEQ, TOPK, GATHER, SMX_ARM, SMX_NORM, and UCALL with the attention routines KV_SCORE, KV_APPLY and
SMX_MERGE) take every bank set of their BS_MASK in their stripe: the units go to the context, and where what it reads does not stop it each bank set
enters a burst for the command, one in a refresh when that ends; where it is stopped the command has that outcome (05 R183-R204, 06 R249-R253).
That the effect is made whole at the start is the model's choice (log 34). -/
def Obligations.SillCommands : Prop :=
  let env := fun (e : ECmd) (a : Alloc) => ({ ctx := e.ctx, uid := e.uid, a := a, stack := eTarget e.words, going := false } : SEnv)
  let us := fun (e : ECmd) => (ones (sBs e.words)).map (fun b => eTarget e.words * 64 + b)
  (∀ r ∈ sillRows, ∀ (cl uid : Nat) (e : ECmd) (s : State), Starts 2 r.2 cl uid e s → Passes uid (fun t => sillCmd cl e (begun cl e t)) s →
    exec (r.1 cl uid) s = .next (passed uid (fun t => sillCmd cl e (begun cl e t)) s))
  ∧ (∀ r ∈ ucallRows, ∀ (cl uid : Nat) (e : ECmd) (s : State), Starts 2 10 cl uid e s → r.2 (sFn e.words) = true →
    Passes uid (fun t => sillCmd cl e (begun cl e t)) s →
    exec (r.1 cl uid) s = .next (passed uid (fun t => sillCmd cl e (begun cl e t)) s))
  ∧ (∀ (cl : Nat) (e : ECmd) (a : Alloc) (s t : State), stripeOf s e.ctx (sStripe e.words) = some a →
    sillStart (env e a) e.words e.run (forEach (us e) (claimUnit e.ctx) s) = (t, none) →
    sillCmd cl e s = forEach (us e) (fun u x => x.modBank u (fun b => { b with busy := some e.uid, burst := !b.refresh, prog := 0, old := [] })) t)
  ∧ (∀ (cl : Nat) (e : ECmd) (a : Alloc) (o : EOut) (s t : State), stripeOf s e.ctx (sStripe e.words) = some a →
    sillStart (env e a) e.words e.run (forEach (us e) (claimUnit e.ctx) s) = (t, some o) → sillCmd cl e s = endCmd cl e.uid o t)
  ∧ ∀ (cl : Nat) (e : ECmd) (s : State), stripeOf s e.ctx (sStripe e.words) = none → sillCmd cl e s = endCmd cl e.uid (EOut.stop stPageFault 0) s

/-- The Wicket commands GATE, COMBINE, SELECT and STEP run at their start and keep their outcome for their completion (08 R302-R317). -/
def Sys2Proof.Claims.WicketCommands : Prop :=
  ∀ r ∈ wicketRows, ∀ (cl uid : Nat) (e : ECmd) (s : State) (f : State → State), Starts 3 r.2.1 cl uid e s →
    f = (fun t => endCmd cl uid (r.2.2 e.ctx uid e.words (begun cl e t)).2 (r.2.2 e.ctx uid e.words (begun cl e t)).1) →
    Passes uid f s → exec (r.1 cl uid) s = .next (passed uid f s)

/-- ALLREDUCE, REDUCE_SCATTER, ALLGATHER, BROADCAST, GATHER, RING_SHIFT and BARRIER start with the next number of their plan's order and their SRC's
bytes in their buffer, and go on as far as what has arrived allows; DISPATCH and RETURN send their counts and rows first; where SRC cannot be read the
collective stops, and on a plan that is gone or unusable it ends with PEER_LOST (10 R383, R393-R400).
That what a start does is made whole in one step is the model's choice (log 34). -/
def Obligations.CollectivesStart : Prop :=
  (∀ r ∈ mullionRows, ∀ (cl uid : Nat) (e : ECmd) (s : State) (p : Plan) (t : State) (bs : List Byte) (c : Coll), Starts 4 r.2 cl uid e s →
    s.getPlan (mPlan e.words) = some p → p.usable = true → r.2 ≠ 6 → r.2 ≠ 7 → c = startedColl cl uid e.ctx e.words s →
    vRd e.ctx c.src (Coll.srcLen c p.ranks.length s.fab.rank) (numbered e.words (begun cl e (tried uid s))) = (t, .ok bs) →
    (collGo uid (t.fab.early.length + 1) (t.putColl uid { c with buf := startBuf c p.ranks s.fab.rank bs })).acc.units = [] →
    (collGo uid (t.fab.early.length + 1) (t.putColl uid { c with buf := startBuf c p.ranks s.fab.rank bs })).acc.banks = [] →
    exec (r.1 cl uid) s = .next ((collGo uid (t.fab.early.length + 1) (t.putColl uid { c with buf := startBuf c p.ranks s.fab.rank bs })).onAcc
      (fun _ => Reach.none)))
  ∧ (∀ r ∈ mullionRows, ∀ (cl uid : Nat) (e : ECmd) (s : State), Starts 4 r.2 cl uid e s →
    (s.getPlan (mPlan e.words) = none ∨ ∃ p, s.getPlan (mPlan e.words) = some p ∧ p.usable = false) →
    exec (r.1 cl uid) s = .next (endCmd cl uid (EOut.stop 0x30 0) (begun cl e { s with acc := Reach.none })))
  ∧ ∀ (cl uid : Nat) (e : ECmd) (s : State) (p : Plan) (c : Coll) (f : State → State), s.getPlan (mPlan e.words) = some p → p.usable = true →
    (Starts 4 6 cl uid e s → c = startedColl cl uid e.ctx e.words s →
      f = (fun t => let x := dispatchSend uid c ((numbered e.words (begun cl e t)).putColl uid c)
        if x.2.st = stOK then collGo uid (x.1.fab.early.length + 1) x.1 else collStop uid x.2 x.1) →
      Passes uid f s → exec (.dispatch cl uid) s = .next (passed uid f s))
    ∧ (Starts 4 7 cl uid e s → c = { startedColl cl uid e.ctx e.words s with disp := dispOf s e.ctx (mPlan e.words) } →
      f = (fun t => let x := returnSend c ((numbered e.words (begun cl e t)).putColl uid c)
        if x.2.st = stOK then collGo uid (x.1.fab.early.length + 1) x.1 else collStop uid x.2 x.1) →
      Passes uid f s → exec (.returnRows cl uid) s = .next (passed uid f s))

/-- A command whose WAIT is pending does not start, and nothing changes; one whose WAIT fails stops its PROG_RUN with LATCH_POISONED, its envelope
latch poisoned, unless it is still speculative; a wait that has been satisfied stays so (03 R108, R125, R129, R134). One that meets a gated unit or a
bank set inside a burst has none of its effect: the unit is to wake, and it waits (01 R36, R39; 05 R204). Every engine row; of the Sill commands KV_SCORE
and KV_APPLY, which read tables in other memory. -/
def Sys2Proof.Claims.EngineWaitsHold : Prop :=
  (∀ r ∈ engineRows, ∀ (cl uid : Nat) (e : ECmd) (s : State), (s.coreAt cl).eq.find? (fun x => x.uid = uid) = some e → eWaitEn e.words = true →
    e.met = false →
    (waitOn s (eWaitLatch e.words) e.words.w1 = .pending → exec (r.1 cl uid) s = .next s)
    ∧ (waitOn s (eWaitLatch e.words) e.words.w1 = .failed → e.spec ≠ [] → exec (r.1 cl uid) s = .next s)
    ∧ (waitOn s (eWaitLatch e.words) e.words.w1 = .failed → e.spec = [] → e.qk = r.2.1 → eEop e.words = r.2.2 → r.2.2 ≠ 10 → mayStart s cl e = true →
        exec (r.1 cl uid) s = .next (stopRun cl stLatchPoisoned e.pc 0 (poisonEnv e s))))
  ∧ (∀ r ∈ [((Instr.kvScore : Nat → Nat → Instr), 0), (Instr.kvApply, 1)], ∀ (cl uid : Nat) (e : ECmd) (s : State), Starts 2 10 cl uid e s →
    sFn e.words = r.2 → ¬ Passes uid (fun t => sillCmd cl e (begun cl e t)) s →
    exec (r.1 cl uid) s = .next (delayed uid (fun t => sillCmd cl e (begun cl e t)) s))
  ∧ (∀ r ∈ wicketRows, ∀ (cl uid : Nat) (e : ECmd) (s : State), Starts 3 r.2.1 cl uid e s → ¬ Passes uid (fun t => wicketCmd r.2.2 cl e (begun cl e t)) s →
    exec (r.1 cl uid) s = .next (delayed uid (fun t => wicketCmd r.2.2 cl e (begun cl e t)) s))
  ∧ (∀ r ∈ mullionRows, ∀ (cl uid : Nat) (e : ECmd) (s : State), Starts 4 r.2 cl uid e s → ¬ Passes uid (fun t => collCmd cl e (begun cl e t)) s →
    exec (r.1 cl uid) s = .next (delayed uid (fun t => collCmd cl e (begun cl e t)) s))
  ∧ ∀ (cl uid : Nat) (e : ECmd) (s : State), Starts 1 1 cl uid e s → ¬ Passes uid (fun t => moveCmd cl e (begun cl e t)) s →
    exec (.move cl uid) s = .next (delayed uid (fun t => moveCmd cl e (begun cl e t)) s)

/-- ENGINE_COMMAND_COMPLETION of a command that has come to its end: where it ended OK and its buffered writes have reached their banks, with no
uncorrectable word met and nothing of its queue before it, it leaves the queue, its bank sets are free, its writes stand under its run, and its latch gets
its signal; the signals that waited for it follow (03 R101, R109; 02 R69). While a bank set inside a burst holds its writes back it stays. One that ended with a stop status, or met
an uncorrectable word, leaves what it had written undefined, poisons its latch and stops its run (03 R115; 02 R69). A command still running, or still
speculative, stays (03 R121). -/
def Sys2Proof.Claims.EngineCompletionSignals : Prop :=
  (∀ (cl uid : Nat) (e : ECmd) (o : EOut) (s t u v w : State), (s.coreAt cl).eq.find? (fun x => x.uid = uid) = some e → e.spec = [] →
    (s.coreAt cl).st ≠ .cut → outcomeOf cl e (tried uid s) = (t, some o) → u = setSt cl uid (.done o.st o.addr) (drainOwned uid t) →
    v = (freeBanks uid (clearBad uid u)).modCore cl (fun c => { c with eq := c.eq.filter (fun x => x.uid ≠ uid) }) →
    (o.st = stOK → owns u uid = false → hitBad u uid = false → e.shadow = none → eSigEn e.words = true →
      ((u.coreAt cl).eq.takeWhile (fun x => x.uid ≠ uid)).any (fun x => x.qk = e.qk) = false →
      w = fireEnv cl (signalLatch (eSigLatch e.words) e.words.w2 (eSigAdd e.words) (settleWrites uid (handWrites e v))) →
      w.acc.units = [] → w.acc.banks = [] →
      exec (.engineCommandCompletion cl uid) s = .next (serveIdle (pumpAll (w.onAcc (fun _ => Reach.none)))))
    ∧ (o.st ≠ stOK → w = stopRun cl o.st e.pc o.addr (fireEnv cl (poisonEnv e (settleWrites uid (undefWrites (tgetD v.wlog uid []) v)))) →
      w.acc.units = [] → w.acc.banks = [] →
      exec (.engineCommandCompletion cl uid) s = .next (serveIdle (pumpAll (w.onAcc (fun _ => Reach.none)))))
    ∧ (o.st = stOK → owns u uid = false → hitBad u uid = true →
      w = stopRun cl stEccUncorr e.pc 0 (fireEnv cl (poisonEnv e (settleWrites uid (undefWrites (tgetD v.wlog uid []) v)))) →
      w.acc.units = [] → w.acc.banks = [] →
      exec (.engineCommandCompletion cl uid) s = .next (serveIdle (pumpAll (w.onAcc (fun _ => Reach.none))))))
  ∧ (∀ (cl uid : Nat) (e : ECmd) (s : State), (s.coreAt cl).eq.find? (fun x => x.uid = uid) = some e → e.spec = [] → (s.coreAt cl).st ≠ .cut →
    (∀ t, outcomeOf cl e (tried uid s) = (t, none) → t.acc.units = [] → t.acc.banks = [] →
      exec (.engineCommandCompletion cl uid) s = .next (serveIdle (pumpAll (t.onAcc (fun _ => Reach.none)))))
    ∧ ∀ f : State → State, f = (fun s => match outcomeOf cl e s with
        | (t, none) => t
        | (t, some o) =>
          let u := setSt cl uid (.done o.st o.addr) (drainOwned uid t)
          if o.st = stOK && owns u uid then u
          else leaveQueue cl e (if o.st = stOK && hitBad u uid then EOut.stop stEccUncorr 0 else o) false (freeBanks uid (clearBad uid u))) →
      ¬ Passes uid f s → exec (.engineCommandCompletion cl uid) s = .next (serveIdle (pumpAll (delayed uid f s))))
  ∧ ∀ (cl uid : Nat) (e : ECmd) (s : State), (s.coreAt cl).eq.find? (fun x => x.uid = uid) = some e → e.spec ≠ [] → (s.coreAt cl).st ≠ .cut →
    exec (.engineCommandCompletion cl uid) s = .next (serveIdle (pumpAll s))

/-- WAITL, SIGL, POISL, SIGL_SIGNAL, HINGE, END and an OP that Table 3.17 does not name (03 R101, R111, R113, R128, R134, R135).
INFO of the entry of an illegal OP is a free value (log 50). -/
def Obligations.LatchInstructionsHingeAndEnd : Prop := Claims.LatchInstructions ∧ Claims.HingeEndAndIllegalOps

/-- MOVE, PREFETCH, GATE, COMBINE, SELECT and STEP run at their start and keep their outcome for their completion (07 R272-R275; 08 R302-R317).
That the effect is made whole at the start is the model's choice (log 34). -/
def Obligations.PivotAndWicketCommands : Prop := Claims.PivotCommands ∧ Claims.WicketCommands

/-- An engine command's WAIT holds it or stops its run, and its completion signals (03 R101, R108, R109, R121, R125, R134). -/
def Obligations.EngineWaitsAndCompletions : Prop := Claims.EngineWaitsHold ∧ Claims.EngineCompletionSignals

end Queues

namespace Sys2Proof.Claims

open Sys2Proof Sys2Proof.Machine

/-- The entry that a packet becomes when it is fetched (02 R57, R85). -/
def entryOf (s : State) (x : Queue) (h : Hdr) (pl : List Byte) : Entry :=
  { uid := s.nextUid, slot := x.fetch, tag := hTag h, ctxf := recCtx h, opc := pktOpcode h, hdr := nativeHdr h, pl := pl.take (hPlen (nativeHdr h)),
    irq := hIrq (nativeHdr h), ph := .waiting, sigged := false, posted := false, chk := false, met := false, deps := [] }

/-- The state with the packet fetched: its entry at the queue's end, its slots behind the fetch pointer. -/
def fetched (s : State) (q : Nat) (x : Queue) (h : Hdr) (pl : List Byte) : State :=
  appendEntry q (entryOf s x h pl) (pktExtent h) ({ s with acc := Reach.none }.onNextUid (fun n => n + 1))

/-- The same once the checks at the head of the queue have passed (02 R589 steps 8 and 9); a MEM_FENCE has noted what it waits for (05 R217). -/
def headed (s : State) (q : Nat) (x : Queue) (h : Hdr) (pl : List Byte) : State :=
  fenceNote q (entryOf s x h pl) (updEntry q s.nextUid (fun y => { y with chk := true }) (fetched s q x h pl))

/-- The entry at the head then. -/
def headEntry (s : State) (q : Nat) (x : Queue) (h : Hdr) (pl : List Byte) : Entry :=
  { entryOf s x h pl with
    chk := true
    deps := if pktOpcode h = 0x0204 ∧ (hA (nativeHdr h)).testBit 0 = true then
        (ctxStarted (updEntry q s.nextUid (fun y => { y with chk := true }) (fetched s q x h pl)) (recCtx h)).filter (fun u => u ≠ s.nextUid)
      else [] }

/-- The state in which a packet's operation works: its entry is running, its payload `p` has been read, and the gated units and bank sets inside a burst
that it meets are noted. -/
def working (s : State) (q : Nat) (x : Queue) (h : Hdr) (pl p : List Byte) : State :=
  updEntry q s.nextUid (fun y => { y with pl := p }) (beginEntry q (headEntry s q x h pl) (tried s.nextUid (headed s q x h pl))).1

/-- Nothing holds the packet `h` with inline payload `pl` that comes next on queue `q`: the queue runs, is empty and fetches it whole from host
memory (02 R49-R57), no check of 02 R589 refuses it, its Keeper answers (R74), a completion entry is free (R56), its WAIT is satisfied (R66), its
payload `p` can be read (R61), and no trip is in force (14 R514). `t` is the state its operation works in. -/
structure Accepted (s : State) (q : Nat) (x : Queue) (h : Hdr) (pl p : List Byte) (t : State) : Prop where
  queue  : s.getQueue q = some x
  empty  : x.es = []
  runs   : x.st = .active ∧ fetches x = true ∧ x.resume = none ∧ x.subDev = false
  slots  : pktExtent h ≤ avail x
  parses : parseCheck s q x h pl = none
  awake  : s.dev.inReset = false ∧ s.therm.trip = false
  keeper : keeperWaits (fetched s q x h pl) q (entryOf s x h pl) = false ∧ keeperWaits (headed s q x h pl) q (headEntry s q x h pl) = false
  named  : startCheck (fetched s q x h pl) q (entryOf s x h pl) = none
  room   : cplHeld x + 1 < 2 ^ x.cplLog2
  waits  : headerWait (headed s q x h pl) (headEntry s q x h pl) = .met
  reads  : (beginEntry q (headEntry s q x h pl) (tried s.nextUid (headed s q x h pl))).2 = .ok p
  works  : t = working s q x h pl p

/-- What has been tried has met no gated unit and no bank set inside a burst (01 R39, R41; 05 R204). -/
def Clear (s : State) : Prop := s.acc.units = [] ∧ s.acc.banks = []

/-- It stands, and everything goes as far as it can. -/
def settled (q : Nat) (s : State) : State := pumpAll (pumpGo q 2 (s.onAcc (fun _ => Reach.none)))

/-- Packet `uid` completed OK with RESULT `r`, in the state `t` that its operation has left. -/
def finished (q uid r : Nat) (t : State) : State := completeEntry q uid { st := 0, det := 0, res := r } 0 t

/-- The packet's command has completed OK with RESULT `r`, after `g` has changed the state it worked in. -/
def completed (q uid r : Nat) (t : State) : State := settled q (finished q uid r t)

/-- A packet that has started: its queue, its header, its whole payload and its identifier. -/
structure Pkt where
  q   : Nat
  raw : Hdr
  p   : List Byte
  uid : Nat

/-- Its header in native form, its context, ARG_A, ARG_B, ARG_C and ARG_D (02 Table 2.4, R85). -/
def Pkt.hdr (k : Pkt) : Hdr := nativeHdr k.raw
def Pkt.ctx (k : Pkt) : Nat := recCtx k.raw
def Pkt.a (k : Pkt) : Nat := hA k.hdr
def Pkt.b (k : Pkt) : Nat := hB k.hdr
def Pkt.c (k : Pkt) : Nat := hC k.hdr
def Pkt.d (k : Pkt) : Nat := hD k.hdr

/-- The packet rows: opcode (02 Table 2.7) and operation. -/
def packetRows : List ((Nat → Hdr → List Byte → Instr) × Nat × (Nat → Entry → State → HRes)) :=
  [(.nop, 0x0100, opNop), (.ctxCreate, 0x0101, opCtxCreate), (.ctxDestroy, 0x0102, opCtxDestroy), (.queueCreate, 0x0103, opQueueCreate),
   (.queueDestroy, 0x0104, opQueueDestroy), (.queueResume, 0x0105, opQueueResume), (.caseAssign, 0x0106, opCaseAssign),
   (.caseRelease, 0x0107, opCaseRelease), (.ctxMigrate, 0x0108, opCtxMigrate), (.ctxPriority, 0x0109, opCtxPriority),
   (.memAlloc, 0x0201, opMemAlloc), (.memFree, 0x0202, opMemFree), (.memMapHost, 0x0203, opMemMapHost), (.memFence, 0x0204, opMemFence),
   (.memCopy, 0x0205, opMemCopy), (.memFill, 0x0206, opMemFill), (.descCreate, 0x0301, opDescCreate), (.descDestroy, 0x0302, opDescDestroy),
   (.progLoad, 0x0401, opProgLoad), (.progRun, 0x0402, opProgRun), (.progUnload, 0x0403, opProgUnload), (.skiplogRead, 0x0404, opSkiplogRead),
   (.latchAlloc, 0x0501, opLatchAlloc), (.latchFree, 0x0502, opLatchFree), (.latchSignal, 0x0503, opLatchSignal), (.latchWait, 0x0504, opLatchWait),
   (.latchPoison, 0x0505, opLatchPoison), (.latchRead, 0x0506, opLatchRead), (.seqOpen, 0x0601, opSeqOpen), (.seqCommit, 0x0602, opSeqCommit),
   (.seqDrop, 0x0603, opSeqDrop), (.seqClose, 0x0604, opSeqClose), (.reqSubmit, 0x0605, opReqSubmit), (.reqCancel, 0x0606, opReqCancel),
   (.reqPark, 0x0607, opReqPark), (.reqResume, 0x0608, opReqResume), (.scrubRange, 0x0701, opScrubRange), (.selftest, 0x0702, opSelftest),
   (.eccTest, 0x0703, opEccTest), (.linkCalib, 0x0704, opLinkCalib), (.fabJoin, 0x0801, opFabJoin), (.fabLeave, 0x0802, opFabLeave),
   (.fabStatus, 0x0803, opFabStatus), (.pwrSetLimit, 0x0901, opPwrSetLimit), (.pwrRead, 0x0902, opPwrRead)]

/-- The own effect of a packet of row `c` and opcode `op`: in every state in which it is accepted, `ok` holds of it and of the state it works in, and nothing it
does meets a gated unit or a bank set inside a burst, it completes OK at once with RESULT `res` and `eff` done, and then everything goes on as far as it can. -/
def CompletesOk (c : Nat → Hdr → List Byte → Instr) (op : Nat) (ok : Pkt → State → Prop) (res : Pkt → State → Nat) (eff : Pkt → State → State) : Prop :=
  ∀ (s : State) (x : Queue) (pl : List Byte) (k : Pkt) (t : State), pktOpcode k.raw = op → k.uid = s.nextUid → Accepted s k.q x k.raw pl k.p t → ok k t →
    Clear (finished k.q k.uid (res k t) (eff k t)) → exec (c k.q k.raw pl) s = .next (completed k.q k.uid (res k t) (eff k t))

/-- The same for a command that goes on after its start. -/
def GoesOn (c : Nat → Hdr → List Byte → Instr) (op : Nat) (ok : Pkt → State → Prop) (eff : Pkt → State → State) : Prop :=
  ∀ (s : State) (x : Queue) (pl : List Byte) (k : Pkt) (t : State), pktOpcode k.raw = op → k.uid = s.nextUid → Accepted s k.q x k.raw pl k.p t → ok k t →
    Clear (eff k t) → exec (c k.q k.raw pl) s = .next (settled k.q (eff k t))

end Sys2Proof.Claims

namespace Sys2Proof.Claims

open Sys2Proof Sys2Proof.Machine

/-- A CTX_CREATE that takes context `c`: its payload is clean and in range, its casement may be reached and holds a cluster, and what it asks for is free (11 R414). -/
def CtxCreateOk (c : Nat) (k : Pkt) (t : State) : Prop :=
  dirty k.p 3 1 = false ∧ dirty k.p 6 2 = false ∧ dirty k.p 16 48 = false ∧ le k.p 1 1 < 8 ∧ le k.p 2 1 < 4 ∧ le k.p 0 1 < 16 ∧ le k.p 4 2 < 2048
  ∧ le k.p 8 8 % 64 = 0 ∧ (t.casAt (le k.p 0 1)).clusters ≠ 0 ∧ reachesCas t k.q (le k.p 0 1) = true ∧ ajar t = false ∧ testing t (le k.p 0 1) = false
  ∧ tfree t.ctx 0 (if isV3 t k.q then 1024 else 4096) = some c ∧ ((le k.p 2 1).testBit 1 = true → modelOf t (le k.p 0 1) = none)
  ∧ ((le k.p 2 1).testBit 0 = true → takeShutter t (le k.p 0 1) ≠ none)

/-- A CTX_DESTROY that starts: no other context stands beside a model context, and no migration is in progress (11 R433). -/
def CtxDestroyOk (v : Ctx) (k : Pkt) (t : State) : Prop :=
  t.getCtx k.ctx = some v ∧ (v.model = true → (ctxsOf t v.cas).length ≤ 1) ∧ v.mig = none

/-- Its context is `v`. -/
def CtxPriorityOk (v : Ctx) (k : Pkt) (t : State) : Prop :=
  t.getCtx k.ctx = some v

/-- A CTX_MIGRATE that starts: an active context without one, a clean payload, and a map of enabled clusters of its casement that is one to one (11 R435). -/
def CtxMigrateOk (v : Ctx) (k : Pkt) (t : State) : Prop :=
  let tabs := (List.range 4).map (fun i => le k.p (128 + 8 * i) 8)
  t.getCtx k.ctx = some v ∧ v.st = .active ∧ v.mig = none ∧ dirty k.p 162 94 = false ∧ le k.p 160 2 ≤ 10000
  ∧ (migMap k.p).all (fun m => t.fuse.clusterEn.getLsbD m.2 && (t.casAt v.cas).clusters.getLsbD m.2) = true
  ∧ (dedupN ((List.range 128).map (fun n => tgetD ((migMap k.p).foldl (fun t m => tset t m.1 m.2) v.cmap) n n))).length = 128
  ∧ tabs.all (fun a => a = 0 || (a % 64 = 0 && insideOwn t k.ctx a 64 (fun _ => true))) = true

/-- A QUEUE_CREATE of a queue that does not exist, with a clean payload, sizes in 6 to 16 and rings where they may lie. -/
def QueueCreateOk (k : Pkt) (t : State) : Prop :=
  dirty k.p 22 42 = false ∧ le k.p 18 1 < 4 ∧ 6 ≤ le k.p 16 1 ∧ le k.p 16 1 ≤ 16 ∧ 6 ≤ le k.p 17 1 ∧ le k.p 17 1 ≤ 16 ∧ le k.p 19 1 < 4 ∧ le k.p 20 2 < 2048
  ∧ ringOk t k.ctx ((le k.p 18 1).testBit 0) (le k.p 0 8) (2 ^ le k.p 16 1 * 64) = true
  ∧ ringOk t k.ctx ((le k.p 18 1).testBit 1) (le k.p 8 8) (2 ^ le k.p 17 1 * 16) = true ∧ t.getQueue (ctxQ k.ctx (le k.p 19 1)) = none

/-- Its queue is `y`. -/
def QueueDestroyOk (y : Queue) (k : Pkt) (t : State) : Prop :=
  t.getQueue (ctxQ k.ctx (k.a % 4)) = some y

/-- Its queue `y` is not halted nor being destroyed, and holds the slot (02 R49). -/
def QueueResumeOk (y : Queue) (k : Pkt) (t : State) : Prop :=
  t.getQueue (ctxQ k.ctx (k.a % 4)) = some y ∧ y.st ≠ .halted ∧ y.destroy = none ∧ k.c < 2 ^ y.subLog2

/-- A CASE_ASSIGN without payload of a casement that is free or the port's own (02 R81). -/
def CaseAssignOk (k : Pkt) (t : State) : Prop :=
  ((t.casAt (k.a % 16)).owner = 0 ∨ (t.casAt (k.a % 16)).owner = fnPort k.q + 1) ∧ hPlen k.hdr = 0

/-- A CASE_ASSIGN with a payload, in full service, of an empty casement: enabled resources that no other casement holds (11 R409). -/
def CaseAssignOwnOk (k : Pkt) (t : State) : Prop :=
  let cs := k.a % 16
  let cl := BitVec.ofNat 128 (le k.p 0 16)
  let bs := BitVec.ofNat 64 (le k.p 16 8)
  let pv := BitVec.ofNat 32 (le k.p 24 4)
  let others := (List.range 16).filter (fun i => i ≠ cs)
  ((t.casAt cs).owner = 0 ∨ (t.casAt cs).owner = fnPort k.q + 1) ∧ hPlen k.hdr = 64 ∧ ajar t = false ∧ testing t cs = false
  ∧ dirty k.p 30 2 = false ∧ dirty k.p 36 28 = false ∧ le k.p 28 2 ≤ 16384 ∧ (le k.p 32 4 = 0 ∨ 100 ≤ le k.p 32 4 ∧ le k.p 32 4 ≤ 100000)
  ∧ cl ≠ 0 ∧ bs ≠ 0 ∧ pv ≠ 0 ∧ cl &&& ~~~ t.fuse.clusterEn = 0 ∧ pv &&& ~~~ t.fuse.pivotEn = 0 ∧ ctxsOf t cs = []
  ∧ others.all (fun i => (cl &&& (t.casAt i).clusters) = 0 && (bs &&& (t.casAt i).bsmask) = 0 && (pv &&& (t.casAt i).pivot) = 0) = true
  ∧ others.foldl (fun n i => n + (t.casAt i).latches) (le k.p 28 2) ≤ 16384

/-- A CASE_RELEASE of a casement without contexts that is free or the port's own (02 R81). -/
def CaseReleaseOk (k : Pkt) (t : State) : Prop :=
  ((t.casAt (k.a % 16)).owner = 0 ∨ (t.casAt (k.a % 16)).owner = fnPort k.q + 1) ∧ ctxsOf t (k.a % 16) = []

/-- A MEM_ALLOC whose payload is clean and in range, for which an offset `off` and a base address `base` are free (09 R325). -/
def MemAllocOk (off base kind unit len : Nat) (sm : BitVec 12) (bs : BitVec 64) (k : Pkt) (t : State) : Prop :=
  let n := (ones sm).length * (ones bs).length
  dirty k.p 22 2 = false ∧ dirty k.p 32 32 = false ∧ le k.p 20 2 < 4096 ∧ kind = le k.p 16 1 ∧ kind ≤ 2 ∧ le k.p 8 8 ≠ 0 ∧ le k.p 17 1 ≤ 11
  ∧ bs = BitVec.ofNat 64 (le k.p 24 8) ∧ sm = (if kind = 1 then BitVec.twoPow 12 (le k.p 17 1) else BitVec.ofNat 12 (le k.p 20 2))
  ∧ (kind ≠ 2 → bs ≠ 0 ∧ bs &&& ~~~ casBs t (ctxCas t k.ctx) = 0 ∧ sm &&& ~~~ t.dev.stackIn = 0) ∧ (kind = 0 → sm ≠ 0)
  ∧ (kind = 1 → le k.p 8 8 ≤ 2 ^ 30 ∧ le k.p 18 2 ≠ 0 ∧ handleUsed t k.ctx (le k.p 18 2) = false)
  ∧ unit = (if kind = 0 then alignUp (le k.p 8 8) (n * 4096) / n else alignUp (le k.p 8 8) 4096)
  ∧ len = (if kind = 0 then unit * n else if kind = 1 then unit * (ones bs).length else unit)
  ∧ (le k.p 0 8 ≠ 0 → vaBad t k.ctx (le k.p 0 8) len = false) ∧ ajar t = false ∧ allocFull t k.ctx = false
  ∧ (if kind = 2 then freeFar t len else freeOff t sm bs unit) = some off
  ∧ (if le k.p 0 8 ≠ 0 then some (le k.p 0 8) else freeBase t k.ctx len) = some base

/-- The allocation `a`, entry `i`, has this base, and nothing holds it. -/
def MemFreeOk (i : Nat) (a : Alloc) (k : Pkt) (t : State) : Prop :=
  t.alloc.find? (fun x => x.2.ctx = k.ctx && x.2.base = k.c) = some (i, a) ∧ allocHeld t k.ctx a = false
  ∧ scrubbing t k.ctx a = false

/-- A MEM_MAP_HOST with a clean payload, for which a base address is free. -/
def MemMapHostOk (base : Nat) (k : Pkt) (t : State) : Prop :=
  dirty k.p 25 7 = false ∧ le k.p 24 1 ≤ 1 ∧ le k.p 0 8 % 4096 = 0 ∧ le k.p 8 8 % 4096 = 0 ∧ le k.p 8 8 ≠ 0
  ∧ (le k.p 16 8 ≠ 0 → vaBad t k.ctx (le k.p 16 8) (le k.p 8 8) = false) ∧ allocFull t k.ctx = false
  ∧ (if le k.p 16 8 ≠ 0 then some (le k.p 16 8) else freeBase t k.ctx (le k.p 8 8)) = some base

/-- A MEM_COPY whose ranges lie inside allocations and do not overlap; it reads `bs` and writes it (09 R328). -/
def MemCopyOk (bs : List Byte) (t1 t2 : State) (k : Pkt) (t : State) : Prop :=
  dirty k.p 24 8 = false ∧ insideOne t k.ctx (le k.p 0 8) (le k.p 16 8) = true ∧ insideOne t k.ctx (le k.p 8 8) (le k.p 16 8) = true
  ∧ vaRead k.ctx 0 (le k.p 0 8) (le k.p 16 8) t = (t1, .ok bs) ∧ (le k.p 0 8 + le k.p 16 8 ≤ le k.p 8 8 ∨ le k.p 8 8 + le k.p 16 8 ≤ le k.p 0 8)
  ∧ vaWrite k.ctx k.uid (le k.p 8 8) bs t1 = (t2, .ok)

/-- A MEM_FILL whose range lies inside an allocation (09 R328). -/
def MemFillOk (t2 : State) (k : Pkt) (t : State) : Prop :=
  dirty k.p 24 8 = false ∧ insideOne t k.ctx (le k.p 0 8) (le k.p 8 8) = true
  ∧ vaWrite k.ctx k.uid (le k.p 0 8) ((List.range (le k.p 8 8)).map (fun i => (k.p.drop 16).getD (i % 8) 0)) t = (t2, .ok)

end Sys2Proof.Claims

section Packets

open Sys2Proof Sys2Proof.Machine Sys2Proof.Claims

/-- SUBMISSION_DOORBELL moves a queue's tail and COMPLETION_DOORBELL its head to the index written; an index past the ring sets DB_ERR and moves
nothing; a queue that does not exist, or that the function does not reach, sets DB_ERR of the function (02 R51-R56). -/
def Obligations.Doorbells : Prop :=
  (∀ (f off q : Nat) (v : Word) (x : Queue) (s : State), isBell off 0 = true → barOpen s = true → bellQueue s f off = some q → s.getQueue q = some x →
    (v.toNat < 2 ^ x.subLog2 → exec (.submissionDoorbell f off (.full v)) s = .next (s.updQueue q (fun y => { y with tail := v.toNat })))
    ∧ (2 ^ x.subLog2 ≤ v.toNat → exec (.submissionDoorbell f off (.full v)) s = .next (s.updQueue q (fun y => { y with dbErr := true }))))
  ∧ (∀ (f off q : Nat) (v : Word) (x : Queue) (s : State), isBell off 8 = true → barOpen s = true → bellQueue s f off = some q → s.getQueue q = some x →
    (v.toNat < 2 ^ x.cplLog2 → exec (.completionDoorbell f off (.full v)) s = .next (pumpAll (s.updQueue q (fun y => { y with head := v.toNat }))))
    ∧ (2 ^ x.cplLog2 ≤ v.toNat → exec (.completionDoorbell f off (.full v)) s = .next (pumpAll (s.updQueue q (fun y => { y with dbErr := true })))))
  ∧ ∀ (f off : Nat) (v : Word) (s : State), isBell off 0 = true → barOpen s = true → bellQueue s f off = none →
    exec (.submissionDoorbell f off (.full v)) s = .next (s.modFn f (fun n => { n with dbErr := true }))

/-- A packet that nothing holds, and that meets no gated unit nor bank set inside a burst, starts as the command of its opcode: its operation works on its entry and payload, the command completes with what the
operation answers or goes on, and everything that this lets go on follows (02 R55-R61, R64, R589). Every opcode of Table 2.7.
That the packet's words come with the command is the model's choice (log 1). -/
def Obligations.AcceptedPacketRunsItsOperation : Prop :=
  ∀ r ∈ packetRows, ∀ (s : State) (q : Nat) (x : Queue) (h : Hdr) (pl p : List Byte) (t : State), pktOpcode h = r.2.1 → Accepted s q x h pl p t →
    (Clear (endOp q s.nextUid (r.2.2 q ((headEntry s q x h pl).begun p) t)) →
      exec (r.1 q h pl) s = .next (settled q (endOp q s.nextUid (r.2.2 q ((headEntry s q x h pl).begun p) t))))

/-- A packet that a check of 02 R589 refuses becomes a completed command at its place in its queue, with the refusal's status, DETAIL and RESULT, and
nothing else happens: no operation runs, no latch is signalled (02 R57-R60, R71, R589). UNKNOWN_OPCODE: any packet so refused.
That the packet's words come with the command is the model's choice (log 1). -/
def Obligations.RefusedPacketCompletesAtOnce : Prop :=
  ∀ (s : State) (q : Nat) (x : Queue) (h : Hdr) (pl : List Byte) (r : Res), s.getQueue q = some x → x.st = .active → fetches x = true → x.resume = none →
    x.subDev = false → pktExtent h ≤ avail x → parseCheck s q x h pl = some r →
    exec (.unknownOpcode q h pl) s = .next (pumpAll (appendEntry q
      { entryOf s x h pl with hdr := { nativeHdr h with w3 := 0 }, opc := 0, ph := .done r.st r.det r.res } (pktExtent h)
      ({ s with acc := Reach.none }.onNextUid (fun n => n + 1))))

/-- NOP completes OK and does nothing. CTX_CREATE takes the lowest free context with the shutter area its flag asks for. CTX_DESTROY leaves its context
DESTROYING and goes on until the teardown has ended. CTX_PRIORITY sets the priority and answers the old one. CTX_MIGRATE notes its map and asks the
context's runs to stop (02 Table 2.7; 11 R413, R414, R423, R433-R436). -/
def Sys2Proof.Claims.ContextPackets : Prop :=
  CompletesOk .nop 0x0100 (fun _ _ => True) (fun _ _ => 0) (fun _ t => t)
  ∧ (∀ c : Nat, CompletesOk .ctxCreate 0x0101
      (CtxCreateOk c)
      (fun _ _ => c)
      (fun k t => t.putCtx c
        { st := .active, cas := le k.p 0 1, prio := le k.p 1 1, shutter := if (le k.p 2 1).testBit 0 then takeShutter t (le k.p 0 1) else none,
          model := (le k.p 2 1).testBit 1, fn := k.q, faultVec := le k.p 4 2, faultAddr := BitVec.ofNat 64 (le k.p 8 8), cmap := [], retired := [], mig := none,
          skips := [], skipN := 0, destroy := none }))
  ∧ (∀ v : Ctx, GoesOn .ctxDestroy 0x0102
      (CtxDestroyOk v)
      (fun k t =>
        let d := tearDown k.ctx k.uid (t.updCtx k.ctx (fun v => { v with st := .destroying, destroy := some (k.q, k.uid) }))
        forEach (liveReqs d (fun r => r.ctx = k.ctx)) (discardReq 6) d))
  ∧ (∀ v : Ctx, CompletesOk .ctxPriority 0x0109 (CtxPriorityOk v) (fun _ _ => v.prio)
      (fun k t => arbitrate (t.updCtx k.ctx (fun y => { y with prio := k.a % 8 }))))
  ∧ ∀ v : Ctx, GoesOn .ctxMigrate 0x0108
      (CtxMigrateOk v)
      (fun k t =>
        let g : Mig := { q := k.q, uid := k.uid, map := migMap k.p, ptabs := ((List.range 4).map (fun i => le k.p (128 + 8 * i) 8)).filter (fun a => a ≠ 0),
                         moved := false, result := 0, drainMs := if le k.p 160 2 = 0 then 100 else le k.p 160 2 }
        let d := t.updCtx k.ctx (fun y => { y with mig := some g })
        forEach (tkeys (tfilter (fun _ r => r.ctx = k.ctx && r.st = .running) d.run)) requestPreempt d)

/-- QUEUE_CREATE makes a running queue of its rings, empty, at slot 0, its phase at 1. QUEUE_DESTROY ends the queue's commands and goes on until the last
record is posted. QUEUE_RESUME goes on. CASE_ASSIGN gives a casement an owner, and its resources where the payload names them; CASE_RELEASE takes the
owner away (02 R46-R50, R81; 11 R408, R409, R432). -/
def Sys2Proof.Claims.QueueAndCasementPackets : Prop :=
  CompletesOk .queueCreate 0x0103
    QueueCreateOk
    (fun _ _ => 0)
    (fun k t => t.putQueue (ctxQ k.ctx (le k.p 19 1))
      { st := .active, admin := false, fn := k.q, ctx := k.ctx, qid := le k.p 19 1, subBase := BitVec.ofNat 64 (le k.p 0 8), cplBase := BitVec.ofNat 64 (le k.p 8 8),
        subLog2 := le k.p 16 1, cplLog2 := le k.p 17 1, subDev := (le k.p 18 1).testBit 0, cplDev := (le k.p 18 1).testBit 1, vector := le k.p 20 2,
        v3 := decide (t.dev.compatLevel < 2), salvage := match t.getCtx k.ctx with | some v => v.st ≠ .active | none => false, drain := false, tail := 0,
        fetch := 0, head := 0, cplTail := 0, phase := true, dbErr := false, es := [], resume := none, destroy := none })
  ∧ (∀ y : Queue, GoesOn .queueDestroy 0x0104 (QueueDestroyOk y)
      (fun k t =>
        let n := ctxQ k.ctx (k.a % 4)
        let l := y.es.filter (fun e => !e.isDone)
        forEach l (discardEntry n) ((endWaits n (updEntry k.q k.uid (fun e => { e with deps := [l.length] }) t)).updQueue n
          (fun z => { z with destroy := some (k.q, k.uid) }))))
  ∧ (∀ y : Queue, GoesOn .queueResume 0x0105
      (QueueResumeOk y) (fun _ t => t))
  ∧ CompletesOk .caseAssign 0x0106
      CaseAssignOk
      (fun k _ => k.a % 16) (fun k t => t.modCas (k.a % 16) (fun v => { v with owner := fnPort k.q + 1 }))
  ∧ CompletesOk .caseAssign 0x0106
      CaseAssignOwnOk
      (fun k _ => k.a % 16)
      (fun k t => (t.modCas (k.a % 16) (fun v => { v with
        clusters := BitVec.ofNat 128 (le k.p 0 16), bsmask := BitVec.ofNat 64 (le k.p 16 8), pivot := BitVec.ofNat 32 (le k.p 24 4), latches := le k.p 28 2,
        quantum := if le k.p 32 4 = 0 then 2000 else le k.p 32 4 })).modCas (k.a % 16) (fun v => { v with owner := fnPort k.q + 1 }))
  ∧ CompletesOk .caseRelease 0x0107
      CaseReleaseOk
      (fun _ _ => 0) (fun k t => t.modCas (k.a % 16) (fun v => { v with owner := 0 }))

/-- MEM_ALLOC enters an allocation of its kind at the place found for it, and answers its base ÷ 4 KiB; MEM_FREE ends the allocation whose base it
names; MEM_MAP_HOST enters one on its port; MEM_COPY and MEM_FILL write their destination; MEM_FENCE, which noted at the head of its queue what had
started, goes on (09 R324-R328; 05 R217).
Which free place and base an allocation takes is the model's choice where the spec names none (log 17). -/
def Obligations.MemoryPackets : Prop :=
  (∀ (off base kind unit len : Nat) (sm : BitVec 12) (bs : BitVec 64), CompletesOk .memAlloc 0x0201
    (MemAllocOk off base kind unit len sm bs)
    (fun _ _ => base / 4096 % 2 ^ 32)
    (fun k t => addAlloc
      { ctx := k.ctx, base := base, len := len, kind := if kind = 0 then .interleaved else if kind = 1 then .stripe else .far, off := off,
        unit := if kind = 1 then unit else 0, smask := if kind = 2 then 0 else sm, bsmask := if kind = 2 then 0 else bs,
        handle := if kind = 1 then le k.p 18 2 else 0, port := 0, ro := false } t))
  ∧ (∀ (i : Nat) (a : Alloc), CompletesOk .memFree 0x0202
      (MemFreeOk i a)
      (fun _ _ => 0)
      (fun k t => releaseAlloc a (((readersOf t k.ctx).flatMap (fun c => startedUids t (some c))).filter (fun u => u ≠ k.uid)) (staleDescs (readersOf t k.ctx) a.base (a.base + a.len) (t.delAlloc i))))
  ∧ (∀ base : Nat, CompletesOk .memMapHost 0x0203
      (MemMapHostOk base)
      (fun _ _ => base / 4096 % 2 ^ 32)
      (fun k t => addAlloc
        { ctx := k.ctx, base := base, len := le k.p 8 8, kind := .host, off := le k.p 0 8, unit := 0, smask := 0, bsmask := 0, handle := 0,
          port := (if (t.casAt (ctxCas t k.ctx)).owner = 0 then (match t.getQueue k.q with | some x => fnPort x.fn | none => 0)
            else (t.casAt (ctxCas t k.ctx)).owner - 1), ro := (le k.p 24 1).testBit 0 } t))
  ∧ (∀ (bs : List Byte) (t1 t2 : State), CompletesOk .memCopy 0x0205
      (MemCopyOk bs t1 t2)
      (fun _ _ => 0) (fun _ _ => t2))
  ∧ (∀ t2 : State, CompletesOk .memFill 0x0206
      (MemFillOk t2)
      (fun _ _ => 0) (fun _ _ => t2))
  ∧ GoesOn .memFence 0x0204 (fun _ _ => True) (fun _ t => t)

/-- The packets on contexts, queues and casements (02 R46-R50, R81; 11 R408-R414, R423, R432-R436). -/
def Obligations.ContextAndQueuePackets : Prop := Claims.ContextPackets ∧ Claims.QueueAndCasementPackets

end Packets

namespace Sys2Proof.Claims

open Sys2Proof Sys2Proof.Machine

/-- A descriptor that passes its checks while handle `n` is free. -/
def DescCreateOk (n : Nat) (k : Pkt) (t : State) : Prop :=
  k.p.length = (if le k.p 0 1 = 0x20 then 64 else 192)
  ∧ (if le k.p 0 1 = 0x20 then attnCheck t (adescOf k.p) else moveCheck t k.ctx (mdescOf k.p)) = none ∧ tfree t.desc (k.ctx * 65536 + 1) 65535 = some n

/-- The handle is in use and its descriptor not destroyed before. -/
def DescDestroyOk (d : Desc) (k : Pkt) (t : State) : Prop :=
  0 < k.a ∧ k.a < 65536 ∧ t.getDesc (k.ctx * 65536 + k.a) = some d ∧ d.dead = []

/-- A PROG_LOAD of a well-formed image `b` that the level in force allows, while handle `n` is free (03 R97). -/
def ProgLoadOk (n : Nat) (b : List Byte) (t1 : State) (k : Pkt) (t : State) : Prop :=
  dirty k.p 12 52 = false ∧ le k.p 0 8 % 64 = 0 ∧ 256 ≤ le k.p 8 4 ∧ le k.p 8 4 ≤ 2 ^ 24
  ∧ vaRead k.ctx 0 (le k.p 0 8) (le k.p 8 4) t = (t1, .ok b) ∧ imgBad b (le k.p 8 4) = false ∧ le b 5 1 ≤ t1.dev.compatLevel
  ∧ (t1.dev.compatLevel = 0 → (le b 6 1).testBit 0 = false) ∧ tfree t1.prog (k.ctx * 512 + 1) 256 = some n

/-- A PROG_RUN with a clean payload of program `v` on clusters of its casement (03 R99). -/
def ProgRunOk (v : Prog) (r : Nat) (k : Pkt) (t : State) : Prop :=
  let lg := ones (BitVec.ofNat 128 (le k.p 16 16))
  dirty k.p 9 1 = false ∧ dirty k.p 12 4 = false ∧ dirty k.p 56 8 = false ∧ lg ≠ []
  ∧ lg.all (fun n => t.fuse.clusterEn.getLsbD (physOf t k.ctx n) && (t.casAt (ctxCas t k.ctx)).clusters.getLsbD (physOf t k.ctx n)) = true
  ∧ 0 < le k.p 0 8 ∧ le k.p 0 8 ≤ 256 ∧ t.getProg (k.ctx * 512 + le k.p 0 8) = some v ∧ le k.p 8 1 < 16 ∧ nth v.entry (le k.p 8 1) 0 < v.words.length
  ∧ (le k.p 32 8 ≠ 0 → le k.p 40 8 % 4096 = 0 ∧ dumpLen lg.length ≤ le k.p 48 8) ∧ tfree t.run 1 (t.run.length + 1) = some r

/-- The program is loaded, and no PROG_RUN of its queue and no service names it. -/
def ProgUnloadOk (k : Pkt) (t : State) : Prop :=
  0 < k.a ∧ k.a ≤ 256 ∧ (t.getProg (k.ctx * 512 + k.a)).isSome = true
  ∧ t.queue.any (fun x => x.2.ctx = k.ctx && !x.2.admin && x.2.es.any (fun y => y.opc = 0x0402 && !y.isDone && (y.pl.isEmpty || le y.pl 0 8 = k.a))) = false
  ∧ t.cas.any (fun x => x.2.svc.mode ≠ 0 && x.2.svc.ctx = some k.ctx && x.2.svc.prog = k.a) = false

/-- The context is `v`, and the log can be written. -/
def SkiplogReadOk (v : Ctx) (t1 : State) (k : Pkt) (t : State) : Prop :=
  t.getCtx k.ctx = some v
  ∧ vaWrite k.ctx k.uid k.d (padTo 16 (toLE v.skipN 8 ++ toLE v.skips.length 2) ++ (v.skips.take k.a).flatMap skipBytes) t = (t1, .ok)

/-- A LATCH_ALLOC within the casement's share while latch `l` is the first free one of the leaf asked for, or of the other where that has none. -/
def LatchAllocOk (l : Nat) (k : Pkt) (t : State) : Prop :=
  let home := homeLeaf t (ctxCas t k.ctx)
  let first := if k.a.testBit 0 then 1 - home else home
  let lim := if isV3 t k.q then 4096 else 16384
  latchesHeld t (ctxCas t k.ctx) < (t.casAt (ctxCas t k.ctx)).latches
  ∧ (freeLatchOn t first lim = some l ∨ freeLatchOn t first lim = none ∧ freeLatchOn t (1 - first) lim = some l)

/-- A LATCH_READ of an owned latch that asks for no copy (03 R133). -/
def LatchReadOk (v : Latch) (k : Pkt) (t : State) : Prop :=
  t.getLatch k.a = some v ∧ v.owner = k.ctx ∧ isV3 t k.q = false ∧ k.d = 0

/-- A LATCH_READ of an owned latch that asks for a copy at ARG_D (03 R133). -/
def LatchReadCopyOk (v : Latch) (t1 : State) (k : Pkt) (t : State) : Prop :=
  t.getLatch k.a = some v ∧ v.owner = k.ctx ∧ isV3 t k.q = false ∧ k.d ≠ 0
  ∧ vaWrite k.ctx k.uid k.d (toLE v.value.toNat 8 ++ toLE (b2n v.poison) 1 ++ toLE v.owner 2 ++ zeros 5) t = (t1, .ok)

/-- A SEQ_OPEN with a clean payload while slot `n` and a calibration entry are free and its reserve can be placed (06 R220). -/
def SeqOpenOk (n c : Nat) (t2 : State) (k : Pkt) (t : State) : Prop :=
  let x : Seq := { seqOf k.ctx c t.nextUid k.p with lastKey := Config.freeWord t.freeCtr 0 }
  dirty k.p 42 2 = false ∧ dirty k.p 72 56 = false ∧ le k.p 36 1 < 8 ∧ seqBad t k.ctx (seqOf k.ctx 0 0 k.p) = false ∧ tfree t.seq 0 16384 = some n
  ∧ calibEntry t k.ctx (le k.p 8 8) = some c
  ∧ reserveSlots n (Nat.min (le k.p 44 4) (2 ^ 26)) (vaPut k.ctx x.pt (zeros (x.layers * x.pmax * 8))
      ((((t.onNextUid (fun n => n + 1)).onFreeCtr (fun n => n + 1)).putSeq n x).putCalib c (k.ctx, x.calib))) = some t2

/-- The sequence is the context's and no request holds it; `seqCommitDo` says what is committed. -/
def SeqCommitOk (v : Seq) (r : Nat) (t1 : State) (k : Pkt) (t : State) : Prop :=
  namedSeq t k.ctx k.a = some v ∧ v.held = none ∧ seqCommitDo k.a k.c k.d t = ({ st := 0, det := 0, res := r }, t1)

/-- The slots named lie inside the sequence and hold only committed tokens. -/
def SeqDropOk (v : Seq) (k : Pkt) (t : State) : Prop :=
  namedSeq t k.ctx k.a = some v ∧ v.held = none ∧ k.b % 256 ≤ k.b / 256 ∧ k.b / 256 < v.layers ∧ k.c + k.d ≤ slotCount v
  ∧ (List.range k.d).all (fun i => decide (slotStart v (k.c + i) + 2 ^ v.nlog2 ≤ v.c)) = true

/-- The sequence is the context's and no request holds it. -/
def SeqCloseOk (v : Seq) (k : Pkt) (t : State) : Prop :=
  namedSeq t k.ctx k.a = some v ∧ v.held = none

/-- The casement serves the context, the payload is in range, no sequence is held and a request number is free (12 R450). -/
def ReqSubmitOk (id : Nat) (k : Pkt) (t : State) : Prop :=
  serves t k.ctx = true ∧ reqBad t k.ctx k.p = false
  ∧ (t.dev.compatLevel < 2 → le k.p 36 1 / 4 % 4 ≠ 1 ∧ (seqNames k.p 48).any (hasParked t) = false)
  ∧ (seqNames k.p 48).any (seqHeld t) = false ∧ liveOf t (ctxCas t k.ctx) < (t.casAt (ctxCas t k.ctx)).svc.maxReq ∧ freeReq t = some id

/-- The request is the context's and has not ended. -/
def ReqCancelOk (v : Req) (k : Pkt) (t : State) : Prop :=
  serves t k.ctx = true ∧ t.getReq k.a = some v ∧ v.ctx = k.ctx ∧ v.st ≠ .ended

/-- The sequences are the context's and no request holds them, and the job goes on past its start (12 R461). -/
def ReqParkOk (k : Pkt) (t : State) : Prop :=
  dirty k.p 20 12 = false ∧ le k.p 0 2 ≠ 0xFFFF ∧ (seqNames k.p 0).any (fun x => (namedSeq t k.ctx x).isNone) = false ∧ ajar t = false
  ∧ (seqNames k.p 0).any (seqHeld t) = false
  ∧ (startPark (seqKeys k.p 0 (le k.p 8 8)) (le k.p 16 4) (homeLeaf t (ctxCas t k.ctx)) k.q k.uid none t).job.any (fun j => j.2.uid = k.uid && j.2.req.isNone) = true

/-- The sequences are the context's and no request holds them, and the job goes on past its start. -/
def ReqResumeOk (k : Pkt) (t : State) : Prop :=
  dirty k.p 20 12 = false ∧ le k.p 0 2 ≠ 0xFFFF ∧ (seqNames k.p 0).any (fun x => (namedSeq t k.ctx x).isNone) = false ∧ ajar t = false
  ∧ (seqNames k.p 0).any (seqHeld t) = false
  ∧ (startRestore (seqNames k.p 0) (homeLeaf t (ctxCas t k.ctx)) k.q k.uid none t).job.any (fun j => j.2.uid = k.uid && j.2.req.isNone) = true

/-- A SCRUB_RANGE with a clean payload over granules of stack memory, with room for its records. -/
def ScrubRangeOk (k : Pkt) (t : State) : Prop :=
  dirty k.p 25 7 = false ∧ le k.p 24 1 ≤ 1 ∧ le k.p 8 8 ≠ 0 ∧ le k.p 0 8 + le k.p 8 8 ≤ 2 ^ 52 ∧ le k.p 16 8 % 64 = 0
  ∧ mapped t k.ctx (le k.p 16 8) 576 = true
  ∧ (scrubGranules k.p).all (fun va => match findAlloc t k.ctx va with | some (a, _) => a.kind = .interleaved || a.kind = .stripe | none => false) = true

/-- A SELFTEST with a clean payload of a casement that may be tested (15 R541). -/
def SelftestOk (k : Pkt) (t : State) : Prop :=
  dirty k.p 3 5 = false ∧ dirty k.p 16 16 = false ∧ 0 < le k.p 1 1 ∧ le k.p 1 1 < 32 ∧ le k.p 0 1 < 16 ∧ le k.p 2 1 < 12 ∧ le k.p 8 8 % 64 = 0
  ∧ (le k.p 1 1 ≠ 16 → reachesCas t k.q (le k.p 0 1) = true) ∧ ajar t = false ∧ (le k.p 1 1 % 16 ≠ 0 → ctxsOf t (le k.p 0 1) = [])
  ∧ (t.casAt (le k.p 0 1)).selftest = none ∧ ((le k.p 1 1).testBit 4 = true → windowTest t (le k.p 2 1) = false)

/-- An ECC_TEST that writes a code word of an available test window (09 R349). -/
def EccTestWriteOk (k : Pkt) (t : State) : Prop :=
  dirty k.p 2 2 = false ∧ dirty k.p 16 16 = false ∧ le k.p 0 1 % 128 = 1 ∧ le k.p 1 1 < 12 ∧ le k.p 4 4 % 64 = 0 ∧ le k.p 4 4 < 2 ^ 20
  ∧ le k.p 8 8 % 64 = 0 ∧ t.dev.stackIn.getLsbD (le k.p 1 1) = true ∧ windowTest t (le k.p 1 1) = false

/-- An ECC_TEST that asks for check bytes (09 R350). -/
def EccTestCheckOk (k : Pkt) (t : State) : Prop :=
  dirty k.p 2 2 = false ∧ dirty k.p 16 16 = false ∧ le k.p 0 1 % 128 = 4 ∧ le k.p 1 1 < 12 ∧ le k.p 4 4 % 64 = 0 ∧ le k.p 4 4 < 2 ^ 20
  ∧ le k.p 8 8 % 64 = 0 ∧ t.dev.stackIn.getLsbD (le k.p 1 1) = true ∧ windowTest t (le k.p 1 1) = false

/-- A RAISE at the lintel that every member's level allows. -/
def FabRaiseOk (k : Pkt) (t : State) : Prop :=
  joinBad t k.q k.p = false ∧ ajar t = false ∧ le k.p 0 1 = 1 ∧ t.fab.isLintel = true ∧ t.fab.lintelLost = false ∧ mayRaise t (le k.p 3 1) = true

/-- A TEAM at the lintel that it can enter. -/
def FabTeamOk (n : Nat) (t1 : State) (k : Pkt) (t : State) : Prop :=
  joinBad t k.q k.p = false ∧ ajar t = false ∧ le k.p 0 1 = 2 ∧ t.fab.isLintel = true ∧ t.fab.lintelLost = false
  ∧ addTeam (jTeam t k.q k.p) (BitVec.ofNat 16 (le k.p 72 2)) t = some (n, t1)

/-- The device is in a group and the team exists (10 R392). -/
def FabStatusOk (k : Pkt) (t : State) : Prop :=
  (k.c = 0 ∨ (tget t.fab.teams k.c).isSome = true) ∧ t.fab.member = true

end Sys2Proof.Claims

section MorePackets

open Sys2Proof Sys2Proof.Machine Sys2Proof.Claims

/-- DESC_CREATE keeps a descriptor that passes its checks under the lowest free handle; DESC_DESTROY ends a handle, or keeps it taken while commands
name it. PROG_LOAD keeps the image under the lowest free program handle; PROG_RUN enters a run that waits for its clusters and goes on; PROG_UNLOAD
frees the handle. SKIPLOG_READ writes the count and up to ARG_A entries, and clears the log if ARG_B says so (07 R262, R270; 03 R96-R102, R139).
That DESC_CREATE takes the lowest free handle is the model's choice (log 17); PROG_LOAD's is 03 R96. -/
def Obligations.DescriptorAndProgramPackets : Prop :=
  (∀ n : Nat, CompletesOk .descCreate 0x0301
    (DescCreateOk n)
    (fun _ _ => n % 65536) (fun k t => t.putDesc n { bytes := k.p, stale := false, dead := [] }))
  ∧ (∀ d : Desc, CompletesOk .descDestroy 0x0302
      (DescDestroyOk d) (fun _ _ => 0)
      (fun k t => if descNamers t k.ctx k.a = [] then t.delDesc (k.ctx * 65536 + k.a) else t.putDesc (k.ctx * 65536 + k.a) { d with dead := descNamers t k.ctx k.a }))
  ∧ (∀ (n : Nat) (b : List Byte) (t1 : State), CompletesOk .progLoad 0x0401
      (ProgLoadOk n b t1)
      (fun _ _ => n % 512) (fun _ _ => t1.putProg n (imgProg b)))
  ∧ (∀ (v : Prog) (r : Nat), GoesOn .progRun 0x0402
      (ProgRunOk v r)
      (fun k t => arbitrate ((t.onNextUid (fun n => n + 1)).putRun r
        { ctx := k.ctx, q := k.q, uid := k.uid, prog := le k.p 0 8, entryPc := nth v.entry (le k.p 8 1) 0, clusters := ones (BitVec.ofNat 128 (le k.p 16 16)),
          skipLimit := le k.p 10 2, stopIndex := BitVec.ofNat 64 (le k.p 32 8), dumpAddr := le k.p 40 8, dumpLen := le k.p 48 8,
          args := (List.range 8).map (fun i => BitVec.ofNat 64 (le k.p (64 + 8 * i) 8)), noSave := k.b.testBit 0, release := k.b.testBit 1, skips := 0,
          added := 0, st := .waiting, order := t.nextUid, heldSince := 0, stop := none, tag := hTag k.raw, keeper := none, migHold := false, watch := false, wrote := [] })))
  ∧ CompletesOk .progUnload 0x0403
      ProgUnloadOk
      (fun _ _ => 0) (fun k t => t.delProg (k.ctx * 512 + k.a))
  ∧ ∀ (v : Ctx) (t1 : State), CompletesOk .skiplogRead 0x0404
      (SkiplogReadOk v t1)
      (fun k _ => (v.skips.take k.a).length)
      (fun k _ => if k.b.testBit 0 then t1.updCtx k.ctx (fun y => { y with skips := [], skipN := 0 }) else t1)

/-- LATCH_ALLOC takes the lowest free latch, on the home leaf unless ARG_A says otherwise, with its VALUE from ARG_C and POISON clear. LATCH_FREE poisons
the latch, fails what waits on it and frees it. LATCH_SIGNAL and LATCH_WAIT go on; LATCH_POISON poisons; LATCH_READ answers the low half of VALUE and
writes VALUE, POISON and owner where ARG_D is not 0 (03 R127-R133).
That the lowest free latch of a leaf is taken is the model's choice (log 17). -/
def Obligations.LatchPackets : Prop :=
  (∀ l : Nat, CompletesOk .latchAlloc 0x0501
    (LatchAllocOk l)
    (fun _ _ => l) (fun k t => t.putLatch l { value := BitVec.ofNat 64 k.c, poison := false, owner := k.ctx }))
  ∧ CompletesOk .latchFree 0x0502 (fun k t => ownsLatch t k.ctx k.a = true) (fun _ _ => 0)
      (fun k t => freeLatch k.a (evalWaits k.a (poisonLatch k.a t)))
  ∧ GoesOn .latchSignal 0x0503 (fun k t => ownsLatch t k.ctx k.a = true) (fun _ t => t)
  ∧ GoesOn .latchWait 0x0504 (fun k t => ownsLatch t k.ctx k.a = true) (fun _ t => t)
  ∧ CompletesOk .latchPoison 0x0505 (fun k t => ownsLatch t k.ctx k.a = true) (fun _ _ => 0) (fun k t => poisonLatch k.a t)
  ∧ (∀ v : Latch, CompletesOk .latchRead 0x0506 (LatchReadOk v)
      (fun _ _ => v.value.toNat % 2 ^ 32) (fun _ t => t))
  ∧ ∀ (v : Latch) (t1 : State), CompletesOk .latchRead 0x0506
      (LatchReadCopyOk v t1)
      (fun _ _ => v.value.toNat % 2 ^ 32) (fun _ _ => t1)

/-- SEQ_OPEN takes the lowest free sequence slot and its calibration entry, clears the page table and places its reserve; SEQ_COMMIT commits;
SEQ_DROP drops the slots of its layers and frees their RESIDENT and TENTATIVE pages; SEQ_CLOSE gives up the sequence and answers its pages. REQ_SUBMIT enters a request that waits for admission and
holds its sequences; REQ_CANCEL, REQ_PARK and REQ_RESUME go on (06 R218-R238; 12 R449-R463).
That the lowest free slot and request number are taken is the model's choice (log 17); the key of a sequence that no request has named is free (log 8). -/
def Obligations.SequenceAndRequestPackets : Prop :=
  (∀ (n c : Nat) (t2 : State), CompletesOk .seqOpen 0x0601
    (SeqOpenOk n c t2)
    (fun _ _ => n) (fun _ _ => t2))
  ∧ (∀ (v : Seq) (r : Nat) (t1 : State), CompletesOk .seqCommit 0x0602
      (SeqCommitOk v r t1) (fun _ _ => r) (fun _ _ => t1))
  ∧ (∀ v : Seq, CompletesOk .seqDrop 0x0603
      (SeqDropOk v)
      (fun k t => (((List.range (k.b / 256 - k.b % 256 + 1)).flatMap (fun a => (List.range k.d).map (fun i => (k.b % 256 + a, k.c + i)))).filterMap
        (fun p => (pageAt t k.a p.1 p.2).map (fun y => y.1))).length)
      (fun k t =>
        let lk := (List.range (k.b / 256 - k.b % 256 + 1)).flatMap (fun a => (List.range k.d).map (fun i => (k.b % 256 + a, k.c + i)))
        forEach lk (fun p t => writePte k.a p.1 p.2 t) (freePages ((lk.filterMap (fun p => (pageAt t k.a p.1 p.2).map (fun y => y.1))).filter
            (fun i => match t.getPage i with | some p => p.st = .resident || p.st = .tentative | none => false))
          ((startedUids t (some k.ctx)).filter (fun u => u ≠ k.uid))
          (t.updSeq k.a (fun y => { y with dropped := y.dropped ++ lk.filter (fun p => !(y.dropped.contains p)) })))))
  ∧ (∀ v : Seq, CompletesOk .seqClose 0x0604 (SeqCloseOk v)
      (fun k t => ((pagesOf t k.a).filter (fun p => p.2.freeing.isNone)).length)
      (fun k t => closeSeq k.a ((startedUids t (some k.ctx)).filter (fun u => u ≠ k.uid)) t))
  ∧ (∀ id : Nat, CompletesOk .reqSubmit 0x0605
      (ReqSubmitOk id)
      (fun _ _ => id)
      (fun k t => forEach (seqKeys k.p 48 (le k.p 88 8)) (fun x d => d.updSeq x.1 (fun y => { y with held := some id, lastKey := x.2, lastUse := t.nextUid }))
        ((t.onNextUid (fun n => n + 1)).putReq id (reqOf (t.onNextUid (fun n => n + 1)) k.ctx t.nextUid k.p))))
  ∧ (∀ v : Req, GoesOn .reqCancel 0x0606 (ReqCancelOk v)
      (fun k t => t.updReq k.a (fun r => { r with cancel := some (k.q, k.uid) })))
  ∧ GoesOn .reqPark 0x0607
      ReqParkOk
      (fun k t => startPark (seqKeys k.p 0 (le k.p 8 8)) (le k.p 16 4) (homeLeaf t (ctxCas t k.ctx)) k.q k.uid none t)
  ∧ GoesOn .reqResume 0x0608
      ReqResumeOk
      (fun k t => startRestore (seqNames k.p 0) (homeLeaf t (ctxCas t k.ctx)) k.q k.uid none t)

/-- SCRUB_RANGE goes on until its record comes next. SELFTEST enters its test in its casement and goes on. ECC_TEST OP 1 writes a code word of the test
window, OP 4 answers check bytes. LINK_CALIB lists the four lanes of each port it may calibrate and goes on. PWR_SET_LIMIT sets the host limit and answers
the limit in force; PWR_READ answers the draw and writes the power record where ARG_D is not 0 (09 R345-R351; 15 R540-R543; 10 R372; 14 R516, R517). -/
def Sys2Proof.Claims.MaintenanceAndPowerPackets : Prop :=
  GoesOn .scrubRange 0x0701
    ScrubRangeOk
    (fun _ t => t)
  ∧ GoesOn .selftest 0x0702
      SelftestOk
      (fun k t => t.modCas (le k.p 0 1) (fun v => { v with selftest := some (k.q, k.uid, le k.p 1 1, le k.p 2 1) }))
  ∧ CompletesOk .eccTest 0x0703
      EccTestWriteOk
      (fun _ _ => 0)
      (fun k t => (reachBank (winAddr (le k.p 1 1) (le k.p 4 4)) t).putWindow (le k.p 1 1 * 16384 + le k.p 4 4 / 64) (busRead t (fnPort k.q) (le k.p 8 8) 64, busRead t (fnPort k.q) (le k.p 8 8 + 64) 8))
  ∧ CompletesOk .eccTest 0x0703
      EccTestCheckOk
      (fun _ _ => 0)
      (fun k t => busWrite (fnPort k.q) (le k.p 8 8 + 64) (checkOf (winAddr (le k.p 1 1) (le k.p 4 4)) (busRead t (fnPort k.q) (le k.p 8 8) 64)) t)
  ∧ GoesOn .linkCalib 0x0704 (fun _ t => ajar t = false)
      (fun k t => forEach ((bitsWhere 16 (fun p => k.a.testBit p)).filter (fun p => canCalib (t.portAt p)))
        (fun p t => t.modPort p (fun x => { x with calib := [0, 1, 2, 3], lcal := some (k.q, k.uid) })) (updEntry k.q k.uid (fun y => { y with deps := [0] }) t))
  ∧ CompletesOk .pwrSetLimit 0x0901 (fun k _ => 600 ≤ k.a ∧ k.a ≤ 1100) (fun k t => plim (t.onLvr (fun l => { l with hostLim := k.a })))
      (fun k t => t.onLvr (fun l => { l with hostLim := k.a }))
  ∧ CompletesOk .pwrRead 0x0902 (fun _ _ => True) (fun _ t => t.lvr.draw) (fun k t => if k.d = 0 then t else busWrite (fnPort k.q) k.d (powerRecord t) t)

/-- FAB_JOIN with ACTION 0 takes the member's place and announces it, and goes on; a RAISE and a TEAM at the lintel take effect at once. FAB_LEAVE goes on.
FAB_STATUS writes its record and answers the number of live members (10 R377-R392). -/
def Sys2Proof.Claims.FabricPackets : Prop :=
  GoesOn .fabJoin 0x0801 (fun k t => joinBad t k.q k.p = false ∧ ajar t = false ∧ le k.p 0 1 = 0) (fun k t => startJoin k.q k.uid k.p t)
  ∧ CompletesOk .fabJoin 0x0801
      FabRaiseOk
      (fun k _ => le k.p 3 1) (fun k t => rebuildPlans (le k.p 3 1) t)
  ∧ (∀ (n : Nat) (t1 : State), CompletesOk .fabJoin 0x0801
      (FabTeamOk n t1)
      (fun _ _ => t1.fab.level) (fun k _ => busWrite (fnPort k.q) (BitVec.ofNat 64 (le k.p 64 8)).toNat (joinRecord t1 n) t1))
  ∧ GoesOn .fabLeave 0x0802 (fun _ t => t.fab.member = true ∧ t.fab.wait = .none) (fun _ t => t)
  ∧ CompletesOk .fabStatus 0x0803 FabStatusOk (fun _ t => (liveRanks t).length)
      (fun k t => busWrite (fnPort k.q) k.d (padTo 256 (joinRecord t k.c ++ (List.range 16).flatMap (fun p =>
        toLE (portCode (t.portAt p).st) 1 ++ toLE (t.portAt p).width 1 ++ toLE (t.portAt p).level 1 ++ toLE (b2n (t.portAt p).spare) 1
        ++ toLE (t.portAt p).peer 2 ++ toLE (t.portAt p).retrained 2) ++ toLE t.fab.lost.length 2)) t)

/-- Commands that went on end like this: QUEUE_RESUME, once every record is posted and the queue has come to its slot, restarts the queue there;
QUEUE_DESTROY, once every record is posted, removes it; MEM_FENCE, when every earlier command and all that it noted has ended, drains every stack and completes; LATCH_SIGNAL
signals when every earlier command has completed; LATCH_WAIT completes when its latch has its value, and fails on poison; REQ_CANCEL completes when its
request has ended; LINK_CALIB answers its count when no port works for it (02 R49, R50, Table 2.9; 05 R217; 03 R133; 12 R455; 10 R372). -/
def Obligations.CommandsInProgressEnd : Prop :=
  (∀ (q : Nat) (e : Entry) (x : Queue) (u : State), u.getQueue (ctxQ e.ctxf (hA e.hdr % 4)) = some x → x.st ≠ .halted → x.destroy = none → e.opc = 0x0105 →
    x.resume = some (q, e.uid, hC e.hdr) → x.es.all (fun y => y.posted) = true → slotAhead x (hC e.hdr) = false →
    goOn q e u = completeEntry q e.uid { st := 0, det := 0, res := 0 } 0
      (u.updQueue (ctxQ e.ctxf (hA e.hdr % 4)) (fun y => { y with st := .active, fetch := hC e.hdr, drain := false, resume := none })))
  ∧ (∀ (q : Nat) (e : Entry) (x : Queue) (u : State), u.getQueue (ctxQ e.ctxf (hA e.hdr % 4)) = some x → e.opc = 0x0104 → x.es = [] →
    goOn q e u = completeEntry q e.uid { st := 0, det := 0, res := nth e.deps 0 0 } 0 (u.delQueue (ctxQ e.ctxf (hA e.hdr % 4))))
  ∧ (∀ (q : Nat) (e : Entry) (x : Queue) (u : State), u.getQueue q = some x → e.opc = 0x0204 →
    (earlierDone x e.uid && !anyAlive u e.deps) = false → goOn q e u = u)
  ∧ (∀ (q : Nat) (e : Entry) (x : Queue) (u : State) (f : State → State), u.getQueue q = some x → e.opc = 0x0204 → earlierDone x e.uid = true →
    anyAlive u e.deps = false → f = (fun u => completeEntry q e.uid { st := 0, det := 0, res := 0 } 0 (forEach (List.range 12) drainStack u)) →
    Passes e.uid f u → goOn q e u = passed e.uid f u)
  ∧ (∀ (q : Nat) (e : Entry) (x : Queue) (u : State), u.getQueue q = some x → e.opc = 0x0503 → ownsLatch u e.ctxf (hA e.hdr) = true →
    goOn q e u = if earlierDone x e.uid then completeEntry q e.uid { st := 0, det := 0, res := 0 } 0
      (signalLatch (hA e.hdr) (BitVec.ofNat 64 (hC e.hdr)) ((hB e.hdr).testBit 0) u) else u)
  ∧ (∀ (q : Nat) (e : Entry) (u : State), e.opc = 0x0504 → e.met = false → goOn q e u = match waitOn u (hA e.hdr) (BitVec.ofNat 64 (hC e.hdr)) with
    | .met => completeEntry q e.uid { st := 0, det := 0, res := 0 } 0 u
    | .failed => completeEntry q e.uid { st := 0x16, det := 0, res := 0 } 0 u
    | .pending => u)
  ∧ (∀ (q : Nat) (e : Entry) (r : Req) (u : State), e.opc = 0x0606 → u.getReq (hA e.hdr) = some r →
    goOn q e u = if r.st = .ended then completeEntry q e.uid { st := 0, det := 0, res := 0 } 0 u else u)
  ∧ ∀ (q : Nat) (e : Entry) (u : State), e.opc = 0x0704 →
    goOn q e u = if u.port.any (fun p => p.2.lcal = some (q, e.uid)) then u else completeEntry q e.uid { st := 0, det := 0, res := nth e.deps 0 0 } 0 u

/-- COMPLETION_RECORD_POST writes the record of the oldest command of a queue, once it has completed and the ring has room, at the completion tail, moves
the tail, turns the phase where the tail wraps, and sends the queue's vector where the packet asked for it; HEADER_LATCH_SIGNAL signals the header's latch
of a command that ended with an outcome when every earlier one has completed; LATCH_WAIT_EVAL lets go on what a latch satisfies (a core stalled in WAITL)
and fails what waits on a poisoned one: a stalled core, an engine command at the head of its engine (02 R62-R66; 03 R128, R129, R134). -/
def Obligations.RecordsAndHeaderSignals : Prop :=
  (∀ (q st det res : Nat) (x : Queue) (e : Entry) (s : State) (f : State → State), s.getQueue q = some x → x.es.find? (fun y => !y.posted) = some e →
    e.ph = .done st det res → cplFull x = false →
    f = (fun s =>
      let u := updEntry q e.uid (fun y => { y with posted := true })
        ((writeRecord x (recordBytes s q x e st det res) s).updQueue q (fun y => { y with
          cplTail := (x.cplTail + 1) % 2 ^ x.cplLog2, phase := if (x.cplTail + 1) % 2 ^ x.cplLog2 = 0 then !y.phase else y.phase }))
      sweepQ q (if e.irq then msix x.fn x.vector u else u)) →
    Passes 0 f s → exec (.completionRecordPost q) s = .next (pumpAll (passed 0 f s)))
  ∧ (∀ (q uid : Nat) (x : Queue) (e : Entry) (s : State), s.getQueue q = some x → x.es.find? (fun y => y.uid = uid) = some e → hSigEn e.hdr = true →
    e.sigged = false → e.kind = some .outcome → earlierDone x uid = true →
    exec (.headerLatchSignal q uid) s = .next (pumpAll (sweepQ q (updEntry q uid (fun y => { y with sigged := true })
      (signalLatch (hSigLatch e.hdr) (hSigVal e.hdr) (hSigAdd e.hdr) s)))))
  ∧ (∀ (l : Nat) (s : State), s.core = [] → s.queue = [] → exec (.latchWaitEval l) s = .next (pumpAll s))
  ∧ (∀ (l cl : Nat) (v : Word) (c : Core) (s : State), s.core = [(cl, c)] → s.queue = [] → c.stall = some (l, v) → c.eq = [] → c.brls = [] →
      waitOn s l v = .met → exec (.latchWaitEval l) s = .next (pumpAll { s with core := [(cl, { c with stall := none })] }))
  ∧ (∀ (l cl : Nat) (v : Word) (c : Core) (s : State), s.core = [(cl, c)] → s.queue = [] → c.stall = some (l, v) → c.eq = [] → c.brls = [] →
      waitOn s l v = .failed →
      exec (.latchWaitEval l) s = .next (pumpAll (failWaits l (failCmds l (stopRun cl 0x16 c.pc 0 { s with core := [(cl, { c with stall := none })] })))))
  ∧ ∀ (l cl : Nat) (c : Core) (e : ECmd) (s : State), s.core = [(cl, c)] → s.queue = [] → c.stall = none → c.brls = [] → c.eq = [e] → e.st = .queued →
      e.spec = [] → eWaitEn e.words = true → eWaitLatch e.words = l → e.met = false → waitOn s l e.words.w1 = .failed →
      exec (.latchWaitEval l) s = .next (pumpAll (failWaits l (stopRun cl 0x16 e.pc 0 (poisonEnv e s))))

/-- The packets of maintenance, power and the fabric (09 R345-R351; 10 R372, R377-R392; 14 R516, R517; 15 R540-R543).
That SCRUB_RANGE runs until its record comes next (log 34) and how messages are coded (log 35) are the model's choices. -/
def Obligations.MaintenanceAndFabricPackets : Prop := Claims.MaintenanceAndPowerPackets ∧ Claims.FabricPackets

end MorePackets

namespace Sys2Proof.Claims

open Sys2Proof Sys2Proof.Machine

/-- The state a run's end leaves before its command completes: its clusters are free, and with RELEASE what they held is given up (01 R37; 14 R498). -/
def freed (r : Nat) (x : Run) (s : State) : State :=
  if x.release then forEach (coresOf s r) (fun cl t => t.modCore cl (fun c => { c with live := none })) (releaseRun r s) else releaseRun r s

/-- Every core of run `r` has ended, stopped or been cut, and nothing it pushed is left (03 R101). -/
def AllFinished (r : Nat) (s : State) : Prop :=
  ∀ cl ∈ coresOf s r, ((s.coreAt cl).st = .ended ∨ (s.coreAt cl).st = .stopped ∨ (s.coreAt cl).st = .cut) ∧ (s.coreAt cl).eq = [] ∧ (s.coreAt cl).sigls = []

/-- Nothing of a list of commands is still in progress. -/
def Ended (s : State) (l : List Nat) : Prop := anyAlive s l = false

end Sys2Proof.Claims

section Runs

open Sys2Proof Sys2Proof.Machine Sys2Proof.Claims

/-- PROG_RUN_COMPLETION: once every core has finished, a run that nothing stopped answers its added skip-log entries with OK, a stopped one its stop
status, and then what it had written is undefined; a run of the Keeper hands the status to its step instead. Clusters are free either way. A run that
named STOP_INDEX writes its dump first, and a page fault of the dump is the status (03 R101, R115, R141; 02 R69). -/
def Obligations.RunsComplete : Prop :=
  (∀ (r : Nat) (x : Run) (s : State) (f : State → State), s.getRun r = some x → x.st = .running → AllFinished r s → x.stop = none → x.stopIndex = 0 →
      x.keeper = none → f = (fun s => completeEntry x.q x.uid { st := 0, det := 0, res := x.added } 0 (freed r x s)) → Passes x.uid f s →
    exec (.progRunCompletion r) s = .next (pumpAll (passed x.uid f s)))
  ∧ (∀ (r st : Nat) (x : Run) (s : State) (f : State → State), s.getRun r = some x → x.st = .running ∨ x.st = .preempting ∨ x.st = .saving →
      AllFinished r s → x.stop = some st → kindOf st = .stop ∨ kindOf st = .discard → x.keeper = none →
      f = (fun s => completeEntry x.q x.uid { st := st, det := 0, res := 0 } 0 (freed r x (spoilRun r s))) → Passes x.uid f s →
      exec (.progRunCompletion r) s = .next (pumpAll (passed x.uid f s)))
  ∧ (∀ (r k : Nat) (x : Run) (s : State), s.getRun r = some x → x.st = .running → AllFinished r s → x.stop = none → x.stopIndex = 0 → x.keeper = some k →
      exec (.progRunCompletion r) s = .next (pumpAll ((freed r x { s with acc := Reach.none }).modCas k (fun v =>
        if v.svc.run = some r then { v with svc := { v.svc with run := none, result := some 0 } } else v))))
  ∧ (∀ (r : Nat) (x : Run) (s t u : State), s.getRun r = some x → x.st = .running → AllFinished r s → x.stop = none → x.stopIndex ≠ 0 → x.keeper = none →
      writeDump x (tried x.uid s) = (t, .ok) → u = completeEntry x.q x.uid { st := 0, det := 0, res := x.added } 0 (freed r x t) → Clear u →
      exec (.progRunCompletion r) s = .next (pumpAll (u.onAcc (fun _ => Reach.none))))
  ∧ ∀ (r va : Nat) (x : Run) (s t u : State), s.getRun r = some x → x.st = .running → AllFinished r s → x.stop = none → x.stopIndex ≠ 0 → x.keeper = none →
      writeDump x (tried x.uid s) = (t, .fault va) →
      u = completeEntry x.q x.uid { st := 0x15, det := 0, res := 0 } va (freed r x (spoilRun r t)) → Clear u →
      exec (.progRunCompletion r) s = .next (pumpAll (u.onAcc (fun _ => Reach.none)))

/-- The cluster arbiter. RUN_START starts the first waiting run in order of priority and wait that can start, or takes a saved one back. A run that blocks
a waiting equal is asked at QUANTUM_EXPIRY to stop at its next hinge point: each running core of it carries the request, and nothing else of a core
changes. MIGRATION_DRAIN_TIMEOUT ends a migration that has moved (11 R421-R424, R428, R436, R437). -/
def Sys2Proof.Claims.ArbiterEvents : Prop :=
  (∀ (r : Nat) (x : Run) (s : State), s.dev.inReset = false → s.dev.clockStop = false → nextRun s = some (r, x) → x.st = .waiting →
    exec .runStart s = .next (pumpAll (startRun r x s)))
  ∧ (∀ (r : Nat) (x : Run) (s : State), s.dev.inReset = false → s.dev.clockStop = false → nextRun s = some (r, x) → x.st = .saved →
      exec .runStart s = .next (pumpAll (resumeRun r x s)))
  ∧ (∀ (r : Nat) (x : Run) (s : State), startable s x = true → (∀ e ∈ waitingRuns s, e = (r, x)) → waitingRuns s ≠ [] → nextRun s = some (r, x))
  ∧ (∀ (r : Nat) (x : Run) (s : State), s.getRun r = some x → x.st = .running → blocksEqual s r = true →
      exec (.quantumExpiry r) s = .next ((forEach (coresOf s r) (fun cl t => t.modCore cl (fun c => if c.st = .running then { c with stopReq := true } else c)) s).updRun r
        (fun y => { y with st := .preempting })))
  ∧ ∀ (c : Nat) (x : Ctx) (m : Mig) (s : State), s.getCtx c = some x → x.mig = some m → m.moved = true →
      exec (.migrationDrainTimeout c) s = .next (pumpAll (completeEntry m.q m.uid { st := 0, det := 0, res := m.result } 0
        (s.updCtx c (fun y => { y with mig := none, retired := [] }))))

/-- Preemption. At HINGE_POINT_REACHED, once every core of a run has stopped, the state of its armed areas is written out, and a run whose context has a
shutter area and that may be saved begins its save, any other ends PREEMPTED. HINGE_LATE logs one late note for each request while the hinge point is not
reached. SHUTTER_SAVE puts one cluster of a saving run into its record, in the shutter area; RUN_RESTORE brings a run back from its records (03 R113,
R114; 05 R201; 11 R424-R430). -/
def Sys2Proof.Claims.PreemptionEvents : Prop :=
  (∀ (r : Nat) (x : Run) (v : Ctx) (s : State), s.getRun r = some x → x.st = .preempting → x.stop = none →
    (coresOf s r).all (fun cl => coreAtHinge (s.coreAt cl)) = true → (coresOf s r).all (fun cl => coreFinished (s.coreAt cl)) = false →
    s.getCtx x.ctx = some v →
    (x.noSave = false → v.shutter.isSome = true →
      exec (.hingePointReached r) s = .next (pumpAll ((saveArmed r x true s).updRun r (fun y => { y with st := .saving }))))
    ∧ (x.noSave = true ∨ v.shutter = none → x.keeper = none →
        exec (.hingePointReached r) s
          = .next (pumpAll (completeEntry x.q x.uid { st := 0x06, det := 0, res := 0 } 0 (freed r x (saveArmed r x false s))))))
  ∧ (∀ (cl : Nat) (s : State), (s.coreAt cl).stopReq = true → (s.coreAt cl).late = false → (s.coreAt cl).st ≠ .ended → coreAtHinge (s.coreAt cl) = false →
      exec (.hingeLate cl) s = .next ((logSkip cl (s.coreAt cl).pc 0x20 noInfo (s.coreAt cl).pushes (clTime s cl) s).modCore cl (fun c => { c with late := true })))
  ∧ (∀ (r cl : Nat) (x : Run) (s : State), s.getRun r = some x → x.st = .saving → x.stop = none → (s.coreAt cl).run = some r →
      Passes x.uid (spillCluster r cl) s → exec (.shutterSave r cl) s = .next (pumpAll (passed x.uid (spillCluster r cl) s)))
  ∧ (∀ (r cl base : Nat) (x : Run) (p : ShutPart) (bs : BitVec 64) (s : State), s.getRun r = some x →
      shutPlace s x.ctx (s.coreAt cl).logical = some (p, bs, base) →
      (spillCluster r cl s).getSaved (x.ctx * 128 + (s.coreAt cl).logical) = some { run := r, core := { s.coreAt cl with stopReq := false, late := false } }
      ∧ (spillCluster r cl s).stackMem = (writeRec p bs base cl (reachPart p bs s)).stackMem)
  ∧ ∀ (r : Nat) (x : Run) (s : State), s.getRun r = some x → x.st = .restoring → s.dev.inReset = false → s.dev.clockStop = false →
      Passes x.uid (fun s => restoreRun r (loadArmed r s)) s →
      exec (.runRestore r) s = .next (pumpAll (passed x.uid (fun s => restoreRun r (loadArmed r s)) s))

/-- PAGE_FREE_DEFERRED frees a page, and ZERO_FILL_DONE zeroes a given-up range and takes it off the list, once the commands that each waits for have
ended; before that nothing changes (06 R237, R238; 09 R326; 11 R417). -/
def Sys2Proof.Claims.DeferredFreeing : Prop :=
  (∀ (i : Nat) (p : Page) (d : List Nat) (s : State), s.getPage i = some p → p.freeing = some d →
    (Ended s d → exec (.pageFreeDeferred i) s = .next (pumpAll (freePage i s)) ∧ (freePage i s).getPage i = none)
    ∧ (¬ Ended s d → exec (.pageFreeDeferred i) s = .next s))
  ∧ (∀ (i : Nat) (x : Fill) (s : State), s.getFills i = some x → x.far = true →
    (Ended s x.deps → exec (.zeroFillDone i) s
      = .next ((forEach (pieces 4096 x.off x.len) (fun p t => t.onFarMem (fun m => mclear m (farKey t p.1) p.2)) s).delFills i))
    ∧ (¬ Ended s x.deps → exec (.zeroFillDone i) s = .next s))
  ∧ ∀ (i : Nat) (x : Fill) (s : State), s.getFills i = some x → x.far = false → Ended s x.deps →
    exec (.zeroFillDone i) s = .next ((zeroFill x (forEach (ones x.smask) drainStack s)).delFills i)

/-- The arbiter starts runs, asks for clusters and brings runs back; hinge points, saves and restores (03 R113, R114; 11 R421-R437).
INFO of a late note is a free value (log 50). -/
def Obligations.ArbitrationAndPreemption : Prop := Claims.ArbiterEvents ∧ Claims.PreemptionEvents

end Runs

section Stacks

open Sys2Proof Sys2Proof.Machine Sys2Proof.Claims

/-- Refresh of bank set `bs` of stack `st`: REFRESH_DUE adds one to the debt, up to 8, and beyond that forces a refresh; FORCED_REFRESH starts it and ends
the burst; OPPORTUNISTIC_REFRESH pays one of the debt where the bank set has nothing to do and nothing waits for it; REFRESH_COMPLETE ends it: where a
command is in hand, what waits is served as at a yield and a new burst begins, else all that waits is served. A bank set of a gated domain owes nothing new
(05 R205, R211, R212, R214). -/
def Sys2Proof.Claims.RefreshOfABankSet : Prop :=
  ∀ (st bs : Nat) (s : State), let u := st * 64 + bs; let b := s.bankAt u
    (s.gated.contains (.stack st) = false → b.debt < 8 → exec (.refreshDue st bs) s = .next (s.modBank u (fun b => { b with debt := b.debt + 1 })))
    ∧ (s.gated.contains (.stack st) = false → b.debt = 8 → exec (.refreshDue st bs) s = .next (s.modBank u (fun b => { b with forced := true })))
    ∧ (s.gated.contains (.stack st) = true → exec (.refreshDue st bs) s = .next s)
    ∧ (b.forced = true → b.refresh = false →
        exec (.forcedRefresh st bs) s = .next (s.modBank u (fun b => { b with refresh := true, forced := false, burst := false })))
    ∧ (b.burst = false → b.refresh = false → waitsAt s u = false → 0 < b.debt → s.gated.contains (.stack st) = false →
        exec (.opportunisticRefresh st bs) s = .next (s.modBank u (fun b => { b with debt := b.debt - 1, refresh := true, forced := false, burst := false })))
    ∧ (b.refresh = true → b.busy.isSome = true → exec (.refreshComplete st bs) s = .next (pumpAll (yieldServe u (rowsLand u s))))
    ∧ (b.refresh = true → b.busy = none →
        exec (.refreshComplete st bs) s = .next (pumpAll (serveIdle (s.modBank u (fun b => { b with refresh := false })))))

/-- BURST_YIELD: at a row boundary of a burst the rows completed so far have landed; a forced refresh goes first; otherwise up to 8 waiting host accesses
are served, oldest first, then what waits to drain into the bank set, and the device accesses that wait are admitted, up to 8 each, and a new burst
begins (05 R204, R205, R208). -/
def Sys2Proof.Claims.BurstYields : Prop :=
  ∀ (st bs : Nat) (s t : State), let u := st * 64 + bs
    (s.bankAt u).burst = true → t = rowsLand u s →
    ((t.bankAt u).forced = true →
      exec (.burstYield st bs) s = .next (pumpAll (t.modBank u (fun b => { b with refresh := true, forced := false, burst := false }))))
    ∧ ((t.bankAt u).forced = false →
      exec (.burstYield st bs) s = .next (pumpAll
        ((serveDue 8 u (serveHost 8 u (t.modBank u (fun b => { b with burst := false, refresh := false })))).modBank u
          (fun b => { b with burst := true, grant := b.grant.filter (fun w => w ≠ 0) ++ b.dev.take 8, dev := b.dev.drop 8 }))))
    ∧ (∀ n, serveHost n u t = if (t.bankAt u).host.isEmpty then t else
        forEach ((t.bankAt u).host.take n) serveAcc (t.modBank u (fun b => { b with host := b.host.drop n })))

/-- A host access through an open aperture window reads or writes the allocation that BASE plus the offset names: a read of a free bank set is answered,
and poisoned where a word of it cannot be corrected, of a busy or gated one it waits, and wakes a gated stack; a write goes into the Letterbox, or waits for
the wake of a gated stack, or is dropped with ERR where the allocation is read-only; far memory is read and written on its port. Outside any window a
read returns all ones and sets ERR, and a write sets ERR. An AtomicOp is an Unsupported Request (01 R36, R41; 05 R205, R209; 09 R329-R335). -/
def Obligations.HostAperture : Prop :=
  (∀ (f win off len c va x : Nat) (a : Alloc) (ro : Bool) (s : State), apShape off len = true → apTarget s f win off = some (c, va, a, ro) → a.loc va = .stk x →
    (bankFree s (x / 2 ^ 30) = true → ∀ (t : State),
      (∀ bs : List Byte, stRead 1 x len s = (t, some bs) →
        exec (.hostApertureRead f win off len) s = .next (t.onOut (fun o => { o with reads := (f, bs, false) :: o.reads })))
      ∧ (stRead 1 x len s = (t, none) →
        exec (.hostApertureRead f win off len) s = .next (t.onOut (fun o => { o with reads := (f, mread t.stackMem x len, true) :: o.reads }))))
    ∧ (bankFree s (x / 2 ^ 30) = false →
      exec (.hostApertureRead f win off len) s = .next ((wakeFor (.stack (x / 2 ^ 30 / 64)) s).modBank (x / 2 ^ 30)
        (fun b => { b with host := b.host ++ [{ fn := f, addr := x, len := len, bs := none }] }))))
  ∧ (∀ (f win off len c va x : Nat) (a : Alloc) (ro : Bool) (s t : State), apShape off len = true →
      apTarget s f win off = some (c, va, a, ro) → a.loc va = .far x →
      (∀ bs : List Byte, farRead 1 x len s = (t, some bs) →
        exec (.hostApertureRead f win off len) s = .next (t.onOut (fun o => { o with reads := (f, bs, false) :: o.reads })))
      ∧ (farRead 1 x len s = (t, none) →
        exec (.hostApertureRead f win off len) s = .next (t.onOut (fun o => { o with reads := (f, zeros len, true) :: o.reads }))))
  ∧ (∀ (f win off len : Nat) (s : State), apShape off len = true → apTarget s f win off = none →
      exec (.hostApertureRead f win off len) s
        = .next ((setApwErr f s).onOut (fun o => { o with reads := (f, List.replicate len 0xFF, false) :: o.reads })))
  ∧ (∀ (f win off c va : Nat) (bs : List Byte) (a : Alloc) (ro : Bool) (s : State), apShape off bs.length = true → apTarget s f win off = some (c, va, a, ro) →
      (ro = true → exec (.hostApertureWrite f win off bs) s = .next (setApwErr f s))
      ∧ (ro = false → ∀ x, a.loc va = .stk x → s.gated.contains (.stack (saStack x)) = false →
          exec (.hostApertureWrite f win off bs) s = .next (stWrite 0 x bs s))
      ∧ (ro = false → ∀ x, a.loc va = .stk x → s.gated.contains (.stack (saStack x)) = true →
          exec (.hostApertureWrite f win off bs) s = .next ((wakeFor (.stack (saStack x)) s).modBank (x / 2 ^ 30)
            (fun b => { b with host := b.host ++ [{ fn := f, addr := x, len := bs.length, bs := some bs }] })))
      ∧ (ro = false → ∀ x, a.loc va = .far x → exec (.hostApertureWrite f win off bs) s = .next (vaWrite c 0 va bs s).1))
  ∧ (∀ (f win off : Nat) (bs : List Byte) (s : State), apShape off bs.length = true → apTarget s f win off = none →
      exec (.hostApertureWrite f win off bs) s = .next (setApwErr f s))
  ∧ ∀ (f win off : Nat) (s : State), exec (.atomicopRequest f win off) s = .next (s.onOut (fun o => { o with ur := o.ur + 1 }))

/-- Background work of a stack: LETTERBOX_LINE_DRAIN takes a line out of the Letterbox and hands each half that holds bytes to the merge buffer;
MERGE_ENTRY_DRAIN merges an entry into its code word; either waits where the bank set is shut or its stack gated. PATROL_ROW reads the 64 code words of the
next row and moves on, unless its bank set is shut; ECC_BUCKET_LEAK lowers the bucket by one, never below 0 (05 R205; 09 R332, R338, R340, R342, R343). -/
def Sys2Proof.Claims.StackBackgroundWork : Prop :=
  (∀ (st : Nat) (l : LbLine) (s : State), (s.lbAt st).lines.find? (fun x => x.addr = l.addr) = some l →
    (stkShut s (l.addr * 128) = false → l.bad = false → exec (.letterboxLineDrain st l.addr) s = .next (
      let t := s.modLb st (fun b => { b with lines := b.lines.filter (fun x => x.addr ≠ l.addr) })
      let half := fun (h : Nat) (t : State) =>
        if (halfCells l.cells h).isEmpty then t else mergeInto (2 * l.addr + h) (halfCells l.cells h) (halfOwners l h) t
      half 1 (half 0 t)))
    ∧ (stkShut s (l.addr * 128) = true → exec (.letterboxLineDrain st l.addr) s = .next ((reachBank (l.addr * 128) s).modLb st
        (fun b => { b with lines := b.lines.map (fun x => if x.addr = l.addr then { x with due := true } else x) }))))
  ∧ (∀ (st cw : Nat) (l : LbLine) (s : State), saStack (cw * 64) = st → mergeEntry s cw = some l →
      (stkShut s (cw * 64) = false → l.bad = false → exec (.mergeEntryDrain st cw) s
        = .next (rmw cw l.cells (l.owners.map (·.1)) (s.modLb st (fun b => { b with merge := b.merge.filter (fun x => x.addr ≠ cw) }))))
      ∧ (stkShut s (cw * 64) = true → exec (.mergeEntryDrain st cw) s = .next ((reachBank (cw * 64) s).modLb st
        (fun b => { b with merge := b.merge.map (fun x => if x.addr = cw then { x with due := true } else x) }))))
  ∧ (∀ (st r a : Nat) (s : State) (f : State → State), s.eccReg.period ≠ 0 → s.dev.stackIn.getLsbD st = true → s.gated.contains (.stack st) = false →
      r = (s.eccAt st).patrol → a = st * 2 ^ 36 + r * 4096 →
      f = (fun s => (forEach (List.range 64) (fun i => patrolWord (a + 64 * i)) (drainDramRow a (reachBank a s))).modEcc st
        (fun e => { e with patrol := (r + 1) % 2 ^ 24 })) →
      (Passes 0 f s → exec (.patrolRow st) s = .next (passed 0 f s)) ∧ (¬ Passes 0 f s → exec (.patrolRow st) s = .next (delayed 0 f s)))
  ∧ (∀ (st : Nat) (s : State), s.eccReg.period = 0 → exec (.patrolRow st) s = .next s)
  ∧ ∀ (st : Nat) (s : State), exec (.eccBucketLeak st) s = .next (s.modEcc st (fun e => { e with level := e.level - 1 }))

/-- UNIT_GATE gates a unit that may be gated: a cluster loses its contents, a stack drains its Letterbox first. UNIT_WAKE_DONE ends a wake
that an event began, and what waited at the unit goes on; a stack stays gated through a trip. A deferred microcode change takes effect at MICROCODE_SWAP
once no command names the routine, where the leaf's micro-words hold it (01 R36-R41; 14 R499, R500, R513; 05 R179, R181). -/
def Obligations.GatingAndMicrocode : Prop :=
  (∀ (n : Nat) (s : State), mayGate s (.cluster n) = true →
    exec (.unitGate (.cluster n)) s = .next ((havocCluster n s).onGated (fun l => l ++ [.cluster n])))
  ∧ (∀ (n : Nat) (s : State), mayGate s (.stack n) = true →
      exec (.unitGate (.stack n)) s = .next ((havocStores n (quietBanks n (drainStack n s))).onGated (fun l => l ++ [.stack n])))
  ∧ (∀ (u : GUnit) (s : State), mayGate s u = true → (∀ n, u ≠ .cluster n) → (∀ n, u ≠ .stack n) →
      exec (.unitGate u) s = .next (s.onGated (fun l => l ++ [u])))
  ∧ (∀ (u : GUnit) (s : State), mayGate s u = false → exec (.unitGate u) s = .next s)
  ∧ (∀ (u : GUnit) (s : State), s.gated.contains u = true → s.wake.contains u = true → fusedOff s u = false → s.dev.inReset = false →
      s.therm.trip = false ∨ (∀ n, u ≠ .stack n) →
      exec (.unitWakeDone u) s = .next (pumpAll (serveIdle ((s.onGated (fun l => l.filter (fun x => x ≠ u))).onWake (fun l => l.filter (fun x => x ≠ u))))))
  ∧ (∀ (n : Nat) (s : State), s.therm.trip = true → exec (.unitWakeDone (.stack n)) s = .next s)
  ∧ (∀ (leaf fn ver : Nat) (ws : List (BitVec 128)) (s : State),
      s.fw.ucodePend.find? (fun e => e.1 = leaf * 64 + fn) = some (leaf * 64 + fn, some (ver, ws)) →
      routineNamed s leaf fn = false → procDown s (4 + leaf % 2) = false → ucodeWords s.fw (leaf * 64 + fn) + ws.length ≤ 4096 →
      exec (.microcodeSwap leaf fn) s = .next ((trace (4 + leaf % 2) 0x4004 1 (BitVec.ofNat 64 fn) (BitVec.ofNat 64 ver) s).onFw (fun w => { w with
        uram := tset w.uram (leaf * 64 + fn) (ver, ws), ucodePend := w.ucodePend.filter (fun x => x.1 ≠ leaf * 64 + fn) })))
  ∧ ∀ (leaf fn : Nat) (s : State), routineNamed s leaf fn = true ∨ procDown s (4 + leaf % 2) = true → exec (.microcodeSwap leaf fn) s = .next s

/-- Refresh of a bank set and the yields of a burst (05 R204-R214). -/
def Obligations.BankSetArbitration : Prop := Claims.RefreshOfABankSet ∧ Claims.BurstYields

/-- Letterbox and merge drains, the patrol, the bucket leak, deferred freeing and zero fills (06 R237, R238; 09 R326, R332-R343; 11 R417). -/
def Obligations.BackgroundWork : Prop := Claims.StackBackgroundWork ∧ Claims.DeferredFreeing

end Stacks

section Heat

open Sys2Proof Sys2Proof.Machine Sys2Proof.Claims

/-- SENSOR_SAMPLE takes the readings (0.25 °C), in order, then the state of the THERM_IN inputs. One reading: hot at or above the hot threshold and,
once hot, until it falls to the release threshold; the device interrupt of an optical engine or input that turns hot. A faulty enabled input sets
FAULT once (14 R501, R502, R510; Table 14.2). -/
def Sys2Proof.Claims.SensorReadings : Prop :=
  (∀ (rs : List (Nat × Int)) (faulty : BitVec 4) (s : State), s.dev.inReset = false →
    exec (.sensorSample rs faulty) s = .next (forEach (List.range 12) refreshRate (forEach (List.range 4) faultInput
      (forEach rs sampleSite (s.onTherm (fun t => { t with openIn := faulty }))))))
  ∧ (∀ (i : Nat) (h rel trip x : Int) (s : State), siteLimits s i = some (h, rel, trip) → inputOpen s i = false →
      tget (sampleSite (i, x) s).therm.temp i = some x
      ∧ (i ∈ (sampleSite (i, x) s).therm.hot ↔ (4 * h ≤ x ∨ i ∈ s.therm.hot ∧ 4 * rel < x))
      ∧ (∀ j, j ≠ i → (j ∈ (sampleSite (i, x) s).therm.hot ↔ j ∈ s.therm.hot)))
  ∧ (∀ (i : Nat) (x : Int) (s : State), siteLimits s i = none → sampleSite (i, x) s = s)
  ∧ (∀ (i : Nat) (s : State), i < 4 → s.therm.openIn.getLsbD i = true → (siteLimits s (0x400 + i)).isSome = true → s.therm.fault.getLsbD i = false →
      faultInput i s = devEvent 3 (s.onTherm (fun t => { t with fault := setBit t.fault i true })))

/-- The refresh interval of a stack halves (and its refreshes double) when any DRAM die reads above 85 °C and returns when all read 82 °C or
below; between the two it stays (05 R213). -/
def Obligations.RefreshIntervalFollowsTheHottestDie : Prop :=
  ∀ (st : Nat) (s : State), st < 12 →
    (4 * 85 < dramMax s st → (refreshRate st s).therm.ref2x.getLsbD st = true)
    ∧ (dramMax s st ≤ 4 * 82 → (refreshRate st s).therm.ref2x.getLsbD st = false)
    ∧ (4 * 82 < dramMax s st → dramMax s st ≤ 4 * 85 → refreshRate st s = s)
    ∧ ∀ k, k ≠ st → (refreshRate st s).therm.ref2x.getLsbD k = s.therm.ref2x.getLsbD k

/-- THERMAL_TRIP: the site's reading stands at or above its trip threshold, TRIP is set, TRIP_SITE names it, TRIP_N is driven low, the clocks stop and the
device event is raised; then what runs is stopped and every run ended, every awake memory domain gated, every port put DOWN, and the device leaves
its group. A second trip, and a number that names no site, have no effect (14 R513, R514; 10 R404; 16 R567). -/
def Sys2Proof.Claims.ThermalTripStopsTheModule : Prop :=
  (∀ (site : Nat) (h rel trip : Int) (s : State), siteLimits s site = some (h, rel, trip) → s.therm.trip = false → s.dev.inReset = false →
    inputOpen s site = false →
    let c := tgetD s.therm.temp site 0
    let r := sampleSite (site, if c < 4 * trip then 4 * trip else c) s
    let m := ((r.onDev (fun d => { d with clockStop := true })).onTherm (fun x => { x with trip := true, tripSite := site })).onPin (fun p => { p with tripN := false })
    let stopped := forEach (tkeys (devEvent 2 m).core) stopFlying (devEvent 2 m)
    let ended := forEach (tkeys stopped.run) tripRun stopped
    let asleep := forEach ((List.range 12).filter (fun n => !ended.gated.contains (.stack n))) (fun n => gate (.stack n)) ended
    exec (.thermalTrip site) s = .next (pumpAll (dropGroup (forEach (List.range 16) darkPort asleep))))
  ∧ (∀ (site : Nat) (s : State), s.therm.trip = true → exec (.thermalTrip site) s = .next s)
  ∧ ∀ (site : Nat) (s : State), siteLimits s site = none → exec (.thermalTrip site) s = .next s

/-- Writing 1 to TRIP clears it once every site reads at or below its release threshold, and is ignored before that: clocks run, TRIP_N is high and every
controlled unit starts at FLOOR_STEP; a device reset that waited for the clear follows (15 R537). Writing 1 to a FAULT bit clears that bit, and the next
sample of an input still faulted sets it and the cause of the device interrupt again, and sends the interrupt where the cause was 0 (14 R515, 16 R557, R568). DIODE_CALIBRATION of the site in hand goes on to the
next diode (14 R503). -/
def Obligations.TripAndFaultClears : Prop :=
  (∀ (v : View) (a : Acc) (x : Nat) (s : State), actVal a = some x → pfOrMp s v = true → x.testBit 0 = true → s.therm.trip = true →
    (allReleased s = true → ∀ (steps : Tbl Nat) (n t : State), steps = (List.range 14).map (fun u => (u, s.lvr.floorStep)) →
      n = { s with therm := { s.therm with trip := false }, dev := { s.dev with clockStop := false }, pin := { s.pin with tripN := true },
                   lvr := { s.lvr with step := steps, written := steps } } →
      t = noticeUpdate n → exec (.tripClear v a) s = .next (if t.dev.rst then deviceReset t else pumpAll t)
        ∧ ∀ u, u < 14 → stepOf n u = s.lvr.floorStep)
    ∧ (allReleased s = false → exec (.tripClear v a) s = .next s))
  ∧ (∀ (v : View) (a : Acc) (x : Nat) (s : State), actVal a = some x → pfOrMp s v = true →
      exec (.thermFaultClear v a) s = .next (s.onTherm (fun t => { t with fault := t.fault &&& ~~~ BitVec.ofNat 4 (x / 256 % 16) })))
  ∧ (∀ (i : Nat) (faulty : BitVec 4) (s : State), i < 4 → s.dev.inReset = false → faulty.getLsbD i = true → (siteLimits s (0x400 + i)).isSome = true →
      s.therm.fault.getLsbD i = false → ∃ t, exec (.sensorSample [] faulty) s = .next t ∧ t.therm.fault.getLsbD i = true
        ∧ (t.fnAt 0).cause.getLsbD 3 = true ∧ (t.fnAt 17).cause.getLsbD 3 = true
        ∧ ∀ f, f = 0 ∨ f = 17 → (s.fnAt f).cause.getLsbD 3 = false → (s.fnAt f).devEn = true → (f, (s.fnAt f).devVec) ∈ t.out.msix)
  ∧ ∀ (site : Nat) (s : State), siteIndex site = some (s.therm.calib / 2) → procDown s 1 = false →
      exec (.diodeCalibration site) s = .next (s.onTherm (fun t => { t with calib := (t.calib + 1) % 496 }))

/-- Sensor readings, and what a thermal trip does (14 R501, R502, R510, R513, R514). -/
def Obligations.SensorsAndTrip : Prop := Claims.SensorReadings ∧ Claims.ThermalTripStopsTheModule

end Heat

section Power

open Sys2Proof Sys2Proof.Machine Sys2Proof.Claims

/-- CONTROL_STEP. Outside a restart, a trip and reset it leaves every unit at a step that is at least its thermal step, at least FLOOR_STEP while
the floor stays engaged, and at most two steps faster than before; it records the draw and takes the power share that came (14 R509, R510, R512,
R518). While Louvre restarts or a trip is in force no step changes (R513, R520). -/
def Obligations.ControlStepLimits : Prop :=
  (∀ (draw fixed : Nat) (load : List Nat) (s : State), procDown s 1 = false → s.therm.trip = false → s.dev.inReset = false →
    ∃ t, exec (.controlStep draw fixed load) s = .next t ∧ t.lvr.draw = draw ∧ t.lvr.shareNext = none
      ∧ (t.lvr.share = match s.lvr.shareNext with | some w => some w | none => s.lvr.share)
      ∧ ∀ u, u < 14 → tgetD t.lvr.therm u 0 = nextTherm s u ∧ nextTherm s u ≤ stepOf t u
        ∧ stepOf s u ≤ stepOf t u + 2 ∧ (t.lvr.floor = true → s.lvr.floorStep ≤ stepOf t u))
  ∧ ∀ (draw fixed : Nat) (load : List Nat) (s : State), procDown s 1 = true ∨ s.therm.trip = true ∨ s.dev.inReset = true →
      exec (.controlStep draw fixed load) s = .next s

/-- THERMAL_STEP_RELEASE gives one thermal step back where no site of the unit is hot. FLOOR_ENGAGE: an average above PLIM + MARGIN per cent puts every unit
at FLOOR_STEP or a lower clock. FLOOR_RELEASE: with Louvre running, a fall below the threshold lets the next control step release; without it, an
average below 0.9 PLIM returns each unit to the step Louvre last wrote (14 R510-R512). -/
def Sys2Proof.Claims.FloorLimiter : Prop :=
  (∀ (u : Nat) (s : State), u < 14 → unitHot s u = [] → procDown s 1 = false →
    exec (.thermalStepRelease u) s = .next (s.onLvr (fun l => { l with therm := tset l.therm u (tgetD l.therm u 0 - 1) })))
  ∧ (∀ (avg : Nat) (s : State), plim s * (100 + s.lvr.margin) < avg * 100 → s.therm.trip = false → s.dev.inReset = false →
      exec (.floorEngage avg) s = .next (noticeUpdate (s.onLvr (fun l => { l with
        floor := true, below := false, step := (List.range 14).foldl (fun t u => tset t u (Nat.max l.floorStep (tgetD t u 0))) l.step }))))
  ∧ (∀ (avg : Nat) (s : State), avg * 100 ≤ plim s * (100 + s.lvr.margin) → exec (.floorEngage avg) s = .next s)
  ∧ (∀ (avg : Nat) (s : State), s.lvr.floor = true → procDown s 1 = false → avg * 100 < plim s * (100 + s.lvr.margin) →
      exec (.floorRelease avg) s = .next (s.onLvr (fun l => { l with below := true })))
  ∧ ∀ (avg : Nat) (s : State), s.lvr.floor = true → procDown s 1 = true → avg * 10 < plim s * 9 →
      exec (.floorRelease avg) s = .next (noticeUpdate (s.onLvr (fun l => { l with
        floor := false, below := false, step := (List.range 14).foldl (fun t u => tset t u (tgetD l.written u 0)) l.step })))

/-- Slow-notices. SLOW_NOTICE_RENEW sends the own notice again under a new number while EXT is above 0. SLOW_NOTICE_RECEIVE takes a newer notice of another
rank: the step timeouts of the collectives in flight follow it, TOUT or the group default and the largest EXT in force of their plan's ranks; it is
forwarded to the neighbours in the team of the plan that it came on, once for each plan, and any other is dropped. SLOW_NOTICE_LAPSE forgets the notice of
an origin (10 R401-R403). -/
def Sys2Proof.Claims.SlowNotices : Prop :=
  (∀ s : State, 0 < s.fab.ownNotice.1 → exec .slowNoticeRenew s = .next (sendOwn (s.onFab (fun f => { f with ownNotice := (f.ownNotice.1, f.ownNotice.2 + 1) }))))
  ∧ (∀ s : State, s.fab.ownNotice.1 = 0 → exec .slowNoticeRenew s = .next s)
  ∧ (∀ (n : Notice) (s t : State) (p : Nat × Plan), s.fab.member = true → n.origin ≠ s.fab.rank →
      ((∀ x, tget s.fab.notices n.origin = some x → x.1 < n.seq)
          ∧ t = relimit (s.onFab (fun f => { f with notices := tset f.notices n.origin (n.seq, n.ext, [n.plan]) }))
        ∨ ∃ e l, tget s.fab.notices n.origin = some (n.seq, e, l) ∧ n.plan ∉ l
          ∧ t = s.onFab (fun f => { f with notices := tset f.notices n.origin (n.seq, n.ext, l ++ [n.plan]) })) →
      t.plan.find? (fun p => p.1 % 4096 = n.plan && p.2.ranks.contains n.origin && p.2.ranks.contains t.fab.rank) = some p →
      exec (.slowNoticeReceive n) s
        = .next (servePorts (sendNotice n ((teamNeighbours t p.2.ranks).filter (fun r => r ≠ n.origin)) t)))
  ∧ (∀ (s : State) (u : Nat) (c : Coll), s.getColl u = some c → c.finished = false →
      (relimit s).getColl u = some { c with limit := (if c.tout = 0 then s.fab.stepUs else c.tout) + extHeld s (planRanks s c.plan) })
  ∧ (∀ (n : Notice) (x : Nat × Nat × List Nat) (s : State), tget s.fab.notices n.origin = some x → n.seq < x.1 ∨ n.seq = x.1 ∧ n.plan ∈ x.2.2 →
      exec (.slowNoticeReceive n) s = .next s)
  ∧ (∀ (n : Notice) (s : State), s.fab.member = false ∨ n.origin = s.fab.rank → exec (.slowNoticeReceive n) s = .next s)
  ∧ ∀ (r : Nat) (s : State), exec (.slowNoticeLapse r) s = .next (relimit (s.onFab (fun f => { f with notices := tdel f.notices r })))

/-- The release of thermal steps, the floor limiter, and slow-notices (10 R402, R403; 14 R510-R512). -/
def Obligations.FloorLimiterAndSlowNotices : Prop := Claims.FloorLimiter ∧ Claims.SlowNotices

end Power

section Links

open Sys2Proof Sys2Proof.Machine Sys2Proof.Claims

/-- The states of a port: light on at least 2 lanes starts training, light lost on more than 3 lanes makes it DOWN from any state, locked lanes go on to
NEGOTIATE, where this end reports itself, and the negotiation ends UP at the lower of the two levels, or MISWIRED where the peer is not the one the map
expects; it comes again where an end has joined (10 R365-R367, R376; Table 10.3). -/
def Sys2Proof.Claims.PortStates : Prop :=
  (∀ (p lanes : Nat) (s : State), p < 16 → 2 ≤ lanes → (s.portAt p).st = .down → s.therm.trip = false → s.dev.inReset = false →
    exec (.linkLightOn p lanes) s = .next (setPort p .train s) ∧ ((setPort p .train s).portAt p).st = .train)
  ∧ (∀ (p lanes : Nat) (s : State), p < 16 → 3 < lanes →
      exec (.linkLightLost p lanes) s = .next (pumpAll (noticeUpdate (darkPort p s))) ∧ ((darkPort p s).portAt p).st = .down
      ∧ ((darkPort p s).portAt p).replay = [])
  ∧ (∀ (p lanes : Nat) (s : State), lanes ≤ 3 → exec (.linkLightLost p lanes) s = .next s)
  ∧ (∀ (p : Nat) (s : State), p < 16 → (s.portAt p).st = .train ∨ (s.portAt p).st = .retrain → s.dev.inReset = false →
      exec (.lanesLocked p) s = .next (pumpAll ((setPort p .negotiate s).onOut (fun o => { o with links := (p, .ident (ownIdent s)) :: o.links })))
      ∧ ((setPort p .negotiate s).portAt p).st = .negotiate)
  ∧ ∀ (p : Nat) (peer : PeerId) (s : State), p < 16 → s.dev.inReset = false →
      (s.portAt p).st = .negotiate ∨ (s.portAt p).st = .up ∨ (s.portAt p).st = .miswired →
      let low := s.modPort p (fun y => { y with
        level := Nat.min s.dev.compatLevel peer.level, width := Nat.min (laneWidth y.tx) (laneWidth y.rx), spare := spareIn y.tx || spareIn y.rx,
        peer := if peer.joined then peer.rank else 0, peerDigest := peer.digest, fails := 0 })
      let inGroup := s.fab.member = true ∨ s.fab.wait = .joining
      (¬ inGroup ∨ peer.joined = false ∨ expectRank s p = none →
          exec (.negotiationComplete p peer) s = .next (pumpAll (noticeUpdate (setPort p .up low))))
      ∧ (∀ r, expectRank s p = some r → peer.group = s.fab.group → peer.rank = r →
          exec (.negotiationComplete p peer) s = .next (pumpAll (noticeUpdate (setPort p .up low))))
      ∧ (∀ r, inGroup → peer.joined = true → expectRank s p = some r → peer.group ≠ s.fab.group ∨ peer.rank ≠ r →
          exec (.negotiationComplete p peer) s = .next (pumpAll (noticeUpdate (setPort p .miswired low))))

/-- A lane of a direction that fails leaves the port with that direction's spare in its place, with width 2 when fewer than 4 work, and DOWN when fewer
than 2 do. LANE_CALIBRATION counts the lane in hand and goes to the next; CALIBRATION_PERIOD lists all four lanes of every port of the leaf that may
calibrate (10 R362, R369, R371, R372). -/
def Sys2Proof.Claims.PortLanes : Prop :=
  (∀ (p lane : Nat) (tx rx : BitVec 5) (s : State), p < 16 → lane < 10 → (s.portAt p).st ≠ .down →
    tx = (if lane < 5 then setBit (s.portAt p).tx lane false else (s.portAt p).tx) →
    rx = (if lane < 5 then (s.portAt p).rx else setBit (s.portAt p).rx (lane - 5) false) →
    ((ones tx).length < 2 ∨ (ones rx).length < 2 → exec (.laneFail p lane) s = .next (pumpAll (noticeUpdate (darkPort p s))))
    ∧ (2 ≤ (ones tx).length → 2 ≤ (ones rx).length → (s.portAt p).st = .up →
      exec (.laneFail p lane) s = .next (pumpAll (noticeUpdate (s.modPort p (fun y => { y with
        tx := tx, rx := rx, width := if 4 ≤ (ones tx).length ∧ 4 ≤ (ones rx).length then 4 else 2, spare := spareIn tx || spareIn rx, calib := [],
        lcal := none }))))))
  ∧ (∀ (p lane : Nat) (rest : List Nat) (s : State), p < 16 → (s.portAt p).calib = lane :: rest → procDown s (2 + p / 8) = false → (s.portAt p).lcal = none →
      exec (.laneCalibration p lane) s = .next (pumpAll (s.modPort p (fun y => { y with retrained := y.retrained + 1, calib := rest, lcal := none }))))
  ∧ (∀ (p lane q u : Nat) (rest : List Nat) (s : State), p < 16 → (s.portAt p).calib = lane :: rest → procDown s (2 + p / 8) = false →
      (s.portAt p).lcal = some (q, u) →
      exec (.laneCalibration p lane) s = .next (pumpAll ((updEntry q u (fun e => { e with deps := [nth e.deps 0 0 + 1] }) s).modPort p (fun y => { y with
        retrained := y.retrained + 1, calib := y.calib.drop 1, lcal := if (y.calib.drop 1).isEmpty then none else y.lcal }))))
  ∧ ∀ (leaf : Nat) (s : State), leaf < 2 → procDown s (2 + leaf) = false →
      exec (.calibrationPeriod leaf) s = .next (forEach ((List.range 8).map (fun i => leaf * 8 + i)) (fun p t =>
        t.modPort p (fun x => if x.st = .up ∧ x.spare = false ∧ x.level = 2 ∧ x.calib = [] then { x with calib := [0, 1, 2, 3] } else x)) s)

/-- What comes in on the link of an UP port: an acknowledgement releases the flits held up to it. A flit with the sequence number that the link awaits is
taken and acknowledged, where there is room for it, and the number moves on by one modulo 4,096; one that was here before is acknowledged again; one ahead
is answered with a negative acknowledgement. A negative acknowledgement of a flit still held replays from it on, and REPLAY_TIMEOUT all that is held; after
16 failed replays the port retrains and sends the held flits another way. STEP_TIMEOUT ends the collective with PEER_LOST and reports the ranks that it
waits for (10 R370, R374, R395, R401). -/
def Obligations.FlitsAndReplay : Prop :=
  (∀ (p n : Nat) (m : LinkIn) (fl : Flit) (s t : State), p < 16 → (s.portAt p).st = .up → s.dev.inReset = false →
    t = (match m.ack with | some k => portAck p k s | none => s) → n = (t.portAt p).rxSeq → m.flit = some fl →
    (fl.lseq = n → arrivalRoom p fl t = true → exec (.flitReceive p m) s = .next (pumpAll (takeArrival p fl
      (linkSend p (.ack n) (t.modPort p (fun y => { y with rxSeq := (y.rxSeq + 1) % 4096 }))))))
    ∧ (fl.lseq = n → arrivalRoom p fl t = false → exec (.flitReceive p m) s = .next (pumpAll t))
    ∧ (fl.lseq ≠ n → (n + 4096 - fl.lseq) % 4096 ≤ 256 → exec (.flitReceive p m) s = .next (pumpAll (linkSend p (.ack ((n + 4095) % 4096)) t)))
    ∧ (fl.lseq ≠ n → 256 < (n + 4096 - fl.lseq) % 4096 → exec (.flitReceive p m) s = .next (pumpAll (linkSend p (.nak n) t))))
  ∧ (∀ (p k : Nat) (m : LinkIn) (s : State), p < 16 → (s.portAt p).st = .up → s.dev.inReset = false → m.flit = none → m.ack = some k →
      exec (.flitReceive p m) s = .next (pumpAll (s.modPort p (fun y => if y.replay.any (fun f => f.2.lseq = k) then
        { y with replay := (y.replay.dropWhile (fun f => f.2.lseq ≠ k)).drop 1, fails := 0 } else y))))
  ∧ (∀ (p seq fails : Nat) (held : List (Option Nat × Flit)) (s : State), p < 16 → (s.portAt p).st = .up →
      held = (s.portAt p).replay.dropWhile (fun f => f.2.lseq ≠ seq) → held ≠ [] →
      fails = (if held.length < (s.portAt p).replay.length then 0 else (s.portAt p).fails) →
      (fails < 16 → exec (.negativeAck p seq) s = .next (pumpAll ((s.modPort p (fun y => { y with replay := held, fails := fails + 1 })).onOut (fun o => { o with
        flits := (held.map (fun f => (p, f.2))).reverse ++ o.flits }))))
      ∧ (16 ≤ fails → exec (.negativeAck p seq) s = .next (pumpAll (forEach held (fun f => sendFlit f.1 f.2)
        (setPort p .retrain (s.modPort p (fun y => { y with replay := [], fails := 0 })))))))
  ∧ (∀ (p : Nat) (s : State), p < 16 → (s.portAt p).st = .up → (s.portAt p).replay ≠ [] →
      ((s.portAt p).fails < 16 → exec (.replayTimeout p) s
        = .next (pumpAll ((s.modPort p (fun y => { y with replay := (s.portAt p).replay, fails := (s.portAt p).fails + 1 })).onOut (fun o => { o with
          flits := ((s.portAt p).replay.map (fun f => (p, f.2))).reverse ++ o.flits }))))
      ∧ (16 ≤ (s.portAt p).fails → exec (.replayTimeout p) s = .next (pumpAll (forEach (s.portAt p).replay (fun f => sendFlit f.1 f.2)
        (setPort p .retrain (s.modPort p (fun y => { y with replay := [], fails := 0 })))))))
  ∧ (∀ (u : Nat) (c : Coll) (s : State), s.getColl u = some c → c.finished = false →
      exec (.stepTimeout u) s = .next (pumpAll (forEach (collAwaits s c)
        (fun r t => if t.fab.isLintel then peerLost t.fab.rank r t else sendMsg t.fab.lintel [13, r] t) (collStop u (EOut.stop 0x30 0) s))))
  ∧ ∀ (u : Nat) (s : State), (s.getColl u = none ∨ ∃ c, s.getColl u = some c ∧ c.finished = true) → exec (.stepTimeout u) s = .next (pumpAll s)

/-- The states of a port and its lanes (10 R365-R372, R376; Table 10.3). -/
def Obligations.PortStatesAndLanes : Prop := Claims.PortStates ∧ Claims.PortLanes

end Links

section Groups

open Sys2Proof Sys2Proof.Machine Sys2Proof.Claims

/-- Forming a group. The lintel acknowledges an announcement that agrees with it and forms the group once it holds all, refuses one that does not agree;
a member that is not the lintel passes it on. JOIN_ANNOUNCE_REPEAT sends again what has no acknowledgement; a refusal, an abort or the timeout ends
FAB_JOIN and the device belongs to no group, and a refusal ends a RAISE or TEAM; a commit makes it a member and completes FAB_JOIN with the level (10
R379-R382, R385, R388).
How messages are coded is the model's choice (log 35). -/
def Obligations.GroupFormation : Prop :=
  (∀ (m : AnnounceMsg) (s : State), mullBusy s = false → s.fab.wait = .joining → s.fab.rank = s.fab.lintel →
    (m.group = s.fab.group → m.sizes = s.fab.sizes → m.rank < s.fab.members →
      exec (.joinAnnounce m) s = .next (pumpAll (tryForm (holdAnnounce m (sendMsgV m.mver m.rank [22] s)))))
    ∧ (m.group ≠ s.fab.group ∨ m.sizes ≠ s.fab.sizes ∨ s.fab.members ≤ m.rank →
      exec (.joinAnnounce m) s = .next (pumpAll (refuseJoin m.rank m.mver false (sendMsgV m.mver m.rank [22] s)))))
  ∧ (∀ (m : AnnounceMsg) (s : State), mullBusy s = false → s.fab.wait = .none → s.fab.member = true →
      (s.fab.isLintel = true → exec (.joinAnnounce m) s = .next (pumpAll (rejoin m (sendMsgV m.mver m.rank [22] s))))
      ∧ (s.fab.isLintel = false → s.fab.lintelLost = false →
          exec (.joinAnnounce m) s = .next (pumpAll (sendMsgV m.mver s.fab.lintel (annFields 1 m) s))))
  ∧ (∀ (a : List Nat) (s t : State), s.fab.wait = .joining → s.fab.announced = false → mullBusy s = false → a = annFields 1 (ownAnnounce s) →
      t = (if s.fab.rank = s.fab.lintel then s else sendMsg s.fab.lintel a s) →
      (t.fab.lmode = 1 → exec .joinAnnounceRepeat s = .next (servePorts t))
      ∧ ∀ u : State, t.fab.lmode ≠ 1 → u = t.onFab (fun f => { f with candidate := nextTry t }) →
          exec .joinAnnounceRepeat s = .next (servePorts (if nextTry t = u.fab.rank ∨ nextTry t = u.fab.lintel then u else sendMsg (nextTry t) a u)))
  ∧ (∀ s : State, mullBusy s = false → s.fab.wait = .joining →
      exec (.joinRefuse true) s = .next (pumpAll (leaveGroup (fabAnswer { st := 0x31, det := 0, res := 0 } s)))
      ∧ exec (.joinRefuse false) s = .next (pumpAll (leaveGroup (fabAnswer { st := 0x01, det := 6, res := 0 } s)))
      ∧ exec .groupAbort s = .next (pumpAll (leaveGroup (fabAnswer { st := 0x30, det := 0, res := 0 } s))))
  ∧ (∀ (ver : Bool) (s : State), mullBusy s = false →
      (s.fab.wait = .raising → exec (.joinRefuse ver) s = .next (pumpAll (fabAnswer { st := 0x31, det := 0, res := 0 } (answered s.fab.lintel 19 s))))
      ∧ (s.fab.wait = .teaming → exec (.joinRefuse ver) s = .next (pumpAll (fabAnswer { st := 0x40, det := 3, res := 0 } (answered s.fab.lintel 23 s)))))
  ∧ (∀ (m : CommitMsg) (s : State), mullBusy s = false → s.fab.wait = .joining → takesMver s m.mver = true → ∃ t,
      exec (.groupCommit m) s = .next (pumpAll (fabAnswer { st := 0, det := 0, res := m.level } t)) ∧ t.fab.member = true ∧ t.fab.lintel = m.lintel
      ∧ t.fab.level = m.level ∧ t.fab.wait = .joining)
  ∧ (∀ s : State, s.fab.wait = .joining →
      (s.fab.rank ≠ s.fab.lintel → exec .formationTimeout s = .next (pumpAll (leaveGroup (fabAnswer { st := 0x30, det := 0, res := 0 } s))))
      ∧ (s.fab.rank = s.fab.lintel → exec .formationTimeout s = .next (pumpAll (joinFails (sendAll [4] s)))))
  ∧ (∀ s : State, (leaveGroup s).fab.member = false ∧ (leaveGroup s).plan = [] ∧ (leaveGroup s).lvr.share = none)

/-- The lintel sends its beat to those after it in the broadcast tree, a member restarts its timer on it and passes it on; a member that hears none
declares the lintel lost and turns to the lowest live rank above it, and to the next where no acknowledgement comes; a rank that has itself declared the
lintel lost holds the announcements sent to it and succeeds when it has all of them. Under LMODE 1 nobody succeeds (10 R375, R382). -/
def Sys2Proof.Claims.LintelBeatAndSuccession : Prop :=
  (∀ (p : Plan) (s : State), s.getPlan (handleNow s 0 3) = some p →
    beatOn s = servePorts (forEach (p.steps.filter (fun x => x.root = s.fab.lintel && x.sendTo ≠ s.fab.rank)) (fun x t =>
      sendVia none x.ports { newFlit t x.sendTo 4 3 with plan := p.handle % 4096 } t) s))
  ∧ (∀ s : State, s.fab.member = true → s.fab.isLintel = true → mullBusy s = false → exec .lintelBeatSend s = .next (beatOn s))
  ∧ (∀ s t : State, s.fab.member = true → s.fab.isLintel = false → t = s.onFab (fun f => { f with beatAt := s.ctr 0 }) →
      exec .lintelBeat s = .next (if mullBusy s then t else beatOn t))
  ∧ (∀ s : State, s.fab.member = true → s.fab.isLintel = false → s.fab.lintelLost = false → mullBusy s = false →
      let t := s.onFab (fun f => { f with lintelLost := true, anns := [], candidate := f.lintel })
      (s.fab.lmode ≠ 1 → exec .lintelLost s = .next (pumpAll (trySucceed (turnTo (nextLive t s.fab.lintel) t))))
      ∧ (s.fab.lmode = 1 → s.fab.wait = .none → exec .lintelLost s = .next (pumpAll t))
      ∧ (s.fab.lmode = 1 → s.fab.wait = .raising ∨ s.fab.wait = .teaming →
          exec .lintelLost s = .next (pumpAll (fabAnswer { st := 0x30, det := 0, res := 0 } t))))
  ∧ (∀ s : State, s.fab.member = true → s.fab.lintelLost = true → s.fab.lmode = 0 → mullBusy s = false →
      (s.fab.candidate ≠ s.fab.rank → s.fab.announced = false →
        exec .lintelAnnounceTimeout s = .next (pumpAll (trySucceed (turnTo (nextLive s s.fab.candidate) s))))
      ∧ ∀ m : AnnounceMsg, exec (.lostLintelAnnouncement m) s = .next (pumpAll (trySucceed (holdAnnounce m (sendMsgV m.mver m.rank [22] s)))))
  ∧ ∀ (m : AnnounceMsg) (s : State), s.fab.lintelLost = false → exec (.lostLintelAnnouncement m) s = .next s

/-- A member that MEMBER_LOST names is lost, and every plan with it is unusable. The lintel declares a member lost that two members report, or that leaves.
FAB_LEAVE completes when it is acknowledged. A RAISE that every member's level allows publishes new plans, any other is refused. PLAN_PUBLISH installs
plans and completes a RAISE, or the TEAM asked for, that waits for them, PLAN_GRACE_EXPIRY closes the retired ones; a message without an answer is sent
again (10 R380, R382-R391). -/
def Sys2Proof.Claims.LossLeavingAndPlans : Prop :=
  (∀ (r : Nat) (s : State), s.fab.member = true → mullBusy s = false →
    exec (.memberLost r) s = .next ((s.onFab (fun f => { f with lost := if f.lost.contains r then f.lost else f.lost ++ [r] })).onPlan
      (tmap (fun _ p => if p.ranks.contains r then { p with usable := false } else p))))
  ∧ (∀ (src lost : Nat) (s : State), s.fab.member = true → s.fab.isLintel = true → mullBusy s = false → liveRank s lost = true → liveRank s src = true → src ≠ lost →
      let l := if s.fab.reports.contains (src, lost) then s.fab.reports else s.fab.reports ++ [(src, lost)]
      let t := s.onFab (fun f => { f with reports := l })
      exec (.peerLostReport src lost) s = .next (pumpAll (if 2 ≤ (l.filter (fun x => x.2 = lost)).length then declareLost lost t else t)))
  ∧ (∀ (r : Nat) (s : State), s.fab.member = true → s.fab.isLintel = true → mullBusy s = false →
      exec (.leave r) s = .next (pumpAll (declareLost r (sendMsg r [8] s))))
  ∧ (∀ s : State, s.fab.wait = .leaving → mullBusy s = false →
      exec .leaveAcknowledged s = .next (pumpAll (leaveGroup (fabAnswer { st := 0, det := 0, res := 0 } s))))
  ∧ (∀ (src lv : Nat) (s : State), s.fab.member = true → s.fab.isLintel = true → mullBusy s = false →
      (mayRaise s lv = true → exec (.raiseRequest src lv) s = .next (pumpAll (rebuildPlans lv s)))
      ∧ (mayRaise s lv = false → exec (.raiseRequest src lv) s = .next (pumpAll (sendMsg src [2, 1] s))))
  ∧ (∀ (m : CommitMsg) (s : State), s.fab.member = true → mullBusy s = false → takesMver s m.mver = true →
      let t := installPlans m.gen m.level m.plans s
      (t.fab.wait = .none → exec (.planPublish m) s = .next (pumpAll t))
      ∧ (t.fab.wait = .raising → m.level = t.fab.raiseTo →
          exec (.planPublish m) s = .next (pumpAll (fabAnswer { st := 0, det := 0, res := m.level } (answered t.fab.lintel 19 t))))
      ∧ (t.fab.wait = .teaming → isOwnTeam m t = true →
          exec (.planPublish m) s = .next (pumpAll (fabAnswer { st := 0, det := 0, res := m.level } (writeJoin m.team (answered t.fab.lintel 23 t)))))
      ∧ (t.fab.wait = .teaming → isOwnTeam m t = false → exec (.planPublish m) s = .next (pumpAll t)))
  ∧ (∀ (gen : Nat) (s : State), exec (.planGraceExpiry gen) s
      = .next (pumpAll (dropPlans (s.onPlan (tmap (fun _ p => if p.gen = gen && p.retiring then { p with closed := true } else p))))))
  ∧ ∀ (i dst : Nat) (fields : List Nat) (s : State), s.fab.repeats[i]? = some (dst, fields) →
      exec (.managementMessageRepeat i) s = .next (servePorts (sendMsg dst fields s))

/-- Expert moves. PLACE_STAGE holds the new table until it may be written; at the lintel it counts the EPOCH up and asks every live member; the lintel
commits once every live member has staged; PLACE_COMMIT writes FROM_STEP and READY = 1 into the staged header, PLACE_ABORT gives the stage up and frees the
slots loaded, PLACE_RELEASE ends the move and frees the old slots; step reports go to the lintel, which releases the move once every live member has reported
(10 R405, R406). The power share that comes applies from the next control step, and the lintel sends each member its part of the group's budget (14 R516,
R518).
How messages are coded (log 35) and how the budget is divided (log 41) are the model's choices. -/
def Obligations.ExpertMovesAndPowerShares : Prop :=
  (∀ (m : PlaceMsg) (s : State), moveReady s m.cas = true → steered s m.cas = true →
    (s.fab.isLintel = false → exec (.placeStage m) s = .next (pumpAll (stageGo m.cas (s.modCas m.cas (fun v => { v with stage := some m })))))
    ∧ (∀ (p : Place) (ep : Nat), s.fab.isLintel = true → (s.casAt m.cas).place = some p → ep = ((inForce p s).1 + 1) % 256 →
        exec (.placeStage m) s = .next (pumpAll (stageGo m.cas ((forEach ((liveRanks s).filter (fun r => r ≠ s.fab.rank))
          (fun r => sendAsk r ([11, m.cas, ep] ++ m.entries.map (·.toNat))) (s.onFab (fun f => { f with staged := tset f.staged m.cas [] }))).modCas m.cas
            (fun v => { v with stage := some { m with epoch := ep } }))))))
  ∧ (∀ (r k cur : Nat) (l : List (Nat × Nat)) (s : State), moveReady s k = true → s.fab.isLintel = true → tget s.fab.staged k = some l →
      (s.fab.giving.contains (r, k) = false →
        exec (.placeStaged r k cur) s = .next (servePorts (tryCommit k ((stageAnswered k (fun x => x = r) s).onFab (fun f => { f with
          staged := tset f.staged k (l.filter (fun x => x.1 ≠ r) ++ [(r, cur)]) })))))
      ∧ (s.fab.giving.contains (r, k) = true →
        exec (.placeStaged r k cur) s = .next (servePorts (sendMsg r [14, k, cur] ((stageAnswered k (fun x => x = r) s).onFab (fun f => { f with
          giving := f.giving.filter (fun g => g ≠ (r, k)) })))))
      ∧ exec (.placeStagedTimeout k) s = .next (servePorts (abortPlace k
        ((sendAll [15, k] (stageAnswered k (fun r => !s.fab.giving.contains (r, k)) s)).onFab (fun f => { f with staged := tdel f.staged k })))))
  ∧ (∀ (k frm : Nat) (p : Place) (s : State), moveReady s k = true → (s.casAt k).place = some p → p.staged = true → p.committed = none →
      let a := (placeTabs p s).1
      exec (.placeCommit k frm) s = .next ((vaPut p.ctx a (overlay (overlay (tabHead p.ctx a s) 16 (toLE frm 8)) 1 [1]) s).modCas k
        (fun v => { v with place := some { p with committed := some frm } })))
  ∧ (∀ (k : Nat) (s : State), moveReady s k = true →
      exec (.placeAbort k) s = .next (s.modCas k (fun v => { v with
        stage := none, place := v.place.map (fun p => if p.staged && p.committed.isNone then
          { p with staged := false, loads := [], old := [], freed := dedupN (p.freed ++ p.loads) } else p) }))
      ∧ exec (.placeRelease k) s = .next (s.modCas k (fun v => { v with
        place := v.place.map (fun p => if p.committed.isSome then
          { p with staged := false, committed := none, loads := [], old := [], freed := dedupN (p.freed ++ p.old) } else p) })))
  ∧ (∀ (k : Nat) (p : Place) (s : State), (s.casAt k).place = some p → steered s k = true → moveReady s k = true →
      (s.fab.isLintel = false →
        exec (.stepReport k) s = .next (servePorts (sendMsg s.fab.lintel [16, k, p.lastDone.1, p.lastDone.2, s.lvr.want] s)))
      ∧ (s.fab.isLintel = true → exec (.stepReport k) s = .next (servePorts (tryRelease k (s.onFab (fun f => { f with
        stepReps := f.stepReps.filter (fun x => !(x.1 = s.fab.rank && x.2.1 = k)) ++ [(s.fab.rank, k, p.lastDone.1, p.lastDone.2)],
        wants := tset f.wants s.fab.rank s.lvr.want }))))))
  ∧ (∀ (r k step ep want : Nat) (s : State), moveReady s k = true → s.fab.isLintel = true →
      exec (.lintelStepReport r k step ep want) s = .next (servePorts (tryRelease k (s.onFab (fun f => { f with
        stepReps := f.stepReps.filter (fun x => !(x.1 = r && x.2.1 = k)) ++ [(r, k, step, ep)], wants := tset f.wants r want })))))
  ∧ (∀ (w : Nat) (s : State), fabricSteered s = true → mullBusy s = false → exec (.powerShare w) s = .next (s.onLvr (fun l => { l with shareNext := some w })))
  ∧ ∀ (b : Nat) (s : State), s.fab.budget = some b → s.fab.isLintel = true → fabricSteered s = true → mullBusy s = false →
      exec .powerShareSend s = .next (servePorts (
        let l := (liveRanks s).map (fun r => (r, if r = s.fab.rank then ((s.lvr.want : Nat) : Rat) else ((tgetD s.fab.wants r 0 : Nat) : Rat)))
        forEach (splitBudget (l.length + 1) l b []) (fun x t =>
          if x.1 = t.fab.rank then t.onLvr (fun l => { l with shareNext := some x.2 }) else sendMsg x.1 [18, x.2] t) s))

/-- The lintel's beat, its succession, loss of a member, leaving, and plans (10 R382-R391).
How messages are coded is the model's choice (log 35). -/
def Obligations.LintelAndLosses : Prop := Claims.LintelBeatAndSuccession ∧ Claims.LossLeavingAndPlans

end Groups

section Service

open Sys2Proof Sys2Proof.Machine Sys2Proof.Claims

/-- STEP_BOUNDARY does the work of a boundary for a casement in service whose step is not running. In it, a cancelled request is discarded and a late one
ends EXPIRED; a token sampled for a request that goes on is appended; at temperature 0 it is the first candidate; a stop token or the last token
ends the request (12 R446, R451-R454). -/
def Obligations.StepBoundaries : Prop :=
  (∀ (k c : Nat) (s : State), (s.casAt k).svc.ctx = some c → (s.casAt k).svc.mode ≠ 0 → (s.casAt k).svc.run = none → procDown s (4 + homeLeaf s k) = false →
    exec (.stepBoundary k) s = .next (pumpAll (boundary k c s)))
  ∧ (∀ (c k id pos n ca : Nat) (t : Word) (pre smp : Bool) (r : Req) (s : State), s.getReq id = some r → r.st ≠ .ended → r.st ≠ .ending →
      (r.cancel.isSome = true → rowDone c k t ca (id, pos, n, pre, smp) s = discardReq 4 id s)
      ∧ (∀ d, r.cancel = none → r.deadline = some d → d < t.toNat → rowDone c k t ca (id, pos, n, pre, smp) s = endReq 0x05 2 id t s))
  ∧ (∀ (r : Req) (n tok : Nat) (p : BitVec 32) (l : List (Nat × BitVec 32)), (v32 r.temp).isZero = true → sampleToken r n ((tok, p) :: l) = some tok)
  ∧ ∀ (id tok : Nat) (t : Word) (r : Req) (s : State), s.getReq id = some r → r.stream = false →
      let kept := s.updReq id (fun x => { x with
        st := .decode, toks := x.toks ++ [tok], endTime := t, firstUs := match r.firstUs with | some u => some u | none => some ((t - r.accept).toNat / 1050) })
      (tok ∉ r.stops → r.toks.length + 1 < r.maxTok → takeToken id tok t s = kept)
      ∧ (tok ∉ r.stops → r.maxTok ≤ r.toks.length + 1 → takeToken id tok t s = endReq 0 0 id t kept)
      ∧ (tok ∈ r.stops → tok ≠ 0xFFFFFFFF → takeToken id tok t s = endReq 0 1 id t kept)

/-- Parking and restoring. PARK_STEP: the page in hand gets a COPYING record, is copied, gets a COMPLETE record with its EXPIRY, and only then gives up its
stack space and becomes PARKED. RESTORE_STEP: its record is RESTORING, it is copied into its place, becomes RESIDENT, and its record goes. A page whose
EXPIRY is reached ends the restore; one that cannot be read, stored or placed stays what it was. A step that meets a gated stack waits for its wake (09
R357-R360; 01 R39). -/
def Obligations.ParkAndRestoreSteps : Prop :=
  (∀ (j i : Nat) (rest : List Nat) (x : Job) (p : Page) (s : State), s.getJob j = some x → x.park = true → jobRuns s j x = true → ajar s = false →
    x.pages = i :: rest → s.getPage i = some p → p.st = .resident → p.freeing = none →
    (∀ (u : Nat) (f : State → State), s.getFdir i = none → recUp s i = true → freeUnits s (p.len / 4096) = some u →
      f = (fun t => (markTrace x.leaf i 1 (t.putFdir i (parkRec x.leaf u
        (match x.keys.find? (fun k => k.1 = p.seq) with | some k => k.2 | none => 0) x.ttl p))).updJob j (fun y => { y with phase := 1 })) → Passes x.uid f s →
      exec (.parkStep j) s = .next (pumpAll (passed x.uid f s)))
    ∧ (∀ (d : FRec) (bs : List Byte) (t t' : State), s.getFdir i = some d → x.phase = 1 → stRead 7 (stAddr p.stack p.bset p.off) p.len (tried x.uid s) = (t, some bs) →
      Clear t → farWrite (d.farloc * 4096) bs t = (t', true) → Clear t' →
      exec (.parkStep j) s = .next (pumpAll ((t'.updJob j (fun y => { y with phase := 2 })).onAcc (fun _ => Reach.none))))
    ∧ (∀ (d : FRec) (f : State → State), s.getFdir i = some d → x.phase = 1 → (stRead 7 (stAddr p.stack p.bset p.off) p.len (tried x.uid s)).2 = none →
      f = (fun t => jobNext j false (markTrace x.leaf i 0 ((stRead 7 (stAddr p.stack p.bset p.off) p.len t).1.delFdir i))) → Passes x.uid f s →
      exec (.parkStep j) s = .next (pumpAll (passed x.uid f s)))
    ∧ (∀ (d : FRec) (bs : List Byte) (t t' u : State), s.getFdir i = some d → x.phase = 1 → stRead 7 (stAddr p.stack p.bset p.off) p.len (tried x.uid s) = (t, some bs) →
      farWrite (d.farloc * 4096) bs t = (t', false) → u = jobNext j false (markTrace x.leaf i 0 (t'.delFdir i)) → Clear u →
      exec (.parkStep j) s = .next (pumpAll (u.onAcc (fun _ => Reach.none))))
    ∧ (∀ (d : FRec) (f : State → State), s.getFdir i = some d → x.phase = 2 → recUp s i = true →
      f = (fun t => (markTrace x.leaf i 2 (t.putFdir i { d with mark := .complete, expiry := expiryOf (s.ctr x.leaf) x.ttl })).updJob j
        (fun y => { y with phase := 3 })) → Passes x.uid f s →
      exec (.parkStep j) s = .next (pumpAll (passed x.uid f s)))
    ∧ (∀ (d : FRec) (f : State → State), s.getFdir i = some d → x.phase = 3 →
      f = (fun t => jobNext j true (writePte p.seq p.layer p.slot
        ((giveUp false (BitVec.twoPow 12 p.stack) (BitVec.twoPow 64 p.bset) p.off p.len [] t).updPage i (fun y => { y with
          st := .parked, farloc := d.farloc, expiry := d.expiry })))) → Passes x.uid f s →
      exec (.parkStep j) s = .next (pumpAll (passed x.uid f s)))
    ∧ (¬ Passes x.uid (parkStep j x) s → exec (.parkStep j) s = .next (pumpAll (delayed x.uid (parkStep j x) s))))
  ∧ ∀ (j i : Nat) (rest : List Nat) (x : Job) (p : Page) (s : State), s.getJob j = some x → x.park = false → jobRuns s j x = true → x.pages = i :: rest →
    s.getPage i = some p →
    (∀ (d : FRec) (f : State → State), x.phase = 0 → p.st = .parked → expiryDue (s.ctr x.leaf) p.expiry = false → s.getFdir i = some d → recUp s i = true →
      f = (fun t => (markTrace x.leaf i 3 (t.putFdir i { d with mark := .restoring })).updJob j (fun y => { y with phase := 1 })) → Passes x.uid f s →
      exec (.restoreStep j) s = .next (pumpAll (passed x.uid f s)))
    ∧ (∀ (d : FRec) (q : Seq) (pl : Place1) (bs : List Byte) (t u : State), x.phase = 1 → s.getFdir i = some d → s.getSeq p.seq = some q →
      choosePlace s p.seq q p.layer = some pl → farRead 7 (d.farloc * 4096) p.len (tried x.uid s) = (t, some bs) →
      u = drainOwned x.uid (stWrite x.uid (stAddr pl.t pl.b pl.off) bs t) → Clear u →
      exec (.restoreStep j) s = .next (pumpAll ((u.updJob j (fun y => { y with phase := 2, unit := stAddr pl.t pl.b pl.off })).onAcc (fun _ => Reach.none))))
    ∧ (∀ (d : FRec) (q : Seq) (pl : Place1) (t u : State), x.phase = 1 → s.getFdir i = some d → s.getSeq p.seq = some q →
      choosePlace s p.seq q p.layer = some pl → farRead 7 (d.farloc * 4096) p.len (tried x.uid s) = (t, none) →
      u = jobNext j false (markTrace x.leaf i 2 (t.putFdir i { d with mark := .complete })) → Clear u →
      exec (.restoreStep j) s = .next (pumpAll (u.onAcc (fun _ => Reach.none))))
    ∧ (∀ (d : FRec) (q : Seq) (f : State → State), x.phase = 1 → s.getFdir i = some d → s.getSeq p.seq = some q → choosePlace s p.seq q p.layer = none →
      f = (fun t => jobNext j false (markTrace x.leaf i 2 (t.putFdir i { d with mark := .complete }))) → Passes x.uid f s →
      exec (.restoreStep j) s = .next (pumpAll (passed x.uid f s)))
    ∧ (∀ f : State → State, x.phase = 0 → expiryDue (s.ctr x.leaf) p.expiry = true → f = jobEnd j true → Passes x.uid f s →
      exec (.restoreStep j) s = .next (pumpAll (passed x.uid f s)))
    ∧ (∀ f : State → State, x.phase = 2 → f = (fun t => (writePte p.seq p.layer p.slot (t.updPage i (fun y => { y with
        st := .resident, stack := saStack x.unit, bset := saBank x.unit, off := saOff x.unit, expiry := 0, farloc := 0 }))).updJob j
          (fun y => { y with phase := 3 })) → Passes x.uid f s →
      exec (.restoreStep j) s = .next (pumpAll (passed x.uid f s)))
    ∧ (∀ f : State → State, x.phase = 3 → f = (fun t => jobNext j true (markTrace x.leaf i 0 (t.delFdir i))) → Passes x.uid f s →
      exec (.restoreStep j) s = .next (pumpAll (passed x.uid f s)))
    ∧ (¬ Passes x.uid (restoreStep j x) s → exec (.restoreStep j) s = .next (pumpAll (delayed x.uid (restoreStep j x) s)))

/-- The far tier. FAR_PORT_BRINGUP marks a port done, and up where a present expander trained with a capacity and a speed and width of the subset, down
otherwise; once both are done the layout stands, and the far heap is zeros. FAR_DIRECTORY_WALK goes through the records of the ports that are up and due; a link that falls raises
FAR_DOWN and the ECC interrupt, one that comes back clears it and asks for a walk of its records; TTL_SWEEP expires what is due (09 R353-R361).
SELFTEST_DONE ends a self-test: its record is written, and RESULT counts the failures of its tests (15 R542, R543). -/
def Sys2Proof.Claims.FarTier : Prop :=
  (∀ (p : Nat) (x : Expander) (s : State), p < 2 → procDown s 4 = false → s.dev.inReset = false → s.dev.farDone.getLsbD p = false →
    let t := s.onDev (fun d => { d with farDone := setBit d.farDone p true })
    let ok := x.trained = true ∧ x.active = true ∧ 0 < x.cap ∧ (x.speed = 32 ∨ x.speed = 16) ∧ (x.width = 16 ∨ x.width = 8) ∧ tgetD s.pin.prsntN p true = false
    (ok → exec (.farPortBringup p x) s = .next (pumpAll (serviceCheck (layFar (t.onFar (fun f => { f with
      up := setBit f.up p true, cap := tset f.cap p x.cap, speed := tset f.speed p x.speed, width := tset f.width p x.width }))))))
    ∧ (¬ ok → exec (.farPortBringup p x) s = .next (pumpAll (serviceCheck (layFar (setFarDown p t))))))
  ∧ (∀ s : State, s.dev.farDone ≠ 3 → layFar s = s)
  ∧ (∀ (k : Nat) (s : State), s.dev.farDone = 3 → (tget s.far.cap (k / 2 ^ 44)).isSome = true →
      (parkPoolLen s ≤ farBack s k → ∀ e ∈ (layFar s).farMem, e.1 ≠ k) ∧ (farBack s k < parkPoolLen s → ∀ e ∈ s.farMem, e.1 = k → e ∈ (layFar s).farMem))
  ∧ (∀ (i : Nat) (d : FRec) (s : State), i < 65536 → 0 < s.far.cap.length → recOf (mread s.farMem (farKey s (64 * i)) 64) = some d →
      s.getFdir i = some d ∧ farKey s (64 * i) = farPort s (64 * i) * 2 ^ 44 + farOff s (64 * i)
      ∧ (s.far.up.getLsbD (farPort s (i * 64)) = false → recUp s i = false))
  ∧ (∀ s : State, procDown s 4 = false → s.dev.inReset = false → s.dev.dirWalked = false → s.dev.farDone = 3 →
      exec .farDirectoryWalk s = .next (pumpAll (serviceCheck ((forEach (readableRecs s) (fun e t => walkRec e.1 e.2 t) s).onDev (fun d => { d with
        dirWalked := true, walkDue := 0, coldWalk := d.coldWalk &&& ~~~ (d.walkDue &&& (forEach (readableRecs s) (fun e t => walkRec e.1 e.2 t) s).far.up) })))))
  ∧ (∀ (p : Nat) (s : State), p < 2 → s.far.up.getLsbD p = true →
      exec (.farLinkDown p) s = .next (eccIrq (setFarDown p (s.onFar (fun f => { f with up := setBit f.up p false })))))
  ∧ (∀ (p : Nat) (s : State), p < 2 → s.dev.farDone.getLsbD p = true → s.far.up.getLsbD p = false → 0 < farCap s p → procDown s 4 = false →
      exec (.farLinkUp p) s = .next (((s.onFar (fun f => { f with up := setBit f.up p true })).onEccReg (fun e => { e with
        farDown := setBit e.farDown p false })).onDev (fun d => { d with dirWalked := false, walkDue := setBit d.walkDue p true })))
  ∧ (∀ (p kind : Nat) (s : State), p < 2 → s.far.up.getLsbD p = true →
      exec (.expanderEvent p kind) s = .next (trace 4 0x4005 2 (BitVec.ofNat 64 p) (BitVec.ofNat 64 kind) s))
  ∧ (∀ (leaf : Nat) (s : State), procDown s (4 + leaf) = false → s.dev.inReset = false →
      exec (.ttlSweep leaf) s = .next (pumpAll (forEach ((s.page.filter (fun e => e.2.st = .parked && e.2.freeing.isNone && expiryDue (s.ctr leaf) e.2.expiry
        && (match s.getFdir e.1 with | some d => d.leaf = leaf && d.mark ≠ .restoring | none => false))).map (fun e => e.1)) expirePage s)))
  ∧ (∀ (k : Nat) (res : List (Nat × Nat × Nat × Nat)) (s : State), (s.casAt k).selftest = none → exec (.selftestDone k res) s = .next (pumpAll s))
  ∧ ∀ (k q uid st : Nat) (t : Nat) (res : List (Nat × Nat × Nat × Nat)) (e : Entry) (s u v w : State), (s.casAt k).selftest = some (q, uid, t, st) →
      u = s.modCas k (fun v => { v with selftest := none }) → v = (if t.testBit 2 then zeroBanks (casBs u k) u else u) →
      w = (if t.testBit 4 then havocWindow st v else v) → findEntry w q uid = some e →
      exec (.selftestDone k res) s = .next (pumpAll (completeEntry q uid
        { st := 0, det := 0, res := (List.range 5).foldl (fun n i => if t.testBit i then n + (nth res i (0, 0, 0, 0)).2.1 else n) 0 % 2 ^ 32 } 0
        (busWrite (fnPort q) (le e.pl 8 8) (selftestRecord t res) w)))

/-- The states of service: full service begins once every stack is in service or has failed, both Mullion processors and far ports are done, the directory
is walked and BOOT_LOCK is set; ajar begins in BOOT once BOOT_LOCK is set and stacks 0 and 6 are in service; nothing else moves it (15 R545-R549). -/
def Sys2Proof.Claims.ServiceStates : Prop :=
  ∀ s : State,
    let full := (s.dev.stackIn ||| s.dev.stackFail) = BitVec.allOnes 12 ∧ s.dev.mullUp = 3 ∧ s.dev.farDone = 3 ∧ s.dev.dirWalked = true ∧ s.dev.bootLock = true
    (s.dev.service ≠ .full → full → serviceCheck s = s.onDev (fun d => { d with service := .full, rst := false }))
    ∧ (s.dev.service = .boot → ¬ full → s.dev.bootLock = true → s.dev.stackIn.getLsbD 0 = true → s.dev.stackIn.getLsbD 6 = true →
        serviceCheck s = s.onDev (fun d => { d with service := .ajar, rst := false }))
    ∧ (s.dev.service = .full → serviceCheck s = s)
    ∧ (s.dev.service = .boot → s.dev.bootLock = false → serviceCheck s = s)
    ∧ (s.dev.service = .ajar → ¬ full → serviceCheck s = s)

/-- The far tier and the states of service (09 R353-R361; 15 R545-R549). -/
def Obligations.FarTierAndService : Prop := Claims.FarTier ∧ Claims.ServiceStates

end Service

namespace Sys2Proof.Claims

open Sys2Proof Sys2Proof.Machine

/-- A message of type `ty` waits on mailbox `p` of function `f`, and the processor, which is up, takes it: it serves the type and the version, no reserved bit
is set, PROC and the length are right, and the module is not in recovery (13 R478-R482). -/
def Waits (ty len f p : Nat) (m : Msg) (s : State) : Prop :=
  message s f p = m ∧ f < 34 ∧ p < 6 ∧ (s.mbxAt (f * 6 + p)).outstanding = true ∧ procDown s p = false ∧ s.dev.inReset = false ∧ m.ty = ty
  ∧ msgKnown p ty = true ∧ verOk s p m.ver = true ∧ s.dev.recovery = false ∧ m.resv = false ∧ m.proc = p ∧ m.len = len

/-- The same for a message that only a physical function may send. -/
def WaitsPF (ty len f p : Nat) (m : Msg) (s : State) : Prop := Waits ty len f p m s ∧ isPF f = true

/-- The message `m` is answered OK with RESULT `res` and `body`. -/
def said (f p : Nat) (m : Msg) (res : Nat) (body : List Byte) (s : State) : State := pumpAll (answer f p m m.ver { st := 0, det := 0, res := res, body := body } s)

end Sys2Proof.Claims

section Mailboxes

open Sys2Proof Sys2Proof.Machine Sys2Proof.Claims

/-- A reply clears OUTSTANDING and sets DONE of its own mailbox; the envelope of the reply repeats the message's type, flags and sequence number. A doorbell
on a mailbox whose last message is outstanding only sets ERR. A version or a type that the processor does not accept is answered VERSION_UNSUP, or SKIPPED
with MDETAIL 0x01; so are reserved bits and a wrong length (13 R478-R482; 16 R563). -/
def Sys2Proof.Claims.MailboxReplies : Prop :=
  (∀ (f p ver : Nat) (m : Msg) (r : Reply) (s : State), f < 34 → p < 6 →
    ((answer f p m ver r s).mbxAt (f * 6 + p)).outstanding = false ∧ ((answer f p m ver r s).mbxAt (f * 6 + p)).done = true
    ∧ ∀ k, k ≠ f * 6 + p → (answer f p m ver r s).mbxAt k = s.mbxAt k)
  ∧ (∀ (f p seq : Nat) (s : State), (s.mbxAt (f * 6 + p)).outstanding = true → mbxBell f p seq s = s.modMbx (f * 6 + p) (fun x => { x with err := true }))
  ∧ (∀ (f p seq : Nat) (s : State), (s.mbxAt (f * 6 + p)).outstanding = false → procDown s p = false →
      mbxBell f p seq s = s.modMbx (f * 6 + p) (fun x => { x with outstanding := true, done := false, seq := seq }))
  ∧ (∀ (f p : Nat) (s : State), msgWaits s f p = true → verOk s p (message s f p).ver = false →
      exec (.unknownMtype f p) s = .next (answer f p (message s f p) (s.procAt p).ver { st := 0x31, det := 0, res := 0, body := [] } s))
  ∧ (∀ (f p : Nat) (s : State), msgWaits s f p = true → verOk s p (message s f p).ver = true → msgKnown p (message s f p).ty = false → s.dev.recovery = false →
      exec (.unknownMtype f p) s = .next (answer f p (message s f p) (message s f p).ver { st := 0x01, det := 1, res := 0, body := [] } s))
  ∧ (∀ (f p len : Nat) (m : Msg) (s : State), Waits 0x01 len f p m s → len ≠ 0 →
      exec (.fwVersion f p) s = .next (answer f p m m.ver { st := 0x01, det := 6, res := 0, body := [] } s))
  ∧ ∀ (f p len : Nat) (m : Msg) (s : State), Waits 0x02 len f p m s → isPF f = false →
      exec (.traceSet f p) s = .next (answer f p m m.ver { st := 0x40, det := 2, res := 0, body := [] } s)

/-- The messages of any processor and of Deadbolt: FW_VERSION and FW_QUERY report, TRACE_SET changes the mask and answers the old one, ATTEST, FW_STAGE and
FW_ACTIVATE begin background work, CERT_READ writes the chain from the flash, FW_COMMIT ends the trial, FW_RESTART plans restarts, CFG_WRITE stores the
record. A boot descriptor is rewritten in the copy with the lower generation (13 R469, R474-R477, R483, R490-R497). -/
def Sys2Proof.Claims.FirmwareMessages : Prop :=
  (∀ (f p : Nat) (m : Msg) (s : State), Waits 0x01 0 f p m s →
    exec (.fwVersion f p) s = .next (let x := s.procAt p
      said f p m 0 (toLE x.imgver.toNat 8 ++ toLE x.ver 1 ++ toLE x.hover 1 ++ toLE s.fw.active 1 ++ zeros 1 ++ toLE x.restarts 4) s))
  ∧ (∀ (f p : Nat) (m : Msg) (s : State), WaitsPF 0x02 8 f p m s →
      exec (.traceSet f p) s = .next (said f p m ((s.procAt p).mask.toNat % 2 ^ 32) [] (s.modProc p (fun x => { x with mask := BitVec.ofNat 64 (le m.body 0 8) }))))
  ∧ (∀ (f p : Nat) (m : Msg) (s : State), Waits 0x10 40 f p m s →
      exec (.attest f p) s = .next (said f p m 0 [] (s.onFw (fun x => { x with work := x.work
        ++ [{ kind := 0x10, fn := f, addr := le m.body 32 8, len := 0, status := le m.body 32 8 + 17472, nonce := m.body.take 32 }] }))))
  ∧ (∀ (f p : Nat) (m : Msg) (c : List Byte) (s : State), Waits 0x11 12 f p m s → c = (Config.certChain.take 0x20000).take (le m.body 8 4) →
      exec (.certRead f p) s = .next (said f p m c.length [] (busWrite (fnPort f) (le m.body 0 8) c s)))
  ∧ (∀ (f p : Nat) (m : Msg) (s : State), WaitsPF 0x12 20 f p m s → fwBusy s = false → s.pin.flashWpN = true → le m.body 16 4 ≤ 0x1800000 →
      exec (.fwStage f p) s = .next (said f p m 0 [] (s.onFw (fun x => { x with work := x.work
        ++ [{ kind := 0x12, fn := f, addr := le m.body 0 8, len := le m.body 16 4, status := le m.body 8 8, nonce := [] }] }))))
  ∧ (∀ (f p sl : Nat) (m : Msg) (s : State), WaitsPF 0x13 8 f p m s → fwBusy s = false → [0, 1].find? (fun k => slotSt s k = .staged) = some sl →
      exec (.fwActivate f p) s = .next (said f p m 0 [] (planRestarts [1, 2, 3, 4, 5, 0]
        (addWork { kind := 0x13, fn := f, addr := 0, len := 0, status := le m.body 0 8, nonce := [] }
          (s.onFw (fun w => Fw.rewrite { w with active := sl, booted := sl, trial := true, count := 0, queue := [] }))))))
  ∧ (∀ (f p : Nat) (m : Msg) (s : State), WaitsPF 0x14 1 f p m s → le m.body 0 1 = 0 → fwBusy s = false → s.fw.trial = true →
      exec (.fwCommit f p) s = .next (said f p m 0 [] (s.onFw (fun w => Fw.rewrite { w with
        trial := false, window := false, slots := tset w.slots w.active .good }))))
  ∧ (∀ w : Fw, (Fw.rewrite w).bootGen = w.bootGen + 1
      ∧ ({ gen := w.bootGen + 1, crcOk := true, active := w.active, trial := w.trial, count := w.count, slots := w.slots } : BootCopy) ∈ (Fw.rewrite w).copies
      ∧ (∀ a b : BootCopy, w.copies = [a, b] → a.crcOk = true → b.crcOk = true →
          (b.gen.toNat < a.gen.toNat → (Fw.rewrite w).copies.head? = some a) ∧ (a.gen.toNat ≤ b.gen.toNat → (Fw.rewrite w).copies[1]? = some b)))
  ∧ (∀ (f p : Nat) (m : Msg) (s : State), Waits 0x15 0 f p m s → ∃ body,
      exec (.fwQuery f p) s = .next (said f p m 0 body s) ∧ body.take 3 = toLE s.fw.active 1 ++ toLE (b2n s.fw.trial) 1 ++ toLE s.fw.count 1)
  ∧ (∀ (f p : Nat) (m : Msg) (s : State), WaitsPF 0x17 1 f p m s → le m.body 0 1 < 64 →
      exec (.fwRestart f p) s = .next (said f p m 0 [] (planRestarts ([1, 2, 3, 4, 5, 0].filter (fun k => (le m.body 0 1).testBit k)) s)))
  ∧ ∀ (f p : Nat) (m : Msg) (s : State) (r : List Byte), WaitsPF 0x16 12 f p m s → le m.body 8 4 ≤ 65536 → r = busRead s (fnPort f) (le m.body 0 8) (le m.body 8 4) →
      cfgFault s (padTo 1048 r) = none → s.pin.flashWpN = true →
      exec (.cfgWrite f p) s = .next (said f p m 0 [] (s.onFw (fun w => { w with mem := mwrite (mclear w.mem 0x10000 65536) 0x10000 r })))

/-- The messages of Louvre, the Mullion processors and the Keepers set what they carry, in its range: LVR_STATUS and UCODE_QUERY report; THERM_CFG sets the
four inputs, GATE_CFG the idle times, GROUP_BUDGET the lintel's budget, FLOOR_CFG the floor step and margin, CALIB_PERIOD the hours, PARK_SHARE the
share, SVC_CONFIG the service of a casement (10 R371; 12 R441; 14 R499, R502, R511, R518, R519; 09 R357; 05 R180). Outside its range the answer is
SKIPPED with MDETAIL 0x06 and nothing is set. While the home leaf's Keeper restarts, SVC_CONFIG is answered BUSY. -/
def Sys2Proof.Claims.ServiceMessages : Prop :=
  (∀ (f p : Nat) (m : Msg) (s : State), WaitsPF 0x20 0 f p m s →
    exec (.lvrStatus f p) s = .next (said f p m 0 (powerRecord s ++ siteList.flatMap (fun i => int16 (tgetD s.therm.temp i 0 / 4))) s))
  ∧ (∀ (f p : Nat) (m : Msg) (s : State), WaitsPF 0x21 16 f p m s →
      (∀ i, i < 4 → le m.body (4 * i) 1 < 2 ∧ dirty m.body (4 * i + 3) 1 = false
        ∧ (le m.body (4 * i) 1 = 1 → le m.body (4 * i + 2) 1 ≤ 125 ∧ le m.body (4 * i + 1) 1 < le m.body (4 * i + 2) 1)) →
      exec (.thermCfg f p) s = .next (said f p m 0 [] (s.onTherm (fun t => { t with
        inp := (List.range 4).map (fun i => (i, { en := le m.body (4 * i) 1 = 1, hot := le m.body (4 * i + 1) 1, trip := le m.body (4 * i + 2) 1 })),
        hot := t.hot.filter (fun x => x < 0x400 || le m.body (4 * (x - 0x400)) 1 = 1) }))))
  ∧ (∀ (f p : Nat) (m : Msg) (s : State), WaitsPF 0x22 12 f p m s →
      let ok := (10 ≤ le m.body 0 4 ∧ le m.body 0 4 ≤ 100000) ∧ (100 ≤ le m.body 4 4 ∧ le m.body 4 4 ≤ 1000000) ∧ 5 ≤ le m.body 8 4 ∧ le m.body 8 4 ≤ 10000
      (ok → exec (.gateCfg f p) s = .next (said f p m 0 [] (s.onLvr (fun l => { l with
        idleCluster := le m.body 0 4, idleStack := le m.body 4 4, idleOther := le m.body 8 4 }))))
      ∧ (¬ ok → exec (.gateCfg f p) s = .next (pumpAll (answer f p m m.ver { st := 0x01, det := 6, res := 0, body := [] } s))))
  ∧ (∀ (f p : Nat) (m : Msg) (s : State), WaitsPF 0x23 4 f p m s → s.fab.member = true → 2 ≤ s.fab.level → s.fab.isLintel = true →
      600 * s.fab.members ≤ le m.body 0 4 → le m.body 0 4 ≤ 1100 * s.fab.members →
      exec (.groupBudget f p) s = .next (said f p m 0 [] (s.onFab (fun x => { x with budget := some (le m.body 0 4) }))))
  ∧ (∀ (f p : Nat) (m : Msg) (s : State), WaitsPF 0x24 2 f p m s →
      let ok := (4 ≤ le m.body 0 1 ∧ le m.body 0 1 ≤ 15) ∧ 5 ≤ le m.body 1 1 ∧ le m.body 1 1 ≤ 25
      (ok → exec (.floorCfg f p) s = .next (said f p m 0 [] (s.onLvr (fun l => { l with floorStep := le m.body 0 1, margin := le m.body 1 1 }))))
      ∧ (¬ ok → exec (.floorCfg f p) s = .next (pumpAll (answer f p m m.ver { st := 0x01, det := 6, res := 0, body := [] } s))))
  ∧ (∀ (f p : Nat) (m : Msg) (s : State), WaitsPF 0x30 2 f p m s →
      (1 ≤ le m.body 0 2 → le m.body 0 2 ≤ 720 → exec (.calibPeriod f p) s
          = .next (said f p m 0 [] (s.onFw (fun w => { w with calibH := w.calibH.set (p - 2) (le m.body 0 2) }))))
      ∧ (le m.body 0 2 = 0 ∨ 720 < le m.body 0 2 →
          exec (.calibPeriod f p) s = .next (pumpAll (answer f p m m.ver { st := 0x01, det := 6, res := 0, body := [] } s))))
  ∧ (∀ (f p : Nat) (m : Msg) (s : State), WaitsPF 0x41 1 f p m s →
      (5 ≤ le m.body 0 1 → le m.body 0 1 ≤ 100 → exec (.parkShare f p) s = .next (said f p m 0 [] (s.onFar (fun x => { x with share := le m.body 0 1 }))))
      ∧ (le m.body 0 1 < 5 ∨ 100 < le m.body 0 1 →
          exec (.parkShare f p) s = .next (pumpAll (answer f p m m.ver { st := 0x01, det := 6, res := 0, body := [] } s))))
  ∧ (∀ (f p : Nat) (m : Msg) (s : State), Waits 0x42 0 f p m s →
      exec (.ucodeQuery f p) s = .next (said f p m 0 ((s.fw.uram.filter (fun e => e.1 / 64 = procLeaf p)).flatMap (fun e =>
        toLE (e.1 % 64) 4 ++ toLE e.2.1 4 ++ toLE e.2.2.length 4)) s))
  ∧ ∀ (f p : Nat) (m : Msg) (s : State) (x : Ctx) (k : Nat), WaitsPF 0x40 64 f p m s → k = le m.body 0 1 → k < 16 → (s.casAt k).owner = fnPort f + 1 →
      s.getCtx (le m.body 2 2) = some x → x.cas = k →
      (procDown s (4 + homeLeaf s k) = true → le m.body 1 1 = 0 → exec (.svcConfig f p) s = .next (pumpAll
        (answer f p m m.ver { st := 0x03, det := 0, res := Config.estimateUs s.freeCtr % 2 ^ 32, body := [] } (s.onFreeCtr (fun n => n + 1)))))
      ∧ (procDown s (4 + homeLeaf s k) = false → liveOf s k = 0 → le m.body 22 1 < 2 → dirty m.body 23 1 = false → dirty m.body 40 24 = false →
          svcBad s m.body = false → (s.casAt k).svc.mode ≠ 2 →
          (le m.body 1 1 = 1 → ajar s = false → (∀ l, tget s.fab.teams (le m.body 20 2) = some l → l.length ≤ 64) →
            exec (.svcConfig f p) s = .next (said f p m 0 [] (boundary k (le m.body 2 2) (s.modCas k (fun v => { v with svc := svcOf m.body })))))
          ∧ (le m.body 1 1 = 0 → exec (.svcConfig f p) s = .next (said f p m 0 [] (s.modCas k (fun v => { v with svc := svcOf m.body })))))

/-- MAILBOX_WORK_DONE ends the oldest work that is ready: an attestation report and its status line are written; an image that was stored and passes its checks
stands STAGED in the slot that is not active, one that does not leaves the slot EMPTY; an activation whose restarts are over opens its trial window.
TRIAL_WINDOW_END closes it (13 R477, R483, R490-R494). -/
def Sys2Proof.Claims.MailboxWork : Prop :=
  (∀ (b : Bool) (w : FwWork) (s : State), procDown s 0 = false → s.dev.inReset = false → s.fw.work.find? (workReady s) = some w →
    let t := s.onFw (fun x => { x with work := x.work.erase w })
    (w.kind = 0x10 → exec (.mailboxWorkDone b) s = .next (workWrite w w.status (statusLine 0 0) (workWrite w w.addr (report t w.nonce) t)))
    ∧ (w.kind = 0x12 → exec (.mailboxWorkDone b) s = .next (stageDone w b t))
    ∧ (w.kind = 0x13 → exec (.mailboxWorkDone b) s = .next (workWrite w w.status (statusLine 0 0)
        ((t.onFw (fun x => { x with window := true })).onProc (tmap (fun _ p => { p with newCrash := 0 }))))))
  ∧ (∀ (w : FwWork) (s : State), w.fn < 34 → s.pin.flashWpN = true →
      slotSt (stageDone w true s) (1 - s.fw.active % 2) = (if imageFault s (busRead s (fnPort w.fn) w.addr w.len) = none then .staged else .empty)
      ∧ slotSt (stageDone w true s) (s.fw.active % 2) = slotSt s (s.fw.active % 2))
  ∧ (∀ (w : FwWork) (b : Bool) (s : State), w.fn < 34 → b = false ∨ s.pin.flashWpN = false →
      slotSt (stageDone w b s) (1 - s.fw.active % 2) = .empty ∧ slotSt (stageDone w b s) (s.fw.active % 2) = slotSt s (s.fw.active % 2)
      ∧ (stageDone w b s).fw.mem = s.fw.mem)
  ∧ ∀ s : State, exec .trialWindowEnd s = .next (s.onFw (fun w => { w with window := false }))

/-- Every mailbox message in its range has its effect and its answer (13 R474-R497; 12 R441; 14 R499-R519).
The layouts of bodies that the spec does not lay out are the model's choice (log 44). -/
def Obligations.MailboxMessages : Prop := Claims.FirmwareMessages ∧ Claims.ServiceMessages

/-- Replies, doorbells and refusals of a mailbox, and the end of background work (13 R477-R494; 16 R563). -/
def Obligations.MailboxRepliesAndWork : Prop := Claims.MailboxReplies ∧ Claims.MailboxWork

end Mailboxes

namespace Sys2Proof.Claims

open Sys2Proof Sys2Proof.Machine

/-- The log entry, the restart and the crash time of a processor that crashes. -/
def crashed (p pt : Nat) (a0 a1 : Word) (s : State) : State :=
  (trace p pt 4 a0 a1 s).modProc p (fun x => { x with
    restarting := true, planned := false, crashes := s.ctr (procLeaf p) :: x.crashes.filter (fun c => decide ((s.ctr (procLeaf p) - c).toNat < 63000000000)),
    newCrash := if s.fw.window then x.newCrash + 1 else x.newCrash })

end Sys2Proof.Claims

section Restart

open Sys2Proof Sys2Proof.Machine Sys2Proof.Claims

/-- A crash (WDOG_EXPIRE, FATAL_EXC, WINDOW_VIOL) is logged, starts a restart and answers the processor's messages BUSY; a fourth within 60 s holds it down and
sets FW_FAIL; the second in a trial window brings back the previous slot. RESTART_DONE brings a processor back and counts an unplanned restart; a
PLANNED_RESTART begins at the quiet point of the processor whose turn it is, and its end writes the windows that the manifest declares into the processor's
window registers (13 R466, R467, R484-R494). -/
def Sys2Proof.Claims.CrashesAndRestarts : Prop :=
  (∀ (p : Nat) (a b : Word) (s : State), exec (.wdogExpire p a) s = .next (crash p 0x0001 a 0 s) ∧ exec (.fatalExc p a b) s = .next (crash p 0x0002 a b s)
    ∧ exec (.windowViol p a b) s = .next (if windowOpen s p a b then s else crash p 0x0003 a b s)
    ∧ (windowOpen s p a b = true ↔ ∃ w ∈ windowsOf s p, w.base ≤ a.toNat ∧ a.toNat < w.limit ∧ (b.truncate 3 &&& ~~~ w.rights) = 0))
  ∧ (∀ (p pt : Nat) (a b : Word) (s : State), 0 < p ∨ s.fw.work.find? (fun w => w.kind = 0x12) = none → p < 6 → procDown s p = false → s.dev.inReset = false → s.fw.window = false →
      let t := busyAll p (crashed p pt a b s)
      ((t.procAt p).crashes.length < 4 → crash p pt a b s = t)
      ∧ (4 ≤ (t.procAt p).crashes.length → crash p pt a b s = busyAll p (devEvent 0
          ((trace p 0x0005 4 (BitVec.ofNat 64 (t.procAt p).crashes.length) 0 (t.modProc p (fun x => { x with held := true }))).onDev
            (fun d => { d with fwFail := setBit d.fwFail p true })))))
  ∧ (∀ (p pt : Nat) (a b : Word) (s : State), 0 < p ∨ s.fw.work.find? (fun w => w.kind = 0x12) = none → p < 6 → procDown s p = false → s.dev.inReset = false → s.fw.window = true →
      let t := busyAll p (crashed p pt a b s)
      t.fw.window = true → 2 ≤ (t.procAt p).newCrash → crash p pt a b s = rollback p t)
  ∧ (∀ (p : Nat) (s : State), procDown s p = true → ∀ pt a b, crash p pt a b s = s)
  ∧ (∀ (p : Nat) (s : State), p < 4 → (s.procAt p).restarting = true → (s.procAt p).held = false → (s.procAt p).planned = false → s.dev.inReset = false →
      exec (.restartDone p) s = .next (pumpAll (trace p 0x0004 1 (Config.freeWord s.freeCtr 0) 0
        ((s.onFreeCtr (fun n => n + 1)).modProc p (fun x => { x with restarting := false, restarts := x.restarts + 1 })))))
  ∧ (∀ (p : Nat) (s : State), p = 4 ∨ p = 5 → (s.procAt p).restarting = true → (s.procAt p).held = false → (s.procAt p).planned = false → s.dev.inReset = false →
      exec (.restartDone p) s = .next (pumpAll (trace p 0x0004 1 (Config.freeWord s.freeCtr 0) 0 (resumeJobs (p - 4) (loseRequests (p - 4)
        ((s.onFreeCtr (fun n => n + 1)).modProc p (fun x => { x with restarting := false, restarts := x.restarts + 1 })))))))
  ∧ (∀ (p : Nat) (s : State), (s.procAt p).restarting = true → (s.procAt p).held = false → (s.procAt p).planned = true → s.fw.queue.head? = some p →
      s.dev.inReset = false → exec (.restartDone p) s = .next (pumpAll (trace p 0x0004 1 (Config.freeWord s.freeCtr 0) 1
        (plannedDone p (s.onFreeCtr (fun n => n + 1))))))
  ∧ (∀ (p : Nat) (s : State), ((setWindows p s).procAt p).win = ((tget (slotImg s s.fw.booted).wins (compOf p)).getD []).take 16
      ∧ ((loadImage p s).procAt p).win = ((tget (slotImg s s.fw.booted).wins (compOf p)).getD []).take 16
      ∧ ((loadImage p s).procAt p).imgver = (slotImg s s.fw.booted).imgver ∧ ∀ k, k ≠ p → (loadImage p s).procAt k = s.procAt k)
  ∧ ∀ (p : Nat) (s : State), p < 6 → (s.procAt p).planned = true → procDown s p = false → s.dev.inReset = false →
      (quiet s p = true → exec (.plannedRestart p) s = .next (s.modProc p (fun x => { x with restarting := true })))
      ∧ (quiet s p = false → exec (.plannedRestart p) s = .next s)

/-- ROM_BOOT reads the copy of the boot descriptor with the higher generation whose CRC matches and boots the active slot where its image is valid, the other
one where that may be booted instead, else enters recovery; a trial counts, and at 2 the other slot takes its place. FIRST_STAGE_RELEASE sets BOOT_LOCK,
every processor's windows and the microcode of the image; STACK_IN_SERVICE and STACK_TRAINING_FAIL set the bit of their stack; each may move the service state
on (13 R466, R469, R472-R474; 05 R180; 15 R545-R549). -/
def Sys2Proof.Claims.BootSequence : Prop :=
  (∀ (a b : BootCopy) (w : Fw), w.copies = [a, b] → a.crcOk = true ∨ b.crcOk = true →
    let x := if a.crcOk ∧ (b.crcOk = false ∨ b.gen.toNat ≤ a.gen.toNat) then a else b
    Fw.reread w = { w with active := x.active, trial := x.trial, count := x.count, slots := x.slots, bootGen := x.gen })
  ∧ (∀ (s u : State) (sl : Nat), s.dev.inReset = false → s.dev.bootLock = false → s.dev.recovery = false → u = readDescriptor s → u.fw.trial = false →
      sl = u.fw.active →
      (slotOk u sl = true → exec .romBoot s = .next (bootSlot sl u))
      ∧ (slotOk u sl = false → bootable u (1 - sl % 2) = true → exec .romBoot s
          = .next (bootSlot (1 - sl % 2) (trace 0 0x1003 3 (BitVec.ofNat 64 sl) (BitVec.ofNat 64 (1 - sl % 2)) u)))
      ∧ (slotOk u sl = false → bootable u (1 - sl % 2) = false → exec .romBoot s = .next (u.onDev (fun d => { d with recovery := true, rst := false }))))
  ∧ (∀ s u : State, s.dev.inReset = false → s.dev.bootLock = false → s.dev.recovery = false → u = readDescriptor s → u.fw.trial = true → 1 ≤ u.fw.count →
      u.fw.active = 1 → slotOk u 0 = true →
      ∃ t, exec .romBoot s = .next (bootSlot 0 t) ∧ t.fw.trial = false ∧ t.fw.count = 0 ∧ slotSt t 1 = .rejected ∧ t.fw.active = 0)
  ∧ (∀ s u : State, s.dev.inReset = false → s.dev.bootLock = false → s.dev.recovery = false →
      u = bootUcode (forEach (List.range 6) setWindows (s.onDev (fun d => { d with bootLock := true, mullUp := 3 }))) →
      exec .firstStageRelease s = .next (pumpAll (serviceCheck (trace 0 0x1001 1 1 (BitVec.ofNat 64 u.fw.booted) u))))
  ∧ ∀ (st : Nat) (s : State), st < 12 → s.dev.inReset = false → procDown s (4 + leafOfStack st) = false → s.dev.stackIn.getLsbD st = false →
      (s.dev.stackFail.getLsbD st = false →
        exec (.stackInService st) s = .next (pumpAll (serviceCheck (s.onDev (fun d => { d with stackIn := setBit d.stackIn st true })))))
      ∧ exec (.stackTrainingFail st) s = .next (pumpAll (serviceCheck (s.onDev (fun d => { d with stackFail := setBit d.stackFail st true }))))

/-- Crashes, restarts and the boot of the firmware processors, and their window registers (13 R466, R467, R469, R472-R474, R484-R494; 15 R545-R549).
The time that RESTART_DONE logs is a free value (log 8). -/
def Obligations.RestartsAndBoot : Prop := Claims.CrashesAndRestarts ∧ Claims.BootSequence

end Restart

section Reset

open Sys2Proof Sys2Proof.Machine Sys2Proof.Claims

/-- A device reset asked for while TRIP is set waits until the trip ends: DEV_RST reads 1, nothing else changes, and the write that clears TRIP lets the reset
act. A cold reset is not held up by TRIP (15 R537). -/
def Obligations.DeviceResetWaitsForTheTrip : Prop :=
  (∀ (v : View) (a : Acc) (x : Nat) (s : State), actVal a = some x → x.testBit 0 = true → pfOrMp s v = true → absorbed s = false → s.therm.trip = true →
    exec (.devRst v a) s = .next (s.onDev (fun d => { d with rst := true })) ∧ mgmtRead (s.onDev (fun d => { d with rst := true })) 0x1000 = some 1)
  ∧ (∀ (v : View) (a : Acc) (x : Nat) (s : State), actVal a = some x → x.testBit 0 = true → pfOrMp s v = true → s.dev.rst = true → s.therm.trip = true →
      (allReleased s = true → exec (.tripClear v a) s = .next (deviceReset (endTrip s)))
      ∧ (allReleased s = false → exec (.tripClear v a) s = .next s))
  ∧ (∀ s : State, s.dev.inReset = false → s.therm.trip = true →
      ∃ t, exec .coldResetAssert s = .next t ∧ t.dev.inReset = true ∧ t.therm.trip = false ∧ t.dev.rst = false ∧ t.pin.coldRstN = false)

/-- The classes of reset. A cold reset (COLD_RST_N or PWR_GOOD low) takes everything but fuses, pins, flash, park pool and host memory; its release starts the
leaf counters at 0 and samples COMPAT_SEL. DEV_RST resets the device and keeps the board registers; a function reset that of its function, or of every
function of its port, unless it is part of one in progress; PERST and a lost link act as a function reset of the port; CASE_RST resets the casements it may, and RESET_COMPLETE ends one (15
R529-R539; 16 R558; 17 R572, R576, R586, R587).
That a reset acts whole when it is asked for is the model's choice (log 47). -/
def Obligations.ResetClasses : Prop :=
  (∀ s : State, s.dev.inReset = false → (∀ k, k < 16 → (s.casAt k).selftest = none) → ∃ t u, exec .coldResetAssert s = .next t ∧ exec .pwrGoodLow s = .next u
    ∧ t.dev.inReset = true ∧ t.dev.service = .boot ∧ t.dev.bootLock = false ∧ t.queue = [] ∧ t.ctx = [] ∧ t.core = [] ∧ t.latch = [] ∧ t.stackMem = []
    ∧ t.fuse = s.fuse ∧ t.fw.mem = s.fw.mem ∧ t.hostMem = s.hostMem ∧ t.pin.coldRstN = false ∧ t.cas = []
    ∧ u.pin.pwrGood = false ∧ u.dev.inReset = true ∧ u.queue = [] ∧ u.fuse = s.fuse ∧ u.hostMem = s.hostMem)
  ∧ (∀ s : State, s.dev.inReset = true → ∃ t, exec .coldResetRelease s = .next t ∧ t.dev.inReset = false ∧ t.dev.clockStop = false ∧ t.ctr 0 = 0 ∧ t.ctr 1 = 0
      ∧ t.dev.compatPins = s.pin.compatSel ∧ t.dev.compatLevel = (if s.pin.compatSel = 3 then 2 else s.pin.compatSel.toNat) ∧ t.pin.coldRstN = true
      ∧ t.dev.coldWalk = 3)
  ∧ (∀ s : State, (s.dev.inReset = true → exec .coldResetAssert s = .next (s.onPin (fun p => { p with coldRstN := false }))
        ∧ exec .pwrGoodLow s = .next (s.onPin (fun p => { p with pwrGood := false })))
      ∧ (s.dev.inReset = false → exec .coldResetRelease s = .next s))
  ∧ (∀ (v : View) (a : Acc) (x : Nat) (s : State), actVal a = some x → x.testBit 0 = true → pfOrMp s v = true → absorbed s = false → s.therm.trip = false →
      s.dev.compatPend = false → (∀ k, k < 16 → (s.casAt k).selftest = none) → ∃ t, exec (.devRst v a) s = .next t ∧ t.dev.rst = true ∧ t.dev.service = .boot ∧ t.queue = [] ∧ t.ctx = [] ∧ t.core = []
      ∧ t.stackMem = [] ∧ t.dev.boardId = s.dev.boardId ∧ t.dev.rack = s.dev.rack ∧ t.dev.slot = s.dev.slot ∧ t.hostMem = s.hostMem ∧ t.dev.ctr = s.dev.ctr)
  ∧ (∀ (f : Nat) (s : State), f < 34 → absorbed s = false → resetting s f = false →
      let fs := if isPF f then portFns (fnPort f) else [f]
      let u := forEach (tkeys (tfilter (fun _ x => fs.contains x.fn) s.ctx)) resetCtx s
      let t := forEach fs resetFn (forEach ((List.range 16).filter (fun k => match (u.casAt k).selftest with | some t => fs.contains t.1 | none => false)) dropTest u)
      exec (.functionLevelReset f) s = .next (pumpAll (havocWindows (beginReset (.function f) (if isPF f then dropHostMaps (fnPort f) t else t)))))
  ∧ (∀ (f : Nat) (s : State), absorbed s = true ∨ resetting s f = true → exec (.functionLevelReset f) s = .next s)
  ∧ (∀ (port : Nat) (s : State), port < 2 → exec (.functionLevelReset (pfOf port)) s = .next (functionReset (pfOf port) s)
      ∧ exec (.hostLinkLoss port) s = .next (functionReset (pfOf port) s)
      ∧ exec (.perstAssert port) s = .next (functionReset (pfOf port) (s.onPin (fun p => { p with perstN := tset p.perstN port false })))
      ∧ exec (.perstDeassert port) s = .next (s.onPin (fun p => { p with perstN := tset p.perstN port true })))
  ∧ (∀ (v : View) (a : Acc) (x : Nat) (s : State), actVal a = some x → pfOrMp s v = true → absorbed s = false →
      exec (.caseRst v a) s = .next (pumpAll (forEach ((List.range 16).filter (fun k => x.testBit k && mayReset s v k)) casementReset s)))
  ∧ (∀ (i k : Nat) (s : State), tget s.dev.resets i = some (.casement k) → exec (.resetComplete i) s
      = .next (s.onDev (fun d => { d with caseRst := setBit d.caseRst k false, resets := tdel d.resets i })))
  ∧ ∀ (i f : Nat) (s : State), tget s.dev.resets i = some (.function f) → s.dev.caseRst = 0 →
      exec (.resetComplete i) s = .next (s.onDev (fun d => { d with resets := tdel d.resets i }))

end Reset

section Registers

open Sys2Proof Sys2Proof.Machine Sys2Proof.Claims

/-- Q_ADMIN_CFG: ENABLE = 1 starts a queue that is not running, at slot 0 of its rings, if its sizes lie in 6 to 16; ENABLE = 0 stops its fetching, and once
every record is posted the queue is gone and ENABLED reads 0 (16 R561). -/
def Sys2Proof.Claims.AdminQueueRegister : Prop :=
  (∀ (f : Nat) (v : Word) (s : State), f < 34 → barOpen s = true → v.toNat.testBit 63 = true → (s.fnAt f).enabled = false → s.dev.recovery = false →
    let sub := v.toNat / 2 ^ 8 % 32
    let cpl := v.toNat / 2 ^ 16 % 32
    let vec := v.toNat / 2 ^ 32 % 2048
    let t := s.modFn f (fun n => { n with vector := vec, cplLog2 := cpl, subLog2 := sub })
    (6 ≤ sub → sub ≤ 16 → 6 ≤ cpl → cpl ≤ 16 → ∃ q : Queue,
      exec (.adminQueueEnable f (.full v)) s = .next ((t.putQueue f q).modFn f (fun n => { n with enable := true, enabled := true, dbErr := false }))
      ∧ q.admin = true ∧ q.fn = f ∧ q.es = [] ∧ q.tail = 0 ∧ q.fetch = 0 ∧ q.head = 0 ∧ q.cplTail = 0 ∧ q.phase = true ∧ q.subLog2 = sub ∧ q.cplLog2 = cpl
      ∧ q.vector = vec ∧ q.subBase = (s.fnAt f).subBase ∧ q.cplBase = (s.fnAt f).cplBase)
    ∧ (sub < 6 ∨ 16 < sub ∨ cpl < 6 ∨ 16 < cpl → exec (.adminQueueEnable f (.full v)) s = .next t))
  ∧ (∀ (f : Nat) (v : Word) (s : State), f < 34 → barOpen s = true → v.toNat.testBit 63 = false → (s.fnAt f).enabled = true → (s.fnAt f).enable = true →
      exec (.adminQueueDisable f (.full v)) s
        = .next ((s.updQueue f (fun x => { x with drain := true })).modFn f (fun n => { n with enable := false })))
  ∧ ∀ (f : Nat) (x : Queue) (s : State), f < 34 → s.getQueue f = some x → (s.fnAt f).enabled = true → (s.fnAt f).enable = false → x.es = [] →
      exec (.adminQueueDrained f) s = .next (pumpAll ((s.delQueue f).modFn f (fun n => { n with enabled := false })))

/-- Register writes. An aperture window takes ENABLE, CTX and BASE; COMPAT_LEVEL up to the ceiling, at once outside a group and on leaving it inside one; a 0 in
a field of ECC_CE_CFG leaves it; ECC_CE_CLR clears the totals of the stacks it names. REGISTER_WRITE reaches the register at its offset, and a
offset that the view does not reach changes nothing, and a misaligned write of BAR0 is an Unsupported Request (16 R550-R553, R559, R560, R566; 09 R342). The
LATCH_ window reads a latch's value, owner and poison to a function that reaches its owner, zeros to any other, and 0x2000 free latches on each leaf where none
is allocated (16 R564, R565). -/
def Sys2Proof.Claims.RegisterWrites : Prop :=
  (∀ (f win : Nat) (v : Word) (s : State), f < 34 → barOpen s = true → win < (if isPF f then 64 else 4) →
    exec (.apertureWindowWrite f win (.full v)) s
      = .next (s.modApw (f * 64 + win) (fun _ => { enable := v.toNat.testBit 63, ctx := v.toNat / 2 ^ 48 % 4096, baseHi := v.toNat % 2 ^ 20 })))
  ∧ (∀ (f : Nat) (v : Word) (s : State), f < 34 → isPF f = true → barOpen s = true → v.toNat % 4 ≤ compatCeil s →
      exec (.compatLevelWrite (.fn f) (.full v)) s = .next (if s.fab.member then s.onDev (fun d => { d with compatReq := v.toNat % 4, compatPend := true })
        else applyCompat (s.onDev (fun d => { d with compatReq := v.toNat % 4 }))))
  ∧ (∀ (f : Nat) (v : Word) (s : State), compatCeil s < v.toNat % 4 → exec (.compatLevelWrite (.fn f) (.full v)) s = .next s)
  ∧ (∀ (v : View) (w : Word) (s : State), pfOrMp s v = true →
      exec (.eccCeCfgWrite v (.full w)) s = .next (s.onEccReg (fun e => { e with
        thresh := if w.toNat % 2 ^ 16 = 0 then e.thresh else w.toNat % 2 ^ 16,
        leakMs := if w.toNat / 2 ^ 16 % 2 ^ 16 = 0 then e.leakMs else w.toNat / 2 ^ 16 % 2 ^ 16 })))
  ∧ (∀ (v : View) (w : Word) (s : State), pfOrMp s v = true →
      exec (.eccCeClr v (.full w)) s = .next (forEach ((List.range 12).filter (fun k => w.toNat.testBit k)) (fun k t => t.modEcc k (fun e => { e with
        total := 0, ovf := 0 })) s))
  ∧ (∀ (v : View) (off : Nat) (a : Acc) (s : State), viewOpen s v = false → exec (.registerWrite v off a) s = .next s)
  ∧ (∀ (f off : Nat) (a : Acc) (s : State), off % 8 ≠ 0 →
      (viewOpen s (.fn f) = true → exec (.registerWrite (.fn f) off a) s = .next (s.onOut (fun o => { o with ur := o.ur + 1 })))
      ∧ exec (.registerWrite .mp off a) s = .next s)
  ∧ (∀ (f i : Nat) (l : Latch) (s : State), barOpen s = true → i < 16384 → s.getLatch i = some l →
      (reaches s f l.owner = true → regRead s f (0x100000 + 16 * i) = l.value
        ∧ regRead s f (0x100000 + 16 * i + 8) = BitVec.ofNat 64 (2 ^ 31 + l.owner * 2 ^ 16 + b2n l.poison))
      ∧ (reaches s f l.owner = false → regRead s f (0x100000 + 16 * i) = 0 ∧ regRead s f (0x100000 + 16 * i + 8) = 0))
  ∧ (∀ (f i : Nat) (s : State), barOpen s = true → i < 16384 → s.getLatch i = none →
      regRead s f (0x100000 + 16 * i) = 0 ∧ regRead s f (0x100000 + 16 * i + 8) = 0)
  ∧ (∀ (f : Nat) (s : State), barOpen s = true → s.latch = [] → s.latchHold = [] → regRead s f 0x140000 = 0x20002000)
  ∧ (∀ (v : View) (a : Acc) (s : State), viewOpen s v = true →
      exec (.registerWrite v 0x1000 a) s = exec (.devRst v a) s ∧ exec (.registerWrite v 0x1020 a) s = exec (.caseRst v a) s
      ∧ exec (.registerWrite v 0x10008 a) s = exec (.compatLevelWrite v a) s ∧ exec (.registerWrite v 0x20008 a) s = exec (.eccCeCfgWrite v a) s
      ∧ exec (.registerWrite v 0x20018 a) s = exec (.eccCeClr v a) s)
  ∧ (∀ (v : View) (w : Word) (s : State), viewOpen s v = true → pfOrMp s v = true → w.toNat % 2 ^ 16 ≠ 0 → w.toNat / 2 ^ 16 % 2 ^ 16 ≠ 0 →
      exec (.registerWrite v 0x20008 (.full w)) s = .next (s.onEccReg (fun e => { e with
        thresh := w.toNat % 2 ^ 16, leakMs := w.toNat / 2 ^ 16 % 2 ^ 16 })))
  ∧ ∀ (f win : Nat) (a : Acc) (s : State), win < 64 → viewOpen s (.fn f) = true →
      exec (.registerWrite (.fn f) (0x1200 + 8 * win) a) s = exec (.apertureWindowWrite f win a) s

/-- The management port: an access starts with a good PEC while none is pending, takes effect at MGMT_ACCESS_DONE, and its result leaves at MGMT_RESULT_READ; an
offset outside the view answers 2, an access in reset 3, a bad PEC 4; an alert response releases MGMT_ALERT_N. The test port: IDCODE shifts its word
out; EXTEST and its variants act only while COLD_RST_N is low (17 R582-R585). -/
def Obligations.ManagementAndTestPorts : Prop :=
  (∀ (off : Nat) (v : Word) (s : State), s.mgmt.code ≠ 1 →
    exec (.mgmtRegisterRead off true) s = .next (s.onMgmt (fun _ => { code := mgmtCode s off false, off := off, value := 0, write := false }))
    ∧ exec (.mgmtRegisterWrite off v true) s = .next (s.onMgmt (fun _ => { code := mgmtCode s off true, off := off, value := v, write := true }))
    ∧ exec (.mgmtRegisterRead off false) s = .next (s.onMgmt (fun m => { m with code := 4 }))
    ∧ exec (.mgmtRegisterWrite off v false) s = .next (s.onMgmt (fun m => { m with code := 4 })))
  ∧ (∀ (off : Nat) (v : Word) (b : Bool) (s : State), s.mgmt.code = 1 →
      exec (.mgmtRegisterRead off b) s = .next s ∧ exec (.mgmtRegisterWrite off v b) s = .next s)
  ∧ (∀ (x : Nat) (s : State), s.mgmt.code = 1 → s.mgmt.write = false → mgmtRead s s.mgmt.off = some x →
      exec .mgmtAccessDone s = .next (s.onMgmt (fun m => { m with code := 0, value := BitVec.ofNat 64 x })))
  ∧ (∀ s : State, s.mgmt.code = 1 → s.mgmt.write = true →
      exec .mgmtAccessDone s = .next ((regWrite .mp s.mgmt.off (.full s.mgmt.value) s).onMgmt (fun m => { m with code := 0 })))
  ∧ (∀ s : State, exec .mgmtResultRead s = .next (s.onOut (fun o => { o with smb := (s.mgmt.code, s.mgmt.off, s.mgmt.value) :: o.smb }))
      ∧ exec .mgmtAlertResponse s = .next (s.onPin (fun p => { p with mgmtAlertN := true })))
  ∧ (∀ s : State,
      let sel := fun (i : Jtag) => s.onPin (fun p => { p with trstN := true, jtagReset := false, jtagIr := i })
      exec .idcode s = .next ((sel .idcode).onOut (fun o => { o with
        tdo := (if s.fuse.stepping = 0xB1 then 0x10880D6B else 0x00880D6B) :: o.tdo }))
      ∧ exec .bypass s = .next (sel .bypass) ∧ exec .samplePreload s = .next (sel .samplePreload)
      ∧ exec .extest s = .next (sel (if s.pin.coldRstN then .bypass else .extest))
      ∧ exec .extestPulse s = .next (sel (if s.pin.coldRstN then .bypass else .extestPulse))
      ∧ exec .extestTrain s = .next (sel (if s.pin.coldRstN then .bypass else .extestTrain))
      ∧ exec .testLogicReset s = .next (s.onPin (fun p => { p with trstN := false, jtagReset := true, jtagIr := .idcode })))

/-- Q_ADMIN_CFG, aperture windows, COMPAT_LEVEL, ECC settings, REGISTER_WRITE by offset, and reads of the LATCH_ window (16 R550-R553, R559-R561, R564-R566). -/
def Obligations.RegisterAccess : Prop := Claims.AdminQueueRegister ∧ Claims.RegisterWrites

end Registers
end

