-- ==== Sys2Proof/Laws/Ecc.lean ====
section
/-! SUPPORT. What 09 Table 9.3 says of reads, from the property `eccLawful` of the generator (log 11): one wrong symbol is corrected, two are detected,
a word of another place and a poisoned one are uncorrectable. -/

namespace Sys2Proof.Machine

/-! Symbols. -/

/-- Symbol i of a word. -/
def symAt (w : List Byte) (i : Nat) : Nat := le w (2 * i) 2

theorem toLE_le_two (a b : Byte) : toLE (leNat [a, b]) 2 = [a, b] := by
  have ha := a.isLt
  have h : (leNat [a, b]) / 256 = b.toNat := by simp only [leNat]; omega
  simp only [toLE, h]
  congr 1
  · apply BitVec.eq_of_toNat_eq; simp only [leNat, BitVec.toNat_ofNat]; omega
  · simp

theorem putSym_length (w : List Byte) (j v : Nat) (h : 2 * j + 2 ≤ w.length) : (putSym w j v).length = w.length := by
  simp [putSym, overlay, toLE]; omega

theorem putSym_eq (w : List Byte) (j v : Nat) (h : 2 * j + 2 ≤ w.length) : putSym w j v = w.take (2 * j) ++ toLE v 2 ++ w.drop (2 * j + 2) := by
  have : (toLE v 2).length = 2 := rfl
  simp only [putSym, overlay, this]
  rw [List.take_of_length_le (i := w.length - 2 * j) (by simp only [this]; omega)]

/-- Writing a symbol back restores the word. -/
theorem putSym_back (w : List Byte) (j v : Nat) (h : 2 * j + 2 ≤ w.length) : putSym (putSym w j v) j (symAt w j) = w := by
  have hl : (w.take (2 * j)).length = 2 * j := by simp; omega
  have h2 : (toLE v 2).length = 2 := rfl
  obtain ⟨a, b, hab⟩ : ∃ a b, (w.drop (2 * j)).take 2 = [a, b] := by
    have hn : ((w.drop (2 * j)).take 2).length = 2 := by simp; omega
    match hw : (w.drop (2 * j)).take 2, hn with
    | [a, b], _ => exact ⟨a, b, rfl⟩
  rw [putSym_eq _ _ _ (by rw [putSym_length w j v h]; exact h), putSym_eq w j v h]
  have e1 : ((w.take (2 * j) ++ toLE v 2) ++ w.drop (2 * j + 2)).take (2 * j) = w.take (2 * j) := by
    rw [List.append_assoc, List.take_left' hl]
  have e2 : ((w.take (2 * j) ++ toLE v 2) ++ w.drop (2 * j + 2)).drop (2 * j + 2) = w.drop (2 * j + 2) := by
    rw [List.drop_left' (by simp [h2]; omega)]
  rw [e1, e2, symAt, le, hab, toLE_le_two, ← hab]
  have := List.take_append_drop 2 (w.drop (2 * j))
  rw [List.drop_drop] at this
  rw [List.append_assoc, this, List.take_append_drop]

theorem sym_putSym_ne (w : List Byte) (j v i : Nat) (h : 2 * j + 2 ≤ w.length) (hi : i ≠ j) : symAt (putSym w j v) i = symAt w i := by
  have hl : (w.take (2 * j)).length = 2 * j := by simp; omega
  have h2 : (toLE v 2).length = 2 := rfl
  simp only [symAt, le]
  congr 1
  rw [putSym_eq w j v h]
  apply List.ext_getElem?
  intro k
  simp only [List.getElem?_take, List.getElem?_drop]
  split
  · rename_i hk
    rcases Nat.lt_or_ge i j with c | c
    · rw [List.append_assoc, List.getElem?_append_left (by omega), List.getElem?_take, if_pos (by omega)]
    · rw [List.getElem?_append_right (by simp [h2]; omega), List.getElem?_drop]
      congr 1
      simp [h2]; omega
  · rfl

/-! Distances. -/

/-- Symbols of 36 in which two words differ. -/
def symDist (x y : List Byte) : Nat := (bitsWhere 36 (fun i => symAt x i ≠ symAt y i)).length

theorem symDiff_dist (d c d' c' : List Byte) : (symDiff d c d' c').length = symDist (d ++ c) (d' ++ c') := rfl

theorem symDist_self (x : List Byte) : symDist x x = 0 := by simp [symDist, bitsWhere]

theorem symDist_comm (x y : List Byte) : symDist x y = symDist y x := by simp only [symDist, ne_comm]

theorem filter_triangle (p q r : Nat → Bool) (h : ∀ i, p i = true → q i = true ∨ r i = true) (l : List Nat) :
    (l.filter p).length ≤ (l.filter q).length + (l.filter r).length := by
  induction l with
  | nil => simp
  | cons i l ih =>
    simp only [List.filter_cons]
    have := h i
    split <;> split <;> split <;> simp_all <;> omega

theorem symDist_triangle (x y z : List Byte) : symDist x z ≤ symDist x y + symDist y z := by
  refine filter_triangle _ _ _ (fun i hi => ?_) _
  simp only [decide_eq_true_eq] at *
  by_cases e : symAt x i = symAt y i
  · right; rw [← e]; exact hi
  · left; exact e

theorem filter_single (p : Nat → Bool) (j : Nat) (h : ∀ i, i ≠ j → p i = false) (l : List Nat) (hl : l.Nodup) : (l.filter p).length ≤ 1 := by
  have hs : (l.filter p).Nodup := hl.filter p
  have hm : ∀ i ∈ l.filter p, i = j := fun i hi => by
    by_contra hc
    have := (List.mem_filter.1 hi).2
    rw [h i hc] at this
    exact absurd this (by simp)
  match hf : l.filter p with
  | [] => simp
  | [a] => simp
  | a :: b :: t =>
    rw [hf] at hs hm
    have := hm a (by simp)
    have := hm b (by simp)
    simp_all

theorem symDist_putSym (w : List Byte) (j v : Nat) (h : 2 * j + 2 ≤ w.length) : symDist (putSym w j v) w ≤ 1 :=
  filter_single _ j (fun i hi => by simp [sym_putSym_ne w j v i h hi]) _ (List.nodup_range)

theorem putSym_append_left (d c : List Byte) (j v : Nat) (h : 2 * j + 2 ≤ d.length) : putSym d j v ++ c = putSym (d ++ c) j v := by
  rw [putSym_eq d j v h, putSym_eq (d ++ c) j v (by simp; omega), List.take_append_of_le_length (by omega), List.drop_append_of_le_length (by omega)]
  simp

theorem symDist_data (d c : List Byte) (j v : Nat) (h : 2 * j + 2 ≤ d.length) : symDist (putSym d j v ++ c) (d ++ c) ≤ 1 := by
  rw [putSym_append_left d c j v h]
  exact symDist_putSym _ _ _ (by simp; omega)

theorem putSym_append_right (d c : List Byte) (j v : Nat) (hd : d.length = 64) (h : 2 * j + 2 ≤ c.length) :
    d ++ putSym c j v = putSym (d ++ c) (32 + j) v := by
  rw [putSym_eq c j v h, putSym_eq (d ++ c) (32 + j) v (by simp; omega)]
  have e1 : (d ++ c).take (2 * (32 + j)) = d ++ c.take (2 * j) := by
    rw [List.take_append, List.take_of_length_le (by omega)]; congr 2; omega
  have e2 : (d ++ c).drop (2 * (32 + j) + 2) = c.drop (2 * j + 2) := by
    rw [List.drop_append, List.drop_of_length_le (by omega), List.nil_append]; congr 1; omega
  rw [e1, e2]
  simp

theorem symDist_check (d c : List Byte) (j v : Nat) (hd : d.length = 64) (h : 2 * j + 2 ≤ c.length) : symDist (d ++ putSym c j v) (d ++ c) ≤ 1 := by
  rw [putSym_append_right d c j v hd h]
  exact symDist_putSym _ _ _ (by simp; omega)

theorem checkOf_length (a : Nat) (d : List Byte) : (checkOf a d).length = 8 := by simp [checkOf, padTo, zeros]; omega

/-! Verdicts. -/

/-- The data symbol that corrects a word, if one does. -/
theorem data_symbol_found (a : Nat) (d c : List Byte) (r : Nat × List Byte)
    (h : (List.range 32).findSome? (fun j => (List.range 65536).findSome? (fun v =>
      if c = checkOf a (putSym d j v) then some (j, putSym d j v) else none)) = some r) :
    ∃ j v, j < 32 ∧ r = (j, putSym d j v) ∧ c = checkOf a (putSym d j v) := by
  obtain ⟨j, hj, h⟩ := List.exists_of_findSome?_eq_some h
  obtain ⟨v, _, h⟩ := List.exists_of_findSome?_eq_some h
  split at h
  · rename_i hc
    exact ⟨j, v, List.mem_range.1 hj, by simpa using h.symm, hc⟩
  · cases h

/-- A word that is neither a code word of its address nor one symbol from one decodes as uncorrectable. -/
theorem eccVerdict_far (a : Nat) (d c : List Byte) (hd : d.length = 64) (hc : c.length = 8)
    (h : ∀ d', d'.length = 64 → 2 ≤ symDist (d ++ c) (d' ++ checkOf a d')) : (eccVerdict a d c).1 = 2 ∨ (eccVerdict a d c).1 = 3 := by
  unfold eccVerdict
  split
  · rename_i e
    have := h d hd
    rw [e, symDist_self] at this
    omega
  · split
    · right; rfl
    · split
      · rename_i j' d' e
        obtain ⟨j, v, hj, hr, hv⟩ := data_symbol_found a d c _ e
        have := h (putSym d j v) (by rw [putSym_length _ _ _ (by omega), hd])
        rw [← hv, symDist_comm] at this
        have := symDist_data d c j v (by omega)
        omega
      · split
        · rename_i j e
          have hj := List.mem_range.1 (List.mem_of_find?_eq_some e)
          have e := List.find?_some e
          obtain ⟨v, -, hv⟩ := List.any_eq_true.1 e
          have hv := of_decide_eq_true hv
          have := h d hd
          rw [← hv, symDist_comm] at this
          have := symDist_check d c j v hd (by omega)
          omega
        · left; rfl

/-- A word with two wrong symbols is detected (09 Table 9.3). -/
theorem two_symbols_detected (hl : eccLawful) (a : Nat) (d d' c' : List Byte) (ha : isWordAddr a) (hd : d.length = 64) (hd' : d'.length = 64)
    (hc : c'.length = 8) (h : (symDiff d (checkOf a d) d' c').length = 2) : (eccVerdict a d' c').1 = 2 ∨ (eccVerdict a d' c').1 = 3 := by
  refine eccVerdict_far a d' c' hd' hc (fun x hx => ?_)
  rw [symDiff_dist] at h
  by_cases e : d = x
  · rw [← e, symDist_comm]; omega
  · have h4 := hl.1 a d x ha hd hx e
    rw [symDiff_dist] at h4
    have := symDist_triangle (d ++ checkOf a d) (d' ++ c') (x ++ checkOf a x)
    omega

/-- A code word read at another address is uncorrectable (09 Table 9.3). -/
theorem wrong_place_detected (hl : eccLawful) (a b : Nat) (d : List Byte) (ha : isWordAddr a) (hb : isWordAddr b) (hab : a ≠ b) (hd : d.length = 64) :
    (eccVerdict a d (checkOf b d)).1 = 2 ∨ (eccVerdict a d (checkOf b d)).1 = 3 := by
  refine eccVerdict_far a d _ hd (checkOf_length b d) (fun x hx => ?_)
  have := hl.2.1 b a d x hb ha hd hx (Ne.symm hab)
  rwa [symDiff_dist] at this

/-- A poisoned word is uncorrectable (09 R337). -/
theorem poisoned_detected (hl : eccLawful) (a : Nat) (d : List Byte) (ha : isWordAddr a) (hd : d.length = 64) :
    (eccVerdict a d (poisonedOf a d)).1 = 2 ∨ (eccVerdict a d (poisonedOf a d)).1 = 3 := by
  refine eccVerdict_far a d _ hd (by simp [poisonedOf]) (fun x hx => ?_)
  have := hl.2.2 a d x ha hd hx
  rwa [symDiff_dist] at this

/-- An error in one data symbol is corrected to the word that was stored (09 Table 9.3). -/
theorem data_symbol_corrected (hl : eccLawful) (a : Nat) (d : List Byte) (j v : Nat) (ha : isWordAddr a) (hd : d.length = 64) (hj : j < 32)
    (hne : putSym d j v ≠ d) : ∃ i, eccVerdict a (putSym d j v) (checkOf a d) = (1, i, d) := by
  have hl' : (putSym d j v).length = 64 := by rw [putSym_length _ _ _ (by omega), hd]
  have near := symDist_data d (checkOf a d) j v (by omega)
  unfold eccVerdict
  split
  · rename_i e
    have h4 := hl.1 a (putSym d j v) d ha hl' hd hne
    rw [symDiff_dist, ← e] at h4
    omega
  · split
    · rename_i e
      have h2 := hl.2.2 a (putSym d j v) d ha hl' hd
      rw [symDiff_dist, ← e] at h2
      omega
    · split
      · rename_i i x e
        obtain ⟨k, u, hk, hr, hu⟩ := data_symbol_found a _ _ _ e
        have hx : x = d := by
          by_contra hx
          have hxe : x = putSym (putSym d j v) k u := by simp only [Prod.mk.injEq] at hr; exact hr.2
          have hxl : x.length = 64 := by rw [hxe, putSym_length _ _ _ (by omega), hl']
          have h4 := hl.1 a x d ha hxl hd hx
          rw [symDiff_dist, hxe, ← hu] at h4
          have := symDist_data (putSym d j v) (checkOf a d) k u (by omega)
          have := symDist_triangle (putSym (putSym d j v) k u ++ checkOf a d) (putSym d j v ++ checkOf a d) (d ++ checkOf a d)
          omega
        exact ⟨i, by rw [hx]⟩
      · rename_i e
        exfalso
        have hs : symAt d j < 65536 := by
          have : ((d.drop (2 * j)).take 2).length = 2 := by simp; omega
          match hw : (d.drop (2 * j)).take 2, this with
          | [x, y], _ =>
            have := x.isLt; have := y.isLt
            simp only [symAt, le, hw, leNat]; omega
        have e := List.findSome?_eq_none_iff.1 e j (List.mem_range.2 hj)
        have e := List.findSome?_eq_none_iff.1 e (symAt d j) (List.mem_range.2 hs)
        rw [putSym_back d j v (by omega)] at e
        simp at e

/-- An error in one check symbol is corrected (09 Table 9.3). -/
theorem check_symbol_corrected (hl : eccLawful) (a : Nat) (d : List Byte) (j v : Nat) (ha : isWordAddr a) (hd : d.length = 64) (hj : j < 4)
    (hne : putSym (checkOf a d) j v ≠ checkOf a d) : ∃ i, eccVerdict a d (putSym (checkOf a d) j v) = (1, i, d) := by
  have h8 := checkOf_length a d
  have near := symDist_check d (checkOf a d) j v hd (by omega)
  unfold eccVerdict
  rw [if_neg hne]
  split
  · rename_i e
    have h2 := hl.2.2 a d d ha hd hd
    rw [symDiff_dist, ← e] at h2
    omega
  · split
    · rename_i i x e
      exfalso
      obtain ⟨k, u, hk, hr, hu⟩ := data_symbol_found a _ _ _ e
      have hxl : (putSym d k u).length = 64 := by rw [putSym_length _ _ _ (by omega), hd]
      by_cases hx : putSym d k u = d
      · rw [hx] at hu; exact hne hu
      · have h4 := hl.1 a (putSym d k u) d ha hxl hd hx
        rw [symDiff_dist, ← hu] at h4
        have := symDist_data d (putSym (checkOf a d) j v) k u (by omega)
        have := symDist_triangle (putSym d k u ++ putSym (checkOf a d) j v) (d ++ putSym (checkOf a d) j v) (d ++ checkOf a d)
        omega
    · split
      · rename_i i e
        exact ⟨32 + i, rfl⟩
      · rename_i e
        exfalso
        have hs : symAt (checkOf a d) j < 65536 := by
          have : (((checkOf a d).drop (2 * j)).take 2).length = 2 := by simp; omega
          match hw : ((checkOf a d).drop (2 * j)).take 2, this with
          | [x, y], _ =>
            have := x.isLt; have := y.isLt
            simp only [symAt, le, hw, leNat]; omega
        have e := List.find?_eq_none.1 e j (List.mem_range.2 hj)
        apply e
        exact List.any_eq_true.2 ⟨symAt (checkOf a d) j, List.mem_range.2 hs, by simp [putSym_back (checkOf a d) j v (by omega)]⟩

end Sys2Proof.Machine
end

