-- ==== Sys2Proof/Laws/Frames.lean ====
section
/-! SUPPORT. What shared operations leave alone: sending, slow-notices and the end of a trip the device's own registers; the resets what 15 Table 15.5
keeps. -/

namespace Sys2Proof.Machine

/-- A loop whose body leaves the device's own registers alone leaves them alone. -/
theorem forEach_dev {α : Type} (l : List α) (f : α → State → State) (h : ∀ a s, (f a s).dev = s.dev) (s : State) : (forEach l f s).dev = s.dev := by
  unfold forEach
  induction l generalizing s with
  | nil => rfl
  | cons a l ih => simp only [List.foldl_cons]; rw [ih, h]

theorem servePort_dev (p n : Nat) (s : State) : (servePort p n s).dev = s.dev := by
  induction n generalizing s with
  | zero => rfl
  | succ n ih =>
    unfold servePort; dsimp only
    split
    · rfl
    · split
      · rfl
      · rw [ih]; rfl

theorem servePorts_dev (s : State) : (servePorts s).dev = s.dev := forEach_dev _ _ (fun _ _ => servePort_dev _ _ _) _

theorem sendVia_dev (from_ : Option Nat) (via : List Nat) (f : Flit) (s : State) : (sendVia from_ via f s).dev = s.dev := by
  unfold sendVia; split <;> rfl

theorem sendNotice_dev (n : Notice) (dsts : List Nat) (s : State) : (sendNotice n dsts s).dev = s.dev :=
  forEach_dev _ _ (fun _ _ => sendVia_dev _ _ _ _) _

theorem sendOwn_dev (s : State) : (sendOwn s).dev = s.dev := by
  unfold sendOwn; rw [servePorts_dev]; exact forEach_dev _ _ (fun _ _ => sendNotice_dev _ _ _) _

theorem noticeUpdate_dev (s : State) : (noticeUpdate s).dev = s.dev := by
  unfold noticeUpdate; dsimp only
  split
  · rfl
  · rw [sendOwn_dev]; rfl

/-- The end of a trip starts the compute clocks and changes nothing else of the device's own registers (14 R515). -/
theorem endTrip_dev (s : State) : (endTrip s).dev = { s.dev with clockStop := false } := by
  unfold endTrip; dsimp only; rw [noticeUpdate_dev]; rfl

/-- The configuration record changes neither the device's own registers nor its pins (13 R475). -/
theorem applyConfig_keeps (s : State) : (applyConfig s).dev = s.dev ∧ (applyConfig s).pin = s.pin := by
  have far : ∀ (s : State) f, (s.onFar f).dev = s.dev ∧ (s.onFar f).pin = s.pin := fun _ _ => ⟨rfl, rfl⟩
  have cas : ∀ (s : State) f, (s.onCas f).dev = s.dev ∧ (s.onCas f).pin = s.pin := fun _ _ => ⟨rfl, rfl⟩
  have log : ∀ (p pt sev : Nat) (a b : Word) (s : State), (trace p pt sev a b s).dev = s.dev ∧ (trace p pt sev a b s).pin = s.pin := fun _ _ _ _ _ _ => ⟨rfl, rfl⟩
  unfold applyConfig
  extract_lets m c a
  split
  · exact ⟨(far _ _).1.trans (cas _ _).1, (far _ _).2.trans (cas _ _).2⟩
  · split
    · exact ⟨(log _ _ _ _ _ _).1.trans ((far _ _).1.trans (cas _ _).1), (log _ _ _ _ _ _).2.trans ((far _ _).2.trans (cas _ _).2)⟩
    · exact ⟨(far _ _).1.trans (cas _ _).1, (far _ _).2.trans (cas _ _).2⟩

/-- The release of a cold reset, as an equation (17 R586). -/
theorem coldRelease_eq (s : State) (h : s.dev.inReset = true) :
    coldRelease s = applyConfig ((s.onPin (fun p => { p with coldRstN := true, pwrGood := true })).onDev (fun d => { d with
      inReset := false, clockStop := false, ctr := [], compatPins := s.pin.compatSel,
      compatLevel := (if s.pin.compatSel = 3 then 2 else s.pin.compatSel.toNat),
      compatReq := (if s.pin.compatSel = 3 then 2 else s.pin.compatSel.toNat), compatPend := false, coldWalk := 3 })) := by
  unfold coldRelease; rw [if_neg (by simp [h])]

/-- Freeing the test windows touches the windows and the free values alone (15 Table 15.5). -/
theorem havocWindows_eq (s : State) : ∃ w k f, havocWindows s = { s with window := w, winFree := k, freeCtr := f } := by
  unfold havocWindows forEach
  generalize List.range 12 = l
  induction l generalizing s with
  | nil => exact ⟨s.window, s.winFree, s.freeCtr, rfl⟩
  | cons a l ih =>
    simp only [List.foldl_cons]
    obtain ⟨w, k, f, h⟩ := ih (havocWindow a s)
    refine ⟨w, k, f, ?_⟩
    rw [h]; rfl

/-- A device without a self-test has none to drop (15 R542). -/
theorem dropTests_none (s : State) (h : ∀ k, k < 16 → (s.casAt k).selftest = none) : forEach (List.range 16) dropTest s = s := by
  have key : ∀ l : List Nat, (∀ k ∈ l, k < 16) → forEach l dropTest s = s := by
    intro l
    unfold forEach
    induction l with
    | nil => intro _; rfl
    | cons a l ih =>
      intro hl
      simp only [List.foldl_cons]
      have ha : dropTest a s = s := by simp [dropTest, h a (hl a (by simp))]
      rw [ha]; exact ih (fun k hk => hl k (by simp [hk]))
  exact key _ (by simp)

/-- What both classes of device-wide reset leave, where no self-test runs (15 Table 15.5). -/
theorem clearAll_keeps (s : State) (hn : ∀ k, k < 16 → (s.casAt k).selftest = none) :
    (clearAll s).queue = [] ∧ (clearAll s).ctx = [] ∧ (clearAll s).core = [] ∧ (clearAll s).latch = [] ∧ (clearAll s).stackMem = []
    ∧ (clearAll s).fuse = s.fuse ∧ (clearAll s).fw.mem = s.fw.mem ∧ (clearAll s).hostMem = s.hostMem ∧ (clearAll s).pin = s.pin
    ∧ (clearAll s).dev.service = .boot ∧ (clearAll s).dev.bootLock = false ∧ (clearAll s).dev.ctr = s.dev.ctr ∧ (clearAll s).therm.trip = false
    ∧ (clearAll s).dev.rst = false ∧ (clearAll s).dev.compatPend = s.dev.compatPend := by
  unfold clearAll
  rw [dropTests_none s hn]
  dsimp only
  have key : ∀ z : State, (havocWindows z).queue = z.queue ∧ (havocWindows z).ctx = z.ctx ∧ (havocWindows z).core = z.core ∧ (havocWindows z).latch = z.latch
      ∧ (havocWindows z).stackMem = z.stackMem ∧ (havocWindows z).fuse = z.fuse ∧ (havocWindows z).fw = z.fw ∧ (havocWindows z).hostMem = z.hostMem
      ∧ (havocWindows z).pin = z.pin ∧ (havocWindows z).dev = z.dev ∧ (havocWindows z).therm = z.therm := by
    intro z
    obtain ⟨w, k, f, hh⟩ := havocWindows_eq z
    rw [hh]; exact ⟨rfl, rfl, rfl, rfl, rfl, rfl, rfl, rfl, rfl, rfl, rfl⟩
  refine ⟨(key _).1, (key _).2.1, (key _).2.2.1, (key _).2.2.2.1, (key _).2.2.2.2.1, (key _).2.2.2.2.2.1, ?_, (key _).2.2.2.2.2.2.2.1,
    (key _).2.2.2.2.2.2.2.2.1, ?_, ?_, ?_, ?_, ?_, ?_⟩
  · rw [(key _).2.2.2.2.2.2.1]
  all_goals first
    | rw [(key _).2.2.2.2.2.2.2.2.2.1] <;> rfl
    | rw [(key _).2.2.2.2.2.2.2.2.2.2] <;> rfl

/-- The beginning of a cold reset, as an equation (17 R587). -/
theorem coldAssert_eq (s : State) (h : s.dev.inReset = false) :
    coldAssert s = ((((clearAll s).onDev (fun d => { d with inReset := true, clockStop := true, compatPend := false })).onFw
      (fun w => { w with calibH := [24, 24] })).onPin (fun p => { p with tripN := true })).onCas (fun _ => []) := by
  unfold coldAssert; rw [if_neg (by simp [h])]

end Sys2Proof.Machine
end

