-- ==== Sys2Proof/Laws/Mem.lean ====
section
/-! SUPPORT. Laws of tables and byte memories: what a read gives after a write, and that every memory operation keeps the canonical form. -/

namespace Sys2Proof.Machine

/-! Tables. -/

@[simp] theorem tget_tset_same {α : Type} (t : Tbl α) (k : Nat) (v : α) : tget (tset t k v) k = some v := by
  induction t with
  | nil => simp [tset, tget]
  | cons e t ih =>
    obtain ⟨j, u⟩ := e
    simp only [tset]
    split
    · simp [tget]
    · split
      · simp [tget]
      · rename_i h1 h2
        have : ¬ j = k := fun h => h2 h.symm
        simp [tget, this, ih]

theorem tget_tset_other {α : Type} (t : Tbl α) (k j : Nat) (v : α) (h : j ≠ k) : tget (tset t k v) j = tget t j := by
  induction t with
  | nil => simp [tset, tget, Ne.symm h]
  | cons e t ih =>
    obtain ⟨i, u⟩ := e
    simp only [tset]
    split
    · simp [tget, Ne.symm h]
    · split
      · rename_i h1 h2
        subst h2
        simp [tget, Ne.symm h]
      · simp only [tget, ih]

@[simp] theorem tget_tdel_same {α : Type} (t : Tbl α) (k : Nat) : tget (tdel t k) k = none := by
  induction t with
  | nil => simp [tdel, tget]
  | cons e t ih =>
    obtain ⟨j, u⟩ := e
    simp only [tdel]
    split
    · exact ih
    · rename_i h
      simp [tget, h, ih]

theorem tget_tdel_other {α : Type} (t : Tbl α) (k j : Nat) (h : j ≠ k) : tget (tdel t k) j = tget t j := by
  induction t with
  | nil => simp [tdel]
  | cons e t ih =>
    obtain ⟨i, u⟩ := e
    simp only [tdel]
    split
    · rename_i h1
      have : ¬ i = j := fun h2 => h (h2.symm.trans h1)
      simp [tget, this, ih]
    · simp only [tget, ih]

/-! Byte memories. -/

@[simp] theorem mget_mset_same (m : Mem) (a : Nat) (b : Byte) : mget (mset m a b) a = b := by
  unfold mget mset tgetD
  split
  · rename_i h
    simp [tget_tdel_same, h]
  · simp [tget_tset_same]

@[simp] theorem mget_mset_other (m : Mem) (a c : Nat) (b : Byte) (h : c ≠ a) : mget (mset m a b) c = mget m c := by
  unfold mget mset tgetD
  split
  · rw [tget_tdel_other _ _ _ h]
  · rw [tget_tset_other _ _ _ _ h]

/-- A write changes no byte outside its range. -/
theorem mget_mwrite_outside (bs : List Byte) : ∀ (m : Mem) (a c : Nat), c < a ∨ a + bs.length ≤ c → mget (mwrite m a bs) c = mget m c := by
  induction bs with
  | nil => intro m a c _; rfl
  | cons b bs ih =>
    intro m a c h
    simp only [List.length_cons] at h
    simp only [mwrite]
    rw [ih _ _ _ (by omega), mget_mset_other _ _ _ _ (by omega)]

/-- A byte in the range of a write reads as written. -/
theorem mget_mwrite_inside (bs : List Byte) : ∀ (m : Mem) (a i : Nat) (h : i < bs.length), mget (mwrite m a bs) (a + i) = bs[i] := by
  induction bs with
  | nil => intro m a i h; simp at h
  | cons b bs ih =>
    intro m a i h
    simp only [mwrite]
    cases i with
    | zero =>
      simp only [Nat.add_zero]
      rw [mget_mwrite_outside _ _ _ _ (by omega)]
      exact mget_mset_same ..
    | succ j =>
      simp only [List.length_cons] at h
      have := ih (mset m a b) (a + 1) j (by omega)
      rw [show a + (j + 1) = a + 1 + j by omega, this]
      rfl

/-! Canonical form. -/

theorem memWfFrom_mono {lo lo' : Nat} (hl : lo' ≤ lo) : ∀ {m : Mem}, memWfFrom lo m = true → memWfFrom lo' m = true
  | [], _ => rfl
  | (a, b) :: m, h => by
    simp only [memWfFrom, Bool.and_eq_true, decide_eq_true_eq] at h ⊢
    exact ⟨⟨by omega, h.1.2⟩, h.2⟩

theorem tset_wf {b : Byte} (hb : b ≠ 0) : ∀ {m : Mem} {lo a : Nat}, lo ≤ a → memWfFrom lo m = true → memWfFrom lo (tset m a b) = true
  | [], lo, a, hl, _ => by
    simp only [tset, memWfFrom, Bool.and_eq_true, decide_eq_true_eq]
    exact ⟨⟨hl, hb⟩, trivial⟩
  | (j, u) :: m, lo, a, hl, h => by
    simp only [memWfFrom, Bool.and_eq_true, decide_eq_true_eq] at h
    simp only [tset]
    split
    · rename_i h1
      simp only [memWfFrom, Bool.and_eq_true, decide_eq_true_eq]
      exact ⟨⟨hl, hb⟩, ⟨by omega, h.1.2⟩, h.2⟩
    · split
      · rename_i h1 h2
        subst h2
        simp only [memWfFrom, Bool.and_eq_true, decide_eq_true_eq]
        exact ⟨⟨hl, hb⟩, h.2⟩
      · rename_i h1 h2
        simp only [memWfFrom, Bool.and_eq_true, decide_eq_true_eq]
        exact ⟨h.1, tset_wf hb (by omega) h.2⟩

theorem tdel_wf : ∀ {m : Mem} {lo : Nat} (a : Nat), memWfFrom lo m = true → memWfFrom lo (tdel m a) = true
  | [], _, _, _ => rfl
  | (j, u) :: m, lo, a, h => by
    simp only [memWfFrom, Bool.and_eq_true, decide_eq_true_eq] at h
    simp only [tdel]
    split
    · exact memWfFrom_mono (by omega) (tdel_wf a h.2)
    · simp only [memWfFrom, Bool.and_eq_true, decide_eq_true_eq]
      exact ⟨h.1, tdel_wf a h.2⟩

theorem filter_wf (p : Nat × Byte → Bool) : ∀ {m : Mem} {lo : Nat}, memWfFrom lo m = true → memWfFrom lo (m.filter p) = true
  | [], _, _ => rfl
  | (j, u) :: m, lo, h => by
    simp only [memWfFrom, Bool.and_eq_true, decide_eq_true_eq] at h
    simp only [List.filter]
    split
    · simp only [memWfFrom, Bool.and_eq_true, decide_eq_true_eq]
      exact ⟨h.1, filter_wf p h.2⟩
    · exact memWfFrom_mono (by omega) (filter_wf p h.2)

theorem wf_mset {m : Mem} (a : Nat) (b : Byte) (h : Memory.wf m = true) : Memory.wf (mset m a b) = true := by
  unfold mset
  split
  · exact tdel_wf a h
  · rename_i hb
    exact tset_wf hb (Nat.zero_le _) h

theorem wf_mwrite (bs : List Byte) : ∀ {m : Mem} (a : Nat), Memory.wf m = true → Memory.wf (mwrite m a bs) = true := by
  induction bs with
  | nil => intro m a h; exact h
  | cons b bs ih => intro m a h; exact ih (a + 1) (wf_mset a b h)

theorem wf_mclear {m : Mem} (a n : Nat) (h : Memory.wf m = true) : Memory.wf (mclear m a n) = true := filter_wf _ h

theorem wf_filter {m : Mem} (p : Nat × Byte → Bool) (h : Memory.wf m = true) : Memory.wf (m.filter p) = true := filter_wf p h

theorem wf_msets (g : Nat × Byte → Nat) (l : List (Nat × Byte)) : ∀ {m : Mem}, Memory.wf m = true →
    Memory.wf (l.foldl (fun m e => mset m (g e) e.2) m) = true := by
  induction l with
  | nil => intro m h; exact h
  | cons e l ih => intro m h; exact ih (wf_mset _ _ h)

theorem wf_moveMem (src : Mem) {dst : Mem} (a n b : Nat) (h : Memory.wf dst = true) : Memory.wf (moveMem src dst a n b) = true :=
  wf_msets _ _ (wf_mclear _ _ h)

end Sys2Proof.Machine
end

