-- ==== Sys2Proof/Laws/Good.lean ====
section
/-! SUPPORT. The rules by which `Good` (no fuse, no waiting command changed, every memory canonical) is carried through a meaning: one
for each way a meaning is put together, and one for each primitive change of the state. -/

namespace Sys2Proof.Machine

variable {F : Fuse} {P : List Instr} {α β : Type}

/-! Ways of putting a meaning together. -/

theorem good_ite {c : Prop} [Decidable c] {a b : State} (ha : c → Good F P a) (hb : ¬c → Good F P b) : Good F P (if c then a else b) := by
  split <;> simp_all

theorem good_dite {c : Prop} [Decidable c] {a : c → State} {b : ¬c → State} (ha : ∀ h, Good F P (a h)) (hb : ∀ h, Good F P (b h)) :
    Good F P (if h : c then a h else b h) := by
  split
  · exact ha _
  · exact hb _

theorem goodL_ite {c : Prop} [Decidable c] {a b : State × α} (ha : c → GoodL F P a) (hb : ¬c → GoodL F P b) : GoodL F P (if c then a else b) := by
  split <;> simp_all

theorem goodR_ite {c : Prop} [Decidable c] {a b : α × State} (ha : c → GoodR F P a) (hb : ¬c → GoodR F P b) : GoodR F P (if c then a else b) := by
  split <;> simp_all

theorem goodO_ite {c : Prop} [Decidable c] {a b : Option State} (ha : c → GoodO F P a) (hb : ¬c → GoodO F P b) :
    GoodO F P (if c then a else b) := by
  split <;> simp_all

theorem goodOR_ite {c : Prop} [Decidable c] {a b : Option (α × State)} (ha : c → GoodOR F P a) (hb : ¬c → GoodOR F P b) :
    GoodOR F P (if c then a else b) := by
  split <;> simp_all

theorem goodN_ite {c : Prop} [Decidable c] {a b : Host.Outcome State Fault Refusal} (ha : c → GoodN F P a) (hb : ¬c → GoodN F P b) :
    GoodN F P (if c then a else b) := by
  split <;> simp_all

theorem goodL_mk {s : State} {a : α} (h : Good F P s) : GoodL F P (s, a) := h

theorem goodR_mk {s : State} {a : α} (h : Good F P s) : GoodR F P (a, s) := h

theorem goodO_none : GoodO F P none := fun _ h => by simp at h

theorem goodO_some {s : State} (h : Good F P s) : GoodO F P (some s) := fun _ e => by cases e; exact h

theorem goodOR_none : GoodOR (α := α) F P none := fun _ h => by simp at h

theorem goodOR_some {p : α × State} (h : GoodR F P p) : GoodOR F P (some p) := fun _ e => by cases e; exact h

theorem goodN_next {s : State} (h : Good F P s) : GoodN F P (.next s) := ⟨s, rfl, h⟩

theorem good_fst {p : State × α} (h : GoodL F P p) : Good F P p.1 := h

theorem good_snd {p : α × State} (h : GoodR F P p) : Good F P p.2 := h

theorem good_ofL {p : State × α} {s : State} {a : α} (e : p = (s, a)) (h : GoodL F P p) : Good F P s := by subst e; exact h

theorem good_ofR {p : α × State} {s : State} {a : α} (e : p = (a, s)) (h : GoodR F P p) : Good F P s := by subst e; exact h

theorem good_unL {s : State} {a : α} (h : GoodL F P (s, a)) : Good F P s := h

theorem good_unR {s : State} {a : α} (h : GoodR F P (a, s)) : Good F P s := h

theorem good_ofO {o : Option State} {s : State} (e : o = some s) (h : GoodO F P o) : Good F P s := h _ e

theorem good_ofOR {o : Option (α × State)} {s : State} {a : α} (e : o = some (a, s)) (h : GoodOR F P o) : Good F P s := h _ e

theorem goodR_ofOR {o : Option (α × State)} {p : α × State} (e : o = some p) (h : GoodOR F P o) : GoodR F P p := h _ e

theorem good_getD {o : Option State} {s : State} (h : GoodO F P o) (hs : Good F P s) : Good F P (o.getD s) := by
  cases o with
  | none => exact hs
  | some t => exact h _ rfl

theorem good_foldl {g : State → β → State} {l : List β} : ∀ {s : State}, Good F P s → (∀ s b, Good F P s → Good F P (g s b)) → Good F P (l.foldl g s) := by
  induction l with
  | nil => intro s h _; exact h
  | cons b l ih => intro s h hg; exact ih (hg _ _ h) hg

theorem goodL_foldl {g : State × α → β → State × α} {l : List β} :
    ∀ {p : State × α}, GoodL F P p → (∀ p b, GoodL F P p → GoodL F P (g p b)) → GoodL F P (l.foldl g p) := by
  induction l with
  | nil => intro s h _; exact h
  | cons b l ih => intro s h hg; exact ih (hg _ _ h) hg

theorem goodR_foldl {g : α × State → β → α × State} {l : List β} :
    ∀ {p : α × State}, GoodR F P p → (∀ p b, GoodR F P p → GoodR F P (g p b)) → GoodR F P (l.foldl g p) := by
  induction l with
  | nil => intro s h _; exact h
  | cons b l ih => intro s h hg; exact ih (hg _ _ h) hg

theorem forEach_good {l : List α} {g : α → State → State} {s : State} (h : Good F P s) (hg : ∀ a s, Good F P s → Good F P (g a s)) :
    Good F P (forEach l g s) := good_foldl h (fun s b hs => hg b s hs)

theorem whenDo_good {c : Bool} {g : State → State} {s : State} (h : Good F P s) (hg : ∀ s, Good F P s → Good F P (g s)) :
    Good F P (whenDo c g s) := good_ite (fun _ => hg s h) (fun _ => h)

theorem thenE_good {ε : Type} {r : State × Except ε α} {f : α → State → State × Except ε β} (h : GoodL F P r)
    (hf : ∀ a s, Good F P s → GoodL F P (f a s)) : GoodL F P (thenE r f) := by
  obtain ⟨s, _ | a⟩ := r
  · exact h
  · exact hf _ _ h

/-! The primitive changes. -/

theorem State.onFreeCtr_good {s : State} {g} (h : Good F P s) : Good F P (s.onFreeCtr g) :=
  ⟨h.fuse, h.pending, h.mem.mbxBuf, h.mem.localMem, h.mem.sharedMem, h.mem.tileMem, h.mem.stackMem, h.mem.farMem, h.mem.hostMem⟩
theorem State.onNextUid_good {s : State} {g} (h : Good F P s) : Good F P (s.onNextUid g) :=
  ⟨h.fuse, h.pending, h.mem.mbxBuf, h.mem.localMem, h.mem.sharedMem, h.mem.tileMem, h.mem.stackMem, h.mem.farMem, h.mem.hostMem⟩
theorem State.onPin_good {s : State} {g} (h : Good F P s) : Good F P (s.onPin g) :=
  ⟨h.fuse, h.pending, h.mem.mbxBuf, h.mem.localMem, h.mem.sharedMem, h.mem.tileMem, h.mem.stackMem, h.mem.farMem, h.mem.hostMem⟩
theorem State.onDev_good {s : State} {g} (h : Good F P s) : Good F P (s.onDev g) :=
  ⟨h.fuse, h.pending, h.mem.mbxBuf, h.mem.localMem, h.mem.sharedMem, h.mem.tileMem, h.mem.stackMem, h.mem.farMem, h.mem.hostMem⟩
theorem State.onFn_good {s : State} {g} (h : Good F P s) : Good F P (s.onFn g) :=
  ⟨h.fuse, h.pending, h.mem.mbxBuf, h.mem.localMem, h.mem.sharedMem, h.mem.tileMem, h.mem.stackMem, h.mem.farMem, h.mem.hostMem⟩
theorem State.modFn_good {s : State} {k g} (h : Good F P s) : Good F P (s.modFn k g) :=
  State.onFn_good h
theorem State.delFn_good {s : State} {k} (h : Good F P s) : Good F P (s.delFn k) :=
  State.onFn_good h
theorem State.onApw_good {s : State} {g} (h : Good F P s) : Good F P (s.onApw g) :=
  ⟨h.fuse, h.pending, h.mem.mbxBuf, h.mem.localMem, h.mem.sharedMem, h.mem.tileMem, h.mem.stackMem, h.mem.farMem, h.mem.hostMem⟩
theorem State.modApw_good {s : State} {k g} (h : Good F P s) : Good F P (s.modApw k g) :=
  State.onApw_good h
theorem State.delApw_good {s : State} {k} (h : Good F P s) : Good F P (s.delApw k) :=
  State.onApw_good h
theorem State.onMbx_good {s : State} {g} (h : Good F P s) : Good F P (s.onMbx g) :=
  ⟨h.fuse, h.pending, h.mem.mbxBuf, h.mem.localMem, h.mem.sharedMem, h.mem.tileMem, h.mem.stackMem, h.mem.farMem, h.mem.hostMem⟩
theorem State.modMbx_good {s : State} {k g} (h : Good F P s) : Good F P (s.modMbx k g) :=
  State.onMbx_good h
theorem State.delMbx_good {s : State} {k} (h : Good F P s) : Good F P (s.delMbx k) :=
  State.onMbx_good h
theorem State.onMbxBuf_good {s : State} {g} (h : Good F P s) (hg : ∀ m, Memory.wf m = true → Memory.wf (g m) = true) : Good F P (s.onMbxBuf g) :=
  ⟨h.fuse, h.pending, ⟨hg _ h.mem.mbxBuf, h.mem.localMem, h.mem.sharedMem, h.mem.tileMem, h.mem.stackMem, h.mem.farMem, h.mem.hostMem⟩⟩
theorem State.onQueue_good {s : State} {g} (h : Good F P s) : Good F P (s.onQueue g) :=
  ⟨h.fuse, h.pending, h.mem.mbxBuf, h.mem.localMem, h.mem.sharedMem, h.mem.tileMem, h.mem.stackMem, h.mem.farMem, h.mem.hostMem⟩
theorem State.putQueue_good {s : State} {k v} (h : Good F P s) : Good F P (s.putQueue k v) :=
  State.onQueue_good h
theorem State.updQueue_good {s : State} {k g} (h : Good F P s) : Good F P (s.updQueue k g) :=
  State.onQueue_good h
theorem State.delQueue_good {s : State} {k} (h : Good F P s) : Good F P (s.delQueue k) :=
  State.onQueue_good h
theorem State.onCas_good {s : State} {g} (h : Good F P s) : Good F P (s.onCas g) :=
  ⟨h.fuse, h.pending, h.mem.mbxBuf, h.mem.localMem, h.mem.sharedMem, h.mem.tileMem, h.mem.stackMem, h.mem.farMem, h.mem.hostMem⟩
theorem State.modCas_good {s : State} {k g} (h : Good F P s) : Good F P (s.modCas k g) :=
  State.onCas_good h
theorem State.delCas_good {s : State} {k} (h : Good F P s) : Good F P (s.delCas k) :=
  State.onCas_good h
theorem State.onCtx_good {s : State} {g} (h : Good F P s) : Good F P (s.onCtx g) :=
  ⟨h.fuse, h.pending, h.mem.mbxBuf, h.mem.localMem, h.mem.sharedMem, h.mem.tileMem, h.mem.stackMem, h.mem.farMem, h.mem.hostMem⟩
theorem State.putCtx_good {s : State} {k v} (h : Good F P s) : Good F P (s.putCtx k v) :=
  State.onCtx_good h
theorem State.updCtx_good {s : State} {k g} (h : Good F P s) : Good F P (s.updCtx k g) :=
  State.onCtx_good h
theorem State.delCtx_good {s : State} {k} (h : Good F P s) : Good F P (s.delCtx k) :=
  State.onCtx_good h
theorem State.onAlloc_good {s : State} {g} (h : Good F P s) : Good F P (s.onAlloc g) :=
  ⟨h.fuse, h.pending, h.mem.mbxBuf, h.mem.localMem, h.mem.sharedMem, h.mem.tileMem, h.mem.stackMem, h.mem.farMem, h.mem.hostMem⟩
theorem State.putAlloc_good {s : State} {k v} (h : Good F P s) : Good F P (s.putAlloc k v) :=
  State.onAlloc_good h
theorem State.updAlloc_good {s : State} {k g} (h : Good F P s) : Good F P (s.updAlloc k g) :=
  State.onAlloc_good h
theorem State.delAlloc_good {s : State} {k} (h : Good F P s) : Good F P (s.delAlloc k) :=
  State.onAlloc_good h
theorem State.onFills_good {s : State} {g} (h : Good F P s) : Good F P (s.onFills g) :=
  ⟨h.fuse, h.pending, h.mem.mbxBuf, h.mem.localMem, h.mem.sharedMem, h.mem.tileMem, h.mem.stackMem, h.mem.farMem, h.mem.hostMem⟩
theorem State.putFills_good {s : State} {k v} (h : Good F P s) : Good F P (s.putFills k v) :=
  State.onFills_good h
theorem State.updFills_good {s : State} {k g} (h : Good F P s) : Good F P (s.updFills k g) :=
  State.onFills_good h
theorem State.delFills_good {s : State} {k} (h : Good F P s) : Good F P (s.delFills k) :=
  State.onFills_good h
theorem State.onDesc_good {s : State} {g} (h : Good F P s) : Good F P (s.onDesc g) :=
  ⟨h.fuse, h.pending, h.mem.mbxBuf, h.mem.localMem, h.mem.sharedMem, h.mem.tileMem, h.mem.stackMem, h.mem.farMem, h.mem.hostMem⟩
theorem State.putDesc_good {s : State} {k v} (h : Good F P s) : Good F P (s.putDesc k v) :=
  State.onDesc_good h
theorem State.updDesc_good {s : State} {k g} (h : Good F P s) : Good F P (s.updDesc k g) :=
  State.onDesc_good h
theorem State.delDesc_good {s : State} {k} (h : Good F P s) : Good F P (s.delDesc k) :=
  State.onDesc_good h
theorem State.onProg_good {s : State} {g} (h : Good F P s) : Good F P (s.onProg g) :=
  ⟨h.fuse, h.pending, h.mem.mbxBuf, h.mem.localMem, h.mem.sharedMem, h.mem.tileMem, h.mem.stackMem, h.mem.farMem, h.mem.hostMem⟩
theorem State.putProg_good {s : State} {k v} (h : Good F P s) : Good F P (s.putProg k v) :=
  State.onProg_good h
theorem State.updProg_good {s : State} {k g} (h : Good F P s) : Good F P (s.updProg k g) :=
  State.onProg_good h
theorem State.delProg_good {s : State} {k} (h : Good F P s) : Good F P (s.delProg k) :=
  State.onProg_good h
theorem State.onLatch_good {s : State} {g} (h : Good F P s) : Good F P (s.onLatch g) :=
  ⟨h.fuse, h.pending, h.mem.mbxBuf, h.mem.localMem, h.mem.sharedMem, h.mem.tileMem, h.mem.stackMem, h.mem.farMem, h.mem.hostMem⟩
theorem State.putLatch_good {s : State} {k v} (h : Good F P s) : Good F P (s.putLatch k v) :=
  State.onLatch_good h
theorem State.updLatch_good {s : State} {k g} (h : Good F P s) : Good F P (s.updLatch k g) :=
  State.onLatch_good h
theorem State.delLatch_good {s : State} {k} (h : Good F P s) : Good F P (s.delLatch k) :=
  State.onLatch_good h
theorem State.onLatchHold_good {s : State} {g} (h : Good F P s) : Good F P (s.onLatchHold g) :=
  ⟨h.fuse, h.pending, h.mem.mbxBuf, h.mem.localMem, h.mem.sharedMem, h.mem.tileMem, h.mem.stackMem, h.mem.farMem, h.mem.hostMem⟩
theorem State.putLatchHold_good {s : State} {k v} (h : Good F P s) : Good F P (s.putLatchHold k v) :=
  State.onLatchHold_good h
theorem State.updLatchHold_good {s : State} {k g} (h : Good F P s) : Good F P (s.updLatchHold k g) :=
  State.onLatchHold_good h
theorem State.delLatchHold_good {s : State} {k} (h : Good F P s) : Good F P (s.delLatchHold k) :=
  State.onLatchHold_good h
theorem State.onRun_good {s : State} {g} (h : Good F P s) : Good F P (s.onRun g) :=
  ⟨h.fuse, h.pending, h.mem.mbxBuf, h.mem.localMem, h.mem.sharedMem, h.mem.tileMem, h.mem.stackMem, h.mem.farMem, h.mem.hostMem⟩
theorem State.putRun_good {s : State} {k v} (h : Good F P s) : Good F P (s.putRun k v) :=
  State.onRun_good h
theorem State.updRun_good {s : State} {k g} (h : Good F P s) : Good F P (s.updRun k g) :=
  State.onRun_good h
theorem State.delRun_good {s : State} {k} (h : Good F P s) : Good F P (s.delRun k) :=
  State.onRun_good h
theorem State.onCore_good {s : State} {g} (h : Good F P s) : Good F P (s.onCore g) :=
  ⟨h.fuse, h.pending, h.mem.mbxBuf, h.mem.localMem, h.mem.sharedMem, h.mem.tileMem, h.mem.stackMem, h.mem.farMem, h.mem.hostMem⟩
theorem State.modCore_good {s : State} {k g} (h : Good F P s) : Good F P (s.modCore k g) :=
  State.onCore_good h
theorem State.delCore_good {s : State} {k} (h : Good F P s) : Good F P (s.delCore k) :=
  State.onCore_good h
theorem State.onSaved_good {s : State} {g} (h : Good F P s) : Good F P (s.onSaved g) :=
  ⟨h.fuse, h.pending, h.mem.mbxBuf, h.mem.localMem, h.mem.sharedMem, h.mem.tileMem, h.mem.stackMem, h.mem.farMem, h.mem.hostMem⟩
theorem State.putSaved_good {s : State} {k v} (h : Good F P s) : Good F P (s.putSaved k v) :=
  State.onSaved_good h
theorem State.updSaved_good {s : State} {k g} (h : Good F P s) : Good F P (s.updSaved k g) :=
  State.onSaved_good h
theorem State.delSaved_good {s : State} {k} (h : Good F P s) : Good F P (s.delSaved k) :=
  State.onSaved_good h
theorem State.onTile_good {s : State} {g} (h : Good F P s) : Good F P (s.onTile g) :=
  ⟨h.fuse, h.pending, h.mem.mbxBuf, h.mem.localMem, h.mem.sharedMem, h.mem.tileMem, h.mem.stackMem, h.mem.farMem, h.mem.hostMem⟩
theorem State.modTile_good {s : State} {k g} (h : Good F P s) : Good F P (s.modTile k g) :=
  State.onTile_good h
theorem State.delTile_good {s : State} {k} (h : Good F P s) : Good F P (s.delTile k) :=
  State.onTile_good h
theorem State.onOpStore_good {s : State} {g} (h : Good F P s) : Good F P (s.onOpStore g) :=
  ⟨h.fuse, h.pending, h.mem.mbxBuf, h.mem.localMem, h.mem.sharedMem, h.mem.tileMem, h.mem.stackMem, h.mem.farMem, h.mem.hostMem⟩
theorem State.modOpStore_good {s : State} {k g} (h : Good F P s) : Good F P (s.modOpStore k g) :=
  State.onOpStore_good h
theorem State.delOpStore_good {s : State} {k} (h : Good F P s) : Good F P (s.delOpStore k) :=
  State.onOpStore_good h
theorem State.onAccStore_good {s : State} {g} (h : Good F P s) : Good F P (s.onAccStore g) :=
  ⟨h.fuse, h.pending, h.mem.mbxBuf, h.mem.localMem, h.mem.sharedMem, h.mem.tileMem, h.mem.stackMem, h.mem.farMem, h.mem.hostMem⟩
theorem State.modAccStore_good {s : State} {k g} (h : Good F P s) : Good F P (s.modAccStore k g) :=
  State.onAccStore_good h
theorem State.delAccStore_good {s : State} {k} (h : Good F P s) : Good F P (s.delAccStore k) :=
  State.onAccStore_good h
theorem State.onArmed_good {s : State} {g} (h : Good F P s) : Good F P (s.onArmed g) :=
  ⟨h.fuse, h.pending, h.mem.mbxBuf, h.mem.localMem, h.mem.sharedMem, h.mem.tileMem, h.mem.stackMem, h.mem.farMem, h.mem.hostMem⟩
theorem State.onUnitCtx_good {s : State} {g} (h : Good F P s) : Good F P (s.onUnitCtx g) :=
  ⟨h.fuse, h.pending, h.mem.mbxBuf, h.mem.localMem, h.mem.sharedMem, h.mem.tileMem, h.mem.stackMem, h.mem.farMem, h.mem.hostMem⟩
theorem State.putUnitCtx_good {s : State} {k v} (h : Good F P s) : Good F P (s.putUnitCtx k v) :=
  State.onUnitCtx_good h
theorem State.updUnitCtx_good {s : State} {k g} (h : Good F P s) : Good F P (s.updUnitCtx k g) :=
  State.onUnitCtx_good h
theorem State.delUnitCtx_good {s : State} {k} (h : Good F P s) : Good F P (s.delUnitCtx k) :=
  State.onUnitCtx_good h
theorem State.onBank_good {s : State} {g} (h : Good F P s) : Good F P (s.onBank g) :=
  ⟨h.fuse, h.pending, h.mem.mbxBuf, h.mem.localMem, h.mem.sharedMem, h.mem.tileMem, h.mem.stackMem, h.mem.farMem, h.mem.hostMem⟩
theorem State.modBank_good {s : State} {k g} (h : Good F P s) : Good F P (s.modBank k g) :=
  State.onBank_good h
theorem State.delBank_good {s : State} {k} (h : Good F P s) : Good F P (s.delBank k) :=
  State.onBank_good h
theorem State.onLocalMem_good {s : State} {g} (h : Good F P s) (hg : ∀ m, Memory.wf m = true → Memory.wf (g m) = true) : Good F P (s.onLocalMem g) :=
  ⟨h.fuse, h.pending, ⟨h.mem.mbxBuf, hg _ h.mem.localMem, h.mem.sharedMem, h.mem.tileMem, h.mem.stackMem, h.mem.farMem, h.mem.hostMem⟩⟩
theorem State.onSharedMem_good {s : State} {g} (h : Good F P s) (hg : ∀ m, Memory.wf m = true → Memory.wf (g m) = true) : Good F P (s.onSharedMem g) :=
  ⟨h.fuse, h.pending, ⟨h.mem.mbxBuf, h.mem.localMem, hg _ h.mem.sharedMem, h.mem.tileMem, h.mem.stackMem, h.mem.farMem, h.mem.hostMem⟩⟩
theorem State.onTileMem_good {s : State} {g} (h : Good F P s) (hg : ∀ m, Memory.wf m = true → Memory.wf (g m) = true) : Good F P (s.onTileMem g) :=
  ⟨h.fuse, h.pending, ⟨h.mem.mbxBuf, h.mem.localMem, h.mem.sharedMem, hg _ h.mem.tileMem, h.mem.stackMem, h.mem.farMem, h.mem.hostMem⟩⟩
theorem State.onBadWords_good {s : State} {g} (h : Good F P s) : Good F P (s.onBadWords g) :=
  ⟨h.fuse, h.pending, h.mem.mbxBuf, h.mem.localMem, h.mem.sharedMem, h.mem.tileMem, h.mem.stackMem, h.mem.farMem, h.mem.hostMem⟩
theorem State.onStackMem_good {s : State} {g} (h : Good F P s) (hg : ∀ m, Memory.wf m = true → Memory.wf (g m) = true) : Good F P (s.onStackMem g) :=
  ⟨h.fuse, h.pending, ⟨h.mem.mbxBuf, h.mem.localMem, h.mem.sharedMem, h.mem.tileMem, hg _ h.mem.stackMem, h.mem.farMem, h.mem.hostMem⟩⟩
theorem State.onWindow_good {s : State} {g} (h : Good F P s) : Good F P (s.onWindow g) :=
  ⟨h.fuse, h.pending, h.mem.mbxBuf, h.mem.localMem, h.mem.sharedMem, h.mem.tileMem, h.mem.stackMem, h.mem.farMem, h.mem.hostMem⟩
theorem State.putWindow_good {s : State} {k v} (h : Good F P s) : Good F P (s.putWindow k v) :=
  State.onWindow_good h
theorem State.updWindow_good {s : State} {k g} (h : Good F P s) : Good F P (s.updWindow k g) :=
  State.onWindow_good h
theorem State.delWindow_good {s : State} {k} (h : Good F P s) : Good F P (s.delWindow k) :=
  State.onWindow_good h
theorem State.onWinFree_good {s : State} {g} (h : Good F P s) : Good F P (s.onWinFree g) :=
  ⟨h.fuse, h.pending, h.mem.mbxBuf, h.mem.localMem, h.mem.sharedMem, h.mem.tileMem, h.mem.stackMem, h.mem.farMem, h.mem.hostMem⟩
theorem State.putWinFree_good {s : State} {k v} (h : Good F P s) : Good F P (s.putWinFree k v) :=
  State.onWinFree_good h
theorem State.updWinFree_good {s : State} {k g} (h : Good F P s) : Good F P (s.updWinFree k g) :=
  State.onWinFree_good h
theorem State.delWinFree_good {s : State} {k} (h : Good F P s) : Good F P (s.delWinFree k) :=
  State.onWinFree_good h
theorem State.onHealth_good {s : State} {g} (h : Good F P s) : Good F P (s.onHealth g) :=
  ⟨h.fuse, h.pending, h.mem.mbxBuf, h.mem.localMem, h.mem.sharedMem, h.mem.tileMem, h.mem.stackMem, h.mem.farMem, h.mem.hostMem⟩
theorem State.putHealth_good {s : State} {k v} (h : Good F P s) : Good F P (s.putHealth k v) :=
  State.onHealth_good h
theorem State.updHealth_good {s : State} {k g} (h : Good F P s) : Good F P (s.updHealth k g) :=
  State.onHealth_good h
theorem State.delHealth_good {s : State} {k} (h : Good F P s) : Good F P (s.delHealth k) :=
  State.onHealth_good h
theorem State.onLb_good {s : State} {g} (h : Good F P s) : Good F P (s.onLb g) :=
  ⟨h.fuse, h.pending, h.mem.mbxBuf, h.mem.localMem, h.mem.sharedMem, h.mem.tileMem, h.mem.stackMem, h.mem.farMem, h.mem.hostMem⟩
theorem State.modLb_good {s : State} {k g} (h : Good F P s) : Good F P (s.modLb k g) :=
  State.onLb_good h
theorem State.delLb_good {s : State} {k} (h : Good F P s) : Good F P (s.delLb k) :=
  State.onLb_good h
theorem State.onEcc_good {s : State} {g} (h : Good F P s) : Good F P (s.onEcc g) :=
  ⟨h.fuse, h.pending, h.mem.mbxBuf, h.mem.localMem, h.mem.sharedMem, h.mem.tileMem, h.mem.stackMem, h.mem.farMem, h.mem.hostMem⟩
theorem State.modEcc_good {s : State} {k g} (h : Good F P s) : Good F P (s.modEcc k g) :=
  State.onEcc_good h
theorem State.delEcc_good {s : State} {k} (h : Good F P s) : Good F P (s.delEcc k) :=
  State.onEcc_good h
theorem State.onEccReg_good {s : State} {g} (h : Good F P s) : Good F P (s.onEccReg g) :=
  ⟨h.fuse, h.pending, h.mem.mbxBuf, h.mem.localMem, h.mem.sharedMem, h.mem.tileMem, h.mem.stackMem, h.mem.farMem, h.mem.hostMem⟩
theorem State.onFarMem_good {s : State} {g} (h : Good F P s) (hg : ∀ m, Memory.wf m = true → Memory.wf (g m) = true) : Good F P (s.onFarMem g) :=
  ⟨h.fuse, h.pending, ⟨h.mem.mbxBuf, h.mem.localMem, h.mem.sharedMem, h.mem.tileMem, h.mem.stackMem, hg _ h.mem.farMem, h.mem.hostMem⟩⟩
theorem State.onFarBad_good {s : State} {g} (h : Good F P s) : Good F P (s.onFarBad g) :=
  ⟨h.fuse, h.pending, h.mem.mbxBuf, h.mem.localMem, h.mem.sharedMem, h.mem.tileMem, h.mem.stackMem, h.mem.farMem, h.mem.hostMem⟩
theorem State.onHostMem_good {s : State} {g} (h : Good F P s) (hg : ∀ m, Memory.wf m = true → Memory.wf (g m) = true) : Good F P (s.onHostMem g) :=
  ⟨h.fuse, h.pending, ⟨h.mem.mbxBuf, h.mem.localMem, h.mem.sharedMem, h.mem.tileMem, h.mem.stackMem, h.mem.farMem, hg _ h.mem.hostMem⟩⟩
theorem State.onFar_good {s : State} {g} (h : Good F P s) : Good F P (s.onFar g) :=
  ⟨h.fuse, h.pending, h.mem.mbxBuf, h.mem.localMem, h.mem.sharedMem, h.mem.tileMem, h.mem.stackMem, h.mem.farMem, h.mem.hostMem⟩
theorem State.onJob_good {s : State} {g} (h : Good F P s) : Good F P (s.onJob g) :=
  ⟨h.fuse, h.pending, h.mem.mbxBuf, h.mem.localMem, h.mem.sharedMem, h.mem.tileMem, h.mem.stackMem, h.mem.farMem, h.mem.hostMem⟩
theorem State.putJob_good {s : State} {k v} (h : Good F P s) : Good F P (s.putJob k v) :=
  State.onJob_good h
theorem State.updJob_good {s : State} {k g} (h : Good F P s) : Good F P (s.updJob k g) :=
  State.onJob_good h
theorem State.delJob_good {s : State} {k} (h : Good F P s) : Good F P (s.delJob k) :=
  State.onJob_good h
theorem State.onSeq_good {s : State} {g} (h : Good F P s) : Good F P (s.onSeq g) :=
  ⟨h.fuse, h.pending, h.mem.mbxBuf, h.mem.localMem, h.mem.sharedMem, h.mem.tileMem, h.mem.stackMem, h.mem.farMem, h.mem.hostMem⟩
theorem State.putSeq_good {s : State} {k v} (h : Good F P s) : Good F P (s.putSeq k v) :=
  State.onSeq_good h
theorem State.updSeq_good {s : State} {k g} (h : Good F P s) : Good F P (s.updSeq k g) :=
  State.onSeq_good h
theorem State.delSeq_good {s : State} {k} (h : Good F P s) : Good F P (s.delSeq k) :=
  State.onSeq_good h
theorem State.onPage_good {s : State} {g} (h : Good F P s) : Good F P (s.onPage g) :=
  ⟨h.fuse, h.pending, h.mem.mbxBuf, h.mem.localMem, h.mem.sharedMem, h.mem.tileMem, h.mem.stackMem, h.mem.farMem, h.mem.hostMem⟩
theorem State.putPage_good {s : State} {k v} (h : Good F P s) : Good F P (s.putPage k v) :=
  State.onPage_good h
theorem State.updPage_good {s : State} {k g} (h : Good F P s) : Good F P (s.updPage k g) :=
  State.onPage_good h
theorem State.delPage_good {s : State} {k} (h : Good F P s) : Good F P (s.delPage k) :=
  State.onPage_good h
theorem State.onCalib_good {s : State} {g} (h : Good F P s) : Good F P (s.onCalib g) :=
  ⟨h.fuse, h.pending, h.mem.mbxBuf, h.mem.localMem, h.mem.sharedMem, h.mem.tileMem, h.mem.stackMem, h.mem.farMem, h.mem.hostMem⟩
theorem State.putCalib_good {s : State} {k v} (h : Good F P s) : Good F P (s.putCalib k v) :=
  State.onCalib_good h
theorem State.updCalib_good {s : State} {k g} (h : Good F P s) : Good F P (s.updCalib k g) :=
  State.onCalib_good h
theorem State.delCalib_good {s : State} {k} (h : Good F P s) : Good F P (s.delCalib k) :=
  State.onCalib_good h
theorem State.onArea_good {s : State} {g} (h : Good F P s) : Good F P (s.onArea g) :=
  ⟨h.fuse, h.pending, h.mem.mbxBuf, h.mem.localMem, h.mem.sharedMem, h.mem.tileMem, h.mem.stackMem, h.mem.farMem, h.mem.hostMem⟩
theorem State.putArea_good {s : State} {k v} (h : Good F P s) : Good F P (s.putArea k v) :=
  State.onArea_good h
theorem State.updArea_good {s : State} {k g} (h : Good F P s) : Good F P (s.updArea k g) :=
  State.onArea_good h
theorem State.delArea_good {s : State} {k} (h : Good F P s) : Good F P (s.delArea k) :=
  State.onArea_good h
theorem State.onReq_good {s : State} {g} (h : Good F P s) : Good F P (s.onReq g) :=
  ⟨h.fuse, h.pending, h.mem.mbxBuf, h.mem.localMem, h.mem.sharedMem, h.mem.tileMem, h.mem.stackMem, h.mem.farMem, h.mem.hostMem⟩
theorem State.putReq_good {s : State} {k v} (h : Good F P s) : Good F P (s.putReq k v) :=
  State.onReq_good h
theorem State.updReq_good {s : State} {k g} (h : Good F P s) : Good F P (s.updReq k g) :=
  State.onReq_good h
theorem State.delReq_good {s : State} {k} (h : Good F P s) : Good F P (s.delReq k) :=
  State.onReq_good h
theorem State.onFab_good {s : State} {g} (h : Good F P s) : Good F P (s.onFab g) :=
  ⟨h.fuse, h.pending, h.mem.mbxBuf, h.mem.localMem, h.mem.sharedMem, h.mem.tileMem, h.mem.stackMem, h.mem.farMem, h.mem.hostMem⟩
theorem State.onPort_good {s : State} {g} (h : Good F P s) : Good F P (s.onPort g) :=
  ⟨h.fuse, h.pending, h.mem.mbxBuf, h.mem.localMem, h.mem.sharedMem, h.mem.tileMem, h.mem.stackMem, h.mem.farMem, h.mem.hostMem⟩
theorem State.modPort_good {s : State} {k g} (h : Good F P s) : Good F P (s.modPort k g) :=
  State.onPort_good h
theorem State.delPort_good {s : State} {k} (h : Good F P s) : Good F P (s.delPort k) :=
  State.onPort_good h
theorem State.onPlan_good {s : State} {g} (h : Good F P s) : Good F P (s.onPlan g) :=
  ⟨h.fuse, h.pending, h.mem.mbxBuf, h.mem.localMem, h.mem.sharedMem, h.mem.tileMem, h.mem.stackMem, h.mem.farMem, h.mem.hostMem⟩
theorem State.putPlan_good {s : State} {k v} (h : Good F P s) : Good F P (s.putPlan k v) :=
  State.onPlan_good h
theorem State.updPlan_good {s : State} {k g} (h : Good F P s) : Good F P (s.updPlan k g) :=
  State.onPlan_good h
theorem State.delPlan_good {s : State} {k} (h : Good F P s) : Good F P (s.delPlan k) :=
  State.onPlan_good h
theorem State.onColl_good {s : State} {g} (h : Good F P s) : Good F P (s.onColl g) :=
  ⟨h.fuse, h.pending, h.mem.mbxBuf, h.mem.localMem, h.mem.sharedMem, h.mem.tileMem, h.mem.stackMem, h.mem.farMem, h.mem.hostMem⟩
theorem State.putColl_good {s : State} {k v} (h : Good F P s) : Good F P (s.putColl k v) :=
  State.onColl_good h
theorem State.updColl_good {s : State} {k g} (h : Good F P s) : Good F P (s.updColl k g) :=
  State.onColl_good h
theorem State.delColl_good {s : State} {k} (h : Good F P s) : Good F P (s.delColl k) :=
  State.onColl_good h
theorem State.onWlog_good {s : State} {g} (h : Good F P s) : Good F P (s.onWlog g) :=
  ⟨h.fuse, h.pending, h.mem.mbxBuf, h.mem.localMem, h.mem.sharedMem, h.mem.tileMem, h.mem.stackMem, h.mem.farMem, h.mem.hostMem⟩
theorem State.delWlog_good {s : State} {k} (h : Good F P s) : Good F P (s.delWlog k) :=
  State.onWlog_good h
theorem State.onLvr_good {s : State} {g} (h : Good F P s) : Good F P (s.onLvr g) :=
  ⟨h.fuse, h.pending, h.mem.mbxBuf, h.mem.localMem, h.mem.sharedMem, h.mem.tileMem, h.mem.stackMem, h.mem.farMem, h.mem.hostMem⟩
theorem State.onTherm_good {s : State} {g} (h : Good F P s) : Good F P (s.onTherm g) :=
  ⟨h.fuse, h.pending, h.mem.mbxBuf, h.mem.localMem, h.mem.sharedMem, h.mem.tileMem, h.mem.stackMem, h.mem.farMem, h.mem.hostMem⟩
theorem State.onGated_good {s : State} {g} (h : Good F P s) : Good F P (s.onGated g) :=
  ⟨h.fuse, h.pending, h.mem.mbxBuf, h.mem.localMem, h.mem.sharedMem, h.mem.tileMem, h.mem.stackMem, h.mem.farMem, h.mem.hostMem⟩
theorem State.onTurn_good {s : State} {g} (h : Good F P s) : Good F P (s.onTurn g) :=
  ⟨h.fuse, h.pending, h.mem.mbxBuf, h.mem.localMem, h.mem.sharedMem, h.mem.tileMem, h.mem.stackMem, h.mem.farMem, h.mem.hostMem⟩
theorem State.onWake_good {s : State} {g} (h : Good F P s) : Good F P (s.onWake g) :=
  ⟨h.fuse, h.pending, h.mem.mbxBuf, h.mem.localMem, h.mem.sharedMem, h.mem.tileMem, h.mem.stackMem, h.mem.farMem, h.mem.hostMem⟩
theorem State.onAcc_good {s : State} {g} (h : Good F P s) : Good F P (s.onAcc g) :=
  ⟨h.fuse, h.pending, h.mem.mbxBuf, h.mem.localMem, h.mem.sharedMem, h.mem.tileMem, h.mem.stackMem, h.mem.farMem, h.mem.hostMem⟩
theorem State.onProc_good {s : State} {g} (h : Good F P s) : Good F P (s.onProc g) :=
  ⟨h.fuse, h.pending, h.mem.mbxBuf, h.mem.localMem, h.mem.sharedMem, h.mem.tileMem, h.mem.stackMem, h.mem.farMem, h.mem.hostMem⟩
theorem State.modProc_good {s : State} {k g} (h : Good F P s) : Good F P (s.modProc k g) :=
  State.onProc_good h
theorem State.delProc_good {s : State} {k} (h : Good F P s) : Good F P (s.delProc k) :=
  State.onProc_good h
theorem State.onFw_good {s : State} {g} (h : Good F P s) : Good F P (s.onFw g) :=
  ⟨h.fuse, h.pending, h.mem.mbxBuf, h.mem.localMem, h.mem.sharedMem, h.mem.tileMem, h.mem.stackMem, h.mem.farMem, h.mem.hostMem⟩
theorem State.onMgmt_good {s : State} {g} (h : Good F P s) : Good F P (s.onMgmt g) :=
  ⟨h.fuse, h.pending, h.mem.mbxBuf, h.mem.localMem, h.mem.sharedMem, h.mem.tileMem, h.mem.stackMem, h.mem.farMem, h.mem.hostMem⟩
theorem State.onOut_good {s : State} {g} (h : Good F P s) : Good F P (s.onOut g) :=
  ⟨h.fuse, h.pending, h.mem.mbxBuf, h.mem.localMem, h.mem.sharedMem, h.mem.tileMem, h.mem.stackMem, h.mem.farMem, h.mem.hostMem⟩

theorem State.fresh_good {s : State} (h : Good F P s) : GoodR F P s.fresh := State.onFreeCtr_good h

theorem State.newUid_good {s : State} (h : Good F P s) : GoodR F P s.newUid := State.onNextUid_good h

end Sys2Proof.Machine
end

