-- ==== Sys2Proof/Laws/GoodFlags.lean ====
section
/-! SUPPORT. What Machine/Flags.lean leaves as it found it: from a good state every definition there gives a good state. -/

namespace Sys2Proof.Machine

variable {F : Fuse} {P : List Instr}

theorem msix_good {x0 x1 x2} (ha : Good F P x2) : Good F P (msix x0 x1 x2) := by
  unfold msix
  exact State.onOut_good ha

theorem mgmtAlert_good {x0} (ha : Good F P x0) : Good F P (mgmtAlert x0) := by
  unfold mgmtAlert
  exact State.onPin_good ha

theorem devEvent1_good {x0 x1 x2} (ha : Good F P x2) : Good F P (devEvent1 x0 x1 x2) := by
  unfold devEvent1
  extract_lets -merge +onlyGivenNames s0
  clear_value s0
  apply good_ite
  · exact fun y1 => ha
  · intro y2
    extract_lets -merge +onlyGivenNames s3
    have h4 : Good F P s3 := State.modFn_good ha
    clear_value s3
    extract_lets -merge +onlyGivenNames s5
    have h6 : Good F P s5 := good_ite (fun y7 => msix_good h4) (fun y8 => h4)
    clear_value s5
    exact good_ite (fun y9 => mgmtAlert_good h6) (fun y10 => h6)

theorem devEvent_good {x0 x1} (ha : Good F P x1) : Good F P (devEvent x0 x1) := by
  unfold devEvent
  exact devEvent1_good (devEvent1_good ha)

theorem eccIrq_good {x0} (ha : Good F P x0) : Good F P (eccIrq x0) := by
  unfold eccIrq
  extract_lets -merge +onlyGivenNames s0
  unfold s0
  exact good_ite (fun y1 => msix_good (good_ite (fun y2 => msix_good ha) (fun y3 => ha))) (fun y4 => good_ite (fun y5 => msix_good ha) (fun y6 => ha))

theorem setUe_good {x0 x1} (ha : Good F P x1) : Good F P (setUe x0 x1) := by
  unfold setUe
  extract_lets -merge +onlyGivenNames s0
  have h1 : Good F P s0 := State.onEccReg_good ha
  clear_value s0
  exact good_ite (fun y2 => h1) (fun y3 => mgmtAlert_good h1)

theorem setCeOvf_good {x0 x1} (ha : Good F P x1) : Good F P (setCeOvf x0 x1) := by
  unfold setCeOvf
  extract_lets -merge +onlyGivenNames s0
  have h1 : Good F P s0 := State.onEccReg_good ha
  clear_value s0
  exact good_ite (fun y2 => h1) (fun y3 => mgmtAlert_good h1)

theorem setFarUe_good {x0 x1} (ha : Good F P x1) : Good F P (setFarUe x0 x1) := by
  unfold setFarUe
  extract_lets -merge +onlyGivenNames s0
  have h1 : Good F P s0 := State.onEccReg_good ha
  clear_value s0
  exact good_ite (fun y2 => h1) (fun y3 => mgmtAlert_good h1)

theorem setFarDown_good {x0 x1} (ha : Good F P x1) : Good F P (setFarDown x0 x1) := by
  unfold setFarDown
  extract_lets -merge +onlyGivenNames s0
  have h1 : Good F P s0 := State.onEccReg_good ha
  clear_value s0
  exact good_ite (fun y2 => h1) (fun y3 => mgmtAlert_good h1)

theorem setDbErrFn_good {x0 x1} (ha : Good F P x1) : Good F P (setDbErrFn x0 x1) := by
  unfold setDbErrFn
  exact State.modFn_good ha

theorem setDbErrQ_good {x0 x1} (ha : Good F P x1) : Good F P (setDbErrQ x0 x1) := by
  unfold setDbErrQ
  exact State.updQueue_good ha

theorem setApwErr_good {x0 x1} (ha : Good F P x1) : Good F P (setApwErr x0 x1) := by
  unfold setApwErr
  exact State.modFn_good ha

theorem trace_good {x0 x1 x2 x3 x4 x5} (ha : Good F P x5) : Good F P (trace x0 x1 x2 x3 x4 x5) := by
  unfold trace
  extract_lets -merge +onlyGivenNames s0
  clear_value s0
  exact State.modProc_good ha

end Sys2Proof.Machine
end

