-- ==== Sys2Proof/Laws/GoodLatch.lean ====
section
/-! SUPPORT. What Machine/Latch.lean leaves as it found it: from a good state every definition there gives a good state. -/

namespace Sys2Proof.Machine

variable {F : Fuse} {P : List Instr}

theorem noteMet_good {x0 x1} (ha : Good F P x1) : Good F P (noteMet x0 x1) := by
  unfold noteMet
  exact State.onQueue_good (State.onCore_good ha)

theorem signalLatch_good {x0 x1 x2 x3} (ha : Good F P x3) : Good F P (signalLatch x0 x1 x2 x3) := by
  unfold signalLatch
  exact State.updLatch_good (noteMet_good ha)

theorem poisonLatch_good {x0 x1} (ha : Good F P x1) : Good F P (poisonLatch x0 x1) := by
  unfold poisonLatch
  exact State.updLatch_good (noteMet_good ha)

theorem poisonCtxLatches_good {x0 x1} (ha : Good F P x1) : Good F P (poisonCtxLatches x0 x1) := by
  unfold poisonCtxLatches
  exact good_foldl ha (fun y0 y1 h2 => poisonLatch_good h2)

end Sys2Proof.Machine
end

