-- ==== Sys2Proof/Laws/GoodSf.lean ====
section
/-! SUPPORT. What Machine/Sf.lean leaves as it found it: from a good state every definition there gives a good state. -/

namespace Sys2Proof.Machine

variable {F : Fuse} {P : List Instr}

theorem spoilRow_good {x0 x1 x2} (ha : Good F P x2) : Good F P (spoilRow x0 x1 x2) := by
  unfold spoilRow
  exact State.onArmed_good ha

theorem captureWord_good {x0 x1 x2 x3} (ha : Good F P x3) : Good F P (captureWord x0 x1 x2 x3) := by
  unfold captureWord
  exact State.onArmed_good ha

theorem capturePart_good {x0 x1 x2} (ha : Good F P x2) : Good F P (capturePart x0 x1 x2) := by
  unfold capturePart
  apply good_ite
  · intro y0
    split
    rename_i v1 v2 v3 e4
    have h5 : Good F P v3 := good_ofR e4 (State.fresh_good ha)
    exact spoilRow_good (State.onArmed_good h5)
  · exact fun y6 => ha

end Sys2Proof.Machine
end

