-- ==== Sys2Proof/Laws/GoodMem.lean ====
section
/-! SUPPORT. What Machine/Mem.lean leaves as it found it: from a good state every definition there gives a good state. -/

namespace Sys2Proof.Machine

variable {F : Fuse} {P : List Instr}

theorem ueAppend_good {x0 x1 x2 x3 x4 x5} (ha : Good F P x5) : Good F P (ueAppend x0 x1 x2 x3 x4 x5) := by
  unfold ueAppend
  exact State.modEcc_good ha

theorem logUeAt_good {x0 x1 x2} (ha : Good F P x2) : Good F P (logUeAt x0 x1 x2) := by
  unfold logUeAt
  exact eccIrq_good (setUe_good (ueAppend_good ha))

theorem logUe_good {x0 x1 x2} (ha : Good F P x2) : Good F P (logUe x0 x1 x2) := by
  unfold logUe
  exact good_ite (fun y0 => ha) (fun y1 => logUeAt_good ha)

theorem logFarUe_good {x0 x1 x2 x3} (ha : Good F P x3) : Good F P (logFarUe x0 x1 x2 x3) := by
  unfold logFarUe
  exact eccIrq_good (setFarUe_good (ueAppend_good ha))

theorem bucketAdd_good {x0 x1} (ha : Good F P x1) : Good F P (bucketAdd x0 x1) := by
  unfold bucketAdd
  extract_lets -merge +onlyGivenNames s0
  clear_value s0
  apply good_ite
  · exact fun y1 => State.modEcc_good ha
  · intro y2
    extract_lets -merge +onlyGivenNames s3
    have h4 : Good F P s3 := State.modEcc_good ha
    clear_value s3
    exact good_ite (fun y5 => State.modEcc_good h4) (fun y6 => eccIrq_good (setCeOvf_good h4))

theorem countCorr_good {x0 x1} (ha : Good F P x1) : Good F P (countCorr x0 x1) := by
  unfold countCorr
  extract_lets -merge +onlyGivenNames s0
  clear_value s0
  extract_lets -merge +onlyGivenNames s1
  clear_value s1
  extract_lets -merge +onlyGivenNames s2
  clear_value s2
  extract_lets -merge +onlyGivenNames s3
  have h4 : Good F P s3 := State.modEcc_good ha
  clear_value s3
  exact good_ite (fun y5 => h4) (fun y6 => bucketAdd_good (State.modEcc_good h4))

theorem readWord_good {x0 x1 x2} (ha : Good F P x2) : GoodL F P (readWord x0 x1 x2) := by
  unfold readWord
  split
  · rename_i v0 e1
    exact goodL_mk ha
  · rename_i v2 v3 e4
    exact goodL_mk (countCorr_good ha)
  · rename_i v5 v6 e7 e8
    exact goodL_mk (logUe_good ha)

theorem storeWord_good {x0 x1 x2} (ha : Good F P x2) : Good F P (storeWord x0 x1 x2) := by
  unfold storeWord
  exact State.delHealth_good (State.onStackMem_good ha (fun y0 y1 => wf_mwrite _ _ (by assumption)))

theorem writeWord_good {x0 x1 x2} (ha : Good F P x2) : Good F P (writeWord x0 x1 x2) := by
  unfold writeWord
  exact captureWord_good (storeWord_good ha)

theorem rmw_good {x0 x1 x2 x3} (ha : Good F P x3) : Good F P (rmw x0 x1 x2 x3) := by
  unfold rmw
  extract_lets -merge +onlyGivenNames s0
  clear_value s0
  extract_lets -merge +onlyGivenNames s1
  clear_value s1
  extract_lets -merge +onlyGivenNames s2
  have h3 : Good F P s2 := capturePart_good ha
  clear_value s2
  split
  · rename_i v4 e5
    exact storeWord_good h3
  · rename_i v6 v7 e8
    exact storeWord_good (countCorr_good h3)
  · rename_i v9 v10 e11 e12
    exact State.modLb_good (State.putHealth_good (storeWord_good (logUe_good h3)))

theorem wakeFor_good {x0 x1} (ha : Good F P x1) : Good F P (wakeFor x0 x1) := by
  unfold wakeFor
  exact good_ite (fun y0 => State.onWake_good ha) (fun y1 => ha)

theorem reachStack_good {x0 x1} (ha : Good F P x1) : Good F P (reachStack x0 x1) := by
  unfold reachStack
  extract_lets -merge +onlyGivenNames s0
  clear_value s0
  apply good_ite
  · intro y1
    extract_lets -merge +onlyGivenNames s2
    have h3 : Good F P s2 := wakeFor_good ha
    clear_value s2
    exact good_ite (fun y4 => State.onAcc_good h3) (fun y5 => h3)
  · exact fun y6 => ha

theorem reachBank_good {x0 x1} (ha : Good F P x1) : Good F P (reachBank x0 x1) := by
  unfold reachBank
  extract_lets -merge +onlyGivenNames s0
  clear_value s0
  extract_lets -merge +onlyGivenNames s1
  have h2 : Good F P s1 := reachStack_good ha
  clear_value s1
  exact good_ite (fun y3 => State.onAcc_good h2) (fun y4 => h2)

theorem noteWrite_good {x0 x1 x2 x3 x4} (ha : Good F P x4) : Good F P (noteWrite x0 x1 x2 x3 x4) := by
  unfold noteWrite
  apply good_ite
  · exact fun y0 => ha
  · intro y1
    extract_lets -merge +onlyGivenNames s2
    have h3 : Good F P s2 := good_ite (fun y4 => State.onSeq_good ha) (fun y5 => ha)
    clear_value s2
    exact good_ite (fun y6 => h3) (fun y7 => State.onWlog_good h3)

theorem poisonWord_good {x0 x1 x2} (ha : Good F P x2) : Good F P (poisonWord x0 x1 x2) := by
  unfold poisonWord
  extract_lets -merge +onlyGivenNames s0
  clear_value s0
  exact State.modLb_good (State.putHealth_good (storeWord_good (logUe_good ha)))

theorem mergeOut_good {x0 x1} (ha : Good F P x1) : Good F P (mergeOut x0 x1) := by
  unfold mergeOut
  extract_lets -merge +onlyGivenNames s0
  have h1 : Good F P s0 := State.modLb_good ha
  clear_value s0
  exact good_ite (fun y2 => poisonWord_good h1) (fun y3 => rmw_good h1)

theorem drainMerge_good {x0 x1} (ha : Good F P x1) : Good F P (drainMerge x0 x1) := by
  unfold drainMerge
  split
  · rename_i v0 e1
    exact ha
  · rename_i v2 v3 e4
    exact good_ite (fun y5 => State.modLb_good (reachBank_good ha)) (fun y6 => mergeOut_good ha)

theorem mergeInto_good {x0 x1 x2 x3} (ha : Good F P x3) : Good F P (mergeInto x0 x1 x2 x3) := by
  unfold mergeInto
  extract_lets -merge +onlyGivenNames s0
  clear_value s0
  extract_lets -merge +onlyGivenNames s1
  clear_value s1
  extract_lets -merge +onlyGivenNames s2
  clear_value s2
  extract_lets -merge +onlyGivenNames s3
  clear_value s3
  extract_lets -merge +onlyGivenNames s4
  clear_value s4
  apply good_ite
  · exact fun y5 => writeWord_good (State.modLb_good ha)
  · intro y6
    split
    · rename_i v7 v8
      exact State.modLb_good ha
    · rename_i v9
      extract_lets -merge +onlyGivenNames s10
      clear_value s10
      extract_lets -merge +onlyGivenNames s11
      have h12 : Good F P s11 := by
        unfold s11
        apply good_ite
        · exact fun y13 => ha
        · intro y14
          split
          · rename_i v15 v16 e17
            exact mergeOut_good ha
          · rename_i v18 e19
            exact ha
      clear_value s11
      exact State.modLb_good h12

theorem lineOut_good {x0 x1 x2} (ha : Good F P x2) : Good F P (lineOut x0 x1 x2) := by
  unfold lineOut
  extract_lets -merge +onlyGivenNames s0
  have h1 : Good F P s0 := State.modLb_good ha
  clear_value s0
  extract_lets -merge +onlyGivenNames s2
  unfold s2
  extract_lets -merge +onlyGivenNames s3
  clear_value s3
  apply good_ite
  · intro y4
    extract_lets -merge +onlyGivenNames s5
    clear_value s5
    exact good_ite (fun y6 => h1) (fun y7 => good_ite (fun y8 => poisonWord_good h1) (fun y9 => mergeInto_good h1))
  · intro y10
    apply good_ite
    · intro y11
      apply poisonWord_good
      extract_lets -merge +onlyGivenNames s12
      clear_value s12
      exact good_ite (fun y13 => h1) (fun y14 => good_ite (fun y15 => poisonWord_good h1) (fun y16 => mergeInto_good h1))
    · intro y17
      apply mergeInto_good
      extract_lets -merge +onlyGivenNames s18
      clear_value s18
      exact good_ite (fun y19 => h1) (fun y20 => good_ite (fun y21 => poisonWord_good h1) (fun y22 => mergeInto_good h1))

theorem drainLine_good {x0 x1 x2} (ha : Good F P x2) : Good F P (drainLine x0 x1 x2) := by
  unfold drainLine
  exact good_ite (fun y0 => State.modLb_good (reachBank_good ha)) (fun y1 => lineOut_good ha)

theorem spoilWrite_good {x0 x1 x2} (ha : Good F P x2) : Good F P (spoilWrite x0 x1 x2) := by
  unfold spoilWrite
  apply good_ite
  · exact fun y0 => ha
  · intro y1
    apply forEach_good
    · exact ha
    · intro y2 y3 h4
      extract_lets -merge +onlyGivenNames s5
      clear_value s5
      extract_lets -merge +onlyGivenNames s6
      clear_value s6
      exact good_ite (fun y7 => spoilRow_good h4) (fun y8 => h4)

theorem lbWrite_good {x0 x1 x2 x3} (ha : Good F P x3) : Good F P (lbWrite x0 x1 x2 x3) := by
  unfold lbWrite
  extract_lets -merge +onlyGivenNames s0
  clear_value s0
  extract_lets -merge +onlyGivenNames s1
  clear_value s1
  extract_lets -merge +onlyGivenNames s2
  clear_value s2
  extract_lets -merge +onlyGivenNames s3
  have h4 : Good F P s3 := reachStack_good (spoilWrite_good ha)
  clear_value s3
  extract_lets -merge +onlyGivenNames s5
  have h6 : Good F P s5 := by
    unfold s5
    apply good_ite
    · exact fun y7 => h4
    · intro y8
      split
      · rename_i v9 v10 v11 e12
        exact lineOut_good h4
      · rename_i v13 v14 v15 e16 e17
        exact lineOut_good (reachBank_good h4)
      · rename_i v18 v19 e20 e21
        exact h4
  clear_value s5
  extract_lets -merge +onlyGivenNames s22
  have h23 : Good F P s22 := by
    unfold s22
    split
    · rename_i v24 v25 e26
      exact State.modLb_good h4
    · rename_i v27 e28
      exact State.modLb_good h6
  clear_value s22
  split
  · rename_i v29 v30 e31
    exact good_ite (fun y32 => drainLine_good h23) (fun y33 => h23)
  · rename_i v34 e35
    exact h23

theorem stWrite_good {x0 x1 x2 x3} (ha : Good F P x3) : Good F P (stWrite x0 x1 x2 x3) := by
  unfold stWrite
  exact forEach_good (noteWrite_good ha) (fun y0 y1 h2 => lbWrite_good h2)

theorem flushBad_good {x0 x1} (ha : Good F P x1) : Good F P (flushBad x0 x1) := by
  unfold flushBad
  extract_lets -merge +onlyGivenNames s0
  clear_value s0
  extract_lets -merge +onlyGivenNames s1
  have h2 : Good F P s1 := by
    unfold s1
    split
    · rename_i v3 v4 e5
      exact good_ite (fun y6 => mergeOut_good ha) (fun y7 => ha)
    · rename_i v8 e9
      exact ha
  clear_value s1
  split
  · rename_i v10 v11 e12
    exact good_ite (fun y13 => lineOut_good h2) (fun y14 => h2)
  · rename_i v15 e16
    exact h2

theorem ifWord_good {x0 x1 x2} (ha : Good F P x2) : GoodL F P (ifWord x0 x1 x2) := by
  unfold ifWord
  extract_lets -merge +onlyGivenNames s0
  have h1 : Good F P s0 := flushBad_good ha
  clear_value s0
  extract_lets -merge +onlyGivenNames s2
  clear_value s2
  apply goodL_ite
  · exact fun y3 => goodL_mk (reachStack_good h1)
  · intro y4
    split
    · rename_i v5 v6 v7 e8
      have h9 : Good F P v6 := good_ofL e8 (readWord_good (drainMerge_good (reachBank_good h1)))
      exact goodL_mk h9
    · rename_i v10 v11 e12
      have h13 : Good F P v11 := good_ofL e12 (readWord_good (drainMerge_good (reachBank_good h1)))
      exact goodL_mk h13

theorem readBy_good {x0 x1 x2 x3} (ha : ∀ ya yb, Good F P yb → GoodL F P (x0 ya yb)) (hb : Good F P x3) : GoodL F P (readBy x0 x1 x2 x3) := by
  induction x1 generalizing x0 x2 x3 with
  | nil =>
    rw [readBy]
    exact goodL_mk hb
  | cons a l ih =>
    obtain ⟨a, n⟩ := a
    rw [readBy]
    split
    · rename_i v0 v1 v2 e3
      have h4 : Good F P v1 := good_ofL e3 (by
          apply ha
          exact hb)
      apply ih
      · intro y5 y6 h7
        apply ha
        exact h7
      · exact h4
    · rename_i v8 v9 e10
      have h11 : Good F P v9 := good_ofL e10 (by
          apply ha
          exact hb)
      exact goodL_mk h11

theorem stRead_good {x0 x1 x2 x3} (ha : Good F P x3) : GoodL F P (stRead x0 x1 x2 x3) := by
  unfold stRead
  exact readBy_good (fun y0 y1 h2 => ifWord_good h2) ha

theorem sillWord_good {x0 x1} (ha : Good F P x1) : GoodL F P (sillWord x0 x1) := by
  unfold sillWord
  apply readWord_good
  split
  · rename_i v0 v1 e2
    exact mergeOut_good ha
  · rename_i v3 e4
    exact ha

theorem sillRead_good {x0 x1 x2} (ha : Good F P x2) : GoodL F P (sillRead x0 x1 x2) := by
  unfold sillRead
  exact readBy_good (fun y0 y1 h2 => sillWord_good h2) ha

theorem sillWrite_good {x0 x1 x2 x3} (ha : Good F P x3) : Good F P (sillWrite x0 x1 x2 x3) := by
  unfold sillWrite
  exact forEach_good (noteWrite_good ha) (fun y0 y1 h2 => good_ite (fun y3 => writeWord_good h2) (fun y4 => rmw_good h2))

theorem drainWhere_good {x0 x1 x2 x3} (ha : Good F P x3) : Good F P (drainWhere x0 x1 x2 x3) := by
  unfold drainWhere
  extract_lets -merge +onlyGivenNames s0
  have h1 : Good F P s0 := forEach_good ha (fun y2 y3 h4 => drainLine_good h4)
  clear_value s0
  exact forEach_good h1 (fun y5 y6 h7 => drainMerge_good h7)

theorem drainOwned_good {x0 x1} (ha : Good F P x1) : Good F P (drainOwned x0 x1) := by
  unfold drainOwned
  exact forEach_good ha (fun y0 y1 h2 => drainWhere_good h2)

theorem drainStack_good {x0 x1} (ha : Good F P x1) : Good F P (drainStack x0 x1) := by
  unfold drainStack
  exact drainWhere_good ha

theorem clearBad_good {x0 x1} (ha : Good F P x1) : Good F P (clearBad x0 x1) := by
  unfold clearBad
  exact State.onLb_good ha

theorem farPiece_good {x0 x1 x2 x3} (ha : Good F P x3) : GoodL F P (farPiece x0 x1 x2 x3) := by
  unfold farPiece
  exact goodL_ite (fun y0 => goodL_mk ha) (fun y1 => goodL_mk (logFarUe_good ha))

theorem farReadGo_good {x0 x1 x2 x3} (ha : Good F P x3) : GoodL F P (farReadGo x0 x1 x2 x3) := by
  induction x1 generalizing x0 x2 x3 with
  | nil =>
    rw [farReadGo]
    exact goodL_mk ha
  | cons a l ih =>
    obtain ⟨a, n⟩ := a
    rw [farReadGo]
    split
    · rename_i v0 v1 v2 e3
      have h4 : Good F P v1 := good_ofL e3 (farPiece_good ha)
      apply ih
      exact h4
    · rename_i v5 v6 e7
      have h8 : Good F P v6 := good_ofL e7 (farPiece_good ha)
      exact goodL_mk h8

theorem farRead_good {x0 x1 x2 x3} (ha : Good F P x3) : GoodL F P (farRead x0 x1 x2 x3) := by
  unfold farRead
  exact farReadGo_good ha

theorem farWrite_good {x0 x1 x2} (ha : Good F P x2) : GoodL F P (farWrite x0 x1 x2) := by
  unfold farWrite
  apply goodL_foldl
  · exact goodL_mk ha
  · intro y0 y1 h2
    extract_lets -merge +onlyGivenNames s3
    clear_value s3
    exact goodL_ite (fun y4 => goodL_mk (State.onFarBad_good (State.onFarMem_good (good_fst h2) (fun y5 y6 => wf_mwrite _ _ (by assumption))))) (fun y7 => goodL_mk (good_fst h2))

theorem vaPiece_good {x0 x1 x2 x3 x4} (ha : Good F P x4) : GoodL F P (vaPiece x0 x1 x2 x3 x4) := by
  unfold vaPiece
  apply goodL_ite
  · exact fun y0 => goodL_mk ha
  · intro y1
    split
    · rename_i v2 e3
      exact goodL_mk ha
    · rename_i v4 v5 v6 e7
      extract_lets -merge +onlyGivenNames s8
      have h9 : GoodL F P s8 := by
        unfold s8
        split
        · rename_i v10 v11 e12
          exact stRead_good ha
        · rename_i v13 v14 e15
          exact farRead_good ha
        · rename_i v16 v17 v18 e19
          exact goodL_mk ha
      clear_value s8
      split
      · rename_i v20 v21 v22
        exact goodL_mk (good_unL h9)
      · rename_i v23 v24
        exact goodL_mk (good_unL h9)

theorem vaReadGo_good {x0 x1 x2 x3 x4} (ha : Good F P x4) : GoodL F P (vaReadGo x0 x1 x2 x3 x4) := by
  induction x2 generalizing x0 x1 x3 x4 with
  | nil =>
    rw [vaReadGo]
    exact goodL_mk ha
  | cons a l ih =>
    obtain ⟨a, n⟩ := a
    rw [vaReadGo]
    split
    · rename_i v0 v1 v2 e3
      have h4 : Good F P v1 := good_ofL e3 (vaPiece_good ha)
      apply ih
      exact h4
    · rename_i v5 e6
      exact vaPiece_good ha

theorem vaRead_good {x0 x1 x2 x3 x4} (ha : Good F P x4) : GoodL F P (vaRead x0 x1 x2 x3 x4) := by
  unfold vaRead
  exact vaReadGo_good ha

theorem vaWritePiece_good {x0 x1 x2 x3 x4} (ha : Good F P x4) : GoodL F P (vaWritePiece x0 x1 x2 x3 x4) := by
  unfold vaWritePiece
  apply goodL_ite
  · exact fun y0 => goodL_mk ha
  · intro y1
    split
    · rename_i v2 e3
      exact goodL_mk ha
    · rename_i v4 v5 v6 e7
      apply goodL_ite
      · exact fun y8 => goodL_mk ha
      · intro y9
        split
        · rename_i v10 v11 e12
          exact goodL_mk (stWrite_good ha)
        · rename_i v13 v14 e15
          split
          · rename_i v16 v17 e18
            have h19 : Good F P v17 := good_ofL e18 (farWrite_good (noteWrite_good ha))
            exact goodL_mk h19
          · rename_i v20 v21 e22
            have h23 : Good F P v21 := good_ofL e22 (farWrite_good (noteWrite_good ha))
            exact goodL_mk h23
        · rename_i v24 v25 v26 e27
          exact goodL_mk (State.onHostMem_good (noteWrite_good ha) (fun y28 y29 => wf_mwrite _ _ (by assumption)))

theorem vaWriteGo_good {x0 x1 x2 x3} (ha : Good F P x3) : GoodL F P (vaWriteGo x0 x1 x2 x3) := by
  induction x2 generalizing x0 x1 x3 with
  | nil =>
    rw [vaWriteGo]
    exact goodL_mk ha
  | cons a l ih =>
    obtain ⟨a, bs⟩ := a
    rw [vaWriteGo]
    split
    · rename_i v0 v1 e2
      have h3 : Good F P v1 := good_ofL e2 (vaWritePiece_good ha)
      apply ih
      exact h3
    · rename_i v4 e5
      exact vaWritePiece_good ha

theorem vaWrite_good {x0 x1 x2 x3 x4} (ha : Good F P x4) : GoodL F P (vaWrite x0 x1 x2 x3 x4) := by
  unfold vaWrite
  exact vaWriteGo_good ha

theorem spoilHdrs_good {x0 x1 x2} (ha : Good F P x2) : Good F P (spoilHdrs x0 x1 x2) := by
  unfold spoilHdrs
  apply forEach_good
  · exact ha
  · intro y0 y1 h2
    split
    · rename_i v3 v4 v5 e6
      split
      · rename_i v7 v8 e9
        exact spoilRow_good h2
      · rename_i v10 e11
        exact h2
    · rename_i v12 e13
      exact h2

theorem vaPut_good {x0 x1 x2 x3} (ha : Good F P x3) : Good F P (vaPut x0 x1 x2 x3) := by
  unfold vaPut
  exact good_fst (vaWrite_good ha)

theorem busWrite_good {x0 x1 x2 x3} (ha : Good F P x3) : Good F P (busWrite x0 x1 x2 x3) := by
  unfold busWrite
  exact State.onHostMem_good ha (fun y0 y1 => wf_mwrite _ _ (by assumption))

theorem attempt_good {x0 x1 x2} (ha : ∀ ya, Good F P ya → Good F P (x1 ya)) (hb : Good F P x2) : Good F P (attempt x0 x1 x2) := by
  unfold attempt
  extract_lets -merge +onlyGivenNames s0
  have h1 : Good F P s0 := by
    unfold s0
    apply ha
    exact State.onAcc_good hb
  clear_value s0
  apply good_ite
  · exact fun y2 => State.onAcc_good h1
  · intro y3
    extract_lets -merge +onlyGivenNames s4
    have h5 : Good F P s4 := forEach_good hb (fun y6 y7 h8 => wakeFor_good h8)
    clear_value s4
    exact forEach_good h5 (fun y9 y10 h11 => State.modBank_good h11)

theorem ungrant_good {x0 x1} (ha : Good F P x1) : Good F P (ungrant x0 x1) := by
  unfold ungrant
  exact State.onBank_good ha

theorem havocVa_good {x0 x1 x2 x3 x4} (ha : Good F P x4) : Good F P (havocVa x0 x1 x2 x3 x4) := by
  unfold havocVa
  split
  rename_i v0 v1 v2 e3
  have h4 : Good F P v2 := good_ofR e3 (State.fresh_good ha)
  exact good_fst (vaWrite_good h4)

theorem undefWrite_good {x0 x1} (ha : Good F P x1) : Good F P (undefWrite x0 x1) := by
  unfold undefWrite
  extract_lets -merge +onlyGivenNames s0
  clear_value s0
  extract_lets -merge +onlyGivenNames s1
  clear_value s1
  split
  rename_i v2 v3 v4 e5
  have h6 : Good F P v4 := good_ofR e5 (State.fresh_good ha)
  extract_lets -merge +onlyGivenNames s7
  clear_value s7
  exact good_ite (fun y8 => State.modLb_good (State.onStackMem_good h6 (fun y9 y10 => wf_mwrite _ _ (by assumption)))) (fun y11 => good_ite (fun y12 => good_fst (farWrite_good h6)) (fun y13 => good_ite (fun y14 => State.onHostMem_good h6 (fun y15 y16 => wf_mwrite _ _ (by assumption))) (fun y17 => good_ite (fun y18 => State.onSharedMem_good h6 (fun y19 y20 => wf_mwrite _ _ (by assumption))) (fun y21 => good_ite (fun y22 => State.onTileMem_good h6 (fun y23 y24 => wf_mwrite _ _ (by assumption))) (fun y25 => State.onLocalMem_good h6 (fun y26 y27 => wf_mwrite _ _ (by assumption)))))))

theorem undefWrites_good {x0 x1} (ha : Good F P x1) : Good F P (undefWrites x0 x1) := by
  unfold undefWrites
  exact forEach_good ha (fun y0 y1 h2 => undefWrite_good h2)

theorem settleWrites_good {x0 x1} (ha : Good F P x1) : Good F P (settleWrites x0 x1) := by
  unfold settleWrites
  exact ungrant_good (State.delWlog_good ha)

end Sys2Proof.Machine
end

