-- ==== Sys2Proof/Laws/GoodSpace.lean ====
section
/-! SUPPORT. What Machine/Space.lean leaves as it found it: from a good state every definition there gives a good state. -/

namespace Sys2Proof.Machine

variable {F : Fuse} {P : List Instr}

theorem reachPart_good {x0 x1 x2} (ha : Good F P x2) : Good F P (reachPart x0 x1 x2) := by
  unfold reachPart
  exact forEach_good ha (fun y0 y1 h2 => forEach_good h2 (fun y3 y4 h5 => reachBank_good h5))

theorem State.putFdir_good {x0 x1 x2} (ha : Good F P x0) : Good F P (State.putFdir x0 x1 x2) := by
  unfold State.putFdir
  exact good_fst (farWrite_good ha)

theorem State.delFdir_good {x0 x1} (ha : Good F P x0) : Good F P (State.delFdir x0 x1) := by
  unfold State.delFdir
  exact good_fst (farWrite_good ha)

theorem giveUp_good {x0 x1 x2 x3 x4 x5 x6} (ha : Good F P x6) : Good F P (giveUp x0 x1 x2 x3 x4 x5 x6) := by
  unfold giveUp
  split
  · rename_i v0 v1 e2
    exact State.putFills_good ha
  · rename_i v3 e4
    exact ha

theorem zeroFill_good {x0 x1} (ha : Good F P x1) : Good F P (zeroFill x0 x1) := by
  unfold zeroFill
  exact good_ite (fun y0 => forEach_good ha (fun y1 y2 h3 => State.onFarMem_good h3 (fun y4 y5 => wf_mclear _ _ (by assumption)))) (fun y6 => forEach_good ha (fun y7 y8 h9 => State.onHealth_good (State.onStackMem_good h9 (fun y10 y11 => wf_mclear _ _ (by assumption)))))

theorem releaseAlloc_good {x0 x1 x2} (ha : Good F P x2) : Good F P (releaseAlloc x0 x1 x2) := by
  unfold releaseAlloc
  split
  · rename_i v0 e1
    exact giveUp_good ha
  · rename_i v2 e3
    exact ha
  · rename_i v4 e5 e6
    exact giveUp_good ha

theorem writePte_good {x0 x1 x2 x3} (ha : Good F P x3) : Good F P (writePte x0 x1 x2 x3) := by
  unfold writePte
  split
  · rename_i v0 e1
    exact ha
  · rename_i v2 v3 e4
    exact State.onSeq_good (vaPut_good ha)

theorem placeOne_good {x0 x1 x2 x3} (ha : Good F P x3) : GoodO F P (placeOne x0 x1 x2 x3) := by
  unfold placeOne
  split
  · rename_i v0 e1
    exact goodO_none
  · rename_i v2 v3 e4
    split
    · rename_i v5 v6 v7 v8 e9 e10
      exact goodO_some (writePte_good (State.putPage_good ha))
    · rename_i v11 v12 e13
      exact goodO_none

theorem placeAll_good {x0 x1 x2} (ha : Good F P x2) : GoodO F P (placeAll x0 x1 x2) := by
  induction x1 generalizing x0 x2 with
  | nil =>
    rw [placeAll]
    exact goodO_some ha
  | cons a l ih =>
    obtain ⟨a, n⟩ := a
    rw [placeAll]
    split
    · rename_i v0 v1 e2
      have h3 : Good F P v1 := good_ofO e2 (placeOne_good ha)
      apply ih
      exact h3
    · rename_i v4 e5
      exact goodO_none

theorem setCommitted_good {x0 x1 x2} (ha : Good F P x2) : Good F P (setCommitted x0 x1 x2) := by
  unfold setCommitted
  split
  · rename_i v0 e1
    exact ha
  · rename_i v2 v3 e4
    extract_lets -merge +onlyGivenNames s5
    clear_value s5
    extract_lets -merge +onlyGivenNames s6
    have h7 : Good F P s6 := State.updSeq_good ha
    clear_value s6
    exact forEach_good h7 (fun y8 y9 h10 => writePte_good (State.updPage_good h10))

theorem reserveSlots_good {x0 x1 x2} (ha : Good F P x2) : GoodO F P (reserveSlots x0 x1 x2) := by
  unfold reserveSlots
  split
  · rename_i v0 e1
    exact goodO_none
  · rename_i v2 v3 e4
    exact goodO_ite (fun y5 => goodO_none) (fun y6 => placeAll_good ha)

theorem seqCommitDo_good {x0 x1 x2 x3} (ha : Good F P x3) : GoodR F P (seqCommitDo x0 x1 x2 x3) := by
  unfold seqCommitDo
  split
  · rename_i v0 e1
    exact goodR_mk ha
  · rename_i v2 v3 e4
    extract_lets -merge +onlyGivenNames s5
    apply goodR_ite
    · exact fun y6 => goodR_mk ha
    · intro y7
      apply goodR_ite
      · exact fun y8 => goodR_mk ha
      · intro y9
        apply goodR_ite
        · exact fun y10 => goodR_mk ha
        · intro y11
          split
          · rename_i v12 e13
            exact goodR_mk ha
          · rename_i v15 v16 e17
            have h18 : Good F P v16 := good_ofO e17 (reserveSlots_good ha)
            exact goodR_mk (setCommitted_good h18)

theorem freePage_good {x0 x1} (ha : Good F P x1) : Good F P (freePage x0 x1) := by
  unfold freePage
  split
  · rename_i v0 e1
    exact ha
  · rename_i v2 v3 e4
    extract_lets -merge +onlyGivenNames s5
    have h6 : Good F P s5 := good_ite (fun y7 => giveUp_good ha) (fun y8 => State.delFdir_good ha)
    clear_value s5
    extract_lets -merge +onlyGivenNames s9
    have h10 : Good F P s9 := State.delPage_good h6
    clear_value s9
    exact good_ite (fun y11 => h10) (fun y12 => writePte_good h10)

theorem freePages_good {x0 x1 x2} (ha : Good F P x2) : Good F P (freePages x0 x1 x2) := by
  unfold freePages
  exact good_ite (fun y0 => forEach_good ha (fun y1 y2 h3 => freePage_good h3)) (fun y4 => forEach_good ha (fun y5 y6 h7 => State.updPage_good h7))

theorem dropCalib_good {x0 x1} (ha : Good F P x1) : Good F P (dropCalib x0 x1) := by
  unfold dropCalib
  exact good_ite (fun y0 => ha) (fun y1 => State.delCalib_good ha)

theorem endSeq_good {x0 x1} (ha : Good F P x1) : Good F P (endSeq x0 x1) := by
  unfold endSeq
  split
  · rename_i v0 e1
    exact ha
  · rename_i v2 v3 e4
    exact good_ite (fun y5 => dropCalib_good (State.delSeq_good ha)) (fun y6 => ha)

theorem closeSeq_good {x0 x1 x2} (ha : Good F P x2) : Good F P (closeSeq x0 x1 x2) := by
  unfold closeSeq
  extract_lets -merge +onlyGivenNames s0
  clear_value s0
  exact endSeq_good (freePages_good (State.updSeq_good ha))

end Sys2Proof.Machine
end

