-- ==== Sys2Proof/Laws/GoodCtx.lean ====
section
/-! SUPPORT. What Machine/Ctx.lean leaves as it found it: from a good state every definition there gives a good state. -/

namespace Sys2Proof.Machine

variable {F : Fuse} {P : List Instr}

theorem updEntry_good {x0 x1 x2 x3} (ha : Good F P x3) : Good F P (updEntry x0 x1 x2 x3) := by
  unfold updEntry
  exact State.updQueue_good ha

theorem setDone_good {x0 x1 x2 x3} (ha : Good F P x3) : Good F P (setDone x0 x1 x2 x3) := by
  unfold setDone
  exact updEntry_good ha

theorem poisonSig_good {x0 x1 x2} (ha : Good F P x2) : Good F P (poisonSig x0 x1 x2) := by
  unfold poisonSig
  exact good_ite (fun y0 => poisonLatch_good ha) (fun y1 => ha)

theorem poisonArg_good {x0 x1 x2} (ha : Good F P x2) : Good F P (poisonArg x0 x1 x2) := by
  unfold poisonArg
  exact good_ite (fun y0 => poisonLatch_good ha) (fun y1 => ha)

theorem sweepQ_good {x0 x1} (ha : Good F P x1) : Good F P (sweepQ x0 x1) := by
  unfold sweepQ
  exact State.updQueue_good ha

theorem poisonEnv_good {x0 x1} (ha : Good F P x1) : Good F P (poisonEnv x0 x1) := by
  unfold poisonEnv
  exact good_ite (fun y0 => poisonLatch_good ha) (fun y1 => ha)

theorem cancelSpec_good {x0 x1 x2} (ha : Good F P x2) : Good F P (cancelSpec x0 x1 x2) := by
  unfold cancelSpec
  extract_lets -merge +onlyGivenNames s0
  clear_value s0
  extract_lets -merge +onlyGivenNames s1
  extract_lets -merge +onlyGivenNames s2
  clear_value s2
  extract_lets -merge +onlyGivenNames s3
  have h4 : Good F P s3 := forEach_good ha (fun y5 y6 h7 => settleWrites_good (undefWrites_good h7))
  clear_value s3
  exact State.modCore_good h4

theorem fireEnv_good {x0 x1} (ha : Good F P x1) : Good F P (fireEnv x0 x1) := by
  unfold fireEnv
  extract_lets -merge +onlyGivenNames s0
  clear_value s0
  extract_lets -merge +onlyGivenNames s1
  extract_lets -merge +onlyGivenNames s2
  have h3 : Good F P s2 := forEach_good ha (fun y4 y5 h6 => signalLatch_good h6)
  clear_value s2
  exact State.modCore_good h3

theorem withdraw_good {x0 x1} (ha : Good F P x1) : Good F P (withdraw x0 x1) := by
  unfold withdraw
  extract_lets -merge +onlyGivenNames s0
  clear_value s0
  extract_lets -merge +onlyGivenNames s1
  have h2 : Good F P s1 := forEach_good ha (fun y3 y4 h5 => poisonEnv_good h5)
  clear_value s1
  extract_lets -merge +onlyGivenNames s6
  have h7 : Good F P s6 := forEach_good h2 (fun y8 y9 h10 => poisonLatch_good h10)
  clear_value s6
  exact fireEnv_good (State.modCore_good h7)

theorem cutRun_good {x0 x1 x2} (ha : Good F P x2) : Good F P (cutRun x0 x1 x2) := by
  unfold cutRun
  split
  · rename_i v0 e1
    exact ha
  · rename_i v2 v3 e4
    extract_lets -merge +onlyGivenNames s5
    have h6 : Good F P s5 := good_ite (fun y7 => forEach_good ha (fun y8 y9 h10 => withdraw_good (State.modCore_good h10))) (fun y11 => ha)
    clear_value s5
    exact State.updRun_good h6

theorem voidSaved_good {x0 x1} (ha : Good F P x1) : Good F P (voidSaved x0 x1) := by
  unfold voidSaved
  exact State.onSaved_good ha

theorem spoilRun_good {x0 x1} (ha : Good F P x1) : Good F P (spoilRun x0 x1) := by
  unfold spoilRun
  split
  · rename_i v0 e1
    exact ha
  · rename_i v2 v3 e4
    exact State.updRun_good (undefWrites_good ha)

theorem releaseRun_good {x0 x1} (ha : Good F P x1) : Good F P (releaseRun x0 x1) := by
  unfold releaseRun
  exact voidSaved_good (State.delRun_good (State.onCore_good ha))

theorem endMark_good {x0 x1} (ha : Good F P x1) : Good F P (endMark x0 x1) := by
  unfold endMark
  split
  · rename_i v0 v1 e2
    apply good_ite
    · exact fun y3 => State.delFdir_good ha
    · intro y4
      apply good_ite
      · intro y5
        split
        · rename_i v6 v7 e8
          exact good_ite (fun y9 => State.delFdir_good ha) (fun y10 => State.putFdir_good ha)
        · rename_i v11 e12
          exact State.putFdir_good ha
      · exact fun y13 => ha
  · rename_i v14 e15
    exact ha

theorem abortJob_good {x0 x1} (ha : Good F P x1) : Good F P (abortJob x0 x1) := by
  unfold abortJob
  split
  · rename_i v0 e1
    exact ha
  · rename_i v2 v3 e4
    exact State.delJob_good (forEach_good ha (fun y5 y6 h7 => endMark_good h7))

theorem dropJob_good {x0 x1} (ha : Good F P x1) : Good F P (dropJob x0 x1) := by
  unfold dropJob
  split
  · rename_i v0 e1
    exact ha
  · rename_i v2 v3 e4
    extract_lets -merge +onlyGivenNames s5
    have h6 : Good F P s5 := by
      unfold s5
      apply good_ite
      · intro y7
        split
        · rename_i v8 v9 v10 e11
          exact State.delFdir_good ha
        · rename_i v12 e13
          exact ha
      · exact fun y14 => ha
    clear_value s5
    exact abortJob_good h6

theorem finishReq_good {x0 x1} (ha : Good F P x1) : Good F P (finishReq x0 x1) := by
  unfold finishReq
  split
  · rename_i v0 e1
    exact ha
  · rename_i v2 v3 e4
    extract_lets -merge +onlyGivenNames s5
    have h6 : Good F P s5 := good_ite (fun y7 => ha) (fun y8 => vaPut_good ha)
    clear_value s5
    extract_lets -merge +onlyGivenNames s9
    have h10 : Good F P s9 := vaPut_good h6
    clear_value s9
    extract_lets -merge +onlyGivenNames s11
    have h12 : Good F P s11 := good_ite (fun y13 => good_ite (fun y14 => poisonLatch_good h10) (fun y15 => signalLatch_good h10)) (fun y16 => h10)
    clear_value s11
    extract_lets -merge +onlyGivenNames s17
    have h18 : Good F P s17 := State.onSeq_good h12
    clear_value s17
    extract_lets -merge +onlyGivenNames s19
    have h20 : Good F P s19 := by
      unfold s19
      split
      · rename_i v21 v22 v23 e24
        exact updEntry_good h18
      · rename_i v25 e26
        exact h18
    clear_value s19
    exact State.updReq_good h20

theorem discardReq_good {x0 x1 x2} (ha : Good F P x2) : Good F P (discardReq x0 x1 x2) := by
  unfold discardReq
  split
  · rename_i v0 e1
    exact ha
  · rename_i v2 v3 e4
    apply good_ite
    · exact fun y5 => ha
    · intro y6
      extract_lets -merge +onlyGivenNames s7
      have h8 : Good F P s7 := forEach_good ha (fun y9 y10 h11 => dropJob_good h11)
      clear_value s7
      extract_lets -merge +onlyGivenNames s12
      have h13 : Good F P s12 := trace_good h8
      clear_value s12
      exact finishReq_good (State.updReq_good h13)

theorem scrubCut_good {x0 x1} (ha : Good F P x1) : Good F P (scrubCut x0 x1) := by
  unfold scrubCut
  apply good_ite
  · intro y0
    split
    rename_i v1 v2 v3 e4
    have h5 : Good F P v3 := good_ofR e4 (State.fresh_good ha)
    exact vaPut_good h5
  · exact fun y6 => ha

theorem discardEntry_good {x0 x1 x2} (ha : Good F P x2) : Good F P (discardEntry x0 x1 x2) := by
  unfold discardEntry
  apply good_ite
  · exact fun y0 => ha
  · intro y1
    extract_lets -merge +onlyGivenNames s2
    have h3 : Good F P s2 := poisonArg_good (poisonSig_good ha)
    clear_value s2
    split
    · rename_i v4 e5
      split
      · rename_i v6 v7 e8
        split
        · rename_i v9 v10 e11
          exact good_ite (fun y12 => setDone_good (releaseRun_good (spoilRun_good h3))) (fun y13 => State.updRun_good (cutRun_good h3))
        · rename_i v14 e15
          exact h3
      · rename_i v16 e17
        extract_lets -merge +onlyGivenNames s18
        have h19 : Good F P s18 := forEach_good h3 (fun y20 y21 h22 => dropJob_good h22)
        clear_value s18
        exact setDone_good (settleWrites_good (undefWrites_good (scrubCut_good h19)))
    · rename_i v23 e24
      exact setDone_good h3

theorem stopQueue_good {x0 x1 x2} (ha : Good F P x2) : Good F P (stopQueue x0 x1 x2) := by
  unfold stopQueue
  split
  · rename_i v0 e1
    exact ha
  · rename_i v2 v3 e4
    extract_lets -merge +onlyGivenNames s5
    have h6 : Good F P s5 := good_ite (fun y7 => State.updQueue_good ha) (fun y8 => ha)
    clear_value s5
    exact forEach_good h6 (fun y9 y10 h11 => discardEntry_good h11)

theorem endWaits_good {x0 x1} (ha : Good F P x1) : Good F P (endWaits x0 x1) := by
  unfold endWaits
  split
  · rename_i v0 e1
    exact ha
  · rename_i v2 v3 e4
    split
    · rename_i v5 v6 v7 v8 e9
      exact setDone_good (State.updQueue_good ha)
    · rename_i v10 e11
      exact ha

theorem tearDown_good {x0 x1 x2} (ha : Good F P x2) : Good F P (tearDown x0 x1 x2) := by
  unfold tearDown
  extract_lets -merge +onlyGivenNames s0
  have h1 : Good F P s0 := forEach_good ha (fun y2 y3 h4 => endWaits_good (State.updQueue_good h4))
  clear_value s0
  extract_lets -merge +onlyGivenNames s5
  clear_value s5
  extract_lets -merge +onlyGivenNames s6
  have h7 : Good F P s6 := forEach_good h1 (fun y8 y9 h10 => discardEntry_good h10)
  clear_value s6
  extract_lets -merge +onlyGivenNames s11
  have h12 : Good F P s11 := by
    unfold s11
    apply forEach_good
    · exact h7
    · intro y13 y14 h15
      split
      · rename_i v16 v17 e18
        exact good_ite (fun y19 => releaseRun_good h15) (fun y20 => cutRun_good h15)
      · rename_i v21 e22
        exact h15
  clear_value s11
  extract_lets -merge +onlyGivenNames s23
  have h24 : Good F P s23 := poisonCtxLatches_good h12
  clear_value s23
  exact State.onArmed_good h24

theorem ctxFault_good {x0 x1 x2 x3} (ha : Good F P x3) : Good F P (ctxFault x0 x1 x2 x3) := by
  unfold ctxFault
  split
  · rename_i v0 e1
    exact ha
  · rename_i v2 v3 e4
    apply good_ite
    · exact fun y5 => ha
    · intro y6
      extract_lets -merge +onlyGivenNames s7
      have h8 : Good F P s7 := State.updCtx_good ha
      clear_value s7
      extract_lets -merge +onlyGivenNames s9
      have h10 : Good F P s9 := by
        unfold s9
        split
        · rename_i v11 v12 e13
          exact setDone_good h8
        · rename_i v14 e15
          exact h8
      clear_value s9
      extract_lets -merge +onlyGivenNames s16
      clear_value s16
      extract_lets -merge +onlyGivenNames s17
      clear_value s17
      extract_lets -merge +onlyGivenNames s18
      have h19 : Good F P s18 := tearDown_good h10
      clear_value s18
      extract_lets -merge +onlyGivenNames s20
      have h21 : Good F P s20 := forEach_good h19 (fun y22 y23 h24 => discardReq_good h24)
      clear_value s20
      extract_lets -merge +onlyGivenNames s25
      have h26 : Good F P s25 := forEach_good h21 (fun y27 y28 h29 => State.modCas_good h29)
      clear_value s25
      extract_lets -merge +onlyGivenNames s30
      have h31 : Good F P s30 := good_ite (fun y32 => h26) (fun y33 => busWrite_good h26)
      clear_value s30
      exact msix_good h31

theorem completeEntry_good {x0 x1 x2 x3 x4} (ha : Good F P x4) : Good F P (completeEntry x0 x1 x2 x3 x4) := by
  unfold completeEntry
  split
  · rename_i v0 e1
    exact ha
  · rename_i v2 v3 e4
    apply good_ite
    · exact fun y5 => ha
    · intro y6
      extract_lets -merge +onlyGivenNames s7
      have h8 : Good F P s7 := drainOwned_good ha
      clear_value s7
      extract_lets -merge +onlyGivenNames s9
      clear_value s9
      extract_lets -merge +onlyGivenNames s10
      have h11 : Good F P s10 := good_ite (fun y12 => undefWrites_good h8) (fun y13 => h8)
      clear_value s10
      extract_lets -merge +onlyGivenNames s14
      have h15 : Good F P s14 := setDone_good (settleWrites_good (clearBad_good h11))
      clear_value s14
      split
      · rename_i v16 e17
        extract_lets -merge +onlyGivenNames s18
        have h19 : Good F P s18 := poisonSig_good h15
        clear_value s18
        apply good_ite
        · exact fun y20 => h19
        · intro y21
          extract_lets -merge +onlyGivenNames s22
          have h23 : Good F P s22 := stopQueue_good h19
          clear_value s22
          exact good_ite (fun y24 => ctxFault_good h23) (fun y25 => h23)
      · rename_i v26 e27
        exact poisonArg_good (poisonSig_good h15)
      · rename_i v28 e29 e30
        exact h15

theorem freeLatch_good {x0 x1} (ha : Good F P x1) : Good F P (freeLatch x0 x1) := by
  unfold freeLatch
  extract_lets -merge +onlyGivenNames s0
  clear_value s0
  extract_lets -merge +onlyGivenNames s1
  have h2 : Good F P s1 := State.delLatch_good (poisonLatch_good ha)
  clear_value s1
  exact good_ite (fun y3 => h2) (fun y4 => State.putLatchHold_good h2)

theorem freeCtx_good {x0 x1 x2} (ha : Good F P x2) : Good F P (freeCtx x0 x1 x2) := by
  unfold freeCtx
  extract_lets -merge +onlyGivenNames s0
  have h1 : Good F P s0 := forEach_good ha (fun y2 y3 h4 => releaseRun_good h4)
  clear_value s0
  extract_lets -merge +onlyGivenNames s5
  have h6 : Good F P s5 := State.onSaved_good h1
  clear_value s5
  extract_lets -merge +onlyGivenNames s7
  have h8 : Good F P s7 := State.onQueue_good h6
  clear_value s7
  extract_lets -merge +onlyGivenNames s9
  have h10 : Good F P s9 := by
    unfold s9
    apply forEach_good
    · exact h8
    · intro y11 y12 h13
      split
      · rename_i e14
        exact abortJob_good h13
      · rename_i e15
        exact dropJob_good h13
  clear_value s9
  extract_lets -merge +onlyGivenNames s16
  clear_value s16
  extract_lets -merge +onlyGivenNames s17
  have h18 : Good F P s17 := good_ite (fun y19 => State.onPage_good h10) (fun y20 => h10)
  clear_value s17
  extract_lets -merge +onlyGivenNames s21
  have h22 : Good F P s21 := forEach_good h18 (fun y23 y24 h25 => closeSeq_good h25)
  clear_value s21
  extract_lets -merge +onlyGivenNames s26
  have h27 : Good F P s26 := forEach_good h22 (fun y28 y29 h30 => freePage_good h30)
  clear_value s26
  extract_lets -merge +onlyGivenNames s31
  have h32 : Good F P s31 := forEach_good h27 (fun y33 y34 h35 => releaseAlloc_good h35)
  clear_value s31
  extract_lets -merge +onlyGivenNames s36
  have h37 : Good F P s36 := State.onAlloc_good h32
  clear_value s36
  extract_lets -merge +onlyGivenNames s38
  have h39 : Good F P s38 := forEach_good h37 (fun y40 y41 h42 => freeLatch_good h42)
  clear_value s38
  extract_lets -merge +onlyGivenNames s43
  have h44 : Good F P s43 := State.onDesc_good h39
  clear_value s43
  extract_lets -merge +onlyGivenNames s45
  have h46 : Good F P s45 := State.onProg_good h44
  clear_value s45
  extract_lets -merge +onlyGivenNames s47
  have h48 : Good F P s47 := by
    unfold s47
    split
    · rename_i v49 v50 e51
      split
      · rename_i v52 v53 e54
        exact forEach_good h46 (fun y55 y56 h57 => good_ite (fun y58 => h57) (fun y59 => giveUp_good h57))
      · rename_i v60 e61
        exact h46
    · rename_i v62 e63
      exact h46
  clear_value s47
  extract_lets -merge +onlyGivenNames s64
  have h65 : Good F P s64 := State.onApw_good h48
  clear_value s64
  extract_lets -merge +onlyGivenNames s66
  have h67 : Good F P s66 := State.onCalib_good h65
  clear_value s66
  extract_lets -merge +onlyGivenNames s68
  have h69 : Good F P s68 := State.onColl_good h67
  clear_value s68
  extract_lets -merge +onlyGivenNames s70
  have h71 : Good F P s70 := State.onArea_good h69
  clear_value s70
  extract_lets -merge +onlyGivenNames s72
  have h73 : Good F P s72 := State.onArmed_good h71
  clear_value s72
  extract_lets -merge +onlyGivenNames s74
  have h75 : Good F P s74 := State.onReq_good h73
  clear_value s74
  extract_lets -merge +onlyGivenNames s76
  have h77 : Good F P s76 := State.onCas_good h75
  clear_value s76
  extract_lets -merge +onlyGivenNames s78
  have h79 : Good F P s78 := State.onCas_good h77
  clear_value s78
  extract_lets -merge +onlyGivenNames s80
  have h81 : Good F P s80 := State.onCore_good h79
  clear_value s80
  extract_lets -merge +onlyGivenNames s82
  have h83 : Good F P s82 := State.onCore_good h81
  clear_value s82
  extract_lets -merge +onlyGivenNames s84
  have h85 : Good F P s84 := State.onUnitCtx_good h83
  clear_value s84
  exact State.delCtx_good h85

end Sys2Proof.Machine
end

