-- ==== Sys2Proof/Laws/GoodQueue.lean ====
section
/-! SUPPORT. What Machine/Queue.lean leaves as it found it: from a good state every definition there gives a good state. -/

namespace Sys2Proof.Machine

variable {F : Fuse} {P : List Instr}

theorem ringRead_good {x0 x1 x2} (ha : Good F P x0) : GoodL F P (ringRead x0 x1 x2) := by
  unfold ringRead
  apply goodL_ite
  · exact fun y0 => goodL_mk ha
  · intro y1
    extract_lets -merge +onlyGivenNames s2
    split
    · rename_i v3 v4 e5
      have h6 : Good F P v4 := good_ofL e5 (vaRead_good ha)
      exact goodL_mk h6
    · rename_i v7 v8 v9 e10 e11
      have h12 : Good F P v8 := good_ofL e11 (vaRead_good ha)
      apply goodL_foldl
      · exact goodL_mk h12
      · intro y13 y14 h15
        apply goodL_ite
        · exact fun y16 => h15
        · intro y17
          split
          · rename_i v18 v19 e20
            have h21 : Good F P v19 := good_ofL e20 (vaRead_good (good_fst h15))
            exact goodL_mk h21
          · rename_i v22 v23 v24 e25 e26
            have h27 : Good F P v23 := good_ofL e26 (vaRead_good (good_fst h15))
            exact goodL_mk h27

theorem appendEntry_good {x0 x1 x2 x3} (ha : Good F P x3) : Good F P (appendEntry x0 x1 x2 x3) := by
  unfold appendEntry
  exact State.updQueue_good ha

theorem fetchPacket_good {x0 x1 x2 x3} (ha : Good F P x3) : Good F P (fetchPacket x0 x1 x2 x3) := by
  unfold fetchPacket
  split
  · rename_i v0 e1
    exact ha
  · rename_i v2 v3 e4
    extract_lets -merge +onlyGivenNames s5
    clear_value s5
    apply good_ite
    · exact fun y6 => ha
    · intro y7
      extract_lets -merge +onlyGivenNames s8
      clear_value s8
      split
      rename_i v9 v10 v11 e12
      have h13 : Good F P v11 := good_ofR e12 (State.newUid_good ha)
      split
      rename_i v14 v15 v16 v17 e18
      have h19 : Good F P v15 := good_ofL e18 (ringRead_good h13)
      extract_lets -merge +onlyGivenNames s20
      clear_value s20
      extract_lets -merge +onlyGivenNames s21
      clear_value s21
      apply good_ite
      · intro y22
        extract_lets -merge +onlyGivenNames s23
        clear_value s23
        exact completeEntry_good (appendEntry_good h19)
      · intro y24
        extract_lets -merge +onlyGivenNames s25
        clear_value s25
        apply good_ite
        · intro y26
          extract_lets -merge +onlyGivenNames s27
          clear_value s27
          exact completeEntry_good (appendEntry_good h19)
        · intro y28
          split
          · rename_i v29 v30
            exact appendEntry_good h19
          · rename_i v31
            exact appendEntry_good h19

theorem writeRecord_good {x0 x1 x2} (ha : Good F P x2) : Good F P (writeRecord x0 x1 x2) := by
  unfold writeRecord
  extract_lets -merge +onlyGivenNames s0
  clear_value s0
  exact good_ite (fun y1 => vaPut_good ha) (fun y2 => busWrite_good ha)

theorem postOldest_good {x0 x1} (ha : Good F P x1) : Good F P (postOldest x0 x1) := by
  unfold postOldest
  split
  · rename_i v0 e1
    exact ha
  · rename_i v2 v3 e4
    split
    · rename_i v5 e6
      exact ha
    · rename_i v7 v8 e9
      split
      · rename_i v10 v11 v12 v13 e14
        apply good_ite
        · exact fun y15 => ha
        · intro y16
          extract_lets -merge +onlyGivenNames s17
          have h18 : Good F P s17 := writeRecord_good ha
          clear_value s17
          extract_lets -merge +onlyGivenNames s19
          clear_value s19
          extract_lets -merge +onlyGivenNames s20
          have h21 : Good F P s20 := State.updQueue_good h18
          clear_value s20
          extract_lets -merge +onlyGivenNames s22
          have h23 : Good F P s22 := updEntry_good h21
          clear_value s22
          extract_lets -merge +onlyGivenNames s24
          have h25 : Good F P s24 := good_ite (fun y26 => msix_good h23) (fun y27 => h23)
          clear_value s24
          exact sweepQ_good h25
      · rename_i v28 e29
        exact ha

theorem headerSignal_good {x0 x1 x2} (ha : Good F P x2) : Good F P (headerSignal x0 x1 x2) := by
  unfold headerSignal
  split
  · rename_i v0 e1
    exact ha
  · rename_i v2 v3 e4
    split
    · rename_i v5 e6
      exact ha
    · rename_i v7 v8 e9
      exact good_ite (fun y10 => sweepQ_good (updEntry_good (signalLatch_good ha))) (fun y11 => ha)

end Sys2Proof.Machine
end

