-- ==== Sys2Proof/Laws/GoodRun.lean ====
section
/-! SUPPORT. What Machine/Run.lean leaves as it found it: from a good state every definition there gives a good state. -/

namespace Sys2Proof.Machine

variable {F : Fuse} {P : List Instr}

theorem havocSill_good {x0 x1} (ha : Good F P x1) : Good F P (havocSill x0 x1) := by
  unfold havocSill
  apply forEach_good
  · exact ha
  · intro y0 y1 h2
    split
    rename_i v3 v4 v5 e6
    have h7 : Good F P v5 := good_ofR e6 (State.fresh_good h2)
    split
    rename_i v8 v9 v10 e11
    have h12 : Good F P v10 := good_ofR e11 (State.fresh_good h7)
    exact State.modAccStore_good (State.modOpStore_good h12)

theorem zeroCluster_good {x0 x1} (ha : Good F P x1) : Good F P (zeroCluster x0 x1) := by
  unfold zeroCluster
  extract_lets -merge +onlyGivenNames s0
  have h1 : Good F P s0 := State.onLocalMem_good ha (fun y2 y3 => wf_mclear _ _ (by assumption))
  clear_value s0
  extract_lets -merge +onlyGivenNames s4
  have h5 : Good F P s4 := State.onSharedMem_good h1 (fun y6 y7 => wf_mclear _ _ (by assumption))
  clear_value s4
  extract_lets -merge +onlyGivenNames s8
  have h9 : Good F P s8 := State.onTileMem_good h5 (fun y10 y11 => wf_mclear _ _ (by assumption))
  clear_value s8
  exact State.onBadWords_good h9

theorem havocTiles_good {x0 x1} (ha : Good F P x1) : Good F P (havocTiles x0 x1) := by
  unfold havocTiles
  apply forEach_good
  · exact ha
  · intro y0 y1 h2
    split
    rename_i v3 v4 v5 e6
    have h7 : Good F P v5 := good_ofR e6 (State.fresh_good h2)
    exact State.modTile_good h7

theorem startCore_good {x0 x1 x2 x3} (ha : Good F P x3) : Good F P (startCore x0 x1 x2 x3) := by
  unfold startCore
  extract_lets -merge +onlyGivenNames s0
  clear_value s0
  extract_lets -merge +onlyGivenNames s1
  clear_value s1
  extract_lets -merge +onlyGivenNames s2
  clear_value s2
  extract_lets -merge +onlyGivenNames s3
  have h4 : Good F P s3 := good_ite (fun y5 => ha) (fun y6 => zeroCluster_good ha)
  clear_value s3
  extract_lets -merge +onlyGivenNames s7
  have h8 : Good F P s7 := havocTiles_good h4
  clear_value s7
  extract_lets -merge +onlyGivenNames s9
  clear_value s9
  extract_lets -merge +onlyGivenNames s10
  have h11 : Good F P s10 := State.onSharedMem_good h8 (fun y12 y13 => wf_mwrite _ _ (by assumption))
  clear_value s10
  exact State.modCore_good h11

theorem startRun_good {x0 x1 x2} (ha : Good F P x2) : Good F P (startRun x0 x1 x2) := by
  unfold startRun
  extract_lets -merge +onlyGivenNames s0
  have h1 : Good F P s0 := State.onArmed_good (havocSill_good ha)
  clear_value s0
  extract_lets -merge +onlyGivenNames s2
  have h3 : Good F P s2 := forEach_good h1 (fun y4 y5 h6 => startCore_good h6)
  clear_value s2
  exact State.updRun_good h3

theorem resumeRun_good {x0 x1 x2} (ha : Good F P x2) : Good F P (resumeRun x0 x1 x2) := by
  unfold resumeRun
  extract_lets -merge +onlyGivenNames s0
  have h1 : Good F P s0 := forEach_good ha (fun y2 y3 h4 => State.modCore_good h4)
  clear_value s0
  exact State.updRun_good h1

theorem requestPreempt_good {x0 x1} (ha : Good F P x1) : Good F P (requestPreempt x0 x1) := by
  unfold requestPreempt
  split
  · rename_i v0 e1
    exact ha
  · rename_i v2 v3 e4
    apply good_ite
    · exact fun y5 => ha
    · intro y6
      extract_lets -merge +onlyGivenNames s7
      have h8 : Good F P s7 := forEach_good ha (fun y9 y10 h11 => State.modCore_good h11)
      clear_value s7
      exact State.updRun_good h8

theorem arbitrate_good {x0} (ha : Good F P x0) : Good F P (arbitrate x0) := by
  unfold arbitrate
  extract_lets -merge +onlyGivenNames s0
  have h1 : Good F P s0 := forEach_good ha (fun y2 y3 h4 => forEach_good h4 (fun y5 y6 h7 => wakeFor_good h7))
  clear_value s0
  exact forEach_good h1 (fun y8 y9 h10 => good_ite (fun y11 => forEach_good h10 (fun y12 y13 h14 => good_ite (fun y15 => requestPreempt_good h14) (fun y16 => h14))) (fun y17 => h10))

theorem writeRec_good {x0 x1 x2 x3 x4} (ha : Good F P x4) : Good F P (writeRec x0 x1 x2 x3 x4) := by
  unfold writeRec
  extract_lets -merge +onlyGivenNames s0
  clear_value s0
  extract_lets -merge +onlyGivenNames s1
  clear_value s1
  extract_lets -merge +onlyGivenNames s2
  have h3 : Good F P s2 := by
    unfold s2
    apply forEach_good
    · exact ha
    · intro y4 y5 h6
      extract_lets -merge +onlyGivenNames s7
      clear_value s7
      exact State.onHealth_good (State.onStackMem_good h6 (fun y8 y9 => wf_mclear _ _ (by assumption)))
  clear_value s2
  extract_lets -merge +onlyGivenNames s10
  have h11 : Good F P s10 := State.onStackMem_good h3 (fun y12 y13 => wf_msets _ _ (by assumption))
  clear_value s10
  exact forEach_good h11 (fun y14 y15 h16 => State.putHealth_good h16)

theorem spillCluster_good {x0 x1 x2} (ha : Good F P x2) : Good F P (spillCluster x0 x1 x2) := by
  unfold spillCluster
  split
  · rename_i v0 e1
    exact ha
  · rename_i v2 v3 e4
    extract_lets -merge +onlyGivenNames s5
    clear_value s5
    split
    · rename_i v6 e7
      exact ha
    · rename_i v8 v9 v10 v11 e12
      extract_lets -merge +onlyGivenNames s13
      have h14 : Good F P s13 := writeRec_good (reachPart_good ha)
      clear_value s13
      extract_lets -merge +onlyGivenNames s15
      have h16 : Good F P s15 := State.putSaved_good h14
      clear_value s15
      extract_lets -merge +onlyGivenNames s17
      clear_value s17
      extract_lets -merge +onlyGivenNames s18
      have h19 : Good F P s18 := State.modCore_good h16
      clear_value s18
      apply good_ite
      · intro y20
        split
        rename_i v21 v22 v23 e24
        have h25 : Good F P v23 := good_ofR e24 (State.newUid_good h19)
        exact State.updRun_good h25
      · exact fun y26 => h19

theorem checkRec_good {x0 x1 x2 x3} (ha : Good F P x3) : GoodL F P (checkRec x0 x1 x2 x3) := by
  unfold checkRec
  extract_lets -merge +onlyGivenNames s0
  clear_value s0
  apply goodL_foldl
  · exact goodL_mk ha
  · intro y1 y2 h3
    extract_lets -merge +onlyGivenNames s4
    have h5 : GoodL F P s4 := readWord_good (good_fst h3)
    clear_value s4
    exact goodL_mk (good_fst h5)

theorem restoreCluster_good {x0 x1 x2 x3} (ha : GoodL F P x3) : GoodL F P (restoreCluster x0 x1 x2 x3) := by
  unfold restoreCluster
  extract_lets -merge +onlyGivenNames s0
  have h1 : Good F P s0 := good_fst ha
  clear_value s0
  split
  · rename_i v2 v3 v4 v5 v6 v7 e8 e9
    extract_lets -merge +onlyGivenNames s10
    clear_value s10
    split
    rename_i v11 v12 v13 e14
    have h15 : Good F P v12 := good_ofL e14 (checkRec_good (reachPart_good h1))
    extract_lets -merge +onlyGivenNames s16
    clear_value s16
    extract_lets -merge +onlyGivenNames s17
    have h18 : Good F P s17 := State.onLocalMem_good h15 (fun y19 y20 => wf_moveMem _ _ _ _ (by assumption))
    clear_value s17
    extract_lets -merge +onlyGivenNames s21
    have h22 : Good F P s21 := State.onTileMem_good h18 (fun y23 y24 => wf_moveMem _ _ _ _ (by assumption))
    clear_value s21
    extract_lets -merge +onlyGivenNames s25
    have h26 : Good F P s25 := State.onSharedMem_good h22 (fun y27 y28 => wf_moveMem _ _ _ _ (by assumption))
    clear_value s25
    extract_lets -merge +onlyGivenNames s29
    have h30 : Good F P s29 := State.onBadWords_good h26
    clear_value s29
    extract_lets -merge +onlyGivenNames s31
    have h32 : Good F P s31 := havocTiles_good h30
    clear_value s31
    exact goodL_mk (State.delSaved_good (State.modCore_good h32))
  · rename_i v33 v34 e35
    exact ha

theorem restoreRun_good {x0 x1} (ha : Good F P x1) : Good F P (restoreRun x0 x1) := by
  unfold restoreRun
  split
  · rename_i v0 e1
    exact ha
  · rename_i v2 v3 e4
    apply good_ite
    · exact fun y5 => ha
    · intro y6
      split
      rename_i v7 v8 v9 e10
      have h11 : Good F P v8 := good_ofL e10 (goodL_foldl (goodL_mk (havocSill_good ha)) (fun y12 y13 h14 => restoreCluster_good h14))
      extract_lets -merge +onlyGivenNames s15
      have h16 : Good F P s15 := State.updRun_good h11
      clear_value s15
      exact good_ite (fun y17 => cutRun_good h16) (fun y18 => h16)

theorem writeDump_good {x0 x1} (ha : Good F P x1) : GoodL F P (writeDump x0 x1) := by
  unfold writeDump
  extract_lets -merge +onlyGivenNames s0
  clear_value s0
  split
  · rename_i v1 v2 e3
    have h4 : Good F P v2 := good_ofL e3 (vaWrite_good ha)
    apply goodL_foldl
    · exact goodL_mk h4
    · intro y5 y6 h7
      split
      · rename_i v8 e9
        exact vaWrite_good (good_fst h7)
      · rename_i v10 e11
        exact h7
  · rename_i v12 e13
    exact vaWrite_good ha

end Sys2Proof.Machine
end

