-- ==== Sys2Proof/Laws/GoodSkip.lean ====
section
/-! SUPPORT. What Machine/Skip.lean leaves as it found it: from a good state every definition there gives a good state. -/

namespace Sys2Proof.Machine

variable {F : Fuse} {P : List Instr}

theorem addSkip_good {x0 x1 x2} (ha : Good F P x2) : Good F P (addSkip x0 x1 x2) := by
  unfold addSkip
  exact State.updCtx_good ha

theorem logSkip_good {x0 x1 x2 x3 x4 x5 x6} (ha : Good F P x6) : Good F P (logSkip x0 x1 x2 x3 x4 x5 x6) := by
  unfold logSkip
  split
  · rename_i v0 e1
    exact ha
  · rename_i v2 v3 v4 e5
    split
    rename_i v6 v7 v8 e9
    have h10 : Good F P v8 := good_ofR e9 (State.fresh_good ha)
    extract_lets -merge +onlyGivenNames s11
    clear_value s11
    extract_lets -merge +onlyGivenNames s12
    have h13 : Good F P s12 := addSkip_good h10
    clear_value s12
    extract_lets -merge +onlyGivenNames s14
    have h15 : Good F P s14 := State.updRun_good h13
    clear_value s14
    apply good_ite
    · intro y16
      extract_lets -merge +onlyGivenNames s17
      have h18 : Good F P s17 := addSkip_good h15
      clear_value s17
      extract_lets -merge +onlyGivenNames s19
      have h20 : Good F P s19 := State.updRun_good h18
      clear_value s19
      exact ctxFault_good h20
    · exact fun y21 => h15

theorem stopRun_good {x0 x1 x2 x3 x4} (ha : Good F P x4) : Good F P (stopRun x0 x1 x2 x3 x4) := by
  unfold stopRun
  split
  · rename_i v0 e1
    exact ha
  · rename_i v2 v3 v4 e5
    extract_lets -merge +onlyGivenNames s6
    have h7 : Good F P s6 := cutRun_good ha
    clear_value s6
    exact good_ite (fun y8 => ctxFault_good h7) (fun y9 => h7)

end Sys2Proof.Machine
end

