-- ==== Sys2Proof/Laws/GoodPivot.lean ====
section
/-! SUPPORT. What Machine/Pivot.lean leaves as it found it: from a good state every definition there gives a good state. -/

namespace Sys2Proof.Machine

variable {F : Fuse} {P : List Instr}

theorem tileWrite_good {x0 x1 x2 x3} (ha : Good F P x3) : Good F P (tileWrite x0 x1 x2 x3) := by
  unfold tileWrite
  exact State.onBadWords_good (State.onTileMem_good ha (fun y0 y1 => wf_mwrite _ _ (by assumption)))

theorem reachCluster_good {x0 x1} (ha : Good F P x1) : Good F P (reachCluster x0 x1) := by
  unfold reachCluster
  extract_lets -merge +onlyGivenNames s0
  clear_value s0
  apply good_ite
  · intro y1
    extract_lets -merge +onlyGivenNames s2
    have h3 : Good F P s2 := wakeFor_good ha
    clear_value s2
    exact good_ite (fun y4 => State.onAcc_good h3) (fun y5 => h3)
  · exact fun y6 => ha

theorem spRead_good {x0 x1 x2 x3 x4 x5 x6} (ha : Good F P x6) : GoodL F P (spRead x0 x1 x2 x3 x4 x5 x6) := by
  unfold spRead
  apply goodL_ite
  · exact fun y0 => vaRead_good ha
  · intro y1
    extract_lets -merge +onlyGivenNames s2
    have h3 : Good F P s2 := reachCluster_good ha
    clear_value s2
    apply goodL_ite
    · intro y4
      split
      · rename_i v5 v6 e7
        exact goodL_mk h3
      · rename_i v8 e9
        exact goodL_mk h3
    · exact fun y10 => goodL_mk h3

theorem spWrite_good {x0 x1 x2 x3 x4 x5 x6 x7} (ha : Good F P x7) : GoodL F P (spWrite x0 x1 x2 x3 x4 x5 x6 x7) := by
  unfold spWrite
  exact goodL_ite (fun y0 => vaWrite_good ha) (fun y1 => goodL_ite (fun y2 => goodL_mk (forEach_good (reachCluster_good ha) (fun y3 y4 h5 => tileWrite_good (noteWrite_good h5)))) (fun y6 => goodL_mk (State.onSharedMem_good (noteWrite_good (reachCluster_good ha)) (fun y7 y8 => wf_mwrite _ _ (by assumption)))))

theorem spWriteAll_good {x0 x1 x2 x3 x4 x5 x6} (ha : Good F P x6) : GoodL F P (spWriteAll x0 x1 x2 x3 x4 x5 x6) := by
  induction x5 generalizing x0 x1 x2 x3 x4 x6 with
  | nil =>
    rw [spWriteAll]
    exact goodL_mk ha
  | cons a l ih =>
    obtain ⟨a, bs⟩ := a
    rw [spWriteAll]
    split
    · rename_i v0 v1 e2
      have h3 : Good F P v1 := good_ofL e2 (spWrite_good ha)
      apply ih
      exact h3
    · rename_i v4 e5
      exact spWrite_good ha

theorem spReadAll_good {x0 x1 x2 x3 x4 x5 x6 x7} (ha : Good F P x7) : GoodL F P (spReadAll x0 x1 x2 x3 x4 x5 x6 x7) := by
  induction x5 generalizing x0 x1 x2 x3 x4 x6 x7 with
  | nil =>
    rw [spReadAll]
    exact goodL_mk ha
  | cons a l ih =>
    rw [spReadAll]
    split
    · rename_i v0 v1 v2 e3
      have h4 : Good F P v1 := good_ofL e3 (spRead_good ha)
      apply ih
      exact h4
    · rename_i v5 v6 v7 e8
      have h9 : Good F P v6 := good_ofL e8 (spRead_good ha)
      exact goodL_mk h9
    · rename_i v10 v11 e12
      have h13 : Good F P v11 := good_ofL e12 (spRead_good ha)
      exact goodL_mk h13

theorem havocRanges_good {x0 x1 x2 x3 x4 x5 x6} (ha : Good F P x6) : Good F P (havocRanges x0 x1 x2 x3 x4 x5 x6) := by
  unfold havocRanges
  apply forEach_good
  · exact ha
  · intro y0 y1 h2
    split
    rename_i v3 v4 v5 e6
    have h7 : Good F P v5 := good_ofR e6 (State.fresh_good h2)
    exact good_fst (spWrite_good h7)

theorem readIf_good {x0 x1 x2 x3 x4 x5 x6 x7} (ha : Good F P x7) : GoodL F P (readIf x0 x1 x2 x3 x4 x5 x6 x7) := by
  unfold readIf
  apply goodL_ite
  · exact fun y0 => goodL_mk ha
  · intro y1
    split
    · rename_i v2 v3 v4 e5
      have h6 : Good F P v3 := good_ofL e5 (spRead_good ha)
      exact goodL_mk h6
    · rename_i v7 v8 v9 e10
      have h11 : Good F P v8 := good_ofL e10 (spRead_good ha)
      exact goodL_mk h11
    · rename_i v12 v13 e14
      have h15 : Good F P v13 := good_ofL e14 (spRead_good ha)
      exact goodL_mk h15

theorem readExtras_good {x0 x1 x2 x3 x4 x5} (ha : Good F P x5) : GoodL F P (readExtras x0 x1 x2 x3 x4 x5) := by
  unfold readExtras
  extract_lets -merge +onlyGivenNames s0
  clear_value s0
  exact thenE_good (readIf_good ha) (fun y1 y2 h3 => thenE_good (readIf_good h3) (fun y4 y5 h6 => thenE_good (readIf_good h6) (fun y7 y8 h9 => goodL_mk h9)))

theorem readIdx_good {x0 x1 x2 x3 x4} (ha : Good F P x4) : GoodL F P (readIdx x0 x1 x2 x3 x4) := by
  induction x1 generalizing x0 x2 x3 x4 with
  | zero =>
    rw [readIdx]
    exact goodL_mk ha
  | succ n ih =>
    rw [readIdx]
    split
    · rename_i v0 v1 v2 e3
      have h4 : Good F P v1 := good_ofL e3 (vaRead_good ha)
      apply ih
      exact h4
    · rename_i v5 v6 v7 e8
      have h9 : Good F P v6 := good_ofL e8 (vaRead_good ha)
      exact goodL_mk h9
    · rename_i v10 v11 e12
      have h13 : Good F P v11 := good_ofL e12 (vaRead_good ha)
      exact goodL_mk h13

theorem moveEnd_good {x0 x1 x2 x3 x4 x5 x6} (ha : Good F P x6) : GoodL F P (moveEnd x0 x1 x2 x3 x4 x5 x6) := by
  unfold moveEnd
  apply goodL_ite
  · exact fun y0 => goodL_mk (havocRanges_good ha)
  · intro y1
    split
    · rename_i v2 v3 e4
      have h5 : Good F P v3 := good_ofL e4 (spWriteAll_good ha)
      exact goodL_mk h5
    · rename_i v6 v7 v8 e9
      have h10 : Good F P v7 := good_ofL e9 (spWriteAll_good ha)
      exact goodL_mk (havocRanges_good h10)
    · rename_i v11 v12 e13
      have h14 : Good F P v12 := good_ofL e13 (spWriteAll_good ha)
      exact goodL_mk (havocRanges_good h14)

theorem moveShape_good {x0 x1 x2 x3 x4 x5 x6 x7 x8} (ha : Good F P x8) : GoodL F P (moveShape x0 x1 x2 x3 x4 x5 x6 x7 x8) := by
  unfold moveShape
  extract_lets -merge +onlyGivenNames s0
  clear_value s0
  extract_lets -merge +onlyGivenNames s1
  split
  · rename_i v2 v3 v4 e5
    have h6 : Good F P v3 := good_ofL e5 (readExtras_good ha)
    unfold s1
    exact goodL_mk (havocRanges_good h6)
  · rename_i v7 v8 v9 e10
    have h11 : Good F P v8 := good_ofL e10 (readExtras_good ha)
    apply goodL_ite
    · intro y12
      extract_lets -merge +onlyGivenNames s13
      have h14 : Good F P s13 := havocRanges_good h11
      clear_value s13
      extract_lets -merge +onlyGivenNames s15
      clear_value s15
      exact goodL_mk (State.delWlog_good (good_fst (spWriteAll_good h14)))
    · intro y16
      extract_lets -merge +onlyGivenNames s17
      clear_value s17
      split
      · rename_i v18 v19 v20 e21
        have h22 : Good F P v19 := good_ofL e21 (spReadAll_good h11)
        unfold s1
        exact goodL_mk (havocRanges_good h22)
      · rename_i v23 v24 v25 e26
        have h27 : Good F P v24 := good_ofL e26 (spReadAll_good h11)
        extract_lets -merge +onlyGivenNames s28
        have h29 : GoodL F P s28 := moveEnd_good h27
        clear_value s28
        exact goodL_ite (fun y30 => goodL_mk (spoilHdrs_good (good_fst h29))) (fun y31 => h29)

theorem readRowsAt_good {x0 x1 x2 x3 x4 x5 x6 x7} (ha : Good F P x7) : GoodL F P (readRowsAt x0 x1 x2 x3 x4 x5 x6 x7) := by
  induction x5 generalizing x0 x1 x2 x3 x4 x6 x7 with
  | nil =>
    rw [readRowsAt]
    exact goodL_mk ha
  | cons a l ih =>
    rcases a with _ | a
    · rw [readRowsAt]
      apply ih
      exact ha
    · rw [readRowsAt]
      split
      · rename_i v0 v1 v2 e3
        have h4 : Good F P v1 := good_ofL e3 (spRead_good ha)
        apply ih
        exact h4
      · rename_i v5 v6 v7 e8
        have h9 : Good F P v6 := good_ofL e8 (spRead_good ha)
        exact goodL_mk h9
      · rename_i v10 v11 e12
        have h13 : Good F P v11 := good_ofL e12 (spRead_good ha)
        exact goodL_mk h13

theorem moveGather_good {x0 x1 x2 x3 x4 x5 x6 x7 x8} (ha : Good F P x8) : GoodL F P (moveGather x0 x1 x2 x3 x4 x5 x6 x7 x8) := by
  unfold moveGather
  extract_lets -merge +onlyGivenNames s0
  clear_value s0
  split
  · rename_i v1 v2 v3 e4
    have h5 : Good F P v2 := good_ofL e4 (readRowsAt_good ha)
    exact goodL_mk (havocRanges_good h5)
  · rename_i v6 v7 v8 e9
    have h10 : Good F P v7 := good_ofL e9 (readRowsAt_good ha)
    exact moveEnd_good h10

theorem accWindow_good {x0 x1 x2 x3 x4 x5 x6 x7} (ha : Good F P x7) : GoodL F P (accWindow x0 x1 x2 x3 x4 x5 x6 x7) := by
  induction x6 generalizing x0 x1 x2 x3 x4 x5 x7 with
  | nil =>
    rw [accWindow]
    exact goodL_mk ha
  | cons a l ih =>
    obtain ⟨a, bs⟩ := a
    rw [accWindow]
    split
    · rename_i v0 v1 v2 e3
      have h4 : Good F P v1 := good_ofL e3 (spRead_good ha)
      exact goodL_mk h4
    · rename_i v5 v6 e7
      have h8 : Good F P v6 := good_ofL e7 (spRead_good ha)
      exact goodL_mk h8
    · rename_i v9 v10 v11 e12
      have h13 : Good F P v10 := good_ofL e12 (spRead_good ha)
      extract_lets -merge +onlyGivenNames s14
      clear_value s14
      extract_lets -merge +onlyGivenNames s15
      clear_value s15
      split
      · rename_i v16 v17 e18
        have h19 : Good F P v17 := good_ofL e18 (spWrite_good h13)
        apply ih
        exact h19
      · rename_i v20 v21 v22 e23
        have h24 : Good F P v21 := good_ofL e23 (spWrite_good h13)
        exact goodL_mk h24
      · rename_i v25 v26 e27
        have h28 : Good F P v26 := good_ofL e27 (spWrite_good h13)
        exact goodL_mk h28

theorem accWindows_good {x0 x1 x2 x3 x4 x5 x6 x7 x8} (ha : Good F P x8) : GoodL F P (accWindows x0 x1 x2 x3 x4 x5 x6 x7 x8) := by
  induction x6 generalizing x7 x8 with
  | zero => exact ha
  | succ n ih =>
    cases x7 with
    | nil => exact ha
    | cons b l =>
      simp only [accWindows]
      apply goodL_ite
      · exact fun _ => ih (accWindow_good ha)
      · exact fun _ => accWindow_good ha

theorem loseUpdates_good {x0 x1} (ha : Good F P x1) : Good F P (loseUpdates x0 x1) := by
  unfold loseUpdates
  extract_lets -merge +onlyGivenNames s0
  clear_value s0
  exact undefWrites_good ha

theorem moveScatter_good {x0 x1 x2 x3 x4 x5 x6 x7 x8} (ha : Good F P x8) : GoodL F P (moveScatter x0 x1 x2 x3 x4 x5 x6 x7 x8) := by
  unfold moveScatter
  extract_lets -merge +onlyGivenNames s0
  clear_value s0
  extract_lets -merge +onlyGivenNames s1
  split
  · rename_i v2 v3 v4 e5
    have h6 : Good F P v3 := good_ofL e5 (spReadAll_good ha)
    unfold s1
    exact goodL_mk (havocRanges_good h6)
  · rename_i v7 v8 v9 e10
    have h11 : Good F P v8 := good_ofL e10 (spReadAll_good ha)
    apply goodL_ite
    · exact fun y12 => goodL_mk (havocRanges_good h11)
    · intro y13
      apply goodL_ite
      · intro y14
        split
        rename_i v15 v16 v17 e18
        have h19 : Good F P v16 := good_ofL e18 (accWindows_good h11)
        apply goodL_ite
        · exact fun y20 => goodL_mk (loseUpdates_good h19)
        · intro y21
          unfold s1
          exact goodL_mk (havocRanges_good h19)
      · exact fun y22 => moveEnd_good h11

theorem moveRun_good {x0 x1 x2 x3 x4} (ha : Good F P x4) : GoodL F P (moveRun x0 x1 x2 x3 x4) := by
  unfold moveRun
  extract_lets -merge +onlyGivenNames s0
  clear_value s0
  apply goodL_ite
  · intro y1
    split
    rename_i v2 v3 v4 v5 e6
    have h7 : Good F P v3 := good_ofL e6 (readIdx_good ha)
    apply goodL_ite
    · intro y8
      extract_lets -merge +onlyGivenNames s9
      clear_value s9
      exact goodL_mk (havocRanges_good h7)
    · exact fun y10 => goodL_ite (fun y11 => moveGather_good h7) (fun y12 => moveScatter_good h7)
  · exact fun y13 => moveShape_good ha

end Sys2Proof.Machine
end

