-- ==== Sys2Proof/Laws/GoodTile.lean ====
section
/-! SUPPORT. What Machine/Tile.lean leaves as it found it: from a good state every definition there gives a good state. -/

namespace Sys2Proof.Machine

variable {F : Fuse} {P : List Instr}

theorem putIssued_good {x0 x1 x2} (ha : Good F P x2) : Good F P (putIssued x0 x1 x2) := by
  unfold putIssued
  exact State.modTile_good ha

theorem havocAcc_good {x0 x1 x2 x3} (ha : Good F P x3) : Good F P (havocAcc x0 x1 x2 x3) := by
  unfold havocAcc
  split
  rename_i v0 v1 v2 e3
  have h4 : Good F P v2 := good_ofR e3 (State.fresh_good ha)
  apply good_foldl
  · exact h4
  · intro y5 y6 h7
    split
    · rename_i v8 v9 e10
      exact good_ite (fun y11 => State.modTile_good h7) (fun y12 => h7)
    · rename_i v13 v14 v15 e16
      exact h7

theorem noteEarly_good {x0 x1 x2 x3 x4} (ha : Good F P x4) : Good F P (noteEarly x0 x1 x2 x3 x4) := by
  unfold noteEarly
  extract_lets -merge +onlyGivenNames s0
  clear_value s0
  split
  · rename_i v1 e2
    exact ha
  · rename_i v3 v4 e5
    exact logSkip_good ha

theorem tilePut_good {x0 x1 x2 x3 x4} (ha : Good F P x4) : Good F P (tilePut x0 x1 x2 x3 x4) := by
  unfold tilePut
  exact noteWrite_good (tileWrite_good ha)

theorem doReads_good {x0 x1 x2 x3} (ha : Good F P x3) : Good F P (doReads x0 x1 x2 x3) := by
  unfold doReads
  apply good_foldl
  · exact ha
  · intro y0 y1 h2
    split
    · rename_i v3 e4
      exact h2
    · rename_i v5 v6 e7
      extract_lets -merge +onlyGivenNames s8
      clear_value s8
      extract_lets -merge +onlyGivenNames s9
      clear_value s9
      extract_lets -merge +onlyGivenNames s10
      clear_value s10
      extract_lets -merge +onlyGivenNames s11
      clear_value s11
      extract_lets -merge +onlyGivenNames s12
      have h13 : Good F P s12 := putIssued_good h2
      clear_value s12
      extract_lets -merge +onlyGivenNames s14
      have h15 : Good F P s14 := by
        unfold s14
        split
        · rename_i v16 v17
          exact noteEarly_good h13
        · rename_i v18
          exact h13
      clear_value s14
      exact good_ite (fun y19 => havocAcc_good h15) (fun y20 => h15)

theorem poisonRows_good {x0 x1 x2} (ha : Good F P x2) : Good F P (poisonRows x0 x1 x2) := by
  unfold poisonRows
  exact State.modTile_good (putIssued_good ha)

theorem doWrites_good {x0 x1 x2 x3} (ha : Good F P x3) : Good F P (doWrites x0 x1 x2 x3) := by
  unfold doWrites
  extract_lets -merge +onlyGivenNames s0
  clear_value s0
  extract_lets -merge +onlyGivenNames s1
  clear_value s1
  apply good_ite
  · exact fun y2 => ha
  · intro y3
    apply good_ite
    · exact fun y4 => poisonRows_good ha
    · intro y5
      apply good_ite
      · exact fun y6 => ha
      · intro y7
        apply good_ite
        · intro y8
          extract_lets -merge +onlyGivenNames s9
          clear_value s9
          apply good_ite
          · intro y10
            extract_lets -merge +onlyGivenNames s11
            clear_value s11
            exact State.modTile_good ha
          · exact fun y12 => ha
        · intro y13
          apply good_ite
          · intro y14
            extract_lets -merge +onlyGivenNames s15
            have h16 : Good F P s15 := good_ite (fun y17 => tilePut_good ha) (fun y18 => ha)
            clear_value s15
            extract_lets -merge +onlyGivenNames s19
            clear_value s19
            extract_lets -merge +onlyGivenNames s20
            have h21 : Good F P s20 := good_ite (fun y22 => tilePut_good h16) (fun y23 => h16)
            clear_value s20
            extract_lets -merge +onlyGivenNames s24
            have h25 : Good F P s24 := good_ite (fun y26 => tilePut_good h21) (fun y27 => h21)
            clear_value s24
            extract_lets -merge +onlyGivenNames s28
            have h29 : Good F P s28 := good_ite (fun y30 => State.modTile_good h25) (fun y31 => h25)
            clear_value s28
            extract_lets -merge +onlyGivenNames s32
            clear_value s32
            extract_lets -merge +onlyGivenNames s33
            clear_value s33
            extract_lets -merge +onlyGivenNames s34
            clear_value s34
            extract_lets -merge +onlyGivenNames s35
            clear_value s35
            extract_lets -merge +onlyGivenNames s36
            extract_lets -merge +onlyGivenNames s37
            have h38 : Good F P s37 := putIssued_good h29
            clear_value s37
            extract_lets -merge +onlyGivenNames s39
            have h40 : Good F P s39 := tilePut_good h38
            clear_value s39
            extract_lets -merge +onlyGivenNames s41
            have h42 : Good F P s41 := good_ite (fun y43 => good_ite (fun y44 => tilePut_good h40) (fun y45 => h40)) (fun y46 => h29)
            clear_value s41
            exact good_ite (fun y47 => tilePut_good h42) (fun y48 => h42)
          · exact fun y49 => ha

theorem tileTick_good {x0 x1 x2} (ha : Good F P x2) : Good F P (tileTick x0 x1 x2) := by
  unfold tileTick
  extract_lets -merge +onlyGivenNames s0
  have h1 : Good F P s0 := forEach_good ha (fun y2 y3 h4 => doReads_good h4)
  clear_value s0
  apply forEach_good
  · exact h1
  · intro y5 y6 h7
    split
    · rename_i v8 v9 e10
      exact doWrites_good h7
    · rename_i v11 e12
      exact h7

theorem tilesTick_good {x0} (ha : Good F P x0) : Good F P (tilesTick x0) := by
  unfold tilesTick
  extract_lets -merge +onlyGivenNames s0
  clear_value s0
  exact State.onDev_good (forEach_good ha (fun y1 y2 h3 => tileTick_good h3))

theorem ctrTick_good {x0} (ha : Good F P x0) : Good F P (ctrTick x0) := by
  unfold ctrTick
  exact State.onDev_good ha

theorem tileIssue_good {x0 x1 x2 x3 x4 x5 x6} (ha : Good F P x6) : Good F P (tileIssue x0 x1 x2 x3 x4 x5 x6) := by
  unfold tileIssue
  extract_lets -merge +onlyGivenNames s0
  clear_value s0
  extract_lets -merge +onlyGivenNames s1
  clear_value s1
  exact State.modTile_good ha

theorem tileTake_good {x0 x1 x2} (ha : Good F P x2) : Good F P (tileTake x0 x1 x2) := by
  unfold tileTake
  exact forEach_good ha (fun y0 y1 h2 => State.modTile_good h2)

end Sys2Proof.Machine
end

