-- ==== Sys2Proof/Laws/GoodSill.lean ====
section
/-! SUPPORT. What Machine/Sill.lean leaves as it found it: from a good state every definition there gives a good state. -/

namespace Sys2Proof.Machine

variable {F : Fuse} {P : List Instr}

theorem storeRead_good {x0 x1 x2 x3} (ha : Good F P x3) : GoodL F P (storeRead x0 x1 x2 x3) := by
  unfold storeRead
  exact goodL_mk ha

theorem claimUnit_good {x0 x1 x2} (ha : Good F P x2) : Good F P (claimUnit x0 x1 x2) := by
  unfold claimUnit
  exact good_ite (fun y0 => ha) (fun y1 => State.putUnitCtx_good (State.modAccStore_good (State.modOpStore_good ha)))

theorem clobberArmed_good {x0 x1 x2 x3} (ha : Good F P x3) : Good F P (clobberArmed x0 x1 x2 x3) := by
  unfold clobberArmed
  apply good_ite
  · intro y0
    split
    rename_i v1 v2 v3 e4
    have h5 : Good F P v3 := good_ofR e4 (State.fresh_good ha)
    exact State.onArmed_good h5
  · exact fun y6 => ha

theorem SEnv.rd_good {x0 x1 x2 x3 x4} (ha : Good F P x4) : GoodL F P (SEnv.rd x0 x1 x2 x3 x4) := by
  unfold SEnv.rd
  split
  · rename_i v0 v1 v2 e3
    have h4 : Good F P v1 := good_ofL e3 (sillRead_good ha)
    exact goodL_mk h4
  · rename_i v5 v6 e7
    have h8 : Good F P v6 := good_ofL e7 (sillRead_good ha)
    exact goodL_mk h8

theorem SEnv.chk_good {x0 x1 x2 x3 x4 x5 x6 x7} (ha : Good F P x7) : GoodL F P (SEnv.chk x0 x1 x2 x3 x4 x5 x6 x7) := by
  unfold SEnv.chk
  apply thenE_good
  · exact SEnv.rd_good ha
  · intro y0 y1 h2
    extract_lets -merge +onlyGivenNames s3
    clear_value s3
    apply goodL_ite
    · exact fun y4 => goodL_mk h2
    · intro y5
      apply goodL_ite
      · exact fun y6 => goodL_mk h2
      · intro y7
        apply thenE_good
        · exact SEnv.rd_good h2
        · intro y8 y9 h10
          extract_lets -merge +onlyGivenNames s11
          clear_value s11
          exact goodL_ite (fun y12 => goodL_mk h10) (fun y13 => goodL_mk h10)

theorem wGemv_good {x0 x1 x2 x3} (ha : Good F P x3) : GoodL F P (wGemv x0 x1 x2 x3) := by
  unfold wGemv
  extract_lets -merge +onlyGivenNames s0
  clear_value s0
  extract_lets -merge +onlyGivenNames s1
  clear_value s1
  extract_lets -merge +onlyGivenNames s2
  clear_value s2
  apply thenE_good
  · exact SEnv.chk_good ha
  · intro y3 y4 h5
    apply thenE_good
    · exact SEnv.rd_good h5
    · intro y6 y7 h8
      apply thenE_good
      · exact storeRead_good h8
      · intro y9 y10 h11
        apply thenE_good
        · exact storeRead_good h11
        · intro y12 y13 h14
          extract_lets -merge +onlyGivenNames s15
          clear_value s15
          extract_lets -merge +onlyGivenNames s16
          clear_value s16
          exact goodL_mk h14

theorem SEnv.vals_good {x0 x1 x2 x3 x4 x5} (ha : Good F P x5) : GoodL F P (SEnv.vals x0 x1 x2 x3 x4 x5) := by
  unfold SEnv.vals
  exact thenE_good (SEnv.rd_good ha) (fun y0 y1 h2 => goodL_mk h2)

theorem ewSecond_good {x0 x1 x2 x3} (ha : Good F P x3) : GoodL F P (ewSecond x0 x1 x2 x3) := by
  unfold ewSecond
  extract_lets -merge +onlyGivenNames s0
  clear_value s0
  apply goodL_ite
  · exact fun y1 => goodL_mk ha
  · intro y2
    apply goodL_ite
    · exact fun y3 => thenE_good (SEnv.chk_good ha) (fun y4 y5 h6 => SEnv.vals_good h6)
    · intro y7
      apply thenE_good
      · exact storeRead_good ha
      · intro y8 y9 h10
        extract_lets -merge +onlyGivenNames s11
        clear_value s11
        exact goodL_mk h10

theorem wEwise_good {x0 x1 x2 x3} (ha : Good F P x3) : GoodL F P (wEwise x0 x1 x2 x3) := by
  unfold wEwise
  apply thenE_good
  · exact SEnv.chk_good ha
  · intro y0 y1 h2
    apply thenE_good
    · exact SEnv.vals_good h2
    · intro y3 y4 h5
      apply thenE_good
      · exact ewSecond_good h5
      · intro y6 y7 h8
        extract_lets -merge +onlyGivenNames s9
        clear_value s9
        exact goodL_mk h8

theorem wNorm_good {x0 x1 x2 x3} (ha : Good F P x3) : GoodL F P (wNorm x0 x1 x2 x3) := by
  unfold wNorm
  extract_lets -merge +onlyGivenNames s0
  clear_value s0
  extract_lets -merge +onlyGivenNames s1
  clear_value s1
  apply thenE_good
  · exact SEnv.chk_good ha
  · intro y2 y3 h4
    apply thenE_good
    · exact SEnv.vals_good h4
    · intro y5 y6 h7
      apply thenE_good
      · exact SEnv.rd_good h7
      · intro y8 y9 h10
        apply thenE_good
        · exact storeRead_good h10
        · intro y11 y12 h13
          extract_lets -merge +onlyGivenNames s14
          clear_value s14
          extract_lets -merge +onlyGivenNames s15
          clear_value s15
          exact goodL_mk h13

theorem wDeq_good {x0 x1 x2 x3} (ha : Good F P x3) : GoodL F P (wDeq x0 x1 x2 x3) := by
  unfold wDeq
  apply thenE_good
  · exact SEnv.chk_good ha
  · intro y0 y1 h2
    apply thenE_good
    · exact SEnv.vals_good h2
    · intro y3 y4 h5
      extract_lets -merge +onlyGivenNames s6
      clear_value s6
      exact goodL_mk h5

theorem wTopk_good {x0 x1 x2 x3} (ha : Good F P x3) : GoodL F P (wTopk x0 x1 x2 x3) := by
  unfold wTopk
  extract_lets -merge +onlyGivenNames s0
  clear_value s0
  extract_lets -merge +onlyGivenNames s1
  clear_value s1
  apply thenE_good
  · exact SEnv.chk_good ha
  · intro y2 y3 h4
    apply thenE_good
    · exact SEnv.rd_good h4
    · intro y5 y6 h7
      extract_lets -merge +onlyGivenNames s8
      clear_value s8
      extract_lets -merge +onlyGivenNames s9
      clear_value s9
      extract_lets -merge +onlyGivenNames s10
      clear_value s10
      extract_lets -merge +onlyGivenNames s11
      clear_value s11
      exact goodL_mk h7

theorem gatherRows_good {x0 x1 x2 x3 x4 x5 x6} (ha : Good F P x6) : GoodL F P (gatherRows x0 x1 x2 x3 x4 x5 x6) := by
  induction x4 generalizing x0 x1 x2 x3 x5 x6 with
  | nil =>
    rw [gatherRows]
    exact goodL_mk ha
  | cons a l ih =>
    rw [gatherRows]
    apply goodL_ite
    · intro y0
      apply ih
      exact ha
    · intro y1
      apply goodL_ite
      · intro y2
        split
        rename_i v3 v4 v5 e6
        have h7 : Good F P v5 := good_ofR e6 (State.fresh_good ha)
        apply ih
        exact h7
      · intro y8
        apply thenE_good
        · exact SEnv.rd_good ha
        · intro y9 y10 h11
          apply ih
          exact h11

theorem wGather_good {x0 x1 x2 x3} (ha : Good F P x3) : GoodL F P (wGather x0 x1 x2 x3) := by
  unfold wGather
  apply thenE_good
  · exact SEnv.rd_good ha
  · intro y0 y1 h2
    apply thenE_good
    · exact SEnv.rd_good h2
    · intro y3 y4 h5
      apply thenE_good
      · exact gatherRows_good h5
      · intro y6 y7 h8
        extract_lets -merge +onlyGivenNames s9
        clear_value s9
        exact goodL_mk h8

theorem wSmxNorm_good {x0 x1 x2 x3} (ha : Good F P x3) : GoodL F P (wSmxNorm x0 x1 x2 x3) := by
  unfold wSmxNorm
  extract_lets -merge +onlyGivenNames s0
  clear_value s0
  extract_lets -merge +onlyGivenNames s1
  clear_value s1
  split
  · rename_i v2 e3
    split
    rename_i v4 v5 v6 e7
    have h8 : Good F P v6 := good_ofR e7 (State.fresh_good ha)
    exact goodL_mk h8
  · rename_i v9 v10 e11
    apply goodL_ite
    · intro y12
      split
      rename_i v13 v14 v15 e16
      have h17 : Good F P v15 := good_ofR e16 (State.fresh_good ha)
      exact goodL_mk h17
    · intro y18
      apply thenE_good
      · exact SEnv.rd_good ha
      · intro y19 y20 h21
        split
        rename_i v22 v23 v24 e25
        have h26 : Good F P v24 := good_ofR e25 (State.fresh_good h21)
        extract_lets -merge +onlyGivenNames s27
        exact goodL_mk h26

theorem sillWork_good {x0 x1 x2 x3} (ha : Good F P x3) : GoodL F P (sillWork x0 x1 x2 x3) := by
  unfold sillWork
  extract_lets -merge +onlyGivenNames s0
  clear_value s0
  exact goodL_ite (fun y1 => wGemv_good ha) (fun y2 => goodL_ite (fun y3 => wEwise_good ha) (fun y4 => goodL_ite (fun y5 => wNorm_good ha) (fun y6 => goodL_ite (fun y7 => wDeq_good ha) (fun y8 => goodL_ite (fun y9 => wTopk_good ha) (fun y10 => goodL_ite (fun y11 => wGather_good ha) (fun y12 => wSmxNorm_good ha))))))

theorem workAll_good {x0 x1 x2 x3 x4} (ha : ∀ ya yb, Good F P yb → GoodL F P (x0 ya yb)) (hb : Good F P x4) : GoodL F P (workAll x0 x1 x2 x3 x4) := by
  induction x1 generalizing x0 x2 x3 x4 with
  | nil =>
    rw [workAll]
    exact goodL_mk hb
  | cons a l ih =>
    rw [workAll]
    split
    · rename_i v0 v1 v2 e3
      have h4 : Good F P v1 := good_ofL e3 (by
          apply ha
          exact hb)
      apply ih
      · intro y5 y6 h7
        apply ha
        exact h7
      · exact h4
    · rename_i v8 v9 v10 e11
      have h12 : Good F P v9 := good_ofL e11 (by
          apply ha
          exact hb)
      apply ih
      · intro y13 y14 h15
        apply ha
        exact h15
      · exact h12

theorem landStep_good {x0 x1 x2} (ha : Good F P x2) : Good F P (landStep x0 x1 x2) := by
  unfold landStep
  exact sillWrite_good ha

theorem landHead_good {x0 x1 x2 x3 x4} (ha : Good F P x4) : Good F P (landHead x0 x1 x2 x3 x4) := by
  unfold landHead
  exact good_ite (fun y0 => spoilRow_good ha) (fun y1 => ha)

theorem landSome_good {x0 x1 x2 x3 x4 x5} (ha : Good F P x5) : Good F P (landSome x0 x1 x2 x3 x4 x5) := by
  unfold landSome
  extract_lets -merge +onlyGivenNames s0
  clear_value s0
  extract_lets -merge +onlyGivenNames s1
  clear_value s1
  extract_lets -merge +onlyGivenNames s2
  clear_value s2
  extract_lets -merge +onlyGivenNames s3
  have h4 : Good F P s3 := State.modBank_good ha
  clear_value s3
  extract_lets -merge +onlyGivenNames s5
  have h6 : Good F P s5 := forEach_good h4 (fun y7 y8 h9 => landStep_good h9)
  clear_value s5
  exact good_ite (fun y10 => landHead_good h6) (fun y11 => h6)

theorem landOut_good {x0 x1 x2 x3 x4} (ha : Good F P x4) : Good F P (landOut x0 x1 x2 x3 x4) := by
  unfold landOut
  extract_lets -merge +onlyGivenNames s0
  clear_value s0
  extract_lets -merge +onlyGivenNames s1
  have h2 : Good F P s1 := forEach_good ha (fun y3 y4 h5 => State.modAccStore_good (clobberArmed_good h5))
  clear_value s1
  extract_lets -merge +onlyGivenNames s6
  clear_value s6
  extract_lets -merge +onlyGivenNames s7
  have h8 : Good F P s7 := forEach_good h2 (fun y9 y10 h11 => landStep_good h11)
  clear_value s7
  exact good_ite (fun y12 => landHead_good h8) (fun y13 => h8)

theorem havocAccOut_good {x0 x1 x2 x3} (ha : Good F P x3) : Good F P (havocAccOut x0 x1 x2 x3) := by
  unfold havocAccOut
  apply good_ite
  · intro y0
    split
    rename_i v1 v2 v3 e4
    have h5 : Good F P v3 := good_ofR e4 (State.fresh_good ha)
    extract_lets -merge +onlyGivenNames s6
    clear_value s6
    exact State.modAccStore_good (clobberArmed_good h5)
  · exact fun y7 => ha

theorem havocOut_good {x0 x1 x2 x3 x4} (ha : Good F P x4) : Good F P (havocOut x0 x1 x2 x3 x4) := by
  unfold havocOut
  apply forEach_good
  · exact ha
  · intro y0 y1 h2
    split
    rename_i v3 v4 v5 e6
    have h7 : Good F P v5 := good_ofR e6 (State.fresh_good h2)
    extract_lets -merge +onlyGivenNames s8
    have h9 : Good F P s8 := good_ite (fun y10 => sillWrite_good h7) (fun y11 => h7)
    clear_value s8
    exact havocAccOut_good h9

theorem sillFail_good {x0 x1 x2 x3 x4} (ha : Good F P x4) : GoodL F P (sillFail x0 x1 x2 x3 x4) := by
  unfold sillFail
  extract_lets -merge +onlyGivenNames s0
  clear_value s0
  extract_lets -merge +onlyGivenNames s1
  have h2 : Good F P s1 := havocOut_good ha
  clear_value s1
  extract_lets -merge +onlyGivenNames s3
  have h4 : Good F P s3 := by
    unfold s3
    split
    · rename_i v5 v6 e7
      exact good_ite (fun y8 => State.delWlog_good (forEach_good h2 (fun y9 y10 h11 => sillWrite_good h11))) (fun y12 => h2)
    · rename_i v13 e14
      exact h2
  clear_value s3
  exact goodL_mk h4

theorem rewind_good {x0 x1} (ha : Good F P x0) (hb : Good F P x1) : Good F P (rewind x0 x1) := by
  unfold rewind
  exact State.onAcc_good (State.onFreeCtr_good ha)

/-- The work of a command carries `Good` through in each bank set. -/
def GoodJ (F : Fuse) (P : List Instr) (j : SJob) : Prop := ∀ b s, Good F P s → GoodL F P (j.work b s)

theorem sillTry_good {x0 x1 x2 x3} (hw : GoodJ F P x2) (ha : Good F P x3) : GoodL F P (sillTry x0 x1 x2 x3) := by
  unfold sillTry
  extract_lets -merge +onlyGivenNames s0
  split
  · exact goodL_mk (rewind_good ha (good_ofL ‹_› (workAll_good hw ha)))
  · exact goodL_mk (good_fst (sillFail_good (good_ofL ‹_› (workAll_good hw ha))))

theorem sillLand_good {x0 x1 x2 x3} (hw : GoodJ F P x2) (ha : Good F P x3) : GoodL F P (sillLand x0 x1 x2 x3) := by
  unfold sillLand
  split
  · exact goodL_mk (forEach_good (good_ofL ‹_› (workAll_good hw ha)) (fun _ _ h => landOut_good h))
  · exact sillFail_good (good_ofL ‹_› (workAll_good hw ha))

theorem sillSteps_good {x0 x1 x2 x3 x4} (hw : GoodJ F P x2) (ha : Good F P x4) : Good F P (sillSteps x0 x1 x2 x3 x4) := by
  unfold sillSteps
  split
  · have ht := good_ofL ‹_› (hw x3 x4 ha)
    exact landSome_good (good_snd (State.fresh_good (rewind_good ha ht)))
  · exact ha

theorem opJob_work {x0 x1} : GoodJ F P (opJob x0 x1) := fun _ _ h => sillWork_good h

theorem loadopRead_good {x0 x1 x2} (ha : Good F P x2) : GoodL F P (loadopRead x0 x1 x2) := by
  unfold loadopRead
  exact SEnv.rd_good ha

theorem loadopWrite_good {x0 x1 x2 x3} (ha : Good F P x3) : Good F P (loadopWrite x0 x1 x2 x3) := by
  unfold loadopWrite
  exact forEach_good ha (fun y0 y1 h2 => State.modOpStore_good h2)

theorem loadopHavoc_good {x0 x1 x2} (ha : Good F P x2) : Good F P (loadopHavoc x0 x1 x2) := by
  unfold loadopHavoc
  apply forEach_good
  · exact ha
  · intro y0 y1 h2
    split
    rename_i v3 v4 v5 e6
    have h7 : Good F P v5 := good_ofR e6 (State.fresh_good h2)
    exact State.modOpStore_good h7

theorem runArm_good {x0 x1 x2 x3} (ha : Good F P x3) : Good F P (runArm x0 x1 x2 x3) := by
  unfold runArm
  apply forEach_good
  · exact ha
  · intro y0 y1 h2
    extract_lets -merge +onlyGivenNames s3
    clear_value s3
    extract_lets -merge +onlyGivenNames s4
    clear_value s4
    extract_lets -merge +onlyGivenNames s5
    clear_value s5
    extract_lets -merge +onlyGivenNames s6
    have h7 : Good F P s6 := clobberArmed_good h2
    clear_value s6
    split
    rename_i v8 v9 v10 e11
    have h12 : Good F P v10 := good_ofR e11 (State.fresh_good h7)
    extract_lets -merge +onlyGivenNames s13
    have h14 : Good F P s13 := State.modAccStore_good h12
    clear_value s13
    exact State.onArmed_good h14

theorem sillOp_good {x0 x1 x2 x3} (ha : Good F P x3) : GoodL F P (sillOp x0 x1 x2 x3) := by
  unfold sillOp
  extract_lets -merge +onlyGivenNames s0
  clear_value s0
  apply goodL_ite
  · intro y1
    split
    · rename_i v2 v3 v4 e5
      have h6 : Good F P v3 := good_ofL e5 (loadopRead_good ha)
      exact goodL_mk (rewind_good ha h6)
    · rename_i v7 v8 v9 e10
      have h11 : Good F P v8 := good_ofL e10 (loadopRead_good ha)
      exact goodL_mk (loadopHavoc_good h11)
  · intro y12
    apply goodL_ite
    · exact fun y13 => goodL_mk (runArm_good ha)
    · intro y14
      split
      · rename_i v15 v16 e17
        have h18 : Good F P v16 := good_ofL e17 (sillTry_good opJob_work ha)
        exact goodL_mk (good_ite (fun y19 => State.onArmed_good h18) (fun y20 => h18))
      · rename_i v21 e22
        exact sillTry_good opJob_work ha

theorem sillEnd_good {x0 x1 x2} (ha : Good F P x2) : GoodL F P (sillEnd x0 x1 x2) := by
  unfold sillEnd
  extract_lets -merge +onlyGivenNames s0
  clear_value s0
  apply goodL_ite
  · intro y1
    split
    · rename_i v2 v3 v4 e5
      have h6 : Good F P v3 := good_ofL e5 (loadopRead_good ha)
      exact goodL_mk (loadopWrite_good h6)
    · rename_i v7 v8 v9 e10
      have h11 : Good F P v8 := good_ofL e10 (loadopRead_good ha)
      exact goodL_mk (loadopHavoc_good h11)
  · intro y12
    apply goodL_ite
    · exact fun y13 => goodL_mk ha
    · intro y14
      extract_lets -merge +onlyGivenNames s15
      have h16 : GoodL F P s15 := sillLand_good opJob_work ha
      clear_value s15
      exact goodL_ite (fun y17 => goodL_mk (State.onArmed_good (good_fst h16))) (fun y18 => h16)

theorem sillCut_good {x0 x1 x2} (ha : Good F P x2) : Good F P (sillCut x0 x1 x2) := by
  unfold sillCut
  extract_lets -merge +onlyGivenNames s0
  have h1 : Good F P s0 := good_ite (fun y2 => loadopHavoc_good ha) (fun y3 => forEach_good ha (fun y4 y5 h6 => havocAccOut_good h6))
  clear_value s0
  exact State.onArmed_good h1

end Sys2Proof.Machine
end

