-- ==== Sys2Proof/Laws/GoodAttn.lean ====
section
/-! SUPPORT. What Machine/Attn.lean leaves as it found it: from a good state every definition there gives a good state. -/

namespace Sys2Proof.Machine

variable {F : Fuse} {P : List Instr}

theorem readCols_good {x0 x1 x2 x3 x4 x5 x6 x7 x8 x9 x10} (ha : Good F P x10) : GoodL F P (readCols x0 x1 x2 x3 x4 x5 x6 x7 x8 x9 x10) := by
  induction x8 generalizing x0 x1 x2 x3 x4 x5 x6 x7 x9 x10 with
  | nil =>
    rw [readCols]
    exact goodL_mk ha
  | cons a l ih =>
    rw [readCols]
    split
    · rename_i v0 e1
      apply ih
      exact ha
    · rename_i v2 v3 e4
      apply goodL_ite
      · intro y5
        apply ih
        exact ha
      · intro y6
        extract_lets -merge +onlyGivenNames s7
        clear_value s7
        split
        · rename_i v8 v9 v10 e11
          have h12 : Good F P v9 := good_ofL e11 (sillRead_good ha)
          apply ih
          exact h12
        · rename_i v13 v14 e15
          have h16 : Good F P v14 := good_ofL e15 (sillRead_good ha)
          exact goodL_mk h16

theorem readHeads_good {x0 x1 x2 x3 x4 x5 x6 x7 x8 x9 x10} (ha : Good F P x10) : GoodL F P (readHeads x0 x1 x2 x3 x4 x5 x6 x7 x8 x9 x10) := by
  induction x8 generalizing x0 x1 x2 x3 x4 x5 x6 x7 x9 x10 with
  | nil =>
    rw [readHeads]
    exact goodL_mk ha
  | cons a l ih =>
    rw [readHeads]
    apply thenE_good
    · exact readCols_good ha
    · intro y0 y1 h2
      apply ih
      exact h2

theorem wScore_good {x0 x1 x2 x3 x4 x5 x6} (ha : Good F P x6) : GoodL F P (wScore x0 x1 x2 x3 x4 x5 x6) := by
  unfold wScore
  extract_lets -merge +onlyGivenNames s0
  clear_value s0
  extract_lets -merge +onlyGivenNames s1
  clear_value s1
  extract_lets -merge +onlyGivenNames s2
  clear_value s2
  extract_lets -merge +onlyGivenNames s3
  clear_value s3
  extract_lets -merge +onlyGivenNames s4
  clear_value s4
  apply thenE_good
  · exact readHeads_good ha
  · intro y5 y6 h7
    apply thenE_good
    · exact storeRead_good h7
    · intro y8 y9 h10
      extract_lets -merge +onlyGivenNames s11
      extract_lets -merge +onlyGivenNames s12
      clear_value s12
      exact goodL_mk h10

theorem wApply_good {x0 x1 x2 x3 x4 x5 x6} (ha : Good F P x6) : GoodL F P (wApply x0 x1 x2 x3 x4 x5 x6) := by
  unfold wApply
  extract_lets -merge +onlyGivenNames s0
  clear_value s0
  extract_lets -merge +onlyGivenNames s1
  clear_value s1
  extract_lets -merge +onlyGivenNames s2
  clear_value s2
  extract_lets -merge +onlyGivenNames s3
  clear_value s3
  extract_lets -merge +onlyGivenNames s4
  clear_value s4
  apply thenE_good
  · exact SEnv.rd_good ha
  · intro y5 y6 h7
    apply thenE_good
    · exact readHeads_good h7
    · intro y8 y9 h10
      extract_lets -merge +onlyGivenNames s11
      clear_value s11
      exact goodL_mk h10

theorem readPartials_good {x0 x1 x2 x3 x4 x5} (ha : Good F P x5) : GoodL F P (readPartials x0 x1 x2 x3 x4 x5) := by
  induction x3 generalizing x0 x1 x2 x4 x5 with
  | nil =>
    rw [readPartials]
    exact goodL_mk ha
  | cons a l ih =>
    rw [readPartials]
    apply thenE_good
    · exact SEnv.chk_good ha
    · intro y0 y1 h2
      apply thenE_good
      · exact SEnv.vals_good h2
      · intro y3 y4 h5
        apply thenE_good
        · exact SEnv.rd_good h5
        · intro y6 y7 h8
          apply ih
          exact h8

theorem wMerge_good {x0 x1 x2 x3} (ha : Good F P x3) : GoodL F P (wMerge x0 x1 x2 x3) := by
  unfold wMerge
  apply thenE_good
  · exact readPartials_good ha
  · intro y0 y1 h2
    extract_lets -merge +onlyGivenNames s3
    extract_lets -merge +onlyGivenNames s4
    clear_value s4
    extract_lets -merge +onlyGivenNames s5
    clear_value s5
    exact goodL_mk h2

theorem kvJob_good {x0 x1 x2} (ha : Good F P x2) : GoodL F P (kvJob x0 x1 x2) := by
  unfold kvJob
  split
  · extract_lets
    apply goodL_ite
    · exact fun _ => good_snd (State.fresh_good ha)
    · intro _
      split
      · exact havocOut_good (good_ofL ‹_› (vaRead_good ha))
      · exact havocOut_good (good_ofL ‹_› (vaRead_good ha))
      · have h := good_ofL ‹_› (vaRead_good ha)
        apply goodL_ite
        · exact fun _ => havocOut_good h
        · intro _
          split
          · exact havocOut_good (good_ofL ‹_› (vaRead_good h))
          · exact havocOut_good (good_ofL ‹_› (vaRead_good h))
          · exact good_ofL ‹_› (vaRead_good h)
  · exact ha

theorem kvJob_work {x0 x1 x2 t j} (e : kvJob x0 x1 x2 = (t, .ok j)) : GoodJ F P j := by
  unfold kvJob at e
  split at e
  · extract_lets at e
    split at e
    · cases e; exact fun _ _ h => h
    · split at e
      · cases e
      · cases e
      · split at e
        · cases e
        · split at e
          · cases e
          · cases e
          · cases e
            intro b s h
            dsimp only
            split
            · exact wScore_good h
            · exact wApply_good h
  · cases e

theorem ucallJob_good {x0 x1 x2} (ha : Good F P x2) : GoodL F P (ucallJob x0 x1 x2) := by
  unfold ucallJob
  exact goodL_ite (fun _ => kvJob_good ha) (fun _ => goodL_ite (fun _ => ha) (fun _ => ha))

theorem ucallJob_work {x0 x1 x2 t j} (e : ucallJob x0 x1 x2 = (t, .ok j)) : GoodJ F P j := by
  unfold ucallJob at e
  split at e
  · exact kvJob_work e
  · split at e
    · cases e; exact fun _ _ h => wMerge_good h
    · cases e; exact fun _ _ h => h

theorem sillStart_good {x0 x1 x2 x3} (ha : Good F P x3) : GoodL F P (sillStart x0 x1 x2 x3) := by
  unfold sillStart
  apply goodL_ite
  · intro _
    split
    · exact good_ofL ‹_› (ucallJob_good ha)
    · exact sillTry_good (ucallJob_work ‹_›) (rewind_good ha (good_ofL ‹_› (ucallJob_good ha)))
  · exact fun _ => sillOp_good ha

theorem sillFinish_good {x0 x1 x2} (ha : Good F P x2) : GoodL F P (sillFinish x0 x1 x2) := by
  unfold sillFinish
  apply goodL_ite
  · intro _
    split
    · exact good_ofL ‹_› (ucallJob_good ha)
    · exact sillLand_good (ucallJob_work ‹_›) (good_ofL ‹_› (ucallJob_good ha))
  · exact fun _ => sillEnd_good ha

theorem sillYield_good {x0 x1 x2 x3} (ha : Good F P x3) : Good F P (sillYield x0 x1 x2 x3) := by
  unfold sillYield
  apply good_ite
  · exact fun _ => ha
  · intro _
    apply good_ite
    · intro _
      split
      · exact good_ite (fun _ => sillSteps_good (ucallJob_work ‹_›) (State.onFreeCtr_good ha)) (fun _ => ha)
      · exact ha
    · exact fun _ => sillSteps_good opJob_work ha

theorem sillCutAll_good {x0 x1 x2} (ha : Good F P x2) : Good F P (sillCutAll x0 x1 x2) := by
  unfold sillCutAll
  extract_lets -merge +onlyGivenNames s0
  have h1 : Good F P s0 := sillCut_good (forEach_good ha (fun y2 y3 h4 => sillYield_good h4))
  clear_value s0
  exact undefWrites_good h1

end Sys2Proof.Machine
end

