-- ==== Sys2Proof/Laws/GoodWicket.lean ====
section
/-! SUPPORT. What Machine/Wicket.lean leaves as it found it: from a good state every definition there gives a good state. -/

namespace Sys2Proof.Machine

variable {F : Fuse} {P : List Instr}

theorem vRd_good {x0 x1 x2 x3} (ha : Good F P x3) : GoodL F P (vRd x0 x1 x2 x3) := by
  unfold vRd
  exact readIf_good ha

theorem vWr_good {x0 x1 x2 x3} (ha : Good F P x3) : GoodL F P (vWr x0 x1 x2 x3) := by
  unfold vWr
  split
  · rename_i v0 v1 e2
    have h3 : Good F P v1 := good_ofL e2 (spWriteAll_good ha)
    exact goodL_mk h3
  · rename_i v4 v5 v6 e7
    have h8 : Good F P v5 := good_ofL e7 (spWriteAll_good ha)
    exact goodL_mk h8
  · rename_i v9 v10 e11
    have h12 : Good F P v10 := good_ofL e11 (spWriteAll_good ha)
    exact goodL_mk h12

theorem freshen_good {x0 x1 x2 x3 x4} (ha : Good F P x0) : Good F P (freshen x0 x1 x2 x3 x4) := by
  unfold freshen
  exact State.modCore_good ha

theorem sharedPut_good {x0 x1 x2 x3 x4} (ha : Good F P x4) : Good F P (sharedPut x0 x1 x2 x3 x4) := by
  unfold sharedPut
  exact good_ite (fun y0 => ha) (fun y1 => State.onSharedMem_good (noteWrite_good (reachCluster_good ha)) (fun y2 y3 => wf_mwrite _ _ (by assumption)))

theorem sharedWrite_good {x0 x1 x2 x3 x4} (ha : Good F P x4) : Good F P (sharedWrite x0 x1 x2 x3 x4) := by
  unfold sharedWrite
  exact good_ite (fun y0 => ha) (fun y1 => sharedPut_good (freshen_good ha))

theorem gateCheck_good {x0 x1 x2} (ha : Good F P x0) : GoodL F P (gateCheck x0 x1 x2) := by
  unfold gateCheck
  split
  rename_i v0 v1 v2 e3
  have h4 : Good F P v1 := good_ofL e3 (by
      split
      · rename_i v5 v6 v7 e8
        have h9 : Good F P v6 := good_ofL e8 (vRd_good ha)
        exact goodL_mk h9
      · rename_i v10 v11 v12 e13
        have h14 : Good F P v11 := good_ofL e13 (vRd_good ha)
        exact goodL_mk h14)
  exact goodL_mk h4

theorem wqCheck_good {x0 x1 x2} (ha : Good F P x0) : GoodL F P (wqCheck x0 x1 x2) := by
  unfold wqCheck
  extract_lets -merge +onlyGivenNames s0
  clear_value s0
  extract_lets -merge +onlyGivenNames s1
  clear_value s1
  extract_lets -merge +onlyGivenNames s2
  extract_lets -merge +onlyGivenNames s3
  apply goodL_ite
  · intro y4
    split
    · rename_i v5 v6 e7
      have h8 : Good F P v6 := good_ofL e7 (gateCheck_good ha)
      exact goodL_mk h8
    · rename_i v9 v10 e11
      have h12 : Good F P v10 := good_ofL e11 (gateCheck_good ha)
      exact goodL_mk h12
  · exact fun y13 => goodL_ite (fun y14 => goodL_mk ha) (fun y15 => goodL_ite (fun y16 => goodL_mk ha) (fun y17 => goodL_mk ha))

theorem wicketEnd_good {x0} (ha : GoodL F P x0) : GoodL F P (wicketEnd x0) := by
  unfold wicketEnd
  split
  · rename_i v0 v1 v2
    exact goodL_mk (good_unL ha)
  · rename_i v3 v4 v5
    exact goodL_mk (good_unL ha)

theorem poisonOut_good {x0 x1 x2 x3 x4 x5} (ha : Good F P x5) : GoodL F P (poisonOut x0 x1 x2 x3 x4 x5) := by
  unfold poisonOut
  extract_lets -merge +onlyGivenNames s0
  have h1 : Good F P s0 := havocRanges_good ha
  clear_value s0
  split
  rename_i v2 v3 v4 e5
  have h6 : Good F P v3 := good_ofL e5 (vWr_good h1)
  exact goodL_ite (fun y7 => goodL_mk (State.delWlog_good h6)) (fun y8 => goodL_mk h6)

theorem gateRun_good {x0 x1 x2 x3} (ha : Good F P x3) : GoodL F P (gateRun x0 x1 x2 x3) := by
  unfold gateRun
  extract_lets -merge +onlyGivenNames s0
  clear_value s0
  extract_lets -merge +onlyGivenNames s1
  clear_value s1
  extract_lets -merge +onlyGivenNames s2
  clear_value s2
  extract_lets -merge +onlyGivenNames s3
  clear_value s3
  apply wicketEnd_good
  apply thenE_good
  · exact vRd_good ha
  · intro y4 y5 h6
    extract_lets -merge +onlyGivenNames s7
    clear_value s7
    apply goodL_ite
    · exact fun y8 => poisonOut_good h6
    · intro y9
      apply thenE_good
      · exact vRd_good h6
      · intro y10 y11 h12
        extract_lets -merge +onlyGivenNames s13
        clear_value s13
        apply goodL_ite
        · intro y14
          split
          rename_i v15 v16 v17 e18
          have h19 : Good F P v16 := good_ofL e18 (vWr_good h12)
          exact goodL_ite (fun y20 => goodL_mk h19) (fun y21 => goodL_mk (sharedWrite_good h19))
        · intro y22
          apply thenE_good
          · exact vRd_good h12
          · intro y23 y24 h25
            extract_lets -merge +onlyGivenNames s26
            clear_value s26
            extract_lets -merge +onlyGivenNames s27
            clear_value s27
            apply thenE_good
            · exact vRd_good h25
            · intro y28 y29 h30
              apply thenE_good
              · exact readIf_good h30
              · intro y31 y32 h33
                extract_lets -merge +onlyGivenNames s34
                clear_value s34
                extract_lets -merge +onlyGivenNames s35
                clear_value s35
                extract_lets -merge +onlyGivenNames s36
                clear_value s36
                extract_lets -merge +onlyGivenNames s37
                clear_value s37
                extract_lets -merge +onlyGivenNames s38
                clear_value s38
                extract_lets -merge +onlyGivenNames s39
                clear_value s39
                extract_lets -merge +onlyGivenNames s40
                clear_value s40
                extract_lets -merge +onlyGivenNames s41
                clear_value s41
                split
                rename_i v42 v43 v44 e45
                have h46 : Good F P v43 := good_ofL e45 (vWr_good h33)
                apply goodL_ite
                · exact fun y47 => goodL_mk h46
                · intro y48
                  extract_lets -merge +onlyGivenNames s49
                  have h50 : Good F P s49 := State.putArea_good h46
                  clear_value s49
                  exact goodL_mk (sharedWrite_good h50)

theorem readTags_good {x0 x1 x2 x3} (ha : Good F P x3) : GoodL F P (readTags x0 x1 x2 x3) := by
  unfold readTags
  split
  · rename_i v0 v1 v2 e3
    exact vRd_good ha
  · rename_i v4 e5
    split
    rename_i v6 v7 v8 e9
    have h10 : Good F P v8 := good_ofR e9 (State.fresh_good ha)
    exact goodL_mk h10

theorem readResults_good {x0 x1 x2 x3 x4 x5} (ha : Good F P x5) : GoodL F P (readResults x0 x1 x2 x3 x4 x5) := by
  induction x3 generalizing x0 x1 x2 x4 x5 with
  | nil =>
    rw [readResults]
    exact goodL_mk ha
  | cons a l ih =>
    obtain ⟨a, _ | _⟩ := a
    · rw [readResults]
      apply ih
      exact ha
    · rw [readResults]
      apply thenE_good
      · exact vRd_good ha
      · intro y0 y1 h2
        apply ih
        exact h2

theorem combineRun_good {x0 x1 x2 x3} (ha : Good F P x3) : GoodL F P (combineRun x0 x1 x2 x3) := by
  unfold combineRun
  extract_lets -merge +onlyGivenNames s0
  clear_value s0
  extract_lets -merge +onlyGivenNames s1
  clear_value s1
  extract_lets -merge +onlyGivenNames s2
  clear_value s2
  extract_lets -merge +onlyGivenNames s3
  clear_value s3
  extract_lets -merge +onlyGivenNames s4
  clear_value s4
  split
  · rename_i v5 v6 v7 e8
    have h9 : Good F P v6 := good_ofL e8 (vRd_good ha)
    exact goodL_mk h9
  · rename_i v10 v11 v12 e13
    have h14 : Good F P v11 := good_ofL e13 (vRd_good ha)
    extract_lets -merge +onlyGivenNames s15
    clear_value s15
    extract_lets -merge +onlyGivenNames s16
    clear_value s16
    apply wicketEnd_good
    apply thenE_good
    · exact readIf_good h14
    · intro y17 y18 h19
      extract_lets -merge +onlyGivenNames s20
      clear_value s20
      apply goodL_ite
      · exact fun y21 => poisonOut_good h19
      · intro y22
        apply thenE_good
        · exact vRd_good h19
        · intro y23 y24 h25
          apply thenE_good
          · exact readTags_good h25
          · intro y26 y27 h28
            extract_lets -merge +onlyGivenNames s29
            clear_value s29
            extract_lets -merge +onlyGivenNames s30
            clear_value s30
            apply thenE_good
            · exact readResults_good h28
            · intro y31 y32 h33
              apply thenE_good
              · exact readIf_good h33
              · intro y34 y35 h36
                extract_lets -merge +onlyGivenNames s37
                clear_value s37
                extract_lets -merge +onlyGivenNames s38
                clear_value s38
                extract_lets -merge +onlyGivenNames s39
                clear_value s39
                extract_lets -merge +onlyGivenNames s40
                clear_value s40
                extract_lets -merge +onlyGivenNames s41
                clear_value s41
                split
                rename_i v42 v43 v44 e45
                have h46 : Good F P v43 := good_ofL e45 (vWr_good h36)
                exact goodL_ite (fun y47 => goodL_mk h46) (fun y48 => goodL_mk h46)

theorem selectRun_good {x0 x1 x2 x3} (ha : Good F P x3) : GoodL F P (selectRun x0 x1 x2 x3) := by
  unfold selectRun
  extract_lets -merge +onlyGivenNames s0
  clear_value s0
  extract_lets -merge +onlyGivenNames s1
  clear_value s1
  extract_lets -merge +onlyGivenNames s2
  clear_value s2
  apply wicketEnd_good
  apply thenE_good
  · exact vRd_good ha
  · intro y3 y4 h5
    extract_lets -merge +onlyGivenNames s6
    clear_value s6
    apply goodL_ite
    · exact fun y7 => goodL_mk h5
    · intro y8
      apply thenE_good
      · exact vRd_good h5
      · intro y9 y10 h11
        extract_lets -merge +onlyGivenNames s12
        clear_value s12
        extract_lets -merge +onlyGivenNames s13
        clear_value s13
        extract_lets -merge +onlyGivenNames s14
        clear_value s14
        extract_lets -merge +onlyGivenNames s15
        clear_value s15
        split
        rename_i v16 v17 v18 e19
        have h20 : Good F P v17 := good_ofL e19 (vWr_good h11)
        exact goodL_ite (fun y21 => goodL_mk h20) (fun y22 => goodL_mk (sharedWrite_good h20))

theorem notePlace_good {x0 x1 x2 x3 x4 x5} (ha : Good F P x5) : Good F P (notePlace x0 x1 x2 x3 x4 x5) := by
  unfold notePlace
  exact State.modCas_good ha

theorem stepRun_good {x0 x1 x2 x3} (ha : Good F P x3) : GoodL F P (stepRun x0 x1 x2 x3) := by
  unfold stepRun
  extract_lets -merge +onlyGivenNames s0
  clear_value s0
  apply wicketEnd_good
  apply thenE_good
  · exact vRd_good ha
  · intro y1 y2 h3
    apply thenE_good
    · exact vRd_good h3
    · intro y4 y5 h6
      apply thenE_good
      · exact vRd_good h6
      · intro y7 y8 h9
        extract_lets -merge +onlyGivenNames s10
        clear_value s10
        extract_lets -merge +onlyGivenNames s11
        clear_value s11
        extract_lets -merge +onlyGivenNames s12
        clear_value s12
        extract_lets -merge +onlyGivenNames s13
        clear_value s13
        extract_lets -merge +onlyGivenNames s14
        clear_value s14
        extract_lets -merge +onlyGivenNames s15
        clear_value s15
        split
        rename_i v16 v17 v18 e19
        have h20 : Good F P v17 := good_ofL e19 (vWr_good h9)
        apply goodL_ite
        · exact fun y21 => goodL_mk h20
        · intro y22
          extract_lets -merge +onlyGivenNames s23
          have h24 : Good F P s23 := notePlace_good h20
          clear_value s23
          exact goodL_mk (sharedWrite_good h24)

end Sys2Proof.Machine
end

