-- ==== Sys2Proof/Laws/GoodLink.lean ====
section
/-! SUPPORT. What Machine/Link.lean leaves as it found it: from a good state every definition there gives a good state. -/

namespace Sys2Proof.Machine

variable {F : Fuse} {P : List Instr}

theorem sendVia_good {x0 x1 x2 x3} (ha : Good F P x3) : Good F P (sendVia x0 x1 x2 x3) := by
  unfold sendVia
  split
  · rename_i v0 v1 v2 v3 e4
    exact State.modPort_good ha
  · rename_i v5 e6
    exact ha

theorem sendFlit_good {x0 x1 x2} (ha : Good F P x2) : Good F P (sendFlit x0 x1 x2) := by
  unfold sendFlit
  exact sendVia_good ha

theorem setPort_good {x0 x1 x2} (ha : Good F P x2) : Good F P (setPort x0 x1 x2) := by
  unfold setPort
  extract_lets -merge +onlyGivenNames s0
  clear_value s0
  apply good_ite
  · exact fun y1 => ha
  · intro y2
    extract_lets -merge +onlyGivenNames s3
    have h4 : Good F P s3 := trace_good (State.modPort_good ha)
    clear_value s3
    exact good_ite (fun y5 => h4) (fun y6 => forEach_good h4 (fun y7 y8 h9 => sendFlit_good h9))

theorem servePort_good {x0 x1 x2} (ha : Good F P x2) : Good F P (servePort x0 x1 x2) := by
  induction x1 generalizing x0 x2 with
  | zero =>
    rw [servePort]
    exact ha
  | succ n ih =>
    rw [servePort]
    apply good_ite
    · exact fun y0 => ha
    · intro y1
      split
      · rename_i v2 e3
        exact ha
      · rename_i v4 v5 e6
        extract_lets -merge +onlyGivenNames s7
        clear_value s7
        extract_lets -merge +onlyGivenNames s8
        clear_value s8
        extract_lets -merge +onlyGivenNames s9
        have h10 : Good F P s9 := State.modPort_good ha
        clear_value s9
        apply ih
        exact State.onOut_good h10

theorem servePorts_good {x0} (ha : Good F P x0) : Good F P (servePorts x0) := by
  unfold servePorts
  exact forEach_good ha (fun y0 y1 h2 => servePort_good h2)

theorem portAck_good {x0 x1 x2} (ha : Good F P x2) : Good F P (portAck x0 x1 x2) := by
  unfold portAck
  exact State.modPort_good ha

theorem linkSend_good {x0 x1 x2} (ha : Good F P x2) : Good F P (linkSend x0 x1 x2) := by
  unfold linkSend
  exact State.onOut_good ha

theorem identAll_good {x0} (ha : Good F P x0) : Good F P (identAll x0) := by
  unfold identAll
  exact forEach_good ha (fun y0 y1 h2 => good_ite (fun y3 => linkSend_good h2) (fun y4 => h2))

theorem sendMsgV_good {x0 x1 x2 x3} (ha : Good F P x3) : Good F P (sendMsgV x0 x1 x2 x3) := by
  unfold sendMsgV
  extract_lets -merge +onlyGivenNames s0
  clear_value s0
  extract_lets -merge +onlyGivenNames s1
  clear_value s1
  extract_lets -merge +onlyGivenNames s2
  have h3 : Good F P s2 := forEach_good ha (fun y4 y5 h6 => sendFlit_good h6)
  clear_value s2
  exact State.onOut_good (State.onFab_good h3)

theorem sendMsg_good {x0 x1 x2} (ha : Good F P x2) : Good F P (sendMsg x0 x1 x2) := by
  unfold sendMsg
  exact sendMsgV_good ha

end Sys2Proof.Machine
end

