-- ==== Sys2Proof/Laws/GoodMullion.lean ====
section
/-! SUPPORT. What Machine/Mullion.lean leaves as it found it: from a good state every definition there gives a good state. -/

namespace Sys2Proof.Machine

variable {F : Fuse} {P : List Instr}

theorem endCmd_good {x0 x1 x2 x3} (ha : Good F P x3) : Good F P (endCmd x0 x1 x2 x3) := by
  unfold endCmd
  exact State.modCore_good ha

theorem collEnd_good {x0 x1 x2} (ha : Good F P x2) : Good F P (collEnd x0 x1 x2) := by
  unfold collEnd
  split
  · rename_i v0 e1
    exact ha
  · rename_i v2 v3 e4
    extract_lets -merge +onlyGivenNames s5
    have h6 : Good F P s5 := endCmd_good ha
    clear_value s5
    exact good_ite (fun y7 => State.updColl_good h6) (fun y8 => State.delColl_good h6)

theorem collStop_good {x0 x1 x2} (ha : Good F P x2) : Good F P (collStop x0 x1 x2) := by
  unfold collStop
  split
  · rename_i v0 e1
    exact ha
  · rename_i v2 v3 e4
    extract_lets -merge +onlyGivenNames s5
    clear_value s5
    extract_lets -merge +onlyGivenNames s6
    clear_value s6
    exact collEnd_good (good_ite (fun y7 => ha) (fun y8 => havocRanges_good ha))

theorem relimit_good {x0} (ha : Good F P x0) : Good F P (relimit x0) := by
  unfold relimit
  exact State.onColl_good ha

theorem postStep_good {x0 x1 x2} (ha : Good F P x2) : Good F P (postStep x0 x1 x2) := by
  unfold postStep
  apply good_ite
  · exact fun y0 => ha
  · intro y1
    extract_lets -merge +onlyGivenNames s2
    clear_value s2
    exact forEach_good ha (fun y3 y4 h5 => sendVia_good h5)

theorem collFinish_good {x0 x1 x2} (ha : Good F P x2) : Good F P (collFinish x0 x1 x2) := by
  unfold collFinish
  split
  rename_i v0 v1 v2 e3
  have h4 : Good F P v1 := good_ofL e3 (vWr_good ha)
  exact good_ite (fun y5 => collEnd_good h4) (fun y6 => collStop_good h4)

theorem collAdvance_good {x0 x1 x2} (ha : Good F P x2) : Good F P (collAdvance x0 x1 x2) := by
  induction x1 generalizing x0 x2 with
  | zero =>
    rw [collAdvance]
    exact ha
  | succ n ih =>
    rw [collAdvance]
    split
    · rename_i v0 e1
      exact ha
    · rename_i v2 v3 e4
      apply good_ite
      · exact fun y5 => ha
      · intro y6
        split
        · rename_i v7 e8
          exact collFinish_good ha
        · rename_i v9 v10 e11
          extract_lets -merge +onlyGivenNames s12
          have h13 : Good F P s12 := good_ite (fun y14 => ha) (fun y15 => State.updColl_good (postStep_good ha))
          clear_value s12
          apply good_ite
          · intro y16
            apply ih
            exact State.updColl_good h13
          · exact fun y17 => h13

theorem sendRow_good {x0 x1 x2 x3 x4 x5 x6 x7 x8} (ha : Good F P x8) : Good F P (sendRow x0 x1 x2 x3 x4 x5 x6 x7 x8) := by
  unfold sendRow
  exact forEach_good ha (fun y0 y1 h2 => sendFlit_good h2)

theorem sendTokens_good {x0 x1 x2} (ha : Good F P x2) : GoodL F P (sendTokens x0 x1 x2) := by
  induction x1 generalizing x0 x2 with
  | nil =>
    rw [sendTokens]
    exact goodL_mk ha
  | cons a l ih =>
    obtain ⟨a, bs⟩ := a
    rw [sendTokens]
    split
    · rename_i v0 v1 v2 e3
      have h4 : Good F P v1 := good_ofL e3 (vRd_good ha)
      exact goodL_mk h4
    · rename_i v5 v6 v7 e8
      have h9 : Good F P v6 := good_ofL e8 (vRd_good ha)
      apply ih
      exact sendRow_good h9

theorem dispatchSend_good {x0 x1 x2} (ha : Good F P x2) : GoodL F P (dispatchSend x0 x1 x2) := by
  unfold dispatchSend
  split
  · rename_i v0 v1 v2 e3
    have h4 : Good F P v1 := good_ofL e3 (vRd_good ha)
    exact goodL_mk h4
  · rename_i v5 v6 v7 e8
    have h9 : Good F P v6 := good_ofL e8 (vRd_good ha)
    extract_lets -merge +onlyGivenNames s10
    clear_value s10
    split
    · rename_i v11 v12 v13 e14
      have h15 : Good F P v12 := good_ofL e14 (vRd_good h9)
      exact goodL_mk h15
    · rename_i v16 v17 v18 e19
      have h20 : Good F P v17 := good_ofL e19 (vRd_good h9)
      extract_lets -merge +onlyGivenNames s21
      clear_value s21
      split
      · rename_i v22 v23 v24 e25
        have h26 : Good F P v23 := good_ofL e25 (by
            split
            · rename_i v27 v28 v29
              exact vRd_good h20
            · rename_i v30
              exact goodL_mk h20)
        exact goodL_mk h26
      · rename_i v31 v32 v33 e34
        have h35 : Good F P v32 := good_ofL e34 (by
            split
            · rename_i v36 v37 v38
              exact vRd_good h20
            · rename_i v39
              exact goodL_mk h20)
        extract_lets -merge +onlyGivenNames s40
        clear_value s40
        extract_lets -merge +onlyGivenNames s41
        clear_value s41
        extract_lets -merge +onlyGivenNames s42
        clear_value s42
        extract_lets -merge +onlyGivenNames s43
        have h44 : Good F P s43 := by
          unfold s43
          apply forEach_good
          · exact h35
          · intro y45 y46 h47
            extract_lets -merge +onlyGivenNames s48
            clear_value s48
            extract_lets -merge +onlyGivenNames s49
            clear_value s49
            exact sendFlit_good h47
        clear_value s43
        extract_lets -merge +onlyGivenNames s50
        have h51 : Good F P s50 := State.updColl_good h44
        clear_value s50
        exact sendTokens_good h51

theorem landRows_good {x0 x1 x2} (ha : Good F P x2) : GoodL F P (landRows x0 x1 x2) := by
  unfold landRows
  split
  · rename_i v0 v1 v2 e3
    have h4 : Good F P v1 := good_ofL e3 (vRd_good ha)
    exact goodL_mk h4
  · rename_i v5 v6 v7 e8
    have h9 : Good F P v6 := good_ofL e8 (vRd_good ha)
    extract_lets -merge +onlyGivenNames s10
    clear_value s10
    extract_lets -merge +onlyGivenNames s11
    clear_value s11
    extract_lets -merge +onlyGivenNames s12
    clear_value s12
    extract_lets -merge +onlyGivenNames s13
    clear_value s13
    extract_lets -merge +onlyGivenNames s14
    clear_value s14
    extract_lets -merge +onlyGivenNames s15
    clear_value s15
    extract_lets -merge +onlyGivenNames s16
    clear_value s16
    extract_lets -merge +onlyGivenNames s17
    clear_value s17
    extract_lets -merge +onlyGivenNames s18
    clear_value s18
    extract_lets -merge +onlyGivenNames s19
    clear_value s19
    split
    rename_i v20 v21 v22 e23
    have h24 : Good F P v21 := good_ofL e23 (vWr_good h9)
    exact goodL_ite (fun y25 => goodL_mk h24) (fun y26 => goodL_mk (sharedWrite_good h24))

theorem dispatchAdvance_good {x0 x1} (ha : Good F P x1) : Good F P (dispatchAdvance x0 x1) := by
  unfold dispatchAdvance
  split
  · rename_i v0 e1
    exact ha
  · rename_i v2 v3 e4
    apply good_ite
    · exact fun y5 => ha
    · intro y6
      split
      rename_i v7 v8 v9 e10
      have h11 : Good F P v8 := good_ofL e10 (landRows_good ha)
      exact good_ite (fun y12 => collEnd_good h11) (fun y13 => collStop_good h11)

theorem returnRowsGo_good {x0 x1 x2 x3} (ha : Good F P x3) : GoodL F P (returnRowsGo x0 x1 x2 x3) := by
  induction x2 generalizing x0 x1 x3 with
  | nil =>
    rw [returnRowsGo]
    exact goodL_mk ha
  | cons a l ih =>
    rw [returnRowsGo]
    split
    · rename_i v0 v1 v2 e3
      have h4 : Good F P v1 := good_ofL e3 (vRd_good ha)
      exact goodL_mk h4
    · rename_i v5 v6 v7 e8
      have h9 : Good F P v6 := good_ofL e8 (vRd_good ha)
      extract_lets -merge +onlyGivenNames s10
      clear_value s10
      apply ih
      exact sendRow_good h9

theorem returnSend_good {x0 x1} (ha : Good F P x1) : GoodL F P (returnSend x0 x1) := by
  unfold returnSend
  split
  · rename_i v0 v1 v2 e3
    have h4 : Good F P v1 := good_ofL e3 (vRd_good ha)
    exact goodL_mk h4
  · rename_i v5 v6 v7 e8
    have h9 : Good F P v6 := good_ofL e8 (vRd_good ha)
    extract_lets -merge +onlyGivenNames s10
    clear_value s10
    extract_lets -merge +onlyGivenNames s11
    clear_value s11
    split
    · rename_i v12 v13 v14 e15
      have h16 : Good F P v13 := good_ofL e15 (vRd_good h9)
      exact goodL_mk h16
    · rename_i v17 v18 v19 e20
      have h21 : Good F P v18 := good_ofL e20 (vRd_good h9)
      extract_lets -merge +onlyGivenNames s22
      have h23 : Good F P s22 := by
        unfold s22
        apply forEach_good
        · exact h21
        · intro y24 y25 h26
          extract_lets -merge +onlyGivenNames s27
          clear_value s27
          exact sendFlit_good h26
      clear_value s22
      exact returnRowsGo_good h23

theorem landReturn_good {x0 x1 x2 x3 x4 x5} (ha : Good F P x5) : GoodL F P (landReturn x0 x1 x2 x3 x4 x5) := by
  unfold landReturn
  split
  · rename_i v0 v1 v2 e3
    have h4 : Good F P v1 := good_ofL e3 (vRd_good ha)
    exact goodL_mk h4
  · rename_i v5 v6 v7 e8
    have h9 : Good F P v6 := good_ofL e8 (vRd_good ha)
    extract_lets -merge +onlyGivenNames s10
    clear_value s10
    extract_lets -merge +onlyGivenNames s11
    clear_value s11
    apply goodL_ite
    · intro y12
      extract_lets -merge +onlyGivenNames s13
      clear_value s13
      exact vWr_good h9
    · exact fun y14 => vWr_good h9

theorem returnLand_good {x0 x1 x2 x3 x4} (ha : Good F P x4) : GoodL F P (returnLand x0 x1 x2 x3 x4) := by
  induction x3 generalizing x0 x1 x2 x4 with
  | nil =>
    rw [returnLand]
    exact goodL_mk ha
  | cons a l ih =>
    rw [returnLand]
    split
    rename_i v0 v1 v2 e3
    have h4 : Good F P v1 := good_ofL e3 (landReturn_good ha)
    apply goodL_ite
    · exact fun y5 => goodL_mk h4
    · intro y6
      extract_lets -merge +onlyGivenNames s7
      have h8 : Good F P s7 := State.updColl_good h4
      clear_value s7
      apply ih
      exact State.updColl_good h8

theorem returnAdvance_good {x0 x1} (ha : Good F P x1) : Good F P (returnAdvance x0 x1) := by
  unfold returnAdvance
  split
  · rename_i v0 e1
    exact ha
  · rename_i v2 v3 e4
    apply good_ite
    · exact fun y5 => ha
    · intro y6
      extract_lets -merge +onlyGivenNames s7
      clear_value s7
      split
      rename_i v8 v9 v10 e11
      have h12 : Good F P v9 := good_ofL e11 (returnLand_good ha)
      apply good_ite
      · exact fun y13 => collStop_good h12
      · intro y14
        split
        · rename_i v15 e16
          exact h12
        · rename_i v17 v18 e19
          exact good_ite (fun y20 => State.delColl_good (collEnd_good h12)) (fun y21 => h12)

theorem collGo.returnOrNot_good {x0 x1 x2} (ha : Good F P x1) : Good F P (collGo.returnOrNot x0 x1 x2) := by
  unfold collGo.returnOrNot
  split
  · rename_i v0 e1
    exact ha
  · rename_i v2 v3 e4
    exact good_ite (fun y5 => dispatchAdvance_good ha) (fun y6 => good_ite (fun y7 => returnAdvance_good ha) (fun y8 => collAdvance_good ha))

theorem collGo_good {x0 x1 x2} (ha : Good F P x2) : Good F P (collGo x0 x1 x2) := by
  induction x1 generalizing x0 x2 with
  | zero =>
    rw [collGo]
    exact ha
  | succ n ih =>
    rw [collGo]
    split
    · rename_i v0 e1
      exact collGo.returnOrNot_good ha
    · rename_i v2 v3 e4
      split
      · rename_i v5 e6
        exact collGo.returnOrNot_good ha
      · rename_i v7 v8 e9
        apply ih
        exact State.updColl_good (State.onFab_good (collGo.returnOrNot_good ha))

theorem collPump_good {x0 x1} (ha : Good F P x1) : Good F P (collPump x0 x1) := by
  unfold collPump
  exact attempt_good (fun y0 h1 => collGo_good h1) ha

theorem collPumpAll_good {x0} (ha : Good F P x0) : Good F P (collPumpAll x0) := by
  unfold collPumpAll
  exact forEach_good ha (fun y0 y1 h2 => collPump_good h2)

theorem flitIn_good {x0 x1 x2} (ha : Good F P x2) : Good F P (flitIn x0 x1 x2) := by
  unfold flitIn
  apply good_ite
  · intro y0
    extract_lets -merge +onlyGivenNames s1
    have h2 : Good F P s1 := State.onFab_good ha
    clear_value s1
    split
    · rename_i v3 v4 e5
      exact collPump_good h2
    · rename_i v6 e7
      exact h2
  · exact fun y8 => ha

theorem sinkRow_good {x0 x1} (ha : Good F P x1) : Good F P (sinkRow x0 x1) := by
  unfold sinkRow
  split
  · rename_i v0 e1
    exact ha
  · rename_i v2 v3 e4
    apply attempt_good
    · intro y5 h6
      extract_lets -merge +onlyGivenNames s7
      have h8 : Good F P s7 := State.onFab_good h6
      clear_value s7
      apply good_ite
      · exact fun y9 => h8
      · intro y10
        split
        · rename_i v11 e12
          exact h8
        · rename_i v13 v14 e15
          split
          · rename_i v16 v17 v18 e19
            have h20 : Good F P v17 := good_ofL e19 (vRd_good h8)
            exact State.updColl_good h20
          · rename_i v21 v22 v23 e24
            have h25 : Good F P v22 := good_ofL e24 (vRd_good h8)
            exact State.updColl_good (good_fst (vWr_good h25))
    · exact ha

theorem sinkRows_good {x0} (ha : Good F P x0) : Good F P (sinkRows x0) := by
  unfold sinkRows
  exact forEach_good ha (fun y0 y1 h2 => sinkRow_good h2)

theorem collStart_good {x0 x1 x2 x3 x4} (ha : Good F P x4) : Good F P (collStart x0 x1 x2 x3 x4) := by
  unfold collStart
  split
  · rename_i v0 e1
    exact endCmd_good ha
  · rename_i v2 v3 e4
    apply good_ite
    · exact fun y5 => endCmd_good ha
    · intro y6
      extract_lets -merge +onlyGivenNames s7
      clear_value s7
      extract_lets -merge +onlyGivenNames s8
      have h9 : Good F P s8 := State.onFab_good ha
      clear_value s8
      extract_lets -merge +onlyGivenNames s10
      clear_value s10
      extract_lets -merge +onlyGivenNames s11
      clear_value s11
      extract_lets -merge +onlyGivenNames s12
      clear_value s12
      extract_lets -merge +onlyGivenNames s13
      apply good_ite
      · intro y14
        split
        rename_i v15 v16 v17 e18
        have h19 : Good F P v16 := good_ofL e18 (dispatchSend_good (State.putColl_good h9))
        apply good_ite
        · intro y20
          unfold s13
          exact collGo_good h19
        · exact fun y21 => collStop_good h19
      · intro y22
        apply good_ite
        · intro y23
          extract_lets -merge +onlyGivenNames s24
          clear_value s24
          split
          rename_i v25 v26 v27 e28
          have h29 : Good F P v26 := good_ofL e28 (returnSend_good (State.putColl_good h9))
          apply good_ite
          · intro y30
            unfold s13
            exact collGo_good h29
          · exact fun y31 => collStop_good h29
        · intro y32
          extract_lets -merge +onlyGivenNames s33
          clear_value s33
          split
          · rename_i v34 v35 v36 e37
            have h38 : Good F P v35 := good_ofL e37 (vRd_good h9)
            exact collStop_good (State.putColl_good h38)
          · rename_i v39 v40 v41 e42
            have h43 : Good F P v40 := good_ofL e42 (vRd_good h9)
            extract_lets -merge +onlyGivenNames s44
            clear_value s44
            unfold s13
            exact collGo_good (State.putColl_good h43)

theorem collTimeout_good {x0 x1} (ha : Good F P x1) : Good F P (collTimeout x0 x1) := by
  unfold collTimeout
  split
  · rename_i v0 e1
    exact ha
  · rename_i v2 v3 e4
    exact good_ite (fun y5 => ha) (fun y6 => collStop_good ha)

end Sys2Proof.Machine
end

