-- ==== Sys2Proof/Laws/GoodFront.lean ====
section
/-! SUPPORT. What Machine/Front.lean leaves as it found it: from a good state every definition there gives a good state. -/

namespace Sys2Proof.Machine

variable {F : Fuse} {P : List Instr}

theorem pushCheck_good {x0 x1 x2 x3 x4} (ha : Good F P x0) : GoodL F P (pushCheck x0 x1 x2 x3 x4) := by
  unfold pushCheck
  extract_lets -merge +onlyGivenNames s0
  clear_value s0
  apply goodL_ite
  · exact fun y1 => goodL_mk ha
  · intro y2
    apply goodL_ite
    · exact fun y3 => goodL_mk ha
    · intro y4
      split
      · rename_i v5 v6 e7
        exact goodL_mk ha
      · rename_i v8 e9
        exact goodL_ite (fun y10 => goodL_mk ha) (fun y11 => goodL_ite (fun y12 => goodL_mk ha) (fun y13 => goodL_ite (fun y14 => goodL_mk ha) (fun y15 => goodL_ite (fun y16 => wqCheck_good ha) (fun y17 => goodL_mk ha))))

theorem countPush_good {x0 x1 x2} (ha : Good F P x2) : Good F P (countPush x0 x1 x2) := by
  unfold countPush
  exact State.modCore_good ha

theorem wakeUnit_good {x0 x1 x2} (ha : Good F P x2) : Good F P (wakeUnit x0 x1 x2) := by
  unfold wakeUnit
  split
  · rename_i v0 v1 e2
    exact wakeFor_good ha
  · rename_i v3 e4
    exact ha

theorem skipPush_good {x0 x1 x2 x3 x4} (ha : Good F P x4) : Good F P (skipPush x0 x1 x2 x3 x4) := by
  unfold skipPush
  extract_lets -merge +onlyGivenNames s0
  clear_value s0
  apply good_ite
  · intro y1
    extract_lets -merge +onlyGivenNames s2
    have h3 : Good F P s2 := countPush_good ha
    clear_value s2
    exact logSkip_good h3
  · intro y4
    split
    rename_i v5 v6 v7 e8
    have h9 : Good F P v7 := good_ofR e8 (State.newUid_good ha)
    exact State.modCore_good h9

theorem enqueue_good {x0 x1 x2 x3 x4 x5 x6 x7} (ha : Good F P x7) : Good F P (enqueue x0 x1 x2 x3 x4 x5 x6 x7) := by
  unfold enqueue
  extract_lets -merge +onlyGivenNames s0
  clear_value s0
  split
  rename_i v1 v2 v3 e4
  have h5 : Good F P v3 := good_ofR e4 (State.newUid_good ha)
  extract_lets -merge +onlyGivenNames s6
  have h7 : Good F P s6 := good_ite (fun y8 => countPush_good h5) (fun y9 => h5)
  clear_value s6
  extract_lets -merge +onlyGivenNames s10
  clear_value s10
  extract_lets -merge +onlyGivenNames s11
  have h12 : Good F P s11 := State.modCore_good h7
  clear_value s11
  exact good_ite (fun y13 => forEach_good h12 (fun y14 y15 h16 => State.modTile_good h16)) (fun y17 => h12)

theorem confirmOne_good {x0 x1 x2} (ha : Good F P x2) : Good F P (confirmOne x0 x1 x2) := by
  unfold confirmOne
  split
  · rename_i v0 v1
    extract_lets -merge +onlyGivenNames s2
    have h3 : Good F P s2 := countPush_good ha
    clear_value s2
    exact State.modCore_good h3
  · rename_i v4 v5
    extract_lets -merge +onlyGivenNames s6
    have h7 : Good F P s6 := countPush_good ha
    clear_value s6
    exact logSkip_good h7

theorem confirmBrl_good {x0 x1 x2} (ha : Good F P x2) : Good F P (confirmBrl x0 x1 x2) := by
  unfold confirmBrl
  extract_lets -merge +onlyGivenNames s0
  clear_value s0
  extract_lets -merge +onlyGivenNames s1
  extract_lets -merge +onlyGivenNames s2
  clear_value s2
  extract_lets -merge +onlyGivenNames s3
  clear_value s3
  extract_lets -merge +onlyGivenNames s4
  have h5 : Good F P s4 := State.modCore_good ha
  clear_value s4
  exact forEach_good h5 (fun y6 y7 h8 => confirmOne_good h8)

theorem mispredict_good {x0 x1 x2 x3} (ha : Good F P x3) : Good F P (mispredict x0 x1 x2 x3) := by
  unfold mispredict
  extract_lets -merge +onlyGivenNames s0
  have h1 : Good F P s0 := cancelSpec_good ha
  clear_value s0
  exact State.modCore_good h1

theorem resolveBrl_good {x0 x1} (ha : Good F P x1) : Good F P (resolveBrl x0 x1) := by
  unfold resolveBrl
  split
  · rename_i v0 e1
    exact ha
  · rename_i v2 v3 e4
    apply good_ite
    · exact fun y5 => stopRun_good (cancelSpec_good ha)
    · intro y6
      extract_lets -merge +onlyGivenNames s7
      clear_value s7
      exact good_ite (fun y8 => confirmBrl_good ha) (fun y9 => mispredict_good ha)

end Sys2Proof.Machine
end

