-- ==== Sys2Proof/Laws/GoodCoreInstr.lean ====
section
/-! SUPPORT. What Machine/CoreInstr.lean leaves as it found it: from a good state every definition there gives a good state. -/

namespace Sys2Proof.Machine

variable {F : Fuse} {P : List Instr}

theorem skipInstr_good {x0 x1 x2 x3} (ha : Good F P x3) : Good F P (skipInstr x0 x1 x2 x3) := by
  unfold skipInstr
  extract_lets -merge +onlyGivenNames s0
  clear_value s0
  exact logSkip_good (State.modCore_good ha)

theorem instrStep_good {x0 x1 x2 x3 x4 x5 x6} (ha : ∀ ya, Good F P ya → Good F P (x5 ya)) (hb : Good F P x6) : Good F P (instrStep x0 x1 x2 x3 x4 x5 x6) := by
  unfold instrStep
  apply good_ite
  · exact fun y0 => hb
  · intro y1
    extract_lets -merge +onlyGivenNames s2
    clear_value s2
    apply good_ite
    · exact fun y3 => State.modCore_good hb
    · intro y4
      split
      · rename_i v5 v6
        exact good_ite (fun y7 => skipInstr_good hb) (fun y8 => hb)
      · rename_i v9
        apply good_ite
        · exact fun y10 => hb
        · intro y11
          apply ha
          exact hb

theorem coreEff_good {x0 x1 x2} (ha : Good F P x2) : Good F P (coreEff x0 x1 x2) := by
  unfold coreEff
  exact State.modCore_good ha

theorem alu3_good {x0 x1 x2 x3 x4} (ha : Good F P x4) : Good F P (alu3 x0 x1 x2 x3 x4) := by
  unfold alu3
  exact instrStep_good (fun y0 h1 => coreEff_good h1) ha

theorem aluI_good {x0 x1 x2 x3 x4 x5} (ha : Good F P x5) : Good F P (aluI x0 x1 x2 x3 x4 x5) := by
  unfold aluI
  exact instrStep_good (fun y0 h1 => coreEff_good h1) ha

theorem execAdd_good {x0 x1 x2} (ha : Good F P x2) : GoodN F P (execAdd x0 x1 x2) := by
  unfold execAdd
  exact goodN_next (alu3_good ha)

theorem execSub_good {x0 x1 x2} (ha : Good F P x2) : GoodN F P (execSub x0 x1 x2) := by
  unfold execSub
  exact goodN_next (alu3_good ha)

theorem execMul_good {x0 x1 x2} (ha : Good F P x2) : GoodN F P (execMul x0 x1 x2) := by
  unfold execMul
  exact goodN_next (alu3_good ha)

theorem execShl_good {x0 x1 x2} (ha : Good F P x2) : GoodN F P (execShl x0 x1 x2) := by
  unfold execShl
  exact goodN_next (alu3_good ha)

theorem execShr_good {x0 x1 x2} (ha : Good F P x2) : GoodN F P (execShr x0 x1 x2) := by
  unfold execShr
  exact goodN_next (alu3_good ha)

theorem execSra_good {x0 x1 x2} (ha : Good F P x2) : GoodN F P (execSra x0 x1 x2) := by
  unfold execSra
  exact goodN_next (alu3_good ha)

theorem execAndB_good {x0 x1 x2} (ha : Good F P x2) : GoodN F P (execAndB x0 x1 x2) := by
  unfold execAndB
  exact goodN_next (alu3_good ha)

theorem execOrB_good {x0 x1 x2} (ha : Good F P x2) : GoodN F P (execOrB x0 x1 x2) := by
  unfold execOrB
  exact goodN_next (alu3_good ha)

theorem execXorB_good {x0 x1 x2} (ha : Good F P x2) : GoodN F P (execXorB x0 x1 x2) := by
  unfold execXorB
  exact goodN_next (alu3_good ha)

theorem execMinS_good {x0 x1 x2} (ha : Good F P x2) : GoodN F P (execMinS x0 x1 x2) := by
  unfold execMinS
  exact goodN_next (alu3_good ha)

theorem execMaxS_good {x0 x1 x2} (ha : Good F P x2) : GoodN F P (execMaxS x0 x1 x2) := by
  unfold execMaxS
  exact goodN_next (alu3_good ha)

theorem execMinu_good {x0 x1 x2} (ha : Good F P x2) : GoodN F P (execMinu x0 x1 x2) := by
  unfold execMinu
  exact goodN_next (alu3_good ha)

theorem execMaxu_good {x0 x1 x2} (ha : Good F P x2) : GoodN F P (execMaxu x0 x1 x2) := by
  unfold execMaxu
  exact goodN_next (alu3_good ha)

theorem execAddi_good {x0 x1 x2} (ha : Good F P x2) : GoodN F P (execAddi x0 x1 x2) := by
  unfold execAddi
  exact goodN_next (aluI_good ha)

theorem execSubi_good {x0 x1 x2} (ha : Good F P x2) : GoodN F P (execSubi x0 x1 x2) := by
  unfold execSubi
  exact goodN_next (aluI_good ha)

theorem execMuli_good {x0 x1 x2} (ha : Good F P x2) : GoodN F P (execMuli x0 x1 x2) := by
  unfold execMuli
  exact goodN_next (aluI_good ha)

theorem execShli_good {x0 x1 x2} (ha : Good F P x2) : GoodN F P (execShli x0 x1 x2) := by
  unfold execShli
  exact goodN_next (aluI_good ha)

theorem execShri_good {x0 x1 x2} (ha : Good F P x2) : GoodN F P (execShri x0 x1 x2) := by
  unfold execShri
  exact goodN_next (aluI_good ha)

theorem execSrai_good {x0 x1 x2} (ha : Good F P x2) : GoodN F P (execSrai x0 x1 x2) := by
  unfold execSrai
  exact goodN_next (aluI_good ha)

theorem execAndi_good {x0 x1 x2} (ha : Good F P x2) : GoodN F P (execAndi x0 x1 x2) := by
  unfold execAndi
  exact goodN_next (aluI_good ha)

theorem execOri_good {x0 x1 x2} (ha : Good F P x2) : GoodN F P (execOri x0 x1 x2) := by
  unfold execOri
  exact goodN_next (aluI_good ha)

theorem execXori_good {x0 x1 x2} (ha : Good F P x2) : GoodN F P (execXori x0 x1 x2) := by
  unfold execXori
  exact goodN_next (aluI_good ha)

theorem execMini_good {x0 x1 x2} (ha : Good F P x2) : GoodN F P (execMini x0 x1 x2) := by
  unfold execMini
  exact goodN_next (aluI_good ha)

theorem execMaxi_good {x0 x1 x2} (ha : Good F P x2) : GoodN F P (execMaxi x0 x1 x2) := by
  unfold execMaxi
  exact goodN_next (aluI_good ha)

theorem execMinui_good {x0 x1 x2} (ha : Good F P x2) : GoodN F P (execMinui x0 x1 x2) := by
  unfold execMinui
  exact goodN_next (aluI_good ha)

theorem execMaxui_good {x0 x1 x2} (ha : Good F P x2) : GoodN F P (execMaxui x0 x1 x2) := by
  unfold execMaxui
  exact goodN_next (aluI_good ha)

theorem execMovi_good {x0 x1 x2} (ha : Good F P x2) : GoodN F P (execMovi x0 x1 x2) := by
  unfold execMovi
  exact goodN_next (instrStep_good (fun y0 h1 => coreEff_good h1) ha)

theorem execMovhi_good {x0 x1 x2} (ha : Good F P x2) : GoodN F P (execMovhi x0 x1 x2) := by
  unfold execMovhi
  exact goodN_next (instrStep_good (fun y0 h1 => coreEff_good h1) ha)

theorem execGset_good {x0 x1 x2} (ha : Good F P x2) : GoodN F P (execGset x0 x1 x2) := by
  unfold execGset
  extract_lets -merge +onlyGivenNames s0
  clear_value s0
  extract_lets -merge +onlyGivenNames s1
  clear_value s1
  extract_lets -merge +onlyGivenNames s2
  clear_value s2
  exact goodN_next (instrStep_good (fun y3 h4 => coreEff_good h4) ha)

theorem execGnext_good {x0 x1 x2} (ha : Good F P x2) : GoodN F P (execGnext x0 x1 x2) := by
  unfold execGnext
  extract_lets -merge +onlyGivenNames s0
  clear_value s0
  exact goodN_next (instrStep_good (fun y1 h2 => coreEff_good h2) ha)

theorem execGreset_good {x0 x1 x2} (ha : Good F P x2) : GoodN F P (execGreset x0 x1 x2) := by
  unfold execGreset
  extract_lets -merge +onlyGivenNames s0
  clear_value s0
  exact goodN_next (instrStep_good (fun y1 h2 => coreEff_good h2) ha)

theorem execLoopOp_good {x0 x1 x2} (ha : Good F P x2) : GoodN F P (execLoopOp x0 x1 x2) := by
  unfold execLoopOp
  extract_lets -merge +onlyGivenNames s0
  clear_value s0
  extract_lets -merge +onlyGivenNames s1
  clear_value s1
  extract_lets -merge +onlyGivenNames s2
  clear_value s2
  exact goodN_next (instrStep_good (fun y3 h4 => State.modCore_good h4) ha)

theorem execCmp_good {x0 x1 x2} (ha : Good F P x2) : GoodN F P (execCmp x0 x1 x2) := by
  unfold execCmp
  exact goodN_next (instrStep_good (fun y0 h1 => coreEff_good h1) ha)

theorem execCmpi_good {x0 x1 x2} (ha : Good F P x2) : GoodN F P (execCmpi x0 x1 x2) := by
  unfold execCmpi
  exact goodN_next (instrStep_good (fun y0 h1 => coreEff_good h1) ha)

theorem execPand_good {x0 x1 x2} (ha : Good F P x2) : GoodN F P (execPand x0 x1 x2) := by
  unfold execPand
  exact goodN_next (instrStep_good (fun y0 h1 => coreEff_good h1) ha)

theorem execPor_good {x0 x1 x2} (ha : Good F P x2) : GoodN F P (execPor x0 x1 x2) := by
  unfold execPor
  exact goodN_next (instrStep_good (fun y0 h1 => coreEff_good h1) ha)

theorem execPnot_good {x0 x1 x2} (ha : Good F P x2) : GoodN F P (execPnot x0 x1 x2) := by
  unfold execPnot
  exact goodN_next (instrStep_good (fun y0 h1 => coreEff_good h1) ha)

theorem execBr_good {x0 x1 x2} (ha : Good F P x2) : GoodN F P (execBr x0 x1 x2) := by
  unfold execBr
  exact goodN_next (instrStep_good (fun y0 h1 => State.modCore_good h1) ha)

theorem brlEff_good {x0 x1 x2} (ha : Good F P x2) : Good F P (brlEff x0 x1 x2) := by
  unfold brlEff
  extract_lets -merge +onlyGivenNames s0
  clear_value s0
  extract_lets -merge +onlyGivenNames s1
  clear_value s1
  extract_lets -merge +onlyGivenNames s2
  clear_value s2
  extract_lets -merge +onlyGivenNames s3
  clear_value s3
  extract_lets -merge +onlyGivenNames s4
  clear_value s4
  extract_lets -merge +onlyGivenNames s5
  apply good_ite
  · exact fun y6 => ha
  · intro y7
    split
    · rename_i v8 e9
      exact stopRun_good (cancelSpec_good ha)
    · rename_i v10 e11
      unfold s5
      exact State.modCore_good ha
    · rename_i v12 e13
      split
      rename_i v14 v15 v16 e17
      have h18 : Good F P v16 := good_ofR e17 (State.newUid_good ha)
      unfold s5
      exact State.modCore_good (State.modCore_good h18)

theorem execBrl_good {x0 x1 x2} (ha : Good F P x2) : GoodN F P (execBrl x0 x1 x2) := by
  unfold execBrl
  extract_lets -merge +onlyGivenNames s0
  clear_value s0
  extract_lets -merge +onlyGivenNames s1
  clear_value s1
  extract_lets -merge +onlyGivenNames s2
  clear_value s2
  exact goodN_next (instrStep_good (fun y3 h4 => brlEff_good h4) ha)

theorem execBrlResolve_good {x0 x1} (ha : Good F P x1) : GoodN F P (execBrlResolve x0 x1) := by
  unfold execBrlResolve
  exact goodN_next (resolveBrl_good ha)

theorem coreWrote_good {x0 x1 x2} (ha : Good F P x2) : Good F P (coreWrote x0 x1 x2) := by
  unfold coreWrote
  split
  · rename_i v0 v1 v2 e3
    exact State.updRun_good ha
  · rename_i v4 e5
    exact ha

theorem execLdl_good {x0 x1 x2} (ha : Good F P x2) : GoodN F P (execLdl x0 x1 x2) := by
  unfold execLdl
  extract_lets -merge +onlyGivenNames s0
  clear_value s0
  exact goodN_next (instrStep_good (fun y1 h2 => coreEff_good h2) ha)

theorem execStl_good {x0 x1 x2} (ha : Good F P x2) : GoodN F P (execStl x0 x1 x2) := by
  unfold execStl
  exact goodN_next (instrStep_good (fun y0 h1 => coreEff_good (coreWrote_good (State.onLocalMem_good h1 (fun y2 y3 => wf_mwrite _ _ (by assumption))))) ha)

theorem execLds_good {x0 x1 x2} (ha : Good F P x2) : GoodN F P (execLds x0 x1 x2) := by
  unfold execLds
  extract_lets -merge +onlyGivenNames s0
  clear_value s0
  exact goodN_next (instrStep_good (fun y1 h2 => coreEff_good h2) ha)

theorem execSts_good {x0 x1 x2} (ha : Good F P x2) : GoodN F P (execSts x0 x1 x2) := by
  unfold execSts
  exact goodN_next (instrStep_good (fun y0 h1 => coreEff_good (coreWrote_good (State.onSharedMem_good h1 (fun y2 y3 => wf_mwrite _ _ (by assumption))))) ha)

theorem pushEff_good {x0 x1 x2} (ha : Good F P x2) : Good F P (pushEff x0 x1 x2) := by
  unfold pushEff
  split
  · rename_i v0 e1
    exact ha
  · rename_i v2 v3 v4 e5
    extract_lets -merge +onlyGivenNames s6
    clear_value s6
    extract_lets -merge +onlyGivenNames s7
    clear_value s7
    apply good_ite
    · exact fun y8 => ha
    · intro y9
      split
      · rename_i v10 v11 v12 e13
        have h14 : Good F P v11 := good_ofL e13 (pushCheck_good ha)
        exact skipPush_good (State.modCore_good h14)
      · rename_i v15 v16 e17
        have h18 : Good F P v16 := good_ofL e17 (pushCheck_good ha)
        exact good_ite (fun y19 => h18) (fun y20 => wakeUnit_good (enqueue_good (State.modCore_good h18)))

theorem execPush_good {x0 x1 x2} (ha : Good F P x2) : GoodN F P (execPush x0 x1 x2) := by
  unfold execPush
  exact goodN_next (instrStep_good (fun y0 h1 => pushEff_good h1) ha)

theorem execWaitl_good {x0 x1 x2} (ha : Good F P x2) : GoodN F P (execWaitl x0 x1 x2) := by
  unfold execWaitl
  extract_lets -merge +onlyGivenNames s0
  clear_value s0
  extract_lets -merge +onlyGivenNames s1
  clear_value s1
  extract_lets -merge +onlyGivenNames s2
  clear_value s2
  apply goodN_next
  apply instrStep_good
  · intro y3 h4
    split
    · rename_i v5 e6
      exact coreEff_good h4
    · rename_i v7 e8
      exact stopRun_good h4
    · rename_i v9 e10
      exact State.modCore_good h4
  · exact ha

theorem execSigl_good {x0 x1 x2} (ha : Good F P x2) : GoodN F P (execSigl x0 x1 x2) := by
  unfold execSigl
  extract_lets -merge +onlyGivenNames s0
  clear_value s0
  extract_lets -merge +onlyGivenNames s1
  clear_value s1
  extract_lets -merge +onlyGivenNames s2
  clear_value s2
  extract_lets -merge +onlyGivenNames s3
  clear_value s3
  apply goodN_next
  apply instrStep_good
  · intro y4 h5
    apply good_ite
    · exact fun y6 => coreEff_good (signalLatch_good h5)
    · intro y7
      split
      rename_i v8 v9 v10 e11
      have h12 : Good F P v10 := good_ofR e11 (State.newUid_good h5)
      exact coreEff_good h12
  · exact ha

theorem execSiglSignal_good {x0 x1 x2} (ha : Good F P x2) : GoodN F P (execSiglSignal x0 x1 x2) := by
  unfold execSiglSignal
  extract_lets -merge +onlyGivenNames s0
  clear_value s0
  apply goodN_next
  split
  · rename_i v1 e2
    exact ha
  · rename_i v3 v4 e5
    exact good_ite (fun y6 => ha) (fun y7 => State.modCore_good (signalLatch_good ha))

theorem execPoisl_good {x0 x1 x2} (ha : Good F P x2) : GoodN F P (execPoisl x0 x1 x2) := by
  unfold execPoisl
  extract_lets -merge +onlyGivenNames s0
  clear_value s0
  exact goodN_next (instrStep_good (fun y1 h2 => coreEff_good (poisonLatch_good h2)) ha)

theorem execHinge_good {x0 x1 x2} (ha : Good F P x2) : GoodN F P (execHinge x0 x1 x2) := by
  unfold execHinge
  apply goodN_next
  apply instrStep_good
  · intro y0 h1
    extract_lets -merge +onlyGivenNames s2
    clear_value s2
    exact good_ite (fun y3 => h1) (fun y4 => coreEff_good h1)
  · exact ha

theorem execEndProgram_good {x0 x1 x2} (ha : Good F P x2) : GoodN F P (execEndProgram x0 x1 x2) := by
  unfold execEndProgram
  exact goodN_next (instrStep_good (fun y0 h1 => State.modCore_good h1) ha)

theorem execIllegalOp_good {x0 x1 x2} (ha : Good F P x2) : GoodN F P (execIllegalOp x0 x1 x2) := by
  unfold execIllegalOp
  exact goodN_next (good_ite (fun y0 => ha) (fun y1 => instrStep_good (fun y2 h3 => h3) ha))

end Sys2Proof.Machine
end

