-- ==== Sys2Proof/Laws/GoodEngine.lean ====
section
/-! SUPPORT. What Machine/Engine.lean leaves as it found it: from a good state every definition there gives a good state. -/

namespace Sys2Proof.Machine

variable {F : Fuse} {P : List Instr}

theorem setSt_good {x0 x1 x2 x3} (ha : Good F P x3) : Good F P (setSt x0 x1 x2 x3) := by
  unfold setSt
  exact State.modCore_good ha

theorem begun_good {x0 x1 x2} (ha : Good F P x2) : Good F P (begun x0 x1 x2) := by
  unfold begun
  extract_lets -merge +onlyGivenNames s0
  have h1 : Good F P s0 := setSt_good ha
  clear_value s0
  exact good_ite (fun y2 => State.onTurn_good h1) (fun y3 => h1)

theorem startCmd_good {x0 x1 x2 x3 x4 x5} (ha : ∀ ya yb, Good F P yb → Good F P (x4 ya yb)) (hb : Good F P x5) : Good F P (startCmd x0 x1 x2 x3 x4 x5) := by
  unfold startCmd
  split
  · rename_i v0 e1
    exact hb
  · rename_i v2 v3 e4
    apply good_ite
    · exact fun y5 => hb
    · intro y6
      split
      · rename_i v7 e8
        exact hb
      · rename_i v9 e10
        exact good_ite (fun y11 => stopRun_good (poisonEnv_good hb)) (fun y12 => hb)
      · rename_i v13 e14
        apply good_ite
        · intro y15
          apply attempt_good
          · intro y16 h17
            apply ha
            exact begun_good h17
          · exact hb
        · exact fun y18 => hb

theorem tileCmd_good {x0 x1 x2 x3} (ha : Good F P x3) : Good F P (tileCmd x0 x1 x2 x3) := by
  unfold tileCmd
  extract_lets -merge +onlyGivenNames s0
  clear_value s0
  exact forEach_good ha (fun y1 y2 h3 => tileIssue_good h3)

theorem startTile_good {x0 x1 x2 x3} (ha : Good F P x3) : Good F P (startTile x0 x1 x2 x3) := by
  unfold startTile
  exact startCmd_good (fun y0 y1 h2 => tileCmd_good h2) ha

theorem issueDue_good {x0 x1 x2} (ha : Good F P x2) : Good F P (issueDue x0 x1 x2) := by
  unfold issueDue
  exact good_ite (fun y0 => startTile_good ha) (fun y1 => ha)

theorem issueAll_good {x0} (ha : Good F P x0) : Good F P (issueAll x0) := by
  unfold issueAll
  exact forEach_good ha (fun y0 y1 h2 => forEach_good h2 (fun y3 y4 h5 => issueDue_good h5))

theorem passCycle_good {x0} (ha : Good F P x0) : Good F P (passCycle x0) := by
  unfold passCycle
  extract_lets -merge +onlyGivenNames s0
  have h1 : Good F P s0 := ctrTick_good ha
  clear_value s0
  exact good_ite (fun y2 => tilesTick_good (issueAll_good h1)) (fun y3 => h1)

theorem passUntil_good {x0 x1 x2 x3} (ha : Good F P x3) : Good F P (passUntil x0 x1 x2 x3) := by
  induction x2 generalizing x0 x1 x3 with
  | zero =>
    rw [passUntil]
    exact ha
  | succ n ih =>
    rw [passUntil]
    apply good_ite
    · exact fun y0 => ha
    · intro y1
      apply ih
      exact passCycle_good ha

theorem tileFinish_good {x0 x1 x2} (ha : Good F P x2) : Good F P (tileFinish x0 x1 x2) := by
  unfold tileFinish
  extract_lets -merge +onlyGivenNames s0
  clear_value s0
  exact passUntil_good ha

theorem moveCmd_good {x0 x1 x2} (ha : Good F P x2) : Good F P (moveCmd x0 x1 x2) := by
  unfold moveCmd
  split
  · rename_i v0 e1
    exact endCmd_good ha
  · rename_i v2 v3 e4
    extract_lets -merge +onlyGivenNames s5
    clear_value s5
    split
    rename_i v6 v7 v8 e9
    have h10 : Good F P v7 := good_ofL e9 (moveRun_good ha)
    extract_lets -merge +onlyGivenNames s11
    clear_value s11
    extract_lets -merge +onlyGivenNames s12
    clear_value s12
    extract_lets -merge +onlyGivenNames s13
    have h14 : Good F P s13 := good_ite (fun y15 => freshen_good h10) (fun y16 => h10)
    clear_value s13
    exact endCmd_good h14

theorem startMove_good {x0 x1 x2} (ha : Good F P x2) : Good F P (startMove x0 x1 x2) := by
  unfold startMove
  exact startCmd_good (fun y0 y1 h2 => moveCmd_good h2) ha

theorem freeBanks_good {x0 x1} (ha : Good F P x1) : Good F P (freeBanks x0 x1) := by
  unfold freeBanks
  exact State.onBank_good ha

theorem sillCmd_good {x0 x1 x2} (ha : Good F P x2) : Good F P (sillCmd x0 x1 x2) := by
  unfold sillCmd
  split
  · rename_i v0 e1
    exact endCmd_good ha
  · rename_i v2 v3 e4
    split
    · rename_i v5 v6 v7 e8
      have h9 : Good F P v6 := good_ofL e8 (sillStart_good (forEach_good ha (fun y10 y11 h12 => claimUnit_good h12)))
      exact endCmd_good h9
    · rename_i v13 v14 e15
      have h16 : Good F P v14 := good_ofL e15 (sillStart_good (forEach_good ha (fun y17 y18 h19 => claimUnit_good h19)))
      exact forEach_good h16 (fun y20 y21 h22 => State.modBank_good h22)

theorem startSill_good {x0 x1 x2 x3} (ha : Good F P x3) : Good F P (startSill x0 x1 x2 x3) := by
  unfold startSill
  exact startCmd_good (fun y0 y1 h2 => sillCmd_good h2) ha

theorem wicketCmd_good {x0 x1 x2 x3} (ha : ∀ ya yb yc yd, Good F P yd → GoodL F P (x0 ya yb yc yd)) (hb : Good F P x3) : Good F P (wicketCmd x0 x1 x2 x3) := by
  unfold wicketCmd
  split
  rename_i v0 v1 v2 e3
  have h4 : Good F P v1 := good_ofL e3 (by
      apply ha
      exact hb)
  exact endCmd_good h4

theorem startWicket_good {x0 x1 x2 x3 x4} (ha : ∀ ya yb yc yd, Good F P yd → GoodL F P (x3 ya yb yc yd)) (hb : Good F P x4) : Good F P (startWicket x0 x1 x2 x3 x4) := by
  unfold startWicket
  apply startCmd_good
  · intro y0 y1 h2
    apply wicketCmd_good
    · intro y3 y4 y5 y6 h7
      apply ha
      exact h7
    · exact h2
  · exact hb

theorem collCmd_good {x0 x1 x2} (ha : Good F P x2) : Good F P (collCmd x0 x1 x2) := by
  unfold collCmd
  exact collStart_good ha

theorem startColl_good {x0 x1 x2 x3} (ha : Good F P x3) : Good F P (startColl x0 x1 x2 x3) := by
  unfold startColl
  exact startCmd_good (fun y0 y1 h2 => collCmd_good h2) ha

theorem prefetchCmd_good {x0 x1 x2} (ha : Good F P x2) : Good F P (prefetchCmd x0 x1 x2) := by
  unfold prefetchCmd
  exact endCmd_good ha

theorem execMma_good {x0 x1 x2} (ha : Good F P x2) : GoodN F P (execMma x0 x1 x2) := by
  unfold execMma
  exact goodN_next (startTile_good ha)

theorem execDrain_good {x0 x1 x2} (ha : Good F P x2) : GoodN F P (execDrain x0 x1 x2) := by
  unfold execDrain
  exact goodN_next (startTile_good ha)

theorem execTnop_good {x0 x1 x2} (ha : Good F P x2) : GoodN F P (execTnop x0 x1 x2) := by
  unfold execTnop
  exact goodN_next (startTile_good ha)

theorem execMove_good {x0 x1 x2} (ha : Good F P x2) : GoodN F P (execMove x0 x1 x2) := by
  unfold execMove
  exact goodN_next (startMove_good ha)

theorem execPrefetch_good {x0 x1 x2} (ha : Good F P x2) : GoodN F P (execPrefetch x0 x1 x2) := by
  unfold execPrefetch
  exact goodN_next (startCmd_good (fun y0 y1 h2 => prefetchCmd_good h2) ha)

theorem execLoadop_good {x0 x1 x2} (ha : Good F P x2) : GoodN F P (execLoadop x0 x1 x2) := by
  unfold execLoadop
  exact goodN_next (startSill_good ha)

theorem execGemv_good {x0 x1 x2} (ha : Good F P x2) : GoodN F P (execGemv x0 x1 x2) := by
  unfold execGemv
  exact goodN_next (startSill_good ha)

theorem execEwise_good {x0 x1 x2} (ha : Good F P x2) : GoodN F P (execEwise x0 x1 x2) := by
  unfold execEwise
  exact goodN_next (startSill_good ha)

theorem execNorm_good {x0 x1 x2} (ha : Good F P x2) : GoodN F P (execNorm x0 x1 x2) := by
  unfold execNorm
  exact goodN_next (startSill_good ha)

theorem execDeq_good {x0 x1 x2} (ha : Good F P x2) : GoodN F P (execDeq x0 x1 x2) := by
  unfold execDeq
  exact goodN_next (startSill_good ha)

theorem execTopk_good {x0 x1 x2} (ha : Good F P x2) : GoodN F P (execTopk x0 x1 x2) := by
  unfold execTopk
  exact goodN_next (startSill_good ha)

theorem execSqGather_good {x0 x1 x2} (ha : Good F P x2) : GoodN F P (execSqGather x0 x1 x2) := by
  unfold execSqGather
  exact goodN_next (startSill_good ha)

theorem execSmxArm_good {x0 x1 x2} (ha : Good F P x2) : GoodN F P (execSmxArm x0 x1 x2) := by
  unfold execSmxArm
  exact goodN_next (startSill_good ha)

theorem execSmxNorm_good {x0 x1 x2} (ha : Good F P x2) : GoodN F P (execSmxNorm x0 x1 x2) := by
  unfold execSmxNorm
  exact goodN_next (startSill_good ha)

theorem execUcall_good {x0 x1 x2} (ha : Good F P x2) : GoodN F P (execUcall x0 x1 x2) := by
  unfold execUcall
  apply goodN_next
  split
  · rename_i v0 v1 e2
    exact good_ite (fun y3 => ha) (fun y4 => startSill_good ha)
  · rename_i v5 e6
    exact ha

theorem execKvScore_good {x0 x1 x2} (ha : Good F P x2) : GoodN F P (execKvScore x0 x1 x2) := by
  unfold execKvScore
  exact goodN_next (good_ite (fun y0 => startSill_good ha) (fun y1 => ha))

theorem execKvApply_good {x0 x1 x2} (ha : Good F P x2) : GoodN F P (execKvApply x0 x1 x2) := by
  unfold execKvApply
  exact goodN_next (good_ite (fun y0 => startSill_good ha) (fun y1 => ha))

theorem execSmxMerge_good {x0 x1 x2} (ha : Good F P x2) : GoodN F P (execSmxMerge x0 x1 x2) := by
  unfold execSmxMerge
  exact goodN_next (good_ite (fun y0 => startSill_good ha) (fun y1 => ha))

theorem execGate_good {x0 x1 x2} (ha : Good F P x2) : GoodN F P (execGate x0 x1 x2) := by
  unfold execGate
  exact goodN_next (startWicket_good (fun y0 y1 y2 y3 h4 => gateRun_good h4) ha)

theorem execCombine_good {x0 x1 x2} (ha : Good F P x2) : GoodN F P (execCombine x0 x1 x2) := by
  unfold execCombine
  exact goodN_next (startWicket_good (fun y0 y1 y2 y3 h4 => combineRun_good h4) ha)

theorem execSelect_good {x0 x1 x2} (ha : Good F P x2) : GoodN F P (execSelect x0 x1 x2) := by
  unfold execSelect
  exact goodN_next (startWicket_good (fun y0 y1 y2 y3 h4 => selectRun_good h4) ha)

theorem execStepRecord_good {x0 x1 x2} (ha : Good F P x2) : GoodN F P (execStepRecord x0 x1 x2) := by
  unfold execStepRecord
  exact goodN_next (startWicket_good (fun y0 y1 y2 y3 h4 => stepRun_good h4) ha)

theorem execAllreduce_good {x0 x1 x2} (ha : Good F P x2) : GoodN F P (execAllreduce x0 x1 x2) := by
  unfold execAllreduce
  exact goodN_next (startColl_good ha)

theorem execReduceScatter_good {x0 x1 x2} (ha : Good F P x2) : GoodN F P (execReduceScatter x0 x1 x2) := by
  unfold execReduceScatter
  exact goodN_next (startColl_good ha)

theorem execAllgather_good {x0 x1 x2} (ha : Good F P x2) : GoodN F P (execAllgather x0 x1 x2) := by
  unfold execAllgather
  exact goodN_next (startColl_good ha)

theorem execBroadcast_good {x0 x1 x2} (ha : Good F P x2) : GoodN F P (execBroadcast x0 x1 x2) := by
  unfold execBroadcast
  exact goodN_next (startColl_good ha)

theorem execMqGather_good {x0 x1 x2} (ha : Good F P x2) : GoodN F P (execMqGather x0 x1 x2) := by
  unfold execMqGather
  exact goodN_next (startColl_good ha)

theorem execDispatch_good {x0 x1 x2} (ha : Good F P x2) : GoodN F P (execDispatch x0 x1 x2) := by
  unfold execDispatch
  exact goodN_next (startColl_good ha)

theorem execReturnRows_good {x0 x1 x2} (ha : Good F P x2) : GoodN F P (execReturnRows x0 x1 x2) := by
  unfold execReturnRows
  exact goodN_next (startColl_good ha)

theorem execRingShift_good {x0 x1 x2} (ha : Good F P x2) : GoodN F P (execRingShift x0 x1 x2) := by
  unfold execRingShift
  exact goodN_next (startColl_good ha)

theorem execBarrier_good {x0 x1 x2} (ha : Good F P x2) : GoodN F P (execBarrier x0 x1 x2) := by
  unfold execBarrier
  exact goodN_next (startColl_good ha)

theorem outcomeOf_good {x0 x1 x2} (ha : Good F P x2) : GoodL F P (outcomeOf x0 x1 x2) := by
  unfold outcomeOf
  split
  · rename_i v0 e1
    exact goodL_mk ha
  · rename_i v2 v3 v4 e5
    exact goodL_mk ha
  · rename_i v6 e7
    apply goodL_ite
    · intro y8
      extract_lets -merge +onlyGivenNames s9
      have h10 : Good F P s9 := tileFinish_good ha
      clear_value s9
      apply goodL_ite
      · intro y11
        extract_lets -merge +onlyGivenNames s12
        clear_value s12
        exact goodL_mk (tileTake_good h10)
      · exact fun y13 => goodL_mk h10
    · intro y14
      apply goodL_ite
      · intro y15
        split
        · rename_i v16 e17
          exact goodL_mk ha
        · rename_i v18 v19 e20
          extract_lets -merge +onlyGivenNames s21
          have h22 : GoodL F P s21 := sillFinish_good (freeBanks_good ha)
          clear_value s21
          exact goodL_mk (good_fst h22)
      · exact fun y23 => goodL_mk ha

theorem cutSill_good {x0 x1} (ha : Good F P x1) : Good F P (cutSill x0 x1) := by
  unfold cutSill
  split
  · rename_i v0 e1
    exact ha
  · rename_i v2 v3 e4
    exact sillCutAll_good ha

theorem handWrites_good {x0 x1} (ha : Good F P x1) : Good F P (handWrites x0 x1) := by
  unfold handWrites
  extract_lets -merge +onlyGivenNames s0
  clear_value s0
  exact good_ite (fun y1 => ha) (fun y2 => State.updRun_good ha)

theorem envSignal_good {x0 x1 x2 x3} (ha : Good F P x3) : Good F P (envSignal x0 x1 x2 x3) := by
  unfold envSignal
  exact good_ite (fun y0 => ha) (fun y1 => good_ite (fun y2 => signalLatch_good ha) (fun y3 => State.modCore_good ha))

theorem leaveQueue_good {x0 x1 x2 x3 x4} (ha : Good F P x4) : Good F P (leaveQueue x0 x1 x2 x3 x4) := by
  unfold leaveQueue
  extract_lets -merge +onlyGivenNames s0
  clear_value s0
  extract_lets -merge +onlyGivenNames s1
  have h2 : Good F P s1 := State.modCore_good ha
  clear_value s1
  apply good_ite
  · intro y3
    extract_lets -merge +onlyGivenNames s4
    have h5 : Good F P s4 := by
      unfold s4
      split
      · rename_i v6 v7 e8
        exact State.modCore_good h2
      · rename_i v9 e10
        exact h2
    clear_value s4
    exact fireEnv_good (envSignal_good (settleWrites_good (handWrites_good h5)))
  · intro y11
    extract_lets -merge +onlyGivenNames s12
    have h13 : Good F P s12 := fireEnv_good (poisonEnv_good (settleWrites_good (undefWrites_good h2)))
    clear_value s12
    exact good_ite (fun y14 => h13) (fun y15 => stopRun_good h13)

theorem engineComplete_good {x0 x1 x2} (ha : Good F P x2) : Good F P (engineComplete x0 x1 x2) := by
  unfold engineComplete
  split
  · rename_i v0 e1
    exact ha
  · rename_i v2 v3 e4
    apply good_ite
    · exact fun y5 => ha
    · intro y6
      apply good_ite
      · exact fun y7 => leaveQueue_good (clearBad_good (freeBanks_good (cutSill_good ha)))
      · intro y8
        apply attempt_good
        · intro y9 h10
          split
          · rename_i v11 v12 e13
            have h14 : Good F P v12 := good_ofL e13 (outcomeOf_good h10)
            exact h14
          · rename_i v15 v16 v17 e18
            have h19 : Good F P v16 := good_ofL e18 (outcomeOf_good h10)
            extract_lets -merge +onlyGivenNames s20
            have h21 : Good F P s20 := setSt_good (drainOwned_good h19)
            clear_value s20
            exact good_ite (fun y22 => h21) (fun y23 => leaveQueue_good (freeBanks_good (clearBad_good h21)))
        · exact ha

end Sys2Proof.Machine
end

