-- ==== Sys2Proof/Laws/GoodHostCore.lean ====
section
/-! SUPPORT. What Machine/HostCore.lean leaves as it found it: from a good state every definition there gives a good state. -/

namespace Sys2Proof.Machine

variable {F : Fuse} {P : List Instr}

theorem fin_good {x0 x1} (ha : Good F P x1) : GoodL F P (fin x0 x1) := by
  unfold fin
  exact goodL_mk ha

theorem stopAt_good {x0 x1 x2} (ha : Good F P x2) : GoodL F P (stopAt x0 x1 x2) := by
  unfold stopAt
  exact goodL_mk ha

theorem going_good {x0} (ha : Good F P x0) : GoodL F P (going x0) := by
  unfold going
  exact goodL_mk ha

theorem deferOp_good {x0} (ha : Good F P x0) : GoodL F P (deferOp x0) := by
  unfold deferOp
  split
  rename_i v0 v1 v2 e3
  have h4 : Good F P v2 := good_ofR e3 (State.fresh_good ha)
  exact fin_good h4

theorem opCtxCreate_good {x0 x1 x2} (ha : Good F P x2) : GoodL F P (opCtxCreate x0 x1 x2) := by
  unfold opCtxCreate
  extract_lets -merge +onlyGivenNames s0
  clear_value s0
  extract_lets -merge +onlyGivenNames s1
  clear_value s1
  extract_lets -merge +onlyGivenNames s2
  clear_value s2
  extract_lets -merge +onlyGivenNames s3
  clear_value s3
  apply goodL_ite
  · exact fun y4 => fin_good ha
  · intro y5
    apply goodL_ite
    · exact fun y6 => fin_good ha
    · intro y7
      apply goodL_ite
      · exact fun y8 => deferOp_good ha
      · intro y9
        extract_lets -merge +onlyGivenNames s10
        clear_value s10
        split
        · rename_i v11 e12
          exact fin_good ha
        · rename_i v13 v14 e15
          exact goodL_ite (fun y16 => fin_good ha) (fun y17 => fin_good (State.putCtx_good ha))

theorem opCtxDestroy_good {x0 x1 x2} (ha : Good F P x2) : GoodL F P (opCtxDestroy x0 x1 x2) := by
  unfold opCtxDestroy
  split
  · rename_i v0 e1
    exact fin_good ha
  · rename_i v2 v3 e4
    apply goodL_ite
    · exact fun y5 => fin_good ha
    · intro y6
      apply goodL_ite
      · exact fun y7 => deferOp_good ha
      · intro y8
        extract_lets -merge +onlyGivenNames s9
        have h10 : Good F P s9 := State.updCtx_good ha
        clear_value s9
        extract_lets -merge +onlyGivenNames s11
        have h12 : Good F P s11 := tearDown_good h10
        clear_value s11
        exact going_good (forEach_good h12 (fun y13 y14 h15 => discardReq_good h15))

theorem opCtxPriority_good {x0 x1 x2} (ha : Good F P x2) : GoodL F P (opCtxPriority x0 x1 x2) := by
  unfold opCtxPriority
  split
  · rename_i v0 e1
    exact fin_good ha
  · rename_i v2 v3 e4
    exact fin_good (arbitrate_good (State.updCtx_good ha))

theorem opCtxMigrate_good {x0 x1 x2} (ha : Good F P x2) : GoodL F P (opCtxMigrate x0 x1 x2) := by
  unfold opCtxMigrate
  split
  · rename_i v0 e1
    exact fin_good ha
  · rename_i v2 v3 e4
    extract_lets -merge +onlyGivenNames s5
    clear_value s5
    extract_lets -merge +onlyGivenNames s6
    clear_value s6
    extract_lets -merge +onlyGivenNames s7
    clear_value s7
    extract_lets -merge +onlyGivenNames s8
    clear_value s8
    extract_lets -merge +onlyGivenNames s9
    clear_value s9
    extract_lets -merge +onlyGivenNames s10
    clear_value s10
    apply goodL_ite
    · exact fun y11 => fin_good ha
    · intro y12
      apply goodL_ite
      · exact fun y13 => fin_good ha
      · intro y14
        apply goodL_ite
        · exact fun y15 => deferOp_good ha
        · intro y16
          extract_lets -merge +onlyGivenNames s17
          clear_value s17
          extract_lets -merge +onlyGivenNames s18
          have h19 : Good F P s18 := State.updCtx_good ha
          clear_value s18
          exact going_good (forEach_good h19 (fun y20 y21 h22 => requestPreempt_good h22))

theorem bumpEpoch_good {x0 x1 x2} (ha : Good F P x2) : GoodL F P (bumpEpoch x0 x1 x2) := by
  unfold bumpEpoch
  split
  · rename_i v0 v1 v2 e3
    have h4 : Good F P v1 := good_ofL e3 (vaRead_good ha)
    extract_lets -merge +onlyGivenNames s5
    clear_value s5
    extract_lets -merge +onlyGivenNames s6
    clear_value s6
    exact goodL_mk (vaPut_good h4)
  · rename_i v7 v8 v9 e10 e11
    have h12 : Good F P v8 := good_ofL e11 (vaRead_good ha)
    exact goodL_mk h12

theorem migMove_good {x0 x1} (ha : Good F P x1) : Good F P (migMove x0 x1) := by
  unfold migMove
  split
  · rename_i v0 e1
    exact ha
  · rename_i v2 v3 e4
    split
    · rename_i v5 e6
      exact ha
    · rename_i v7 v8 e9
      extract_lets -merge +onlyGivenNames s10
      clear_value s10
      split
      rename_i v11 v12 v13 v14 e15
      have h16 : Good F P v12 := good_ofL e15 (by
          apply goodL_foldl
          · exact goodL_mk ha
          · intro y17 y18 h19
            split
            · rename_i v20 v21 v22 v23 e24
              have h25 : Good F P v21 := good_ofL e24 (bumpEpoch_good (good_fst h19))
              exact goodL_mk h25
            · rename_i v26 v27 e28
              have h29 : Good F P v27 := good_ofL e28 (bumpEpoch_good (good_fst h19))
              exact goodL_mk h29)
      exact State.updCtx_good h16

theorem migDone_good {x0 x1} (ha : Good F P x1) : Good F P (migDone x0 x1) := by
  unfold migDone
  split
  · rename_i v0 e1
    exact ha
  · rename_i v2 v3 e4
    split
    · rename_i v5 e6
      exact ha
    · rename_i v7 v8 e9
      exact completeEntry_good (State.updCtx_good ha)

theorem migGo_good {x0 x1} (ha : Good F P x1) : Good F P (migGo x0 x1) := by
  unfold migGo
  split
  · rename_i v0 e1
    exact ha
  · rename_i v2 v3 e4
    split
    · rename_i v5 e6
      exact ha
    · rename_i v7 v8 e9
      apply good_ite
      · exact fun y10 => good_ite (fun y11 => migDone_good ha) (fun y12 => ha)
      · intro y13
        extract_lets -merge +onlyGivenNames s14
        have h15 : Good F P s14 := forEach_good ha (fun y16 y17 h18 => requestPreempt_good h18)
        clear_value s14
        apply good_ite
        · exact fun y19 => h15
        · intro y20
          extract_lets -merge +onlyGivenNames s21
          have h22 : Good F P s21 := migMove_good h15
          clear_value s21
          split
          · rename_i v23 v24 e25
            exact good_ite (fun y26 => migDone_good h22) (fun y27 => h22)
          · rename_i v28 e29
            exact h22

theorem opQueueCreate_good {x0 x1 x2} (ha : Good F P x2) : GoodL F P (opQueueCreate x0 x1 x2) := by
  unfold opQueueCreate
  extract_lets -merge +onlyGivenNames s0
  clear_value s0
  extract_lets -merge +onlyGivenNames s1
  clear_value s1
  extract_lets -merge +onlyGivenNames s2
  clear_value s2
  extract_lets -merge +onlyGivenNames s3
  clear_value s3
  extract_lets -merge +onlyGivenNames s4
  clear_value s4
  extract_lets -merge +onlyGivenNames s5
  clear_value s5
  apply goodL_ite
  · exact fun y6 => fin_good ha
  · intro y7
    apply goodL_ite
    · exact fun y8 => fin_good ha
    · intro y9
      apply goodL_ite
      · exact fun y10 => fin_good ha
      · intro y11
        extract_lets -merge +onlyGivenNames s12
        clear_value s12
        exact fin_good (State.putQueue_good ha)

theorem opQueueDestroy_good {x0 x1 x2} (ha : Good F P x2) : GoodL F P (opQueueDestroy x0 x1 x2) := by
  unfold opQueueDestroy
  extract_lets -merge +onlyGivenNames s0
  clear_value s0
  split
  · rename_i v1 e2
    exact fin_good ha
  · rename_i v3 v4 e5
    extract_lets -merge +onlyGivenNames s6
    clear_value s6
    extract_lets -merge +onlyGivenNames s7
    have h8 : Good F P s7 := updEntry_good ha
    clear_value s7
    extract_lets -merge +onlyGivenNames s9
    have h10 : Good F P s9 := endWaits_good h8
    clear_value s9
    extract_lets -merge +onlyGivenNames s11
    have h12 : Good F P s11 := State.updQueue_good h10
    clear_value s11
    exact going_good (forEach_good h12 (fun y13 y14 h15 => discardEntry_good h15))

theorem opQueueResume_good {x0 x1 x2} (ha : Good F P x2) : GoodL F P (opQueueResume x0 x1 x2) := by
  unfold opQueueResume
  split
  · rename_i v0 e1
    exact fin_good ha
  · rename_i v2 v3 e4
    exact goodL_ite (fun y5 => fin_good ha) (fun y6 => going_good ha)

theorem resumeGo_good {x0 x1 x2} (ha : Good F P x2) : Good F P (resumeGo x0 x1 x2) := by
  unfold resumeGo
  extract_lets -merge +onlyGivenNames s0
  clear_value s0
  extract_lets -merge +onlyGivenNames s1
  clear_value s1
  split
  · rename_i v2 e3
    exact completeEntry_good ha
  · rename_i v4 v5 e6
    apply good_ite
    · exact fun y7 => completeEntry_good ha
    · intro y8
      split
      · rename_i v9 e10
        exact State.updQueue_good ha
      · rename_i v11 v12 v13 v14 e15
        exact good_ite (fun y16 => ha) (fun y17 => good_ite (fun y18 => State.updQueue_good ha) (fun y19 => completeEntry_good (State.updQueue_good ha)))

theorem destroyGo_good {x0 x1 x2} (ha : Good F P x2) : Good F P (destroyGo x0 x1 x2) := by
  unfold destroyGo
  extract_lets -merge +onlyGivenNames s0
  clear_value s0
  split
  · rename_i v1 e2
    exact completeEntry_good ha
  · rename_i v3 v4 e5
    apply good_ite
    · intro y6
      extract_lets -merge +onlyGivenNames s7
      have h8 : Good F P s7 := forEach_good ha (fun y9 y10 h11 => headerSignal_good h11)
      clear_value s7
      exact completeEntry_good (State.delQueue_good h8)
    · exact fun y12 => ha

theorem opCaseAssign_good {x0 x1 x2} (ha : Good F P x2) : GoodL F P (opCaseAssign x0 x1 x2) := by
  unfold opCaseAssign
  extract_lets -merge +onlyGivenNames s0
  clear_value s0
  extract_lets -merge +onlyGivenNames s1
  clear_value s1
  extract_lets -merge +onlyGivenNames s2
  clear_value s2
  extract_lets -merge +onlyGivenNames s3
  clear_value s3
  extract_lets -merge +onlyGivenNames s4
  apply goodL_ite
  · exact fun y5 => fin_good ha
  · intro y6
    apply goodL_ite
    · intro y7
      apply fin_good
      unfold s4
      exact State.modCas_good ha
    · intro y8
      apply goodL_ite
      · exact fun y9 => deferOp_good ha
      · intro y10
        extract_lets -merge +onlyGivenNames s11
        clear_value s11
        extract_lets -merge +onlyGivenNames s12
        clear_value s12
        extract_lets -merge +onlyGivenNames s13
        clear_value s13
        extract_lets -merge +onlyGivenNames s14
        clear_value s14
        extract_lets -merge +onlyGivenNames s15
        clear_value s15
        extract_lets -merge +onlyGivenNames s16
        clear_value s16
        extract_lets -merge +onlyGivenNames s17
        clear_value s17
        extract_lets -merge +onlyGivenNames s18
        clear_value s18
        apply goodL_ite
        · exact fun y19 => fin_good ha
        · intro y20
          apply goodL_ite
          · exact fun y21 => fin_good ha
          · intro y22
            apply goodL_ite
            · intro y23
              apply goodL_ite
              · intro y24
                apply fin_good
                unfold s4
                exact State.modCas_good ha
              · exact fun y25 => fin_good ha
            · intro y26
              apply goodL_ite
              · exact fun y27 => fin_good ha
              · intro y28
                apply fin_good
                unfold s4
                exact State.modCas_good (State.modCas_good ha)

theorem opCaseRelease_good {x0 x1 x2} (ha : Good F P x2) : GoodL F P (opCaseRelease x0 x1 x2) := by
  unfold opCaseRelease
  extract_lets -merge +onlyGivenNames s0
  clear_value s0
  extract_lets -merge +onlyGivenNames s1
  clear_value s1
  exact goodL_ite (fun y2 => fin_good ha) (fun y3 => goodL_ite (fun y4 => fin_good ha) (fun y5 => fin_good (State.modCas_good ha)))

theorem opNop_good {x0 x1 x2} (ha : Good F P x2) : GoodL F P (opNop x0 x1 x2) := by
  unfold opNop
  exact fin_good ha

end Sys2Proof.Machine
end

