-- ==== Sys2Proof/Laws/GoodHostMem.lean ====
section
/-! SUPPORT. What Machine/HostMem.lean leaves as it found it: from a good state every definition there gives a good state. -/

namespace Sys2Proof.Machine

variable {F : Fuse} {P : List Instr}

theorem addAlloc_good {x0 x1} (ha : Good F P x1) : Good F P (addAlloc x0 x1) := by
  unfold addAlloc
  split
  · rename_i v0 v1 e2
    exact State.putAlloc_good ha
  · rename_i v3 e4
    exact ha

theorem allocated_good {x0 x1} (ha : Good F P x1) : GoodL F P (allocated x0 x1) := by
  unfold allocated
  exact fin_good (addAlloc_good ha)

theorem opMemAlloc_good {x0 x1 x2} (ha : Good F P x2) : GoodL F P (opMemAlloc x0 x1 x2) := by
  unfold opMemAlloc
  extract_lets -merge +onlyGivenNames s0
  clear_value s0
  extract_lets -merge +onlyGivenNames s1
  clear_value s1
  extract_lets -merge +onlyGivenNames s2
  clear_value s2
  extract_lets -merge +onlyGivenNames s3
  clear_value s3
  extract_lets -merge +onlyGivenNames s4
  clear_value s4
  extract_lets -merge +onlyGivenNames s5
  clear_value s5
  extract_lets -merge +onlyGivenNames s6
  clear_value s6
  extract_lets -merge +onlyGivenNames s7
  clear_value s7
  extract_lets -merge +onlyGivenNames s8
  clear_value s8
  extract_lets -merge +onlyGivenNames s9
  clear_value s9
  extract_lets -merge +onlyGivenNames s10
  clear_value s10
  extract_lets -merge +onlyGivenNames s11
  clear_value s11
  extract_lets -merge +onlyGivenNames s12
  clear_value s12
  extract_lets -merge +onlyGivenNames s13
  clear_value s13
  apply goodL_ite
  · exact fun y14 => fin_good ha
  · intro y15
    apply goodL_ite
    · exact fun y16 => deferOp_good ha
    · intro y17
      apply goodL_ite
      · exact fun y18 => fin_good ha
      · intro y19
        split
        · rename_i v20 v21 v22 v23 e24 e25
          exact allocated_good ha
        · rename_i v26 v27 e28
          exact fin_good ha

theorem staleDescs_good {x0 x1 x2 x3} (ha : Good F P x3) : Good F P (staleDescs x0 x1 x2 x3) := by
  unfold staleDescs
  exact State.onDesc_good ha

theorem opMemFree_good {x0 x1 x2} (ha : Good F P x2) : GoodL F P (opMemFree x0 x1 x2) := by
  unfold opMemFree
  extract_lets -merge +onlyGivenNames s0
  clear_value s0
  split
  · rename_i v1 e2
    exact fin_good ha
  · rename_i v3 v4 v5 e6
    apply goodL_ite
    · exact fun y7 => fin_good ha
    · intro y8
      apply goodL_ite
      · exact fun y9 => deferOp_good ha
      · intro y10
        extract_lets -merge +onlyGivenNames s11
        clear_value s11
        extract_lets -merge +onlyGivenNames s12
        clear_value s12
        extract_lets -merge +onlyGivenNames s13
        have h14 : Good F P s13 := staleDescs_good (State.delAlloc_good ha)
        clear_value s13
        exact fin_good (releaseAlloc_good h14)

theorem opMemMapHost_good {x0 x1 x2} (ha : Good F P x2) : GoodL F P (opMemMapHost x0 x1 x2) := by
  unfold opMemMapHost
  extract_lets -merge +onlyGivenNames s0
  clear_value s0
  extract_lets -merge +onlyGivenNames s1
  clear_value s1
  extract_lets -merge +onlyGivenNames s2
  clear_value s2
  extract_lets -merge +onlyGivenNames s3
  clear_value s3
  extract_lets -merge +onlyGivenNames s4
  clear_value s4
  apply goodL_ite
  · exact fun y5 => fin_good ha
  · intro y6
    apply goodL_ite
    · exact fun y7 => fin_good ha
    · intro y8
      split
      · rename_i v9 e10
        exact fin_good ha
      · rename_i v11 v12 e13
        extract_lets -merge +onlyGivenNames s14
        clear_value s14
        extract_lets -merge +onlyGivenNames s15
        clear_value s15
        exact allocated_good ha

theorem fenceNote_good {x0 x1 x2} (ha : Good F P x2) : Good F P (fenceNote x0 x1 x2) := by
  unfold fenceNote
  exact good_ite (fun y0 => updEntry_good ha) (fun y1 => ha)

theorem opMemFence_good {x0 x1 x2} (ha : Good F P x2) : GoodL F P (opMemFence x0 x1 x2) := by
  unfold opMemFence
  exact going_good ha

theorem fenceGo_good {x0 x1 x2} (ha : Good F P x2) : Good F P (fenceGo x0 x1 x2) := by
  unfold fenceGo
  split
  · rename_i v0 e1
    exact ha
  · rename_i v2 v3 e4
    exact good_ite (fun y5 => attempt_good (fun y6 h7 => completeEntry_good (forEach_good h7 (fun y8 y9 h10 => drainStack_good h10))) ha) (fun y11 => ha)

theorem copyOut_good {x0 x1 x2 x3 x4} (ha : Good F P x4) : GoodL F P (copyOut x0 x1 x2 x3 x4) := by
  unfold copyOut
  split
  · rename_i v0 v1 e2
    have h3 : Good F P v1 := good_ofL e2 (vaWrite_good ha)
    exact fin_good h3
  · rename_i v4 v5 v6 e7
    have h8 : Good F P v5 := good_ofL e7 (vaWrite_good ha)
    exact stopAt_good h8
  · rename_i v9 v10 e11
    have h12 : Good F P v10 := good_ofL e11 (vaWrite_good ha)
    exact stopAt_good h12

theorem opMemCopy_good {x0 x1 x2} (ha : Good F P x2) : GoodL F P (opMemCopy x0 x1 x2) := by
  unfold opMemCopy
  extract_lets -merge +onlyGivenNames s0
  clear_value s0
  extract_lets -merge +onlyGivenNames s1
  clear_value s1
  extract_lets -merge +onlyGivenNames s2
  clear_value s2
  extract_lets -merge +onlyGivenNames s3
  clear_value s3
  apply goodL_ite
  · exact fun y4 => fin_good ha
  · intro y5
    apply goodL_ite
    · exact fun y6 => fin_good ha
    · intro y7
      split
      · rename_i v8 v9 v10 e11
        have h12 : Good F P v9 := good_ofL e11 (vaRead_good ha)
        apply goodL_ite
        · intro y13
          split
          rename_i v14 v15 v16 e17
          have h18 : Good F P v16 := good_ofR e17 (State.fresh_good h12)
          exact copyOut_good h18
        · exact fun y19 => copyOut_good h12
      · rename_i v20 v21 v22 e23
        have h24 : Good F P v21 := good_ofL e23 (vaRead_good ha)
        exact stopAt_good (havocVa_good h24)
      · rename_i v25 v26 e27
        have h28 : Good F P v26 := good_ofL e27 (vaRead_good ha)
        exact stopAt_good (havocVa_good h28)

theorem opMemFill_good {x0 x1 x2} (ha : Good F P x2) : GoodL F P (opMemFill x0 x1 x2) := by
  unfold opMemFill
  extract_lets -merge +onlyGivenNames s0
  clear_value s0
  extract_lets -merge +onlyGivenNames s1
  clear_value s1
  extract_lets -merge +onlyGivenNames s2
  clear_value s2
  exact goodL_ite (fun y3 => fin_good ha) (fun y4 => goodL_ite (fun y5 => fin_good ha) (fun y6 => copyOut_good ha))

theorem scrubWord_good {x0 x1 x2 x3} (ha : GoodL F P x1) : GoodL F P (scrubWord x0 x1 x2 x3) := by
  unfold scrubWord
  split
  rename_i v0 v1 v2
  extract_lets -merge +onlyGivenNames s3
  have h4 : Good F P s3 := reachBank_good (reachStack_good (good_unL ha))
  clear_value s3
  extract_lets -merge +onlyGivenNames s5
  clear_value s5
  split
  · rename_i v6 e7
    exact goodL_mk h4
  · rename_i v8 v9 e10
    extract_lets -merge +onlyGivenNames s11
    have h12 : Good F P s11 := countCorr_good h4
    clear_value s11
    exact goodL_mk (good_ite (fun y13 => State.delHealth_good h12) (fun y14 => h12))
  · rename_i v15 v16 e17 e18
    exact goodL_mk (logUe_good h4)

theorem drainDramRow_good {x0 x1} (ha : Good F P x1) : Good F P (drainDramRow x0 x1) := by
  unfold drainDramRow
  exact drainWhere_good ha

theorem scrubGranule_good {x0 x1 x2 x3} (ha : GoodL F P x2) : GoodL F P (scrubGranule x0 x1 x2 x3) := by
  unfold scrubGranule
  split
  · rename_i v0 v1 v2 e3
    split
    · rename_i v4 v5 e6
      exact goodL_foldl (goodL_mk (drainDramRow_good (good_fst ha))) (fun y7 y8 h9 => scrubWord_good h9)
    · rename_i v10 e11
      exact ha
  · rename_i v12 e13
    exact ha

theorem opScrubRange_good {x0 x1 x2} (ha : Good F P x2) : GoodL F P (opScrubRange x0 x1 x2) := by
  unfold opScrubRange
  extract_lets -merge +onlyGivenNames s0
  clear_value s0
  extract_lets -merge +onlyGivenNames s1
  clear_value s1
  extract_lets -merge +onlyGivenNames s2
  clear_value s2
  extract_lets -merge +onlyGivenNames s3
  exact goodL_ite (fun y4 => fin_good ha) (fun y5 => going_good ha)

theorem scrubGo_good {x0 x1 x2} (ha : Good F P x2) : Good F P (scrubGo x0 x1 x2) := by
  unfold scrubGo
  extract_lets -merge +onlyGivenNames s0
  clear_value s0
  extract_lets -merge +onlyGivenNames s1
  clear_value s1
  apply good_ite
  · exact fun y2 => ha
  · intro y3
    apply attempt_good
    · intro y4 h5
      split
      rename_i v6 v7 v8 e9
      have h10 : Good F P v7 := good_ofL e9 (goodL_foldl (goodL_mk h5) (fun y11 y12 h13 => scrubGranule_good h13))
      split
      · rename_i v14 v15 e16
        have h17 : Good F P v15 := good_ofL e16 (vaWrite_good h10)
        exact completeEntry_good h17
      · rename_i v18 v19 v20 e21
        have h22 : Good F P v19 := good_ofL e21 (vaWrite_good h10)
        exact completeEntry_good h22
      · rename_i v23 v24 e25
        have h26 : Good F P v24 := good_ofL e25 (vaWrite_good h10)
        exact completeEntry_good h26
    · exact ha

theorem scrubOldest_good {x0 x1} (ha : Good F P x1) : Good F P (scrubOldest x0 x1) := by
  unfold scrubOldest
  split
  · rename_i v0 e1
    exact ha
  · rename_i v2 v3 e4
    split
    · rename_i v5 v6 e7
      exact good_ite (fun y8 => scrubGo_good ha) (fun y9 => ha)
    · rename_i v10 e11
      exact ha

end Sys2Proof.Machine
end

