-- ==== Sys2Proof/Laws/GoodHostProg.lean ====
section
/-! SUPPORT. What Machine/HostProg.lean leaves as it found it: from a good state every definition there gives a good state. -/

namespace Sys2Proof.Machine

variable {F : Fuse} {P : List Instr}

theorem opDescCreate_good {x0 x1 x2} (ha : Good F P x2) : GoodL F P (opDescCreate x0 x1 x2) := by
  unfold opDescCreate
  extract_lets -merge +onlyGivenNames s0
  clear_value s0
  extract_lets -merge +onlyGivenNames s1
  apply goodL_ite
  · exact fun y2 => fin_good ha
  · intro y3
    split
    · rename_i v4 v5 e6
      exact fin_good ha
    · rename_i v7 e8
      split
      · rename_i v9 e10
        exact fin_good ha
      · rename_i v11 v12 e13
        exact fin_good (State.putDesc_good ha)

theorem opDescDestroy_good {x0 x1 x2} (ha : Good F P x2) : GoodL F P (opDescDestroy x0 x1 x2) := by
  unfold opDescDestroy
  extract_lets -merge +onlyGivenNames s0
  clear_value s0
  extract_lets -merge +onlyGivenNames s1
  clear_value s1
  apply goodL_ite
  · exact fun y2 => fin_good ha
  · intro y3
    split
    · rename_i v4 e5
      exact fin_good ha
    · rename_i v6 v7 e8
      apply goodL_ite
      · exact fun y9 => fin_good ha
      · intro y10
        extract_lets -merge +onlyGivenNames s11
        clear_value s11
        exact fin_good (good_ite (fun y12 => State.delDesc_good ha) (fun y13 => State.putDesc_good ha))

theorem dropDead_good {x0} (ha : Good F P x0) : Good F P (dropDead x0) := by
  unfold dropDead
  extract_lets -merge +onlyGivenNames s0
  have h1 : Good F P s0 := State.onDesc_good ha
  clear_value s0
  exact State.onLatchHold_good h1

theorem opProgLoad_good {x0 x1 x2} (ha : Good F P x2) : GoodL F P (opProgLoad x0 x1 x2) := by
  unfold opProgLoad
  extract_lets -merge +onlyGivenNames s0
  clear_value s0
  extract_lets -merge +onlyGivenNames s1
  clear_value s1
  extract_lets -merge +onlyGivenNames s2
  clear_value s2
  apply goodL_ite
  · exact fun y3 => fin_good ha
  · intro y4
    apply goodL_ite
    · exact fun y5 => fin_good ha
    · intro y6
      split
      · rename_i v7 v8 v9 e10
        have h11 : Good F P v8 := good_ofL e10 (vaRead_good ha)
        exact stopAt_good h11
      · rename_i v12 v13 e14
        have h15 : Good F P v13 := good_ofL e14 (vaRead_good ha)
        exact stopAt_good h15
      · rename_i v16 v17 v18 e19
        have h20 : Good F P v17 := good_ofL e19 (vaRead_good ha)
        apply goodL_ite
        · exact fun y21 => fin_good h20
        · intro y22
          apply goodL_ite
          · exact fun y23 => fin_good h20
          · intro y24
            split
            · rename_i v25 e26
              exact fin_good h20
            · rename_i v27 v28 e29
              exact fin_good (State.putProg_good h20)

theorem opProgRun_good {x0 x1 x2} (ha : Good F P x2) : GoodL F P (opProgRun x0 x1 x2) := by
  unfold opProgRun
  extract_lets -merge +onlyGivenNames s0
  clear_value s0
  extract_lets -merge +onlyGivenNames s1
  clear_value s1
  extract_lets -merge +onlyGivenNames s2
  clear_value s2
  extract_lets -merge +onlyGivenNames s3
  clear_value s3
  extract_lets -merge +onlyGivenNames s4
  clear_value s4
  extract_lets -merge +onlyGivenNames s5
  clear_value s5
  extract_lets -merge +onlyGivenNames s6
  clear_value s6
  extract_lets -merge +onlyGivenNames s7
  clear_value s7
  extract_lets -merge +onlyGivenNames s8
  clear_value s8
  apply goodL_ite
  · exact fun y9 => fin_good ha
  · intro y10
    apply goodL_ite
    · exact fun y11 => fin_good ha
    · intro y12
      apply goodL_ite
      · exact fun y13 => fin_good ha
      · intro y14
        split
        · rename_i v15 v16 v17 v18 e19
          split
          rename_i v20 v21 v22 e23
          have h24 : Good F P v22 := good_ofR e23 (State.newUid_good ha)
          extract_lets -merge +onlyGivenNames s25
          clear_value s25
          exact going_good (arbitrate_good (State.putRun_good h24))
        · rename_i v26 v27 v28 e29
          exact fin_good ha

theorem opProgUnload_good {x0 x1 x2} (ha : Good F P x2) : GoodL F P (opProgUnload x0 x1 x2) := by
  unfold opProgUnload
  extract_lets -merge +onlyGivenNames s0
  clear_value s0
  extract_lets -merge +onlyGivenNames s1
  clear_value s1
  extract_lets -merge +onlyGivenNames s2
  clear_value s2
  extract_lets -merge +onlyGivenNames s3
  clear_value s3
  extract_lets -merge +onlyGivenNames s4
  clear_value s4
  exact goodL_ite (fun y5 => fin_good ha) (fun y6 => goodL_ite (fun y7 => deferOp_good ha) (fun y8 => fin_good (State.delProg_good ha)))

theorem opSkiplogRead_good {x0 x1 x2} (ha : Good F P x2) : GoodL F P (opSkiplogRead x0 x1 x2) := by
  unfold opSkiplogRead
  split
  · rename_i v0 e1
    exact fin_good ha
  · rename_i v2 v3 e4
    extract_lets -merge +onlyGivenNames s5
    clear_value s5
    split
    · rename_i v6 v7 v8 e9
      have h10 : Good F P v7 := good_ofL e9 (vaWrite_good ha)
      exact stopAt_good h10
    · rename_i v11 v12 e13
      have h14 : Good F P v12 := good_ofL e13 (vaWrite_good ha)
      exact stopAt_good h14
    · rename_i v15 v16 e17
      have h18 : Good F P v16 := good_ofL e17 (vaWrite_good ha)
      exact fin_good (good_ite (fun y19 => State.updCtx_good h18) (fun y20 => h18))

theorem opLatchAlloc_good {x0 x1 x2} (ha : Good F P x2) : GoodL F P (opLatchAlloc x0 x1 x2) := by
  unfold opLatchAlloc
  extract_lets -merge +onlyGivenNames s0
  clear_value s0
  extract_lets -merge +onlyGivenNames s1
  clear_value s1
  extract_lets -merge +onlyGivenNames s2
  clear_value s2
  extract_lets -merge +onlyGivenNames s3
  clear_value s3
  extract_lets -merge +onlyGivenNames s4
  clear_value s4
  apply goodL_ite
  · exact fun y5 => fin_good ha
  · intro y6
    split
    · rename_i v7 e8
      exact fin_good ha
    · rename_i v9 v10 e11
      exact fin_good (State.putLatch_good ha)

theorem wakeCores_good {x0 x1} (ha : Good F P x1) : Good F P (wakeCores x0 x1) := by
  unfold wakeCores
  apply forEach_good
  · exact ha
  · intro y0 y1 h2
    split
    · rename_i v3 v4 v5 e6
      apply good_ite
      · exact fun y7 => h2
      · intro y8
        split
        · rename_i v9 e10
          exact State.modCore_good h2
        · rename_i v11 e12
          exact stopRun_good (State.modCore_good h2)
        · rename_i v13 e14
          exact h2
    · rename_i v15 e16
      exact h2

theorem failCmds_good {x0 x1} (ha : Good F P x1) : Good F P (failCmds x0 x1) := by
  unfold failCmds
  apply forEach_good
  · exact ha
  · intro y0 y1 h2
    split
    · rename_i v3 v4 e5
      split
      · rename_i v6 e7
        exact stopRun_good (poisonEnv_good h2)
      · rename_i v8 e9
        exact h2
    · rename_i v10 e11
      exact h2

theorem failWaits_good {x0 x1} (ha : Good F P x1) : Good F P (failWaits x0 x1) := by
  unfold failWaits
  apply forEach_good
  · exact ha
  · intro y0 y1 h2
    split
    · rename_i v3 e4
      exact h2
    · rename_i v5 v6 e7
      apply forEach_good
      · exact h2
      · intro y8 y9 h10
        split
        · rename_i v11 e12
          exact completeEntry_good h10
        · rename_i v13 e14
          exact h10

theorem evalWaits_good {x0 x1} (ha : Good F P x1) : Good F P (evalWaits x0 x1) := by
  unfold evalWaits
  exact failWaits_good (failCmds_good (wakeCores_good (noteMet_good ha)))

theorem opLatchFree_good {x0 x1 x2} (ha : Good F P x2) : GoodL F P (opLatchFree x0 x1 x2) := by
  unfold opLatchFree
  extract_lets -merge +onlyGivenNames s0
  clear_value s0
  exact goodL_ite (fun y1 => fin_good ha) (fun y2 => fin_good (freeLatch_good (evalWaits_good (poisonLatch_good ha))))

theorem opLatchSignal_good {x0 x1 x2} (ha : Good F P x2) : GoodL F P (opLatchSignal x0 x1 x2) := by
  unfold opLatchSignal
  exact goodL_ite (fun y0 => going_good ha) (fun y1 => fin_good ha)

theorem signalGo_good {x0 x1 x2} (ha : Good F P x2) : Good F P (signalGo x0 x1 x2) := by
  unfold signalGo
  split
  · rename_i v0 e1
    exact ha
  · rename_i v2 v3 e4
    apply good_ite
    · exact fun y5 => ha
    · intro y6
      extract_lets -merge +onlyGivenNames s7
      clear_value s7
      extract_lets -merge +onlyGivenNames s8
      have h9 : Good F P s8 := good_ite (fun y10 => signalLatch_good ha) (fun y11 => ha)
      clear_value s8
      exact completeEntry_good h9

theorem opLatchWait_good {x0 x1 x2} (ha : Good F P x2) : GoodL F P (opLatchWait x0 x1 x2) := by
  unfold opLatchWait
  exact goodL_ite (fun y0 => going_good ha) (fun y1 => fin_good ha)

theorem waitGo_good {x0 x1 x2} (ha : Good F P x2) : Good F P (waitGo x0 x1 x2) := by
  unfold waitGo
  split
  · rename_i v0 e1
    exact completeEntry_good ha
  · rename_i v2 e3
    exact completeEntry_good ha
  · rename_i v4 e5
    exact ha

theorem opLatchPoison_good {x0 x1 x2} (ha : Good F P x2) : GoodL F P (opLatchPoison x0 x1 x2) := by
  unfold opLatchPoison
  exact goodL_ite (fun y0 => fin_good (poisonLatch_good ha)) (fun y1 => fin_good ha)

theorem opLatchRead_good {x0 x1 x2} (ha : Good F P x2) : GoodL F P (opLatchRead x0 x1 x2) := by
  unfold opLatchRead
  split
  · rename_i v0 e1
    exact fin_good ha
  · rename_i v2 v3 e4
    apply goodL_ite
    · exact fun y5 => fin_good ha
    · intro y6
      extract_lets -merge +onlyGivenNames s7
      clear_value s7
      apply goodL_ite
      · exact fun y8 => fin_good ha
      · intro y9
        split
        · rename_i v10 v11 e12
          have h13 : Good F P v11 := good_ofL e12 (vaWrite_good ha)
          exact fin_good h13
        · rename_i v14 v15 v16 e17
          have h18 : Good F P v15 := good_ofL e17 (vaWrite_good ha)
          exact stopAt_good h18
        · rename_i v19 v20 e21
          have h22 : Good F P v20 := good_ofL e21 (vaWrite_good ha)
          exact stopAt_good h22

end Sys2Proof.Machine
end

