-- ==== Sys2Proof/Laws/GoodHostSeq.lean ====
section
/-! SUPPORT. What Machine/HostSeq.lean leaves as it found it: from a good state every definition there gives a good state. -/

namespace Sys2Proof.Machine

variable {F : Fuse} {P : List Instr}

theorem opSeqOpen_good {x0 x1 x2} (ha : Good F P x2) : GoodL F P (opSeqOpen x0 x1 x2) := by
  unfold opSeqOpen
  extract_lets -merge +onlyGivenNames s0
  clear_value s0
  extract_lets -merge +onlyGivenNames s1
  clear_value s1
  apply goodL_ite
  · exact fun y2 => fin_good ha
  · intro y3
    apply goodL_ite
    · exact fun y4 => fin_good ha
    · intro y5
      split
      · rename_i v6 v7 v8 v9 e10 e11
        split
        rename_i v12 v13 v14 e15
        have h16 : Good F P v14 := good_ofR e15 (State.newUid_good ha)
        split
        rename_i v17 v18 v19 e20
        have h21 : Good F P v19 := good_ofR e20 (State.fresh_good h16)
        extract_lets -merge +onlyGivenNames s22
        clear_value s22
        extract_lets -merge +onlyGivenNames s23
        clear_value s23
        extract_lets -merge +onlyGivenNames s24
        have h25 : Good F P s24 := State.putCalib_good (State.putSeq_good h21)
        clear_value s24
        extract_lets -merge +onlyGivenNames s26
        have h27 : Good F P s26 := vaPut_good h25
        clear_value s26
        split
        · rename_i v28 v29 e30
          have h31 : Good F P v29 := good_ofO e30 (reserveSlots_good h27)
          exact fin_good h31
        · rename_i v32 e33
          exact fin_good ha
      · rename_i v35 v36 e37
        exact fin_good ha

theorem opSeqCommit_good {x0 x1 x2} (ha : Good F P x2) : GoodL F P (opSeqCommit x0 x1 x2) := by
  unfold opSeqCommit
  extract_lets -merge +onlyGivenNames s0
  clear_value s0
  split
  · rename_i v1 e2
    exact fin_good ha
  · rename_i v3 v4 e5
    apply goodL_ite
    · exact fun y6 => deferOp_good ha
    · intro y7
      split
      rename_i v8 v9 v10 e11
      have h12 : Good F P v10 := good_ofR e11 (seqCommitDo_good ha)
      exact fin_good h12

theorem opSeqDrop_good {x0 x1 x2} (ha : Good F P x2) : GoodL F P (opSeqDrop x0 x1 x2) := by
  unfold opSeqDrop
  extract_lets -merge +onlyGivenNames s0
  clear_value s0
  extract_lets -merge +onlyGivenNames s1
  clear_value s1
  extract_lets -merge +onlyGivenNames s2
  clear_value s2
  extract_lets -merge +onlyGivenNames s3
  clear_value s3
  extract_lets -merge +onlyGivenNames s4
  clear_value s4
  split
  · rename_i v5 e6
    exact fin_good ha
  · rename_i v7 v8 e9
    apply goodL_ite
    · exact fun y10 => deferOp_good ha
    · intro y11
      apply goodL_ite
      · exact fun y12 => fin_good ha
      · intro y13
        extract_lets -merge +onlyGivenNames s14
        clear_value s14
        extract_lets -merge +onlyGivenNames s15
        clear_value s15
        extract_lets -merge +onlyGivenNames s16
        clear_value s16
        extract_lets -merge +onlyGivenNames s17
        have h18 : Good F P s17 := State.updSeq_good ha
        clear_value s17
        extract_lets -merge +onlyGivenNames s19
        have h20 : Good F P s19 := freePages_good h18
        clear_value s19
        exact fin_good (forEach_good h20 (fun y21 y22 h23 => writePte_good h23))

theorem opSeqClose_good {x0 x1 x2} (ha : Good F P x2) : GoodL F P (opSeqClose x0 x1 x2) := by
  unfold opSeqClose
  extract_lets -merge +onlyGivenNames s0
  clear_value s0
  split
  · rename_i v1 e2
    exact fin_good ha
  · rename_i v3 v4 e5
    apply goodL_ite
    · exact fun y6 => deferOp_good ha
    · intro y7
      extract_lets -merge +onlyGivenNames s8
      clear_value s8
      exact fin_good (closeSeq_good ha)

end Sys2Proof.Machine
end

