-- ==== Sys2Proof/Laws/GoodHostReq.lean ====
section
/-! SUPPORT. What Machine/HostReq.lean leaves as it found it: from a good state every definition there gives a good state. -/

namespace Sys2Proof.Machine

variable {F : Fuse} {P : List Instr}

theorem opReqSubmit_good {x0 x1 x2} (ha : Good F P x2) : GoodL F P (opReqSubmit x0 x1 x2) := by
  unfold opReqSubmit
  extract_lets -merge +onlyGivenNames s0
  clear_value s0
  extract_lets -merge +onlyGivenNames s1
  clear_value s1
  extract_lets -merge +onlyGivenNames s2
  clear_value s2
  apply goodL_ite
  · exact fun y3 => fin_good ha
  · intro y4
    apply goodL_ite
    · exact fun y5 => fin_good ha
    · intro y6
      apply goodL_ite
      · exact fun y7 => fin_good ha
      · intro y8
        apply goodL_ite
        · exact fun y9 => deferOp_good ha
        · intro y10
          apply goodL_ite
          · exact fun y11 => fin_good ha
          · intro y12
            split
            · rename_i v13 e14
              exact fin_good ha
            · rename_i v15 v16 e17
              split
              rename_i v18 v19 v20 e21
              have h22 : Good F P v20 := good_ofR e21 (State.newUid_good ha)
              extract_lets -merge +onlyGivenNames s23
              have h24 : Good F P s23 := State.putReq_good h22
              clear_value s23
              extract_lets -merge +onlyGivenNames s25
              have h26 : Good F P s25 := forEach_good h24 (fun y27 y28 h29 => State.updSeq_good h29)
              clear_value s25
              exact fin_good h26

theorem opReqCancel_good {x0 x1 x2} (ha : Good F P x2) : GoodL F P (opReqCancel x0 x1 x2) := by
  unfold opReqCancel
  extract_lets -merge +onlyGivenNames s0
  clear_value s0
  apply goodL_ite
  · exact fun y1 => fin_good ha
  · intro y2
    split
    · rename_i v3 e4
      exact fin_good ha
    · rename_i v5 v6 e7
      exact goodL_ite (fun y8 => fin_good ha) (fun y9 => going_good (State.updReq_good ha))

theorem cancelGo_good {x0 x1 x2} (ha : Good F P x2) : Good F P (cancelGo x0 x1 x2) := by
  unfold cancelGo
  split
  · rename_i v0 v1 e2
    exact good_ite (fun y3 => completeEntry_good ha) (fun y4 => ha)
  · rename_i v5 e6
    exact completeEntry_good ha

theorem addJob_good {x0 x1} (ha : Good F P x1) : Good F P (addJob x0 x1) := by
  unfold addJob
  apply good_ite
  · exact fun y0 => ha
  · intro y1
    split
    rename_i v2 v3 v4 e5
    have h6 : Good F P v4 := good_ofR e5 (State.newUid_good ha)
    exact State.putJob_good h6

theorem jobStarted_good {x0 x1} (ha : Good F P x1) : GoodL F P (jobStarted x0 x1) := by
  unfold jobStarted
  exact goodL_ite (fun y0 => going_good ha) (fun y1 => fin_good ha)

theorem startPark_good {x0 x1 x2 x3 x4 x5 x6} (ha : Good F P x6) : Good F P (startPark x0 x1 x2 x3 x4 x5 x6) := by
  unfold startPark
  extract_lets -merge +onlyGivenNames s0
  extract_lets -merge +onlyGivenNames s1
  clear_value s1
  extract_lets -merge +onlyGivenNames s2
  have h3 : Good F P s2 := freePages_good ha
  clear_value s2
  extract_lets -merge +onlyGivenNames s4
  clear_value s4
  exact addJob_good h3

theorem opReqPark_good {x0 x1 x2} (ha : Good F P x2) : GoodL F P (opReqPark x0 x1 x2) := by
  unfold opReqPark
  extract_lets -merge +onlyGivenNames s0
  clear_value s0
  extract_lets -merge +onlyGivenNames s1
  clear_value s1
  extract_lets -merge +onlyGivenNames s2
  clear_value s2
  exact goodL_ite (fun y3 => fin_good ha) (fun y4 => goodL_ite (fun y5 => fin_good ha) (fun y6 => goodL_ite (fun y7 => deferOp_good ha) (fun y8 => jobStarted_good (startPark_good ha))))

theorem startRestore_good {x0 x1 x2 x3 x4 x5} (ha : Good F P x5) : Good F P (startRestore x0 x1 x2 x3 x4 x5) := by
  unfold startRestore
  extract_lets -merge +onlyGivenNames s0
  clear_value s0
  exact addJob_good ha

theorem adoptOne_good {x0 x1 x2 x3 x4} (ha : Good F P x4) : Good F P (adoptOne x0 x1 x2 x3 x4) := by
  unfold adoptOne
  extract_lets -merge +onlyGivenNames s0
  clear_value s0
  extract_lets -merge +onlyGivenNames s1
  clear_value s1
  extract_lets -merge +onlyGivenNames s2
  have h3 : Good F P s2 := State.putFdir_good ha
  clear_value s2
  extract_lets -merge +onlyGivenNames s4
  have h5 : Good F P s4 := State.updPage_good h3
  clear_value s4
  extract_lets -merge +onlyGivenNames s6
  have h7 : Good F P s6 := writePte_good h5
  clear_value s6
  split
  · rename_i v8 v9 v10 v11
    exact writePte_good h7
  · rename_i v12
    exact h7

theorem opReqResume_good {x0 x1 x2} (ha : Good F P x2) : GoodL F P (opReqResume x0 x1 x2) := by
  unfold opReqResume
  extract_lets -merge +onlyGivenNames s0
  clear_value s0
  extract_lets -merge +onlyGivenNames s1
  clear_value s1
  extract_lets -merge +onlyGivenNames s2
  clear_value s2
  extract_lets -merge +onlyGivenNames s3
  clear_value s3
  extract_lets -merge +onlyGivenNames s4
  clear_value s4
  extract_lets -merge +onlyGivenNames s5
  clear_value s5
  extract_lets -merge +onlyGivenNames s6
  clear_value s6
  apply goodL_ite
  · exact fun y7 => fin_good ha
  · intro y8
    apply goodL_ite
    · exact fun y9 => fin_good ha
    · intro y10
      apply goodL_ite
      · exact fun y11 => deferOp_good ha
      · intro y12
        apply goodL_ite
        · exact fun y13 => jobStarted_good (startRestore_good ha)
        · intro y14
          extract_lets -merge +onlyGivenNames s15
          clear_value s15
          apply goodL_ite
          · exact fun y16 => fin_good ha
          · intro y17
            extract_lets -merge +onlyGivenNames s18
            have h19 : Good F P s18 := by
              unfold s18
              apply forEach_good
              · exact ha
              · intro y20 y21 h22
                split
                · rename_i v23 e24
                  exact h22
                · rename_i v25 v26 e27
                  exact forEach_good (State.updSeq_good h22) (fun y28 y29 h30 => adoptOne_good h30)
            clear_value s18
            exact jobStarted_good (startRestore_good h19)

end Sys2Proof.Machine
end

