-- ==== Sys2Proof/Laws/GoodHostMaint.lean ====
section
/-! SUPPORT. What Machine/HostMaint.lean leaves as it found it: from a good state every definition there gives a good state. -/

namespace Sys2Proof.Machine

variable {F : Fuse} {P : List Instr}

theorem opSelftest_good {x0 x1 x2} (ha : Good F P x2) : GoodL F P (opSelftest x0 x1 x2) := by
  unfold opSelftest
  extract_lets -merge +onlyGivenNames s0
  clear_value s0
  extract_lets -merge +onlyGivenNames s1
  clear_value s1
  extract_lets -merge +onlyGivenNames s2
  clear_value s2
  extract_lets -merge +onlyGivenNames s3
  clear_value s3
  exact goodL_ite (fun y4 => fin_good ha) (fun y5 => goodL_ite (fun y6 => fin_good ha) (fun y7 => goodL_ite (fun y8 => deferOp_good ha) (fun y9 => goodL_ite (fun y10 => fin_good ha) (fun y11 => goodL_ite (fun y12 => deferOp_good ha) (fun y13 => going_good (State.modCas_good ha))))))

theorem havocWindow_good {x0 x1} (ha : Good F P x1) : Good F P (havocWindow x0 x1) := by
  unfold havocWindow
  split
  rename_i v0 v1 v2 e3
  have h4 : Good F P v2 := good_ofR e3 (State.fresh_good ha)
  exact State.putWinFree_good (State.onWindow_good h4)

theorem zeroBanks_good {x0 x1} (ha : Good F P x1) : Good F P (zeroBanks x0 x1) := by
  unfold zeroBanks
  apply forEach_good
  · exact ha
  · intro y0 y1 h2
    extract_lets -merge +onlyGivenNames s3
    clear_value s3
    exact State.onHealth_good (State.onStackMem_good h2 (fun y4 y5 => wf_mclear _ _ (by assumption)))

theorem selftestDone_good {x0 x1 x2} (ha : Good F P x2) : Good F P (selftestDone x0 x1 x2) := by
  unfold selftestDone
  split
  · rename_i v0 e1
    exact ha
  · rename_i v2 v3 v4 v5 v6 e7
    extract_lets -merge +onlyGivenNames s8
    have h9 : Good F P s8 := State.modCas_good ha
    clear_value s8
    extract_lets -merge +onlyGivenNames s10
    have h11 : Good F P s10 := good_ite (fun y12 => zeroBanks_good h9) (fun y13 => h9)
    clear_value s10
    extract_lets -merge +onlyGivenNames s14
    have h15 : Good F P s14 := good_ite (fun y16 => havocWindow_good h11) (fun y17 => h11)
    clear_value s14
    split
    · rename_i v18 e19
      exact h15
    · rename_i v20 v21 e22
      extract_lets -merge +onlyGivenNames s23
      have h24 : Good F P s23 := busWrite_good h15
      clear_value s23
      extract_lets -merge +onlyGivenNames s25
      clear_value s25
      exact completeEntry_good h24

theorem dropTest_good {x0 x1} (ha : Good F P x1) : Good F P (dropTest x0 x1) := by
  unfold dropTest
  split
  · rename_i v0 e1
    exact ha
  · rename_i v2 v3 v4 v5 v6 e7
    extract_lets -merge +onlyGivenNames s8
    have h9 : Good F P s8 := State.modCas_good ha
    clear_value s8
    extract_lets -merge +onlyGivenNames s10
    have h11 : Good F P s10 := good_ite (fun y12 => zeroBanks_good h9) (fun y13 => h9)
    clear_value s10
    extract_lets -merge +onlyGivenNames s14
    have h15 : Good F P s14 := good_ite (fun y16 => havocWindow_good h11) (fun y17 => h11)
    clear_value s14
    split
    · rename_i v18 e19
      exact h15
    · rename_i v20 v21 e22
      split
      rename_i v23 v24 v25 e26
      have h27 : Good F P v25 := good_ofR e26 (State.fresh_good h15)
      exact setDone_good (busWrite_good h27)

theorem eccDo_good {x0 x1 x2} (ha : Good F P x2) : GoodL F P (eccDo x0 x1 x2) := by
  unfold eccDo
  extract_lets -merge +onlyGivenNames s0
  clear_value s0
  extract_lets -merge +onlyGivenNames s1
  clear_value s1
  extract_lets -merge +onlyGivenNames s2
  clear_value s2
  extract_lets -merge +onlyGivenNames s3
  clear_value s3
  extract_lets -merge +onlyGivenNames s4
  clear_value s4
  extract_lets -merge +onlyGivenNames s5
  clear_value s5
  extract_lets -merge +onlyGivenNames s6
  clear_value s6
  extract_lets -merge +onlyGivenNames s7
  clear_value s7
  extract_lets -merge +onlyGivenNames s8
  clear_value s8
  extract_lets -merge +onlyGivenNames s9
  extract_lets -merge +onlyGivenNames s10
  have h11 : Good F P s10 := good_ite (fun y12 => ha) (fun y13 => reachBank_good ha)
  clear_value s10
  apply goodL_ite
  · exact fun y14 => fin_good (State.putWindow_good h11)
  · intro y15
    apply goodL_ite
    · exact fun y16 => fin_good (busWrite_good h11)
    · intro y17
      split
      rename_i v18 v19 v20 e21
      extract_lets -merge +onlyGivenNames s22
      clear_value s22
      apply goodL_ite
      · exact fun y23 => fin_good (busWrite_good h11)
      · intro y24
        extract_lets -merge +onlyGivenNames s25
        have h26 : Good F P s25 := good_ite (fun y27 => h11) (fun y28 => good_ite (fun y29 => countCorr_good h11) (fun y30 => good_ite (fun y31 => h11) (fun y32 => logUeAt_good h11)))
        clear_value s25
        exact fin_good (busWrite_good h26)

theorem opEccTest_good {x0 x1 x2} (ha : Good F P x2) : GoodL F P (opEccTest x0 x1 x2) := by
  unfold opEccTest
  extract_lets -merge +onlyGivenNames s0
  clear_value s0
  extract_lets -merge +onlyGivenNames s1
  clear_value s1
  extract_lets -merge +onlyGivenNames s2
  clear_value s2
  extract_lets -merge +onlyGivenNames s3
  clear_value s3
  exact goodL_ite (fun y4 => fin_good ha) (fun y5 => goodL_ite (fun y6 => fin_good ha) (fun y7 => goodL_ite (fun y8 => deferOp_good ha) (fun y9 => goodL_ite (fun y10 => going_good ha) (fun y11 => eccDo_good ha))))

theorem eccGo_good {x0 x1 x2} (ha : Good F P x2) : Good F P (eccGo x0 x1 x2) := by
  unfold eccGo
  apply good_ite
  · exact fun y0 => ha
  · intro y1
    apply attempt_good
    · intro y2 h3
      split
      · rename_i v4 v5 v6 v7 e8
        have h9 : Good F P v5 := good_ofL e8 (eccDo_good h3)
        exact completeEntry_good h9
      · rename_i v10 v11 e12
        have h13 : Good F P v11 := good_ofL e12 (eccDo_good h3)
        exact h13
    · exact ha

theorem opLinkCalib_good {x0 x1 x2} (ha : Good F P x2) : GoodL F P (opLinkCalib x0 x1 x2) := by
  unfold opLinkCalib
  extract_lets -merge +onlyGivenNames s0
  clear_value s0
  extract_lets -merge +onlyGivenNames s1
  have h2 : Good F P s1 := updEntry_good ha
  clear_value s1
  exact going_good (forEach_good h2 (fun y3 y4 h5 => State.modPort_good h5))

theorem calibGo_good {x0 x1 x2} (ha : Good F P x2) : Good F P (calibGo x0 x1 x2) := by
  unfold calibGo
  exact good_ite (fun y0 => ha) (fun y1 => completeEntry_good ha)

theorem opPwrSetLimit_good {x0 x1 x2} (ha : Good F P x2) : GoodL F P (opPwrSetLimit x0 x1 x2) := by
  unfold opPwrSetLimit
  extract_lets -merge +onlyGivenNames s0
  clear_value s0
  apply goodL_ite
  · exact fun y1 => fin_good ha
  · intro y2
    extract_lets -merge +onlyGivenNames s3
    have h4 : Good F P s3 := State.onLvr_good ha
    clear_value s3
    exact fin_good h4

theorem opPwrRead_good {x0 x1 x2} (ha : Good F P x2) : GoodL F P (opPwrRead x0 x1 x2) := by
  unfold opPwrRead
  exact fin_good (good_ite (fun y0 => ha) (fun y1 => busWrite_good ha))

end Sys2Proof.Machine
end

