-- ==== Sys2Proof/Laws/GoodHostFab.lean ====
section
/-! SUPPORT. What Machine/HostFab.lean leaves as it found it: from a good state every definition there gives a good state. -/

namespace Sys2Proof.Machine

variable {F : Fuse} {P : List Instr}

theorem sendAsk_good {x0 x1 x2} (ha : Good F P x2) : Good F P (sendAsk x0 x1 x2) := by
  unfold sendAsk
  exact State.onFab_good (sendMsg_good ha)

theorem answered_good {x0 x1 x2} (ha : Good F P x2) : Good F P (answered x0 x1 x2) := by
  unfold answered
  exact State.onFab_good ha

theorem sendAll_good {x0 x1} (ha : Good F P x1) : Good F P (sendAll x0 x1) := by
  unfold sendAll
  exact forEach_good ha (fun y0 y1 h2 => sendMsg_good h2)

theorem fabAnswer_good {x0 x1} (ha : Good F P x1) : Good F P (fabAnswer x0 x1) := by
  unfold fabAnswer
  extract_lets -merge +onlyGivenNames s0
  clear_value s0
  extract_lets -merge +onlyGivenNames s1
  have h2 : Good F P s1 := State.onFab_good ha
  clear_value s1
  split
  · rename_i v3 v4 v5
    exact completeEntry_good h2
  · rename_i v6
    exact h2

theorem retrainAll_good {x0} (ha : Good F P x0) : Good F P (retrainAll x0) := by
  unfold retrainAll
  exact forEach_good ha (fun y0 y1 h2 => good_ite (fun y3 => h2) (fun y4 => setPort_good h2))

theorem applyCompat_good {x0} (ha : Good F P x0) : Good F P (applyCompat x0) := by
  unfold applyCompat
  exact retrainAll_good (State.onDev_good ha)

theorem leaveGroup_good {x0} (ha : Good F P x0) : Good F P (leaveGroup x0) := by
  unfold leaveGroup
  extract_lets -merge +onlyGivenNames s0
  have h1 : Good F P s0 := State.onPlan_good ha
  clear_value s0
  extract_lets -merge +onlyGivenNames s2
  clear_value s2
  extract_lets -merge +onlyGivenNames s3
  have h4 : Good F P s3 := State.onFab_good h1
  clear_value s3
  extract_lets -merge +onlyGivenNames s5
  have h6 : Good F P s5 := State.onLvr_good h4
  clear_value s5
  exact good_ite (fun y7 => applyCompat_good h6) (fun y8 => h6)

theorem dropPlans_good {x0} (ha : Good F P x0) : Good F P (dropPlans x0) := by
  unfold dropPlans
  exact State.onPlan_good ha

theorem endGrace_good {x0 x1} (ha : Good F P x1) : Good F P (endGrace x0 x1) := by
  unfold endGrace
  exact dropPlans_good (State.onPlan_good ha)

theorem planRoom_good {x0 x1 x2} (ha : Good F P x2) : Good F P (planRoom x0 x1 x2) := by
  induction x1 generalizing x0 x2 with
  | zero =>
    rw [planRoom]
    exact ha
  | succ n ih =>
    rw [planRoom]
    apply good_ite
    · exact fun y0 => ha
    · intro y1
      split
      · rename_i v2 v3 e4
        apply ih
        exact endGrace_good ha
      · rename_i v5 e6
        exact ha

theorem installPlans_good {x0 x1 x2 x3} (ha : Good F P x3) : Good F P (installPlans x0 x1 x2 x3) := by
  unfold installPlans
  extract_lets -merge +onlyGivenNames s0
  have h1 : Good F P s0 := State.onPlan_good ha
  clear_value s0
  extract_lets -merge +onlyGivenNames s2
  have h3 : Good F P s2 := planRoom_good h1
  clear_value s2
  extract_lets -merge +onlyGivenNames s4
  have h5 : Good F P s4 := forEach_good h3 (fun y6 y7 h8 => State.putPlan_good h8)
  clear_value s4
  exact State.onFab_good h5

theorem writeJoin_good {x0 x1} (ha : Good F P x1) : Good F P (writeJoin x0 x1) := by
  unfold writeJoin
  split
  · rename_i v0 v1 v2 e3
    exact busWrite_good ha
  · rename_i v4 e5
    exact ha

theorem holdAnnounce_good {x0 x1} (ha : Good F P x1) : Good F P (holdAnnounce x0 x1) := by
  unfold holdAnnounce
  exact State.onFab_good ha

theorem refuseJoin_good {x0 x1 x2 x3} (ha : Good F P x3) : Good F P (refuseJoin x0 x1 x2 x3) := by
  unfold refuseJoin
  extract_lets -merge +onlyGivenNames s0
  have h1 : Good F P s0 := State.onFab_good ha
  clear_value s0
  exact good_ite (fun y2 => fabAnswer_good h1) (fun y3 => sendMsgV_good h1)

theorem lintelChange_good {x0 x1} (ha : Good F P x1) : Good F P (lintelChange x0 x1) := by
  unfold lintelChange
  exact trace_good ha

theorem commitGroup_good {x0 x1} (ha : Good F P x1) : Good F P (commitGroup x0 x1) := by
  unfold commitGroup
  extract_lets -merge +onlyGivenNames s0
  clear_value s0
  extract_lets -merge +onlyGivenNames s1
  clear_value s1
  extract_lets -merge +onlyGivenNames s2
  apply good_ite
  · exact fun y3 => ha
  · intro y4
    apply good_ite
    · intro y5
      extract_lets -merge +onlyGivenNames s6
      have h7 : Good F P s6 := by
        unfold s6
        unfold s2
        exact State.onFab_good (good_ite (fun y8 => State.onFab_good ha) (fun y9 => lintelChange_good (State.onFab_good ha)))
      clear_value s6
      extract_lets -merge +onlyGivenNames s10
      have h11 : Good F P s10 := installPlans_good h7
      clear_value s10
      exact fabAnswer_good (writeJoin_good (identAll_good h11))
    · intro y12
      apply good_ite
      · intro y13
        apply answered_good
        unfold s2
        exact State.onFab_good (good_ite (fun y14 => ha) (fun y15 => lintelChange_good ha))
      · exact fun y16 => ha

theorem tryForm_good {x0} (ha : Good F P x0) : Good F P (tryForm x0) := by
  unfold tryForm
  extract_lets -merge +onlyGivenNames s0
  clear_value s0
  extract_lets -merge +onlyGivenNames s1
  clear_value s1
  apply good_ite
  · exact fun y2 => ha
  · intro y3
    extract_lets -merge +onlyGivenNames s4
    clear_value s4
    extract_lets -merge +onlyGivenNames s5
    clear_value s5
    extract_lets -merge +onlyGivenNames s6
    clear_value s6
    apply good_ite
    · exact fun y7 => forEach_good ha (fun y8 y9 h10 => refuseJoin_good h10)
    · intro y11
      apply good_ite
      · exact fun y12 => ha
      · intro y13
        extract_lets -merge +onlyGivenNames s14
        clear_value s14
        extract_lets -merge +onlyGivenNames s15
        have h16 : Good F P s15 := forEach_good ha (fun y17 y18 h19 => sendMsgV_good h19)
        clear_value s15
        exact commitGroup_good h16

theorem startJoin_good {x0 x1 x2 x3} (ha : Good F P x3) : Good F P (startJoin x0 x1 x2 x3) := by
  unfold startJoin
  extract_lets -merge +onlyGivenNames s0
  clear_value s0
  extract_lets -merge +onlyGivenNames s1
  extract_lets -merge +onlyGivenNames s2
  clear_value s2
  extract_lets -merge +onlyGivenNames s3
  have h4 : Good F P s3 := State.onFab_good ha
  clear_value s3
  extract_lets -merge +onlyGivenNames s5
  have h6 : Good F P s5 := identAll_good (State.onFab_good h4)
  clear_value s5
  exact good_ite (fun y7 => tryForm_good (holdAnnounce_good h6)) (fun y8 => sendMsg_good h6)

theorem takePlans_good {x0 x1} (ha : Good F P x1) : Good F P (takePlans x0 x1) := by
  unfold takePlans
  apply good_ite
  · exact fun y0 => ha
  · intro y1
    extract_lets -merge +onlyGivenNames s2
    have h3 : Good F P s2 := installPlans_good ha
    clear_value s2
    exact good_ite (fun y4 => fabAnswer_good (answered_good h3)) (fun y5 => good_ite (fun y6 => fabAnswer_good (writeJoin_good (answered_good h3))) (fun y7 => h3))

theorem rebuildPlans_good {x0 x1} (ha : Good F P x1) : Good F P (rebuildPlans x0 x1) := by
  unfold rebuildPlans
  extract_lets -merge +onlyGivenNames s0
  clear_value s0
  extract_lets -merge +onlyGivenNames s1
  have h2 : Good F P s1 := sendAll_good ha
  clear_value s1
  exact takePlans_good h2

theorem addTeam_good {x0 x1 x2} (ha : Good F P x2) : GoodOR F P (addTeam x0 x1 x2) := by
  unfold addTeam
  split
  · rename_i v0 e1
    exact goodOR_none
  · rename_i v2 v3 e4
    extract_lets -merge +onlyGivenNames s5
    clear_value s5
    extract_lets -merge +onlyGivenNames s6
    clear_value s6
    extract_lets -merge +onlyGivenNames s7
    have h8 : Good F P s7 := State.onFab_good ha
    clear_value s7
    extract_lets -merge +onlyGivenNames s9
    have h10 : Good F P s9 := sendAll_good h8
    clear_value s9
    exact goodOR_some (goodR_mk (takePlans_good h10))

theorem opFabJoin_good {x0 x1 x2} (ha : Good F P x2) : GoodL F P (opFabJoin x0 x1 x2) := by
  unfold opFabJoin
  extract_lets -merge +onlyGivenNames s0
  clear_value s0
  apply goodL_ite
  · exact fun y1 => fin_good ha
  · intro y2
    apply goodL_ite
    · exact fun y3 => deferOp_good ha
    · intro y4
      apply goodL_ite
      · exact fun y5 => going_good (startJoin_good ha)
      · intro y6
        apply goodL_ite
        · exact fun y7 => stopAt_good ha
        · intro y8
          extract_lets -merge +onlyGivenNames s9
          clear_value s9
          apply goodL_ite
          · intro y10
            extract_lets -merge +onlyGivenNames s11
            clear_value s11
            apply goodL_ite
            · exact fun y12 => goodL_ite (fun y13 => fin_good (rebuildPlans_good ha)) (fun y14 => fin_good ha)
            · intro y15
              extract_lets -merge +onlyGivenNames s16
              have h17 : Good F P s16 := State.onFab_good ha
              clear_value s16
              exact going_good (sendAsk_good h17)
          · intro y18
            extract_lets -merge +onlyGivenNames s19
            clear_value s19
            extract_lets -merge +onlyGivenNames s20
            clear_value s20
            apply goodL_ite
            · intro y21
              split
              · rename_i v22 e23
                exact fin_good ha
              · rename_i v25 v26 v27 e28
                have h29 : Good F P v27 := good_ofOR e28 (addTeam_good ha)
                exact fin_good (busWrite_good h29)
            · intro y30
              extract_lets -merge +onlyGivenNames s31
              have h32 : Good F P s31 := State.onFab_good ha
              clear_value s31
              exact going_good (sendAsk_good h32)

theorem opFabLeave_good {x0 x1 x2} (ha : Good F P x2) : GoodL F P (opFabLeave x0 x1 x2) := by
  unfold opFabLeave
  exact goodL_ite (fun y0 => fin_good ha) (fun y1 => going_good ha)

theorem leaveGo_good {x0 x1 x2} (ha : Good F P x2) : Good F P (leaveGo x0 x1 x2) := by
  unfold leaveGo
  apply good_ite
  · exact fun y0 => ha
  · intro y1
    apply good_ite
    · exact fun y2 => completeEntry_good ha
    · intro y3
      extract_lets -merge +onlyGivenNames s4
      clear_value s4
      split
      · rename_i v5 v6 v7 v8 e9 e10
        exact leaveGroup_good (completeEntry_good ha)
      · rename_i v11 v12 v13 e14 e15
        exact leaveGroup_good (completeEntry_good ha)
      · rename_i v16 v17 v18 v19 v20 e21 e22
        extract_lets -merge +onlyGivenNames s23
        have h24 : Good F P s23 := sendAll_good ha
        clear_value s23
        extract_lets -merge +onlyGivenNames s25
        have h26 : Good F P s25 := State.onFab_good (lintelChange_good h24)
        clear_value s25
        exact sendAsk_good h26
      · rename_i v27 v28 v29 v30 e31
        extract_lets -merge +onlyGivenNames s32
        have h33 : Good F P s32 := State.onFab_good ha
        clear_value s32
        exact sendAsk_good h33

theorem opFabStatus_good {x0 x1 x2} (ha : Good F P x2) : GoodL F P (opFabStatus x0 x1 x2) := by
  unfold opFabStatus
  extract_lets -merge +onlyGivenNames s0
  clear_value s0
  apply goodL_ite
  · exact fun y1 => fin_good ha
  · intro y2
    extract_lets -merge +onlyGivenNames s3
    clear_value s3
    extract_lets -merge +onlyGivenNames s4
    clear_value s4
    exact fin_good (busWrite_good ha)

end Sys2Proof.Machine
end

