-- ==== Sys2Proof/Laws/GoodMoves.lean ====
section
/-! SUPPORT. What Machine/Moves.lean leaves as it found it: from a good state every definition there gives a good state. -/

namespace Sys2Proof.Machine

variable {F : Fuse} {P : List Instr}

theorem toLintel_good {x0 x1 x2} (ha : ∀ ya, Good F P ya → Good F P (x1 ya)) (hb : Good F P x2) : Good F P (toLintel x0 x1 x2) := by
  unfold toLintel
  apply good_ite
  · intro y0
    apply ha
    exact hb
  · exact fun y1 => sendMsg_good hb

theorem commitPlace_good {x0 x1 x2} (ha : Good F P x2) : Good F P (commitPlace x0 x1 x2) := by
  unfold commitPlace
  split
  · rename_i v0 e1
    exact ha
  · rename_i v2 v3 e4
    apply good_ite
    · exact fun y5 => ha
    · intro y6
      extract_lets -merge +onlyGivenNames s7
      clear_value s7
      extract_lets -merge +onlyGivenNames s8
      clear_value s8
      extract_lets -merge +onlyGivenNames s9
      have h10 : Good F P s9 := good_ite (fun y11 => ha) (fun y12 => vaPut_good ha)
      clear_value s9
      exact State.modCas_good h10

theorem abortPlace_good {x0 x1} (ha : Good F P x1) : Good F P (abortPlace x0 x1) := by
  unfold abortPlace
  exact State.modCas_good ha

theorem releasePlace_good {x0 x1} (ha : Good F P x1) : Good F P (releasePlace x0 x1) := by
  unfold releasePlace
  exact State.modCas_good ha

theorem givePlace_good {x0 x1 x2} (ha : Good F P x2) : Good F P (givePlace x0 x1 x2) := by
  unfold givePlace
  split
  · rename_i v0 e1
    exact ha
  · rename_i v2 v3 e4
    extract_lets -merge +onlyGivenNames s5
    clear_value s5
    exact State.onFab_good (sendAsk_good ha)

theorem stageAnswered_good {x0 x1 x2} (ha : Good F P x2) : Good F P (stageAnswered x0 x1 x2) := by
  unfold stageAnswered
  exact State.onFab_good ha

theorem tryCommit_good {x0 x1} (ha : Good F P x1) : Good F P (tryCommit x0 x1) := by
  unfold tryCommit
  split
  · rename_i v0 e1
    exact ha
  · rename_i v2 v3 e4
    apply good_ite
    · exact fun y5 => ha
    · intro y6
      extract_lets -merge +onlyGivenNames s7
      clear_value s7
      extract_lets -merge +onlyGivenNames s8
      clear_value s8
      extract_lets -merge +onlyGivenNames s9
      have h10 : Good F P s9 := sendAll_good ha
      clear_value s9
      extract_lets -merge +onlyGivenNames s11
      have h12 : Good F P s11 := State.onFab_good h10
      clear_value s11
      exact forEach_good (commitPlace_good h12) (fun y13 y14 h15 => givePlace_good h15)

theorem tryRelease_good {x0 x1} (ha : Good F P x1) : Good F P (tryRelease x0 x1) := by
  unfold tryRelease
  split
  · rename_i v0 e1
    exact ha
  · rename_i v2 v3 v4 e5
    exact good_ite (fun y6 => releasePlace_good (State.onFab_good (sendAll_good ha))) (fun y7 => ha)

theorem recheckMoves_good {x0} (ha : Good F P x0) : Good F P (recheckMoves x0) := by
  unfold recheckMoves
  extract_lets -merge +onlyGivenNames s0
  have h1 : Good F P s0 := forEach_good ha (fun y2 y3 h4 => tryCommit_good h4)
  clear_value s0
  exact forEach_good h1 (fun y5 y6 h7 => tryRelease_good h7)

theorem gotStaged_good {x0 x1 x2 x3} (ha : Good F P x3) : Good F P (gotStaged x0 x1 x2 x3) := by
  unfold gotStaged
  apply good_ite
  · exact fun y0 => ha
  · intro y1
    apply good_ite
    · intro y2
      extract_lets -merge +onlyGivenNames s3
      have h4 : Good F P s3 := State.onFab_good (stageAnswered_good ha)
      clear_value s3
      exact sendMsg_good h4
    · intro y5
      split
      · rename_i v6 e7
        exact ha
      · rename_i v8 v9 e10
        exact tryCommit_good (State.onFab_good (stageAnswered_good ha))

theorem gotReport_good {x0 x1 x2 x3 x4 x5} (ha : Good F P x5) : Good F P (gotReport x0 x1 x2 x3 x4 x5) := by
  unfold gotReport
  exact good_ite (fun y0 => ha) (fun y1 => tryRelease_good (State.onFab_good ha))

theorem stageTimeout_good {x0 x1} (ha : Good F P x1) : Good F P (stageTimeout x0 x1) := by
  unfold stageTimeout
  split
  · rename_i v0 e1
    exact ha
  · rename_i v2 v3 e4
    exact good_ite (fun y5 => ha) (fun y6 => abortPlace_good (State.onFab_good (sendAll_good (stageAnswered_good ha))))

theorem stageGo_good {x0 x1} (ha : Good F P x1) : Good F P (stageGo x0 x1) := by
  unfold stageGo
  extract_lets -merge +onlyGivenNames s0
  clear_value s0
  split
  · rename_i v1 v2 v3 v4 e5 e6
    apply good_ite
    · exact fun y7 => ha
    · intro y8
      split
      rename_i v9 v10 v11 e12
      extract_lets -merge +onlyGivenNames s13
      clear_value s13
      extract_lets -merge +onlyGivenNames s14
      clear_value s14
      extract_lets -merge +onlyGivenNames s15
      clear_value s15
      extract_lets -merge +onlyGivenNames s16
      have h17 : Good F P s16 := forEach_good ha (fun y18 y19 h20 => vaPut_good h20)
      clear_value s16
      extract_lets -merge +onlyGivenNames s21
      have h22 : Good F P s21 := vaPut_good h17
      clear_value s21
      extract_lets -merge +onlyGivenNames s23
      have h24 : Good F P s23 := vaPut_good h22
      clear_value s23
      extract_lets -merge +onlyGivenNames s25
      clear_value s25
      extract_lets -merge +onlyGivenNames s26
      have h27 : Good F P s26 := State.modCas_good h24
      clear_value s26
      exact toLintel_good (fun y28 h29 => gotStaged_good h29) h27
  · rename_i v30 v31 e32
    exact ha

theorem takeStage_good {x0 x1} (ha : Good F P x1) : Good F P (takeStage x0 x1) := by
  unfold takeStage
  apply good_ite
  · exact fun y0 => ha
  · intro y1
    apply good_ite
    · exact fun y2 => stageGo_good (State.modCas_good ha)
    · intro y3
      extract_lets -merge +onlyGivenNames s4
      clear_value s4
      extract_lets -merge +onlyGivenNames s5
      have h6 : Good F P s5 := forEach_good (State.onFab_good ha) (fun y7 y8 h9 => sendAsk_good h9)
      clear_value s5
      exact stageGo_good (State.modCas_good h6)

theorem memberLost_good {x0 x1} (ha : Good F P x1) : Good F P (memberLost x0 x1) := by
  unfold memberLost
  extract_lets -merge +onlyGivenNames s0
  have h1 : Good F P s0 := State.onFab_good ha
  clear_value s0
  exact State.onPlan_good h1

theorem declareLost_good {x0 x1} (ha : Good F P x1) : Good F P (declareLost x0 x1) := by
  unfold declareLost
  apply good_ite
  · exact fun y0 => ha
  · intro y1
    extract_lets -merge +onlyGivenNames s2
    have h3 : Good F P s2 := memberLost_good (State.onFab_good ha)
    clear_value s2
    extract_lets -merge +onlyGivenNames s4
    have h5 : Good F P s4 := recheckMoves_good (sendAll_good h3)
    clear_value s4
    exact rebuildPlans_good h5

theorem gotLinks_good {x0 x1 x2 x3} (ha : Good F P x3) : Good F P (gotLinks x0 x1 x2 x3) := by
  unfold gotLinks
  apply good_ite
  · exact fun y0 => ha
  · intro y1
    extract_lets -merge +onlyGivenNames s2
    have h3 : Good F P s2 := State.onFab_good ha
    clear_value s2
    extract_lets -merge +onlyGivenNames s4
    clear_value s4
    exact good_ite (fun y5 => declareLost_good h3) (fun y6 => h3)

theorem reportLinks_good {x0} (ha : Good F P x0) : Good F P (reportLinks x0) := by
  unfold reportLinks
  apply good_ite
  · exact fun y0 => ha
  · intro y1
    extract_lets -merge +onlyGivenNames s2
    clear_value s2
    extract_lets -merge +onlyGivenNames s3
    clear_value s3
    apply good_ite
    · exact fun y4 => ha
    · intro y5
      extract_lets -merge +onlyGivenNames s6
      have h7 : Good F P s6 := State.onFab_good ha
      clear_value s6
      extract_lets -merge +onlyGivenNames s8
      apply forEach_good
      · apply forEach_good
        · exact h7
        · intro y9 y10 h11
          unfold s8
          exact good_ite (fun y12 => gotLinks_good h11) (fun y13 => sendMsg_good h11)
      · intro y14 y15 h16
        unfold s8
        exact good_ite (fun y17 => gotLinks_good h16) (fun y18 => sendMsg_good h16)

end Sys2Proof.Machine
end

