-- ==== Sys2Proof/Laws/GoodStart.lean ====
section
/-! SUPPORT. What Machine/Start.lean leaves as it found it: from a good state every definition there gives a good state. -/

namespace Sys2Proof.Machine

variable {F : Fuse} {P : List Instr}

theorem takePayload_good {x0 x1 x2} (ha : Good F P x2) : GoodL F P (takePayload x0 x1 x2) := by
  unfold takePayload
  extract_lets -merge +onlyGivenNames s0
  clear_value s0
  apply goodL_ite
  · exact fun y1 => goodL_mk ha
  · intro y2
    apply goodL_ite
    · exact fun y3 => goodL_mk ha
    · intro y4
      apply goodL_ite
      · exact fun y5 => goodL_mk ha
      · intro y6
        split
        · rename_i v7 v8 v9 e10
          have h11 : Good F P v8 := good_ofL e10 (vaRead_good ha)
          exact goodL_mk h11
        · rename_i v12 v13 v14 e15
          have h16 : Good F P v13 := good_ofL e15 (vaRead_good ha)
          exact goodL_mk h16
        · rename_i v17 v18 e19
          have h20 : Good F P v18 := good_ofL e19 (vaRead_good ha)
          exact goodL_mk h20

theorem opFor_good {x0} {f : Nat → Entry → State → HRes} (e : opFor x0 = some f) : ∀ q y s, Good F P s → GoodL F P (f q y s) := by
  have h : ∀ p ∈ opTable, ∀ q y s, Good F P s → GoodL F P (p.2 q y s) := by
    intro p hp q y s h
    simp only [opTable, List.mem_append, List.mem_cons, List.not_mem_nil, or_false] at hp
    rcases hp with (rfl | rfl | rfl | rfl | rfl | rfl | rfl | rfl | rfl | rfl | rfl | rfl | rfl | rfl | rfl | rfl | rfl | rfl | rfl | rfl | rfl | rfl | rfl | rfl | rfl | rfl | rfl | rfl) | (rfl | rfl | rfl | rfl | rfl | rfl | rfl | rfl | rfl | rfl | rfl | rfl | rfl | rfl | rfl | rfl | rfl)
    all_goals dsimp only
    exacts [opNop_good h, opCtxCreate_good h, opCtxDestroy_good h, opQueueCreate_good h, opQueueDestroy_good h, opQueueResume_good h, opCaseAssign_good h, opCaseRelease_good h, opCtxMigrate_good h, opCtxPriority_good h, opMemAlloc_good h, opMemFree_good h, opMemMapHost_good h, opMemFence_good h, opMemCopy_good h, opMemFill_good h, opDescCreate_good h, opDescDestroy_good h, opProgLoad_good h, opProgRun_good h, opProgUnload_good h, opSkiplogRead_good h, opLatchAlloc_good h, opLatchFree_good h, opLatchSignal_good h, opLatchWait_good h, opLatchPoison_good h, opLatchRead_good h, opSeqOpen_good h, opSeqCommit_good h, opSeqDrop_good h, opSeqClose_good h, opReqSubmit_good h, opReqCancel_good h, opReqPark_good h, opReqResume_good h, opScrubRange_good h, opSelftest_good h, opEccTest_good h, opLinkCalib_good h, opFabJoin_good h, opFabLeave_good h, opFabStatus_good h, opPwrSetLimit_good h, opPwrRead_good h]
  simp only [opFor, Option.map_eq_some_iff] at e
  obtain ⟨p, hp, rfl⟩ := e
  exact h p (List.mem_of_find?_eq_some hp)

theorem beginEntry_good {x0 x1 x2} (ha : Good F P x2) : GoodL F P (beginEntry x0 x1 x2) := by
  unfold beginEntry
  extract_lets -merge +onlyGivenNames s0
  have h1 : Good F P s0 := updEntry_good ha
  clear_value s0
  extract_lets -merge +onlyGivenNames s2
  have h3 : Good F P s2 := by
    unfold s2
    split
    · rename_i v4 v5 v6 v7 e8 e9
      exact good_ite (fun y10 => trace_good h1) (fun y11 => h1)
    · rename_i v12 v13 e14
      exact h1
  clear_value s2
  exact takePayload_good h3

theorem endOp_good {x0 x1 x2} (ha : GoodL F P x2) : Good F P (endOp x0 x1 x2) := by
  unfold endOp
  split
  · rename_i v0 v1 v2 v3
    exact completeEntry_good (good_unL ha)
  · rename_i v4 v5
    exact good_unL ha

theorem startEntry_good {x0 x1 x2} (ha : Good F P x2) : Good F P (startEntry x0 x1 x2) := by
  unfold startEntry
  refine attempt_good (fun s h => ?_) ha
  split
  · exact completeEntry_good (good_ofL ‹_› (beginEntry_good h))
  · have hb := good_ofL ‹_› (beginEntry_good h)
    split
    · exact hb
    · exact endOp_good (opFor_good ‹_› _ _ _ (updEntry_good hb))

theorem pumpOne_good {x0 x1} (ha : Good F P x1) : GoodO F P (pumpOne x0 x1) := by
  unfold pumpOne
  split
  · rename_i v0 e1
    exact goodO_none
  · rename_i v2 v3 e4
    split
    · rename_i v5 e6
      exact goodO_none
    · rename_i v7 v8 e9
      extract_lets -merge +onlyGivenNames s10
      clear_value s10
      extract_lets -merge +onlyGivenNames s11
      clear_value s11
      apply goodO_ite
      · exact fun y12 => goodO_none
      · intro y13
        apply goodO_ite
        · exact fun y14 => goodO_ite (fun y15 => goodO_some (completeEntry_good ha)) (fun y16 => goodO_none)
        · intro y17
          apply goodO_ite
          · intro y18
            split
            · rename_i v19 v20 e21
              exact goodO_some (completeEntry_good ha)
            · rename_i v22 e23
              exact goodO_some (fenceNote_good (updEntry_good ha))
          · intro y24
            apply goodO_ite
            · exact fun y25 => goodO_none
            · intro y26
              split
              · rename_i v27 e28
                exact goodO_none
              · rename_i v29 e30
                exact goodO_some (completeEntry_good ha)
              · rename_i v31 e32
                exact goodO_some (good_ite (fun y33 => completeEntry_good ha) (fun y34 => startEntry_good ha))

theorem pumpGo_good {x0 x1 x2} (ha : Good F P x2) : Good F P (pumpGo x0 x1 x2) := by
  induction x1 generalizing x0 x2 with
  | zero =>
    rw [pumpGo]
    exact ha
  | succ n ih =>
    rw [pumpGo]
    split
    · rename_i v0 v1 e2
      have h3 : Good F P v1 := good_ofO e2 (pumpOne_good ha)
      apply ih
      exact h3
    · rename_i v4 e5
      exact ha

theorem pump_good {x0 x1} (ha : Good F P x1) : Good F P (pump x0 x1) := by
  unfold pump
  split
  · rename_i v0 v1 e2
    exact pumpGo_good ha
  · rename_i v3 e4
    exact ha

theorem goOn_good {x0 x1 x2} (ha : Good F P x2) : Good F P (goOn x0 x1 x2) := by
  unfold goOn
  exact good_ite (fun y0 => resumeGo_good ha) (fun y1 => good_ite (fun y2 => destroyGo_good ha) (fun y3 => good_ite (fun y4 => fenceGo_good ha) (fun y5 => good_ite (fun y6 => signalGo_good ha) (fun y7 => good_ite (fun y8 => waitGo_good ha) (fun y9 => good_ite (fun y10 => cancelGo_good ha) (fun y11 => good_ite (fun y12 => eccGo_good ha) (fun y13 => good_ite (fun y14 => calibGo_good ha) (fun y15 => good_ite (fun y16 => leaveGo_good ha) (fun y17 => ha)))))))))

theorem destroyDone_good {x0 x1} (ha : Good F P x1) : Good F P (destroyDone x0 x1) := by
  unfold destroyDone
  split
  · rename_i v0 e1
    exact ha
  · rename_i v2 v3 e4
    split
    · rename_i v5 v6 v7 e8
      exact good_ite (fun y9 => completeEntry_good (freeCtx_good ha)) (fun y10 => ha)
    · rename_i v11 e12
      exact ha

theorem settle_good {x0} (ha : Good F P x0) : Good F P (settle x0) := by
  unfold settle
  extract_lets -merge +onlyGivenNames s0
  clear_value s0
  extract_lets -merge +onlyGivenNames s1
  have h2 : Good F P s1 := by
    unfold s1
    apply forEach_good
    · exact ha
    · intro y3 y4 h5
      split
      · rename_i v6 v7 e8
        exact good_ite (fun y9 => goOn_good h5) (fun y10 => h5)
      · rename_i v11 e12
        exact h5
  clear_value s1
  extract_lets -merge +onlyGivenNames s13
  have h14 : Good F P s13 := forEach_good h2 (fun y15 y16 h17 => destroyDone_good (migGo_good h17))
  clear_value s13
  extract_lets -merge +onlyGivenNames s18
  have h19 : Good F P s18 := forEach_good (dropDead_good h14) (fun y20 y21 h22 => endSeq_good h22)
  clear_value s18
  extract_lets -merge +onlyGivenNames s23
  have h24 : Good F P s23 := forEach_good h19 (fun y25 y26 h27 => stageGo_good h27)
  clear_value s23
  exact sinkRows_good (collPumpAll_good (arbitrate_good (dropPlans_good h24)))

theorem pumpLoop_good {x0 x1} (ha : Good F P x1) : Good F P (pumpLoop x0 x1) := by
  induction x0 generalizing x1 with
  | zero =>
    rw [pumpLoop]
    exact ha
  | succ n ih =>
    rw [pumpLoop]
    apply ih
    exact forEach_good (settle_good ha) (fun y0 y1 h2 => pump_good h2)

theorem pumpAll_good {x0} (ha : Good F P x0) : Good F P (pumpAll x0) := by
  unfold pumpAll
  exact servePorts_good (reportLinks_good (pumpLoop_good ha))

end Sys2Proof.Machine
end

