-- ==== Sys2Proof/Laws/GoodBanks.lean ====
section
/-! SUPPORT. What Machine/Banks.lean leaves as it found it: from a good state every definition there gives a good state. -/

namespace Sys2Proof.Machine

variable {F : Fuse} {P : List Instr}

theorem apReply_good {x0 x1 x2 x3} (ha : Good F P x3) : Good F P (apReply x0 x1 x2 x3) := by
  unfold apReply
  exact State.onOut_good ha

theorem serveAcc_good {x0 x1} (ha : Good F P x1) : Good F P (serveAcc x0 x1) := by
  unfold serveAcc
  split
  · rename_i v0 v1 e2
    exact stWrite_good ha
  · rename_i v3 e4
    split
    · rename_i v5 v6 v7 e8
      have h9 : Good F P v6 := good_ofL e8 (stRead_good ha)
      exact apReply_good h9
    · rename_i v10 v11 e12
      have h13 : Good F P v11 := good_ofL e12 (stRead_good ha)
      exact apReply_good h13

theorem serveHost_good {x0 x1 x2} (ha : Good F P x2) : Good F P (serveHost x0 x1 x2) := by
  unfold serveHost
  extract_lets -merge +onlyGivenNames s0
  clear_value s0
  exact good_ite (fun y1 => ha) (fun y2 => forEach_good (State.modBank_good ha) (fun y3 y4 h5 => serveAcc_good h5))

theorem serveDue_good {x0 x1 x2} (ha : Good F P x2) : Good F P (serveDue x0 x1 x2) := by
  unfold serveDue
  extract_lets -merge +onlyGivenNames s0
  clear_value s0
  extract_lets -merge +onlyGivenNames s1
  clear_value s1
  extract_lets -merge +onlyGivenNames s2
  clear_value s2
  exact forEach_good (forEach_good ha (fun y3 y4 h5 => drainLine_good h5)) (fun y6 y7 h8 => drainMerge_good h8)

theorem serveIdle_good {x0} (ha : Good F P x0) : Good F P (serveIdle x0) := by
  unfold serveIdle
  exact forEach_good ha (fun y0 y1 h2 => State.modBank_good (serveDue_good (serveHost_good h2)))

theorem apRead_good {x0 x1 x2 x3 x4} (ha : Good F P x4) : Good F P (apRead x0 x1 x2 x3 x4) := by
  unfold apRead
  split
  · rename_i v0 e1
    exact apReply_good (setApwErr_good ha)
  · rename_i v2 v3 v4 v5 v6 e7
    split
    · rename_i v8 v9 e10
      extract_lets -merge +onlyGivenNames s11
      clear_value s11
      extract_lets -merge +onlyGivenNames s12
      clear_value s12
      exact good_ite (fun y13 => serveAcc_good ha) (fun y14 => State.modBank_good (wakeFor_good ha))
    · rename_i v15 v16 e17
      split
      · rename_i v18 v19 v20 e21
        have h22 : Good F P v19 := good_ofL e21 (farRead_good ha)
        exact apReply_good h22
      · rename_i v23 v24 e25
        have h26 : Good F P v24 := good_ofL e25 (farRead_good ha)
        exact apReply_good h26
    · rename_i v27 v28 v29 e30
      exact ha

theorem execHostApertureRead_good {x0 x1 x2 x3 x4} (ha : Good F P x4) : GoodN F P (execHostApertureRead x0 x1 x2 x3 x4) := by
  unfold execHostApertureRead
  exact goodN_next (good_ite (fun y0 => apRead_good ha) (fun y1 => ha))

theorem apWrite_good {x0 x1 x2 x3 x4} (ha : Good F P x4) : Good F P (apWrite x0 x1 x2 x3 x4) := by
  unfold apWrite
  split
  · rename_i v0 e1
    exact setApwErr_good ha
  · rename_i v2 v3 v4 v5 v6 e7
    apply good_ite
    · exact fun y8 => setApwErr_good ha
    · intro y9
      split
      · rename_i v10 v11 e12
        exact good_ite (fun y13 => State.modBank_good (wakeFor_good ha)) (fun y14 => stWrite_good ha)
      · rename_i v15 e16
        exact good_fst (vaWrite_good ha)

theorem execHostApertureWrite_good {x0 x1 x2 x3 x4} (ha : Good F P x4) : GoodN F P (execHostApertureWrite x0 x1 x2 x3 x4) := by
  unfold execHostApertureWrite
  exact goodN_next (good_ite (fun y0 => apWrite_good ha) (fun y1 => ha))

theorem execAtomicopRequest_good {x0 x1 x2 x3} (ha : Good F P x3) : GoodN F P (execAtomicopRequest x0 x1 x2 x3) := by
  unfold execAtomicopRequest
  exact goodN_next (State.onOut_good ha)

theorem startRefresh_good {x0 x1} (ha : Good F P x1) : Good F P (startRefresh x0 x1) := by
  unfold startRefresh
  exact State.modBank_good ha

theorem rowsLand_good {x0 x1} (ha : Good F P x1) : Good F P (rowsLand x0 x1) := by
  unfold rowsLand
  split
  · rename_i v0 e1
    exact ha
  · rename_i v2 v3 e4
    split
    · rename_i v5 e6
      exact ha
    · rename_i v7 v8 e9
      split
      · rename_i v10 v11 e12
        exact sillYield_good ha
      · rename_i v13 e14
        exact ha

theorem yieldServe_good {x0 x1} (ha : Good F P x1) : Good F P (yieldServe x0 x1) := by
  unfold yieldServe
  extract_lets -merge +onlyGivenNames s0
  have h1 : Good F P s0 := State.modBank_good ha
  clear_value s0
  extract_lets -merge +onlyGivenNames s2
  have h3 : Good F P s2 := serveDue_good (serveHost_good h1)
  clear_value s2
  exact State.modBank_good h3

theorem burstYield_good {x0 x1} (ha : Good F P x1) : Good F P (burstYield x0 x1) := by
  unfold burstYield
  apply good_ite
  · exact fun y0 => ha
  · intro y1
    extract_lets -merge +onlyGivenNames s2
    have h3 : Good F P s2 := rowsLand_good ha
    clear_value s2
    exact good_ite (fun y4 => startRefresh_good h3) (fun y5 => yieldServe_good h3)

theorem execBurstYield_good {x0 x1 x2} (ha : Good F P x2) : GoodN F P (execBurstYield x0 x1 x2) := by
  unfold execBurstYield
  exact goodN_next (pumpAll_good (burstYield_good ha))

theorem execRefreshDue_good {x0 x1 x2} (ha : Good F P x2) : GoodN F P (execRefreshDue x0 x1 x2) := by
  unfold execRefreshDue
  exact goodN_next (good_ite (fun y0 => ha) (fun y1 => State.modBank_good ha))

theorem execForcedRefresh_good {x0 x1 x2} (ha : Good F P x2) : GoodN F P (execForcedRefresh x0 x1 x2) := by
  unfold execForcedRefresh
  apply goodN_next
  extract_lets -merge +onlyGivenNames s0
  clear_value s0
  exact good_ite (fun y1 => startRefresh_good ha) (fun y2 => ha)

theorem execOpportunisticRefresh_good {x0 x1 x2} (ha : Good F P x2) : GoodN F P (execOpportunisticRefresh x0 x1 x2) := by
  unfold execOpportunisticRefresh
  apply goodN_next
  extract_lets -merge +onlyGivenNames s0
  clear_value s0
  extract_lets -merge +onlyGivenNames s1
  clear_value s1
  exact good_ite (fun y2 => ha) (fun y3 => startRefresh_good (State.modBank_good ha))

theorem refreshDone_good {x0 x1} (ha : Good F P x1) : Good F P (refreshDone x0 x1) := by
  unfold refreshDone
  exact good_ite (fun y0 => ha) (fun y1 => good_ite (fun y2 => yieldServe_good (rowsLand_good ha)) (fun y3 => serveIdle_good (State.modBank_good ha)))

theorem execRefreshComplete_good {x0 x1 x2} (ha : Good F P x2) : GoodN F P (execRefreshComplete x0 x1 x2) := by
  unfold execRefreshComplete
  exact goodN_next (pumpAll_good (refreshDone_good ha))

theorem execLetterboxLineDrain_good {x0 x1 x2} (ha : Good F P x2) : GoodN F P (execLetterboxLineDrain x0 x1 x2) := by
  unfold execLetterboxLineDrain
  apply goodN_next
  split
  · rename_i v0 v1 e2
    exact drainLine_good ha
  · rename_i v3 e4
    exact ha

theorem execMergeEntryDrain_good {x0 x1 x2} (ha : Good F P x2) : GoodN F P (execMergeEntryDrain x0 x1 x2) := by
  unfold execMergeEntryDrain
  exact goodN_next (good_ite (fun y0 => drainMerge_good ha) (fun y1 => ha))

theorem patrolWord_good {x0 x1} (ha : Good F P x1) : Good F P (patrolWord x0 x1) := by
  unfold patrolWord
  apply good_ite
  · exact fun y0 => ha
  · intro y1
    split
    · rename_i v2 e3
      exact ha
    · rename_i v4 v5 e6
      exact State.delHealth_good (countCorr_good ha)
    · rename_i v7 v8 e9 e10
      exact logUe_good ha

theorem patrolRow_good {x0 x1} (ha : Good F P x1) : Good F P (patrolRow x0 x1) := by
  unfold patrolRow
  extract_lets -merge +onlyGivenNames s0
  clear_value s0
  extract_lets -merge +onlyGivenNames s1
  clear_value s1
  extract_lets -merge +onlyGivenNames s2
  have h3 : Good F P s2 := forEach_good (drainDramRow_good (reachBank_good ha)) (fun y4 y5 h6 => patrolWord_good h6)
  clear_value s2
  exact State.modEcc_good h3

theorem execPatrolRow_good {x0 x1} (ha : Good F P x1) : GoodN F P (execPatrolRow x0 x1) := by
  unfold execPatrolRow
  exact goodN_next (good_ite (fun y0 => ha) (fun y1 => attempt_good (fun y2 h3 => patrolRow_good h3) ha))

theorem execEccBucketLeak_good {x0 x1} (ha : Good F P x1) : GoodN F P (execEccBucketLeak x0 x1) := by
  unfold execEccBucketLeak
  exact goodN_next (State.modEcc_good ha)

theorem execZeroFillDone_good {x0 x1} (ha : Good F P x1) : GoodN F P (execZeroFillDone x0 x1) := by
  unfold execZeroFillDone
  apply goodN_next
  split
  · rename_i v0 e1
    exact ha
  · rename_i v2 v3 e4
    exact good_ite (fun y5 => ha) (fun y6 => State.delFills_good (zeroFill_good (forEach_good ha (fun y7 y8 h9 => drainStack_good h9))))

theorem havocCluster_good {x0 x1} (ha : Good F P x1) : Good F P (havocCluster x0 x1) := by
  unfold havocCluster
  split
  rename_i v0 v1 v2 e3
  have h4 : Good F P v2 := good_ofR e3 (State.fresh_good ha)
  extract_lets -merge +onlyGivenNames s5
  have h6 : Good F P s5 := State.onLocalMem_good h4 (fun y7 y8 => wf_mwrite _ _ (by assumption))
  clear_value s5
  split
  rename_i v9 v10 v11 e12
  have h13 : Good F P v11 := good_ofR e12 (State.fresh_good h6)
  extract_lets -merge +onlyGivenNames s14
  have h15 : Good F P s14 := State.onSharedMem_good h13 (fun y16 y17 => wf_mwrite _ _ (by assumption))
  clear_value s14
  split
  rename_i v18 v19 v20 e21
  have h22 : Good F P v20 := good_ofR e21 (State.fresh_good h15)
  exact havocTiles_good (State.onBadWords_good (State.onTileMem_good h22 (fun y23 y24 => wf_mwrite _ _ (by assumption))))

theorem quietBanks_good {x0 x1} (ha : Good F P x1) : Good F P (quietBanks x0 x1) := by
  unfold quietBanks
  exact State.onBank_good ha

theorem havocStores_good {x0 x1} (ha : Good F P x1) : Good F P (havocStores x0 x1) := by
  unfold havocStores
  apply forEach_good
  · exact ha
  · intro y0 y1 h2
    split
    rename_i v3 v4 v5 e6
    have h7 : Good F P v5 := good_ofR e6 (State.fresh_good h2)
    split
    rename_i v8 v9 v10 e11
    have h12 : Good F P v10 := good_ofR e11 (State.fresh_good h7)
    exact State.modAccStore_good (State.modOpStore_good h12)

theorem gate_good {x0 x1} (ha : Good F P x1) : Good F P (gate x0 x1) := by
  unfold gate
  extract_lets -merge +onlyGivenNames s0
  have h1 : Good F P s0 := by
    unfold s0
    split
    · rename_i v2 v3
      exact havocCluster_good ha
    · rename_i v4 v5
      exact havocStores_good (quietBanks_good (drainStack_good ha))
    · rename_i v6 e7 e8
      exact ha
  clear_value s0
  exact State.onGated_good h1

theorem execUnitGate_good {x0 x1} (ha : Good F P x1) : GoodN F P (execUnitGate x0 x1) := by
  unfold execUnitGate
  exact goodN_next (good_ite (fun y0 => gate_good ha) (fun y1 => ha))

theorem execUnitWakeDone_good {x0 x1} (ha : Good F P x1) : GoodN F P (execUnitWakeDone x0 x1) := by
  unfold execUnitWakeDone
  apply goodN_next
  extract_lets -merge +onlyGivenNames s0
  clear_value s0
  exact good_ite (fun y1 => ha) (fun y2 => pumpAll_good (serveIdle_good (State.onWake_good (State.onGated_good ha))))

theorem execMicrocodeSwap_good {x0 x1 x2} (ha : Good F P x2) : GoodN F P (execMicrocodeSwap x0 x1 x2) := by
  unfold execMicrocodeSwap
  apply goodN_next
  extract_lets -merge +onlyGivenNames s0
  clear_value s0
  split
  · rename_i v1 e2
    exact ha
  · rename_i v3 v4 e5
    exact good_ite (fun y6 => ha) (fun y7 => State.onFw_good (trace_good ha))

end Sys2Proof.Machine
end

