-- ==== Sys2Proof/Laws/GoodPackets.lean ====
section
/-! SUPPORT. What Machine/Packets.lean leaves as it found it: from a good state every definition there gives a good state. -/

namespace Sys2Proof.Machine

variable {F : Fuse} {P : List Instr}

theorem ringBell_good {x0 x1 x2 x3 x4 x5} (ha : Good F P x5) : Good F P (ringBell x0 x1 x2 x3 x4 x5) := by
  unfold ringBell
  apply good_ite
  · exact fun y0 => ha
  · intro y1
    split
    · rename_i v2 e3
      exact ha
    · rename_i v4 v5 e6
      split
      · rename_i v7 e8
        exact setDbErrFn_good ha
      · rename_i v9 v10 e11
        split
        · rename_i v12 e13
          exact ha
        · rename_i v14 v15 e16
          exact good_ite (fun y17 => setDbErrQ_good ha) (fun y18 => State.updQueue_good ha)

theorem execSubmissionDoorbell_good {x0 x1 x2 x3} (ha : Good F P x3) : GoodN F P (execSubmissionDoorbell x0 x1 x2 x3) := by
  unfold execSubmissionDoorbell
  exact goodN_next (good_ite (fun y0 => ringBell_good ha) (fun y1 => ha))

theorem execCompletionDoorbell_good {x0 x1 x2 x3} (ha : Good F P x3) : GoodN F P (execCompletionDoorbell x0 x1 x2 x3) := by
  unfold execCompletionDoorbell
  exact goodN_next (good_ite (fun y0 => pumpAll_good (ringBell_good ha)) (fun y1 => ha))

theorem packet_good {x0 x1 x2 x3 x4} (ha : Good F P x4) : Good F P (packet x0 x1 x2 x3 x4) := by
  unfold packet
  exact good_ite (fun y0 => pumpAll_good (pump_good (attempt_good (fun y1 h2 => fetchPacket_good h2) ha))) (fun y3 => ha)

theorem execUnknownOpcode_good {x0 x1 x2 x3} (ha : Good F P x3) : GoodN F P (execUnknownOpcode x0 x1 x2 x3) := by
  unfold execUnknownOpcode
  exact goodN_next (good_ite (fun y0 => pumpAll_good (attempt_good (fun y1 h2 => fetchPacket_good h2) ha)) (fun y3 => ha))

theorem execNop_good {x0 x1 x2 x3} (ha : Good F P x3) : GoodN F P (execNop x0 x1 x2 x3) := by
  unfold execNop
  exact goodN_next (packet_good ha)

theorem execCtxCreate_good {x0 x1 x2 x3} (ha : Good F P x3) : GoodN F P (execCtxCreate x0 x1 x2 x3) := by
  unfold execCtxCreate
  exact goodN_next (packet_good ha)

theorem execCtxDestroy_good {x0 x1 x2 x3} (ha : Good F P x3) : GoodN F P (execCtxDestroy x0 x1 x2 x3) := by
  unfold execCtxDestroy
  exact goodN_next (packet_good ha)

theorem execQueueCreate_good {x0 x1 x2 x3} (ha : Good F P x3) : GoodN F P (execQueueCreate x0 x1 x2 x3) := by
  unfold execQueueCreate
  exact goodN_next (packet_good ha)

theorem execQueueDestroy_good {x0 x1 x2 x3} (ha : Good F P x3) : GoodN F P (execQueueDestroy x0 x1 x2 x3) := by
  unfold execQueueDestroy
  exact goodN_next (packet_good ha)

theorem execQueueResume_good {x0 x1 x2 x3} (ha : Good F P x3) : GoodN F P (execQueueResume x0 x1 x2 x3) := by
  unfold execQueueResume
  exact goodN_next (packet_good ha)

theorem execCaseAssign_good {x0 x1 x2 x3} (ha : Good F P x3) : GoodN F P (execCaseAssign x0 x1 x2 x3) := by
  unfold execCaseAssign
  exact goodN_next (packet_good ha)

theorem execCaseRelease_good {x0 x1 x2 x3} (ha : Good F P x3) : GoodN F P (execCaseRelease x0 x1 x2 x3) := by
  unfold execCaseRelease
  exact goodN_next (packet_good ha)

theorem execCtxMigrate_good {x0 x1 x2 x3} (ha : Good F P x3) : GoodN F P (execCtxMigrate x0 x1 x2 x3) := by
  unfold execCtxMigrate
  exact goodN_next (packet_good ha)

theorem execCtxPriority_good {x0 x1 x2 x3} (ha : Good F P x3) : GoodN F P (execCtxPriority x0 x1 x2 x3) := by
  unfold execCtxPriority
  exact goodN_next (packet_good ha)

theorem execMemAlloc_good {x0 x1 x2 x3} (ha : Good F P x3) : GoodN F P (execMemAlloc x0 x1 x2 x3) := by
  unfold execMemAlloc
  exact goodN_next (packet_good ha)

theorem execMemFree_good {x0 x1 x2 x3} (ha : Good F P x3) : GoodN F P (execMemFree x0 x1 x2 x3) := by
  unfold execMemFree
  exact goodN_next (packet_good ha)

theorem execMemMapHost_good {x0 x1 x2 x3} (ha : Good F P x3) : GoodN F P (execMemMapHost x0 x1 x2 x3) := by
  unfold execMemMapHost
  exact goodN_next (packet_good ha)

theorem execMemFence_good {x0 x1 x2 x3} (ha : Good F P x3) : GoodN F P (execMemFence x0 x1 x2 x3) := by
  unfold execMemFence
  exact goodN_next (packet_good ha)

theorem execMemCopy_good {x0 x1 x2 x3} (ha : Good F P x3) : GoodN F P (execMemCopy x0 x1 x2 x3) := by
  unfold execMemCopy
  exact goodN_next (packet_good ha)

theorem execMemFill_good {x0 x1 x2 x3} (ha : Good F P x3) : GoodN F P (execMemFill x0 x1 x2 x3) := by
  unfold execMemFill
  exact goodN_next (packet_good ha)

theorem execDescCreate_good {x0 x1 x2 x3} (ha : Good F P x3) : GoodN F P (execDescCreate x0 x1 x2 x3) := by
  unfold execDescCreate
  exact goodN_next (packet_good ha)

theorem execDescDestroy_good {x0 x1 x2 x3} (ha : Good F P x3) : GoodN F P (execDescDestroy x0 x1 x2 x3) := by
  unfold execDescDestroy
  exact goodN_next (packet_good ha)

theorem execProgLoad_good {x0 x1 x2 x3} (ha : Good F P x3) : GoodN F P (execProgLoad x0 x1 x2 x3) := by
  unfold execProgLoad
  exact goodN_next (packet_good ha)

theorem execProgRun_good {x0 x1 x2 x3} (ha : Good F P x3) : GoodN F P (execProgRun x0 x1 x2 x3) := by
  unfold execProgRun
  exact goodN_next (packet_good ha)

theorem execProgUnload_good {x0 x1 x2 x3} (ha : Good F P x3) : GoodN F P (execProgUnload x0 x1 x2 x3) := by
  unfold execProgUnload
  exact goodN_next (packet_good ha)

theorem execSkiplogRead_good {x0 x1 x2 x3} (ha : Good F P x3) : GoodN F P (execSkiplogRead x0 x1 x2 x3) := by
  unfold execSkiplogRead
  exact goodN_next (packet_good ha)

theorem execLatchAlloc_good {x0 x1 x2 x3} (ha : Good F P x3) : GoodN F P (execLatchAlloc x0 x1 x2 x3) := by
  unfold execLatchAlloc
  exact goodN_next (packet_good ha)

theorem execLatchFree_good {x0 x1 x2 x3} (ha : Good F P x3) : GoodN F P (execLatchFree x0 x1 x2 x3) := by
  unfold execLatchFree
  exact goodN_next (packet_good ha)

theorem execLatchSignal_good {x0 x1 x2 x3} (ha : Good F P x3) : GoodN F P (execLatchSignal x0 x1 x2 x3) := by
  unfold execLatchSignal
  exact goodN_next (packet_good ha)

theorem execLatchWait_good {x0 x1 x2 x3} (ha : Good F P x3) : GoodN F P (execLatchWait x0 x1 x2 x3) := by
  unfold execLatchWait
  exact goodN_next (packet_good ha)

theorem execLatchPoison_good {x0 x1 x2 x3} (ha : Good F P x3) : GoodN F P (execLatchPoison x0 x1 x2 x3) := by
  unfold execLatchPoison
  exact goodN_next (packet_good ha)

theorem execLatchRead_good {x0 x1 x2 x3} (ha : Good F P x3) : GoodN F P (execLatchRead x0 x1 x2 x3) := by
  unfold execLatchRead
  exact goodN_next (packet_good ha)

theorem execSeqOpen_good {x0 x1 x2 x3} (ha : Good F P x3) : GoodN F P (execSeqOpen x0 x1 x2 x3) := by
  unfold execSeqOpen
  exact goodN_next (packet_good ha)

theorem execSeqCommit_good {x0 x1 x2 x3} (ha : Good F P x3) : GoodN F P (execSeqCommit x0 x1 x2 x3) := by
  unfold execSeqCommit
  exact goodN_next (packet_good ha)

theorem execSeqDrop_good {x0 x1 x2 x3} (ha : Good F P x3) : GoodN F P (execSeqDrop x0 x1 x2 x3) := by
  unfold execSeqDrop
  exact goodN_next (packet_good ha)

theorem execSeqClose_good {x0 x1 x2 x3} (ha : Good F P x3) : GoodN F P (execSeqClose x0 x1 x2 x3) := by
  unfold execSeqClose
  exact goodN_next (packet_good ha)

theorem execReqSubmit_good {x0 x1 x2 x3} (ha : Good F P x3) : GoodN F P (execReqSubmit x0 x1 x2 x3) := by
  unfold execReqSubmit
  exact goodN_next (packet_good ha)

theorem execReqCancel_good {x0 x1 x2 x3} (ha : Good F P x3) : GoodN F P (execReqCancel x0 x1 x2 x3) := by
  unfold execReqCancel
  exact goodN_next (packet_good ha)

theorem execReqPark_good {x0 x1 x2 x3} (ha : Good F P x3) : GoodN F P (execReqPark x0 x1 x2 x3) := by
  unfold execReqPark
  exact goodN_next (packet_good ha)

theorem execReqResume_good {x0 x1 x2 x3} (ha : Good F P x3) : GoodN F P (execReqResume x0 x1 x2 x3) := by
  unfold execReqResume
  exact goodN_next (packet_good ha)

theorem execScrubRange_good {x0 x1 x2 x3} (ha : Good F P x3) : GoodN F P (execScrubRange x0 x1 x2 x3) := by
  unfold execScrubRange
  exact goodN_next (packet_good ha)

theorem execSelftest_good {x0 x1 x2 x3} (ha : Good F P x3) : GoodN F P (execSelftest x0 x1 x2 x3) := by
  unfold execSelftest
  exact goodN_next (packet_good ha)

theorem execEccTest_good {x0 x1 x2 x3} (ha : Good F P x3) : GoodN F P (execEccTest x0 x1 x2 x3) := by
  unfold execEccTest
  exact goodN_next (packet_good ha)

theorem execLinkCalib_good {x0 x1 x2 x3} (ha : Good F P x3) : GoodN F P (execLinkCalib x0 x1 x2 x3) := by
  unfold execLinkCalib
  exact goodN_next (packet_good ha)

theorem execFabJoin_good {x0 x1 x2 x3} (ha : Good F P x3) : GoodN F P (execFabJoin x0 x1 x2 x3) := by
  unfold execFabJoin
  exact goodN_next (packet_good ha)

theorem execFabLeave_good {x0 x1 x2 x3} (ha : Good F P x3) : GoodN F P (execFabLeave x0 x1 x2 x3) := by
  unfold execFabLeave
  exact goodN_next (packet_good ha)

theorem execFabStatus_good {x0 x1 x2 x3} (ha : Good F P x3) : GoodN F P (execFabStatus x0 x1 x2 x3) := by
  unfold execFabStatus
  exact goodN_next (packet_good ha)

theorem execPwrSetLimit_good {x0 x1 x2 x3} (ha : Good F P x3) : GoodN F P (execPwrSetLimit x0 x1 x2 x3) := by
  unfold execPwrSetLimit
  exact goodN_next (packet_good ha)

theorem execPwrRead_good {x0 x1 x2 x3} (ha : Good F P x3) : GoodN F P (execPwrRead x0 x1 x2 x3) := by
  unfold execPwrRead
  exact goodN_next (packet_good ha)

theorem execCompletionRecordPost_good {x0 x1} (ha : Good F P x1) : GoodN F P (execCompletionRecordPost x0 x1) := by
  unfold execCompletionRecordPost
  exact goodN_next (pumpAll_good (attempt_good (fun y0 h1 => postOldest_good h1) (scrubOldest_good ha)))

theorem execHeaderLatchSignal_good {x0 x1 x2} (ha : Good F P x2) : GoodN F P (execHeaderLatchSignal x0 x1 x2) := by
  unfold execHeaderLatchSignal
  exact goodN_next (pumpAll_good (headerSignal_good ha))

theorem execLatchWaitEval_good {x0 x1} (ha : Good F P x1) : GoodN F P (execLatchWaitEval x0 x1) := by
  unfold execLatchWaitEval
  exact goodN_next (pumpAll_good (evalWaits_good ha))

theorem execEngineCommandCompletion_good {x0 x1 x2} (ha : Good F P x2) : GoodN F P (execEngineCommandCompletion x0 x1 x2) := by
  unfold execEngineCommandCompletion
  exact goodN_next (serveIdle_good (pumpAll_good (engineComplete_good ha)))

theorem execPageFreeDeferred_good {x0 x1} (ha : Good F P x1) : GoodN F P (execPageFreeDeferred x0 x1) := by
  unfold execPageFreeDeferred
  apply goodN_next
  split
  · rename_i v0 v1 e2
    split
    · rename_i v3 v4 e5
      exact good_ite (fun y6 => ha) (fun y7 => pumpAll_good (freePage_good ha))
    · rename_i v8 e9
      exact ha
  · rename_i v10 e11
    exact ha

end Sys2Proof.Machine
end

