-- ==== Sys2Proof/Laws/GoodRuns.lean ====
section
/-! SUPPORT. What Machine/Runs.lean leaves as it found it: from a good state every definition there gives a good state. -/

namespace Sys2Proof.Machine

variable {F : Fuse} {P : List Instr}

theorem endRun_good {x0 x1 x2 x3 x4} (ha : Good F P x4) : Good F P (endRun x0 x1 x2 x3 x4) := by
  unfold endRun
  extract_lets -merge +onlyGivenNames s1
  have h2 : Good F P s1 := good_ite (fun y3 => spoilRun_good ha) (fun y4 => ha)
  clear_value s1
  extract_lets -merge +onlyGivenNames s0
  clear_value s0
  extract_lets -merge +onlyGivenNames s5
  have h6 : Good F P s5 := releaseRun_good h2
  clear_value s5
  extract_lets -merge +onlyGivenNames s7
  have h8 : Good F P s7 := good_ite (fun y9 => forEach_good h6 (fun y10 y11 h12 => State.modCore_good h12)) (fun y13 => h6)
  clear_value s7
  split
  · rename_i v14 v15 e16
    exact State.modCas_good h8
  · rename_i v17 e18
    exact completeEntry_good h8

theorem runComplete_good {x0 x1} (ha : Good F P x1) : Good F P (runComplete x0 x1) := by
  unfold runComplete
  split
  · rename_i v0 e1
    exact ha
  · rename_i v2 v3 e4
    apply good_ite
    · exact fun y5 => ha
    · intro y6
      split
      · rename_i v7 v8 e9
        exact endRun_good ha
      · rename_i v10 e11
        apply good_ite
        · exact fun y12 => ha
        · intro y13
          apply good_ite
          · exact fun y14 => endRun_good ha
          · intro y15
            split
            · rename_i v16 v17 e18
              have h19 : Good F P v17 := good_ofL e18 (writeDump_good ha)
              exact endRun_good h19
            · rename_i v20 v21 v22 e23
              have h24 : Good F P v21 := good_ofL e23 (writeDump_good ha)
              exact endRun_good h24
            · rename_i v25 v26 e27
              have h28 : Good F P v26 := good_ofL e27 (writeDump_good ha)
              exact endRun_good h28

theorem execProgRunCompletion_good {x0 x1} (ha : Good F P x1) : GoodN F P (execProgRunCompletion x0 x1) := by
  unfold execProgRunCompletion
  exact goodN_next (pumpAll_good (attempt_good (fun y0 h1 => runComplete_good h1) ha))

theorem execRunStart_good {x0} (ha : Good F P x0) : GoodN F P (execRunStart x0) := by
  unfold execRunStart
  apply goodN_next
  apply good_ite
  · exact fun y0 => ha
  · intro y1
    split
    · rename_i v2 v3 v4 e5
      exact pumpAll_good (good_ite (fun y6 => resumeRun_good ha) (fun y7 => startRun_good ha))
    · rename_i v8 e9
      exact ha

theorem execQuantumExpiry_good {x0 x1} (ha : Good F P x1) : GoodN F P (execQuantumExpiry x0 x1) := by
  unfold execQuantumExpiry
  exact goodN_next (good_ite (fun y0 => requestPreempt_good ha) (fun y1 => ha))

theorem saveArmed_good {x0 x1 x2 x3} (ha : Good F P x3) : Good F P (saveArmed x0 x1 x2 x3) := by
  unfold saveArmed
  extract_lets -merge +onlyGivenNames s0
  extract_lets -merge +onlyGivenNames s1
  have h2 : Good F P s1 := forEach_good ha (fun y3 y4 h5 => sillWrite_good h5)
  clear_value s1
  exact good_ite (fun y6 => State.onArmed_good h2) (fun y7 => h2)

theorem loadArmed_good {x0 x1} (ha : Good F P x1) : Good F P (loadArmed x0 x1) := by
  unfold loadArmed
  extract_lets -merge +onlyGivenNames s0
  extract_lets -merge +onlyGivenNames s1
  have h2 : GoodL F P s1 := by
    unfold s1
    apply goodL_foldl
    · exact goodL_mk ha
    · intro y3 y4 h5
      apply goodL_ite
      · intro y6
        extract_lets -merge +onlyGivenNames s7
        have h8 : GoodL F P s7 := by
          unfold s7
          unfold s0
          split
          · rename_i v9 v10 v11 e12
            have h13 : Good F P v10 := good_ofL e12 (sillRead_good (good_fst h5))
            exact goodL_mk h13
          · rename_i v14 v15 e16
            have h17 : Good F P v15 := good_ofL e16 (sillRead_good (good_fst h5))
            split
            rename_i v18 v19 v20 e21
            have h22 : Good F P v20 := good_ofR e21 (State.fresh_good h17)
            exact goodL_mk h22
        clear_value s7
        exact goodL_mk (good_fst h8)
      · exact fun y23 => goodL_mk (good_fst h5)
  clear_value s1
  exact State.onArmed_good (good_fst h2)

theorem hingeReached_good {x0 x1} (ha : Good F P x1) : Good F P (hingeReached x0 x1) := by
  unfold hingeReached
  split
  · rename_i v0 e1
    exact ha
  · rename_i v2 v3 e4
    extract_lets -merge +onlyGivenNames s5
    clear_value s5
    apply good_ite
    · exact fun y6 => ha
    · intro y7
      extract_lets -merge +onlyGivenNames s8
      clear_value s8
      extract_lets -merge +onlyGivenNames s9
      clear_value s9
      extract_lets -merge +onlyGivenNames s10
      have h11 : Good F P s10 := saveArmed_good ha
      clear_value s10
      exact good_ite (fun y12 => endRun_good h11) (fun y13 => State.updRun_good h11)

theorem execHingePointReached_good {x0 x1} (ha : Good F P x1) : GoodN F P (execHingePointReached x0 x1) := by
  unfold execHingePointReached
  exact goodN_next (pumpAll_good (hingeReached_good ha))

theorem execHingeLate_good {x0 x1} (ha : Good F P x1) : GoodN F P (execHingeLate x0 x1) := by
  unfold execHingeLate
  apply goodN_next
  extract_lets -merge +onlyGivenNames s0
  clear_value s0
  exact good_ite (fun y1 => State.modCore_good (logSkip_good ha)) (fun y2 => ha)

theorem execShutterSave_good {x0 x1 x2} (ha : Good F P x2) : GoodN F P (execShutterSave x0 x1 x2) := by
  unfold execShutterSave
  apply goodN_next
  split
  · rename_i v0 v1 e2
    exact good_ite (fun y3 => pumpAll_good (attempt_good (fun y4 h5 => spillCluster_good h5) ha)) (fun y6 => ha)
  · rename_i v7 e8
    exact ha

theorem execRunRestore_good {x0 x1} (ha : Good F P x1) : GoodN F P (execRunRestore x0 x1) := by
  unfold execRunRestore
  apply goodN_next
  split
  · rename_i v0 v1 e2
    exact good_ite (fun y3 => pumpAll_good (attempt_good (fun y4 h5 => restoreRun_good (loadArmed_good h5)) ha)) (fun y6 => ha)
  · rename_i v7 e8
    exact ha

theorem execMigrationDrainTimeout_good {x0 x1} (ha : Good F P x1) : GoodN F P (execMigrationDrainTimeout x0 x1) := by
  unfold execMigrationDrainTimeout
  apply goodN_next
  split
  · rename_i v0 v1 e2
    split
    · rename_i v3 v4 e5
      exact good_ite (fun y6 => pumpAll_good (migDone_good ha)) (fun y7 => ha)
    · rename_i v8 e9
      exact ha
  · rename_i v10 e11
    exact ha

end Sys2Proof.Machine
end

