-- ==== Sys2Proof/Laws/GoodThermal.lean ====
section
/-! SUPPORT. What Machine/Thermal.lean leaves as it found it: from a good state every definition there gives a good state. -/

namespace Sys2Proof.Machine

variable {F : Fuse} {P : List Instr}

theorem sampleSite_good {x0 x1} (ha : Good F P x1) : Good F P (sampleSite x0 x1) := by
  unfold sampleSite
  split
  · rename_i v0 e1
    exact ha
  · rename_i v2 v3 v4 v5 e6
    apply good_ite
    · exact fun y7 => ha
    · intro y8
      extract_lets -merge +onlyGivenNames s9
      clear_value s9
      extract_lets -merge +onlyGivenNames s10
      clear_value s10
      extract_lets -merge +onlyGivenNames s11
      have h12 : Good F P s11 := State.onTherm_good ha
      clear_value s11
      exact good_ite (fun y13 => devEvent_good h12) (fun y14 => h12)

theorem refreshRate_good {x0 x1} (ha : Good F P x1) : Good F P (refreshRate x0 x1) := by
  unfold refreshRate
  extract_lets -merge +onlyGivenNames s0
  clear_value s0
  exact good_ite (fun y1 => State.onTherm_good ha) (fun y2 => good_ite (fun y3 => State.onTherm_good ha) (fun y4 => ha))

theorem faultInput_good {x0 x1} (ha : Good F P x1) : Good F P (faultInput x0 x1) := by
  unfold faultInput
  exact good_ite (fun y0 => ha) (fun y1 => devEvent_good (State.onTherm_good ha))

theorem sensorSample_good {x0 x1 x2} (ha : Good F P x2) : Good F P (sensorSample x0 x1 x2) := by
  unfold sensorSample
  apply good_ite
  · exact fun y0 => ha
  · intro y1
    extract_lets -merge +onlyGivenNames s2
    have h3 : Good F P s2 := State.onTherm_good ha
    clear_value s2
    extract_lets -merge +onlyGivenNames s4
    have h5 : Good F P s4 := forEach_good h3 (fun y6 y7 h8 => sampleSite_good h8)
    clear_value s4
    extract_lets -merge +onlyGivenNames s9
    have h10 : Good F P s9 := forEach_good h5 (fun y11 y12 h13 => faultInput_good h13)
    clear_value s9
    exact forEach_good h10 (fun y14 y15 h16 => refreshRate_good h16)

theorem execSensorSample_good {x0 x1 x2} (ha : Good F P x2) : GoodN F P (execSensorSample x0 x1 x2) := by
  unfold execSensorSample
  exact goodN_next (sensorSample_good ha)

theorem execThermFaultClear_good {x0 x1 x2} (ha : Good F P x2) : GoodN F P (execThermFaultClear x0 x1 x2) := by
  unfold execThermFaultClear
  apply goodN_next
  split
  · rename_i v0 v1 e2
    exact good_ite (fun y3 => State.onTherm_good ha) (fun y4 => ha)
  · rename_i v5 e6
    exact ha

theorem execDiodeCalibration_good {x0 x1} (ha : Good F P x1) : GoodN F P (execDiodeCalibration x0 x1) := by
  unfold execDiodeCalibration
  exact goodN_next (good_ite (fun y0 => State.onTherm_good ha) (fun y1 => ha))

theorem sendNotice_good {x0 x1 x2} (ha : Good F P x2) : Good F P (sendNotice x0 x1 x2) := by
  unfold sendNotice
  exact forEach_good ha (fun y0 y1 h2 => sendFlit_good h2)

theorem sendOwn_good {x0} (ha : Good F P x0) : Good F P (sendOwn x0) := by
  unfold sendOwn
  exact servePorts_good (forEach_good ha (fun y0 y1 h2 => sendNotice_good h2))

theorem noticeUpdate_good {x0} (ha : Good F P x0) : Good F P (noticeUpdate x0) := by
  unfold noticeUpdate
  extract_lets -merge +onlyGivenNames s0
  clear_value s0
  exact good_ite (fun y1 => ha) (fun y2 => sendOwn_good (State.onFab_good ha))

theorem execSlowNoticeRenew_good {x0} (ha : Good F P x0) : GoodN F P (execSlowNoticeRenew x0) := by
  unfold execSlowNoticeRenew
  exact goodN_next (good_ite (fun y0 => ha) (fun y1 => sendOwn_good (State.onFab_good ha)))

theorem forwardNotice_good {x0 x1} (ha : Good F P x1) : Good F P (forwardNotice x0 x1) := by
  unfold forwardNotice
  split
  · rename_i v0 v1 e2
    exact servePorts_good (sendNotice_good ha)
  · rename_i v3 e4
    exact ha

theorem slowNotice_good {x0 x1} (ha : Good F P x1) : Good F P (slowNotice x0 x1) := by
  unfold slowNotice
  apply good_ite
  · exact fun y0 => ha
  · intro y1
    extract_lets -merge +onlyGivenNames s2
    split
    · rename_i v3 v4 v5 v6 e7
      apply good_ite
      · intro y8
        apply forwardNotice_good
        apply relimit_good
        unfold s2
        exact State.onFab_good ha
      · intro y9
        apply good_ite
        · intro y10
          apply forwardNotice_good
          unfold s2
          exact State.onFab_good ha
        · exact fun y11 => ha
    · rename_i v12 e13
      apply forwardNotice_good
      apply relimit_good
      unfold s2
      exact State.onFab_good ha

theorem execSlowNoticeReceive_good {x0 x1} (ha : Good F P x1) : GoodN F P (execSlowNoticeReceive x0 x1) := by
  unfold execSlowNoticeReceive
  exact goodN_next (slowNotice_good ha)

theorem execSlowNoticeLapse_good {x0 x1} (ha : Good F P x1) : GoodN F P (execSlowNoticeLapse x0 x1) := by
  unfold execSlowNoticeLapse
  exact goodN_next (relimit_good (State.onFab_good ha))

theorem writeStep_good {x0 x1 x2} (ha : Good F P x2) : Good F P (writeStep x0 x1 x2) := by
  unfold writeStep
  extract_lets -merge +onlyGivenNames s0
  have h1 : Good F P s0 := State.onLvr_good ha
  clear_value s0
  exact good_ite (fun y2 => h1) (fun y3 => trace_good h1)

theorem controlStep_good {x0 x1 x2 x3} (ha : Good F P x3) : Good F P (controlStep x0 x1 x2 x3) := by
  unfold controlStep
  apply good_ite
  · exact fun y0 => ha
  · intro y1
    extract_lets -merge +onlyGivenNames s2
    have h3 : Good F P s2 := State.onLvr_good ha
    clear_value s2
    extract_lets -merge +onlyGivenNames s4
    have h5 : Good F P s4 := State.onTherm_good h3
    clear_value s4
    extract_lets -merge +onlyGivenNames s6
    clear_value s6
    extract_lets -merge +onlyGivenNames s7
    extract_lets -merge +onlyGivenNames s8
    clear_value s8
    extract_lets -merge +onlyGivenNames s9
    clear_value s9
    extract_lets -merge +onlyGivenNames s10
    have h11 : Good F P s10 := forEach_good h5 (fun y12 y13 h14 => writeStep_good h14)
    clear_value s10
    exact noticeUpdate_good (State.onLvr_good h11)

theorem execControlStep_good {x0 x1 x2 x3} (ha : Good F P x3) : GoodN F P (execControlStep x0 x1 x2 x3) := by
  unfold execControlStep
  exact goodN_next (controlStep_good ha)

theorem execThermalStepRelease_good {x0 x1} (ha : Good F P x1) : GoodN F P (execThermalStepRelease x0 x1) := by
  unfold execThermalStepRelease
  exact goodN_next (good_ite (fun y0 => State.onLvr_good ha) (fun y1 => ha))

theorem floorEngage_good {x0 x1} (ha : Good F P x1) : Good F P (floorEngage x0 x1) := by
  unfold floorEngage
  apply good_ite
  · exact fun y0 => ha
  · intro y1
    extract_lets -merge +onlyGivenNames s2
    have h3 : Good F P s2 := State.onLvr_good ha
    clear_value s2
    exact noticeUpdate_good h3

theorem execFloorEngage_good {x0 x1} (ha : Good F P x1) : GoodN F P (execFloorEngage x0 x1) := by
  unfold execFloorEngage
  exact goodN_next (floorEngage_good ha)

theorem floorRelease_good {x0 x1} (ha : Good F P x1) : Good F P (floorRelease x0 x1) := by
  unfold floorRelease
  exact good_ite (fun y0 => ha) (fun y1 => good_ite (fun y2 => good_ite (fun y3 => noticeUpdate_good (State.onLvr_good ha)) (fun y4 => ha)) (fun y5 => good_ite (fun y6 => State.onLvr_good ha) (fun y7 => ha)))

theorem execFloorRelease_good {x0 x1} (ha : Good F P x1) : GoodN F P (execFloorRelease x0 x1) := by
  unfold execFloorRelease
  exact goodN_next (floorRelease_good ha)

theorem cutTile_good {x0 x1 x2} (ha : Good F P x2) : Good F P (cutTile x0 x1 x2) := by
  unfold cutTile
  split
  · rename_i v0 e1
    exact ha
  · rename_i v2 v3 e4
    exact havocAcc_good ha

theorem cutFlying_good {x0 x1 x2} (ha : Good F P x2) : Good F P (cutFlying x0 x1 x2) := by
  unfold cutFlying
  extract_lets -merge +onlyGivenNames s0
  have h1 : Good F P s0 := good_ite (fun y2 => tileTake_good (forEach_good ha (fun y3 y4 h5 => cutTile_good h5))) (fun y6 => good_ite (fun y7 => cutSill_good ha) (fun y8 => good_ite (fun y9 => collStop_good ha) (fun y10 => ha)))
  clear_value s0
  exact poisonEnv_good (freeBanks_good (settleWrites_good (undefWrites_good h1)))

theorem stopFlying_good {x0 x1} (ha : Good F P x1) : Good F P (stopFlying x0 x1) := by
  unfold stopFlying
  extract_lets -merge +onlyGivenNames s0
  clear_value s0
  extract_lets -merge +onlyGivenNames s1
  have h2 : Good F P s1 := forEach_good ha (fun y3 y4 h5 => cutFlying_good h5)
  clear_value s1
  exact State.modCore_good h2

theorem tripRun_good {x0 x1} (ha : Good F P x1) : Good F P (tripRun x0 x1) := by
  unfold tripRun
  split
  · rename_i v0 e1
    exact ha
  · rename_i v2 v3 e4
    apply good_ite
    · exact fun y5 => ha
    · intro y6
      extract_lets -merge +onlyGivenNames s7
      clear_value s7
      exact endRun_good (cutRun_good ha)

theorem darkPort_good {x0 x1} (ha : Good F P x1) : Good F P (darkPort x0 x1) := by
  unfold darkPort
  extract_lets -merge +onlyGivenNames s0
  have h1 : Good F P s0 := setPort_good ha
  clear_value s0
  exact State.modPort_good h1

theorem dropGroup_good {x0} (ha : Good F P x0) : Good F P (dropGroup x0) := by
  unfold dropGroup
  extract_lets -merge +onlyGivenNames s0
  have h1 : Good F P s0 := by
    unfold s0
    split
    · rename_i v2 e3
      exact ha
    · rename_i v4 e5
      exact fabAnswer_good ha
    · rename_i v6 e7 e8
      exact fabAnswer_good ha
  clear_value s0
  exact leaveGroup_good h1

theorem thermalTrip_good {x0 x1} (ha : Good F P x1) : Good F P (thermalTrip x0 x1) := by
  unfold thermalTrip
  split
  · rename_i v0 e1
    exact ha
  · rename_i v2 v3 v4 v5 e6
    apply good_ite
    · exact fun y7 => ha
    · intro y8
      extract_lets -merge +onlyGivenNames s9
      clear_value s9
      extract_lets -merge +onlyGivenNames s10
      have h11 : Good F P s10 := sampleSite_good ha
      clear_value s10
      extract_lets -merge +onlyGivenNames s12
      have h13 : Good F P s12 := State.onTherm_good (State.onDev_good h11)
      clear_value s12
      extract_lets -merge +onlyGivenNames s14
      have h15 : Good F P s14 := devEvent_good (State.onPin_good h13)
      clear_value s14
      extract_lets -merge +onlyGivenNames s16
      have h17 : Good F P s16 := forEach_good h15 (fun y18 y19 h20 => stopFlying_good h20)
      clear_value s16
      extract_lets -merge +onlyGivenNames s21
      have h22 : Good F P s21 := forEach_good h17 (fun y23 y24 h25 => tripRun_good h25)
      clear_value s21
      extract_lets -merge +onlyGivenNames s26
      have h27 : Good F P s26 := forEach_good h22 (fun y28 y29 h30 => gate_good h30)
      clear_value s26
      extract_lets -merge +onlyGivenNames s31
      have h32 : Good F P s31 := forEach_good h27 (fun y33 y34 h35 => darkPort_good h35)
      clear_value s31
      exact pumpAll_good (dropGroup_good h32)

theorem execThermalTrip_good {x0 x1} (ha : Good F P x1) : GoodN F P (execThermalTrip x0 x1) := by
  unfold execThermalTrip
  exact goodN_next (thermalTrip_good ha)

theorem endTrip_good {x0} (ha : Good F P x0) : Good F P (endTrip x0) := by
  unfold endTrip
  extract_lets -merge +onlyGivenNames s0
  have h1 : Good F P s0 := State.onTherm_good (State.onDev_good ha)
  clear_value s0
  extract_lets -merge +onlyGivenNames s2
  have h3 : Good F P s2 := State.onPin_good h1
  clear_value s2
  exact noticeUpdate_good (State.onLvr_good h3)

end Sys2Proof.Machine
end

