-- ==== Sys2Proof/Laws/GoodFabric.lean ====
section
/-! SUPPORT. What Machine/Fabric.lean leaves as it found it: from a good state every definition there gives a good state. -/

namespace Sys2Proof.Machine

variable {F : Fuse} {P : List Instr}

theorem execLinkLightOn_good {x0 x1 x2} (ha : Good F P x2) : GoodN F P (execLinkLightOn x0 x1 x2) := by
  unfold execLinkLightOn
  exact goodN_next (good_ite (fun y0 => setPort_good ha) (fun y1 => ha))

theorem execLinkLightLost_good {x0 x1 x2} (ha : Good F P x2) : GoodN F P (execLinkLightLost x0 x1 x2) := by
  unfold execLinkLightLost
  exact goodN_next (good_ite (fun y0 => pumpAll_good (noticeUpdate_good (darkPort_good ha))) (fun y1 => ha))

theorem execLanesLocked_good {x0 x1} (ha : Good F P x1) : GoodN F P (execLanesLocked x0 x1) := by
  unfold execLanesLocked
  apply goodN_next
  extract_lets -merge +onlyGivenNames s0
  clear_value s0
  exact good_ite (fun y1 => pumpAll_good (linkSend_good (setPort_good ha))) (fun y2 => ha)

theorem negotiated_good {x0 x1 x2} (ha : Good F P x2) : Good F P (negotiated x0 x1 x2) := by
  unfold negotiated
  extract_lets -merge +onlyGivenNames s0
  clear_value s0
  extract_lets -merge +onlyGivenNames s1
  clear_value s1
  extract_lets -merge +onlyGivenNames s2
  clear_value s2
  apply good_ite
  · exact fun y3 => ha
  · intro y4
    extract_lets -merge +onlyGivenNames s5
    have h6 : Good F P s5 := State.modPort_good ha
    clear_value s5
    exact noticeUpdate_good (setPort_good h6)

theorem execNegotiationComplete_good {x0 x1 x2} (ha : Good F P x2) : GoodN F P (execNegotiationComplete x0 x1 x2) := by
  unfold execNegotiationComplete
  exact goodN_next (pumpAll_good (negotiated_good ha))

theorem laneFail_good {x0 x1 x2} (ha : Good F P x2) : Good F P (laneFail x0 x1 x2) := by
  unfold laneFail
  apply good_ite
  · exact fun y0 => ha
  · intro y1
    extract_lets -merge +onlyGivenNames s2
    clear_value s2
    exact good_ite (fun y3 => noticeUpdate_good (darkPort_good ha)) (fun y4 => noticeUpdate_good (State.modPort_good ha))

theorem execLaneFail_good {x0 x1 x2} (ha : Good F P x2) : GoodN F P (execLaneFail x0 x1 x2) := by
  unfold execLaneFail
  exact goodN_next (pumpAll_good (laneFail_good ha))

theorem takeMsg_good {x0 x1} (ha : Good F P x1) : Good F P (takeMsg x0 x1) := by
  unfold takeMsg
  extract_lets -merge +onlyGivenNames s0
  clear_value s0
  extract_lets -merge +onlyGivenNames s1
  clear_value s1
  exact good_ite (fun y2 => ha) (fun y3 => good_ite (fun y4 => good_ite (fun y5 => State.onFab_good (answered_good ha)) (fun y6 => ha)) (fun y7 => good_ite (fun y8 => gotLinks_good ha) (fun y9 => good_ite (fun y10 => State.onFab_good ha) (fun y11 => ha))))

theorem takeArrival_good {x0 x1 x2} (ha : Good F P x2) : Good F P (takeArrival x0 x1 x2) := by
  unfold takeArrival
  exact good_ite (fun y0 => good_ite (fun y1 => flitIn_good (wakeFor_good ha)) (fun y2 => good_ite (fun y3 => takeMsg_good ha) (fun y4 => ha))) (fun y5 => sendFlit_good ha)

theorem flitReceive_good {x0 x1 x2} (ha : Good F P x2) : Good F P (flitReceive x0 x1 x2) := by
  unfold flitReceive
  apply good_ite
  · exact fun y0 => ha
  · intro y1
    extract_lets -merge +onlyGivenNames s2
    have h3 : Good F P s2 := by
      unfold s2
      split
      · rename_i v4 v5 e6
        exact portAck_good ha
      · rename_i v7 e8
        exact ha
    clear_value s2
    split
    · rename_i v9 e10
      exact h3
    · rename_i v11 v12 e13
      extract_lets -merge +onlyGivenNames s14
      clear_value s14
      exact good_ite (fun y15 => good_ite (fun y16 => takeArrival_good (linkSend_good (State.modPort_good h3))) (fun y17 => h3)) (fun y18 => good_ite (fun y19 => linkSend_good h3) (fun y20 => linkSend_good h3))

theorem execFlitReceive_good {x0 x1 x2} (ha : Good F P x2) : GoodN F P (execFlitReceive x0 x1 x2) := by
  unfold execFlitReceive
  exact goodN_next (pumpAll_good (flitReceive_good ha))

theorem replayPort_good {x0 x1 x2 x3} (ha : Good F P x3) : Good F P (replayPort x0 x1 x2 x3) := by
  unfold replayPort
  apply good_ite
  · intro y0
    extract_lets -merge +onlyGivenNames s1
    have h2 : Good F P s1 := State.modPort_good ha
    clear_value s1
    exact State.onOut_good h2
  · intro y3
    extract_lets -merge +onlyGivenNames s4
    have h5 : Good F P s4 := setPort_good (State.modPort_good ha)
    clear_value s4
    exact forEach_good h5 (fun y6 y7 h8 => sendFlit_good h8)

theorem negativeAck_good {x0 x1 x2} (ha : Good F P x2) : Good F P (negativeAck x0 x1 x2) := by
  unfold negativeAck
  extract_lets -merge +onlyGivenNames s0
  clear_value s0
  extract_lets -merge +onlyGivenNames s1
  clear_value s1
  exact good_ite (fun y2 => ha) (fun y3 => replayPort_good ha)

theorem execNegativeAck_good {x0 x1 x2} (ha : Good F P x2) : GoodN F P (execNegativeAck x0 x1 x2) := by
  unfold execNegativeAck
  exact goodN_next (pumpAll_good (negativeAck_good ha))

theorem execReplayTimeout_good {x0 x1} (ha : Good F P x1) : GoodN F P (execReplayTimeout x0 x1) := by
  unfold execReplayTimeout
  apply goodN_next
  extract_lets -merge +onlyGivenNames s0
  clear_value s0
  exact good_ite (fun y1 => pumpAll_good (replayPort_good ha)) (fun y2 => ha)

theorem laneCalibrated_good {x0 x1 x2} (ha : Good F P x2) : Good F P (laneCalibrated x0 x1 x2) := by
  unfold laneCalibrated
  extract_lets -merge +onlyGivenNames s0
  clear_value s0
  apply good_ite
  · exact fun y1 => ha
  · intro y2
    extract_lets -merge +onlyGivenNames s3
    have h4 : Good F P s3 := by
      unfold s3
      split
      · rename_i v5 v6 v7 e8
        exact updEntry_good ha
      · rename_i v9 e10
        exact ha
    clear_value s3
    exact State.modPort_good h4

theorem execLaneCalibration_good {x0 x1 x2} (ha : Good F P x2) : GoodN F P (execLaneCalibration x0 x1 x2) := by
  unfold execLaneCalibration
  exact goodN_next (pumpAll_good (laneCalibrated_good ha))

theorem execCalibrationPeriod_good {x0 x1} (ha : Good F P x1) : GoodN F P (execCalibrationPeriod x0 x1) := by
  unfold execCalibrationPeriod
  exact goodN_next (good_ite (fun y0 => ha) (fun y1 => forEach_good ha (fun y2 y3 h4 => State.modPort_good h4)))

theorem peerLost_good {x0 x1 x2} (ha : Good F P x2) : Good F P (peerLost x0 x1 x2) := by
  unfold peerLost
  apply good_ite
  · exact fun y0 => ha
  · intro y1
    extract_lets -merge +onlyGivenNames s2
    clear_value s2
    extract_lets -merge +onlyGivenNames s3
    have h4 : Good F P s3 := State.onFab_good ha
    clear_value s3
    exact good_ite (fun y5 => declareLost_good h4) (fun y6 => h4)

theorem stepTimeout_good {x0 x1} (ha : Good F P x1) : Good F P (stepTimeout x0 x1) := by
  unfold stepTimeout
  split
  · rename_i v0 e1
    exact ha
  · rename_i v2 v3 e4
    exact good_ite (fun y5 => ha) (fun y6 => forEach_good (collTimeout_good ha) (fun y7 y8 h9 => good_ite (fun y10 => peerLost_good h9) (fun y11 => sendMsg_good h9)))

theorem execStepTimeout_good {x0 x1} (ha : Good F P x1) : GoodN F P (execStepTimeout x0 x1) := by
  unfold execStepTimeout
  exact goodN_next (pumpAll_good (stepTimeout_good ha))

theorem joinFails_good {x0} (ha : Good F P x0) : Good F P (joinFails x0) := by
  unfold joinFails
  exact good_ite (fun y0 => leaveGroup_good (fabAnswer_good ha)) (fun y1 => ha)

theorem rejoin_good {x0 x1} (ha : Good F P x1) : Good F P (rejoin x0 x1) := by
  unfold rejoin
  extract_lets -merge +onlyGivenNames s0
  clear_value s0
  apply good_ite
  · exact fun y1 => refuseJoin_good ha
  · intro y2
    apply good_ite
    · exact fun y3 => refuseJoin_good ha
    · intro y4
      extract_lets -merge +onlyGivenNames s5
      clear_value s5
      extract_lets -merge +onlyGivenNames s6
      clear_value s6
      extract_lets -merge +onlyGivenNames s7
      have h8 : Good F P s7 := holdAnnounce_good (State.onFab_good ha)
      clear_value s7
      extract_lets -merge +onlyGivenNames s9
      have h10 : Good F P s9 := sendMsgV_good h8
      clear_value s9
      exact forEach_good (rebuildPlans_good h10) (fun y11 y12 h13 => givePlace_good h13)

theorem joinAnnounce_good {x0 x1} (ha : Good F P x1) : Good F P (joinAnnounce x0 x1) := by
  unfold joinAnnounce
  extract_lets -merge +onlyGivenNames s0
  clear_value s0
  apply good_ite
  · exact fun y1 => ha
  · intro y2
    apply good_ite
    · intro y3
      extract_lets -merge +onlyGivenNames s4
      have h5 : Good F P s4 := sendMsgV_good ha
      clear_value s4
      exact good_ite (fun y6 => refuseJoin_good h5) (fun y7 => tryForm_good (holdAnnounce_good h5))
    · exact fun y8 => good_ite (fun y9 => ha) (fun y10 => good_ite (fun y11 => rejoin_good (sendMsgV_good ha)) (fun y12 => good_ite (fun y13 => ha) (fun y14 => sendMsgV_good ha)))

theorem execJoinAnnounce_good {x0 x1} (ha : Good F P x1) : GoodN F P (execJoinAnnounce x0 x1) := by
  unfold execJoinAnnounce
  exact goodN_next (pumpAll_good (joinAnnounce_good ha))

theorem announceAgain_good {x0} (ha : Good F P x0) : Good F P (announceAgain x0) := by
  unfold announceAgain
  extract_lets -merge +onlyGivenNames s0
  clear_value s0
  extract_lets -merge +onlyGivenNames s1
  have h2 : Good F P s1 := good_ite (fun y3 => ha) (fun y4 => sendMsg_good ha)
  clear_value s1
  apply good_ite
  · exact fun y5 => h2
  · intro y6
    extract_lets -merge +onlyGivenNames s7
    clear_value s7
    extract_lets -merge +onlyGivenNames s8
    have h9 : Good F P s8 := State.onFab_good h2
    clear_value s8
    exact good_ite (fun y10 => h9) (fun y11 => sendMsg_good h9)

theorem execJoinAnnounceRepeat_good {x0} (ha : Good F P x0) : GoodN F P (execJoinAnnounceRepeat x0) := by
  unfold execJoinAnnounceRepeat
  exact goodN_next (good_ite (fun y0 => servePorts_good (announceAgain_good ha)) (fun y1 => ha))

theorem joinRefuse_good {x0 x1} (ha : Good F P x1) : Good F P (joinRefuse x0 x1) := by
  unfold joinRefuse
  apply good_ite
  · exact fun y0 => ha
  · intro y1
    split
    · rename_i v2 e3
      exact leaveGroup_good (fabAnswer_good ha)
    · rename_i v4 e5
      exact fabAnswer_good (answered_good ha)
    · rename_i v6 e7
      exact fabAnswer_good (answered_good ha)
    · rename_i v8 e9 e10 e11
      exact ha

theorem execJoinRefuse_good {x0 x1} (ha : Good F P x1) : GoodN F P (execJoinRefuse x0 x1) := by
  unfold execJoinRefuse
  exact goodN_next (pumpAll_good (joinRefuse_good ha))

theorem execGroupCommit_good {x0 x1} (ha : Good F P x1) : GoodN F P (execGroupCommit x0 x1) := by
  unfold execGroupCommit
  exact goodN_next (good_ite (fun y0 => ha) (fun y1 => pumpAll_good (commitGroup_good ha)))

theorem execGroupAbort_good {x0} (ha : Good F P x0) : GoodN F P (execGroupAbort x0) := by
  unfold execGroupAbort
  exact goodN_next (good_ite (fun y0 => ha) (fun y1 => pumpAll_good (joinFails_good ha)))

theorem execFormationTimeout_good {x0} (ha : Good F P x0) : GoodN F P (execFormationTimeout x0) := by
  unfold execFormationTimeout
  exact goodN_next (good_ite (fun y0 => ha) (fun y1 => pumpAll_good (joinFails_good (good_ite (fun y2 => sendAll_good ha) (fun y3 => ha)))))

theorem beatOn_good {x0} (ha : Good F P x0) : Good F P (beatOn x0) := by
  unfold beatOn
  split
  · rename_i v0 e1
    exact ha
  · rename_i v2 v3 e4
    exact servePorts_good (forEach_good ha (fun y5 y6 h7 => sendVia_good h7))

theorem execLintelBeatSend_good {x0} (ha : Good F P x0) : GoodN F P (execLintelBeatSend x0) := by
  unfold execLintelBeatSend
  exact goodN_next (good_ite (fun y0 => beatOn_good ha) (fun y1 => ha))

theorem execLintelBeat_good {x0} (ha : Good F P x0) : GoodN F P (execLintelBeat x0) := by
  unfold execLintelBeat
  apply goodN_next
  apply good_ite
  · intro y0
    extract_lets -merge +onlyGivenNames s1
    have h2 : Good F P s1 := State.onFab_good ha
    clear_value s1
    exact good_ite (fun y3 => h2) (fun y4 => beatOn_good h2)
  · exact fun y5 => ha

theorem turnTo_good {x0 x1} (ha : Good F P x1) : Good F P (turnTo x0 x1) := by
  unfold turnTo
  split
  · rename_i v0
    exact ha
  · rename_i v1 v2
    extract_lets -merge +onlyGivenNames s3
    have h4 : Good F P s3 := State.onFab_good (answered_good ha)
    clear_value s3
    exact good_ite (fun y5 => h4) (fun y6 => sendAsk_good h4)

theorem resumeMove_good {x0 x1} (ha : Good F P x1) : Good F P (resumeMove x0 x1) := by
  unfold resumeMove
  split
  · rename_i v0 v1 v2 e3
    extract_lets -merge +onlyGivenNames s4
    clear_value s4
    exact tryRelease_good (commitPlace_good (State.onFab_good (sendAll_good ha)))
  · rename_i v5 v6 e7
    exact good_ite (fun y8 => abortPlace_good (sendAll_good ha)) (fun y9 => ha)

theorem trySucceed_good {x0} (ha : Good F P x0) : Good F P (trySucceed x0) := by
  unfold trySucceed
  extract_lets -merge +onlyGivenNames s0
  clear_value s0
  extract_lets -merge +onlyGivenNames s1
  clear_value s1
  apply good_ite
  · exact fun y2 => ha
  · intro y3
    extract_lets -merge +onlyGivenNames s4
    clear_value s4
    extract_lets -merge +onlyGivenNames s5
    clear_value s5
    extract_lets -merge +onlyGivenNames s6
    clear_value s6
    extract_lets -merge +onlyGivenNames s7
    have h8 : Good F P s7 := lintelChange_good ha
    clear_value s7
    extract_lets -merge +onlyGivenNames s9
    have h10 : Good F P s9 := State.onFab_good h8
    clear_value s9
    extract_lets -merge +onlyGivenNames s11
    have h12 : Good F P s11 := sendAll_good h10
    clear_value s11
    extract_lets -merge +onlyGivenNames s13
    have h14 : Good F P s13 := forEach_good h12 (fun y15 y16 h17 => resumeMove_good h17)
    clear_value s13
    exact State.onFab_good h14

theorem lintelLost_good {x0} (ha : Good F P x0) : Good F P (lintelLost x0) := by
  unfold lintelLost
  extract_lets -merge +onlyGivenNames s0
  clear_value s0
  apply good_ite
  · exact fun y1 => ha
  · intro y2
    extract_lets -merge +onlyGivenNames s3
    have h4 : Good F P s3 := State.onFab_good ha
    clear_value s3
    exact good_ite (fun y5 => good_ite (fun y6 => fabAnswer_good h4) (fun y7 => h4)) (fun y8 => trySucceed_good (turnTo_good h4))

theorem execLintelLost_good {x0} (ha : Good F P x0) : GoodN F P (execLintelLost x0) := by
  unfold execLintelLost
  exact goodN_next (pumpAll_good (lintelLost_good ha))

theorem execLintelAnnounceTimeout_good {x0} (ha : Good F P x0) : GoodN F P (execLintelAnnounceTimeout x0) := by
  unfold execLintelAnnounceTimeout
  apply goodN_next
  extract_lets -merge +onlyGivenNames s0
  clear_value s0
  exact good_ite (fun y1 => pumpAll_good (trySucceed_good (turnTo_good ha))) (fun y2 => ha)

theorem execLostLintelAnnouncement_good {x0 x1} (ha : Good F P x1) : GoodN F P (execLostLintelAnnouncement x0 x1) := by
  unfold execLostLintelAnnouncement
  exact goodN_next (good_ite (fun y0 => pumpAll_good (trySucceed_good (holdAnnounce_good (sendMsgV_good ha)))) (fun y1 => ha))

theorem execPeerLostReport_good {x0 x1 x2} (ha : Good F P x2) : GoodN F P (execPeerLostReport x0 x1 x2) := by
  unfold execPeerLostReport
  exact goodN_next (pumpAll_good (peerLost_good ha))

theorem execMemberLost_good {x0 x1} (ha : Good F P x1) : GoodN F P (execMemberLost x0 x1) := by
  unfold execMemberLost
  exact goodN_next (good_ite (fun y0 => memberLost_good ha) (fun y1 => ha))

theorem execLeave_good {x0 x1} (ha : Good F P x1) : GoodN F P (execLeave x0 x1) := by
  unfold execLeave
  exact goodN_next (good_ite (fun y0 => pumpAll_good (declareLost_good (sendMsg_good ha))) (fun y1 => ha))

theorem execLeaveAcknowledged_good {x0} (ha : Good F P x0) : GoodN F P (execLeaveAcknowledged x0) := by
  unfold execLeaveAcknowledged
  exact goodN_next (good_ite (fun y0 => pumpAll_good (leaveGroup_good (fabAnswer_good ha))) (fun y1 => ha))

theorem execRaiseRequest_good {x0 x1 x2} (ha : Good F P x2) : GoodN F P (execRaiseRequest x0 x1 x2) := by
  unfold execRaiseRequest
  exact goodN_next (good_ite (fun y0 => ha) (fun y1 => pumpAll_good (good_ite (fun y2 => rebuildPlans_good ha) (fun y3 => sendMsg_good ha))))

theorem execPlanPublish_good {x0 x1} (ha : Good F P x1) : GoodN F P (execPlanPublish x0 x1) := by
  unfold execPlanPublish
  exact goodN_next (good_ite (fun y0 => ha) (fun y1 => pumpAll_good (takePlans_good ha)))

theorem execPlanGraceExpiry_good {x0 x1} (ha : Good F P x1) : GoodN F P (execPlanGraceExpiry x0 x1) := by
  unfold execPlanGraceExpiry
  exact goodN_next (pumpAll_good (endGrace_good ha))

theorem execManagementMessageRepeat_good {x0 x1} (ha : Good F P x1) : GoodN F P (execManagementMessageRepeat x0 x1) := by
  unfold execManagementMessageRepeat
  apply goodN_next
  split
  · rename_i v0 v1 e2
    exact servePorts_good (sendMsg_good ha)
  · rename_i v3 e4
    exact ha

theorem execPlaceStage_good {x0 x1} (ha : Good F P x1) : GoodN F P (execPlaceStage x0 x1) := by
  unfold execPlaceStage
  exact goodN_next (good_ite (fun y0 => pumpAll_good (takeStage_good ha)) (fun y1 => ha))

theorem execPlaceStaged_good {x0 x1 x2 x3} (ha : Good F P x3) : GoodN F P (execPlaceStaged x0 x1 x2 x3) := by
  unfold execPlaceStaged
  exact goodN_next (good_ite (fun y0 => servePorts_good (gotStaged_good ha)) (fun y1 => ha))

theorem execPlaceStagedTimeout_good {x0 x1} (ha : Good F P x1) : GoodN F P (execPlaceStagedTimeout x0 x1) := by
  unfold execPlaceStagedTimeout
  exact goodN_next (good_ite (fun y0 => servePorts_good (stageTimeout_good ha)) (fun y1 => ha))

theorem execPlaceCommit_good {x0 x1 x2} (ha : Good F P x2) : GoodN F P (execPlaceCommit x0 x1 x2) := by
  unfold execPlaceCommit
  exact goodN_next (good_ite (fun y0 => commitPlace_good ha) (fun y1 => ha))

theorem execPlaceAbort_good {x0 x1} (ha : Good F P x1) : GoodN F P (execPlaceAbort x0 x1) := by
  unfold execPlaceAbort
  exact goodN_next (good_ite (fun y0 => abortPlace_good ha) (fun y1 => ha))

theorem execPlaceRelease_good {x0 x1} (ha : Good F P x1) : GoodN F P (execPlaceRelease x0 x1) := by
  unfold execPlaceRelease
  exact goodN_next (good_ite (fun y0 => releasePlace_good ha) (fun y1 => ha))

theorem execStepReport_good {x0 x1} (ha : Good F P x1) : GoodN F P (execStepReport x0 x1) := by
  unfold execStepReport
  apply goodN_next
  split
  · rename_i v0 v1 e2
    exact good_ite (fun y3 => servePorts_good (toLintel_good (fun y4 h5 => gotReport_good h5) ha)) (fun y6 => ha)
  · rename_i v7 e8
    exact ha

theorem execLintelStepReport_good {x0 x1 x2 x3 x4 x5} (ha : Good F P x5) : GoodN F P (execLintelStepReport x0 x1 x2 x3 x4 x5) := by
  unfold execLintelStepReport
  exact goodN_next (good_ite (fun y0 => servePorts_good (gotReport_good ha)) (fun y1 => ha))

theorem execPowerShare_good {x0 x1} (ha : Good F P x1) : GoodN F P (execPowerShare x0 x1) := by
  unfold execPowerShare
  exact goodN_next (good_ite (fun y0 => State.onLvr_good ha) (fun y1 => ha))

theorem powerShareSend_good {x0} (ha : Good F P x0) : Good F P (powerShareSend x0) := by
  unfold powerShareSend
  split
  · rename_i v0 e1
    exact ha
  · rename_i v2 v3 e4
    apply good_ite
    · exact fun y5 => ha
    · intro y6
      extract_lets -merge +onlyGivenNames s7
      clear_value s7
      exact forEach_good ha (fun y8 y9 h10 => good_ite (fun y11 => State.onLvr_good h10) (fun y12 => sendMsg_good h10))

theorem execPowerShareSend_good {x0} (ha : Good F P x0) : GoodN F P (execPowerShareSend x0) := by
  unfold execPowerShareSend
  exact goodN_next (servePorts_good (powerShareSend_good ha))

end Sys2Proof.Machine
end

