-- ==== Sys2Proof/Laws/GoodServing.lean ====
section
/-! SUPPORT. What Machine/Serving.lean leaves as it found it: from a good state every definition there gives a good state. -/

namespace Sys2Proof.Machine

variable {F : Fuse} {P : List Instr}

theorem parkReq_good {x0 x1 x2} (ha : Good F P x2) : Good F P (parkReq x0 x1 x2) := by
  unfold parkReq
  extract_lets -merge +onlyGivenNames s0
  clear_value s0
  extract_lets -merge +onlyGivenNames s1
  have h2 : Good F P s1 := startPark_good ha
  clear_value s1
  exact good_ite (fun y3 => h2) (fun y4 => finishReq_good h2)

theorem endReq_good {x0 x1 x2 x3 x4} (ha : Good F P x4) : Good F P (endReq x0 x1 x2 x3 x4) := by
  unfold endReq
  split
  · rename_i v0 e1
    exact ha
  · rename_i v2 v3 e4
    extract_lets -merge +onlyGivenNames s5
    have h6 : Good F P s5 := State.updReq_good ha
    clear_value s5
    extract_lets -merge +onlyGivenNames s7
    clear_value s7
    apply good_ite
    · exact fun y8 => parkReq_good h6
    · intro y9
      apply good_ite
      · intro y10
        extract_lets -merge +onlyGivenNames s11
        clear_value s11
        exact forEach_good (finishReq_good h6) (fun y12 y13 h14 => closeSeq_good h14)
      · exact fun y15 => finishReq_good h6

theorem takeToken_good {x0 x1 x2 x3} (ha : Good F P x3) : Good F P (takeToken x0 x1 x2 x3) := by
  unfold takeToken
  split
  · rename_i v0 e1
    exact ha
  · rename_i v2 v3 e4
    extract_lets -merge +onlyGivenNames s5
    clear_value s5
    extract_lets -merge +onlyGivenNames s6
    clear_value s6
    extract_lets -merge +onlyGivenNames s7
    have h8 : Good F P s7 := State.updReq_good ha
    clear_value s7
    extract_lets -merge +onlyGivenNames s9
    have h10 : Good F P s9 := vaPut_good h8
    clear_value s9
    extract_lets -merge +onlyGivenNames s11
    have h12 : Good F P s11 := by
      unfold s11
      apply good_ite
      · intro y13
        split
        · rename_i v14 v15 e16
          exact vaPut_good h10
        · rename_i v17 e18
          exact h10
      · exact fun y19 => h8
    clear_value s11
    exact good_ite (fun y20 => endReq_good h12) (fun y21 => good_ite (fun y22 => endReq_good h12) (fun y23 => h12))

theorem sampleRow_good {x0 x1 x2 x3 x4 x5} (ha : Good F P x5) : Good F P (sampleRow x0 x1 x2 x3 x4 x5) := by
  unfold sampleRow
  split
  · rename_i v0 v1 v2 v3 v4 e5 e6
    have h7 : Good F P v3 := good_ofL e6 (vaRead_good ha)
    split
    · rename_i v8 v9 e10
      exact takeToken_good h7
    · rename_i v11 e12
      split
      rename_i v13 v14 v15 e16
      have h17 : Good F P v15 := good_ofR e16 (State.fresh_good h7)
      exact takeToken_good h17
  · rename_i v18 v19 v20 v21 v22 e23 e24 e25
    have h26 : Good F P v21 := good_ofL e25 (vaRead_good ha)
    exact discardReq_good h26
  · rename_i v27 v28 e29
    exact ha

theorem rowDone_good {x0 x1 x2 x3 x4 x5} (ha : Good F P x5) : Good F P (rowDone x0 x1 x2 x3 x4 x5) := by
  unfold rowDone
  split
  rename_i v0 v1 v2 v3 v4 v5
  split
  · rename_i v6 e7
    exact ha
  · rename_i v8 v9 e10
    apply good_ite
    · exact fun y11 => ha
    · intro y12
      apply good_ite
      · exact fun y13 => discardReq_good ha
      · intro y14
        apply good_ite
        · exact fun y15 => endReq_good ha
        · intro y16
          extract_lets -merge +onlyGivenNames s17
          have h18 : Good F P s17 := forEach_good ha (fun y19 y20 h21 => good_snd (seqCommitDo_good h21))
          clear_value s17
          extract_lets -merge +onlyGivenNames s22
          clear_value s22
          extract_lets -merge +onlyGivenNames s23
          have h24 : Good F P s23 := State.updReq_good h18
          clear_value s23
          exact good_ite (fun y25 => sampleRow_good h24) (fun y26 => good_ite (fun y27 => endReq_good h24) (fun y28 => h24))

theorem stepDone_good {x0 x1 x2 x3 x4 x5} (ha : Good F P x5) : Good F P (stepDone x0 x1 x2 x3 x4 x5) := by
  unfold stepDone
  apply good_ite
  · intro y0
    extract_lets -merge +onlyGivenNames s1
    have h2 : Good F P s1 := forEach_good ha (fun y3 y4 h5 => rowDone_good h5)
    clear_value s1
    split
    · rename_i v6 v7 e8
      extract_lets -merge +onlyGivenNames s9
      clear_value s9
      exact State.modCas_good h2
    · rename_i v10 e11
      exact h2
  · exact fun y12 => good_ite (fun y13 => forEach_good ha (fun y14 y15 h16 => discardReq_good h16)) (fun y17 => ha)

theorem resumed_good {x0 x1 x2} (ha : Good F P x2) : Good F P (resumed x0 x1 x2) := by
  unfold resumed
  split
  · rename_i v0 e1
    exact ha
  · rename_i v2 v3 e4
    exact good_ite (fun y5 => ha) (fun y6 => good_ite (fun y7 => endReq_good ha) (fun y8 => good_ite (fun y9 => endReq_good ha) (fun y10 => State.updReq_good ha)))

theorem reserveReq_good {x0 x1} (ha : Good F P x1) : GoodR F P (reserveReq x0 x1) := by
  unfold reserveReq
  apply goodR_foldl
  · exact goodR_mk ha
  · intro y0 y1 h2
    split
    · rename_i v3 e4
      exact goodR_mk (good_snd h2)
    · rename_i v5 v6 e7
      extract_lets -merge +onlyGivenNames s8
      have h9 : GoodR F P s8 := seqCommitDo_good (good_snd h2)
      clear_value s8
      exact goodR_mk (good_snd h9)

theorem autopark_good {x0 x1 x2 x3} (ha : Good F P x3) : Good F P (autopark x0 x1 x2 x3) := by
  unfold autopark
  extract_lets -merge +onlyGivenNames s0
  clear_value s0
  split
  · rename_i v1 e2
    exact ha
  · rename_i v3 v4 v5 v6 e7
    exact startPark_good ha

theorem admitReq_good {x0 x1 x2 x3 x4} (ha : Good F P x4) : Good F P (admitReq x0 x1 x2 x3 x4) := by
  unfold admitReq
  split
  · rename_i v0 e1
    exact ha
  · rename_i v2 v3 e4
    apply good_ite
    · exact fun y5 => startRestore_good (State.updReq_good ha)
    · intro y6
      split
      rename_i v7 v8 v9 e10
      have h11 : Good F P v9 := good_ofR e10 (reserveReq_good ha)
      exact good_ite (fun y12 => State.updReq_good h11) (fun y13 => good_ite (fun y14 => autopark_good h11) (fun y15 => h11))

theorem startStep_good {x0 x1 x2 x3 x4} (ha : Good F P x4) : Good F P (startStep x0 x1 x2 x3 x4) := by
  unfold startStep
  extract_lets -merge +onlyGivenNames s0
  clear_value s0
  split
  · rename_i v1 v2 v3 v4 e5 e6
    apply good_ite
    · exact fun y7 => ha
    · intro y8
      extract_lets -merge +onlyGivenNames s9
      clear_value s9
      extract_lets -merge +onlyGivenNames s10
      have h11 : Good F P s10 := by
        unfold s10
        apply forEach_good
        · exact ha
        · intro y12 y13 h14
          split
          rename_i v15 v16 v17 v18 v19 v20 e21
          split
          · rename_i v22 v23 e24
            exact good_ite (fun y25 => h14) (fun y26 => vaPut_good h14)
          · rename_i v27 e28
            exact h14
      clear_value s10
      extract_lets -merge +onlyGivenNames s29
      have h30 : Good F P s29 := vaPut_good h11
      clear_value s29
      extract_lets -merge +onlyGivenNames s31
      have h32 : Good F P s31 := forEach_good h30 (fun y33 y34 h35 => State.updReq_good h35)
      clear_value s31
      split
      rename_i v36 v37 v38 e39
      have h40 : Good F P v38 := good_ofR e39 (State.newUid_good h32)
      extract_lets -merge +onlyGivenNames s41
      clear_value s41
      extract_lets -merge +onlyGivenNames s42
      have h43 : Good F P s42 := State.modCas_good h40
      clear_value s42
      exact arbitrate_good (State.putRun_good h43)
  · rename_i v44 v45 e46
    exact ha

theorem boundary_good {x0 x1 x2} (ha : Good F P x2) : Good F P (boundary x0 x1 x2) := by
  unfold boundary
  extract_lets -merge +onlyGivenNames s0
  clear_value s0
  extract_lets -merge +onlyGivenNames s1
  clear_value s1
  extract_lets -merge +onlyGivenNames s2
  have h3 : Good F P s2 := by
    unfold s2
    split
    · rename_i v4 v5 e6
      exact stepDone_good ha
    · rename_i v7 e8
      exact ha
  clear_value s2
  extract_lets -merge +onlyGivenNames s9
  have h10 : Good F P s9 := State.modCas_good h3
  clear_value s9
  extract_lets -merge +onlyGivenNames s11
  clear_value s11
  extract_lets -merge +onlyGivenNames s12
  have h13 : Good F P s12 := forEach_good h10 (fun y14 y15 h16 => discardReq_good h16)
  clear_value s12
  extract_lets -merge +onlyGivenNames s17
  have h18 : Good F P s17 := by
    unfold s17
    apply forEach_good
    · exact h13
    · intro y19 y20 h21
      split
      · rename_i v22 v23 e24
        exact good_ite (fun y25 => endReq_good h21) (fun y26 => h21)
      · rename_i v27 e28
        exact h21
  clear_value s17
  extract_lets -merge +onlyGivenNames s29
  have h30 : Good F P s29 := forEach_good h18 (fun y31 y32 h33 => resumed_good h33)
  clear_value s29
  extract_lets -merge +onlyGivenNames s34
  have h35 : Good F P s34 := forEach_good h30 (fun y36 y37 h38 => admitReq_good h38)
  clear_value s34
  extract_lets -merge +onlyGivenNames s39
  clear_value s39
  exact good_ite (fun y40 => h35) (fun y41 => startStep_good h35)

theorem execStepBoundary_good {x0 x1} (ha : Good F P x1) : GoodN F P (execStepBoundary x0 x1) := by
  unfold execStepBoundary
  apply goodN_next
  extract_lets -merge +onlyGivenNames s0
  clear_value s0
  split
  · rename_i v1 v2 e3
    exact good_ite (fun y4 => pumpAll_good (boundary_good ha)) (fun y5 => ha)
  · rename_i v6 e7
    exact ha

theorem jobEnd_good {x0 x1 x2} (ha : Good F P x2) : Good F P (jobEnd x0 x1 x2) := by
  unfold jobEnd
  split
  · rename_i v0 e1
    exact ha
  · rename_i v2 v3 e4
    extract_lets -merge +onlyGivenNames s5
    have h6 : Good F P s5 := State.delJob_good ha
    clear_value s5
    split
    · rename_i v7 e8
      exact completeEntry_good h6
    · rename_i v9 v10 e11
      split
      · rename_i v12 e13
        exact h6
      · rename_i v14 v15 e16
        apply good_ite
        · exact fun y17 => h6
        · intro y18
          extract_lets -merge +onlyGivenNames s19
          have h20 : Good F P s19 := State.updReq_good h6
          clear_value s19
          exact good_ite (fun y21 => finishReq_good h20) (fun y22 => h20)

theorem jobNext_good {x0 x1 x2} (ha : Good F P x2) : Good F P (jobNext x0 x1 x2) := by
  unfold jobNext
  extract_lets -merge +onlyGivenNames s0
  have h1 : Good F P s0 := State.updJob_good ha
  clear_value s0
  split
  · rename_i v2 v3 e4
    exact good_ite (fun y5 => jobEnd_good h1) (fun y6 => h1)
  · rename_i v7 e8
    exact h1

theorem jobPhase_good {x0 x1 x2} (ha : Good F P x2) : Good F P (jobPhase x0 x1 x2) := by
  unfold jobPhase
  exact State.updJob_good ha

theorem markTrace_good {x0 x1 x2 x3} (ha : Good F P x3) : Good F P (markTrace x0 x1 x2 x3) := by
  unfold markTrace
  exact trace_good ha

theorem parkBegin_good {x0 x1 x2 x3 x4} (ha : Good F P x4) : Good F P (parkBegin x0 x1 x2 x3 x4) := by
  unfold parkBegin
  apply good_ite
  · exact fun y0 => jobNext_good ha
  · intro y1
    split
    · rename_i v2 e3
      exact jobNext_good ha
    · rename_i v4 v5 e6
      extract_lets -merge +onlyGivenNames s7
      clear_value s7
      exact jobPhase_good (markTrace_good (State.putFdir_good ha))

theorem parkCopy_good {x0 x1 x2 x3 x4 x5} (ha : Good F P x5) : Good F P (parkCopy x0 x1 x2 x3 x4 x5) := by
  unfold parkCopy
  extract_lets -merge +onlyGivenNames s0
  split
  · rename_i v1 v2 e3
    have h4 : Good F P v2 := good_ofL e3 (stRead_good ha)
    unfold s0
    exact jobNext_good (markTrace_good (State.delFdir_good h4))
  · rename_i v5 v6 v7 e8
    have h9 : Good F P v6 := good_ofL e8 (stRead_good ha)
    split
    · rename_i v10 v11 e12
      have h13 : Good F P v11 := good_ofL e12 (farWrite_good h9)
      exact jobPhase_good h13
    · rename_i v14 v15 e16
      have h17 : Good F P v15 := good_ofL e16 (farWrite_good h9)
      unfold s0
      exact jobNext_good (markTrace_good (State.delFdir_good h17))

theorem parkMove_good {x0 x1 x2 x3 x4} (ha : Good F P x4) : Good F P (parkMove x0 x1 x2 x3 x4) := by
  unfold parkMove
  extract_lets -merge +onlyGivenNames s0
  have h1 : Good F P s0 := giveUp_good ha
  clear_value s0
  extract_lets -merge +onlyGivenNames s2
  have h3 : Good F P s2 := State.updPage_good h1
  clear_value s2
  exact jobNext_good (writePte_good h3)

theorem parkStep_good {x0 x1 x2} (ha : Good F P x2) : Good F P (parkStep x0 x1 x2) := by
  unfold parkStep
  split
  · rename_i v0 e1
    exact jobEnd_good ha
  · rename_i v2 v3 v4 e5
    split
    · rename_i v6 e7
      exact jobNext_good ha
    · rename_i v8 v9 e10
      apply good_ite
      · exact fun y11 => jobNext_good ha
      · intro y12
        split
        · rename_i v13 e14
          exact parkBegin_good ha
        · rename_i v15 v16 e17
          exact good_ite (fun y18 => parkCopy_good ha) (fun y19 => good_ite (fun y20 => good_ite (fun y21 => jobNext_good (State.delFdir_good ha)) (fun y22 => jobPhase_good (markTrace_good (State.putFdir_good ha)))) (fun y23 => good_ite (fun y24 => parkMove_good ha) (fun y25 => parkBegin_good ha)))

theorem execParkStep_good {x0 x1} (ha : Good F P x1) : GoodN F P (execParkStep x0 x1) := by
  unfold execParkStep
  apply goodN_next
  split
  · rename_i v0 v1 e2
    exact good_ite (fun y3 => pumpAll_good (attempt_good (fun y4 h5 => parkStep_good h5) ha)) (fun y6 => ha)
  · rename_i v7 e8
    exact ha

theorem restoreBegin_good {x0 x1 x2 x3 x4} (ha : Good F P x4) : Good F P (restoreBegin x0 x1 x2 x3 x4) := by
  unfold restoreBegin
  apply good_ite
  · exact fun y0 => jobEnd_good ha
  · intro y1
    split
    · rename_i v2 e3
      exact jobNext_good ha
    · rename_i v4 v5 e6
      exact good_ite (fun y7 => jobNext_good ha) (fun y8 => jobPhase_good (markTrace_good (State.putFdir_good ha)))

theorem restoreCopy_good {x0 x1 x2 x3 x4 x5} (ha : Good F P x5) : Good F P (restoreCopy x0 x1 x2 x3 x4 x5) := by
  unfold restoreCopy
  extract_lets -merge +onlyGivenNames s0
  split
  · rename_i v1 e2
    unfold s0
    exact jobNext_good (markTrace_good (State.putFdir_good ha))
  · rename_i v3 v4 e5
    split
    · rename_i v6 e7
      unfold s0
      exact jobNext_good (markTrace_good (State.putFdir_good ha))
    · rename_i v8 v9 e10
      split
      · rename_i v11 v12 e13
        have h14 : Good F P v12 := good_ofL e13 (farRead_good ha)
        unfold s0
        exact jobNext_good (markTrace_good (State.putFdir_good h14))
      · rename_i v15 v16 v17 e18
        have h19 : Good F P v16 := good_ofL e18 (farRead_good ha)
        extract_lets -merge +onlyGivenNames s20
        clear_value s20
        exact jobPhase_good (State.updJob_good (drainOwned_good (stWrite_good h19)))

theorem restoreStep_good {x0 x1 x2} (ha : Good F P x2) : Good F P (restoreStep x0 x1 x2) := by
  unfold restoreStep
  split
  · rename_i v0 e1
    exact jobEnd_good ha
  · rename_i v2 v3 v4 e5
    split
    · rename_i v6 e7
      exact jobNext_good ha
    · rename_i v8 v9 e10
      split
      · rename_i v11 v12 v13 e14 e15
        exact restoreCopy_good ha
      · rename_i v16 v17 e18
        extract_lets -merge +onlyGivenNames s19
        have h20 : Good F P s19 := State.updPage_good ha
        clear_value s19
        exact jobPhase_good (writePte_good h20)
      · rename_i v21 v22 e23
        exact jobNext_good (markTrace_good (State.delFdir_good ha))
      · rename_i v24 v25 e26 e27 e28
        exact restoreBegin_good ha

theorem execRestoreStep_good {x0 x1} (ha : Good F P x1) : GoodN F P (execRestoreStep x0 x1) := by
  unfold execRestoreStep
  apply goodN_next
  split
  · rename_i v0 v1 e2
    exact good_ite (fun y3 => pumpAll_good (attempt_good (fun y4 h5 => restoreStep_good h5) ha)) (fun y6 => ha)
  · rename_i v7 e8
    exact ha

theorem expirePage_good {x0 x1} (ha : Good F P x1) : Good F P (expirePage x0 x1) := by
  unfold expirePage
  split
  · rename_i v0 e1
    exact ha
  · rename_i v2 v3 e4
    extract_lets -merge +onlyGivenNames s5
    have h6 : Good F P s5 := good_ite (fun y7 => State.delFdir_good ha) (fun y8 => ha)
    clear_value s5
    exact good_ite (fun y9 => State.delPage_good h6) (fun y10 => writePte_good (State.updPage_good h6))

theorem execTtlSweep_good {x0 x1} (ha : Good F P x1) : GoodN F P (execTtlSweep x0 x1) := by
  unfold execTtlSweep
  apply goodN_next
  apply good_ite
  · exact fun y0 => ha
  · intro y1
    extract_lets -merge +onlyGivenNames s2
    clear_value s2
    exact pumpAll_good (forEach_good ha (fun y3 y4 h5 => expirePage_good h5))

theorem parkFromRec_good {x0 x1 x2} (ha : Good F P x2) : Good F P (parkFromRec x0 x1 x2) := by
  unfold parkFromRec
  extract_lets -merge +onlyGivenNames s0
  clear_value s0
  extract_lets -merge +onlyGivenNames s1
  have h2 : Good F P s1 := by
    unfold s1
    split
    · rename_i v3 v4 e5
      exact good_ite (fun y6 => giveUp_good ha) (fun y7 => ha)
    · rename_i v8 e9
      exact ha
  clear_value s1
  extract_lets -merge +onlyGivenNames s10
  clear_value s10
  extract_lets -merge +onlyGivenNames s11
  have h12 : Good F P s11 := State.putPage_good (State.putFdir_good h2)
  clear_value s11
  exact good_ite (fun y13 => h12) (fun y14 => writePte_good h12)

theorem walkRec_good {x0 x1 x2} (ha : Good F P x2) : Good F P (walkRec x0 x1 x2) := by
  unfold walkRec
  apply good_ite
  · exact fun y0 => State.delFdir_good ha
  · intro y1
    apply good_ite
    · exact fun y2 => parkFromRec_good ha
    · intro y3
      split
      · rename_i v4 v5 e6
        exact good_ite (fun y7 => State.delFdir_good ha) (fun y8 => parkFromRec_good ha)
      · rename_i v9 e10
        exact parkFromRec_good ha

theorem serviceCheck_good {x0} (ha : Good F P x0) : Good F P (serviceCheck x0) := by
  unfold serviceCheck
  exact good_ite (fun y0 => State.onDev_good ha) (fun y1 => good_ite (fun y2 => State.onDev_good ha) (fun y3 => ha))

theorem execFarDirectoryWalk_good {x0} (ha : Good F P x0) : GoodN F P (execFarDirectoryWalk x0) := by
  unfold execFarDirectoryWalk
  apply goodN_next
  apply good_ite
  · exact fun y0 => ha
  · intro y1
    extract_lets -merge +onlyGivenNames s2
    have h3 : Good F P s2 := forEach_good ha (fun y4 y5 h6 => walkRec_good h6)
    clear_value s2
    exact pumpAll_good (serviceCheck_good (State.onDev_good h3))

theorem layFar_good {x0} (ha : Good F P x0) : Good F P (layFar x0) := by
  unfold layFar
  apply good_ite
  · exact fun y0 => ha
  · intro y1
    extract_lets -merge +onlyGivenNames s2
    exact State.onFarBad_good (State.onFarMem_good ha (fun y3 y4 => wf_filter _ (by assumption)))

theorem execFarPortBringup_good {x0 x1 x2} (ha : Good F P x2) : GoodN F P (execFarPortBringup x0 x1 x2) := by
  unfold execFarPortBringup
  apply goodN_next
  apply good_ite
  · exact fun y0 => ha
  · intro y1
    extract_lets -merge +onlyGivenNames s2
    have h3 : Good F P s2 := State.onDev_good ha
    clear_value s2
    extract_lets -merge +onlyGivenNames s4
    have h5 : Good F P s4 := good_ite (fun y6 => State.onFar_good h3) (fun y7 => setFarDown_good h3)
    clear_value s4
    exact pumpAll_good (serviceCheck_good (layFar_good h5))

theorem execFarLinkDown_good {x0 x1} (ha : Good F P x1) : GoodN F P (execFarLinkDown x0 x1) := by
  unfold execFarLinkDown
  exact goodN_next (good_ite (fun y0 => eccIrq_good (setFarDown_good (State.onFar_good ha))) (fun y1 => ha))

theorem execFarLinkUp_good {x0 x1} (ha : Good F P x1) : GoodN F P (execFarLinkUp x0 x1) := by
  unfold execFarLinkUp
  apply goodN_next
  apply good_ite
  · intro y0
    extract_lets -merge +onlyGivenNames s1
    have h2 : Good F P s1 := State.onEccReg_good (State.onFar_good ha)
    clear_value s1
    exact State.onDev_good h2
  · exact fun y3 => ha

theorem execExpanderEvent_good {x0 x1 x2} (ha : Good F P x2) : GoodN F P (execExpanderEvent x0 x1 x2) := by
  unfold execExpanderEvent
  exact goodN_next (good_ite (fun y0 => trace_good ha) (fun y1 => ha))

theorem execSelftestDone_good {x0 x1 x2} (ha : Good F P x2) : GoodN F P (execSelftestDone x0 x1 x2) := by
  unfold execSelftestDone
  exact goodN_next (pumpAll_good (selftestDone_good ha))

end Sys2Proof.Machine
end

