-- ==== Sys2Proof/Laws/GoodFirmware.lean ====
section
/-! SUPPORT. What Machine/Firmware.lean leaves as it found it: from a good state every definition there gives a good state. -/

namespace Sys2Proof.Machine

variable {F : Fuse} {P : List Instr}

theorem replyWait_good {x0 x1} (ha : Good F P x1) : GoodR F P (replyWait x0 x1) := by
  unfold replyWait
  split
  rename_i v0 v1 v2 e3
  have h4 : Good F P v2 := good_ofR e3 (State.fresh_good ha)
  exact goodR_mk h4

theorem answer_good {x0 x1 x2 x3 x4 x5} (ha : Good F P x5) : Good F P (answer x0 x1 x2 x3 x4 x5) := by
  unfold answer
  extract_lets -merge +onlyGivenNames s0
  clear_value s0
  extract_lets -merge +onlyGivenNames s1
  have h2 : Good F P s1 := State.onMbxBuf_good ha (fun y3 y4 => wf_mwrite _ _ (by assumption))
  clear_value s1
  extract_lets -merge +onlyGivenNames s5
  have h6 : Good F P s5 := State.modMbx_good h2
  clear_value s5
  exact good_ite (fun y7 => msix_good h6) (fun y8 => h6)

theorem answerBusy_good {x0 x1 x2} (ha : Good F P x2) : Good F P (answerBusy x0 x1 x2) := by
  unfold answerBusy
  extract_lets -merge +onlyGivenNames s0
  clear_value s0
  split
  rename_i v1 v2 v3 e4
  have h5 : Good F P v3 := good_ofR e4 (replyWait_good ha)
  exact answer_good h5

theorem mbxBell_good {x0 x1 x2 x3} (ha : Good F P x3) : Good F P (mbxBell x0 x1 x2 x3) := by
  unfold mbxBell
  extract_lets -merge +onlyGivenNames s0
  clear_value s0
  apply good_ite
  · exact fun y1 => State.modMbx_good ha
  · intro y2
    extract_lets -merge +onlyGivenNames s3
    have h4 : Good F P s3 := State.modMbx_good ha
    clear_value s3
    exact good_ite (fun y5 => answerBusy_good h4) (fun y6 => h4)

theorem serve_good {x0 x1 x2 x3 x4 x5 x6} (ha : ∀ ya yb, Good F P yb → GoodR F P (x5 ya yb)) (hb : Good F P x6) : Good F P (serve x0 x1 x2 x3 x4 x5 x6) := by
  unfold serve
  extract_lets -merge +onlyGivenNames s0
  clear_value s0
  apply good_ite
  · exact fun y1 => hb
  · intro y2
    apply good_ite
    · exact fun y3 => answer_good hb
    · intro y4
      apply good_ite
      · exact fun y5 => answer_good hb
      · intro y6
        apply good_ite
        · exact fun y7 => answer_good hb
        · intro y8
          apply good_ite
          · exact fun y9 => answer_good hb
          · intro y10
            split
            rename_i v11 v12 v13 e14
            have h15 : Good F P v13 := good_ofR e14 (by
                apply ha
                exact hb)
            exact pumpAll_good (answer_good h15)

theorem execUnknownMtype_good {x0 x1 x2} (ha : Good F P x2) : GoodN F P (execUnknownMtype x0 x1 x2) := by
  unfold execUnknownMtype
  apply goodN_next
  extract_lets -merge +onlyGivenNames s0
  clear_value s0
  extract_lets -merge +onlyGivenNames s1
  clear_value s1
  exact good_ite (fun y2 => ha) (fun y3 => good_ite (fun y4 => answer_good ha) (fun y5 => good_ite (fun y6 => ha) (fun y7 => answer_good ha)))

theorem execFwVersion_good {x0 x1 x2} (ha : Good F P x2) : GoodN F P (execFwVersion x0 x1 x2) := by
  unfold execFwVersion
  apply goodN_next
  apply serve_good
  · intro y0 y1 h2
    extract_lets -merge +onlyGivenNames s3
    clear_value s3
    exact goodR_mk h2
  · exact ha

theorem execTraceSet_good {x0 x1 x2} (ha : Good F P x2) : GoodN F P (execTraceSet x0 x1 x2) := by
  unfold execTraceSet
  exact goodN_next (serve_good (fun y0 y1 h2 => goodR_mk (State.modProc_good h2)) ha)

theorem setSlot_good {x0 x1 x2} (ha : Good F P x2) : Good F P (setSlot x0 x1 x2) := by
  unfold setSlot
  exact State.onFw_good ha

theorem addWork_good {x0 x1} (ha : Good F P x1) : Good F P (addWork x0 x1) := by
  unfold addWork
  exact State.onFw_good ha

theorem execAttest_good {x0 x1 x2} (ha : Good F P x2) : GoodN F P (execAttest x0 x1 x2) := by
  unfold execAttest
  exact goodN_next (serve_good (fun y0 y1 h2 => goodR_mk (addWork_good h2)) ha)

theorem execCertRead_good {x0 x1 x2} (ha : Good F P x2) : GoodN F P (execCertRead x0 x1 x2) := by
  unfold execCertRead
  apply goodN_next
  apply serve_good
  · intro y0 y1 h2
    extract_lets -merge +onlyGivenNames s3
    clear_value s3
    exact goodR_mk (busWrite_good h2)
  · exact ha

theorem execFwStage_good {x0 x1 x2} (ha : Good F P x2) : GoodN F P (execFwStage x0 x1 x2) := by
  unfold execFwStage
  apply goodN_next
  apply serve_good
  · intro y0 y1 h2
    extract_lets -merge +onlyGivenNames s3
    clear_value s3
    exact goodR_ite (fun y4 => replyWait_good h2) (fun y5 => goodR_ite (fun y6 => goodR_mk h2) (fun y7 => goodR_ite (fun y8 => goodR_mk h2) (fun y9 => goodR_mk (addWork_good h2))))
  · exact ha

theorem planRestarts_good {x0 x1} (ha : Good F P x1) : Good F P (planRestarts x0 x1) := by
  unfold planRestarts
  extract_lets -merge +onlyGivenNames s0
  have h1 : Good F P s0 := State.onFw_good ha
  clear_value s0
  split
  · rename_i v2 e3
    exact h1
  · rename_i v4 v5 v6 e7
    exact State.modProc_good h1

theorem execFwActivate_good {x0 x1 x2} (ha : Good F P x2) : GoodN F P (execFwActivate x0 x1 x2) := by
  unfold execFwActivate
  apply goodN_next
  apply serve_good
  · intro y0 y1 h2
    apply goodR_ite
    · exact fun y3 => replyWait_good h2
    · intro y4
      split
      · rename_i v5 e6
        exact goodR_mk h2
      · rename_i v7 v8 e9
        extract_lets -merge +onlyGivenNames s10
        have h11 : Good F P s10 := State.onFw_good h2
        clear_value s10
        extract_lets -merge +onlyGivenNames s12
        have h13 : Good F P s12 := addWork_good h11
        clear_value s12
        exact goodR_mk (planRestarts_good h13)
  · exact ha

theorem execFwCommit_good {x0 x1 x2} (ha : Good F P x2) : GoodN F P (execFwCommit x0 x1 x2) := by
  unfold execFwCommit
  apply goodN_next
  apply serve_good
  · intro y0 y1 h2
    apply goodR_ite
    · exact fun y3 => goodR_mk h2
    · intro y4
      apply goodR_ite
      · exact fun y5 => replyWait_good h2
      · intro y6
        apply goodR_ite
        · exact fun y7 => goodR_mk h2
        · intro y8
          extract_lets -merge +onlyGivenNames s9
          have h10 : Good F P s9 := setSlot_good (State.onFw_good h2)
          clear_value s9
          extract_lets -merge +onlyGivenNames s11
          clear_value s11
          exact goodR_mk (good_ite (fun y12 => State.onFw_good h10) (fun y13 => h10))
  · exact ha

theorem execFwQuery_good {x0 x1 x2} (ha : Good F P x2) : GoodN F P (execFwQuery x0 x1 x2) := by
  unfold execFwQuery
  apply goodN_next
  apply serve_good
  · intro y0 y1 h2
    extract_lets -merge +onlyGivenNames s3
    clear_value s3
    exact goodR_mk h2
  · exact ha

theorem execFwRestart_good {x0 x1 x2} (ha : Good F P x2) : GoodN F P (execFwRestart x0 x1 x2) := by
  unfold execFwRestart
  apply goodN_next
  apply serve_good
  · intro y0 y1 h2
    extract_lets -merge +onlyGivenNames s3
    clear_value s3
    exact goodR_ite (fun y4 => goodR_mk h2) (fun y5 => goodR_mk (planRestarts_good h2))
  · exact ha

theorem execCfgWrite_good {x0 x1 x2} (ha : Good F P x2) : GoodN F P (execCfgWrite x0 x1 x2) := by
  unfold execCfgWrite
  apply goodN_next
  apply serve_good
  · intro y0 y1 h2
    extract_lets -merge +onlyGivenNames s3
    clear_value s3
    apply goodR_ite
    · exact fun y4 => goodR_mk h2
    · intro y5
      extract_lets -merge +onlyGivenNames s6
      clear_value s6
      exact goodR_ite (fun y7 => goodR_mk h2) (fun y8 => goodR_ite (fun y9 => goodR_mk h2) (fun y10 => goodR_mk (State.onFw_good h2)))
  · exact ha

theorem applyConfig_good {x0} (ha : Good F P x0) : Good F P (applyConfig x0) := by
  unfold applyConfig
  extract_lets -merge +onlyGivenNames s0
  clear_value s0
  extract_lets -merge +onlyGivenNames s1
  extract_lets -merge +onlyGivenNames s2
  clear_value s2
  extract_lets -merge +onlyGivenNames s3
  have h4 : Good F P s3 := State.onFar_good (State.onCas_good ha)
  clear_value s3
  apply good_ite
  · exact fun y5 => h4
  · intro y6
    split
    · rename_i v7 v8 v9 e10
      exact trace_good h4
    · rename_i v11 e12
      exact State.onFar_good (State.onCas_good ha)

theorem execCalibPeriod_good {x0 x1 x2} (ha : Good F P x2) : GoodN F P (execCalibPeriod x0 x1 x2) := by
  unfold execCalibPeriod
  apply goodN_next
  apply serve_good
  · intro y0 y1 h2
    extract_lets -merge +onlyGivenNames s3
    clear_value s3
    exact goodR_ite (fun y4 => goodR_mk h2) (fun y5 => goodR_mk (State.onFw_good h2))
  · exact ha

theorem execParkShare_good {x0 x1 x2} (ha : Good F P x2) : GoodN F P (execParkShare x0 x1 x2) := by
  unfold execParkShare
  apply goodN_next
  apply serve_good
  · intro y0 y1 h2
    extract_lets -merge +onlyGivenNames s3
    clear_value s3
    exact goodR_ite (fun y4 => goodR_mk h2) (fun y5 => goodR_mk (State.onFar_good h2))
  · exact ha

theorem execUcodeQuery_good {x0 x1 x2} (ha : Good F P x2) : GoodN F P (execUcodeQuery x0 x1 x2) := by
  unfold execUcodeQuery
  exact goodN_next (serve_good (fun y0 y1 h2 => goodR_mk h2) ha)

theorem svcConfig_good {x0 x1 x2} (ha : Good F P x2) : GoodR F P (svcConfig x0 x1 x2) := by
  unfold svcConfig
  extract_lets -merge +onlyGivenNames s0
  clear_value s0
  extract_lets -merge +onlyGivenNames s1
  clear_value s1
  extract_lets -merge +onlyGivenNames s2
  clear_value s2
  apply goodR_ite
  · exact fun y3 => goodR_mk ha
  · intro y4
    apply goodR_ite
    · exact fun y5 => goodR_mk ha
    · intro y6
      apply goodR_ite
      · exact fun y7 => goodR_mk ha
      · intro y8
        apply goodR_ite
        · exact fun y9 => goodR_mk ha
        · intro y10
          apply goodR_ite
          · exact fun y11 => goodR_mk ha
          · intro y12
            apply goodR_ite
            · exact fun y13 => goodR_mk ha
            · intro y14
              apply goodR_ite
              · exact fun y15 => replyWait_good ha
              · intro y16
                apply goodR_ite
                · exact fun y17 => replyWait_good ha
                · intro y18
                  apply goodR_ite
                  · exact fun y19 => goodR_mk ha
                  · intro y20
                    apply goodR_ite
                    · exact fun y21 => goodR_mk ha
                    · intro y22
                      extract_lets -merge +onlyGivenNames s23
                      have h24 : Good F P s23 := good_ite (fun y25 => State.onLvr_good ha) (fun y26 => ha)
                      clear_value s23
                      extract_lets -merge +onlyGivenNames s27
                      have h28 : Good F P s27 := State.modCas_good h24
                      clear_value s27
                      apply goodR_mk
                      split
                      · rename_i v29 v30 e31
                        exact boundary_good h28
                      · rename_i v32 e33
                        exact h28

theorem execSvcConfig_good {x0 x1 x2} (ha : Good F P x2) : GoodN F P (execSvcConfig x0 x1 x2) := by
  unfold execSvcConfig
  exact goodN_next (serve_good (fun y0 y1 h2 => svcConfig_good h2) ha)

theorem execLvrStatus_good {x0 x1 x2} (ha : Good F P x2) : GoodN F P (execLvrStatus x0 x1 x2) := by
  unfold execLvrStatus
  exact goodN_next (serve_good (fun y0 y1 h2 => goodR_mk h2) ha)

theorem execThermCfg_good {x0 x1 x2} (ha : Good F P x2) : GoodN F P (execThermCfg x0 x1 x2) := by
  unfold execThermCfg
  apply goodN_next
  apply serve_good
  · intro y0 y1 h2
    extract_lets -merge +onlyGivenNames s3
    apply goodR_ite
    · exact fun y4 => goodR_mk h2
    · intro y5
      apply goodR_ite
      · exact fun y6 => goodR_mk h2
      · intro y7
        extract_lets -merge +onlyGivenNames s8
        have h9 : Good F P s8 := State.onTherm_good h2
        clear_value s8
        exact goodR_mk h9
  · exact ha

theorem execGateCfg_good {x0 x1 x2} (ha : Good F P x2) : GoodN F P (execGateCfg x0 x1 x2) := by
  unfold execGateCfg
  apply goodN_next
  apply serve_good
  · intro y0 y1 h2
    extract_lets -merge +onlyGivenNames s3
    clear_value s3
    extract_lets -merge +onlyGivenNames s4
    clear_value s4
    extract_lets -merge +onlyGivenNames s5
    clear_value s5
    exact goodR_ite (fun y6 => goodR_mk h2) (fun y7 => goodR_mk (State.onLvr_good h2))
  · exact ha

theorem execGroupBudget_good {x0 x1 x2} (ha : Good F P x2) : GoodN F P (execGroupBudget x0 x1 x2) := by
  unfold execGroupBudget
  apply goodN_next
  apply serve_good
  · intro y0 y1 h2
    extract_lets -merge +onlyGivenNames s3
    clear_value s3
    exact goodR_ite (fun y4 => goodR_mk h2) (fun y5 => goodR_ite (fun y6 => goodR_mk h2) (fun y7 => goodR_mk (toLintel_good (fun y8 h9 => State.onFab_good h9) h2)))
  · exact ha

theorem execFloorCfg_good {x0 x1 x2} (ha : Good F P x2) : GoodN F P (execFloorCfg x0 x1 x2) := by
  unfold execFloorCfg
  apply goodN_next
  apply serve_good
  · intro y0 y1 h2
    extract_lets -merge +onlyGivenNames s3
    clear_value s3
    extract_lets -merge +onlyGivenNames s4
    clear_value s4
    exact goodR_ite (fun y5 => goodR_mk h2) (fun y6 => goodR_mk (State.onLvr_good h2))
  · exact ha

theorem workWrite_good {x0 x1 x2 x3} (ha : Good F P x3) : Good F P (workWrite x0 x1 x2 x3) := by
  unfold workWrite
  exact good_ite (fun y0 => busWrite_good ha) (fun y1 => ha)

theorem stageDone_good {x0 x1 x2} (ha : Good F P x2) : Good F P (stageDone x0 x1 x2) := by
  unfold stageDone
  extract_lets -merge +onlyGivenNames s0
  clear_value s0
  extract_lets -merge +onlyGivenNames s1
  clear_value s1
  extract_lets -merge +onlyGivenNames s2
  have h3 : Good F P s2 := good_ite (fun y4 => State.onFw_good ha) (fun y5 => ha)
  clear_value s2
  extract_lets -merge +onlyGivenNames s6
  clear_value s6
  split
  · rename_i v7 v8
    extract_lets -merge +onlyGivenNames s9
    have h10 : Good F P s9 := State.onFw_good h3
    clear_value s9
    extract_lets -merge +onlyGivenNames s11
    have h12 : Good F P s11 := good_ite (fun y13 => trace_good h10) (fun y14 => h10)
    clear_value s11
    exact workWrite_good (setSlot_good h12)
  · rename_i v15
    split
    rename_i v16 v17 v18 e19
    have h20 : Good F P v18 := good_ofR e19 (State.fresh_good h3)
    extract_lets -merge +onlyGivenNames s21
    clear_value s21
    extract_lets -merge +onlyGivenNames s22
    have h23 : Good F P s22 := setSlot_good (State.onFw_good h20)
    clear_value s22
    exact workWrite_good (trace_good h23)

theorem dropWork_good {x0 x1} (ha : Good F P x1) : Good F P (dropWork x0 x1) := by
  unfold dropWork
  exact State.onFw_good ha

theorem workDone_good {x0 x1} (ha : Good F P x1) : Good F P (workDone x0 x1) := by
  unfold workDone
  apply good_ite
  · exact fun y0 => ha
  · intro y1
    split
    · rename_i v2 e3
      exact ha
    · rename_i v4 v5 e6
      extract_lets -merge +onlyGivenNames s7
      have h8 : Good F P s7 := dropWork_good ha
      clear_value s7
      exact good_ite (fun y9 => stageDone_good h8) (fun y10 => good_ite (fun y11 => workWrite_good (State.onProc_good (State.onFw_good h8))) (fun y12 => workWrite_good (workWrite_good h8)))

theorem execMailboxWorkDone_good {x0 x1} (ha : Good F P x1) : GoodN F P (execMailboxWorkDone x0 x1) := by
  unfold execMailboxWorkDone
  exact goodN_next (workDone_good ha)

theorem execTrialWindowEnd_good {x0} (ha : Good F P x0) : GoodN F P (execTrialWindowEnd x0) := by
  unfold execTrialWindowEnd
  exact goodN_next (State.onFw_good ha)

end Sys2Proof.Machine
end

