-- ==== Sys2Proof/Laws/GoodRestarts.lean ====
section
/-! SUPPORT. What Machine/Restarts.lean leaves as it found it: from a good state every definition there gives a good state. -/

namespace Sys2Proof.Machine

variable {F : Fuse} {P : List Instr}

theorem busyAll_good {x0 x1} (ha : Good F P x1) : Good F P (busyAll x0 x1) := by
  unfold busyAll
  exact forEach_good ha (fun y0 y1 h2 => answerBusy_good h2)

theorem failStage_good {x0} (ha : Good F P x0) : Good F P (failStage x0) := by
  unfold failStage
  split
  · rename_i v0 e1
    exact ha
  · rename_i v2 v3 e4
    extract_lets -merge +onlyGivenNames s5
    clear_value s5
    extract_lets -merge +onlyGivenNames s6
    have h7 : Good F P s6 := setSlot_good (State.onFw_good (dropWork_good ha))
    clear_value s6
    exact workWrite_good h7

theorem rollback_good {x0 x1} (ha : Good F P x1) : Good F P (rollback x0 x1) := by
  unfold rollback
  extract_lets -merge +onlyGivenNames s0
  clear_value s0
  extract_lets -merge +onlyGivenNames s1
  clear_value s1
  extract_lets -merge +onlyGivenNames s2
  have h3 : Good F P s2 := State.onFw_good ha
  clear_value s2
  extract_lets -merge +onlyGivenNames s4
  have h5 : Good F P s4 := trace_good (setSlot_good h3)
  clear_value s4
  exact planRestarts_good h5

theorem crash_good {x0 x1 x2 x3 x4} (ha : Good F P x4) : Good F P (crash x0 x1 x2 x3 x4) := by
  unfold crash
  apply good_ite
  · exact fun y0 => ha
  · intro y1
    extract_lets -merge +onlyGivenNames s2
    clear_value s2
    extract_lets -merge +onlyGivenNames s3
    have h4 : Good F P s3 := trace_good ha
    clear_value s3
    extract_lets -merge +onlyGivenNames s5
    have h6 : Good F P s5 := State.modProc_good h4
    clear_value s5
    extract_lets -merge +onlyGivenNames s7
    have h8 : Good F P s7 := busyAll_good (good_ite (fun y9 => failStage_good h6) (fun y10 => h6))
    clear_value s7
    extract_lets -merge +onlyGivenNames s11
    clear_value s11
    apply good_ite
    · exact fun y12 => rollback_good h8
    · intro y13
      apply good_ite
      · intro y14
        extract_lets -merge +onlyGivenNames s15
        have h16 : Good F P s15 := State.modProc_good h8
        clear_value s15
        extract_lets -merge +onlyGivenNames s17
        have h18 : Good F P s17 := trace_good h16
        clear_value s17
        exact busyAll_good (devEvent_good (State.onDev_good h18))
      · exact fun y19 => h8

theorem execWdogExpire_good {x0 x1 x2} (ha : Good F P x2) : GoodN F P (execWdogExpire x0 x1 x2) := by
  unfold execWdogExpire
  exact goodN_next (crash_good ha)

theorem execFatalExc_good {x0 x1 x2 x3} (ha : Good F P x3) : GoodN F P (execFatalExc x0 x1 x2 x3) := by
  unfold execFatalExc
  exact goodN_next (crash_good ha)

theorem execWindowViol_good {x0 x1 x2 x3} (ha : Good F P x3) : GoodN F P (execWindowViol x0 x1 x2 x3) := by
  unfold execWindowViol
  exact goodN_next (good_ite (fun y0 => ha) (fun y1 => crash_good ha))

theorem resumeJobs_good {x0 x1} (ha : Good F P x1) : Good F P (resumeJobs x0 x1) := by
  unfold resumeJobs
  apply forEach_good
  · exact ha
  · intro y0 y1 h2
    split
    · rename_i v3 e4
      exact h2
    · rename_i v5 v6 e7
      apply good_ite
      · exact fun y8 => dropJob_good h2
      · intro y9
        apply good_ite
        · intro y10
          extract_lets -merge +onlyGivenNames s11
          have h12 : Good F P s11 := by
            unfold s11
            split
            · rename_i v13 v14 v15 e16
              exact markTrace_good (State.delFdir_good h2)
            · rename_i v17 e18
              exact h2
          clear_value s11
          exact State.updJob_good h12
        · exact fun y19 => h2

theorem loseRequests_good {x0 x1} (ha : Good F P x1) : Good F P (loseRequests x0 x1) := by
  unfold loseRequests
  apply forEach_good
  · exact ha
  · intro y0 y1 h2
    extract_lets -merge +onlyGivenNames s3
    have h4 : Good F P s3 := State.modCas_good h2
    clear_value s3
    exact forEach_good h4 (fun y5 y6 h7 => discardReq_good h7)

theorem setWindows_good {x0 x1} (ha : Good F P x1) : Good F P (setWindows x0 x1) := by
  unfold setWindows
  extract_lets -merge +onlyGivenNames s0
  clear_value s0
  exact State.modProc_good ha

theorem loadImage_good {x0 x1} (ha : Good F P x1) : Good F P (loadImage x0 x1) := by
  unfold loadImage
  extract_lets -merge +onlyGivenNames s0
  clear_value s0
  extract_lets -merge +onlyGivenNames s1
  clear_value s1
  extract_lets -merge +onlyGivenNames s2
  have h3 : Good F P s2 := setWindows_good (State.modProc_good ha)
  clear_value s2
  exact State.onFw_good h3

theorem loadUcode_good {x0} (ha : Good F P x0) : Good F P (loadUcode x0) := by
  unfold loadUcode
  extract_lets -merge +onlyGivenNames s0
  clear_value s0
  extract_lets -merge +onlyGivenNames s1
  clear_value s1
  exact State.onFw_good ha

theorem bootUcode_good {x0} (ha : Good F P x0) : Good F P (bootUcode x0) := by
  unfold bootUcode
  extract_lets -merge +onlyGivenNames s0
  clear_value s0
  exact State.onFw_good ha

theorem plannedDone_good {x0 x1} (ha : Good F P x1) : Good F P (plannedDone x0 x1) := by
  unfold plannedDone
  extract_lets -merge +onlyGivenNames s0
  have h1 : Good F P s0 := loadImage_good (State.modProc_good ha)
  clear_value s0
  extract_lets -merge +onlyGivenNames s2
  clear_value s2
  extract_lets -merge +onlyGivenNames s3
  have h4 : Good F P s3 := good_ite (fun y5 => trace_good h1) (fun y6 => h1)
  clear_value s3
  extract_lets -merge +onlyGivenNames s7
  have h8 : Good F P s7 := good_ite (fun y9 => loadUcode_good h4) (fun y10 => h4)
  clear_value s7
  exact planRestarts_good (State.onFw_good h8)

theorem restartDone_good {x0 x1} (ha : Good F P x1) : Good F P (restartDone x0 x1) := by
  unfold restartDone
  extract_lets -merge +onlyGivenNames s0
  clear_value s0
  apply good_ite
  · exact fun y1 => ha
  · intro y2
    extract_lets -merge +onlyGivenNames s3
    clear_value s3
    split
    rename_i v4 v5 v6 e7
    have h8 : Good F P v6 := good_ofR e7 (State.fresh_good ha)
    extract_lets -merge +onlyGivenNames s9
    have h10 : Good F P s9 := State.modProc_good h8
    clear_value s9
    extract_lets -merge +onlyGivenNames s11
    have h12 : Good F P s11 := good_ite (fun y13 => plannedDone_good h8) (fun y14 => good_ite (fun y15 => resumeJobs_good (loseRequests_good h10)) (fun y16 => h10))
    clear_value s11
    exact pumpAll_good (trace_good h12)

theorem execRestartDone_good {x0 x1} (ha : Good F P x1) : GoodN F P (execRestartDone x0 x1) := by
  unfold execRestartDone
  exact goodN_next (restartDone_good ha)

theorem execPlannedRestart_good {x0 x1} (ha : Good F P x1) : GoodN F P (execPlannedRestart x0 x1) := by
  unfold execPlannedRestart
  exact goodN_next (good_ite (fun y0 => State.modProc_good (good_ite (fun y1 => ha) (fun y2 => State.modProc_good ha))) (fun y3 => ha))

theorem bootSlot_good {x0 x1} (ha : Good F P x1) : Good F P (bootSlot x0 x1) := by
  unfold bootSlot
  extract_lets -merge +onlyGivenNames s0
  clear_value s0
  extract_lets -merge +onlyGivenNames s1
  have h2 : Good F P s1 := State.onFw_good ha
  clear_value s1
  extract_lets -merge +onlyGivenNames s3
  have h4 : Good F P s3 := forEach_good h2 (fun y5 y6 h7 => State.modProc_good h7)
  clear_value s3
  exact trace_good h4

theorem countTrial_good {x0} (ha : Good F P x0) : Good F P (countTrial x0) := by
  unfold countTrial
  apply good_ite
  · exact fun y0 => ha
  · intro y1
    extract_lets -merge +onlyGivenNames s2
    have h3 : Good F P s2 := State.onFw_good ha
    clear_value s2
    apply good_ite
    · exact fun y4 => h3
    · intro y5
      extract_lets -merge +onlyGivenNames s6
      clear_value s6
      exact setSlot_good (State.onFw_good h3)

theorem readDescriptor_good {x0} (ha : Good F P x0) : Good F P (readDescriptor x0) := by
  unfold readDescriptor
  extract_lets -merge +onlyGivenNames s0
  have h1 : Good F P s0 := State.onFw_good ha
  clear_value s0
  exact forEach_good h1 (fun y2 y3 h4 => setSlot_good h4)

theorem romBoot_good {x0} (ha : Good F P x0) : Good F P (romBoot x0) := by
  unfold romBoot
  apply good_ite
  · exact fun y0 => ha
  · intro y1
    extract_lets -merge +onlyGivenNames s2
    have h3 : Good F P s2 := countTrial_good (readDescriptor_good ha)
    clear_value s2
    extract_lets -merge +onlyGivenNames s4
    clear_value s4
    extract_lets -merge +onlyGivenNames s5
    clear_value s5
    exact good_ite (fun y6 => bootSlot_good h3) (fun y7 => good_ite (fun y8 => bootSlot_good (trace_good h3)) (fun y9 => State.onDev_good h3))

theorem execRomBoot_good {x0} (ha : Good F P x0) : GoodN F P (execRomBoot x0) := by
  unfold execRomBoot
  exact goodN_next (romBoot_good ha)

theorem execFirstStageRelease_good {x0} (ha : Good F P x0) : GoodN F P (execFirstStageRelease x0) := by
  unfold execFirstStageRelease
  apply goodN_next
  apply good_ite
  · exact fun y0 => ha
  · intro y1
    extract_lets -merge +onlyGivenNames s2
    have h3 : Good F P s2 := State.onDev_good ha
    clear_value s2
    extract_lets -merge +onlyGivenNames s4
    have h5 : Good F P s4 := bootUcode_good (forEach_good h3 (fun y6 y7 h8 => setWindows_good h8))
    clear_value s4
    exact pumpAll_good (serviceCheck_good (trace_good h5))

theorem execStackInService_good {x0 x1} (ha : Good F P x1) : GoodN F P (execStackInService x0 x1) := by
  unfold execStackInService
  exact goodN_next (good_ite (fun y0 => ha) (fun y1 => pumpAll_good (serviceCheck_good (State.onDev_good ha))))

theorem execStackTrainingFail_good {x0 x1} (ha : Good F P x1) : GoodN F P (execStackTrainingFail x0 x1) := by
  unfold execStackTrainingFail
  exact goodN_next (good_ite (fun y0 => ha) (fun y1 => pumpAll_good (serviceCheck_good (State.onDev_good ha))))

end Sys2Proof.Machine
end

