-- ==== Sys2Proof/Laws/GoodResets.lean ====
section
/-! SUPPORT. What Machine/Resets.lean leaves as it found it: from a good state every definition there gives a good state. -/

namespace Sys2Proof.Machine

variable {F : Fuse} {P : List Instr}

theorem orphanRec_good {x0 x1 x2} (ha : Good F P x2) : Good F P (orphanRec x0 x1 x2) := by
  unfold orphanRec
  exact good_ite (fun y0 => State.delFdir_good ha) (fun y1 => State.updPage_good (parkFromRec_good ha))

theorem endAdmin_good {x0 x1} (ha : Good F P x1) : Good F P (endAdmin x0 x1) := by
  unfold endAdmin
  split
  · rename_i v0 e1
    exact ha
  · rename_i v2 v3 e4
    extract_lets -merge +onlyGivenNames s5
    have h6 : Good F P s5 := by
      unfold s5
      split
      · rename_i v7 v8 v9 e10
        exact setDone_good ha
      · rename_i v11 e12
        exact ha
    clear_value s5
    extract_lets -merge +onlyGivenNames s13
    have h14 : Good F P s13 := by
      unfold s13
      split
      · rename_i v15 v16 e17
        exact setDone_good h6
      · rename_i v18 e19
        exact h6
    clear_value s13
    exact forEach_good h14 (fun y20 y21 h22 => endWaits_good h22)

theorem resetCtx_good {x0 x1} (ha : Good F P x1) : Good F P (resetCtx x0 x1) := by
  unfold resetCtx
  extract_lets -merge +onlyGivenNames s0
  have h1 : Good F P s0 := endAdmin_good ha
  clear_value s0
  extract_lets -merge +onlyGivenNames s2
  have h3 : Good F P s2 := State.onJob_good h1
  clear_value s2
  extract_lets -merge +onlyGivenNames s4
  have h5 : Good F P s4 := forEach_good h3 (fun y6 y7 h8 => orphanRec_good h8)
  clear_value s4
  exact freeCtx_good h5

theorem havocWindows_good {x0} (ha : Good F P x0) : Good F P (havocWindows x0) := by
  unfold havocWindows
  exact forEach_good ha (fun y0 y1 h2 => havocWindow_good h2)

theorem resetFn_good {x0 x1} (ha : Good F P x1) : Good F P (resetFn x0 x1) := by
  unfold resetFn
  extract_lets -merge +onlyGivenNames s0
  have h1 : Good F P s0 := State.delQueue_good ha
  clear_value s0
  extract_lets -merge +onlyGivenNames s2
  have h3 : Good F P s2 := State.modFn_good h1
  clear_value s2
  extract_lets -merge +onlyGivenNames s4
  have h5 : Good F P s4 := State.onApw_good h3
  clear_value s4
  extract_lets -merge +onlyGivenNames s6
  have h7 : Good F P s6 := State.onMbx_good h5
  clear_value s6
  extract_lets -merge +onlyGivenNames s8
  have h9 : Good F P s8 := State.onBank_good h7
  clear_value s8
  exact State.onFw_good h9

theorem dropHostMaps_good {x0 x1} (ha : Good F P x1) : Good F P (dropHostMaps x0 x1) := by
  unfold dropHostMaps
  exact State.onAlloc_good ha

theorem beginReset_good {x0 x1} (ha : Good F P x1) : Good F P (beginReset x0 x1) := by
  unfold beginReset
  apply good_ite
  · exact fun y0 => ha
  · intro y1
    split
    · rename_i v2 v3 e4
      exact State.onDev_good ha
    · rename_i v5 e6
      exact ha

theorem functionReset_good {x0 x1} (ha : Good F P x1) : Good F P (functionReset x0 x1) := by
  unfold functionReset
  apply good_ite
  · exact fun y0 => ha
  · intro y1
    extract_lets -merge +onlyGivenNames s2
    clear_value s2
    extract_lets -merge +onlyGivenNames s3
    have h4 : Good F P s3 := forEach_good ha (fun y5 y6 h7 => resetCtx_good h7)
    clear_value s3
    extract_lets -merge +onlyGivenNames s8
    have h9 : Good F P s8 := forEach_good h4 (fun y10 y11 h12 => dropTest_good h12)
    clear_value s8
    extract_lets -merge +onlyGivenNames s13
    have h14 : Good F P s13 := forEach_good h9 (fun y15 y16 h17 => resetFn_good h17)
    clear_value s13
    extract_lets -merge +onlyGivenNames s18
    have h19 : Good F P s18 := good_ite (fun y20 => dropHostMaps_good h14) (fun y21 => h14)
    clear_value s18
    exact pumpAll_good (havocWindows_good (beginReset_good h19))

theorem execFunctionLevelReset_good {x0 x1} (ha : Good F P x1) : GoodN F P (execFunctionLevelReset x0 x1) := by
  unfold execFunctionLevelReset
  exact goodN_next (functionReset_good ha)

theorem execHostLinkLoss_good {x0 x1} (ha : Good F P x1) : GoodN F P (execHostLinkLoss x0 x1) := by
  unfold execHostLinkLoss
  exact goodN_next (good_ite (fun y0 => functionReset_good ha) (fun y1 => ha))

theorem execPerstAssert_good {x0 x1} (ha : Good F P x1) : GoodN F P (execPerstAssert x0 x1) := by
  unfold execPerstAssert
  exact goodN_next (good_ite (fun y0 => functionReset_good (State.onPin_good ha)) (fun y1 => ha))

theorem execPerstDeassert_good {x0 x1} (ha : Good F P x1) : GoodN F P (execPerstDeassert x0 x1) := by
  unfold execPerstDeassert
  exact goodN_next (good_ite (fun y0 => State.onPin_good ha) (fun y1 => ha))

theorem casementReset_good {x0 x1} (ha : Good F P x1) : Good F P (casementReset x0 x1) := by
  unfold casementReset
  apply good_ite
  · exact fun y0 => ha
  · intro y1
    extract_lets -merge +onlyGivenNames s2
    have h3 : Good F P s2 := forEach_good (good_ite (fun y4 => dropTest_good ha) (fun y5 => ha)) (fun y6 y7 h8 => resetCtx_good h8)
    clear_value s2
    extract_lets -merge +onlyGivenNames s9
    clear_value s9
    extract_lets -merge +onlyGivenNames s10
    clear_value s10
    extract_lets -merge +onlyGivenNames s11
    have h12 : Good F P s11 := good_ite (fun y13 => h3) (fun y14 => State.modFn_good (State.delQueue_good h3))
    clear_value s11
    extract_lets -merge +onlyGivenNames s15
    have h16 : Good F P s15 := State.onDev_good h12
    clear_value s15
    exact havocWindows_good (beginReset_good h16)

theorem caseReset_good {x0 x1 x2} (ha : Good F P x2) : Good F P (caseReset x0 x1 x2) := by
  unfold caseReset
  split
  · rename_i v0 e1
    exact ha
  · rename_i v2 v3 e4
    exact good_ite (fun y5 => ha) (fun y6 => pumpAll_good (forEach_good ha (fun y7 y8 h9 => casementReset_good h9)))

theorem execCaseRst_good {x0 x1 x2} (ha : Good F P x2) : GoodN F P (execCaseRst x0 x1 x2) := by
  unfold execCaseRst
  exact goodN_next (caseReset_good ha)

theorem resetDone_good {x0 x1} (ha : Good F P x1) : Good F P (resetDone x0 x1) := by
  unfold resetDone
  split
  · rename_i v0 e1
    exact ha
  · rename_i v2 v3 e4
    extract_lets -merge +onlyGivenNames s5
    split
    · rename_i v6 v7
      unfold s5
      exact State.onDev_good (State.onDev_good ha)
    · rename_i v8 v9
      apply good_ite
      · exact fun y10 => ha
      · intro y11
        unfold s5
        exact State.onDev_good ha
    · rename_i v12 e13 e14
      unfold s5
      exact State.onDev_good ha

theorem execResetComplete_good {x0 x1} (ha : Good F P x1) : GoodN F P (execResetComplete x0 x1) := by
  unfold execResetComplete
  exact goodN_next (resetDone_good ha)

theorem clearAll_good {x0} (ha : Good F P x0) : Good F P (clearAll x0) := by
  unfold clearAll
  extract_lets -merge +onlyGivenNames s
  have h : Good F P s := forEach_good ha (fun _ _ h => dropTest_good h)
  clear_value s
  apply havocWindows_good
  exact ⟨h.fuse, h.pending, rfl, rfl, rfl, rfl, rfl, h.mem.farMem, h.mem.hostMem⟩

theorem deviceReset_good {x0} (ha : Good F P x0) : Good F P (deviceReset x0) := by
  unfold deviceReset
  extract_lets -merge +onlyGivenNames s0
  have h1 : Good F P s0 := clearAll_good ha
  clear_value s0
  extract_lets -merge +onlyGivenNames s2
  have h3 : Good F P s2 := State.onDev_good h1
  clear_value s2
  extract_lets -merge +onlyGivenNames s4
  have h5 : Good F P s4 := State.onCas_good h3
  clear_value s4
  extract_lets -merge +onlyGivenNames s6
  have h7 : Good F P s6 := State.onLb_good h5
  clear_value s6
  extract_lets -merge +onlyGivenNames s8
  have h9 : Good F P s8 := State.onEcc_good h7
  clear_value s8
  extract_lets -merge +onlyGivenNames s10
  clear_value s10
  extract_lets -merge +onlyGivenNames s11
  have h12 : Good F P s11 := State.onEccReg_good h9
  clear_value s11
  extract_lets -merge +onlyGivenNames s13
  have h14 : Good F P s13 := State.onFar_good h12
  clear_value s13
  extract_lets -merge +onlyGivenNames s15
  clear_value s15
  extract_lets -merge +onlyGivenNames s16
  have h17 : Good F P s16 := State.onPort_good h14
  clear_value s16
  extract_lets -merge +onlyGivenNames s18
  clear_value s18
  extract_lets -merge +onlyGivenNames s19
  have h20 : Good F P s19 := State.onLvr_good h17
  clear_value s19
  extract_lets -merge +onlyGivenNames s21
  have h22 : Good F P s21 := State.onTherm_good h20
  clear_value s21
  extract_lets -merge +onlyGivenNames s23
  have h24 : Good F P s23 := State.onProc_good h22
  clear_value s23
  exact good_ite (fun y25 => applyCompat_good h24) (fun y26 => h24)

theorem devReset_good {x0 x1 x2} (ha : Good F P x2) : Good F P (devReset x0 x1 x2) := by
  unfold devReset
  split
  · rename_i v0 e1
    exact ha
  · rename_i v2 v3 e4
    exact good_ite (fun y5 => ha) (fun y6 => good_ite (fun y7 => State.onDev_good ha) (fun y8 => deviceReset_good ha))

theorem execDevRst_good {x0 x1 x2} (ha : Good F P x2) : GoodN F P (execDevRst x0 x1 x2) := by
  unfold execDevRst
  exact goodN_next (devReset_good ha)

theorem tripClear_good {x0 x1 x2} (ha : Good F P x2) : Good F P (tripClear x0 x1 x2) := by
  unfold tripClear
  split
  · rename_i v0 e1
    exact ha
  · rename_i v2 v3 e4
    apply good_ite
    · exact fun y5 => ha
    · intro y6
      extract_lets -merge +onlyGivenNames s7
      have h8 : Good F P s7 := endTrip_good ha
      clear_value s7
      exact good_ite (fun y9 => deviceReset_good h8) (fun y10 => pumpAll_good h8)

theorem execTripClear_good {x0 x1 x2} (ha : Good F P x2) : GoodN F P (execTripClear x0 x1 x2) := by
  unfold execTripClear
  exact goodN_next (tripClear_good ha)

theorem coldAssert_good {x0} (ha : Good F P x0) : Good F P (coldAssert x0) := by
  unfold coldAssert
  apply good_ite
  · exact fun y0 => ha
  · intro y1
    extract_lets -merge +onlyGivenNames s2
    have h3 : Good F P s2 := clearAll_good ha
    clear_value s2
    extract_lets -merge +onlyGivenNames s4
    have h5 : Good F P s4 := State.onDev_good h3
    clear_value s4
    extract_lets -merge +onlyGivenNames s6
    have h7 : Good F P s6 := State.onFw_good h5
    clear_value s6
    extract_lets -merge +onlyGivenNames s8
    have h9 : Good F P s8 := State.onPin_good h7
    clear_value s8
    exact State.onCas_good h9

theorem execColdResetAssert_good {x0} (ha : Good F P x0) : GoodN F P (execColdResetAssert x0) := by
  unfold execColdResetAssert
  exact goodN_next (coldAssert_good (State.onPin_good ha))

theorem execPwrGoodLow_good {x0} (ha : Good F P x0) : GoodN F P (execPwrGoodLow x0) := by
  unfold execPwrGoodLow
  exact goodN_next (coldAssert_good (State.onPin_good ha))

theorem coldRelease_good {x0} (ha : Good F P x0) : Good F P (coldRelease x0) := by
  unfold coldRelease
  apply good_ite
  · exact fun y0 => ha
  · intro y1
    extract_lets -merge +onlyGivenNames s2
    clear_value s2
    extract_lets -merge +onlyGivenNames s3
    clear_value s3
    extract_lets -merge +onlyGivenNames s4
    have h5 : Good F P s4 := State.onPin_good ha
    clear_value s4
    exact applyConfig_good (State.onDev_good h5)

theorem execColdResetRelease_good {x0} (ha : Good F P x0) : GoodN F P (execColdResetRelease x0) := by
  unfold execColdResetRelease
  exact goodN_next (coldRelease_good ha)

end Sys2Proof.Machine
end

