-- ==== Sys2Proof/Laws/GoodRegs.lean ====
section
/-! SUPPORT. What Machine/Regs.lean leaves as it found it: from a good state every definition there gives a good state. -/

namespace Sys2Proof.Machine

variable {F : Fuse} {P : List Instr}

theorem adminCfg_good {x0 x1 x2} (ha : Good F P x2) : Good F P (adminCfg x0 x1 x2) := by
  unfold adminCfg
  extract_lets -merge +onlyGivenNames s0
  clear_value s0
  extract_lets -merge +onlyGivenNames s1
  clear_value s1
  extract_lets -merge +onlyGivenNames s2
  clear_value s2
  extract_lets -merge +onlyGivenNames s3
  have h4 : Good F P s3 := good_ite (fun y5 => ha) (fun y6 => State.modFn_good ha)
  clear_value s3
  extract_lets -merge +onlyGivenNames s7
  clear_value s7
  apply good_ite
  · intro y8
    apply good_ite
    · exact fun y9 => h4
    · intro y10
      extract_lets -merge +onlyGivenNames s11
      clear_value s11
      extract_lets -merge +onlyGivenNames s12
      clear_value s12
      exact State.modFn_good (State.putQueue_good h4)
  · exact fun y13 => good_ite (fun y14 => State.modFn_good (State.updQueue_good h4)) (fun y15 => h4)

theorem adminDrained_good {x0 x1} (ha : Good F P x1) : Good F P (adminDrained x0 x1) := by
  unfold adminDrained
  extract_lets -merge +onlyGivenNames s0
  clear_value s0
  split
  · rename_i v1 v2 e3
    exact good_ite (fun y4 => State.modFn_good (State.delQueue_good (forEach_good ha (fun y5 y6 h7 => headerSignal_good h7)))) (fun y8 => ha)
  · rename_i v9 e10
    exact ha

theorem execAdminQueueEnable_good {x0 x1 x2} (ha : Good F P x2) : GoodN F P (execAdminQueueEnable x0 x1 x2) := by
  unfold execAdminQueueEnable
  exact goodN_next (good_ite (fun y0 => adminCfg_good ha) (fun y1 => ha))

theorem execAdminQueueDisable_good {x0 x1 x2} (ha : Good F P x2) : GoodN F P (execAdminQueueDisable x0 x1 x2) := by
  unfold execAdminQueueDisable
  exact goodN_next (good_ite (fun y0 => adminCfg_good ha) (fun y1 => ha))

theorem execAdminQueueDrained_good {x0 x1} (ha : Good F P x1) : GoodN F P (execAdminQueueDrained x0 x1) := by
  unfold execAdminQueueDrained
  exact goodN_next (good_ite (fun y0 => pumpAll_good (adminDrained_good ha)) (fun y1 => ha))

theorem apwWrite_good {x0 x1 x2 x3} (ha : Good F P x3) : Good F P (apwWrite x0 x1 x2 x3) := by
  unfold apwWrite
  apply good_ite
  · exact fun y0 => ha
  · intro y1
    extract_lets -merge +onlyGivenNames s2
    clear_value s2
    exact State.modApw_good ha

theorem execApertureWindowWrite_good {x0 x1 x2 x3} (ha : Good F P x3) : GoodN F P (execApertureWindowWrite x0 x1 x2 x3) := by
  unfold execApertureWindowWrite
  exact goodN_next (apwWrite_good ha)

theorem compatWrite_good {x0 x1 x2} (ha : Good F P x2) : Good F P (compatWrite x0 x1 x2) := by
  unfold compatWrite
  extract_lets -merge +onlyGivenNames s0
  clear_value s0
  apply good_ite
  · exact fun y1 => ha
  · intro y2
    extract_lets -merge +onlyGivenNames s3
    have h4 : Good F P s3 := State.onDev_good ha
    clear_value s3
    exact good_ite (fun y5 => State.onDev_good h4) (fun y6 => applyCompat_good h4)

theorem execCompatLevelWrite_good {x0 x1 x2} (ha : Good F P x2) : GoodN F P (execCompatLevelWrite x0 x1 x2) := by
  unfold execCompatLevelWrite
  exact goodN_next (compatWrite_good ha)

theorem ceCfgWrite_good {x0 x1 x2} (ha : Good F P x2) : Good F P (ceCfgWrite x0 x1 x2) := by
  unfold ceCfgWrite
  extract_lets -merge +onlyGivenNames s0
  clear_value s0
  exact good_ite (fun y1 => ha) (fun y2 => State.onEccReg_good ha)

theorem execEccCeCfgWrite_good {x0 x1 x2} (ha : Good F P x2) : GoodN F P (execEccCeCfgWrite x0 x1 x2) := by
  unfold execEccCeCfgWrite
  exact goodN_next (ceCfgWrite_good ha)

theorem ceClr_good {x0 x1 x2} (ha : Good F P x2) : Good F P (ceClr x0 x1 x2) := by
  unfold ceClr
  split
  · rename_i v0 e1
    exact ha
  · rename_i v2 v3 e4
    exact good_ite (fun y5 => ha) (fun y6 => forEach_good ha (fun y7 y8 h9 => State.modEcc_good h9))

theorem execEccCeClr_good {x0 x1 x2} (ha : Good F P x2) : GoodN F P (execEccCeClr x0 x1 x2) := by
  unfold execEccCeClr
  exact goodN_next (ceClr_good ha)

theorem boardWrite_good {x0 x1} (ha : Good F P x1) : Good F P (boardWrite x0 x1) := by
  unfold boardWrite
  apply good_ite
  · exact fun y0 => ha
  · intro y1
    extract_lets -merge +onlyGivenNames s2
    clear_value s2
    exact State.onDev_good ha

theorem hzWrite_good {x0 x1 x2 x3} (ha : Good F P x3) : Good F P (hzWrite x0 x1 x2 x3) := by
  unfold hzWrite
  extract_lets -merge +onlyGivenNames s0
  clear_value s0
  extract_lets -merge +onlyGivenNames s1
  clear_value s1
  extract_lets -merge +onlyGivenNames s2
  clear_value s2
  exact State.onDev_good ha

theorem devWrite_good {x0 x1 x2 x3} (ha : Good F P x3) : Good F P (devWrite x0 x1 x2 x3) := by
  unfold devWrite
  apply good_ite
  · exact fun y0 => devReset_good ha
  · intro y1
    apply good_ite
    · exact fun y2 => caseReset_good ha
    · intro y3
      apply good_ite
      · exact fun y4 => good_ite (fun y5 => boardWrite_good ha) (fun y6 => ha)
      · intro y7
        split
        · rename_i v8
          exact ha
        · rename_i v9 v10
          apply good_ite
          · exact fun y11 => ha
          · intro y12
            apply good_ite
            · intro y13
              split
              · rename_i v14 v15 e16
                exact good_ite (fun y17 => State.modFn_good ha) (fun y18 => ha)
              · rename_i v19 e20
                exact ha
            · intro y21
              apply good_ite
              · intro y22
                extract_lets -merge +onlyGivenNames s23
                clear_value s23
                exact State.modFn_good ha
              · intro y24
                apply good_ite
                · intro y25
                  split
                  · rename_i v26 v27 e28
                    exact State.modFn_good ha
                  · rename_i v29 e30
                    exact ha
                · exact fun y31 => good_ite (fun y32 => apwWrite_good ha) (fun y33 => good_ite (fun y34 => hzWrite_good ha) (fun y35 => ha))

theorem eccWrite_good {x0 x1 x2 x3} (ha : Good F P x3) : Good F P (eccWrite x0 x1 x2 x3) := by
  unfold eccWrite
  apply good_ite
  · exact fun y0 => ceCfgWrite_good ha
  · intro y1
    apply good_ite
    · exact fun y2 => ceClr_good ha
    · intro y3
      apply good_ite
      · exact fun y4 => ha
      · intro y5
        apply good_ite
        · exact fun y6 => State.onEccReg_good ha
        · intro y7
          apply good_ite
          · intro y8
            split
            · rename_i v9 v10 e11
              exact State.onEccReg_good ha
            · rename_i v12 e13
              exact ha
          · exact fun y14 => ha

theorem thermWrite_good {x0 x1 x2 x3} (ha : Good F P x3) : Good F P (thermWrite x0 x1 x2 x3) := by
  unfold thermWrite
  apply good_ite
  · exact fun y0 => ha
  · intro y1
    extract_lets -merge +onlyGivenNames s2
    have h3 : Good F P s2 := by
      unfold s2
      split
      · rename_i v4 v5 e6
        exact good_ite (fun y7 => State.onTherm_good ha) (fun y8 => ha)
      · rename_i v9 e10
        exact ha
    clear_value s2
    exact tripClear_good h3

theorem qWrite_good {x0 x1 x2 x3} (ha : Good F P x3) : Good F P (qWrite x0 x1 x2 x3) := by
  unfold qWrite
  extract_lets -merge +onlyGivenNames s0
  clear_value s0
  apply good_ite
  · intro y1
    apply good_ite
    · exact fun y2 => ha
    · intro y3
      extract_lets -merge +onlyGivenNames s4
      exact State.modFn_good ha
  · intro y5
    apply good_ite
    · exact fun y6 => adminCfg_good ha
    · intro y7
      apply good_ite
      · intro y8
        split
        · rename_i v9 v10 e11
          exact good_ite (fun y12 => State.updQueue_good (State.modFn_good ha)) (fun y13 => ha)
        · rename_i v14 e15
          exact ha
      · intro y16
        apply good_ite
        · exact fun y17 => ringBell_good ha
        · intro y18
          apply good_ite
          · exact fun y19 => pumpAll_good (ringBell_good ha)
          · intro y20
            apply good_ite
            · intro y21
              extract_lets -merge +onlyGivenNames s22
              clear_value s22
              split
              · rename_i v23 v24 e25
                exact good_ite (fun y26 => State.updQueue_good ha) (fun y27 => ha)
              · rename_i v28 e29
                exact ha
            · exact fun y30 => ha

theorem mbxWrite_good {x0 x1 x2 x3} (ha : Good F P x3) : Good F P (mbxWrite x0 x1 x2 x3) := by
  unfold mbxWrite
  apply good_ite
  · intro y0
    extract_lets -merge +onlyGivenNames s1
    clear_value s1
    extract_lets -merge +onlyGivenNames s2
    clear_value s2
    exact State.modFn_good ha
  · intro y3
    apply good_ite
    · intro y4
      extract_lets -merge +onlyGivenNames s5
      clear_value s5
      split
      · rename_i v6 v7 e8
        exact good_ite (fun y9 => mbxBell_good ha) (fun y10 => good_ite (fun y11 => State.modMbx_good ha) (fun y12 => ha))
      · rename_i v13 e14
        exact ha
    · intro y15
      apply good_ite
      · intro y16
        extract_lets -merge +onlyGivenNames s17
        clear_value s17
        exact State.onMbxBuf_good ha (fun y18 y19 => wf_mwrite _ _ (by assumption))
      · exact fun y20 => ha

theorem misaligned_good {x0 x1} (ha : Good F P x1) : Good F P (misaligned x0 x1) := by
  unfold misaligned
  split
  · rename_i v0 v1
    exact State.onOut_good ha
  · rename_i v2
    exact ha

theorem regWrite_good {x0 x1 x2 x3} (ha : Good F P x3) : Good F P (regWrite x0 x1 x2 x3) := by
  unfold regWrite
  apply good_ite
  · exact fun y0 => ha
  · intro y1
    apply good_ite
    · exact fun y2 => misaligned_good ha
    · intro y3
      apply good_ite
      · exact fun y4 => devWrite_good ha
      · intro y5
        apply good_ite
        · exact fun y6 => compatWrite_good ha
        · intro y7
          apply good_ite
          · exact fun y8 => thermWrite_good ha
          · intro y9
            apply good_ite
            · exact fun y10 => eccWrite_good ha
            · intro y11
              split
              · rename_i v12
                exact ha
              · rename_i v13 v14
                exact good_ite (fun y15 => mbxWrite_good ha) (fun y16 => good_ite (fun y17 => qWrite_good ha) (fun y18 => ha))

theorem execRegisterWrite_good {x0 x1 x2 x3} (ha : Good F P x3) : GoodN F P (execRegisterWrite x0 x1 x2 x3) := by
  unfold execRegisterWrite
  exact goodN_next (regWrite_good ha)

theorem mgmtStart_good {x0 x1 x2 x3 x4} (ha : Good F P x4) : Good F P (mgmtStart x0 x1 x2 x3 x4) := by
  unfold mgmtStart
  exact good_ite (fun y0 => ha) (fun y1 => good_ite (fun y2 => State.onMgmt_good ha) (fun y3 => State.onMgmt_good ha))

theorem execMgmtRegisterRead_good {x0 x1 x2} (ha : Good F P x2) : GoodN F P (execMgmtRegisterRead x0 x1 x2) := by
  unfold execMgmtRegisterRead
  exact goodN_next (mgmtStart_good ha)

theorem execMgmtRegisterWrite_good {x0 x1 x2 x3} (ha : Good F P x3) : GoodN F P (execMgmtRegisterWrite x0 x1 x2 x3) := by
  unfold execMgmtRegisterWrite
  exact goodN_next (mgmtStart_good ha)

theorem mgmtDone_good {x0} (ha : Good F P x0) : Good F P (mgmtDone x0) := by
  unfold mgmtDone
  extract_lets -merge +onlyGivenNames s0
  clear_value s0
  exact good_ite (fun y1 => ha) (fun y2 => good_ite (fun y3 => State.onMgmt_good (regWrite_good ha)) (fun y4 => State.onMgmt_good ha))

theorem execMgmtAccessDone_good {x0} (ha : Good F P x0) : GoodN F P (execMgmtAccessDone x0) := by
  unfold execMgmtAccessDone
  exact goodN_next (mgmtDone_good ha)

theorem execMgmtResultRead_good {x0} (ha : Good F P x0) : GoodN F P (execMgmtResultRead x0) := by
  unfold execMgmtResultRead
  exact goodN_next (State.onOut_good ha)

theorem execMgmtAlertResponse_good {x0} (ha : Good F P x0) : GoodN F P (execMgmtAlertResponse x0) := by
  unfold execMgmtAlertResponse
  exact goodN_next (State.onPin_good ha)

theorem jtag_good {x0 x1} (ha : Good F P x1) : Good F P (jtag x0 x1) := by
  unfold jtag
  extract_lets -merge +onlyGivenNames s0
  clear_value s0
  exact State.onPin_good ha

theorem execIdcode_good {x0} (ha : Good F P x0) : GoodN F P (execIdcode x0) := by
  unfold execIdcode
  exact goodN_next (State.onOut_good (jtag_good ha))

theorem execBypass_good {x0} (ha : Good F P x0) : GoodN F P (execBypass x0) := by
  unfold execBypass
  exact goodN_next (jtag_good ha)

theorem execSamplePreload_good {x0} (ha : Good F P x0) : GoodN F P (execSamplePreload x0) := by
  unfold execSamplePreload
  exact goodN_next (jtag_good ha)

theorem execExtest_good {x0} (ha : Good F P x0) : GoodN F P (execExtest x0) := by
  unfold execExtest
  exact goodN_next (jtag_good ha)

theorem execExtestPulse_good {x0} (ha : Good F P x0) : GoodN F P (execExtestPulse x0) := by
  unfold execExtestPulse
  exact goodN_next (jtag_good ha)

theorem execExtestTrain_good {x0} (ha : Good F P x0) : GoodN F P (execExtestTrain x0) := by
  unfold execExtestTrain
  exact goodN_next (jtag_good ha)

theorem execTestLogicReset_good {x0} (ha : Good F P x0) : GoodN F P (execTestLogicReset x0) := by
  unfold execTestLogicReset
  exact goodN_next (State.onPin_good ha)

end Sys2Proof.Machine
end

