-- ==== Sys2Proof/Laws/GoodIdle.lean ====
section
/-! SUPPORT. What Machine/Idle.lean leaves as it found it: from a good state every definition there gives a good state. -/

namespace Sys2Proof.Machine

variable {F : Fuse} {P : List Instr}

theorem idle_good {x0} (ha : Good F P x0) : Good F P (idle x0) := by
  unfold idle
  exact good_ite (fun y0 => ha) (fun y1 => passCycle_good ha)

end Sys2Proof.Machine
end

