-- ==== Sys2Proof/Laws/State.lean ====
section
/-! SUPPORT. The fields of State after each primitive change: `onX` changes field x alone; the changes of one entry are changes of their table;
what a table holds after a change is in Laws/Mem.lean. -/

namespace Sys2Proof.Machine

@[simp] theorem State.onPending_fields (s : State) (g : List Instr → List Instr) :
  (s.onPending g).pending = g s.pending ∧ (s.onPending g).freeCtr = s.freeCtr ∧ (s.onPending g).nextUid = s.nextUid ∧ (s.onPending g).fuse = s.fuse ∧
  (s.onPending g).pin = s.pin ∧ (s.onPending g).dev = s.dev ∧ (s.onPending g).fn = s.fn ∧ (s.onPending g).apw = s.apw ∧ (s.onPending g).mbx = s.mbx ∧
  (s.onPending g).mbxBuf = s.mbxBuf ∧ (s.onPending g).queue = s.queue ∧ (s.onPending g).cas = s.cas ∧ (s.onPending g).ctx = s.ctx ∧
  (s.onPending g).alloc = s.alloc ∧ (s.onPending g).fills = s.fills ∧ (s.onPending g).desc = s.desc ∧ (s.onPending g).prog = s.prog ∧
  (s.onPending g).latch = s.latch ∧ (s.onPending g).latchHold = s.latchHold ∧ (s.onPending g).run = s.run ∧ (s.onPending g).core = s.core ∧
  (s.onPending g).saved = s.saved ∧ (s.onPending g).tile = s.tile ∧ (s.onPending g).opStore = s.opStore ∧ (s.onPending g).accStore = s.accStore ∧
  (s.onPending g).armed = s.armed ∧ (s.onPending g).unitCtx = s.unitCtx ∧ (s.onPending g).bank = s.bank ∧ (s.onPending g).localMem = s.localMem ∧
  (s.onPending g).sharedMem = s.sharedMem ∧ (s.onPending g).tileMem = s.tileMem ∧ (s.onPending g).badWords = s.badWords ∧
  (s.onPending g).stackMem = s.stackMem ∧ (s.onPending g).window = s.window ∧ (s.onPending g).winFree = s.winFree ∧
  (s.onPending g).health = s.health ∧ (s.onPending g).lb = s.lb ∧ (s.onPending g).ecc = s.ecc ∧ (s.onPending g).eccReg = s.eccReg ∧
  (s.onPending g).farMem = s.farMem ∧ (s.onPending g).farBad = s.farBad ∧ (s.onPending g).hostMem = s.hostMem ∧ (s.onPending g).far = s.far ∧
  (s.onPending g).job = s.job ∧ (s.onPending g).seq = s.seq ∧ (s.onPending g).page = s.page ∧ (s.onPending g).calib = s.calib ∧
  (s.onPending g).area = s.area ∧ (s.onPending g).req = s.req ∧ (s.onPending g).fab = s.fab ∧ (s.onPending g).port = s.port ∧
  (s.onPending g).plan = s.plan ∧ (s.onPending g).coll = s.coll ∧ (s.onPending g).wlog = s.wlog ∧ (s.onPending g).lvr = s.lvr ∧
  (s.onPending g).therm = s.therm ∧ (s.onPending g).gated = s.gated ∧ (s.onPending g).turn = s.turn ∧ (s.onPending g).wake = s.wake ∧
  (s.onPending g).acc = s.acc ∧ (s.onPending g).proc = s.proc ∧ (s.onPending g).fw = s.fw ∧ (s.onPending g).mgmt = s.mgmt ∧
  (s.onPending g).out = s.out := by
  refine ⟨rfl, rfl, rfl, rfl, rfl, rfl, rfl, rfl, rfl, rfl, rfl, rfl, rfl, rfl, rfl, rfl, rfl, rfl, rfl, rfl, rfl, rfl, rfl, rfl, rfl, rfl, rfl, rfl, rfl, rfl, rfl, rfl, rfl, rfl, rfl, rfl, rfl, rfl, rfl, rfl, rfl, rfl, rfl, rfl, rfl, rfl, rfl, rfl, rfl, rfl, rfl, rfl, rfl, rfl, rfl, rfl, rfl, rfl, rfl, rfl, rfl, rfl, rfl, rfl⟩

@[simp] theorem State.onFreeCtr_fields (s : State) (g : Nat → Nat) :
  (s.onFreeCtr g).pending = s.pending ∧ (s.onFreeCtr g).freeCtr = g s.freeCtr ∧ (s.onFreeCtr g).nextUid = s.nextUid ∧ (s.onFreeCtr g).fuse = s.fuse ∧
  (s.onFreeCtr g).pin = s.pin ∧ (s.onFreeCtr g).dev = s.dev ∧ (s.onFreeCtr g).fn = s.fn ∧ (s.onFreeCtr g).apw = s.apw ∧ (s.onFreeCtr g).mbx = s.mbx ∧
  (s.onFreeCtr g).mbxBuf = s.mbxBuf ∧ (s.onFreeCtr g).queue = s.queue ∧ (s.onFreeCtr g).cas = s.cas ∧ (s.onFreeCtr g).ctx = s.ctx ∧
  (s.onFreeCtr g).alloc = s.alloc ∧ (s.onFreeCtr g).fills = s.fills ∧ (s.onFreeCtr g).desc = s.desc ∧ (s.onFreeCtr g).prog = s.prog ∧
  (s.onFreeCtr g).latch = s.latch ∧ (s.onFreeCtr g).latchHold = s.latchHold ∧ (s.onFreeCtr g).run = s.run ∧ (s.onFreeCtr g).core = s.core ∧
  (s.onFreeCtr g).saved = s.saved ∧ (s.onFreeCtr g).tile = s.tile ∧ (s.onFreeCtr g).opStore = s.opStore ∧ (s.onFreeCtr g).accStore = s.accStore ∧
  (s.onFreeCtr g).armed = s.armed ∧ (s.onFreeCtr g).unitCtx = s.unitCtx ∧ (s.onFreeCtr g).bank = s.bank ∧ (s.onFreeCtr g).localMem = s.localMem ∧
  (s.onFreeCtr g).sharedMem = s.sharedMem ∧ (s.onFreeCtr g).tileMem = s.tileMem ∧ (s.onFreeCtr g).badWords = s.badWords ∧
  (s.onFreeCtr g).stackMem = s.stackMem ∧ (s.onFreeCtr g).window = s.window ∧ (s.onFreeCtr g).winFree = s.winFree ∧
  (s.onFreeCtr g).health = s.health ∧ (s.onFreeCtr g).lb = s.lb ∧ (s.onFreeCtr g).ecc = s.ecc ∧ (s.onFreeCtr g).eccReg = s.eccReg ∧
  (s.onFreeCtr g).farMem = s.farMem ∧ (s.onFreeCtr g).farBad = s.farBad ∧ (s.onFreeCtr g).hostMem = s.hostMem ∧ (s.onFreeCtr g).far = s.far ∧
  (s.onFreeCtr g).job = s.job ∧ (s.onFreeCtr g).seq = s.seq ∧ (s.onFreeCtr g).page = s.page ∧ (s.onFreeCtr g).calib = s.calib ∧
  (s.onFreeCtr g).area = s.area ∧ (s.onFreeCtr g).req = s.req ∧ (s.onFreeCtr g).fab = s.fab ∧ (s.onFreeCtr g).port = s.port ∧
  (s.onFreeCtr g).plan = s.plan ∧ (s.onFreeCtr g).coll = s.coll ∧ (s.onFreeCtr g).wlog = s.wlog ∧ (s.onFreeCtr g).lvr = s.lvr ∧
  (s.onFreeCtr g).therm = s.therm ∧ (s.onFreeCtr g).gated = s.gated ∧ (s.onFreeCtr g).turn = s.turn ∧ (s.onFreeCtr g).wake = s.wake ∧
  (s.onFreeCtr g).acc = s.acc ∧ (s.onFreeCtr g).proc = s.proc ∧ (s.onFreeCtr g).fw = s.fw ∧ (s.onFreeCtr g).mgmt = s.mgmt ∧
  (s.onFreeCtr g).out = s.out := by
  refine ⟨rfl, rfl, rfl, rfl, rfl, rfl, rfl, rfl, rfl, rfl, rfl, rfl, rfl, rfl, rfl, rfl, rfl, rfl, rfl, rfl, rfl, rfl, rfl, rfl, rfl, rfl, rfl, rfl, rfl, rfl, rfl, rfl, rfl, rfl, rfl, rfl, rfl, rfl, rfl, rfl, rfl, rfl, rfl, rfl, rfl, rfl, rfl, rfl, rfl, rfl, rfl, rfl, rfl, rfl, rfl, rfl, rfl, rfl, rfl, rfl, rfl, rfl, rfl, rfl⟩

@[simp] theorem State.onNextUid_fields (s : State) (g : Nat → Nat) :
  (s.onNextUid g).pending = s.pending ∧ (s.onNextUid g).freeCtr = s.freeCtr ∧ (s.onNextUid g).nextUid = g s.nextUid ∧ (s.onNextUid g).fuse = s.fuse ∧
  (s.onNextUid g).pin = s.pin ∧ (s.onNextUid g).dev = s.dev ∧ (s.onNextUid g).fn = s.fn ∧ (s.onNextUid g).apw = s.apw ∧ (s.onNextUid g).mbx = s.mbx ∧
  (s.onNextUid g).mbxBuf = s.mbxBuf ∧ (s.onNextUid g).queue = s.queue ∧ (s.onNextUid g).cas = s.cas ∧ (s.onNextUid g).ctx = s.ctx ∧
  (s.onNextUid g).alloc = s.alloc ∧ (s.onNextUid g).fills = s.fills ∧ (s.onNextUid g).desc = s.desc ∧ (s.onNextUid g).prog = s.prog ∧
  (s.onNextUid g).latch = s.latch ∧ (s.onNextUid g).latchHold = s.latchHold ∧ (s.onNextUid g).run = s.run ∧ (s.onNextUid g).core = s.core ∧
  (s.onNextUid g).saved = s.saved ∧ (s.onNextUid g).tile = s.tile ∧ (s.onNextUid g).opStore = s.opStore ∧ (s.onNextUid g).accStore = s.accStore ∧
  (s.onNextUid g).armed = s.armed ∧ (s.onNextUid g).unitCtx = s.unitCtx ∧ (s.onNextUid g).bank = s.bank ∧ (s.onNextUid g).localMem = s.localMem ∧
  (s.onNextUid g).sharedMem = s.sharedMem ∧ (s.onNextUid g).tileMem = s.tileMem ∧ (s.onNextUid g).badWords = s.badWords ∧
  (s.onNextUid g).stackMem = s.stackMem ∧ (s.onNextUid g).window = s.window ∧ (s.onNextUid g).winFree = s.winFree ∧
  (s.onNextUid g).health = s.health ∧ (s.onNextUid g).lb = s.lb ∧ (s.onNextUid g).ecc = s.ecc ∧ (s.onNextUid g).eccReg = s.eccReg ∧
  (s.onNextUid g).farMem = s.farMem ∧ (s.onNextUid g).farBad = s.farBad ∧ (s.onNextUid g).hostMem = s.hostMem ∧ (s.onNextUid g).far = s.far ∧
  (s.onNextUid g).job = s.job ∧ (s.onNextUid g).seq = s.seq ∧ (s.onNextUid g).page = s.page ∧ (s.onNextUid g).calib = s.calib ∧
  (s.onNextUid g).area = s.area ∧ (s.onNextUid g).req = s.req ∧ (s.onNextUid g).fab = s.fab ∧ (s.onNextUid g).port = s.port ∧
  (s.onNextUid g).plan = s.plan ∧ (s.onNextUid g).coll = s.coll ∧ (s.onNextUid g).wlog = s.wlog ∧ (s.onNextUid g).lvr = s.lvr ∧
  (s.onNextUid g).therm = s.therm ∧ (s.onNextUid g).gated = s.gated ∧ (s.onNextUid g).turn = s.turn ∧ (s.onNextUid g).wake = s.wake ∧
  (s.onNextUid g).acc = s.acc ∧ (s.onNextUid g).proc = s.proc ∧ (s.onNextUid g).fw = s.fw ∧ (s.onNextUid g).mgmt = s.mgmt ∧
  (s.onNextUid g).out = s.out := by
  refine ⟨rfl, rfl, rfl, rfl, rfl, rfl, rfl, rfl, rfl, rfl, rfl, rfl, rfl, rfl, rfl, rfl, rfl, rfl, rfl, rfl, rfl, rfl, rfl, rfl, rfl, rfl, rfl, rfl, rfl, rfl, rfl, rfl, rfl, rfl, rfl, rfl, rfl, rfl, rfl, rfl, rfl, rfl, rfl, rfl, rfl, rfl, rfl, rfl, rfl, rfl, rfl, rfl, rfl, rfl, rfl, rfl, rfl, rfl, rfl, rfl, rfl, rfl, rfl, rfl⟩

@[simp] theorem State.onPin_fields (s : State) (g : Pins → Pins) :
  (s.onPin g).pending = s.pending ∧ (s.onPin g).freeCtr = s.freeCtr ∧ (s.onPin g).nextUid = s.nextUid ∧ (s.onPin g).fuse = s.fuse ∧
  (s.onPin g).pin = g s.pin ∧ (s.onPin g).dev = s.dev ∧ (s.onPin g).fn = s.fn ∧ (s.onPin g).apw = s.apw ∧ (s.onPin g).mbx = s.mbx ∧
  (s.onPin g).mbxBuf = s.mbxBuf ∧ (s.onPin g).queue = s.queue ∧ (s.onPin g).cas = s.cas ∧ (s.onPin g).ctx = s.ctx ∧ (s.onPin g).alloc = s.alloc ∧
  (s.onPin g).fills = s.fills ∧ (s.onPin g).desc = s.desc ∧ (s.onPin g).prog = s.prog ∧ (s.onPin g).latch = s.latch ∧
  (s.onPin g).latchHold = s.latchHold ∧ (s.onPin g).run = s.run ∧ (s.onPin g).core = s.core ∧ (s.onPin g).saved = s.saved ∧
  (s.onPin g).tile = s.tile ∧ (s.onPin g).opStore = s.opStore ∧ (s.onPin g).accStore = s.accStore ∧ (s.onPin g).armed = s.armed ∧
  (s.onPin g).unitCtx = s.unitCtx ∧ (s.onPin g).bank = s.bank ∧ (s.onPin g).localMem = s.localMem ∧ (s.onPin g).sharedMem = s.sharedMem ∧
  (s.onPin g).tileMem = s.tileMem ∧ (s.onPin g).badWords = s.badWords ∧ (s.onPin g).stackMem = s.stackMem ∧ (s.onPin g).window = s.window ∧
  (s.onPin g).winFree = s.winFree ∧ (s.onPin g).health = s.health ∧ (s.onPin g).lb = s.lb ∧ (s.onPin g).ecc = s.ecc ∧ (s.onPin g).eccReg = s.eccReg ∧
  (s.onPin g).farMem = s.farMem ∧ (s.onPin g).farBad = s.farBad ∧ (s.onPin g).hostMem = s.hostMem ∧ (s.onPin g).far = s.far ∧
  (s.onPin g).job = s.job ∧ (s.onPin g).seq = s.seq ∧ (s.onPin g).page = s.page ∧ (s.onPin g).calib = s.calib ∧ (s.onPin g).area = s.area ∧
  (s.onPin g).req = s.req ∧ (s.onPin g).fab = s.fab ∧ (s.onPin g).port = s.port ∧ (s.onPin g).plan = s.plan ∧ (s.onPin g).coll = s.coll ∧
  (s.onPin g).wlog = s.wlog ∧ (s.onPin g).lvr = s.lvr ∧ (s.onPin g).therm = s.therm ∧ (s.onPin g).gated = s.gated ∧ (s.onPin g).turn = s.turn ∧
  (s.onPin g).wake = s.wake ∧ (s.onPin g).acc = s.acc ∧ (s.onPin g).proc = s.proc ∧ (s.onPin g).fw = s.fw ∧ (s.onPin g).mgmt = s.mgmt ∧
  (s.onPin g).out = s.out := by
  refine ⟨rfl, rfl, rfl, rfl, rfl, rfl, rfl, rfl, rfl, rfl, rfl, rfl, rfl, rfl, rfl, rfl, rfl, rfl, rfl, rfl, rfl, rfl, rfl, rfl, rfl, rfl, rfl, rfl, rfl, rfl, rfl, rfl, rfl, rfl, rfl, rfl, rfl, rfl, rfl, rfl, rfl, rfl, rfl, rfl, rfl, rfl, rfl, rfl, rfl, rfl, rfl, rfl, rfl, rfl, rfl, rfl, rfl, rfl, rfl, rfl, rfl, rfl, rfl, rfl⟩

@[simp] theorem State.onDev_fields (s : State) (g : Dev → Dev) :
  (s.onDev g).pending = s.pending ∧ (s.onDev g).freeCtr = s.freeCtr ∧ (s.onDev g).nextUid = s.nextUid ∧ (s.onDev g).fuse = s.fuse ∧
  (s.onDev g).pin = s.pin ∧ (s.onDev g).dev = g s.dev ∧ (s.onDev g).fn = s.fn ∧ (s.onDev g).apw = s.apw ∧ (s.onDev g).mbx = s.mbx ∧
  (s.onDev g).mbxBuf = s.mbxBuf ∧ (s.onDev g).queue = s.queue ∧ (s.onDev g).cas = s.cas ∧ (s.onDev g).ctx = s.ctx ∧ (s.onDev g).alloc = s.alloc ∧
  (s.onDev g).fills = s.fills ∧ (s.onDev g).desc = s.desc ∧ (s.onDev g).prog = s.prog ∧ (s.onDev g).latch = s.latch ∧
  (s.onDev g).latchHold = s.latchHold ∧ (s.onDev g).run = s.run ∧ (s.onDev g).core = s.core ∧ (s.onDev g).saved = s.saved ∧
  (s.onDev g).tile = s.tile ∧ (s.onDev g).opStore = s.opStore ∧ (s.onDev g).accStore = s.accStore ∧ (s.onDev g).armed = s.armed ∧
  (s.onDev g).unitCtx = s.unitCtx ∧ (s.onDev g).bank = s.bank ∧ (s.onDev g).localMem = s.localMem ∧ (s.onDev g).sharedMem = s.sharedMem ∧
  (s.onDev g).tileMem = s.tileMem ∧ (s.onDev g).badWords = s.badWords ∧ (s.onDev g).stackMem = s.stackMem ∧ (s.onDev g).window = s.window ∧
  (s.onDev g).winFree = s.winFree ∧ (s.onDev g).health = s.health ∧ (s.onDev g).lb = s.lb ∧ (s.onDev g).ecc = s.ecc ∧ (s.onDev g).eccReg = s.eccReg ∧
  (s.onDev g).farMem = s.farMem ∧ (s.onDev g).farBad = s.farBad ∧ (s.onDev g).hostMem = s.hostMem ∧ (s.onDev g).far = s.far ∧
  (s.onDev g).job = s.job ∧ (s.onDev g).seq = s.seq ∧ (s.onDev g).page = s.page ∧ (s.onDev g).calib = s.calib ∧ (s.onDev g).area = s.area ∧
  (s.onDev g).req = s.req ∧ (s.onDev g).fab = s.fab ∧ (s.onDev g).port = s.port ∧ (s.onDev g).plan = s.plan ∧ (s.onDev g).coll = s.coll ∧
  (s.onDev g).wlog = s.wlog ∧ (s.onDev g).lvr = s.lvr ∧ (s.onDev g).therm = s.therm ∧ (s.onDev g).gated = s.gated ∧ (s.onDev g).turn = s.turn ∧
  (s.onDev g).wake = s.wake ∧ (s.onDev g).acc = s.acc ∧ (s.onDev g).proc = s.proc ∧ (s.onDev g).fw = s.fw ∧ (s.onDev g).mgmt = s.mgmt ∧
  (s.onDev g).out = s.out := by
  refine ⟨rfl, rfl, rfl, rfl, rfl, rfl, rfl, rfl, rfl, rfl, rfl, rfl, rfl, rfl, rfl, rfl, rfl, rfl, rfl, rfl, rfl, rfl, rfl, rfl, rfl, rfl, rfl, rfl, rfl, rfl, rfl, rfl, rfl, rfl, rfl, rfl, rfl, rfl, rfl, rfl, rfl, rfl, rfl, rfl, rfl, rfl, rfl, rfl, rfl, rfl, rfl, rfl, rfl, rfl, rfl, rfl, rfl, rfl, rfl, rfl, rfl, rfl, rfl, rfl⟩

@[simp] theorem State.onFn_fields (s : State) (g : Tbl Func → Tbl Func) :
  (s.onFn g).pending = s.pending ∧ (s.onFn g).freeCtr = s.freeCtr ∧ (s.onFn g).nextUid = s.nextUid ∧ (s.onFn g).fuse = s.fuse ∧
  (s.onFn g).pin = s.pin ∧ (s.onFn g).dev = s.dev ∧ (s.onFn g).fn = g s.fn ∧ (s.onFn g).apw = s.apw ∧ (s.onFn g).mbx = s.mbx ∧
  (s.onFn g).mbxBuf = s.mbxBuf ∧ (s.onFn g).queue = s.queue ∧ (s.onFn g).cas = s.cas ∧ (s.onFn g).ctx = s.ctx ∧ (s.onFn g).alloc = s.alloc ∧
  (s.onFn g).fills = s.fills ∧ (s.onFn g).desc = s.desc ∧ (s.onFn g).prog = s.prog ∧ (s.onFn g).latch = s.latch ∧
  (s.onFn g).latchHold = s.latchHold ∧ (s.onFn g).run = s.run ∧ (s.onFn g).core = s.core ∧ (s.onFn g).saved = s.saved ∧ (s.onFn g).tile = s.tile ∧
  (s.onFn g).opStore = s.opStore ∧ (s.onFn g).accStore = s.accStore ∧ (s.onFn g).armed = s.armed ∧ (s.onFn g).unitCtx = s.unitCtx ∧
  (s.onFn g).bank = s.bank ∧ (s.onFn g).localMem = s.localMem ∧ (s.onFn g).sharedMem = s.sharedMem ∧ (s.onFn g).tileMem = s.tileMem ∧
  (s.onFn g).badWords = s.badWords ∧ (s.onFn g).stackMem = s.stackMem ∧ (s.onFn g).window = s.window ∧ (s.onFn g).winFree = s.winFree ∧
  (s.onFn g).health = s.health ∧ (s.onFn g).lb = s.lb ∧ (s.onFn g).ecc = s.ecc ∧ (s.onFn g).eccReg = s.eccReg ∧ (s.onFn g).farMem = s.farMem ∧
  (s.onFn g).farBad = s.farBad ∧ (s.onFn g).hostMem = s.hostMem ∧ (s.onFn g).far = s.far ∧ (s.onFn g).job = s.job ∧ (s.onFn g).seq = s.seq ∧
  (s.onFn g).page = s.page ∧ (s.onFn g).calib = s.calib ∧ (s.onFn g).area = s.area ∧ (s.onFn g).req = s.req ∧ (s.onFn g).fab = s.fab ∧
  (s.onFn g).port = s.port ∧ (s.onFn g).plan = s.plan ∧ (s.onFn g).coll = s.coll ∧ (s.onFn g).wlog = s.wlog ∧ (s.onFn g).lvr = s.lvr ∧
  (s.onFn g).therm = s.therm ∧ (s.onFn g).gated = s.gated ∧ (s.onFn g).turn = s.turn ∧ (s.onFn g).wake = s.wake ∧ (s.onFn g).acc = s.acc ∧
  (s.onFn g).proc = s.proc ∧ (s.onFn g).fw = s.fw ∧ (s.onFn g).mgmt = s.mgmt ∧ (s.onFn g).out = s.out := by
  refine ⟨rfl, rfl, rfl, rfl, rfl, rfl, rfl, rfl, rfl, rfl, rfl, rfl, rfl, rfl, rfl, rfl, rfl, rfl, rfl, rfl, rfl, rfl, rfl, rfl, rfl, rfl, rfl, rfl, rfl, rfl, rfl, rfl, rfl, rfl, rfl, rfl, rfl, rfl, rfl, rfl, rfl, rfl, rfl, rfl, rfl, rfl, rfl, rfl, rfl, rfl, rfl, rfl, rfl, rfl, rfl, rfl, rfl, rfl, rfl, rfl, rfl, rfl, rfl, rfl⟩

@[simp] theorem State.onApw_fields (s : State) (g : Tbl Apw → Tbl Apw) :
  (s.onApw g).pending = s.pending ∧ (s.onApw g).freeCtr = s.freeCtr ∧ (s.onApw g).nextUid = s.nextUid ∧ (s.onApw g).fuse = s.fuse ∧
  (s.onApw g).pin = s.pin ∧ (s.onApw g).dev = s.dev ∧ (s.onApw g).fn = s.fn ∧ (s.onApw g).apw = g s.apw ∧ (s.onApw g).mbx = s.mbx ∧
  (s.onApw g).mbxBuf = s.mbxBuf ∧ (s.onApw g).queue = s.queue ∧ (s.onApw g).cas = s.cas ∧ (s.onApw g).ctx = s.ctx ∧ (s.onApw g).alloc = s.alloc ∧
  (s.onApw g).fills = s.fills ∧ (s.onApw g).desc = s.desc ∧ (s.onApw g).prog = s.prog ∧ (s.onApw g).latch = s.latch ∧
  (s.onApw g).latchHold = s.latchHold ∧ (s.onApw g).run = s.run ∧ (s.onApw g).core = s.core ∧ (s.onApw g).saved = s.saved ∧
  (s.onApw g).tile = s.tile ∧ (s.onApw g).opStore = s.opStore ∧ (s.onApw g).accStore = s.accStore ∧ (s.onApw g).armed = s.armed ∧
  (s.onApw g).unitCtx = s.unitCtx ∧ (s.onApw g).bank = s.bank ∧ (s.onApw g).localMem = s.localMem ∧ (s.onApw g).sharedMem = s.sharedMem ∧
  (s.onApw g).tileMem = s.tileMem ∧ (s.onApw g).badWords = s.badWords ∧ (s.onApw g).stackMem = s.stackMem ∧ (s.onApw g).window = s.window ∧
  (s.onApw g).winFree = s.winFree ∧ (s.onApw g).health = s.health ∧ (s.onApw g).lb = s.lb ∧ (s.onApw g).ecc = s.ecc ∧ (s.onApw g).eccReg = s.eccReg ∧
  (s.onApw g).farMem = s.farMem ∧ (s.onApw g).farBad = s.farBad ∧ (s.onApw g).hostMem = s.hostMem ∧ (s.onApw g).far = s.far ∧
  (s.onApw g).job = s.job ∧ (s.onApw g).seq = s.seq ∧ (s.onApw g).page = s.page ∧ (s.onApw g).calib = s.calib ∧ (s.onApw g).area = s.area ∧
  (s.onApw g).req = s.req ∧ (s.onApw g).fab = s.fab ∧ (s.onApw g).port = s.port ∧ (s.onApw g).plan = s.plan ∧ (s.onApw g).coll = s.coll ∧
  (s.onApw g).wlog = s.wlog ∧ (s.onApw g).lvr = s.lvr ∧ (s.onApw g).therm = s.therm ∧ (s.onApw g).gated = s.gated ∧ (s.onApw g).turn = s.turn ∧
  (s.onApw g).wake = s.wake ∧ (s.onApw g).acc = s.acc ∧ (s.onApw g).proc = s.proc ∧ (s.onApw g).fw = s.fw ∧ (s.onApw g).mgmt = s.mgmt ∧
  (s.onApw g).out = s.out := by
  refine ⟨rfl, rfl, rfl, rfl, rfl, rfl, rfl, rfl, rfl, rfl, rfl, rfl, rfl, rfl, rfl, rfl, rfl, rfl, rfl, rfl, rfl, rfl, rfl, rfl, rfl, rfl, rfl, rfl, rfl, rfl, rfl, rfl, rfl, rfl, rfl, rfl, rfl, rfl, rfl, rfl, rfl, rfl, rfl, rfl, rfl, rfl, rfl, rfl, rfl, rfl, rfl, rfl, rfl, rfl, rfl, rfl, rfl, rfl, rfl, rfl, rfl, rfl, rfl, rfl⟩

@[simp] theorem State.onMbx_fields (s : State) (g : Tbl Mbx → Tbl Mbx) :
  (s.onMbx g).pending = s.pending ∧ (s.onMbx g).freeCtr = s.freeCtr ∧ (s.onMbx g).nextUid = s.nextUid ∧ (s.onMbx g).fuse = s.fuse ∧
  (s.onMbx g).pin = s.pin ∧ (s.onMbx g).dev = s.dev ∧ (s.onMbx g).fn = s.fn ∧ (s.onMbx g).apw = s.apw ∧ (s.onMbx g).mbx = g s.mbx ∧
  (s.onMbx g).mbxBuf = s.mbxBuf ∧ (s.onMbx g).queue = s.queue ∧ (s.onMbx g).cas = s.cas ∧ (s.onMbx g).ctx = s.ctx ∧ (s.onMbx g).alloc = s.alloc ∧
  (s.onMbx g).fills = s.fills ∧ (s.onMbx g).desc = s.desc ∧ (s.onMbx g).prog = s.prog ∧ (s.onMbx g).latch = s.latch ∧
  (s.onMbx g).latchHold = s.latchHold ∧ (s.onMbx g).run = s.run ∧ (s.onMbx g).core = s.core ∧ (s.onMbx g).saved = s.saved ∧
  (s.onMbx g).tile = s.tile ∧ (s.onMbx g).opStore = s.opStore ∧ (s.onMbx g).accStore = s.accStore ∧ (s.onMbx g).armed = s.armed ∧
  (s.onMbx g).unitCtx = s.unitCtx ∧ (s.onMbx g).bank = s.bank ∧ (s.onMbx g).localMem = s.localMem ∧ (s.onMbx g).sharedMem = s.sharedMem ∧
  (s.onMbx g).tileMem = s.tileMem ∧ (s.onMbx g).badWords = s.badWords ∧ (s.onMbx g).stackMem = s.stackMem ∧ (s.onMbx g).window = s.window ∧
  (s.onMbx g).winFree = s.winFree ∧ (s.onMbx g).health = s.health ∧ (s.onMbx g).lb = s.lb ∧ (s.onMbx g).ecc = s.ecc ∧ (s.onMbx g).eccReg = s.eccReg ∧
  (s.onMbx g).farMem = s.farMem ∧ (s.onMbx g).farBad = s.farBad ∧ (s.onMbx g).hostMem = s.hostMem ∧ (s.onMbx g).far = s.far ∧
  (s.onMbx g).job = s.job ∧ (s.onMbx g).seq = s.seq ∧ (s.onMbx g).page = s.page ∧ (s.onMbx g).calib = s.calib ∧ (s.onMbx g).area = s.area ∧
  (s.onMbx g).req = s.req ∧ (s.onMbx g).fab = s.fab ∧ (s.onMbx g).port = s.port ∧ (s.onMbx g).plan = s.plan ∧ (s.onMbx g).coll = s.coll ∧
  (s.onMbx g).wlog = s.wlog ∧ (s.onMbx g).lvr = s.lvr ∧ (s.onMbx g).therm = s.therm ∧ (s.onMbx g).gated = s.gated ∧ (s.onMbx g).turn = s.turn ∧
  (s.onMbx g).wake = s.wake ∧ (s.onMbx g).acc = s.acc ∧ (s.onMbx g).proc = s.proc ∧ (s.onMbx g).fw = s.fw ∧ (s.onMbx g).mgmt = s.mgmt ∧
  (s.onMbx g).out = s.out := by
  refine ⟨rfl, rfl, rfl, rfl, rfl, rfl, rfl, rfl, rfl, rfl, rfl, rfl, rfl, rfl, rfl, rfl, rfl, rfl, rfl, rfl, rfl, rfl, rfl, rfl, rfl, rfl, rfl, rfl, rfl, rfl, rfl, rfl, rfl, rfl, rfl, rfl, rfl, rfl, rfl, rfl, rfl, rfl, rfl, rfl, rfl, rfl, rfl, rfl, rfl, rfl, rfl, rfl, rfl, rfl, rfl, rfl, rfl, rfl, rfl, rfl, rfl, rfl, rfl, rfl⟩

@[simp] theorem State.onMbxBuf_fields (s : State) (g : Mem → Mem) :
  (s.onMbxBuf g).pending = s.pending ∧ (s.onMbxBuf g).freeCtr = s.freeCtr ∧ (s.onMbxBuf g).nextUid = s.nextUid ∧ (s.onMbxBuf g).fuse = s.fuse ∧
  (s.onMbxBuf g).pin = s.pin ∧ (s.onMbxBuf g).dev = s.dev ∧ (s.onMbxBuf g).fn = s.fn ∧ (s.onMbxBuf g).apw = s.apw ∧ (s.onMbxBuf g).mbx = s.mbx ∧
  (s.onMbxBuf g).mbxBuf = g s.mbxBuf ∧ (s.onMbxBuf g).queue = s.queue ∧ (s.onMbxBuf g).cas = s.cas ∧ (s.onMbxBuf g).ctx = s.ctx ∧
  (s.onMbxBuf g).alloc = s.alloc ∧ (s.onMbxBuf g).fills = s.fills ∧ (s.onMbxBuf g).desc = s.desc ∧ (s.onMbxBuf g).prog = s.prog ∧
  (s.onMbxBuf g).latch = s.latch ∧ (s.onMbxBuf g).latchHold = s.latchHold ∧ (s.onMbxBuf g).run = s.run ∧ (s.onMbxBuf g).core = s.core ∧
  (s.onMbxBuf g).saved = s.saved ∧ (s.onMbxBuf g).tile = s.tile ∧ (s.onMbxBuf g).opStore = s.opStore ∧ (s.onMbxBuf g).accStore = s.accStore ∧
  (s.onMbxBuf g).armed = s.armed ∧ (s.onMbxBuf g).unitCtx = s.unitCtx ∧ (s.onMbxBuf g).bank = s.bank ∧ (s.onMbxBuf g).localMem = s.localMem ∧
  (s.onMbxBuf g).sharedMem = s.sharedMem ∧ (s.onMbxBuf g).tileMem = s.tileMem ∧ (s.onMbxBuf g).badWords = s.badWords ∧
  (s.onMbxBuf g).stackMem = s.stackMem ∧ (s.onMbxBuf g).window = s.window ∧ (s.onMbxBuf g).winFree = s.winFree ∧ (s.onMbxBuf g).health = s.health ∧
  (s.onMbxBuf g).lb = s.lb ∧ (s.onMbxBuf g).ecc = s.ecc ∧ (s.onMbxBuf g).eccReg = s.eccReg ∧ (s.onMbxBuf g).farMem = s.farMem ∧
  (s.onMbxBuf g).farBad = s.farBad ∧ (s.onMbxBuf g).hostMem = s.hostMem ∧ (s.onMbxBuf g).far = s.far ∧ (s.onMbxBuf g).job = s.job ∧
  (s.onMbxBuf g).seq = s.seq ∧ (s.onMbxBuf g).page = s.page ∧ (s.onMbxBuf g).calib = s.calib ∧ (s.onMbxBuf g).area = s.area ∧
  (s.onMbxBuf g).req = s.req ∧ (s.onMbxBuf g).fab = s.fab ∧ (s.onMbxBuf g).port = s.port ∧ (s.onMbxBuf g).plan = s.plan ∧
  (s.onMbxBuf g).coll = s.coll ∧ (s.onMbxBuf g).wlog = s.wlog ∧ (s.onMbxBuf g).lvr = s.lvr ∧ (s.onMbxBuf g).therm = s.therm ∧
  (s.onMbxBuf g).gated = s.gated ∧ (s.onMbxBuf g).turn = s.turn ∧ (s.onMbxBuf g).wake = s.wake ∧ (s.onMbxBuf g).acc = s.acc ∧
  (s.onMbxBuf g).proc = s.proc ∧ (s.onMbxBuf g).fw = s.fw ∧ (s.onMbxBuf g).mgmt = s.mgmt ∧ (s.onMbxBuf g).out = s.out := by
  refine ⟨rfl, rfl, rfl, rfl, rfl, rfl, rfl, rfl, rfl, rfl, rfl, rfl, rfl, rfl, rfl, rfl, rfl, rfl, rfl, rfl, rfl, rfl, rfl, rfl, rfl, rfl, rfl, rfl, rfl, rfl, rfl, rfl, rfl, rfl, rfl, rfl, rfl, rfl, rfl, rfl, rfl, rfl, rfl, rfl, rfl, rfl, rfl, rfl, rfl, rfl, rfl, rfl, rfl, rfl, rfl, rfl, rfl, rfl, rfl, rfl, rfl, rfl, rfl, rfl⟩

@[simp] theorem State.onQueue_fields (s : State) (g : Tbl Queue → Tbl Queue) :
  (s.onQueue g).pending = s.pending ∧ (s.onQueue g).freeCtr = s.freeCtr ∧ (s.onQueue g).nextUid = s.nextUid ∧ (s.onQueue g).fuse = s.fuse ∧
  (s.onQueue g).pin = s.pin ∧ (s.onQueue g).dev = s.dev ∧ (s.onQueue g).fn = s.fn ∧ (s.onQueue g).apw = s.apw ∧ (s.onQueue g).mbx = s.mbx ∧
  (s.onQueue g).mbxBuf = s.mbxBuf ∧ (s.onQueue g).queue = g s.queue ∧ (s.onQueue g).cas = s.cas ∧ (s.onQueue g).ctx = s.ctx ∧
  (s.onQueue g).alloc = s.alloc ∧ (s.onQueue g).fills = s.fills ∧ (s.onQueue g).desc = s.desc ∧ (s.onQueue g).prog = s.prog ∧
  (s.onQueue g).latch = s.latch ∧ (s.onQueue g).latchHold = s.latchHold ∧ (s.onQueue g).run = s.run ∧ (s.onQueue g).core = s.core ∧
  (s.onQueue g).saved = s.saved ∧ (s.onQueue g).tile = s.tile ∧ (s.onQueue g).opStore = s.opStore ∧ (s.onQueue g).accStore = s.accStore ∧
  (s.onQueue g).armed = s.armed ∧ (s.onQueue g).unitCtx = s.unitCtx ∧ (s.onQueue g).bank = s.bank ∧ (s.onQueue g).localMem = s.localMem ∧
  (s.onQueue g).sharedMem = s.sharedMem ∧ (s.onQueue g).tileMem = s.tileMem ∧ (s.onQueue g).badWords = s.badWords ∧
  (s.onQueue g).stackMem = s.stackMem ∧ (s.onQueue g).window = s.window ∧ (s.onQueue g).winFree = s.winFree ∧ (s.onQueue g).health = s.health ∧
  (s.onQueue g).lb = s.lb ∧ (s.onQueue g).ecc = s.ecc ∧ (s.onQueue g).eccReg = s.eccReg ∧ (s.onQueue g).farMem = s.farMem ∧
  (s.onQueue g).farBad = s.farBad ∧ (s.onQueue g).hostMem = s.hostMem ∧ (s.onQueue g).far = s.far ∧ (s.onQueue g).job = s.job ∧
  (s.onQueue g).seq = s.seq ∧ (s.onQueue g).page = s.page ∧ (s.onQueue g).calib = s.calib ∧ (s.onQueue g).area = s.area ∧ (s.onQueue g).req = s.req ∧
  (s.onQueue g).fab = s.fab ∧ (s.onQueue g).port = s.port ∧ (s.onQueue g).plan = s.plan ∧ (s.onQueue g).coll = s.coll ∧ (s.onQueue g).wlog = s.wlog ∧
  (s.onQueue g).lvr = s.lvr ∧ (s.onQueue g).therm = s.therm ∧ (s.onQueue g).gated = s.gated ∧ (s.onQueue g).turn = s.turn ∧
  (s.onQueue g).wake = s.wake ∧ (s.onQueue g).acc = s.acc ∧ (s.onQueue g).proc = s.proc ∧ (s.onQueue g).fw = s.fw ∧ (s.onQueue g).mgmt = s.mgmt ∧
  (s.onQueue g).out = s.out := by
  refine ⟨rfl, rfl, rfl, rfl, rfl, rfl, rfl, rfl, rfl, rfl, rfl, rfl, rfl, rfl, rfl, rfl, rfl, rfl, rfl, rfl, rfl, rfl, rfl, rfl, rfl, rfl, rfl, rfl, rfl, rfl, rfl, rfl, rfl, rfl, rfl, rfl, rfl, rfl, rfl, rfl, rfl, rfl, rfl, rfl, rfl, rfl, rfl, rfl, rfl, rfl, rfl, rfl, rfl, rfl, rfl, rfl, rfl, rfl, rfl, rfl, rfl, rfl, rfl, rfl⟩

@[simp] theorem State.onCas_fields (s : State) (g : Tbl Cas → Tbl Cas) :
  (s.onCas g).pending = s.pending ∧ (s.onCas g).freeCtr = s.freeCtr ∧ (s.onCas g).nextUid = s.nextUid ∧ (s.onCas g).fuse = s.fuse ∧
  (s.onCas g).pin = s.pin ∧ (s.onCas g).dev = s.dev ∧ (s.onCas g).fn = s.fn ∧ (s.onCas g).apw = s.apw ∧ (s.onCas g).mbx = s.mbx ∧
  (s.onCas g).mbxBuf = s.mbxBuf ∧ (s.onCas g).queue = s.queue ∧ (s.onCas g).cas = g s.cas ∧ (s.onCas g).ctx = s.ctx ∧ (s.onCas g).alloc = s.alloc ∧
  (s.onCas g).fills = s.fills ∧ (s.onCas g).desc = s.desc ∧ (s.onCas g).prog = s.prog ∧ (s.onCas g).latch = s.latch ∧
  (s.onCas g).latchHold = s.latchHold ∧ (s.onCas g).run = s.run ∧ (s.onCas g).core = s.core ∧ (s.onCas g).saved = s.saved ∧
  (s.onCas g).tile = s.tile ∧ (s.onCas g).opStore = s.opStore ∧ (s.onCas g).accStore = s.accStore ∧ (s.onCas g).armed = s.armed ∧
  (s.onCas g).unitCtx = s.unitCtx ∧ (s.onCas g).bank = s.bank ∧ (s.onCas g).localMem = s.localMem ∧ (s.onCas g).sharedMem = s.sharedMem ∧
  (s.onCas g).tileMem = s.tileMem ∧ (s.onCas g).badWords = s.badWords ∧ (s.onCas g).stackMem = s.stackMem ∧ (s.onCas g).window = s.window ∧
  (s.onCas g).winFree = s.winFree ∧ (s.onCas g).health = s.health ∧ (s.onCas g).lb = s.lb ∧ (s.onCas g).ecc = s.ecc ∧ (s.onCas g).eccReg = s.eccReg ∧
  (s.onCas g).farMem = s.farMem ∧ (s.onCas g).farBad = s.farBad ∧ (s.onCas g).hostMem = s.hostMem ∧ (s.onCas g).far = s.far ∧
  (s.onCas g).job = s.job ∧ (s.onCas g).seq = s.seq ∧ (s.onCas g).page = s.page ∧ (s.onCas g).calib = s.calib ∧ (s.onCas g).area = s.area ∧
  (s.onCas g).req = s.req ∧ (s.onCas g).fab = s.fab ∧ (s.onCas g).port = s.port ∧ (s.onCas g).plan = s.plan ∧ (s.onCas g).coll = s.coll ∧
  (s.onCas g).wlog = s.wlog ∧ (s.onCas g).lvr = s.lvr ∧ (s.onCas g).therm = s.therm ∧ (s.onCas g).gated = s.gated ∧ (s.onCas g).turn = s.turn ∧
  (s.onCas g).wake = s.wake ∧ (s.onCas g).acc = s.acc ∧ (s.onCas g).proc = s.proc ∧ (s.onCas g).fw = s.fw ∧ (s.onCas g).mgmt = s.mgmt ∧
  (s.onCas g).out = s.out := by
  refine ⟨rfl, rfl, rfl, rfl, rfl, rfl, rfl, rfl, rfl, rfl, rfl, rfl, rfl, rfl, rfl, rfl, rfl, rfl, rfl, rfl, rfl, rfl, rfl, rfl, rfl, rfl, rfl, rfl, rfl, rfl, rfl, rfl, rfl, rfl, rfl, rfl, rfl, rfl, rfl, rfl, rfl, rfl, rfl, rfl, rfl, rfl, rfl, rfl, rfl, rfl, rfl, rfl, rfl, rfl, rfl, rfl, rfl, rfl, rfl, rfl, rfl, rfl, rfl, rfl⟩

@[simp] theorem State.onCtx_fields (s : State) (g : Tbl Ctx → Tbl Ctx) :
  (s.onCtx g).pending = s.pending ∧ (s.onCtx g).freeCtr = s.freeCtr ∧ (s.onCtx g).nextUid = s.nextUid ∧ (s.onCtx g).fuse = s.fuse ∧
  (s.onCtx g).pin = s.pin ∧ (s.onCtx g).dev = s.dev ∧ (s.onCtx g).fn = s.fn ∧ (s.onCtx g).apw = s.apw ∧ (s.onCtx g).mbx = s.mbx ∧
  (s.onCtx g).mbxBuf = s.mbxBuf ∧ (s.onCtx g).queue = s.queue ∧ (s.onCtx g).cas = s.cas ∧ (s.onCtx g).ctx = g s.ctx ∧ (s.onCtx g).alloc = s.alloc ∧
  (s.onCtx g).fills = s.fills ∧ (s.onCtx g).desc = s.desc ∧ (s.onCtx g).prog = s.prog ∧ (s.onCtx g).latch = s.latch ∧
  (s.onCtx g).latchHold = s.latchHold ∧ (s.onCtx g).run = s.run ∧ (s.onCtx g).core = s.core ∧ (s.onCtx g).saved = s.saved ∧
  (s.onCtx g).tile = s.tile ∧ (s.onCtx g).opStore = s.opStore ∧ (s.onCtx g).accStore = s.accStore ∧ (s.onCtx g).armed = s.armed ∧
  (s.onCtx g).unitCtx = s.unitCtx ∧ (s.onCtx g).bank = s.bank ∧ (s.onCtx g).localMem = s.localMem ∧ (s.onCtx g).sharedMem = s.sharedMem ∧
  (s.onCtx g).tileMem = s.tileMem ∧ (s.onCtx g).badWords = s.badWords ∧ (s.onCtx g).stackMem = s.stackMem ∧ (s.onCtx g).window = s.window ∧
  (s.onCtx g).winFree = s.winFree ∧ (s.onCtx g).health = s.health ∧ (s.onCtx g).lb = s.lb ∧ (s.onCtx g).ecc = s.ecc ∧ (s.onCtx g).eccReg = s.eccReg ∧
  (s.onCtx g).farMem = s.farMem ∧ (s.onCtx g).farBad = s.farBad ∧ (s.onCtx g).hostMem = s.hostMem ∧ (s.onCtx g).far = s.far ∧
  (s.onCtx g).job = s.job ∧ (s.onCtx g).seq = s.seq ∧ (s.onCtx g).page = s.page ∧ (s.onCtx g).calib = s.calib ∧ (s.onCtx g).area = s.area ∧
  (s.onCtx g).req = s.req ∧ (s.onCtx g).fab = s.fab ∧ (s.onCtx g).port = s.port ∧ (s.onCtx g).plan = s.plan ∧ (s.onCtx g).coll = s.coll ∧
  (s.onCtx g).wlog = s.wlog ∧ (s.onCtx g).lvr = s.lvr ∧ (s.onCtx g).therm = s.therm ∧ (s.onCtx g).gated = s.gated ∧ (s.onCtx g).turn = s.turn ∧
  (s.onCtx g).wake = s.wake ∧ (s.onCtx g).acc = s.acc ∧ (s.onCtx g).proc = s.proc ∧ (s.onCtx g).fw = s.fw ∧ (s.onCtx g).mgmt = s.mgmt ∧
  (s.onCtx g).out = s.out := by
  refine ⟨rfl, rfl, rfl, rfl, rfl, rfl, rfl, rfl, rfl, rfl, rfl, rfl, rfl, rfl, rfl, rfl, rfl, rfl, rfl, rfl, rfl, rfl, rfl, rfl, rfl, rfl, rfl, rfl, rfl, rfl, rfl, rfl, rfl, rfl, rfl, rfl, rfl, rfl, rfl, rfl, rfl, rfl, rfl, rfl, rfl, rfl, rfl, rfl, rfl, rfl, rfl, rfl, rfl, rfl, rfl, rfl, rfl, rfl, rfl, rfl, rfl, rfl, rfl, rfl⟩

@[simp] theorem State.onAlloc_fields (s : State) (g : Tbl Alloc → Tbl Alloc) :
  (s.onAlloc g).pending = s.pending ∧ (s.onAlloc g).freeCtr = s.freeCtr ∧ (s.onAlloc g).nextUid = s.nextUid ∧ (s.onAlloc g).fuse = s.fuse ∧
  (s.onAlloc g).pin = s.pin ∧ (s.onAlloc g).dev = s.dev ∧ (s.onAlloc g).fn = s.fn ∧ (s.onAlloc g).apw = s.apw ∧ (s.onAlloc g).mbx = s.mbx ∧
  (s.onAlloc g).mbxBuf = s.mbxBuf ∧ (s.onAlloc g).queue = s.queue ∧ (s.onAlloc g).cas = s.cas ∧ (s.onAlloc g).ctx = s.ctx ∧
  (s.onAlloc g).alloc = g s.alloc ∧ (s.onAlloc g).fills = s.fills ∧ (s.onAlloc g).desc = s.desc ∧ (s.onAlloc g).prog = s.prog ∧
  (s.onAlloc g).latch = s.latch ∧ (s.onAlloc g).latchHold = s.latchHold ∧ (s.onAlloc g).run = s.run ∧ (s.onAlloc g).core = s.core ∧
  (s.onAlloc g).saved = s.saved ∧ (s.onAlloc g).tile = s.tile ∧ (s.onAlloc g).opStore = s.opStore ∧ (s.onAlloc g).accStore = s.accStore ∧
  (s.onAlloc g).armed = s.armed ∧ (s.onAlloc g).unitCtx = s.unitCtx ∧ (s.onAlloc g).bank = s.bank ∧ (s.onAlloc g).localMem = s.localMem ∧
  (s.onAlloc g).sharedMem = s.sharedMem ∧ (s.onAlloc g).tileMem = s.tileMem ∧ (s.onAlloc g).badWords = s.badWords ∧
  (s.onAlloc g).stackMem = s.stackMem ∧ (s.onAlloc g).window = s.window ∧ (s.onAlloc g).winFree = s.winFree ∧ (s.onAlloc g).health = s.health ∧
  (s.onAlloc g).lb = s.lb ∧ (s.onAlloc g).ecc = s.ecc ∧ (s.onAlloc g).eccReg = s.eccReg ∧ (s.onAlloc g).farMem = s.farMem ∧
  (s.onAlloc g).farBad = s.farBad ∧ (s.onAlloc g).hostMem = s.hostMem ∧ (s.onAlloc g).far = s.far ∧ (s.onAlloc g).job = s.job ∧
  (s.onAlloc g).seq = s.seq ∧ (s.onAlloc g).page = s.page ∧ (s.onAlloc g).calib = s.calib ∧ (s.onAlloc g).area = s.area ∧ (s.onAlloc g).req = s.req ∧
  (s.onAlloc g).fab = s.fab ∧ (s.onAlloc g).port = s.port ∧ (s.onAlloc g).plan = s.plan ∧ (s.onAlloc g).coll = s.coll ∧ (s.onAlloc g).wlog = s.wlog ∧
  (s.onAlloc g).lvr = s.lvr ∧ (s.onAlloc g).therm = s.therm ∧ (s.onAlloc g).gated = s.gated ∧ (s.onAlloc g).turn = s.turn ∧
  (s.onAlloc g).wake = s.wake ∧ (s.onAlloc g).acc = s.acc ∧ (s.onAlloc g).proc = s.proc ∧ (s.onAlloc g).fw = s.fw ∧ (s.onAlloc g).mgmt = s.mgmt ∧
  (s.onAlloc g).out = s.out := by
  refine ⟨rfl, rfl, rfl, rfl, rfl, rfl, rfl, rfl, rfl, rfl, rfl, rfl, rfl, rfl, rfl, rfl, rfl, rfl, rfl, rfl, rfl, rfl, rfl, rfl, rfl, rfl, rfl, rfl, rfl, rfl, rfl, rfl, rfl, rfl, rfl, rfl, rfl, rfl, rfl, rfl, rfl, rfl, rfl, rfl, rfl, rfl, rfl, rfl, rfl, rfl, rfl, rfl, rfl, rfl, rfl, rfl, rfl, rfl, rfl, rfl, rfl, rfl, rfl, rfl⟩

@[simp] theorem State.onFills_fields (s : State) (g : Tbl Fill → Tbl Fill) :
  (s.onFills g).pending = s.pending ∧ (s.onFills g).freeCtr = s.freeCtr ∧ (s.onFills g).nextUid = s.nextUid ∧ (s.onFills g).fuse = s.fuse ∧
  (s.onFills g).pin = s.pin ∧ (s.onFills g).dev = s.dev ∧ (s.onFills g).fn = s.fn ∧ (s.onFills g).apw = s.apw ∧ (s.onFills g).mbx = s.mbx ∧
  (s.onFills g).mbxBuf = s.mbxBuf ∧ (s.onFills g).queue = s.queue ∧ (s.onFills g).cas = s.cas ∧ (s.onFills g).ctx = s.ctx ∧
  (s.onFills g).alloc = s.alloc ∧ (s.onFills g).fills = g s.fills ∧ (s.onFills g).desc = s.desc ∧ (s.onFills g).prog = s.prog ∧
  (s.onFills g).latch = s.latch ∧ (s.onFills g).latchHold = s.latchHold ∧ (s.onFills g).run = s.run ∧ (s.onFills g).core = s.core ∧
  (s.onFills g).saved = s.saved ∧ (s.onFills g).tile = s.tile ∧ (s.onFills g).opStore = s.opStore ∧ (s.onFills g).accStore = s.accStore ∧
  (s.onFills g).armed = s.armed ∧ (s.onFills g).unitCtx = s.unitCtx ∧ (s.onFills g).bank = s.bank ∧ (s.onFills g).localMem = s.localMem ∧
  (s.onFills g).sharedMem = s.sharedMem ∧ (s.onFills g).tileMem = s.tileMem ∧ (s.onFills g).badWords = s.badWords ∧
  (s.onFills g).stackMem = s.stackMem ∧ (s.onFills g).window = s.window ∧ (s.onFills g).winFree = s.winFree ∧ (s.onFills g).health = s.health ∧
  (s.onFills g).lb = s.lb ∧ (s.onFills g).ecc = s.ecc ∧ (s.onFills g).eccReg = s.eccReg ∧ (s.onFills g).farMem = s.farMem ∧
  (s.onFills g).farBad = s.farBad ∧ (s.onFills g).hostMem = s.hostMem ∧ (s.onFills g).far = s.far ∧ (s.onFills g).job = s.job ∧
  (s.onFills g).seq = s.seq ∧ (s.onFills g).page = s.page ∧ (s.onFills g).calib = s.calib ∧ (s.onFills g).area = s.area ∧ (s.onFills g).req = s.req ∧
  (s.onFills g).fab = s.fab ∧ (s.onFills g).port = s.port ∧ (s.onFills g).plan = s.plan ∧ (s.onFills g).coll = s.coll ∧ (s.onFills g).wlog = s.wlog ∧
  (s.onFills g).lvr = s.lvr ∧ (s.onFills g).therm = s.therm ∧ (s.onFills g).gated = s.gated ∧ (s.onFills g).turn = s.turn ∧
  (s.onFills g).wake = s.wake ∧ (s.onFills g).acc = s.acc ∧ (s.onFills g).proc = s.proc ∧ (s.onFills g).fw = s.fw ∧ (s.onFills g).mgmt = s.mgmt ∧
  (s.onFills g).out = s.out := by
  refine ⟨rfl, rfl, rfl, rfl, rfl, rfl, rfl, rfl, rfl, rfl, rfl, rfl, rfl, rfl, rfl, rfl, rfl, rfl, rfl, rfl, rfl, rfl, rfl, rfl, rfl, rfl, rfl, rfl, rfl, rfl, rfl, rfl, rfl, rfl, rfl, rfl, rfl, rfl, rfl, rfl, rfl, rfl, rfl, rfl, rfl, rfl, rfl, rfl, rfl, rfl, rfl, rfl, rfl, rfl, rfl, rfl, rfl, rfl, rfl, rfl, rfl, rfl, rfl, rfl⟩

@[simp] theorem State.onDesc_fields (s : State) (g : Tbl Desc → Tbl Desc) :
  (s.onDesc g).pending = s.pending ∧ (s.onDesc g).freeCtr = s.freeCtr ∧ (s.onDesc g).nextUid = s.nextUid ∧ (s.onDesc g).fuse = s.fuse ∧
  (s.onDesc g).pin = s.pin ∧ (s.onDesc g).dev = s.dev ∧ (s.onDesc g).fn = s.fn ∧ (s.onDesc g).apw = s.apw ∧ (s.onDesc g).mbx = s.mbx ∧
  (s.onDesc g).mbxBuf = s.mbxBuf ∧ (s.onDesc g).queue = s.queue ∧ (s.onDesc g).cas = s.cas ∧ (s.onDesc g).ctx = s.ctx ∧
  (s.onDesc g).alloc = s.alloc ∧ (s.onDesc g).fills = s.fills ∧ (s.onDesc g).desc = g s.desc ∧ (s.onDesc g).prog = s.prog ∧
  (s.onDesc g).latch = s.latch ∧ (s.onDesc g).latchHold = s.latchHold ∧ (s.onDesc g).run = s.run ∧ (s.onDesc g).core = s.core ∧
  (s.onDesc g).saved = s.saved ∧ (s.onDesc g).tile = s.tile ∧ (s.onDesc g).opStore = s.opStore ∧ (s.onDesc g).accStore = s.accStore ∧
  (s.onDesc g).armed = s.armed ∧ (s.onDesc g).unitCtx = s.unitCtx ∧ (s.onDesc g).bank = s.bank ∧ (s.onDesc g).localMem = s.localMem ∧
  (s.onDesc g).sharedMem = s.sharedMem ∧ (s.onDesc g).tileMem = s.tileMem ∧ (s.onDesc g).badWords = s.badWords ∧ (s.onDesc g).stackMem = s.stackMem ∧
  (s.onDesc g).window = s.window ∧ (s.onDesc g).winFree = s.winFree ∧ (s.onDesc g).health = s.health ∧ (s.onDesc g).lb = s.lb ∧
  (s.onDesc g).ecc = s.ecc ∧ (s.onDesc g).eccReg = s.eccReg ∧ (s.onDesc g).farMem = s.farMem ∧ (s.onDesc g).farBad = s.farBad ∧
  (s.onDesc g).hostMem = s.hostMem ∧ (s.onDesc g).far = s.far ∧ (s.onDesc g).job = s.job ∧ (s.onDesc g).seq = s.seq ∧ (s.onDesc g).page = s.page ∧
  (s.onDesc g).calib = s.calib ∧ (s.onDesc g).area = s.area ∧ (s.onDesc g).req = s.req ∧ (s.onDesc g).fab = s.fab ∧ (s.onDesc g).port = s.port ∧
  (s.onDesc g).plan = s.plan ∧ (s.onDesc g).coll = s.coll ∧ (s.onDesc g).wlog = s.wlog ∧ (s.onDesc g).lvr = s.lvr ∧ (s.onDesc g).therm = s.therm ∧
  (s.onDesc g).gated = s.gated ∧ (s.onDesc g).turn = s.turn ∧ (s.onDesc g).wake = s.wake ∧ (s.onDesc g).acc = s.acc ∧ (s.onDesc g).proc = s.proc ∧
  (s.onDesc g).fw = s.fw ∧ (s.onDesc g).mgmt = s.mgmt ∧ (s.onDesc g).out = s.out := by
  refine ⟨rfl, rfl, rfl, rfl, rfl, rfl, rfl, rfl, rfl, rfl, rfl, rfl, rfl, rfl, rfl, rfl, rfl, rfl, rfl, rfl, rfl, rfl, rfl, rfl, rfl, rfl, rfl, rfl, rfl, rfl, rfl, rfl, rfl, rfl, rfl, rfl, rfl, rfl, rfl, rfl, rfl, rfl, rfl, rfl, rfl, rfl, rfl, rfl, rfl, rfl, rfl, rfl, rfl, rfl, rfl, rfl, rfl, rfl, rfl, rfl, rfl, rfl, rfl, rfl⟩

@[simp] theorem State.onProg_fields (s : State) (g : Tbl Prog → Tbl Prog) :
  (s.onProg g).pending = s.pending ∧ (s.onProg g).freeCtr = s.freeCtr ∧ (s.onProg g).nextUid = s.nextUid ∧ (s.onProg g).fuse = s.fuse ∧
  (s.onProg g).pin = s.pin ∧ (s.onProg g).dev = s.dev ∧ (s.onProg g).fn = s.fn ∧ (s.onProg g).apw = s.apw ∧ (s.onProg g).mbx = s.mbx ∧
  (s.onProg g).mbxBuf = s.mbxBuf ∧ (s.onProg g).queue = s.queue ∧ (s.onProg g).cas = s.cas ∧ (s.onProg g).ctx = s.ctx ∧
  (s.onProg g).alloc = s.alloc ∧ (s.onProg g).fills = s.fills ∧ (s.onProg g).desc = s.desc ∧ (s.onProg g).prog = g s.prog ∧
  (s.onProg g).latch = s.latch ∧ (s.onProg g).latchHold = s.latchHold ∧ (s.onProg g).run = s.run ∧ (s.onProg g).core = s.core ∧
  (s.onProg g).saved = s.saved ∧ (s.onProg g).tile = s.tile ∧ (s.onProg g).opStore = s.opStore ∧ (s.onProg g).accStore = s.accStore ∧
  (s.onProg g).armed = s.armed ∧ (s.onProg g).unitCtx = s.unitCtx ∧ (s.onProg g).bank = s.bank ∧ (s.onProg g).localMem = s.localMem ∧
  (s.onProg g).sharedMem = s.sharedMem ∧ (s.onProg g).tileMem = s.tileMem ∧ (s.onProg g).badWords = s.badWords ∧ (s.onProg g).stackMem = s.stackMem ∧
  (s.onProg g).window = s.window ∧ (s.onProg g).winFree = s.winFree ∧ (s.onProg g).health = s.health ∧ (s.onProg g).lb = s.lb ∧
  (s.onProg g).ecc = s.ecc ∧ (s.onProg g).eccReg = s.eccReg ∧ (s.onProg g).farMem = s.farMem ∧ (s.onProg g).farBad = s.farBad ∧
  (s.onProg g).hostMem = s.hostMem ∧ (s.onProg g).far = s.far ∧ (s.onProg g).job = s.job ∧ (s.onProg g).seq = s.seq ∧ (s.onProg g).page = s.page ∧
  (s.onProg g).calib = s.calib ∧ (s.onProg g).area = s.area ∧ (s.onProg g).req = s.req ∧ (s.onProg g).fab = s.fab ∧ (s.onProg g).port = s.port ∧
  (s.onProg g).plan = s.plan ∧ (s.onProg g).coll = s.coll ∧ (s.onProg g).wlog = s.wlog ∧ (s.onProg g).lvr = s.lvr ∧ (s.onProg g).therm = s.therm ∧
  (s.onProg g).gated = s.gated ∧ (s.onProg g).turn = s.turn ∧ (s.onProg g).wake = s.wake ∧ (s.onProg g).acc = s.acc ∧ (s.onProg g).proc = s.proc ∧
  (s.onProg g).fw = s.fw ∧ (s.onProg g).mgmt = s.mgmt ∧ (s.onProg g).out = s.out := by
  refine ⟨rfl, rfl, rfl, rfl, rfl, rfl, rfl, rfl, rfl, rfl, rfl, rfl, rfl, rfl, rfl, rfl, rfl, rfl, rfl, rfl, rfl, rfl, rfl, rfl, rfl, rfl, rfl, rfl, rfl, rfl, rfl, rfl, rfl, rfl, rfl, rfl, rfl, rfl, rfl, rfl, rfl, rfl, rfl, rfl, rfl, rfl, rfl, rfl, rfl, rfl, rfl, rfl, rfl, rfl, rfl, rfl, rfl, rfl, rfl, rfl, rfl, rfl, rfl, rfl⟩

@[simp] theorem State.onLatch_fields (s : State) (g : Tbl Latch → Tbl Latch) :
  (s.onLatch g).pending = s.pending ∧ (s.onLatch g).freeCtr = s.freeCtr ∧ (s.onLatch g).nextUid = s.nextUid ∧ (s.onLatch g).fuse = s.fuse ∧
  (s.onLatch g).pin = s.pin ∧ (s.onLatch g).dev = s.dev ∧ (s.onLatch g).fn = s.fn ∧ (s.onLatch g).apw = s.apw ∧ (s.onLatch g).mbx = s.mbx ∧
  (s.onLatch g).mbxBuf = s.mbxBuf ∧ (s.onLatch g).queue = s.queue ∧ (s.onLatch g).cas = s.cas ∧ (s.onLatch g).ctx = s.ctx ∧
  (s.onLatch g).alloc = s.alloc ∧ (s.onLatch g).fills = s.fills ∧ (s.onLatch g).desc = s.desc ∧ (s.onLatch g).prog = s.prog ∧
  (s.onLatch g).latch = g s.latch ∧ (s.onLatch g).latchHold = s.latchHold ∧ (s.onLatch g).run = s.run ∧ (s.onLatch g).core = s.core ∧
  (s.onLatch g).saved = s.saved ∧ (s.onLatch g).tile = s.tile ∧ (s.onLatch g).opStore = s.opStore ∧ (s.onLatch g).accStore = s.accStore ∧
  (s.onLatch g).armed = s.armed ∧ (s.onLatch g).unitCtx = s.unitCtx ∧ (s.onLatch g).bank = s.bank ∧ (s.onLatch g).localMem = s.localMem ∧
  (s.onLatch g).sharedMem = s.sharedMem ∧ (s.onLatch g).tileMem = s.tileMem ∧ (s.onLatch g).badWords = s.badWords ∧
  (s.onLatch g).stackMem = s.stackMem ∧ (s.onLatch g).window = s.window ∧ (s.onLatch g).winFree = s.winFree ∧ (s.onLatch g).health = s.health ∧
  (s.onLatch g).lb = s.lb ∧ (s.onLatch g).ecc = s.ecc ∧ (s.onLatch g).eccReg = s.eccReg ∧ (s.onLatch g).farMem = s.farMem ∧
  (s.onLatch g).farBad = s.farBad ∧ (s.onLatch g).hostMem = s.hostMem ∧ (s.onLatch g).far = s.far ∧ (s.onLatch g).job = s.job ∧
  (s.onLatch g).seq = s.seq ∧ (s.onLatch g).page = s.page ∧ (s.onLatch g).calib = s.calib ∧ (s.onLatch g).area = s.area ∧ (s.onLatch g).req = s.req ∧
  (s.onLatch g).fab = s.fab ∧ (s.onLatch g).port = s.port ∧ (s.onLatch g).plan = s.plan ∧ (s.onLatch g).coll = s.coll ∧ (s.onLatch g).wlog = s.wlog ∧
  (s.onLatch g).lvr = s.lvr ∧ (s.onLatch g).therm = s.therm ∧ (s.onLatch g).gated = s.gated ∧ (s.onLatch g).turn = s.turn ∧
  (s.onLatch g).wake = s.wake ∧ (s.onLatch g).acc = s.acc ∧ (s.onLatch g).proc = s.proc ∧ (s.onLatch g).fw = s.fw ∧ (s.onLatch g).mgmt = s.mgmt ∧
  (s.onLatch g).out = s.out := by
  refine ⟨rfl, rfl, rfl, rfl, rfl, rfl, rfl, rfl, rfl, rfl, rfl, rfl, rfl, rfl, rfl, rfl, rfl, rfl, rfl, rfl, rfl, rfl, rfl, rfl, rfl, rfl, rfl, rfl, rfl, rfl, rfl, rfl, rfl, rfl, rfl, rfl, rfl, rfl, rfl, rfl, rfl, rfl, rfl, rfl, rfl, rfl, rfl, rfl, rfl, rfl, rfl, rfl, rfl, rfl, rfl, rfl, rfl, rfl, rfl, rfl, rfl, rfl, rfl, rfl⟩

@[simp] theorem State.onLatchHold_fields (s : State) (g : Tbl (List Nat) → Tbl (List Nat)) :
  (s.onLatchHold g).pending = s.pending ∧ (s.onLatchHold g).freeCtr = s.freeCtr ∧ (s.onLatchHold g).nextUid = s.nextUid ∧
  (s.onLatchHold g).fuse = s.fuse ∧ (s.onLatchHold g).pin = s.pin ∧ (s.onLatchHold g).dev = s.dev ∧ (s.onLatchHold g).fn = s.fn ∧
  (s.onLatchHold g).apw = s.apw ∧ (s.onLatchHold g).mbx = s.mbx ∧ (s.onLatchHold g).mbxBuf = s.mbxBuf ∧ (s.onLatchHold g).queue = s.queue ∧
  (s.onLatchHold g).cas = s.cas ∧ (s.onLatchHold g).ctx = s.ctx ∧ (s.onLatchHold g).alloc = s.alloc ∧ (s.onLatchHold g).fills = s.fills ∧
  (s.onLatchHold g).desc = s.desc ∧ (s.onLatchHold g).prog = s.prog ∧ (s.onLatchHold g).latch = s.latch ∧
  (s.onLatchHold g).latchHold = g s.latchHold ∧ (s.onLatchHold g).run = s.run ∧ (s.onLatchHold g).core = s.core ∧ (s.onLatchHold g).saved = s.saved ∧
  (s.onLatchHold g).tile = s.tile ∧ (s.onLatchHold g).opStore = s.opStore ∧ (s.onLatchHold g).accStore = s.accStore ∧
  (s.onLatchHold g).armed = s.armed ∧ (s.onLatchHold g).unitCtx = s.unitCtx ∧ (s.onLatchHold g).bank = s.bank ∧
  (s.onLatchHold g).localMem = s.localMem ∧ (s.onLatchHold g).sharedMem = s.sharedMem ∧ (s.onLatchHold g).tileMem = s.tileMem ∧
  (s.onLatchHold g).badWords = s.badWords ∧ (s.onLatchHold g).stackMem = s.stackMem ∧ (s.onLatchHold g).window = s.window ∧
  (s.onLatchHold g).winFree = s.winFree ∧ (s.onLatchHold g).health = s.health ∧ (s.onLatchHold g).lb = s.lb ∧ (s.onLatchHold g).ecc = s.ecc ∧
  (s.onLatchHold g).eccReg = s.eccReg ∧ (s.onLatchHold g).farMem = s.farMem ∧ (s.onLatchHold g).farBad = s.farBad ∧
  (s.onLatchHold g).hostMem = s.hostMem ∧ (s.onLatchHold g).far = s.far ∧ (s.onLatchHold g).job = s.job ∧ (s.onLatchHold g).seq = s.seq ∧
  (s.onLatchHold g).page = s.page ∧ (s.onLatchHold g).calib = s.calib ∧ (s.onLatchHold g).area = s.area ∧ (s.onLatchHold g).req = s.req ∧
  (s.onLatchHold g).fab = s.fab ∧ (s.onLatchHold g).port = s.port ∧ (s.onLatchHold g).plan = s.plan ∧ (s.onLatchHold g).coll = s.coll ∧
  (s.onLatchHold g).wlog = s.wlog ∧ (s.onLatchHold g).lvr = s.lvr ∧ (s.onLatchHold g).therm = s.therm ∧ (s.onLatchHold g).gated = s.gated ∧
  (s.onLatchHold g).turn = s.turn ∧ (s.onLatchHold g).wake = s.wake ∧ (s.onLatchHold g).acc = s.acc ∧ (s.onLatchHold g).proc = s.proc ∧
  (s.onLatchHold g).fw = s.fw ∧ (s.onLatchHold g).mgmt = s.mgmt ∧ (s.onLatchHold g).out = s.out := by
  refine ⟨rfl, rfl, rfl, rfl, rfl, rfl, rfl, rfl, rfl, rfl, rfl, rfl, rfl, rfl, rfl, rfl, rfl, rfl, rfl, rfl, rfl, rfl, rfl, rfl, rfl, rfl, rfl, rfl, rfl, rfl, rfl, rfl, rfl, rfl, rfl, rfl, rfl, rfl, rfl, rfl, rfl, rfl, rfl, rfl, rfl, rfl, rfl, rfl, rfl, rfl, rfl, rfl, rfl, rfl, rfl, rfl, rfl, rfl, rfl, rfl, rfl, rfl, rfl, rfl⟩

@[simp] theorem State.onRun_fields (s : State) (g : Tbl Run → Tbl Run) :
  (s.onRun g).pending = s.pending ∧ (s.onRun g).freeCtr = s.freeCtr ∧ (s.onRun g).nextUid = s.nextUid ∧ (s.onRun g).fuse = s.fuse ∧
  (s.onRun g).pin = s.pin ∧ (s.onRun g).dev = s.dev ∧ (s.onRun g).fn = s.fn ∧ (s.onRun g).apw = s.apw ∧ (s.onRun g).mbx = s.mbx ∧
  (s.onRun g).mbxBuf = s.mbxBuf ∧ (s.onRun g).queue = s.queue ∧ (s.onRun g).cas = s.cas ∧ (s.onRun g).ctx = s.ctx ∧ (s.onRun g).alloc = s.alloc ∧
  (s.onRun g).fills = s.fills ∧ (s.onRun g).desc = s.desc ∧ (s.onRun g).prog = s.prog ∧ (s.onRun g).latch = s.latch ∧
  (s.onRun g).latchHold = s.latchHold ∧ (s.onRun g).run = g s.run ∧ (s.onRun g).core = s.core ∧ (s.onRun g).saved = s.saved ∧
  (s.onRun g).tile = s.tile ∧ (s.onRun g).opStore = s.opStore ∧ (s.onRun g).accStore = s.accStore ∧ (s.onRun g).armed = s.armed ∧
  (s.onRun g).unitCtx = s.unitCtx ∧ (s.onRun g).bank = s.bank ∧ (s.onRun g).localMem = s.localMem ∧ (s.onRun g).sharedMem = s.sharedMem ∧
  (s.onRun g).tileMem = s.tileMem ∧ (s.onRun g).badWords = s.badWords ∧ (s.onRun g).stackMem = s.stackMem ∧ (s.onRun g).window = s.window ∧
  (s.onRun g).winFree = s.winFree ∧ (s.onRun g).health = s.health ∧ (s.onRun g).lb = s.lb ∧ (s.onRun g).ecc = s.ecc ∧ (s.onRun g).eccReg = s.eccReg ∧
  (s.onRun g).farMem = s.farMem ∧ (s.onRun g).farBad = s.farBad ∧ (s.onRun g).hostMem = s.hostMem ∧ (s.onRun g).far = s.far ∧
  (s.onRun g).job = s.job ∧ (s.onRun g).seq = s.seq ∧ (s.onRun g).page = s.page ∧ (s.onRun g).calib = s.calib ∧ (s.onRun g).area = s.area ∧
  (s.onRun g).req = s.req ∧ (s.onRun g).fab = s.fab ∧ (s.onRun g).port = s.port ∧ (s.onRun g).plan = s.plan ∧ (s.onRun g).coll = s.coll ∧
  (s.onRun g).wlog = s.wlog ∧ (s.onRun g).lvr = s.lvr ∧ (s.onRun g).therm = s.therm ∧ (s.onRun g).gated = s.gated ∧ (s.onRun g).turn = s.turn ∧
  (s.onRun g).wake = s.wake ∧ (s.onRun g).acc = s.acc ∧ (s.onRun g).proc = s.proc ∧ (s.onRun g).fw = s.fw ∧ (s.onRun g).mgmt = s.mgmt ∧
  (s.onRun g).out = s.out := by
  refine ⟨rfl, rfl, rfl, rfl, rfl, rfl, rfl, rfl, rfl, rfl, rfl, rfl, rfl, rfl, rfl, rfl, rfl, rfl, rfl, rfl, rfl, rfl, rfl, rfl, rfl, rfl, rfl, rfl, rfl, rfl, rfl, rfl, rfl, rfl, rfl, rfl, rfl, rfl, rfl, rfl, rfl, rfl, rfl, rfl, rfl, rfl, rfl, rfl, rfl, rfl, rfl, rfl, rfl, rfl, rfl, rfl, rfl, rfl, rfl, rfl, rfl, rfl, rfl, rfl⟩

@[simp] theorem State.onCore_fields (s : State) (g : Tbl Core → Tbl Core) :
  (s.onCore g).pending = s.pending ∧ (s.onCore g).freeCtr = s.freeCtr ∧ (s.onCore g).nextUid = s.nextUid ∧ (s.onCore g).fuse = s.fuse ∧
  (s.onCore g).pin = s.pin ∧ (s.onCore g).dev = s.dev ∧ (s.onCore g).fn = s.fn ∧ (s.onCore g).apw = s.apw ∧ (s.onCore g).mbx = s.mbx ∧
  (s.onCore g).mbxBuf = s.mbxBuf ∧ (s.onCore g).queue = s.queue ∧ (s.onCore g).cas = s.cas ∧ (s.onCore g).ctx = s.ctx ∧
  (s.onCore g).alloc = s.alloc ∧ (s.onCore g).fills = s.fills ∧ (s.onCore g).desc = s.desc ∧ (s.onCore g).prog = s.prog ∧
  (s.onCore g).latch = s.latch ∧ (s.onCore g).latchHold = s.latchHold ∧ (s.onCore g).run = s.run ∧ (s.onCore g).core = g s.core ∧
  (s.onCore g).saved = s.saved ∧ (s.onCore g).tile = s.tile ∧ (s.onCore g).opStore = s.opStore ∧ (s.onCore g).accStore = s.accStore ∧
  (s.onCore g).armed = s.armed ∧ (s.onCore g).unitCtx = s.unitCtx ∧ (s.onCore g).bank = s.bank ∧ (s.onCore g).localMem = s.localMem ∧
  (s.onCore g).sharedMem = s.sharedMem ∧ (s.onCore g).tileMem = s.tileMem ∧ (s.onCore g).badWords = s.badWords ∧ (s.onCore g).stackMem = s.stackMem ∧
  (s.onCore g).window = s.window ∧ (s.onCore g).winFree = s.winFree ∧ (s.onCore g).health = s.health ∧ (s.onCore g).lb = s.lb ∧
  (s.onCore g).ecc = s.ecc ∧ (s.onCore g).eccReg = s.eccReg ∧ (s.onCore g).farMem = s.farMem ∧ (s.onCore g).farBad = s.farBad ∧
  (s.onCore g).hostMem = s.hostMem ∧ (s.onCore g).far = s.far ∧ (s.onCore g).job = s.job ∧ (s.onCore g).seq = s.seq ∧ (s.onCore g).page = s.page ∧
  (s.onCore g).calib = s.calib ∧ (s.onCore g).area = s.area ∧ (s.onCore g).req = s.req ∧ (s.onCore g).fab = s.fab ∧ (s.onCore g).port = s.port ∧
  (s.onCore g).plan = s.plan ∧ (s.onCore g).coll = s.coll ∧ (s.onCore g).wlog = s.wlog ∧ (s.onCore g).lvr = s.lvr ∧ (s.onCore g).therm = s.therm ∧
  (s.onCore g).gated = s.gated ∧ (s.onCore g).turn = s.turn ∧ (s.onCore g).wake = s.wake ∧ (s.onCore g).acc = s.acc ∧ (s.onCore g).proc = s.proc ∧
  (s.onCore g).fw = s.fw ∧ (s.onCore g).mgmt = s.mgmt ∧ (s.onCore g).out = s.out := by
  refine ⟨rfl, rfl, rfl, rfl, rfl, rfl, rfl, rfl, rfl, rfl, rfl, rfl, rfl, rfl, rfl, rfl, rfl, rfl, rfl, rfl, rfl, rfl, rfl, rfl, rfl, rfl, rfl, rfl, rfl, rfl, rfl, rfl, rfl, rfl, rfl, rfl, rfl, rfl, rfl, rfl, rfl, rfl, rfl, rfl, rfl, rfl, rfl, rfl, rfl, rfl, rfl, rfl, rfl, rfl, rfl, rfl, rfl, rfl, rfl, rfl, rfl, rfl, rfl, rfl⟩

@[simp] theorem State.onSaved_fields (s : State) (g : Tbl Saved → Tbl Saved) :
  (s.onSaved g).pending = s.pending ∧ (s.onSaved g).freeCtr = s.freeCtr ∧ (s.onSaved g).nextUid = s.nextUid ∧ (s.onSaved g).fuse = s.fuse ∧
  (s.onSaved g).pin = s.pin ∧ (s.onSaved g).dev = s.dev ∧ (s.onSaved g).fn = s.fn ∧ (s.onSaved g).apw = s.apw ∧ (s.onSaved g).mbx = s.mbx ∧
  (s.onSaved g).mbxBuf = s.mbxBuf ∧ (s.onSaved g).queue = s.queue ∧ (s.onSaved g).cas = s.cas ∧ (s.onSaved g).ctx = s.ctx ∧
  (s.onSaved g).alloc = s.alloc ∧ (s.onSaved g).fills = s.fills ∧ (s.onSaved g).desc = s.desc ∧ (s.onSaved g).prog = s.prog ∧
  (s.onSaved g).latch = s.latch ∧ (s.onSaved g).latchHold = s.latchHold ∧ (s.onSaved g).run = s.run ∧ (s.onSaved g).core = s.core ∧
  (s.onSaved g).saved = g s.saved ∧ (s.onSaved g).tile = s.tile ∧ (s.onSaved g).opStore = s.opStore ∧ (s.onSaved g).accStore = s.accStore ∧
  (s.onSaved g).armed = s.armed ∧ (s.onSaved g).unitCtx = s.unitCtx ∧ (s.onSaved g).bank = s.bank ∧ (s.onSaved g).localMem = s.localMem ∧
  (s.onSaved g).sharedMem = s.sharedMem ∧ (s.onSaved g).tileMem = s.tileMem ∧ (s.onSaved g).badWords = s.badWords ∧
  (s.onSaved g).stackMem = s.stackMem ∧ (s.onSaved g).window = s.window ∧ (s.onSaved g).winFree = s.winFree ∧ (s.onSaved g).health = s.health ∧
  (s.onSaved g).lb = s.lb ∧ (s.onSaved g).ecc = s.ecc ∧ (s.onSaved g).eccReg = s.eccReg ∧ (s.onSaved g).farMem = s.farMem ∧
  (s.onSaved g).farBad = s.farBad ∧ (s.onSaved g).hostMem = s.hostMem ∧ (s.onSaved g).far = s.far ∧ (s.onSaved g).job = s.job ∧
  (s.onSaved g).seq = s.seq ∧ (s.onSaved g).page = s.page ∧ (s.onSaved g).calib = s.calib ∧ (s.onSaved g).area = s.area ∧ (s.onSaved g).req = s.req ∧
  (s.onSaved g).fab = s.fab ∧ (s.onSaved g).port = s.port ∧ (s.onSaved g).plan = s.plan ∧ (s.onSaved g).coll = s.coll ∧ (s.onSaved g).wlog = s.wlog ∧
  (s.onSaved g).lvr = s.lvr ∧ (s.onSaved g).therm = s.therm ∧ (s.onSaved g).gated = s.gated ∧ (s.onSaved g).turn = s.turn ∧
  (s.onSaved g).wake = s.wake ∧ (s.onSaved g).acc = s.acc ∧ (s.onSaved g).proc = s.proc ∧ (s.onSaved g).fw = s.fw ∧ (s.onSaved g).mgmt = s.mgmt ∧
  (s.onSaved g).out = s.out := by
  refine ⟨rfl, rfl, rfl, rfl, rfl, rfl, rfl, rfl, rfl, rfl, rfl, rfl, rfl, rfl, rfl, rfl, rfl, rfl, rfl, rfl, rfl, rfl, rfl, rfl, rfl, rfl, rfl, rfl, rfl, rfl, rfl, rfl, rfl, rfl, rfl, rfl, rfl, rfl, rfl, rfl, rfl, rfl, rfl, rfl, rfl, rfl, rfl, rfl, rfl, rfl, rfl, rfl, rfl, rfl, rfl, rfl, rfl, rfl, rfl, rfl, rfl, rfl, rfl, rfl⟩

@[simp] theorem State.onTile_fields (s : State) (g : Tbl Tile → Tbl Tile) :
  (s.onTile g).pending = s.pending ∧ (s.onTile g).freeCtr = s.freeCtr ∧ (s.onTile g).nextUid = s.nextUid ∧ (s.onTile g).fuse = s.fuse ∧
  (s.onTile g).pin = s.pin ∧ (s.onTile g).dev = s.dev ∧ (s.onTile g).fn = s.fn ∧ (s.onTile g).apw = s.apw ∧ (s.onTile g).mbx = s.mbx ∧
  (s.onTile g).mbxBuf = s.mbxBuf ∧ (s.onTile g).queue = s.queue ∧ (s.onTile g).cas = s.cas ∧ (s.onTile g).ctx = s.ctx ∧
  (s.onTile g).alloc = s.alloc ∧ (s.onTile g).fills = s.fills ∧ (s.onTile g).desc = s.desc ∧ (s.onTile g).prog = s.prog ∧
  (s.onTile g).latch = s.latch ∧ (s.onTile g).latchHold = s.latchHold ∧ (s.onTile g).run = s.run ∧ (s.onTile g).core = s.core ∧
  (s.onTile g).saved = s.saved ∧ (s.onTile g).tile = g s.tile ∧ (s.onTile g).opStore = s.opStore ∧ (s.onTile g).accStore = s.accStore ∧
  (s.onTile g).armed = s.armed ∧ (s.onTile g).unitCtx = s.unitCtx ∧ (s.onTile g).bank = s.bank ∧ (s.onTile g).localMem = s.localMem ∧
  (s.onTile g).sharedMem = s.sharedMem ∧ (s.onTile g).tileMem = s.tileMem ∧ (s.onTile g).badWords = s.badWords ∧ (s.onTile g).stackMem = s.stackMem ∧
  (s.onTile g).window = s.window ∧ (s.onTile g).winFree = s.winFree ∧ (s.onTile g).health = s.health ∧ (s.onTile g).lb = s.lb ∧
  (s.onTile g).ecc = s.ecc ∧ (s.onTile g).eccReg = s.eccReg ∧ (s.onTile g).farMem = s.farMem ∧ (s.onTile g).farBad = s.farBad ∧
  (s.onTile g).hostMem = s.hostMem ∧ (s.onTile g).far = s.far ∧ (s.onTile g).job = s.job ∧ (s.onTile g).seq = s.seq ∧ (s.onTile g).page = s.page ∧
  (s.onTile g).calib = s.calib ∧ (s.onTile g).area = s.area ∧ (s.onTile g).req = s.req ∧ (s.onTile g).fab = s.fab ∧ (s.onTile g).port = s.port ∧
  (s.onTile g).plan = s.plan ∧ (s.onTile g).coll = s.coll ∧ (s.onTile g).wlog = s.wlog ∧ (s.onTile g).lvr = s.lvr ∧ (s.onTile g).therm = s.therm ∧
  (s.onTile g).gated = s.gated ∧ (s.onTile g).turn = s.turn ∧ (s.onTile g).wake = s.wake ∧ (s.onTile g).acc = s.acc ∧ (s.onTile g).proc = s.proc ∧
  (s.onTile g).fw = s.fw ∧ (s.onTile g).mgmt = s.mgmt ∧ (s.onTile g).out = s.out := by
  refine ⟨rfl, rfl, rfl, rfl, rfl, rfl, rfl, rfl, rfl, rfl, rfl, rfl, rfl, rfl, rfl, rfl, rfl, rfl, rfl, rfl, rfl, rfl, rfl, rfl, rfl, rfl, rfl, rfl, rfl, rfl, rfl, rfl, rfl, rfl, rfl, rfl, rfl, rfl, rfl, rfl, rfl, rfl, rfl, rfl, rfl, rfl, rfl, rfl, rfl, rfl, rfl, rfl, rfl, rfl, rfl, rfl, rfl, rfl, rfl, rfl, rfl, rfl, rfl, rfl⟩

@[simp] theorem State.onOpStore_fields (s : State) (g : Tbl Store → Tbl Store) :
  (s.onOpStore g).pending = s.pending ∧ (s.onOpStore g).freeCtr = s.freeCtr ∧ (s.onOpStore g).nextUid = s.nextUid ∧ (s.onOpStore g).fuse = s.fuse ∧
  (s.onOpStore g).pin = s.pin ∧ (s.onOpStore g).dev = s.dev ∧ (s.onOpStore g).fn = s.fn ∧ (s.onOpStore g).apw = s.apw ∧ (s.onOpStore g).mbx = s.mbx ∧
  (s.onOpStore g).mbxBuf = s.mbxBuf ∧ (s.onOpStore g).queue = s.queue ∧ (s.onOpStore g).cas = s.cas ∧ (s.onOpStore g).ctx = s.ctx ∧
  (s.onOpStore g).alloc = s.alloc ∧ (s.onOpStore g).fills = s.fills ∧ (s.onOpStore g).desc = s.desc ∧ (s.onOpStore g).prog = s.prog ∧
  (s.onOpStore g).latch = s.latch ∧ (s.onOpStore g).latchHold = s.latchHold ∧ (s.onOpStore g).run = s.run ∧ (s.onOpStore g).core = s.core ∧
  (s.onOpStore g).saved = s.saved ∧ (s.onOpStore g).tile = s.tile ∧ (s.onOpStore g).opStore = g s.opStore ∧ (s.onOpStore g).accStore = s.accStore ∧
  (s.onOpStore g).armed = s.armed ∧ (s.onOpStore g).unitCtx = s.unitCtx ∧ (s.onOpStore g).bank = s.bank ∧ (s.onOpStore g).localMem = s.localMem ∧
  (s.onOpStore g).sharedMem = s.sharedMem ∧ (s.onOpStore g).tileMem = s.tileMem ∧ (s.onOpStore g).badWords = s.badWords ∧
  (s.onOpStore g).stackMem = s.stackMem ∧ (s.onOpStore g).window = s.window ∧ (s.onOpStore g).winFree = s.winFree ∧
  (s.onOpStore g).health = s.health ∧ (s.onOpStore g).lb = s.lb ∧ (s.onOpStore g).ecc = s.ecc ∧ (s.onOpStore g).eccReg = s.eccReg ∧
  (s.onOpStore g).farMem = s.farMem ∧ (s.onOpStore g).farBad = s.farBad ∧ (s.onOpStore g).hostMem = s.hostMem ∧ (s.onOpStore g).far = s.far ∧
  (s.onOpStore g).job = s.job ∧ (s.onOpStore g).seq = s.seq ∧ (s.onOpStore g).page = s.page ∧ (s.onOpStore g).calib = s.calib ∧
  (s.onOpStore g).area = s.area ∧ (s.onOpStore g).req = s.req ∧ (s.onOpStore g).fab = s.fab ∧ (s.onOpStore g).port = s.port ∧
  (s.onOpStore g).plan = s.plan ∧ (s.onOpStore g).coll = s.coll ∧ (s.onOpStore g).wlog = s.wlog ∧ (s.onOpStore g).lvr = s.lvr ∧
  (s.onOpStore g).therm = s.therm ∧ (s.onOpStore g).gated = s.gated ∧ (s.onOpStore g).turn = s.turn ∧ (s.onOpStore g).wake = s.wake ∧
  (s.onOpStore g).acc = s.acc ∧ (s.onOpStore g).proc = s.proc ∧ (s.onOpStore g).fw = s.fw ∧ (s.onOpStore g).mgmt = s.mgmt ∧
  (s.onOpStore g).out = s.out := by
  refine ⟨rfl, rfl, rfl, rfl, rfl, rfl, rfl, rfl, rfl, rfl, rfl, rfl, rfl, rfl, rfl, rfl, rfl, rfl, rfl, rfl, rfl, rfl, rfl, rfl, rfl, rfl, rfl, rfl, rfl, rfl, rfl, rfl, rfl, rfl, rfl, rfl, rfl, rfl, rfl, rfl, rfl, rfl, rfl, rfl, rfl, rfl, rfl, rfl, rfl, rfl, rfl, rfl, rfl, rfl, rfl, rfl, rfl, rfl, rfl, rfl, rfl, rfl, rfl, rfl⟩

@[simp] theorem State.onAccStore_fields (s : State) (g : Tbl Store → Tbl Store) :
  (s.onAccStore g).pending = s.pending ∧ (s.onAccStore g).freeCtr = s.freeCtr ∧ (s.onAccStore g).nextUid = s.nextUid ∧
  (s.onAccStore g).fuse = s.fuse ∧ (s.onAccStore g).pin = s.pin ∧ (s.onAccStore g).dev = s.dev ∧ (s.onAccStore g).fn = s.fn ∧
  (s.onAccStore g).apw = s.apw ∧ (s.onAccStore g).mbx = s.mbx ∧ (s.onAccStore g).mbxBuf = s.mbxBuf ∧ (s.onAccStore g).queue = s.queue ∧
  (s.onAccStore g).cas = s.cas ∧ (s.onAccStore g).ctx = s.ctx ∧ (s.onAccStore g).alloc = s.alloc ∧ (s.onAccStore g).fills = s.fills ∧
  (s.onAccStore g).desc = s.desc ∧ (s.onAccStore g).prog = s.prog ∧ (s.onAccStore g).latch = s.latch ∧ (s.onAccStore g).latchHold = s.latchHold ∧
  (s.onAccStore g).run = s.run ∧ (s.onAccStore g).core = s.core ∧ (s.onAccStore g).saved = s.saved ∧ (s.onAccStore g).tile = s.tile ∧
  (s.onAccStore g).opStore = s.opStore ∧ (s.onAccStore g).accStore = g s.accStore ∧ (s.onAccStore g).armed = s.armed ∧
  (s.onAccStore g).unitCtx = s.unitCtx ∧ (s.onAccStore g).bank = s.bank ∧ (s.onAccStore g).localMem = s.localMem ∧
  (s.onAccStore g).sharedMem = s.sharedMem ∧ (s.onAccStore g).tileMem = s.tileMem ∧ (s.onAccStore g).badWords = s.badWords ∧
  (s.onAccStore g).stackMem = s.stackMem ∧ (s.onAccStore g).window = s.window ∧ (s.onAccStore g).winFree = s.winFree ∧
  (s.onAccStore g).health = s.health ∧ (s.onAccStore g).lb = s.lb ∧ (s.onAccStore g).ecc = s.ecc ∧ (s.onAccStore g).eccReg = s.eccReg ∧
  (s.onAccStore g).farMem = s.farMem ∧ (s.onAccStore g).farBad = s.farBad ∧ (s.onAccStore g).hostMem = s.hostMem ∧ (s.onAccStore g).far = s.far ∧
  (s.onAccStore g).job = s.job ∧ (s.onAccStore g).seq = s.seq ∧ (s.onAccStore g).page = s.page ∧ (s.onAccStore g).calib = s.calib ∧
  (s.onAccStore g).area = s.area ∧ (s.onAccStore g).req = s.req ∧ (s.onAccStore g).fab = s.fab ∧ (s.onAccStore g).port = s.port ∧
  (s.onAccStore g).plan = s.plan ∧ (s.onAccStore g).coll = s.coll ∧ (s.onAccStore g).wlog = s.wlog ∧ (s.onAccStore g).lvr = s.lvr ∧
  (s.onAccStore g).therm = s.therm ∧ (s.onAccStore g).gated = s.gated ∧ (s.onAccStore g).turn = s.turn ∧ (s.onAccStore g).wake = s.wake ∧
  (s.onAccStore g).acc = s.acc ∧ (s.onAccStore g).proc = s.proc ∧ (s.onAccStore g).fw = s.fw ∧ (s.onAccStore g).mgmt = s.mgmt ∧
  (s.onAccStore g).out = s.out := by
  refine ⟨rfl, rfl, rfl, rfl, rfl, rfl, rfl, rfl, rfl, rfl, rfl, rfl, rfl, rfl, rfl, rfl, rfl, rfl, rfl, rfl, rfl, rfl, rfl, rfl, rfl, rfl, rfl, rfl, rfl, rfl, rfl, rfl, rfl, rfl, rfl, rfl, rfl, rfl, rfl, rfl, rfl, rfl, rfl, rfl, rfl, rfl, rfl, rfl, rfl, rfl, rfl, rfl, rfl, rfl, rfl, rfl, rfl, rfl, rfl, rfl, rfl, rfl, rfl, rfl⟩

@[simp] theorem State.onArmed_fields (s : State) (g : List Armed → List Armed) :
  (s.onArmed g).pending = s.pending ∧ (s.onArmed g).freeCtr = s.freeCtr ∧ (s.onArmed g).nextUid = s.nextUid ∧ (s.onArmed g).fuse = s.fuse ∧
  (s.onArmed g).pin = s.pin ∧ (s.onArmed g).dev = s.dev ∧ (s.onArmed g).fn = s.fn ∧ (s.onArmed g).apw = s.apw ∧ (s.onArmed g).mbx = s.mbx ∧
  (s.onArmed g).mbxBuf = s.mbxBuf ∧ (s.onArmed g).queue = s.queue ∧ (s.onArmed g).cas = s.cas ∧ (s.onArmed g).ctx = s.ctx ∧
  (s.onArmed g).alloc = s.alloc ∧ (s.onArmed g).fills = s.fills ∧ (s.onArmed g).desc = s.desc ∧ (s.onArmed g).prog = s.prog ∧
  (s.onArmed g).latch = s.latch ∧ (s.onArmed g).latchHold = s.latchHold ∧ (s.onArmed g).run = s.run ∧ (s.onArmed g).core = s.core ∧
  (s.onArmed g).saved = s.saved ∧ (s.onArmed g).tile = s.tile ∧ (s.onArmed g).opStore = s.opStore ∧ (s.onArmed g).accStore = s.accStore ∧
  (s.onArmed g).armed = g s.armed ∧ (s.onArmed g).unitCtx = s.unitCtx ∧ (s.onArmed g).bank = s.bank ∧ (s.onArmed g).localMem = s.localMem ∧
  (s.onArmed g).sharedMem = s.sharedMem ∧ (s.onArmed g).tileMem = s.tileMem ∧ (s.onArmed g).badWords = s.badWords ∧
  (s.onArmed g).stackMem = s.stackMem ∧ (s.onArmed g).window = s.window ∧ (s.onArmed g).winFree = s.winFree ∧ (s.onArmed g).health = s.health ∧
  (s.onArmed g).lb = s.lb ∧ (s.onArmed g).ecc = s.ecc ∧ (s.onArmed g).eccReg = s.eccReg ∧ (s.onArmed g).farMem = s.farMem ∧
  (s.onArmed g).farBad = s.farBad ∧ (s.onArmed g).hostMem = s.hostMem ∧ (s.onArmed g).far = s.far ∧ (s.onArmed g).job = s.job ∧
  (s.onArmed g).seq = s.seq ∧ (s.onArmed g).page = s.page ∧ (s.onArmed g).calib = s.calib ∧ (s.onArmed g).area = s.area ∧ (s.onArmed g).req = s.req ∧
  (s.onArmed g).fab = s.fab ∧ (s.onArmed g).port = s.port ∧ (s.onArmed g).plan = s.plan ∧ (s.onArmed g).coll = s.coll ∧ (s.onArmed g).wlog = s.wlog ∧
  (s.onArmed g).lvr = s.lvr ∧ (s.onArmed g).therm = s.therm ∧ (s.onArmed g).gated = s.gated ∧ (s.onArmed g).turn = s.turn ∧
  (s.onArmed g).wake = s.wake ∧ (s.onArmed g).acc = s.acc ∧ (s.onArmed g).proc = s.proc ∧ (s.onArmed g).fw = s.fw ∧ (s.onArmed g).mgmt = s.mgmt ∧
  (s.onArmed g).out = s.out := by
  refine ⟨rfl, rfl, rfl, rfl, rfl, rfl, rfl, rfl, rfl, rfl, rfl, rfl, rfl, rfl, rfl, rfl, rfl, rfl, rfl, rfl, rfl, rfl, rfl, rfl, rfl, rfl, rfl, rfl, rfl, rfl, rfl, rfl, rfl, rfl, rfl, rfl, rfl, rfl, rfl, rfl, rfl, rfl, rfl, rfl, rfl, rfl, rfl, rfl, rfl, rfl, rfl, rfl, rfl, rfl, rfl, rfl, rfl, rfl, rfl, rfl, rfl, rfl, rfl, rfl⟩

@[simp] theorem State.onUnitCtx_fields (s : State) (g : Tbl Nat → Tbl Nat) :
  (s.onUnitCtx g).pending = s.pending ∧ (s.onUnitCtx g).freeCtr = s.freeCtr ∧ (s.onUnitCtx g).nextUid = s.nextUid ∧ (s.onUnitCtx g).fuse = s.fuse ∧
  (s.onUnitCtx g).pin = s.pin ∧ (s.onUnitCtx g).dev = s.dev ∧ (s.onUnitCtx g).fn = s.fn ∧ (s.onUnitCtx g).apw = s.apw ∧ (s.onUnitCtx g).mbx = s.mbx ∧
  (s.onUnitCtx g).mbxBuf = s.mbxBuf ∧ (s.onUnitCtx g).queue = s.queue ∧ (s.onUnitCtx g).cas = s.cas ∧ (s.onUnitCtx g).ctx = s.ctx ∧
  (s.onUnitCtx g).alloc = s.alloc ∧ (s.onUnitCtx g).fills = s.fills ∧ (s.onUnitCtx g).desc = s.desc ∧ (s.onUnitCtx g).prog = s.prog ∧
  (s.onUnitCtx g).latch = s.latch ∧ (s.onUnitCtx g).latchHold = s.latchHold ∧ (s.onUnitCtx g).run = s.run ∧ (s.onUnitCtx g).core = s.core ∧
  (s.onUnitCtx g).saved = s.saved ∧ (s.onUnitCtx g).tile = s.tile ∧ (s.onUnitCtx g).opStore = s.opStore ∧ (s.onUnitCtx g).accStore = s.accStore ∧
  (s.onUnitCtx g).armed = s.armed ∧ (s.onUnitCtx g).unitCtx = g s.unitCtx ∧ (s.onUnitCtx g).bank = s.bank ∧ (s.onUnitCtx g).localMem = s.localMem ∧
  (s.onUnitCtx g).sharedMem = s.sharedMem ∧ (s.onUnitCtx g).tileMem = s.tileMem ∧ (s.onUnitCtx g).badWords = s.badWords ∧
  (s.onUnitCtx g).stackMem = s.stackMem ∧ (s.onUnitCtx g).window = s.window ∧ (s.onUnitCtx g).winFree = s.winFree ∧
  (s.onUnitCtx g).health = s.health ∧ (s.onUnitCtx g).lb = s.lb ∧ (s.onUnitCtx g).ecc = s.ecc ∧ (s.onUnitCtx g).eccReg = s.eccReg ∧
  (s.onUnitCtx g).farMem = s.farMem ∧ (s.onUnitCtx g).farBad = s.farBad ∧ (s.onUnitCtx g).hostMem = s.hostMem ∧ (s.onUnitCtx g).far = s.far ∧
  (s.onUnitCtx g).job = s.job ∧ (s.onUnitCtx g).seq = s.seq ∧ (s.onUnitCtx g).page = s.page ∧ (s.onUnitCtx g).calib = s.calib ∧
  (s.onUnitCtx g).area = s.area ∧ (s.onUnitCtx g).req = s.req ∧ (s.onUnitCtx g).fab = s.fab ∧ (s.onUnitCtx g).port = s.port ∧
  (s.onUnitCtx g).plan = s.plan ∧ (s.onUnitCtx g).coll = s.coll ∧ (s.onUnitCtx g).wlog = s.wlog ∧ (s.onUnitCtx g).lvr = s.lvr ∧
  (s.onUnitCtx g).therm = s.therm ∧ (s.onUnitCtx g).gated = s.gated ∧ (s.onUnitCtx g).turn = s.turn ∧ (s.onUnitCtx g).wake = s.wake ∧
  (s.onUnitCtx g).acc = s.acc ∧ (s.onUnitCtx g).proc = s.proc ∧ (s.onUnitCtx g).fw = s.fw ∧ (s.onUnitCtx g).mgmt = s.mgmt ∧
  (s.onUnitCtx g).out = s.out := by
  refine ⟨rfl, rfl, rfl, rfl, rfl, rfl, rfl, rfl, rfl, rfl, rfl, rfl, rfl, rfl, rfl, rfl, rfl, rfl, rfl, rfl, rfl, rfl, rfl, rfl, rfl, rfl, rfl, rfl, rfl, rfl, rfl, rfl, rfl, rfl, rfl, rfl, rfl, rfl, rfl, rfl, rfl, rfl, rfl, rfl, rfl, rfl, rfl, rfl, rfl, rfl, rfl, rfl, rfl, rfl, rfl, rfl, rfl, rfl, rfl, rfl, rfl, rfl, rfl, rfl⟩

@[simp] theorem State.onBank_fields (s : State) (g : Tbl Bank → Tbl Bank) :
  (s.onBank g).pending = s.pending ∧ (s.onBank g).freeCtr = s.freeCtr ∧ (s.onBank g).nextUid = s.nextUid ∧ (s.onBank g).fuse = s.fuse ∧
  (s.onBank g).pin = s.pin ∧ (s.onBank g).dev = s.dev ∧ (s.onBank g).fn = s.fn ∧ (s.onBank g).apw = s.apw ∧ (s.onBank g).mbx = s.mbx ∧
  (s.onBank g).mbxBuf = s.mbxBuf ∧ (s.onBank g).queue = s.queue ∧ (s.onBank g).cas = s.cas ∧ (s.onBank g).ctx = s.ctx ∧
  (s.onBank g).alloc = s.alloc ∧ (s.onBank g).fills = s.fills ∧ (s.onBank g).desc = s.desc ∧ (s.onBank g).prog = s.prog ∧
  (s.onBank g).latch = s.latch ∧ (s.onBank g).latchHold = s.latchHold ∧ (s.onBank g).run = s.run ∧ (s.onBank g).core = s.core ∧
  (s.onBank g).saved = s.saved ∧ (s.onBank g).tile = s.tile ∧ (s.onBank g).opStore = s.opStore ∧ (s.onBank g).accStore = s.accStore ∧
  (s.onBank g).armed = s.armed ∧ (s.onBank g).unitCtx = s.unitCtx ∧ (s.onBank g).bank = g s.bank ∧ (s.onBank g).localMem = s.localMem ∧
  (s.onBank g).sharedMem = s.sharedMem ∧ (s.onBank g).tileMem = s.tileMem ∧ (s.onBank g).badWords = s.badWords ∧ (s.onBank g).stackMem = s.stackMem ∧
  (s.onBank g).window = s.window ∧ (s.onBank g).winFree = s.winFree ∧ (s.onBank g).health = s.health ∧ (s.onBank g).lb = s.lb ∧
  (s.onBank g).ecc = s.ecc ∧ (s.onBank g).eccReg = s.eccReg ∧ (s.onBank g).farMem = s.farMem ∧ (s.onBank g).farBad = s.farBad ∧
  (s.onBank g).hostMem = s.hostMem ∧ (s.onBank g).far = s.far ∧ (s.onBank g).job = s.job ∧ (s.onBank g).seq = s.seq ∧ (s.onBank g).page = s.page ∧
  (s.onBank g).calib = s.calib ∧ (s.onBank g).area = s.area ∧ (s.onBank g).req = s.req ∧ (s.onBank g).fab = s.fab ∧ (s.onBank g).port = s.port ∧
  (s.onBank g).plan = s.plan ∧ (s.onBank g).coll = s.coll ∧ (s.onBank g).wlog = s.wlog ∧ (s.onBank g).lvr = s.lvr ∧ (s.onBank g).therm = s.therm ∧
  (s.onBank g).gated = s.gated ∧ (s.onBank g).turn = s.turn ∧ (s.onBank g).wake = s.wake ∧ (s.onBank g).acc = s.acc ∧ (s.onBank g).proc = s.proc ∧
  (s.onBank g).fw = s.fw ∧ (s.onBank g).mgmt = s.mgmt ∧ (s.onBank g).out = s.out := by
  refine ⟨rfl, rfl, rfl, rfl, rfl, rfl, rfl, rfl, rfl, rfl, rfl, rfl, rfl, rfl, rfl, rfl, rfl, rfl, rfl, rfl, rfl, rfl, rfl, rfl, rfl, rfl, rfl, rfl, rfl, rfl, rfl, rfl, rfl, rfl, rfl, rfl, rfl, rfl, rfl, rfl, rfl, rfl, rfl, rfl, rfl, rfl, rfl, rfl, rfl, rfl, rfl, rfl, rfl, rfl, rfl, rfl, rfl, rfl, rfl, rfl, rfl, rfl, rfl, rfl⟩

@[simp] theorem State.onLocalMem_fields (s : State) (g : Mem → Mem) :
  (s.onLocalMem g).pending = s.pending ∧ (s.onLocalMem g).freeCtr = s.freeCtr ∧ (s.onLocalMem g).nextUid = s.nextUid ∧
  (s.onLocalMem g).fuse = s.fuse ∧ (s.onLocalMem g).pin = s.pin ∧ (s.onLocalMem g).dev = s.dev ∧ (s.onLocalMem g).fn = s.fn ∧
  (s.onLocalMem g).apw = s.apw ∧ (s.onLocalMem g).mbx = s.mbx ∧ (s.onLocalMem g).mbxBuf = s.mbxBuf ∧ (s.onLocalMem g).queue = s.queue ∧
  (s.onLocalMem g).cas = s.cas ∧ (s.onLocalMem g).ctx = s.ctx ∧ (s.onLocalMem g).alloc = s.alloc ∧ (s.onLocalMem g).fills = s.fills ∧
  (s.onLocalMem g).desc = s.desc ∧ (s.onLocalMem g).prog = s.prog ∧ (s.onLocalMem g).latch = s.latch ∧ (s.onLocalMem g).latchHold = s.latchHold ∧
  (s.onLocalMem g).run = s.run ∧ (s.onLocalMem g).core = s.core ∧ (s.onLocalMem g).saved = s.saved ∧ (s.onLocalMem g).tile = s.tile ∧
  (s.onLocalMem g).opStore = s.opStore ∧ (s.onLocalMem g).accStore = s.accStore ∧ (s.onLocalMem g).armed = s.armed ∧
  (s.onLocalMem g).unitCtx = s.unitCtx ∧ (s.onLocalMem g).bank = s.bank ∧ (s.onLocalMem g).localMem = g s.localMem ∧
  (s.onLocalMem g).sharedMem = s.sharedMem ∧ (s.onLocalMem g).tileMem = s.tileMem ∧ (s.onLocalMem g).badWords = s.badWords ∧
  (s.onLocalMem g).stackMem = s.stackMem ∧ (s.onLocalMem g).window = s.window ∧ (s.onLocalMem g).winFree = s.winFree ∧
  (s.onLocalMem g).health = s.health ∧ (s.onLocalMem g).lb = s.lb ∧ (s.onLocalMem g).ecc = s.ecc ∧ (s.onLocalMem g).eccReg = s.eccReg ∧
  (s.onLocalMem g).farMem = s.farMem ∧ (s.onLocalMem g).farBad = s.farBad ∧ (s.onLocalMem g).hostMem = s.hostMem ∧ (s.onLocalMem g).far = s.far ∧
  (s.onLocalMem g).job = s.job ∧ (s.onLocalMem g).seq = s.seq ∧ (s.onLocalMem g).page = s.page ∧ (s.onLocalMem g).calib = s.calib ∧
  (s.onLocalMem g).area = s.area ∧ (s.onLocalMem g).req = s.req ∧ (s.onLocalMem g).fab = s.fab ∧ (s.onLocalMem g).port = s.port ∧
  (s.onLocalMem g).plan = s.plan ∧ (s.onLocalMem g).coll = s.coll ∧ (s.onLocalMem g).wlog = s.wlog ∧ (s.onLocalMem g).lvr = s.lvr ∧
  (s.onLocalMem g).therm = s.therm ∧ (s.onLocalMem g).gated = s.gated ∧ (s.onLocalMem g).turn = s.turn ∧ (s.onLocalMem g).wake = s.wake ∧
  (s.onLocalMem g).acc = s.acc ∧ (s.onLocalMem g).proc = s.proc ∧ (s.onLocalMem g).fw = s.fw ∧ (s.onLocalMem g).mgmt = s.mgmt ∧
  (s.onLocalMem g).out = s.out := by
  refine ⟨rfl, rfl, rfl, rfl, rfl, rfl, rfl, rfl, rfl, rfl, rfl, rfl, rfl, rfl, rfl, rfl, rfl, rfl, rfl, rfl, rfl, rfl, rfl, rfl, rfl, rfl, rfl, rfl, rfl, rfl, rfl, rfl, rfl, rfl, rfl, rfl, rfl, rfl, rfl, rfl, rfl, rfl, rfl, rfl, rfl, rfl, rfl, rfl, rfl, rfl, rfl, rfl, rfl, rfl, rfl, rfl, rfl, rfl, rfl, rfl, rfl, rfl, rfl, rfl⟩

@[simp] theorem State.onSharedMem_fields (s : State) (g : Mem → Mem) :
  (s.onSharedMem g).pending = s.pending ∧ (s.onSharedMem g).freeCtr = s.freeCtr ∧ (s.onSharedMem g).nextUid = s.nextUid ∧
  (s.onSharedMem g).fuse = s.fuse ∧ (s.onSharedMem g).pin = s.pin ∧ (s.onSharedMem g).dev = s.dev ∧ (s.onSharedMem g).fn = s.fn ∧
  (s.onSharedMem g).apw = s.apw ∧ (s.onSharedMem g).mbx = s.mbx ∧ (s.onSharedMem g).mbxBuf = s.mbxBuf ∧ (s.onSharedMem g).queue = s.queue ∧
  (s.onSharedMem g).cas = s.cas ∧ (s.onSharedMem g).ctx = s.ctx ∧ (s.onSharedMem g).alloc = s.alloc ∧ (s.onSharedMem g).fills = s.fills ∧
  (s.onSharedMem g).desc = s.desc ∧ (s.onSharedMem g).prog = s.prog ∧ (s.onSharedMem g).latch = s.latch ∧ (s.onSharedMem g).latchHold = s.latchHold ∧
  (s.onSharedMem g).run = s.run ∧ (s.onSharedMem g).core = s.core ∧ (s.onSharedMem g).saved = s.saved ∧ (s.onSharedMem g).tile = s.tile ∧
  (s.onSharedMem g).opStore = s.opStore ∧ (s.onSharedMem g).accStore = s.accStore ∧ (s.onSharedMem g).armed = s.armed ∧
  (s.onSharedMem g).unitCtx = s.unitCtx ∧ (s.onSharedMem g).bank = s.bank ∧ (s.onSharedMem g).localMem = s.localMem ∧
  (s.onSharedMem g).sharedMem = g s.sharedMem ∧ (s.onSharedMem g).tileMem = s.tileMem ∧ (s.onSharedMem g).badWords = s.badWords ∧
  (s.onSharedMem g).stackMem = s.stackMem ∧ (s.onSharedMem g).window = s.window ∧ (s.onSharedMem g).winFree = s.winFree ∧
  (s.onSharedMem g).health = s.health ∧ (s.onSharedMem g).lb = s.lb ∧ (s.onSharedMem g).ecc = s.ecc ∧ (s.onSharedMem g).eccReg = s.eccReg ∧
  (s.onSharedMem g).farMem = s.farMem ∧ (s.onSharedMem g).farBad = s.farBad ∧ (s.onSharedMem g).hostMem = s.hostMem ∧ (s.onSharedMem g).far = s.far ∧
  (s.onSharedMem g).job = s.job ∧ (s.onSharedMem g).seq = s.seq ∧ (s.onSharedMem g).page = s.page ∧ (s.onSharedMem g).calib = s.calib ∧
  (s.onSharedMem g).area = s.area ∧ (s.onSharedMem g).req = s.req ∧ (s.onSharedMem g).fab = s.fab ∧ (s.onSharedMem g).port = s.port ∧
  (s.onSharedMem g).plan = s.plan ∧ (s.onSharedMem g).coll = s.coll ∧ (s.onSharedMem g).wlog = s.wlog ∧ (s.onSharedMem g).lvr = s.lvr ∧
  (s.onSharedMem g).therm = s.therm ∧ (s.onSharedMem g).gated = s.gated ∧ (s.onSharedMem g).turn = s.turn ∧ (s.onSharedMem g).wake = s.wake ∧
  (s.onSharedMem g).acc = s.acc ∧ (s.onSharedMem g).proc = s.proc ∧ (s.onSharedMem g).fw = s.fw ∧ (s.onSharedMem g).mgmt = s.mgmt ∧
  (s.onSharedMem g).out = s.out := by
  refine ⟨rfl, rfl, rfl, rfl, rfl, rfl, rfl, rfl, rfl, rfl, rfl, rfl, rfl, rfl, rfl, rfl, rfl, rfl, rfl, rfl, rfl, rfl, rfl, rfl, rfl, rfl, rfl, rfl, rfl, rfl, rfl, rfl, rfl, rfl, rfl, rfl, rfl, rfl, rfl, rfl, rfl, rfl, rfl, rfl, rfl, rfl, rfl, rfl, rfl, rfl, rfl, rfl, rfl, rfl, rfl, rfl, rfl, rfl, rfl, rfl, rfl, rfl, rfl, rfl⟩

@[simp] theorem State.onTileMem_fields (s : State) (g : Mem → Mem) :
  (s.onTileMem g).pending = s.pending ∧ (s.onTileMem g).freeCtr = s.freeCtr ∧ (s.onTileMem g).nextUid = s.nextUid ∧ (s.onTileMem g).fuse = s.fuse ∧
  (s.onTileMem g).pin = s.pin ∧ (s.onTileMem g).dev = s.dev ∧ (s.onTileMem g).fn = s.fn ∧ (s.onTileMem g).apw = s.apw ∧ (s.onTileMem g).mbx = s.mbx ∧
  (s.onTileMem g).mbxBuf = s.mbxBuf ∧ (s.onTileMem g).queue = s.queue ∧ (s.onTileMem g).cas = s.cas ∧ (s.onTileMem g).ctx = s.ctx ∧
  (s.onTileMem g).alloc = s.alloc ∧ (s.onTileMem g).fills = s.fills ∧ (s.onTileMem g).desc = s.desc ∧ (s.onTileMem g).prog = s.prog ∧
  (s.onTileMem g).latch = s.latch ∧ (s.onTileMem g).latchHold = s.latchHold ∧ (s.onTileMem g).run = s.run ∧ (s.onTileMem g).core = s.core ∧
  (s.onTileMem g).saved = s.saved ∧ (s.onTileMem g).tile = s.tile ∧ (s.onTileMem g).opStore = s.opStore ∧ (s.onTileMem g).accStore = s.accStore ∧
  (s.onTileMem g).armed = s.armed ∧ (s.onTileMem g).unitCtx = s.unitCtx ∧ (s.onTileMem g).bank = s.bank ∧ (s.onTileMem g).localMem = s.localMem ∧
  (s.onTileMem g).sharedMem = s.sharedMem ∧ (s.onTileMem g).tileMem = g s.tileMem ∧ (s.onTileMem g).badWords = s.badWords ∧
  (s.onTileMem g).stackMem = s.stackMem ∧ (s.onTileMem g).window = s.window ∧ (s.onTileMem g).winFree = s.winFree ∧
  (s.onTileMem g).health = s.health ∧ (s.onTileMem g).lb = s.lb ∧ (s.onTileMem g).ecc = s.ecc ∧ (s.onTileMem g).eccReg = s.eccReg ∧
  (s.onTileMem g).farMem = s.farMem ∧ (s.onTileMem g).farBad = s.farBad ∧ (s.onTileMem g).hostMem = s.hostMem ∧ (s.onTileMem g).far = s.far ∧
  (s.onTileMem g).job = s.job ∧ (s.onTileMem g).seq = s.seq ∧ (s.onTileMem g).page = s.page ∧ (s.onTileMem g).calib = s.calib ∧
  (s.onTileMem g).area = s.area ∧ (s.onTileMem g).req = s.req ∧ (s.onTileMem g).fab = s.fab ∧ (s.onTileMem g).port = s.port ∧
  (s.onTileMem g).plan = s.plan ∧ (s.onTileMem g).coll = s.coll ∧ (s.onTileMem g).wlog = s.wlog ∧ (s.onTileMem g).lvr = s.lvr ∧
  (s.onTileMem g).therm = s.therm ∧ (s.onTileMem g).gated = s.gated ∧ (s.onTileMem g).turn = s.turn ∧ (s.onTileMem g).wake = s.wake ∧
  (s.onTileMem g).acc = s.acc ∧ (s.onTileMem g).proc = s.proc ∧ (s.onTileMem g).fw = s.fw ∧ (s.onTileMem g).mgmt = s.mgmt ∧
  (s.onTileMem g).out = s.out := by
  refine ⟨rfl, rfl, rfl, rfl, rfl, rfl, rfl, rfl, rfl, rfl, rfl, rfl, rfl, rfl, rfl, rfl, rfl, rfl, rfl, rfl, rfl, rfl, rfl, rfl, rfl, rfl, rfl, rfl, rfl, rfl, rfl, rfl, rfl, rfl, rfl, rfl, rfl, rfl, rfl, rfl, rfl, rfl, rfl, rfl, rfl, rfl, rfl, rfl, rfl, rfl, rfl, rfl, rfl, rfl, rfl, rfl, rfl, rfl, rfl, rfl, rfl, rfl, rfl, rfl⟩

@[simp] theorem State.onBadWords_fields (s : State) (g : List Nat → List Nat) :
  (s.onBadWords g).pending = s.pending ∧ (s.onBadWords g).freeCtr = s.freeCtr ∧ (s.onBadWords g).nextUid = s.nextUid ∧
  (s.onBadWords g).fuse = s.fuse ∧ (s.onBadWords g).pin = s.pin ∧ (s.onBadWords g).dev = s.dev ∧ (s.onBadWords g).fn = s.fn ∧
  (s.onBadWords g).apw = s.apw ∧ (s.onBadWords g).mbx = s.mbx ∧ (s.onBadWords g).mbxBuf = s.mbxBuf ∧ (s.onBadWords g).queue = s.queue ∧
  (s.onBadWords g).cas = s.cas ∧ (s.onBadWords g).ctx = s.ctx ∧ (s.onBadWords g).alloc = s.alloc ∧ (s.onBadWords g).fills = s.fills ∧
  (s.onBadWords g).desc = s.desc ∧ (s.onBadWords g).prog = s.prog ∧ (s.onBadWords g).latch = s.latch ∧ (s.onBadWords g).latchHold = s.latchHold ∧
  (s.onBadWords g).run = s.run ∧ (s.onBadWords g).core = s.core ∧ (s.onBadWords g).saved = s.saved ∧ (s.onBadWords g).tile = s.tile ∧
  (s.onBadWords g).opStore = s.opStore ∧ (s.onBadWords g).accStore = s.accStore ∧ (s.onBadWords g).armed = s.armed ∧
  (s.onBadWords g).unitCtx = s.unitCtx ∧ (s.onBadWords g).bank = s.bank ∧ (s.onBadWords g).localMem = s.localMem ∧
  (s.onBadWords g).sharedMem = s.sharedMem ∧ (s.onBadWords g).tileMem = s.tileMem ∧ (s.onBadWords g).badWords = g s.badWords ∧
  (s.onBadWords g).stackMem = s.stackMem ∧ (s.onBadWords g).window = s.window ∧ (s.onBadWords g).winFree = s.winFree ∧
  (s.onBadWords g).health = s.health ∧ (s.onBadWords g).lb = s.lb ∧ (s.onBadWords g).ecc = s.ecc ∧ (s.onBadWords g).eccReg = s.eccReg ∧
  (s.onBadWords g).farMem = s.farMem ∧ (s.onBadWords g).farBad = s.farBad ∧ (s.onBadWords g).hostMem = s.hostMem ∧ (s.onBadWords g).far = s.far ∧
  (s.onBadWords g).job = s.job ∧ (s.onBadWords g).seq = s.seq ∧ (s.onBadWords g).page = s.page ∧ (s.onBadWords g).calib = s.calib ∧
  (s.onBadWords g).area = s.area ∧ (s.onBadWords g).req = s.req ∧ (s.onBadWords g).fab = s.fab ∧ (s.onBadWords g).port = s.port ∧
  (s.onBadWords g).plan = s.plan ∧ (s.onBadWords g).coll = s.coll ∧ (s.onBadWords g).wlog = s.wlog ∧ (s.onBadWords g).lvr = s.lvr ∧
  (s.onBadWords g).therm = s.therm ∧ (s.onBadWords g).gated = s.gated ∧ (s.onBadWords g).turn = s.turn ∧ (s.onBadWords g).wake = s.wake ∧
  (s.onBadWords g).acc = s.acc ∧ (s.onBadWords g).proc = s.proc ∧ (s.onBadWords g).fw = s.fw ∧ (s.onBadWords g).mgmt = s.mgmt ∧
  (s.onBadWords g).out = s.out := by
  refine ⟨rfl, rfl, rfl, rfl, rfl, rfl, rfl, rfl, rfl, rfl, rfl, rfl, rfl, rfl, rfl, rfl, rfl, rfl, rfl, rfl, rfl, rfl, rfl, rfl, rfl, rfl, rfl, rfl, rfl, rfl, rfl, rfl, rfl, rfl, rfl, rfl, rfl, rfl, rfl, rfl, rfl, rfl, rfl, rfl, rfl, rfl, rfl, rfl, rfl, rfl, rfl, rfl, rfl, rfl, rfl, rfl, rfl, rfl, rfl, rfl, rfl, rfl, rfl, rfl⟩

@[simp] theorem State.onStackMem_fields (s : State) (g : Mem → Mem) :
  (s.onStackMem g).pending = s.pending ∧ (s.onStackMem g).freeCtr = s.freeCtr ∧ (s.onStackMem g).nextUid = s.nextUid ∧
  (s.onStackMem g).fuse = s.fuse ∧ (s.onStackMem g).pin = s.pin ∧ (s.onStackMem g).dev = s.dev ∧ (s.onStackMem g).fn = s.fn ∧
  (s.onStackMem g).apw = s.apw ∧ (s.onStackMem g).mbx = s.mbx ∧ (s.onStackMem g).mbxBuf = s.mbxBuf ∧ (s.onStackMem g).queue = s.queue ∧
  (s.onStackMem g).cas = s.cas ∧ (s.onStackMem g).ctx = s.ctx ∧ (s.onStackMem g).alloc = s.alloc ∧ (s.onStackMem g).fills = s.fills ∧
  (s.onStackMem g).desc = s.desc ∧ (s.onStackMem g).prog = s.prog ∧ (s.onStackMem g).latch = s.latch ∧ (s.onStackMem g).latchHold = s.latchHold ∧
  (s.onStackMem g).run = s.run ∧ (s.onStackMem g).core = s.core ∧ (s.onStackMem g).saved = s.saved ∧ (s.onStackMem g).tile = s.tile ∧
  (s.onStackMem g).opStore = s.opStore ∧ (s.onStackMem g).accStore = s.accStore ∧ (s.onStackMem g).armed = s.armed ∧
  (s.onStackMem g).unitCtx = s.unitCtx ∧ (s.onStackMem g).bank = s.bank ∧ (s.onStackMem g).localMem = s.localMem ∧
  (s.onStackMem g).sharedMem = s.sharedMem ∧ (s.onStackMem g).tileMem = s.tileMem ∧ (s.onStackMem g).badWords = s.badWords ∧
  (s.onStackMem g).stackMem = g s.stackMem ∧ (s.onStackMem g).window = s.window ∧ (s.onStackMem g).winFree = s.winFree ∧
  (s.onStackMem g).health = s.health ∧ (s.onStackMem g).lb = s.lb ∧ (s.onStackMem g).ecc = s.ecc ∧ (s.onStackMem g).eccReg = s.eccReg ∧
  (s.onStackMem g).farMem = s.farMem ∧ (s.onStackMem g).farBad = s.farBad ∧ (s.onStackMem g).hostMem = s.hostMem ∧ (s.onStackMem g).far = s.far ∧
  (s.onStackMem g).job = s.job ∧ (s.onStackMem g).seq = s.seq ∧ (s.onStackMem g).page = s.page ∧ (s.onStackMem g).calib = s.calib ∧
  (s.onStackMem g).area = s.area ∧ (s.onStackMem g).req = s.req ∧ (s.onStackMem g).fab = s.fab ∧ (s.onStackMem g).port = s.port ∧
  (s.onStackMem g).plan = s.plan ∧ (s.onStackMem g).coll = s.coll ∧ (s.onStackMem g).wlog = s.wlog ∧ (s.onStackMem g).lvr = s.lvr ∧
  (s.onStackMem g).therm = s.therm ∧ (s.onStackMem g).gated = s.gated ∧ (s.onStackMem g).turn = s.turn ∧ (s.onStackMem g).wake = s.wake ∧
  (s.onStackMem g).acc = s.acc ∧ (s.onStackMem g).proc = s.proc ∧ (s.onStackMem g).fw = s.fw ∧ (s.onStackMem g).mgmt = s.mgmt ∧
  (s.onStackMem g).out = s.out := by
  refine ⟨rfl, rfl, rfl, rfl, rfl, rfl, rfl, rfl, rfl, rfl, rfl, rfl, rfl, rfl, rfl, rfl, rfl, rfl, rfl, rfl, rfl, rfl, rfl, rfl, rfl, rfl, rfl, rfl, rfl, rfl, rfl, rfl, rfl, rfl, rfl, rfl, rfl, rfl, rfl, rfl, rfl, rfl, rfl, rfl, rfl, rfl, rfl, rfl, rfl, rfl, rfl, rfl, rfl, rfl, rfl, rfl, rfl, rfl, rfl, rfl, rfl, rfl, rfl, rfl⟩

@[simp] theorem State.onWindow_fields (s : State) (g : Tbl (List Byte × List Byte) → Tbl (List Byte × List Byte)) :
  (s.onWindow g).pending = s.pending ∧ (s.onWindow g).freeCtr = s.freeCtr ∧ (s.onWindow g).nextUid = s.nextUid ∧ (s.onWindow g).fuse = s.fuse ∧
  (s.onWindow g).pin = s.pin ∧ (s.onWindow g).dev = s.dev ∧ (s.onWindow g).fn = s.fn ∧ (s.onWindow g).apw = s.apw ∧ (s.onWindow g).mbx = s.mbx ∧
  (s.onWindow g).mbxBuf = s.mbxBuf ∧ (s.onWindow g).queue = s.queue ∧ (s.onWindow g).cas = s.cas ∧ (s.onWindow g).ctx = s.ctx ∧
  (s.onWindow g).alloc = s.alloc ∧ (s.onWindow g).fills = s.fills ∧ (s.onWindow g).desc = s.desc ∧ (s.onWindow g).prog = s.prog ∧
  (s.onWindow g).latch = s.latch ∧ (s.onWindow g).latchHold = s.latchHold ∧ (s.onWindow g).run = s.run ∧ (s.onWindow g).core = s.core ∧
  (s.onWindow g).saved = s.saved ∧ (s.onWindow g).tile = s.tile ∧ (s.onWindow g).opStore = s.opStore ∧ (s.onWindow g).accStore = s.accStore ∧
  (s.onWindow g).armed = s.armed ∧ (s.onWindow g).unitCtx = s.unitCtx ∧ (s.onWindow g).bank = s.bank ∧ (s.onWindow g).localMem = s.localMem ∧
  (s.onWindow g).sharedMem = s.sharedMem ∧ (s.onWindow g).tileMem = s.tileMem ∧ (s.onWindow g).badWords = s.badWords ∧
  (s.onWindow g).stackMem = s.stackMem ∧ (s.onWindow g).window = g s.window ∧ (s.onWindow g).winFree = s.winFree ∧ (s.onWindow g).health = s.health ∧
  (s.onWindow g).lb = s.lb ∧ (s.onWindow g).ecc = s.ecc ∧ (s.onWindow g).eccReg = s.eccReg ∧ (s.onWindow g).farMem = s.farMem ∧
  (s.onWindow g).farBad = s.farBad ∧ (s.onWindow g).hostMem = s.hostMem ∧ (s.onWindow g).far = s.far ∧ (s.onWindow g).job = s.job ∧
  (s.onWindow g).seq = s.seq ∧ (s.onWindow g).page = s.page ∧ (s.onWindow g).calib = s.calib ∧ (s.onWindow g).area = s.area ∧
  (s.onWindow g).req = s.req ∧ (s.onWindow g).fab = s.fab ∧ (s.onWindow g).port = s.port ∧ (s.onWindow g).plan = s.plan ∧
  (s.onWindow g).coll = s.coll ∧ (s.onWindow g).wlog = s.wlog ∧ (s.onWindow g).lvr = s.lvr ∧ (s.onWindow g).therm = s.therm ∧
  (s.onWindow g).gated = s.gated ∧ (s.onWindow g).turn = s.turn ∧ (s.onWindow g).wake = s.wake ∧ (s.onWindow g).acc = s.acc ∧
  (s.onWindow g).proc = s.proc ∧ (s.onWindow g).fw = s.fw ∧ (s.onWindow g).mgmt = s.mgmt ∧ (s.onWindow g).out = s.out := by
  refine ⟨rfl, rfl, rfl, rfl, rfl, rfl, rfl, rfl, rfl, rfl, rfl, rfl, rfl, rfl, rfl, rfl, rfl, rfl, rfl, rfl, rfl, rfl, rfl, rfl, rfl, rfl, rfl, rfl, rfl, rfl, rfl, rfl, rfl, rfl, rfl, rfl, rfl, rfl, rfl, rfl, rfl, rfl, rfl, rfl, rfl, rfl, rfl, rfl, rfl, rfl, rfl, rfl, rfl, rfl, rfl, rfl, rfl, rfl, rfl, rfl, rfl, rfl, rfl, rfl⟩

@[simp] theorem State.onWinFree_fields (s : State) (g : Tbl Nat → Tbl Nat) :
  (s.onWinFree g).pending = s.pending ∧ (s.onWinFree g).freeCtr = s.freeCtr ∧ (s.onWinFree g).nextUid = s.nextUid ∧ (s.onWinFree g).fuse = s.fuse ∧
  (s.onWinFree g).pin = s.pin ∧ (s.onWinFree g).dev = s.dev ∧ (s.onWinFree g).fn = s.fn ∧ (s.onWinFree g).apw = s.apw ∧ (s.onWinFree g).mbx = s.mbx ∧
  (s.onWinFree g).mbxBuf = s.mbxBuf ∧ (s.onWinFree g).queue = s.queue ∧ (s.onWinFree g).cas = s.cas ∧ (s.onWinFree g).ctx = s.ctx ∧
  (s.onWinFree g).alloc = s.alloc ∧ (s.onWinFree g).fills = s.fills ∧ (s.onWinFree g).desc = s.desc ∧ (s.onWinFree g).prog = s.prog ∧
  (s.onWinFree g).latch = s.latch ∧ (s.onWinFree g).latchHold = s.latchHold ∧ (s.onWinFree g).run = s.run ∧ (s.onWinFree g).core = s.core ∧
  (s.onWinFree g).saved = s.saved ∧ (s.onWinFree g).tile = s.tile ∧ (s.onWinFree g).opStore = s.opStore ∧ (s.onWinFree g).accStore = s.accStore ∧
  (s.onWinFree g).armed = s.armed ∧ (s.onWinFree g).unitCtx = s.unitCtx ∧ (s.onWinFree g).bank = s.bank ∧ (s.onWinFree g).localMem = s.localMem ∧
  (s.onWinFree g).sharedMem = s.sharedMem ∧ (s.onWinFree g).tileMem = s.tileMem ∧ (s.onWinFree g).badWords = s.badWords ∧
  (s.onWinFree g).stackMem = s.stackMem ∧ (s.onWinFree g).window = s.window ∧ (s.onWinFree g).winFree = g s.winFree ∧
  (s.onWinFree g).health = s.health ∧ (s.onWinFree g).lb = s.lb ∧ (s.onWinFree g).ecc = s.ecc ∧ (s.onWinFree g).eccReg = s.eccReg ∧
  (s.onWinFree g).farMem = s.farMem ∧ (s.onWinFree g).farBad = s.farBad ∧ (s.onWinFree g).hostMem = s.hostMem ∧ (s.onWinFree g).far = s.far ∧
  (s.onWinFree g).job = s.job ∧ (s.onWinFree g).seq = s.seq ∧ (s.onWinFree g).page = s.page ∧ (s.onWinFree g).calib = s.calib ∧
  (s.onWinFree g).area = s.area ∧ (s.onWinFree g).req = s.req ∧ (s.onWinFree g).fab = s.fab ∧ (s.onWinFree g).port = s.port ∧
  (s.onWinFree g).plan = s.plan ∧ (s.onWinFree g).coll = s.coll ∧ (s.onWinFree g).wlog = s.wlog ∧ (s.onWinFree g).lvr = s.lvr ∧
  (s.onWinFree g).therm = s.therm ∧ (s.onWinFree g).gated = s.gated ∧ (s.onWinFree g).turn = s.turn ∧ (s.onWinFree g).wake = s.wake ∧
  (s.onWinFree g).acc = s.acc ∧ (s.onWinFree g).proc = s.proc ∧ (s.onWinFree g).fw = s.fw ∧ (s.onWinFree g).mgmt = s.mgmt ∧
  (s.onWinFree g).out = s.out := by
  refine ⟨rfl, rfl, rfl, rfl, rfl, rfl, rfl, rfl, rfl, rfl, rfl, rfl, rfl, rfl, rfl, rfl, rfl, rfl, rfl, rfl, rfl, rfl, rfl, rfl, rfl, rfl, rfl, rfl, rfl, rfl, rfl, rfl, rfl, rfl, rfl, rfl, rfl, rfl, rfl, rfl, rfl, rfl, rfl, rfl, rfl, rfl, rfl, rfl, rfl, rfl, rfl, rfl, rfl, rfl, rfl, rfl, rfl, rfl, rfl, rfl, rfl, rfl, rfl, rfl⟩

@[simp] theorem State.onHealth_fields (s : State) (g : Tbl Health → Tbl Health) :
  (s.onHealth g).pending = s.pending ∧ (s.onHealth g).freeCtr = s.freeCtr ∧ (s.onHealth g).nextUid = s.nextUid ∧ (s.onHealth g).fuse = s.fuse ∧
  (s.onHealth g).pin = s.pin ∧ (s.onHealth g).dev = s.dev ∧ (s.onHealth g).fn = s.fn ∧ (s.onHealth g).apw = s.apw ∧ (s.onHealth g).mbx = s.mbx ∧
  (s.onHealth g).mbxBuf = s.mbxBuf ∧ (s.onHealth g).queue = s.queue ∧ (s.onHealth g).cas = s.cas ∧ (s.onHealth g).ctx = s.ctx ∧
  (s.onHealth g).alloc = s.alloc ∧ (s.onHealth g).fills = s.fills ∧ (s.onHealth g).desc = s.desc ∧ (s.onHealth g).prog = s.prog ∧
  (s.onHealth g).latch = s.latch ∧ (s.onHealth g).latchHold = s.latchHold ∧ (s.onHealth g).run = s.run ∧ (s.onHealth g).core = s.core ∧
  (s.onHealth g).saved = s.saved ∧ (s.onHealth g).tile = s.tile ∧ (s.onHealth g).opStore = s.opStore ∧ (s.onHealth g).accStore = s.accStore ∧
  (s.onHealth g).armed = s.armed ∧ (s.onHealth g).unitCtx = s.unitCtx ∧ (s.onHealth g).bank = s.bank ∧ (s.onHealth g).localMem = s.localMem ∧
  (s.onHealth g).sharedMem = s.sharedMem ∧ (s.onHealth g).tileMem = s.tileMem ∧ (s.onHealth g).badWords = s.badWords ∧
  (s.onHealth g).stackMem = s.stackMem ∧ (s.onHealth g).window = s.window ∧ (s.onHealth g).winFree = s.winFree ∧ (s.onHealth g).health = g s.health ∧
  (s.onHealth g).lb = s.lb ∧ (s.onHealth g).ecc = s.ecc ∧ (s.onHealth g).eccReg = s.eccReg ∧ (s.onHealth g).farMem = s.farMem ∧
  (s.onHealth g).farBad = s.farBad ∧ (s.onHealth g).hostMem = s.hostMem ∧ (s.onHealth g).far = s.far ∧ (s.onHealth g).job = s.job ∧
  (s.onHealth g).seq = s.seq ∧ (s.onHealth g).page = s.page ∧ (s.onHealth g).calib = s.calib ∧ (s.onHealth g).area = s.area ∧
  (s.onHealth g).req = s.req ∧ (s.onHealth g).fab = s.fab ∧ (s.onHealth g).port = s.port ∧ (s.onHealth g).plan = s.plan ∧
  (s.onHealth g).coll = s.coll ∧ (s.onHealth g).wlog = s.wlog ∧ (s.onHealth g).lvr = s.lvr ∧ (s.onHealth g).therm = s.therm ∧
  (s.onHealth g).gated = s.gated ∧ (s.onHealth g).turn = s.turn ∧ (s.onHealth g).wake = s.wake ∧ (s.onHealth g).acc = s.acc ∧
  (s.onHealth g).proc = s.proc ∧ (s.onHealth g).fw = s.fw ∧ (s.onHealth g).mgmt = s.mgmt ∧ (s.onHealth g).out = s.out := by
  refine ⟨rfl, rfl, rfl, rfl, rfl, rfl, rfl, rfl, rfl, rfl, rfl, rfl, rfl, rfl, rfl, rfl, rfl, rfl, rfl, rfl, rfl, rfl, rfl, rfl, rfl, rfl, rfl, rfl, rfl, rfl, rfl, rfl, rfl, rfl, rfl, rfl, rfl, rfl, rfl, rfl, rfl, rfl, rfl, rfl, rfl, rfl, rfl, rfl, rfl, rfl, rfl, rfl, rfl, rfl, rfl, rfl, rfl, rfl, rfl, rfl, rfl, rfl, rfl, rfl⟩

@[simp] theorem State.onLb_fields (s : State) (g : Tbl Lb → Tbl Lb) :
  (s.onLb g).pending = s.pending ∧ (s.onLb g).freeCtr = s.freeCtr ∧ (s.onLb g).nextUid = s.nextUid ∧ (s.onLb g).fuse = s.fuse ∧
  (s.onLb g).pin = s.pin ∧ (s.onLb g).dev = s.dev ∧ (s.onLb g).fn = s.fn ∧ (s.onLb g).apw = s.apw ∧ (s.onLb g).mbx = s.mbx ∧
  (s.onLb g).mbxBuf = s.mbxBuf ∧ (s.onLb g).queue = s.queue ∧ (s.onLb g).cas = s.cas ∧ (s.onLb g).ctx = s.ctx ∧ (s.onLb g).alloc = s.alloc ∧
  (s.onLb g).fills = s.fills ∧ (s.onLb g).desc = s.desc ∧ (s.onLb g).prog = s.prog ∧ (s.onLb g).latch = s.latch ∧
  (s.onLb g).latchHold = s.latchHold ∧ (s.onLb g).run = s.run ∧ (s.onLb g).core = s.core ∧ (s.onLb g).saved = s.saved ∧ (s.onLb g).tile = s.tile ∧
  (s.onLb g).opStore = s.opStore ∧ (s.onLb g).accStore = s.accStore ∧ (s.onLb g).armed = s.armed ∧ (s.onLb g).unitCtx = s.unitCtx ∧
  (s.onLb g).bank = s.bank ∧ (s.onLb g).localMem = s.localMem ∧ (s.onLb g).sharedMem = s.sharedMem ∧ (s.onLb g).tileMem = s.tileMem ∧
  (s.onLb g).badWords = s.badWords ∧ (s.onLb g).stackMem = s.stackMem ∧ (s.onLb g).window = s.window ∧ (s.onLb g).winFree = s.winFree ∧
  (s.onLb g).health = s.health ∧ (s.onLb g).lb = g s.lb ∧ (s.onLb g).ecc = s.ecc ∧ (s.onLb g).eccReg = s.eccReg ∧ (s.onLb g).farMem = s.farMem ∧
  (s.onLb g).farBad = s.farBad ∧ (s.onLb g).hostMem = s.hostMem ∧ (s.onLb g).far = s.far ∧ (s.onLb g).job = s.job ∧ (s.onLb g).seq = s.seq ∧
  (s.onLb g).page = s.page ∧ (s.onLb g).calib = s.calib ∧ (s.onLb g).area = s.area ∧ (s.onLb g).req = s.req ∧ (s.onLb g).fab = s.fab ∧
  (s.onLb g).port = s.port ∧ (s.onLb g).plan = s.plan ∧ (s.onLb g).coll = s.coll ∧ (s.onLb g).wlog = s.wlog ∧ (s.onLb g).lvr = s.lvr ∧
  (s.onLb g).therm = s.therm ∧ (s.onLb g).gated = s.gated ∧ (s.onLb g).turn = s.turn ∧ (s.onLb g).wake = s.wake ∧ (s.onLb g).acc = s.acc ∧
  (s.onLb g).proc = s.proc ∧ (s.onLb g).fw = s.fw ∧ (s.onLb g).mgmt = s.mgmt ∧ (s.onLb g).out = s.out := by
  refine ⟨rfl, rfl, rfl, rfl, rfl, rfl, rfl, rfl, rfl, rfl, rfl, rfl, rfl, rfl, rfl, rfl, rfl, rfl, rfl, rfl, rfl, rfl, rfl, rfl, rfl, rfl, rfl, rfl, rfl, rfl, rfl, rfl, rfl, rfl, rfl, rfl, rfl, rfl, rfl, rfl, rfl, rfl, rfl, rfl, rfl, rfl, rfl, rfl, rfl, rfl, rfl, rfl, rfl, rfl, rfl, rfl, rfl, rfl, rfl, rfl, rfl, rfl, rfl, rfl⟩

@[simp] theorem State.onEcc_fields (s : State) (g : Tbl EccStack → Tbl EccStack) :
  (s.onEcc g).pending = s.pending ∧ (s.onEcc g).freeCtr = s.freeCtr ∧ (s.onEcc g).nextUid = s.nextUid ∧ (s.onEcc g).fuse = s.fuse ∧
  (s.onEcc g).pin = s.pin ∧ (s.onEcc g).dev = s.dev ∧ (s.onEcc g).fn = s.fn ∧ (s.onEcc g).apw = s.apw ∧ (s.onEcc g).mbx = s.mbx ∧
  (s.onEcc g).mbxBuf = s.mbxBuf ∧ (s.onEcc g).queue = s.queue ∧ (s.onEcc g).cas = s.cas ∧ (s.onEcc g).ctx = s.ctx ∧ (s.onEcc g).alloc = s.alloc ∧
  (s.onEcc g).fills = s.fills ∧ (s.onEcc g).desc = s.desc ∧ (s.onEcc g).prog = s.prog ∧ (s.onEcc g).latch = s.latch ∧
  (s.onEcc g).latchHold = s.latchHold ∧ (s.onEcc g).run = s.run ∧ (s.onEcc g).core = s.core ∧ (s.onEcc g).saved = s.saved ∧
  (s.onEcc g).tile = s.tile ∧ (s.onEcc g).opStore = s.opStore ∧ (s.onEcc g).accStore = s.accStore ∧ (s.onEcc g).armed = s.armed ∧
  (s.onEcc g).unitCtx = s.unitCtx ∧ (s.onEcc g).bank = s.bank ∧ (s.onEcc g).localMem = s.localMem ∧ (s.onEcc g).sharedMem = s.sharedMem ∧
  (s.onEcc g).tileMem = s.tileMem ∧ (s.onEcc g).badWords = s.badWords ∧ (s.onEcc g).stackMem = s.stackMem ∧ (s.onEcc g).window = s.window ∧
  (s.onEcc g).winFree = s.winFree ∧ (s.onEcc g).health = s.health ∧ (s.onEcc g).lb = s.lb ∧ (s.onEcc g).ecc = g s.ecc ∧
  (s.onEcc g).eccReg = s.eccReg ∧ (s.onEcc g).farMem = s.farMem ∧ (s.onEcc g).farBad = s.farBad ∧ (s.onEcc g).hostMem = s.hostMem ∧
  (s.onEcc g).far = s.far ∧ (s.onEcc g).job = s.job ∧ (s.onEcc g).seq = s.seq ∧ (s.onEcc g).page = s.page ∧ (s.onEcc g).calib = s.calib ∧
  (s.onEcc g).area = s.area ∧ (s.onEcc g).req = s.req ∧ (s.onEcc g).fab = s.fab ∧ (s.onEcc g).port = s.port ∧ (s.onEcc g).plan = s.plan ∧
  (s.onEcc g).coll = s.coll ∧ (s.onEcc g).wlog = s.wlog ∧ (s.onEcc g).lvr = s.lvr ∧ (s.onEcc g).therm = s.therm ∧ (s.onEcc g).gated = s.gated ∧
  (s.onEcc g).turn = s.turn ∧ (s.onEcc g).wake = s.wake ∧ (s.onEcc g).acc = s.acc ∧ (s.onEcc g).proc = s.proc ∧ (s.onEcc g).fw = s.fw ∧
  (s.onEcc g).mgmt = s.mgmt ∧ (s.onEcc g).out = s.out := by
  refine ⟨rfl, rfl, rfl, rfl, rfl, rfl, rfl, rfl, rfl, rfl, rfl, rfl, rfl, rfl, rfl, rfl, rfl, rfl, rfl, rfl, rfl, rfl, rfl, rfl, rfl, rfl, rfl, rfl, rfl, rfl, rfl, rfl, rfl, rfl, rfl, rfl, rfl, rfl, rfl, rfl, rfl, rfl, rfl, rfl, rfl, rfl, rfl, rfl, rfl, rfl, rfl, rfl, rfl, rfl, rfl, rfl, rfl, rfl, rfl, rfl, rfl, rfl, rfl, rfl⟩

@[simp] theorem State.onEccReg_fields (s : State) (g : EccReg → EccReg) :
  (s.onEccReg g).pending = s.pending ∧ (s.onEccReg g).freeCtr = s.freeCtr ∧ (s.onEccReg g).nextUid = s.nextUid ∧ (s.onEccReg g).fuse = s.fuse ∧
  (s.onEccReg g).pin = s.pin ∧ (s.onEccReg g).dev = s.dev ∧ (s.onEccReg g).fn = s.fn ∧ (s.onEccReg g).apw = s.apw ∧ (s.onEccReg g).mbx = s.mbx ∧
  (s.onEccReg g).mbxBuf = s.mbxBuf ∧ (s.onEccReg g).queue = s.queue ∧ (s.onEccReg g).cas = s.cas ∧ (s.onEccReg g).ctx = s.ctx ∧
  (s.onEccReg g).alloc = s.alloc ∧ (s.onEccReg g).fills = s.fills ∧ (s.onEccReg g).desc = s.desc ∧ (s.onEccReg g).prog = s.prog ∧
  (s.onEccReg g).latch = s.latch ∧ (s.onEccReg g).latchHold = s.latchHold ∧ (s.onEccReg g).run = s.run ∧ (s.onEccReg g).core = s.core ∧
  (s.onEccReg g).saved = s.saved ∧ (s.onEccReg g).tile = s.tile ∧ (s.onEccReg g).opStore = s.opStore ∧ (s.onEccReg g).accStore = s.accStore ∧
  (s.onEccReg g).armed = s.armed ∧ (s.onEccReg g).unitCtx = s.unitCtx ∧ (s.onEccReg g).bank = s.bank ∧ (s.onEccReg g).localMem = s.localMem ∧
  (s.onEccReg g).sharedMem = s.sharedMem ∧ (s.onEccReg g).tileMem = s.tileMem ∧ (s.onEccReg g).badWords = s.badWords ∧
  (s.onEccReg g).stackMem = s.stackMem ∧ (s.onEccReg g).window = s.window ∧ (s.onEccReg g).winFree = s.winFree ∧ (s.onEccReg g).health = s.health ∧
  (s.onEccReg g).lb = s.lb ∧ (s.onEccReg g).ecc = s.ecc ∧ (s.onEccReg g).eccReg = g s.eccReg ∧ (s.onEccReg g).farMem = s.farMem ∧
  (s.onEccReg g).farBad = s.farBad ∧ (s.onEccReg g).hostMem = s.hostMem ∧ (s.onEccReg g).far = s.far ∧ (s.onEccReg g).job = s.job ∧
  (s.onEccReg g).seq = s.seq ∧ (s.onEccReg g).page = s.page ∧ (s.onEccReg g).calib = s.calib ∧ (s.onEccReg g).area = s.area ∧
  (s.onEccReg g).req = s.req ∧ (s.onEccReg g).fab = s.fab ∧ (s.onEccReg g).port = s.port ∧ (s.onEccReg g).plan = s.plan ∧
  (s.onEccReg g).coll = s.coll ∧ (s.onEccReg g).wlog = s.wlog ∧ (s.onEccReg g).lvr = s.lvr ∧ (s.onEccReg g).therm = s.therm ∧
  (s.onEccReg g).gated = s.gated ∧ (s.onEccReg g).turn = s.turn ∧ (s.onEccReg g).wake = s.wake ∧ (s.onEccReg g).acc = s.acc ∧
  (s.onEccReg g).proc = s.proc ∧ (s.onEccReg g).fw = s.fw ∧ (s.onEccReg g).mgmt = s.mgmt ∧ (s.onEccReg g).out = s.out := by
  refine ⟨rfl, rfl, rfl, rfl, rfl, rfl, rfl, rfl, rfl, rfl, rfl, rfl, rfl, rfl, rfl, rfl, rfl, rfl, rfl, rfl, rfl, rfl, rfl, rfl, rfl, rfl, rfl, rfl, rfl, rfl, rfl, rfl, rfl, rfl, rfl, rfl, rfl, rfl, rfl, rfl, rfl, rfl, rfl, rfl, rfl, rfl, rfl, rfl, rfl, rfl, rfl, rfl, rfl, rfl, rfl, rfl, rfl, rfl, rfl, rfl, rfl, rfl, rfl, rfl⟩

@[simp] theorem State.onFarMem_fields (s : State) (g : Mem → Mem) :
  (s.onFarMem g).pending = s.pending ∧ (s.onFarMem g).freeCtr = s.freeCtr ∧ (s.onFarMem g).nextUid = s.nextUid ∧ (s.onFarMem g).fuse = s.fuse ∧
  (s.onFarMem g).pin = s.pin ∧ (s.onFarMem g).dev = s.dev ∧ (s.onFarMem g).fn = s.fn ∧ (s.onFarMem g).apw = s.apw ∧ (s.onFarMem g).mbx = s.mbx ∧
  (s.onFarMem g).mbxBuf = s.mbxBuf ∧ (s.onFarMem g).queue = s.queue ∧ (s.onFarMem g).cas = s.cas ∧ (s.onFarMem g).ctx = s.ctx ∧
  (s.onFarMem g).alloc = s.alloc ∧ (s.onFarMem g).fills = s.fills ∧ (s.onFarMem g).desc = s.desc ∧ (s.onFarMem g).prog = s.prog ∧
  (s.onFarMem g).latch = s.latch ∧ (s.onFarMem g).latchHold = s.latchHold ∧ (s.onFarMem g).run = s.run ∧ (s.onFarMem g).core = s.core ∧
  (s.onFarMem g).saved = s.saved ∧ (s.onFarMem g).tile = s.tile ∧ (s.onFarMem g).opStore = s.opStore ∧ (s.onFarMem g).accStore = s.accStore ∧
  (s.onFarMem g).armed = s.armed ∧ (s.onFarMem g).unitCtx = s.unitCtx ∧ (s.onFarMem g).bank = s.bank ∧ (s.onFarMem g).localMem = s.localMem ∧
  (s.onFarMem g).sharedMem = s.sharedMem ∧ (s.onFarMem g).tileMem = s.tileMem ∧ (s.onFarMem g).badWords = s.badWords ∧
  (s.onFarMem g).stackMem = s.stackMem ∧ (s.onFarMem g).window = s.window ∧ (s.onFarMem g).winFree = s.winFree ∧ (s.onFarMem g).health = s.health ∧
  (s.onFarMem g).lb = s.lb ∧ (s.onFarMem g).ecc = s.ecc ∧ (s.onFarMem g).eccReg = s.eccReg ∧ (s.onFarMem g).farMem = g s.farMem ∧
  (s.onFarMem g).farBad = s.farBad ∧ (s.onFarMem g).hostMem = s.hostMem ∧ (s.onFarMem g).far = s.far ∧ (s.onFarMem g).job = s.job ∧
  (s.onFarMem g).seq = s.seq ∧ (s.onFarMem g).page = s.page ∧ (s.onFarMem g).calib = s.calib ∧ (s.onFarMem g).area = s.area ∧
  (s.onFarMem g).req = s.req ∧ (s.onFarMem g).fab = s.fab ∧ (s.onFarMem g).port = s.port ∧ (s.onFarMem g).plan = s.plan ∧
  (s.onFarMem g).coll = s.coll ∧ (s.onFarMem g).wlog = s.wlog ∧ (s.onFarMem g).lvr = s.lvr ∧ (s.onFarMem g).therm = s.therm ∧
  (s.onFarMem g).gated = s.gated ∧ (s.onFarMem g).turn = s.turn ∧ (s.onFarMem g).wake = s.wake ∧ (s.onFarMem g).acc = s.acc ∧
  (s.onFarMem g).proc = s.proc ∧ (s.onFarMem g).fw = s.fw ∧ (s.onFarMem g).mgmt = s.mgmt ∧ (s.onFarMem g).out = s.out := by
  refine ⟨rfl, rfl, rfl, rfl, rfl, rfl, rfl, rfl, rfl, rfl, rfl, rfl, rfl, rfl, rfl, rfl, rfl, rfl, rfl, rfl, rfl, rfl, rfl, rfl, rfl, rfl, rfl, rfl, rfl, rfl, rfl, rfl, rfl, rfl, rfl, rfl, rfl, rfl, rfl, rfl, rfl, rfl, rfl, rfl, rfl, rfl, rfl, rfl, rfl, rfl, rfl, rfl, rfl, rfl, rfl, rfl, rfl, rfl, rfl, rfl, rfl, rfl, rfl, rfl⟩

@[simp] theorem State.onFarBad_fields (s : State) (g : List Nat → List Nat) :
  (s.onFarBad g).pending = s.pending ∧ (s.onFarBad g).freeCtr = s.freeCtr ∧ (s.onFarBad g).nextUid = s.nextUid ∧ (s.onFarBad g).fuse = s.fuse ∧
  (s.onFarBad g).pin = s.pin ∧ (s.onFarBad g).dev = s.dev ∧ (s.onFarBad g).fn = s.fn ∧ (s.onFarBad g).apw = s.apw ∧ (s.onFarBad g).mbx = s.mbx ∧
  (s.onFarBad g).mbxBuf = s.mbxBuf ∧ (s.onFarBad g).queue = s.queue ∧ (s.onFarBad g).cas = s.cas ∧ (s.onFarBad g).ctx = s.ctx ∧
  (s.onFarBad g).alloc = s.alloc ∧ (s.onFarBad g).fills = s.fills ∧ (s.onFarBad g).desc = s.desc ∧ (s.onFarBad g).prog = s.prog ∧
  (s.onFarBad g).latch = s.latch ∧ (s.onFarBad g).latchHold = s.latchHold ∧ (s.onFarBad g).run = s.run ∧ (s.onFarBad g).core = s.core ∧
  (s.onFarBad g).saved = s.saved ∧ (s.onFarBad g).tile = s.tile ∧ (s.onFarBad g).opStore = s.opStore ∧ (s.onFarBad g).accStore = s.accStore ∧
  (s.onFarBad g).armed = s.armed ∧ (s.onFarBad g).unitCtx = s.unitCtx ∧ (s.onFarBad g).bank = s.bank ∧ (s.onFarBad g).localMem = s.localMem ∧
  (s.onFarBad g).sharedMem = s.sharedMem ∧ (s.onFarBad g).tileMem = s.tileMem ∧ (s.onFarBad g).badWords = s.badWords ∧
  (s.onFarBad g).stackMem = s.stackMem ∧ (s.onFarBad g).window = s.window ∧ (s.onFarBad g).winFree = s.winFree ∧ (s.onFarBad g).health = s.health ∧
  (s.onFarBad g).lb = s.lb ∧ (s.onFarBad g).ecc = s.ecc ∧ (s.onFarBad g).eccReg = s.eccReg ∧ (s.onFarBad g).farMem = s.farMem ∧
  (s.onFarBad g).farBad = g s.farBad ∧ (s.onFarBad g).hostMem = s.hostMem ∧ (s.onFarBad g).far = s.far ∧ (s.onFarBad g).job = s.job ∧
  (s.onFarBad g).seq = s.seq ∧ (s.onFarBad g).page = s.page ∧ (s.onFarBad g).calib = s.calib ∧ (s.onFarBad g).area = s.area ∧
  (s.onFarBad g).req = s.req ∧ (s.onFarBad g).fab = s.fab ∧ (s.onFarBad g).port = s.port ∧ (s.onFarBad g).plan = s.plan ∧
  (s.onFarBad g).coll = s.coll ∧ (s.onFarBad g).wlog = s.wlog ∧ (s.onFarBad g).lvr = s.lvr ∧ (s.onFarBad g).therm = s.therm ∧
  (s.onFarBad g).gated = s.gated ∧ (s.onFarBad g).turn = s.turn ∧ (s.onFarBad g).wake = s.wake ∧ (s.onFarBad g).acc = s.acc ∧
  (s.onFarBad g).proc = s.proc ∧ (s.onFarBad g).fw = s.fw ∧ (s.onFarBad g).mgmt = s.mgmt ∧ (s.onFarBad g).out = s.out := by
  refine ⟨rfl, rfl, rfl, rfl, rfl, rfl, rfl, rfl, rfl, rfl, rfl, rfl, rfl, rfl, rfl, rfl, rfl, rfl, rfl, rfl, rfl, rfl, rfl, rfl, rfl, rfl, rfl, rfl, rfl, rfl, rfl, rfl, rfl, rfl, rfl, rfl, rfl, rfl, rfl, rfl, rfl, rfl, rfl, rfl, rfl, rfl, rfl, rfl, rfl, rfl, rfl, rfl, rfl, rfl, rfl, rfl, rfl, rfl, rfl, rfl, rfl, rfl, rfl, rfl⟩

@[simp] theorem State.onHostMem_fields (s : State) (g : Mem → Mem) :
  (s.onHostMem g).pending = s.pending ∧ (s.onHostMem g).freeCtr = s.freeCtr ∧ (s.onHostMem g).nextUid = s.nextUid ∧ (s.onHostMem g).fuse = s.fuse ∧
  (s.onHostMem g).pin = s.pin ∧ (s.onHostMem g).dev = s.dev ∧ (s.onHostMem g).fn = s.fn ∧ (s.onHostMem g).apw = s.apw ∧ (s.onHostMem g).mbx = s.mbx ∧
  (s.onHostMem g).mbxBuf = s.mbxBuf ∧ (s.onHostMem g).queue = s.queue ∧ (s.onHostMem g).cas = s.cas ∧ (s.onHostMem g).ctx = s.ctx ∧
  (s.onHostMem g).alloc = s.alloc ∧ (s.onHostMem g).fills = s.fills ∧ (s.onHostMem g).desc = s.desc ∧ (s.onHostMem g).prog = s.prog ∧
  (s.onHostMem g).latch = s.latch ∧ (s.onHostMem g).latchHold = s.latchHold ∧ (s.onHostMem g).run = s.run ∧ (s.onHostMem g).core = s.core ∧
  (s.onHostMem g).saved = s.saved ∧ (s.onHostMem g).tile = s.tile ∧ (s.onHostMem g).opStore = s.opStore ∧ (s.onHostMem g).accStore = s.accStore ∧
  (s.onHostMem g).armed = s.armed ∧ (s.onHostMem g).unitCtx = s.unitCtx ∧ (s.onHostMem g).bank = s.bank ∧ (s.onHostMem g).localMem = s.localMem ∧
  (s.onHostMem g).sharedMem = s.sharedMem ∧ (s.onHostMem g).tileMem = s.tileMem ∧ (s.onHostMem g).badWords = s.badWords ∧
  (s.onHostMem g).stackMem = s.stackMem ∧ (s.onHostMem g).window = s.window ∧ (s.onHostMem g).winFree = s.winFree ∧
  (s.onHostMem g).health = s.health ∧ (s.onHostMem g).lb = s.lb ∧ (s.onHostMem g).ecc = s.ecc ∧ (s.onHostMem g).eccReg = s.eccReg ∧
  (s.onHostMem g).farMem = s.farMem ∧ (s.onHostMem g).farBad = s.farBad ∧ (s.onHostMem g).hostMem = g s.hostMem ∧ (s.onHostMem g).far = s.far ∧
  (s.onHostMem g).job = s.job ∧ (s.onHostMem g).seq = s.seq ∧ (s.onHostMem g).page = s.page ∧ (s.onHostMem g).calib = s.calib ∧
  (s.onHostMem g).area = s.area ∧ (s.onHostMem g).req = s.req ∧ (s.onHostMem g).fab = s.fab ∧ (s.onHostMem g).port = s.port ∧
  (s.onHostMem g).plan = s.plan ∧ (s.onHostMem g).coll = s.coll ∧ (s.onHostMem g).wlog = s.wlog ∧ (s.onHostMem g).lvr = s.lvr ∧
  (s.onHostMem g).therm = s.therm ∧ (s.onHostMem g).gated = s.gated ∧ (s.onHostMem g).turn = s.turn ∧ (s.onHostMem g).wake = s.wake ∧
  (s.onHostMem g).acc = s.acc ∧ (s.onHostMem g).proc = s.proc ∧ (s.onHostMem g).fw = s.fw ∧ (s.onHostMem g).mgmt = s.mgmt ∧
  (s.onHostMem g).out = s.out := by
  refine ⟨rfl, rfl, rfl, rfl, rfl, rfl, rfl, rfl, rfl, rfl, rfl, rfl, rfl, rfl, rfl, rfl, rfl, rfl, rfl, rfl, rfl, rfl, rfl, rfl, rfl, rfl, rfl, rfl, rfl, rfl, rfl, rfl, rfl, rfl, rfl, rfl, rfl, rfl, rfl, rfl, rfl, rfl, rfl, rfl, rfl, rfl, rfl, rfl, rfl, rfl, rfl, rfl, rfl, rfl, rfl, rfl, rfl, rfl, rfl, rfl, rfl, rfl, rfl, rfl⟩

@[simp] theorem State.onFar_fields (s : State) (g : Far → Far) :
  (s.onFar g).pending = s.pending ∧ (s.onFar g).freeCtr = s.freeCtr ∧ (s.onFar g).nextUid = s.nextUid ∧ (s.onFar g).fuse = s.fuse ∧
  (s.onFar g).pin = s.pin ∧ (s.onFar g).dev = s.dev ∧ (s.onFar g).fn = s.fn ∧ (s.onFar g).apw = s.apw ∧ (s.onFar g).mbx = s.mbx ∧
  (s.onFar g).mbxBuf = s.mbxBuf ∧ (s.onFar g).queue = s.queue ∧ (s.onFar g).cas = s.cas ∧ (s.onFar g).ctx = s.ctx ∧ (s.onFar g).alloc = s.alloc ∧
  (s.onFar g).fills = s.fills ∧ (s.onFar g).desc = s.desc ∧ (s.onFar g).prog = s.prog ∧ (s.onFar g).latch = s.latch ∧
  (s.onFar g).latchHold = s.latchHold ∧ (s.onFar g).run = s.run ∧ (s.onFar g).core = s.core ∧ (s.onFar g).saved = s.saved ∧
  (s.onFar g).tile = s.tile ∧ (s.onFar g).opStore = s.opStore ∧ (s.onFar g).accStore = s.accStore ∧ (s.onFar g).armed = s.armed ∧
  (s.onFar g).unitCtx = s.unitCtx ∧ (s.onFar g).bank = s.bank ∧ (s.onFar g).localMem = s.localMem ∧ (s.onFar g).sharedMem = s.sharedMem ∧
  (s.onFar g).tileMem = s.tileMem ∧ (s.onFar g).badWords = s.badWords ∧ (s.onFar g).stackMem = s.stackMem ∧ (s.onFar g).window = s.window ∧
  (s.onFar g).winFree = s.winFree ∧ (s.onFar g).health = s.health ∧ (s.onFar g).lb = s.lb ∧ (s.onFar g).ecc = s.ecc ∧ (s.onFar g).eccReg = s.eccReg ∧
  (s.onFar g).farMem = s.farMem ∧ (s.onFar g).farBad = s.farBad ∧ (s.onFar g).hostMem = s.hostMem ∧ (s.onFar g).far = g s.far ∧
  (s.onFar g).job = s.job ∧ (s.onFar g).seq = s.seq ∧ (s.onFar g).page = s.page ∧ (s.onFar g).calib = s.calib ∧ (s.onFar g).area = s.area ∧
  (s.onFar g).req = s.req ∧ (s.onFar g).fab = s.fab ∧ (s.onFar g).port = s.port ∧ (s.onFar g).plan = s.plan ∧ (s.onFar g).coll = s.coll ∧
  (s.onFar g).wlog = s.wlog ∧ (s.onFar g).lvr = s.lvr ∧ (s.onFar g).therm = s.therm ∧ (s.onFar g).gated = s.gated ∧ (s.onFar g).turn = s.turn ∧
  (s.onFar g).wake = s.wake ∧ (s.onFar g).acc = s.acc ∧ (s.onFar g).proc = s.proc ∧ (s.onFar g).fw = s.fw ∧ (s.onFar g).mgmt = s.mgmt ∧
  (s.onFar g).out = s.out := by
  refine ⟨rfl, rfl, rfl, rfl, rfl, rfl, rfl, rfl, rfl, rfl, rfl, rfl, rfl, rfl, rfl, rfl, rfl, rfl, rfl, rfl, rfl, rfl, rfl, rfl, rfl, rfl, rfl, rfl, rfl, rfl, rfl, rfl, rfl, rfl, rfl, rfl, rfl, rfl, rfl, rfl, rfl, rfl, rfl, rfl, rfl, rfl, rfl, rfl, rfl, rfl, rfl, rfl, rfl, rfl, rfl, rfl, rfl, rfl, rfl, rfl, rfl, rfl, rfl, rfl⟩

@[simp] theorem State.onJob_fields (s : State) (g : Tbl Job → Tbl Job) :
  (s.onJob g).pending = s.pending ∧ (s.onJob g).freeCtr = s.freeCtr ∧ (s.onJob g).nextUid = s.nextUid ∧ (s.onJob g).fuse = s.fuse ∧
  (s.onJob g).pin = s.pin ∧ (s.onJob g).dev = s.dev ∧ (s.onJob g).fn = s.fn ∧ (s.onJob g).apw = s.apw ∧ (s.onJob g).mbx = s.mbx ∧
  (s.onJob g).mbxBuf = s.mbxBuf ∧ (s.onJob g).queue = s.queue ∧ (s.onJob g).cas = s.cas ∧ (s.onJob g).ctx = s.ctx ∧ (s.onJob g).alloc = s.alloc ∧
  (s.onJob g).fills = s.fills ∧ (s.onJob g).desc = s.desc ∧ (s.onJob g).prog = s.prog ∧ (s.onJob g).latch = s.latch ∧
  (s.onJob g).latchHold = s.latchHold ∧ (s.onJob g).run = s.run ∧ (s.onJob g).core = s.core ∧ (s.onJob g).saved = s.saved ∧
  (s.onJob g).tile = s.tile ∧ (s.onJob g).opStore = s.opStore ∧ (s.onJob g).accStore = s.accStore ∧ (s.onJob g).armed = s.armed ∧
  (s.onJob g).unitCtx = s.unitCtx ∧ (s.onJob g).bank = s.bank ∧ (s.onJob g).localMem = s.localMem ∧ (s.onJob g).sharedMem = s.sharedMem ∧
  (s.onJob g).tileMem = s.tileMem ∧ (s.onJob g).badWords = s.badWords ∧ (s.onJob g).stackMem = s.stackMem ∧ (s.onJob g).window = s.window ∧
  (s.onJob g).winFree = s.winFree ∧ (s.onJob g).health = s.health ∧ (s.onJob g).lb = s.lb ∧ (s.onJob g).ecc = s.ecc ∧ (s.onJob g).eccReg = s.eccReg ∧
  (s.onJob g).farMem = s.farMem ∧ (s.onJob g).farBad = s.farBad ∧ (s.onJob g).hostMem = s.hostMem ∧ (s.onJob g).far = s.far ∧
  (s.onJob g).job = g s.job ∧ (s.onJob g).seq = s.seq ∧ (s.onJob g).page = s.page ∧ (s.onJob g).calib = s.calib ∧ (s.onJob g).area = s.area ∧
  (s.onJob g).req = s.req ∧ (s.onJob g).fab = s.fab ∧ (s.onJob g).port = s.port ∧ (s.onJob g).plan = s.plan ∧ (s.onJob g).coll = s.coll ∧
  (s.onJob g).wlog = s.wlog ∧ (s.onJob g).lvr = s.lvr ∧ (s.onJob g).therm = s.therm ∧ (s.onJob g).gated = s.gated ∧ (s.onJob g).turn = s.turn ∧
  (s.onJob g).wake = s.wake ∧ (s.onJob g).acc = s.acc ∧ (s.onJob g).proc = s.proc ∧ (s.onJob g).fw = s.fw ∧ (s.onJob g).mgmt = s.mgmt ∧
  (s.onJob g).out = s.out := by
  refine ⟨rfl, rfl, rfl, rfl, rfl, rfl, rfl, rfl, rfl, rfl, rfl, rfl, rfl, rfl, rfl, rfl, rfl, rfl, rfl, rfl, rfl, rfl, rfl, rfl, rfl, rfl, rfl, rfl, rfl, rfl, rfl, rfl, rfl, rfl, rfl, rfl, rfl, rfl, rfl, rfl, rfl, rfl, rfl, rfl, rfl, rfl, rfl, rfl, rfl, rfl, rfl, rfl, rfl, rfl, rfl, rfl, rfl, rfl, rfl, rfl, rfl, rfl, rfl, rfl⟩

@[simp] theorem State.onSeq_fields (s : State) (g : Tbl Seq → Tbl Seq) :
  (s.onSeq g).pending = s.pending ∧ (s.onSeq g).freeCtr = s.freeCtr ∧ (s.onSeq g).nextUid = s.nextUid ∧ (s.onSeq g).fuse = s.fuse ∧
  (s.onSeq g).pin = s.pin ∧ (s.onSeq g).dev = s.dev ∧ (s.onSeq g).fn = s.fn ∧ (s.onSeq g).apw = s.apw ∧ (s.onSeq g).mbx = s.mbx ∧
  (s.onSeq g).mbxBuf = s.mbxBuf ∧ (s.onSeq g).queue = s.queue ∧ (s.onSeq g).cas = s.cas ∧ (s.onSeq g).ctx = s.ctx ∧ (s.onSeq g).alloc = s.alloc ∧
  (s.onSeq g).fills = s.fills ∧ (s.onSeq g).desc = s.desc ∧ (s.onSeq g).prog = s.prog ∧ (s.onSeq g).latch = s.latch ∧
  (s.onSeq g).latchHold = s.latchHold ∧ (s.onSeq g).run = s.run ∧ (s.onSeq g).core = s.core ∧ (s.onSeq g).saved = s.saved ∧
  (s.onSeq g).tile = s.tile ∧ (s.onSeq g).opStore = s.opStore ∧ (s.onSeq g).accStore = s.accStore ∧ (s.onSeq g).armed = s.armed ∧
  (s.onSeq g).unitCtx = s.unitCtx ∧ (s.onSeq g).bank = s.bank ∧ (s.onSeq g).localMem = s.localMem ∧ (s.onSeq g).sharedMem = s.sharedMem ∧
  (s.onSeq g).tileMem = s.tileMem ∧ (s.onSeq g).badWords = s.badWords ∧ (s.onSeq g).stackMem = s.stackMem ∧ (s.onSeq g).window = s.window ∧
  (s.onSeq g).winFree = s.winFree ∧ (s.onSeq g).health = s.health ∧ (s.onSeq g).lb = s.lb ∧ (s.onSeq g).ecc = s.ecc ∧ (s.onSeq g).eccReg = s.eccReg ∧
  (s.onSeq g).farMem = s.farMem ∧ (s.onSeq g).farBad = s.farBad ∧ (s.onSeq g).hostMem = s.hostMem ∧ (s.onSeq g).far = s.far ∧
  (s.onSeq g).job = s.job ∧ (s.onSeq g).seq = g s.seq ∧ (s.onSeq g).page = s.page ∧ (s.onSeq g).calib = s.calib ∧ (s.onSeq g).area = s.area ∧
  (s.onSeq g).req = s.req ∧ (s.onSeq g).fab = s.fab ∧ (s.onSeq g).port = s.port ∧ (s.onSeq g).plan = s.plan ∧ (s.onSeq g).coll = s.coll ∧
  (s.onSeq g).wlog = s.wlog ∧ (s.onSeq g).lvr = s.lvr ∧ (s.onSeq g).therm = s.therm ∧ (s.onSeq g).gated = s.gated ∧ (s.onSeq g).turn = s.turn ∧
  (s.onSeq g).wake = s.wake ∧ (s.onSeq g).acc = s.acc ∧ (s.onSeq g).proc = s.proc ∧ (s.onSeq g).fw = s.fw ∧ (s.onSeq g).mgmt = s.mgmt ∧
  (s.onSeq g).out = s.out := by
  refine ⟨rfl, rfl, rfl, rfl, rfl, rfl, rfl, rfl, rfl, rfl, rfl, rfl, rfl, rfl, rfl, rfl, rfl, rfl, rfl, rfl, rfl, rfl, rfl, rfl, rfl, rfl, rfl, rfl, rfl, rfl, rfl, rfl, rfl, rfl, rfl, rfl, rfl, rfl, rfl, rfl, rfl, rfl, rfl, rfl, rfl, rfl, rfl, rfl, rfl, rfl, rfl, rfl, rfl, rfl, rfl, rfl, rfl, rfl, rfl, rfl, rfl, rfl, rfl, rfl⟩

@[simp] theorem State.onPage_fields (s : State) (g : Tbl Page → Tbl Page) :
  (s.onPage g).pending = s.pending ∧ (s.onPage g).freeCtr = s.freeCtr ∧ (s.onPage g).nextUid = s.nextUid ∧ (s.onPage g).fuse = s.fuse ∧
  (s.onPage g).pin = s.pin ∧ (s.onPage g).dev = s.dev ∧ (s.onPage g).fn = s.fn ∧ (s.onPage g).apw = s.apw ∧ (s.onPage g).mbx = s.mbx ∧
  (s.onPage g).mbxBuf = s.mbxBuf ∧ (s.onPage g).queue = s.queue ∧ (s.onPage g).cas = s.cas ∧ (s.onPage g).ctx = s.ctx ∧
  (s.onPage g).alloc = s.alloc ∧ (s.onPage g).fills = s.fills ∧ (s.onPage g).desc = s.desc ∧ (s.onPage g).prog = s.prog ∧
  (s.onPage g).latch = s.latch ∧ (s.onPage g).latchHold = s.latchHold ∧ (s.onPage g).run = s.run ∧ (s.onPage g).core = s.core ∧
  (s.onPage g).saved = s.saved ∧ (s.onPage g).tile = s.tile ∧ (s.onPage g).opStore = s.opStore ∧ (s.onPage g).accStore = s.accStore ∧
  (s.onPage g).armed = s.armed ∧ (s.onPage g).unitCtx = s.unitCtx ∧ (s.onPage g).bank = s.bank ∧ (s.onPage g).localMem = s.localMem ∧
  (s.onPage g).sharedMem = s.sharedMem ∧ (s.onPage g).tileMem = s.tileMem ∧ (s.onPage g).badWords = s.badWords ∧ (s.onPage g).stackMem = s.stackMem ∧
  (s.onPage g).window = s.window ∧ (s.onPage g).winFree = s.winFree ∧ (s.onPage g).health = s.health ∧ (s.onPage g).lb = s.lb ∧
  (s.onPage g).ecc = s.ecc ∧ (s.onPage g).eccReg = s.eccReg ∧ (s.onPage g).farMem = s.farMem ∧ (s.onPage g).farBad = s.farBad ∧
  (s.onPage g).hostMem = s.hostMem ∧ (s.onPage g).far = s.far ∧ (s.onPage g).job = s.job ∧ (s.onPage g).seq = s.seq ∧ (s.onPage g).page = g s.page ∧
  (s.onPage g).calib = s.calib ∧ (s.onPage g).area = s.area ∧ (s.onPage g).req = s.req ∧ (s.onPage g).fab = s.fab ∧ (s.onPage g).port = s.port ∧
  (s.onPage g).plan = s.plan ∧ (s.onPage g).coll = s.coll ∧ (s.onPage g).wlog = s.wlog ∧ (s.onPage g).lvr = s.lvr ∧ (s.onPage g).therm = s.therm ∧
  (s.onPage g).gated = s.gated ∧ (s.onPage g).turn = s.turn ∧ (s.onPage g).wake = s.wake ∧ (s.onPage g).acc = s.acc ∧ (s.onPage g).proc = s.proc ∧
  (s.onPage g).fw = s.fw ∧ (s.onPage g).mgmt = s.mgmt ∧ (s.onPage g).out = s.out := by
  refine ⟨rfl, rfl, rfl, rfl, rfl, rfl, rfl, rfl, rfl, rfl, rfl, rfl, rfl, rfl, rfl, rfl, rfl, rfl, rfl, rfl, rfl, rfl, rfl, rfl, rfl, rfl, rfl, rfl, rfl, rfl, rfl, rfl, rfl, rfl, rfl, rfl, rfl, rfl, rfl, rfl, rfl, rfl, rfl, rfl, rfl, rfl, rfl, rfl, rfl, rfl, rfl, rfl, rfl, rfl, rfl, rfl, rfl, rfl, rfl, rfl, rfl, rfl, rfl, rfl⟩

@[simp] theorem State.onCalib_fields (s : State) (g : Tbl (Nat × Nat) → Tbl (Nat × Nat)) :
  (s.onCalib g).pending = s.pending ∧ (s.onCalib g).freeCtr = s.freeCtr ∧ (s.onCalib g).nextUid = s.nextUid ∧ (s.onCalib g).fuse = s.fuse ∧
  (s.onCalib g).pin = s.pin ∧ (s.onCalib g).dev = s.dev ∧ (s.onCalib g).fn = s.fn ∧ (s.onCalib g).apw = s.apw ∧ (s.onCalib g).mbx = s.mbx ∧
  (s.onCalib g).mbxBuf = s.mbxBuf ∧ (s.onCalib g).queue = s.queue ∧ (s.onCalib g).cas = s.cas ∧ (s.onCalib g).ctx = s.ctx ∧
  (s.onCalib g).alloc = s.alloc ∧ (s.onCalib g).fills = s.fills ∧ (s.onCalib g).desc = s.desc ∧ (s.onCalib g).prog = s.prog ∧
  (s.onCalib g).latch = s.latch ∧ (s.onCalib g).latchHold = s.latchHold ∧ (s.onCalib g).run = s.run ∧ (s.onCalib g).core = s.core ∧
  (s.onCalib g).saved = s.saved ∧ (s.onCalib g).tile = s.tile ∧ (s.onCalib g).opStore = s.opStore ∧ (s.onCalib g).accStore = s.accStore ∧
  (s.onCalib g).armed = s.armed ∧ (s.onCalib g).unitCtx = s.unitCtx ∧ (s.onCalib g).bank = s.bank ∧ (s.onCalib g).localMem = s.localMem ∧
  (s.onCalib g).sharedMem = s.sharedMem ∧ (s.onCalib g).tileMem = s.tileMem ∧ (s.onCalib g).badWords = s.badWords ∧
  (s.onCalib g).stackMem = s.stackMem ∧ (s.onCalib g).window = s.window ∧ (s.onCalib g).winFree = s.winFree ∧ (s.onCalib g).health = s.health ∧
  (s.onCalib g).lb = s.lb ∧ (s.onCalib g).ecc = s.ecc ∧ (s.onCalib g).eccReg = s.eccReg ∧ (s.onCalib g).farMem = s.farMem ∧
  (s.onCalib g).farBad = s.farBad ∧ (s.onCalib g).hostMem = s.hostMem ∧ (s.onCalib g).far = s.far ∧ (s.onCalib g).job = s.job ∧
  (s.onCalib g).seq = s.seq ∧ (s.onCalib g).page = s.page ∧ (s.onCalib g).calib = g s.calib ∧ (s.onCalib g).area = s.area ∧
  (s.onCalib g).req = s.req ∧ (s.onCalib g).fab = s.fab ∧ (s.onCalib g).port = s.port ∧ (s.onCalib g).plan = s.plan ∧ (s.onCalib g).coll = s.coll ∧
  (s.onCalib g).wlog = s.wlog ∧ (s.onCalib g).lvr = s.lvr ∧ (s.onCalib g).therm = s.therm ∧ (s.onCalib g).gated = s.gated ∧
  (s.onCalib g).turn = s.turn ∧ (s.onCalib g).wake = s.wake ∧ (s.onCalib g).acc = s.acc ∧ (s.onCalib g).proc = s.proc ∧ (s.onCalib g).fw = s.fw ∧
  (s.onCalib g).mgmt = s.mgmt ∧ (s.onCalib g).out = s.out := by
  refine ⟨rfl, rfl, rfl, rfl, rfl, rfl, rfl, rfl, rfl, rfl, rfl, rfl, rfl, rfl, rfl, rfl, rfl, rfl, rfl, rfl, rfl, rfl, rfl, rfl, rfl, rfl, rfl, rfl, rfl, rfl, rfl, rfl, rfl, rfl, rfl, rfl, rfl, rfl, rfl, rfl, rfl, rfl, rfl, rfl, rfl, rfl, rfl, rfl, rfl, rfl, rfl, rfl, rfl, rfl, rfl, rfl, rfl, rfl, rfl, rfl, rfl, rfl, rfl, rfl⟩

@[simp] theorem State.onArea_fields (s : State) (g : Tbl (Nat × Nat) → Tbl (Nat × Nat)) :
  (s.onArea g).pending = s.pending ∧ (s.onArea g).freeCtr = s.freeCtr ∧ (s.onArea g).nextUid = s.nextUid ∧ (s.onArea g).fuse = s.fuse ∧
  (s.onArea g).pin = s.pin ∧ (s.onArea g).dev = s.dev ∧ (s.onArea g).fn = s.fn ∧ (s.onArea g).apw = s.apw ∧ (s.onArea g).mbx = s.mbx ∧
  (s.onArea g).mbxBuf = s.mbxBuf ∧ (s.onArea g).queue = s.queue ∧ (s.onArea g).cas = s.cas ∧ (s.onArea g).ctx = s.ctx ∧
  (s.onArea g).alloc = s.alloc ∧ (s.onArea g).fills = s.fills ∧ (s.onArea g).desc = s.desc ∧ (s.onArea g).prog = s.prog ∧
  (s.onArea g).latch = s.latch ∧ (s.onArea g).latchHold = s.latchHold ∧ (s.onArea g).run = s.run ∧ (s.onArea g).core = s.core ∧
  (s.onArea g).saved = s.saved ∧ (s.onArea g).tile = s.tile ∧ (s.onArea g).opStore = s.opStore ∧ (s.onArea g).accStore = s.accStore ∧
  (s.onArea g).armed = s.armed ∧ (s.onArea g).unitCtx = s.unitCtx ∧ (s.onArea g).bank = s.bank ∧ (s.onArea g).localMem = s.localMem ∧
  (s.onArea g).sharedMem = s.sharedMem ∧ (s.onArea g).tileMem = s.tileMem ∧ (s.onArea g).badWords = s.badWords ∧ (s.onArea g).stackMem = s.stackMem ∧
  (s.onArea g).window = s.window ∧ (s.onArea g).winFree = s.winFree ∧ (s.onArea g).health = s.health ∧ (s.onArea g).lb = s.lb ∧
  (s.onArea g).ecc = s.ecc ∧ (s.onArea g).eccReg = s.eccReg ∧ (s.onArea g).farMem = s.farMem ∧ (s.onArea g).farBad = s.farBad ∧
  (s.onArea g).hostMem = s.hostMem ∧ (s.onArea g).far = s.far ∧ (s.onArea g).job = s.job ∧ (s.onArea g).seq = s.seq ∧ (s.onArea g).page = s.page ∧
  (s.onArea g).calib = s.calib ∧ (s.onArea g).area = g s.area ∧ (s.onArea g).req = s.req ∧ (s.onArea g).fab = s.fab ∧ (s.onArea g).port = s.port ∧
  (s.onArea g).plan = s.plan ∧ (s.onArea g).coll = s.coll ∧ (s.onArea g).wlog = s.wlog ∧ (s.onArea g).lvr = s.lvr ∧ (s.onArea g).therm = s.therm ∧
  (s.onArea g).gated = s.gated ∧ (s.onArea g).turn = s.turn ∧ (s.onArea g).wake = s.wake ∧ (s.onArea g).acc = s.acc ∧ (s.onArea g).proc = s.proc ∧
  (s.onArea g).fw = s.fw ∧ (s.onArea g).mgmt = s.mgmt ∧ (s.onArea g).out = s.out := by
  refine ⟨rfl, rfl, rfl, rfl, rfl, rfl, rfl, rfl, rfl, rfl, rfl, rfl, rfl, rfl, rfl, rfl, rfl, rfl, rfl, rfl, rfl, rfl, rfl, rfl, rfl, rfl, rfl, rfl, rfl, rfl, rfl, rfl, rfl, rfl, rfl, rfl, rfl, rfl, rfl, rfl, rfl, rfl, rfl, rfl, rfl, rfl, rfl, rfl, rfl, rfl, rfl, rfl, rfl, rfl, rfl, rfl, rfl, rfl, rfl, rfl, rfl, rfl, rfl, rfl⟩

@[simp] theorem State.onReq_fields (s : State) (g : Tbl Req → Tbl Req) :
  (s.onReq g).pending = s.pending ∧ (s.onReq g).freeCtr = s.freeCtr ∧ (s.onReq g).nextUid = s.nextUid ∧ (s.onReq g).fuse = s.fuse ∧
  (s.onReq g).pin = s.pin ∧ (s.onReq g).dev = s.dev ∧ (s.onReq g).fn = s.fn ∧ (s.onReq g).apw = s.apw ∧ (s.onReq g).mbx = s.mbx ∧
  (s.onReq g).mbxBuf = s.mbxBuf ∧ (s.onReq g).queue = s.queue ∧ (s.onReq g).cas = s.cas ∧ (s.onReq g).ctx = s.ctx ∧ (s.onReq g).alloc = s.alloc ∧
  (s.onReq g).fills = s.fills ∧ (s.onReq g).desc = s.desc ∧ (s.onReq g).prog = s.prog ∧ (s.onReq g).latch = s.latch ∧
  (s.onReq g).latchHold = s.latchHold ∧ (s.onReq g).run = s.run ∧ (s.onReq g).core = s.core ∧ (s.onReq g).saved = s.saved ∧
  (s.onReq g).tile = s.tile ∧ (s.onReq g).opStore = s.opStore ∧ (s.onReq g).accStore = s.accStore ∧ (s.onReq g).armed = s.armed ∧
  (s.onReq g).unitCtx = s.unitCtx ∧ (s.onReq g).bank = s.bank ∧ (s.onReq g).localMem = s.localMem ∧ (s.onReq g).sharedMem = s.sharedMem ∧
  (s.onReq g).tileMem = s.tileMem ∧ (s.onReq g).badWords = s.badWords ∧ (s.onReq g).stackMem = s.stackMem ∧ (s.onReq g).window = s.window ∧
  (s.onReq g).winFree = s.winFree ∧ (s.onReq g).health = s.health ∧ (s.onReq g).lb = s.lb ∧ (s.onReq g).ecc = s.ecc ∧ (s.onReq g).eccReg = s.eccReg ∧
  (s.onReq g).farMem = s.farMem ∧ (s.onReq g).farBad = s.farBad ∧ (s.onReq g).hostMem = s.hostMem ∧ (s.onReq g).far = s.far ∧
  (s.onReq g).job = s.job ∧ (s.onReq g).seq = s.seq ∧ (s.onReq g).page = s.page ∧ (s.onReq g).calib = s.calib ∧ (s.onReq g).area = s.area ∧
  (s.onReq g).req = g s.req ∧ (s.onReq g).fab = s.fab ∧ (s.onReq g).port = s.port ∧ (s.onReq g).plan = s.plan ∧ (s.onReq g).coll = s.coll ∧
  (s.onReq g).wlog = s.wlog ∧ (s.onReq g).lvr = s.lvr ∧ (s.onReq g).therm = s.therm ∧ (s.onReq g).gated = s.gated ∧ (s.onReq g).turn = s.turn ∧
  (s.onReq g).wake = s.wake ∧ (s.onReq g).acc = s.acc ∧ (s.onReq g).proc = s.proc ∧ (s.onReq g).fw = s.fw ∧ (s.onReq g).mgmt = s.mgmt ∧
  (s.onReq g).out = s.out := by
  refine ⟨rfl, rfl, rfl, rfl, rfl, rfl, rfl, rfl, rfl, rfl, rfl, rfl, rfl, rfl, rfl, rfl, rfl, rfl, rfl, rfl, rfl, rfl, rfl, rfl, rfl, rfl, rfl, rfl, rfl, rfl, rfl, rfl, rfl, rfl, rfl, rfl, rfl, rfl, rfl, rfl, rfl, rfl, rfl, rfl, rfl, rfl, rfl, rfl, rfl, rfl, rfl, rfl, rfl, rfl, rfl, rfl, rfl, rfl, rfl, rfl, rfl, rfl, rfl, rfl⟩

@[simp] theorem State.onFab_fields (s : State) (g : Fab → Fab) :
  (s.onFab g).pending = s.pending ∧ (s.onFab g).freeCtr = s.freeCtr ∧ (s.onFab g).nextUid = s.nextUid ∧ (s.onFab g).fuse = s.fuse ∧
  (s.onFab g).pin = s.pin ∧ (s.onFab g).dev = s.dev ∧ (s.onFab g).fn = s.fn ∧ (s.onFab g).apw = s.apw ∧ (s.onFab g).mbx = s.mbx ∧
  (s.onFab g).mbxBuf = s.mbxBuf ∧ (s.onFab g).queue = s.queue ∧ (s.onFab g).cas = s.cas ∧ (s.onFab g).ctx = s.ctx ∧ (s.onFab g).alloc = s.alloc ∧
  (s.onFab g).fills = s.fills ∧ (s.onFab g).desc = s.desc ∧ (s.onFab g).prog = s.prog ∧ (s.onFab g).latch = s.latch ∧
  (s.onFab g).latchHold = s.latchHold ∧ (s.onFab g).run = s.run ∧ (s.onFab g).core = s.core ∧ (s.onFab g).saved = s.saved ∧
  (s.onFab g).tile = s.tile ∧ (s.onFab g).opStore = s.opStore ∧ (s.onFab g).accStore = s.accStore ∧ (s.onFab g).armed = s.armed ∧
  (s.onFab g).unitCtx = s.unitCtx ∧ (s.onFab g).bank = s.bank ∧ (s.onFab g).localMem = s.localMem ∧ (s.onFab g).sharedMem = s.sharedMem ∧
  (s.onFab g).tileMem = s.tileMem ∧ (s.onFab g).badWords = s.badWords ∧ (s.onFab g).stackMem = s.stackMem ∧ (s.onFab g).window = s.window ∧
  (s.onFab g).winFree = s.winFree ∧ (s.onFab g).health = s.health ∧ (s.onFab g).lb = s.lb ∧ (s.onFab g).ecc = s.ecc ∧ (s.onFab g).eccReg = s.eccReg ∧
  (s.onFab g).farMem = s.farMem ∧ (s.onFab g).farBad = s.farBad ∧ (s.onFab g).hostMem = s.hostMem ∧ (s.onFab g).far = s.far ∧
  (s.onFab g).job = s.job ∧ (s.onFab g).seq = s.seq ∧ (s.onFab g).page = s.page ∧ (s.onFab g).calib = s.calib ∧ (s.onFab g).area = s.area ∧
  (s.onFab g).req = s.req ∧ (s.onFab g).fab = g s.fab ∧ (s.onFab g).port = s.port ∧ (s.onFab g).plan = s.plan ∧ (s.onFab g).coll = s.coll ∧
  (s.onFab g).wlog = s.wlog ∧ (s.onFab g).lvr = s.lvr ∧ (s.onFab g).therm = s.therm ∧ (s.onFab g).gated = s.gated ∧ (s.onFab g).turn = s.turn ∧
  (s.onFab g).wake = s.wake ∧ (s.onFab g).acc = s.acc ∧ (s.onFab g).proc = s.proc ∧ (s.onFab g).fw = s.fw ∧ (s.onFab g).mgmt = s.mgmt ∧
  (s.onFab g).out = s.out := by
  refine ⟨rfl, rfl, rfl, rfl, rfl, rfl, rfl, rfl, rfl, rfl, rfl, rfl, rfl, rfl, rfl, rfl, rfl, rfl, rfl, rfl, rfl, rfl, rfl, rfl, rfl, rfl, rfl, rfl, rfl, rfl, rfl, rfl, rfl, rfl, rfl, rfl, rfl, rfl, rfl, rfl, rfl, rfl, rfl, rfl, rfl, rfl, rfl, rfl, rfl, rfl, rfl, rfl, rfl, rfl, rfl, rfl, rfl, rfl, rfl, rfl, rfl, rfl, rfl, rfl⟩

@[simp] theorem State.onPort_fields (s : State) (g : Tbl Port → Tbl Port) :
  (s.onPort g).pending = s.pending ∧ (s.onPort g).freeCtr = s.freeCtr ∧ (s.onPort g).nextUid = s.nextUid ∧ (s.onPort g).fuse = s.fuse ∧
  (s.onPort g).pin = s.pin ∧ (s.onPort g).dev = s.dev ∧ (s.onPort g).fn = s.fn ∧ (s.onPort g).apw = s.apw ∧ (s.onPort g).mbx = s.mbx ∧
  (s.onPort g).mbxBuf = s.mbxBuf ∧ (s.onPort g).queue = s.queue ∧ (s.onPort g).cas = s.cas ∧ (s.onPort g).ctx = s.ctx ∧
  (s.onPort g).alloc = s.alloc ∧ (s.onPort g).fills = s.fills ∧ (s.onPort g).desc = s.desc ∧ (s.onPort g).prog = s.prog ∧
  (s.onPort g).latch = s.latch ∧ (s.onPort g).latchHold = s.latchHold ∧ (s.onPort g).run = s.run ∧ (s.onPort g).core = s.core ∧
  (s.onPort g).saved = s.saved ∧ (s.onPort g).tile = s.tile ∧ (s.onPort g).opStore = s.opStore ∧ (s.onPort g).accStore = s.accStore ∧
  (s.onPort g).armed = s.armed ∧ (s.onPort g).unitCtx = s.unitCtx ∧ (s.onPort g).bank = s.bank ∧ (s.onPort g).localMem = s.localMem ∧
  (s.onPort g).sharedMem = s.sharedMem ∧ (s.onPort g).tileMem = s.tileMem ∧ (s.onPort g).badWords = s.badWords ∧ (s.onPort g).stackMem = s.stackMem ∧
  (s.onPort g).window = s.window ∧ (s.onPort g).winFree = s.winFree ∧ (s.onPort g).health = s.health ∧ (s.onPort g).lb = s.lb ∧
  (s.onPort g).ecc = s.ecc ∧ (s.onPort g).eccReg = s.eccReg ∧ (s.onPort g).farMem = s.farMem ∧ (s.onPort g).farBad = s.farBad ∧
  (s.onPort g).hostMem = s.hostMem ∧ (s.onPort g).far = s.far ∧ (s.onPort g).job = s.job ∧ (s.onPort g).seq = s.seq ∧ (s.onPort g).page = s.page ∧
  (s.onPort g).calib = s.calib ∧ (s.onPort g).area = s.area ∧ (s.onPort g).req = s.req ∧ (s.onPort g).fab = s.fab ∧ (s.onPort g).port = g s.port ∧
  (s.onPort g).plan = s.plan ∧ (s.onPort g).coll = s.coll ∧ (s.onPort g).wlog = s.wlog ∧ (s.onPort g).lvr = s.lvr ∧ (s.onPort g).therm = s.therm ∧
  (s.onPort g).gated = s.gated ∧ (s.onPort g).turn = s.turn ∧ (s.onPort g).wake = s.wake ∧ (s.onPort g).acc = s.acc ∧ (s.onPort g).proc = s.proc ∧
  (s.onPort g).fw = s.fw ∧ (s.onPort g).mgmt = s.mgmt ∧ (s.onPort g).out = s.out := by
  refine ⟨rfl, rfl, rfl, rfl, rfl, rfl, rfl, rfl, rfl, rfl, rfl, rfl, rfl, rfl, rfl, rfl, rfl, rfl, rfl, rfl, rfl, rfl, rfl, rfl, rfl, rfl, rfl, rfl, rfl, rfl, rfl, rfl, rfl, rfl, rfl, rfl, rfl, rfl, rfl, rfl, rfl, rfl, rfl, rfl, rfl, rfl, rfl, rfl, rfl, rfl, rfl, rfl, rfl, rfl, rfl, rfl, rfl, rfl, rfl, rfl, rfl, rfl, rfl, rfl⟩

@[simp] theorem State.onPlan_fields (s : State) (g : Tbl Plan → Tbl Plan) :
  (s.onPlan g).pending = s.pending ∧ (s.onPlan g).freeCtr = s.freeCtr ∧ (s.onPlan g).nextUid = s.nextUid ∧ (s.onPlan g).fuse = s.fuse ∧
  (s.onPlan g).pin = s.pin ∧ (s.onPlan g).dev = s.dev ∧ (s.onPlan g).fn = s.fn ∧ (s.onPlan g).apw = s.apw ∧ (s.onPlan g).mbx = s.mbx ∧
  (s.onPlan g).mbxBuf = s.mbxBuf ∧ (s.onPlan g).queue = s.queue ∧ (s.onPlan g).cas = s.cas ∧ (s.onPlan g).ctx = s.ctx ∧
  (s.onPlan g).alloc = s.alloc ∧ (s.onPlan g).fills = s.fills ∧ (s.onPlan g).desc = s.desc ∧ (s.onPlan g).prog = s.prog ∧
  (s.onPlan g).latch = s.latch ∧ (s.onPlan g).latchHold = s.latchHold ∧ (s.onPlan g).run = s.run ∧ (s.onPlan g).core = s.core ∧
  (s.onPlan g).saved = s.saved ∧ (s.onPlan g).tile = s.tile ∧ (s.onPlan g).opStore = s.opStore ∧ (s.onPlan g).accStore = s.accStore ∧
  (s.onPlan g).armed = s.armed ∧ (s.onPlan g).unitCtx = s.unitCtx ∧ (s.onPlan g).bank = s.bank ∧ (s.onPlan g).localMem = s.localMem ∧
  (s.onPlan g).sharedMem = s.sharedMem ∧ (s.onPlan g).tileMem = s.tileMem ∧ (s.onPlan g).badWords = s.badWords ∧ (s.onPlan g).stackMem = s.stackMem ∧
  (s.onPlan g).window = s.window ∧ (s.onPlan g).winFree = s.winFree ∧ (s.onPlan g).health = s.health ∧ (s.onPlan g).lb = s.lb ∧
  (s.onPlan g).ecc = s.ecc ∧ (s.onPlan g).eccReg = s.eccReg ∧ (s.onPlan g).farMem = s.farMem ∧ (s.onPlan g).farBad = s.farBad ∧
  (s.onPlan g).hostMem = s.hostMem ∧ (s.onPlan g).far = s.far ∧ (s.onPlan g).job = s.job ∧ (s.onPlan g).seq = s.seq ∧ (s.onPlan g).page = s.page ∧
  (s.onPlan g).calib = s.calib ∧ (s.onPlan g).area = s.area ∧ (s.onPlan g).req = s.req ∧ (s.onPlan g).fab = s.fab ∧ (s.onPlan g).port = s.port ∧
  (s.onPlan g).plan = g s.plan ∧ (s.onPlan g).coll = s.coll ∧ (s.onPlan g).wlog = s.wlog ∧ (s.onPlan g).lvr = s.lvr ∧ (s.onPlan g).therm = s.therm ∧
  (s.onPlan g).gated = s.gated ∧ (s.onPlan g).turn = s.turn ∧ (s.onPlan g).wake = s.wake ∧ (s.onPlan g).acc = s.acc ∧ (s.onPlan g).proc = s.proc ∧
  (s.onPlan g).fw = s.fw ∧ (s.onPlan g).mgmt = s.mgmt ∧ (s.onPlan g).out = s.out := by
  refine ⟨rfl, rfl, rfl, rfl, rfl, rfl, rfl, rfl, rfl, rfl, rfl, rfl, rfl, rfl, rfl, rfl, rfl, rfl, rfl, rfl, rfl, rfl, rfl, rfl, rfl, rfl, rfl, rfl, rfl, rfl, rfl, rfl, rfl, rfl, rfl, rfl, rfl, rfl, rfl, rfl, rfl, rfl, rfl, rfl, rfl, rfl, rfl, rfl, rfl, rfl, rfl, rfl, rfl, rfl, rfl, rfl, rfl, rfl, rfl, rfl, rfl, rfl, rfl, rfl⟩

@[simp] theorem State.onColl_fields (s : State) (g : Tbl Coll → Tbl Coll) :
  (s.onColl g).pending = s.pending ∧ (s.onColl g).freeCtr = s.freeCtr ∧ (s.onColl g).nextUid = s.nextUid ∧ (s.onColl g).fuse = s.fuse ∧
  (s.onColl g).pin = s.pin ∧ (s.onColl g).dev = s.dev ∧ (s.onColl g).fn = s.fn ∧ (s.onColl g).apw = s.apw ∧ (s.onColl g).mbx = s.mbx ∧
  (s.onColl g).mbxBuf = s.mbxBuf ∧ (s.onColl g).queue = s.queue ∧ (s.onColl g).cas = s.cas ∧ (s.onColl g).ctx = s.ctx ∧
  (s.onColl g).alloc = s.alloc ∧ (s.onColl g).fills = s.fills ∧ (s.onColl g).desc = s.desc ∧ (s.onColl g).prog = s.prog ∧
  (s.onColl g).latch = s.latch ∧ (s.onColl g).latchHold = s.latchHold ∧ (s.onColl g).run = s.run ∧ (s.onColl g).core = s.core ∧
  (s.onColl g).saved = s.saved ∧ (s.onColl g).tile = s.tile ∧ (s.onColl g).opStore = s.opStore ∧ (s.onColl g).accStore = s.accStore ∧
  (s.onColl g).armed = s.armed ∧ (s.onColl g).unitCtx = s.unitCtx ∧ (s.onColl g).bank = s.bank ∧ (s.onColl g).localMem = s.localMem ∧
  (s.onColl g).sharedMem = s.sharedMem ∧ (s.onColl g).tileMem = s.tileMem ∧ (s.onColl g).badWords = s.badWords ∧ (s.onColl g).stackMem = s.stackMem ∧
  (s.onColl g).window = s.window ∧ (s.onColl g).winFree = s.winFree ∧ (s.onColl g).health = s.health ∧ (s.onColl g).lb = s.lb ∧
  (s.onColl g).ecc = s.ecc ∧ (s.onColl g).eccReg = s.eccReg ∧ (s.onColl g).farMem = s.farMem ∧ (s.onColl g).farBad = s.farBad ∧
  (s.onColl g).hostMem = s.hostMem ∧ (s.onColl g).far = s.far ∧ (s.onColl g).job = s.job ∧ (s.onColl g).seq = s.seq ∧ (s.onColl g).page = s.page ∧
  (s.onColl g).calib = s.calib ∧ (s.onColl g).area = s.area ∧ (s.onColl g).req = s.req ∧ (s.onColl g).fab = s.fab ∧ (s.onColl g).port = s.port ∧
  (s.onColl g).plan = s.plan ∧ (s.onColl g).coll = g s.coll ∧ (s.onColl g).wlog = s.wlog ∧ (s.onColl g).lvr = s.lvr ∧ (s.onColl g).therm = s.therm ∧
  (s.onColl g).gated = s.gated ∧ (s.onColl g).turn = s.turn ∧ (s.onColl g).wake = s.wake ∧ (s.onColl g).acc = s.acc ∧ (s.onColl g).proc = s.proc ∧
  (s.onColl g).fw = s.fw ∧ (s.onColl g).mgmt = s.mgmt ∧ (s.onColl g).out = s.out := by
  refine ⟨rfl, rfl, rfl, rfl, rfl, rfl, rfl, rfl, rfl, rfl, rfl, rfl, rfl, rfl, rfl, rfl, rfl, rfl, rfl, rfl, rfl, rfl, rfl, rfl, rfl, rfl, rfl, rfl, rfl, rfl, rfl, rfl, rfl, rfl, rfl, rfl, rfl, rfl, rfl, rfl, rfl, rfl, rfl, rfl, rfl, rfl, rfl, rfl, rfl, rfl, rfl, rfl, rfl, rfl, rfl, rfl, rfl, rfl, rfl, rfl, rfl, rfl, rfl, rfl⟩

@[simp] theorem State.onWlog_fields (s : State) (g : Tbl (List (Nat × Nat × Nat)) → Tbl (List (Nat × Nat × Nat))) :
  (s.onWlog g).pending = s.pending ∧ (s.onWlog g).freeCtr = s.freeCtr ∧ (s.onWlog g).nextUid = s.nextUid ∧ (s.onWlog g).fuse = s.fuse ∧
  (s.onWlog g).pin = s.pin ∧ (s.onWlog g).dev = s.dev ∧ (s.onWlog g).fn = s.fn ∧ (s.onWlog g).apw = s.apw ∧ (s.onWlog g).mbx = s.mbx ∧
  (s.onWlog g).mbxBuf = s.mbxBuf ∧ (s.onWlog g).queue = s.queue ∧ (s.onWlog g).cas = s.cas ∧ (s.onWlog g).ctx = s.ctx ∧
  (s.onWlog g).alloc = s.alloc ∧ (s.onWlog g).fills = s.fills ∧ (s.onWlog g).desc = s.desc ∧ (s.onWlog g).prog = s.prog ∧
  (s.onWlog g).latch = s.latch ∧ (s.onWlog g).latchHold = s.latchHold ∧ (s.onWlog g).run = s.run ∧ (s.onWlog g).core = s.core ∧
  (s.onWlog g).saved = s.saved ∧ (s.onWlog g).tile = s.tile ∧ (s.onWlog g).opStore = s.opStore ∧ (s.onWlog g).accStore = s.accStore ∧
  (s.onWlog g).armed = s.armed ∧ (s.onWlog g).unitCtx = s.unitCtx ∧ (s.onWlog g).bank = s.bank ∧ (s.onWlog g).localMem = s.localMem ∧
  (s.onWlog g).sharedMem = s.sharedMem ∧ (s.onWlog g).tileMem = s.tileMem ∧ (s.onWlog g).badWords = s.badWords ∧ (s.onWlog g).stackMem = s.stackMem ∧
  (s.onWlog g).window = s.window ∧ (s.onWlog g).winFree = s.winFree ∧ (s.onWlog g).health = s.health ∧ (s.onWlog g).lb = s.lb ∧
  (s.onWlog g).ecc = s.ecc ∧ (s.onWlog g).eccReg = s.eccReg ∧ (s.onWlog g).farMem = s.farMem ∧ (s.onWlog g).farBad = s.farBad ∧
  (s.onWlog g).hostMem = s.hostMem ∧ (s.onWlog g).far = s.far ∧ (s.onWlog g).job = s.job ∧ (s.onWlog g).seq = s.seq ∧ (s.onWlog g).page = s.page ∧
  (s.onWlog g).calib = s.calib ∧ (s.onWlog g).area = s.area ∧ (s.onWlog g).req = s.req ∧ (s.onWlog g).fab = s.fab ∧ (s.onWlog g).port = s.port ∧
  (s.onWlog g).plan = s.plan ∧ (s.onWlog g).coll = s.coll ∧ (s.onWlog g).wlog = g s.wlog ∧ (s.onWlog g).lvr = s.lvr ∧ (s.onWlog g).therm = s.therm ∧
  (s.onWlog g).gated = s.gated ∧ (s.onWlog g).turn = s.turn ∧ (s.onWlog g).wake = s.wake ∧ (s.onWlog g).acc = s.acc ∧ (s.onWlog g).proc = s.proc ∧
  (s.onWlog g).fw = s.fw ∧ (s.onWlog g).mgmt = s.mgmt ∧ (s.onWlog g).out = s.out := by
  refine ⟨rfl, rfl, rfl, rfl, rfl, rfl, rfl, rfl, rfl, rfl, rfl, rfl, rfl, rfl, rfl, rfl, rfl, rfl, rfl, rfl, rfl, rfl, rfl, rfl, rfl, rfl, rfl, rfl, rfl, rfl, rfl, rfl, rfl, rfl, rfl, rfl, rfl, rfl, rfl, rfl, rfl, rfl, rfl, rfl, rfl, rfl, rfl, rfl, rfl, rfl, rfl, rfl, rfl, rfl, rfl, rfl, rfl, rfl, rfl, rfl, rfl, rfl, rfl, rfl⟩

@[simp] theorem State.onLvr_fields (s : State) (g : Lvr → Lvr) :
  (s.onLvr g).pending = s.pending ∧ (s.onLvr g).freeCtr = s.freeCtr ∧ (s.onLvr g).nextUid = s.nextUid ∧ (s.onLvr g).fuse = s.fuse ∧
  (s.onLvr g).pin = s.pin ∧ (s.onLvr g).dev = s.dev ∧ (s.onLvr g).fn = s.fn ∧ (s.onLvr g).apw = s.apw ∧ (s.onLvr g).mbx = s.mbx ∧
  (s.onLvr g).mbxBuf = s.mbxBuf ∧ (s.onLvr g).queue = s.queue ∧ (s.onLvr g).cas = s.cas ∧ (s.onLvr g).ctx = s.ctx ∧ (s.onLvr g).alloc = s.alloc ∧
  (s.onLvr g).fills = s.fills ∧ (s.onLvr g).desc = s.desc ∧ (s.onLvr g).prog = s.prog ∧ (s.onLvr g).latch = s.latch ∧
  (s.onLvr g).latchHold = s.latchHold ∧ (s.onLvr g).run = s.run ∧ (s.onLvr g).core = s.core ∧ (s.onLvr g).saved = s.saved ∧
  (s.onLvr g).tile = s.tile ∧ (s.onLvr g).opStore = s.opStore ∧ (s.onLvr g).accStore = s.accStore ∧ (s.onLvr g).armed = s.armed ∧
  (s.onLvr g).unitCtx = s.unitCtx ∧ (s.onLvr g).bank = s.bank ∧ (s.onLvr g).localMem = s.localMem ∧ (s.onLvr g).sharedMem = s.sharedMem ∧
  (s.onLvr g).tileMem = s.tileMem ∧ (s.onLvr g).badWords = s.badWords ∧ (s.onLvr g).stackMem = s.stackMem ∧ (s.onLvr g).window = s.window ∧
  (s.onLvr g).winFree = s.winFree ∧ (s.onLvr g).health = s.health ∧ (s.onLvr g).lb = s.lb ∧ (s.onLvr g).ecc = s.ecc ∧ (s.onLvr g).eccReg = s.eccReg ∧
  (s.onLvr g).farMem = s.farMem ∧ (s.onLvr g).farBad = s.farBad ∧ (s.onLvr g).hostMem = s.hostMem ∧ (s.onLvr g).far = s.far ∧
  (s.onLvr g).job = s.job ∧ (s.onLvr g).seq = s.seq ∧ (s.onLvr g).page = s.page ∧ (s.onLvr g).calib = s.calib ∧ (s.onLvr g).area = s.area ∧
  (s.onLvr g).req = s.req ∧ (s.onLvr g).fab = s.fab ∧ (s.onLvr g).port = s.port ∧ (s.onLvr g).plan = s.plan ∧ (s.onLvr g).coll = s.coll ∧
  (s.onLvr g).wlog = s.wlog ∧ (s.onLvr g).lvr = g s.lvr ∧ (s.onLvr g).therm = s.therm ∧ (s.onLvr g).gated = s.gated ∧ (s.onLvr g).turn = s.turn ∧
  (s.onLvr g).wake = s.wake ∧ (s.onLvr g).acc = s.acc ∧ (s.onLvr g).proc = s.proc ∧ (s.onLvr g).fw = s.fw ∧ (s.onLvr g).mgmt = s.mgmt ∧
  (s.onLvr g).out = s.out := by
  refine ⟨rfl, rfl, rfl, rfl, rfl, rfl, rfl, rfl, rfl, rfl, rfl, rfl, rfl, rfl, rfl, rfl, rfl, rfl, rfl, rfl, rfl, rfl, rfl, rfl, rfl, rfl, rfl, rfl, rfl, rfl, rfl, rfl, rfl, rfl, rfl, rfl, rfl, rfl, rfl, rfl, rfl, rfl, rfl, rfl, rfl, rfl, rfl, rfl, rfl, rfl, rfl, rfl, rfl, rfl, rfl, rfl, rfl, rfl, rfl, rfl, rfl, rfl, rfl, rfl⟩

@[simp] theorem State.onTherm_fields (s : State) (g : Therm → Therm) :
  (s.onTherm g).pending = s.pending ∧ (s.onTherm g).freeCtr = s.freeCtr ∧ (s.onTherm g).nextUid = s.nextUid ∧ (s.onTherm g).fuse = s.fuse ∧
  (s.onTherm g).pin = s.pin ∧ (s.onTherm g).dev = s.dev ∧ (s.onTherm g).fn = s.fn ∧ (s.onTherm g).apw = s.apw ∧ (s.onTherm g).mbx = s.mbx ∧
  (s.onTherm g).mbxBuf = s.mbxBuf ∧ (s.onTherm g).queue = s.queue ∧ (s.onTherm g).cas = s.cas ∧ (s.onTherm g).ctx = s.ctx ∧
  (s.onTherm g).alloc = s.alloc ∧ (s.onTherm g).fills = s.fills ∧ (s.onTherm g).desc = s.desc ∧ (s.onTherm g).prog = s.prog ∧
  (s.onTherm g).latch = s.latch ∧ (s.onTherm g).latchHold = s.latchHold ∧ (s.onTherm g).run = s.run ∧ (s.onTherm g).core = s.core ∧
  (s.onTherm g).saved = s.saved ∧ (s.onTherm g).tile = s.tile ∧ (s.onTherm g).opStore = s.opStore ∧ (s.onTherm g).accStore = s.accStore ∧
  (s.onTherm g).armed = s.armed ∧ (s.onTherm g).unitCtx = s.unitCtx ∧ (s.onTherm g).bank = s.bank ∧ (s.onTherm g).localMem = s.localMem ∧
  (s.onTherm g).sharedMem = s.sharedMem ∧ (s.onTherm g).tileMem = s.tileMem ∧ (s.onTherm g).badWords = s.badWords ∧
  (s.onTherm g).stackMem = s.stackMem ∧ (s.onTherm g).window = s.window ∧ (s.onTherm g).winFree = s.winFree ∧ (s.onTherm g).health = s.health ∧
  (s.onTherm g).lb = s.lb ∧ (s.onTherm g).ecc = s.ecc ∧ (s.onTherm g).eccReg = s.eccReg ∧ (s.onTherm g).farMem = s.farMem ∧
  (s.onTherm g).farBad = s.farBad ∧ (s.onTherm g).hostMem = s.hostMem ∧ (s.onTherm g).far = s.far ∧ (s.onTherm g).job = s.job ∧
  (s.onTherm g).seq = s.seq ∧ (s.onTherm g).page = s.page ∧ (s.onTherm g).calib = s.calib ∧ (s.onTherm g).area = s.area ∧ (s.onTherm g).req = s.req ∧
  (s.onTherm g).fab = s.fab ∧ (s.onTherm g).port = s.port ∧ (s.onTherm g).plan = s.plan ∧ (s.onTherm g).coll = s.coll ∧ (s.onTherm g).wlog = s.wlog ∧
  (s.onTherm g).lvr = s.lvr ∧ (s.onTherm g).therm = g s.therm ∧ (s.onTherm g).gated = s.gated ∧ (s.onTherm g).turn = s.turn ∧
  (s.onTherm g).wake = s.wake ∧ (s.onTherm g).acc = s.acc ∧ (s.onTherm g).proc = s.proc ∧ (s.onTherm g).fw = s.fw ∧ (s.onTherm g).mgmt = s.mgmt ∧
  (s.onTherm g).out = s.out := by
  refine ⟨rfl, rfl, rfl, rfl, rfl, rfl, rfl, rfl, rfl, rfl, rfl, rfl, rfl, rfl, rfl, rfl, rfl, rfl, rfl, rfl, rfl, rfl, rfl, rfl, rfl, rfl, rfl, rfl, rfl, rfl, rfl, rfl, rfl, rfl, rfl, rfl, rfl, rfl, rfl, rfl, rfl, rfl, rfl, rfl, rfl, rfl, rfl, rfl, rfl, rfl, rfl, rfl, rfl, rfl, rfl, rfl, rfl, rfl, rfl, rfl, rfl, rfl, rfl, rfl⟩

@[simp] theorem State.onGated_fields (s : State) (g : List GUnit → List GUnit) :
  (s.onGated g).pending = s.pending ∧ (s.onGated g).freeCtr = s.freeCtr ∧ (s.onGated g).nextUid = s.nextUid ∧ (s.onGated g).fuse = s.fuse ∧
  (s.onGated g).pin = s.pin ∧ (s.onGated g).dev = s.dev ∧ (s.onGated g).fn = s.fn ∧ (s.onGated g).apw = s.apw ∧ (s.onGated g).mbx = s.mbx ∧
  (s.onGated g).mbxBuf = s.mbxBuf ∧ (s.onGated g).queue = s.queue ∧ (s.onGated g).cas = s.cas ∧ (s.onGated g).ctx = s.ctx ∧
  (s.onGated g).alloc = s.alloc ∧ (s.onGated g).fills = s.fills ∧ (s.onGated g).desc = s.desc ∧ (s.onGated g).prog = s.prog ∧
  (s.onGated g).latch = s.latch ∧ (s.onGated g).latchHold = s.latchHold ∧ (s.onGated g).run = s.run ∧ (s.onGated g).core = s.core ∧
  (s.onGated g).saved = s.saved ∧ (s.onGated g).tile = s.tile ∧ (s.onGated g).opStore = s.opStore ∧ (s.onGated g).accStore = s.accStore ∧
  (s.onGated g).armed = s.armed ∧ (s.onGated g).unitCtx = s.unitCtx ∧ (s.onGated g).bank = s.bank ∧ (s.onGated g).localMem = s.localMem ∧
  (s.onGated g).sharedMem = s.sharedMem ∧ (s.onGated g).tileMem = s.tileMem ∧ (s.onGated g).badWords = s.badWords ∧
  (s.onGated g).stackMem = s.stackMem ∧ (s.onGated g).window = s.window ∧ (s.onGated g).winFree = s.winFree ∧ (s.onGated g).health = s.health ∧
  (s.onGated g).lb = s.lb ∧ (s.onGated g).ecc = s.ecc ∧ (s.onGated g).eccReg = s.eccReg ∧ (s.onGated g).farMem = s.farMem ∧
  (s.onGated g).farBad = s.farBad ∧ (s.onGated g).hostMem = s.hostMem ∧ (s.onGated g).far = s.far ∧ (s.onGated g).job = s.job ∧
  (s.onGated g).seq = s.seq ∧ (s.onGated g).page = s.page ∧ (s.onGated g).calib = s.calib ∧ (s.onGated g).area = s.area ∧ (s.onGated g).req = s.req ∧
  (s.onGated g).fab = s.fab ∧ (s.onGated g).port = s.port ∧ (s.onGated g).plan = s.plan ∧ (s.onGated g).coll = s.coll ∧ (s.onGated g).wlog = s.wlog ∧
  (s.onGated g).lvr = s.lvr ∧ (s.onGated g).therm = s.therm ∧ (s.onGated g).gated = g s.gated ∧ (s.onGated g).turn = s.turn ∧
  (s.onGated g).wake = s.wake ∧ (s.onGated g).acc = s.acc ∧ (s.onGated g).proc = s.proc ∧ (s.onGated g).fw = s.fw ∧ (s.onGated g).mgmt = s.mgmt ∧
  (s.onGated g).out = s.out := by
  refine ⟨rfl, rfl, rfl, rfl, rfl, rfl, rfl, rfl, rfl, rfl, rfl, rfl, rfl, rfl, rfl, rfl, rfl, rfl, rfl, rfl, rfl, rfl, rfl, rfl, rfl, rfl, rfl, rfl, rfl, rfl, rfl, rfl, rfl, rfl, rfl, rfl, rfl, rfl, rfl, rfl, rfl, rfl, rfl, rfl, rfl, rfl, rfl, rfl, rfl, rfl, rfl, rfl, rfl, rfl, rfl, rfl, rfl, rfl, rfl, rfl, rfl, rfl, rfl, rfl⟩

@[simp] theorem State.onTurn_fields (s : State) (g : Tbl Nat → Tbl Nat) :
  (s.onTurn g).pending = s.pending ∧ (s.onTurn g).freeCtr = s.freeCtr ∧ (s.onTurn g).nextUid = s.nextUid ∧ (s.onTurn g).fuse = s.fuse ∧
  (s.onTurn g).pin = s.pin ∧ (s.onTurn g).dev = s.dev ∧ (s.onTurn g).fn = s.fn ∧ (s.onTurn g).apw = s.apw ∧ (s.onTurn g).mbx = s.mbx ∧
  (s.onTurn g).mbxBuf = s.mbxBuf ∧ (s.onTurn g).queue = s.queue ∧ (s.onTurn g).cas = s.cas ∧ (s.onTurn g).ctx = s.ctx ∧
  (s.onTurn g).alloc = s.alloc ∧ (s.onTurn g).fills = s.fills ∧ (s.onTurn g).desc = s.desc ∧ (s.onTurn g).prog = s.prog ∧
  (s.onTurn g).latch = s.latch ∧ (s.onTurn g).latchHold = s.latchHold ∧ (s.onTurn g).run = s.run ∧ (s.onTurn g).core = s.core ∧
  (s.onTurn g).saved = s.saved ∧ (s.onTurn g).tile = s.tile ∧ (s.onTurn g).opStore = s.opStore ∧ (s.onTurn g).accStore = s.accStore ∧
  (s.onTurn g).armed = s.armed ∧ (s.onTurn g).unitCtx = s.unitCtx ∧ (s.onTurn g).bank = s.bank ∧ (s.onTurn g).localMem = s.localMem ∧
  (s.onTurn g).sharedMem = s.sharedMem ∧ (s.onTurn g).tileMem = s.tileMem ∧ (s.onTurn g).badWords = s.badWords ∧ (s.onTurn g).stackMem = s.stackMem ∧
  (s.onTurn g).window = s.window ∧ (s.onTurn g).winFree = s.winFree ∧ (s.onTurn g).health = s.health ∧ (s.onTurn g).lb = s.lb ∧
  (s.onTurn g).ecc = s.ecc ∧ (s.onTurn g).eccReg = s.eccReg ∧ (s.onTurn g).farMem = s.farMem ∧ (s.onTurn g).farBad = s.farBad ∧
  (s.onTurn g).hostMem = s.hostMem ∧ (s.onTurn g).far = s.far ∧ (s.onTurn g).job = s.job ∧ (s.onTurn g).seq = s.seq ∧ (s.onTurn g).page = s.page ∧
  (s.onTurn g).calib = s.calib ∧ (s.onTurn g).area = s.area ∧ (s.onTurn g).req = s.req ∧ (s.onTurn g).fab = s.fab ∧ (s.onTurn g).port = s.port ∧
  (s.onTurn g).plan = s.plan ∧ (s.onTurn g).coll = s.coll ∧ (s.onTurn g).wlog = s.wlog ∧ (s.onTurn g).lvr = s.lvr ∧ (s.onTurn g).therm = s.therm ∧
  (s.onTurn g).gated = s.gated ∧ (s.onTurn g).turn = g s.turn ∧ (s.onTurn g).wake = s.wake ∧ (s.onTurn g).acc = s.acc ∧ (s.onTurn g).proc = s.proc ∧
  (s.onTurn g).fw = s.fw ∧ (s.onTurn g).mgmt = s.mgmt ∧ (s.onTurn g).out = s.out := by
  refine ⟨rfl, rfl, rfl, rfl, rfl, rfl, rfl, rfl, rfl, rfl, rfl, rfl, rfl, rfl, rfl, rfl, rfl, rfl, rfl, rfl, rfl, rfl, rfl, rfl, rfl, rfl, rfl, rfl, rfl, rfl, rfl, rfl, rfl, rfl, rfl, rfl, rfl, rfl, rfl, rfl, rfl, rfl, rfl, rfl, rfl, rfl, rfl, rfl, rfl, rfl, rfl, rfl, rfl, rfl, rfl, rfl, rfl, rfl, rfl, rfl, rfl, rfl, rfl, rfl⟩

@[simp] theorem State.onWake_fields (s : State) (g : List GUnit → List GUnit) :
  (s.onWake g).pending = s.pending ∧ (s.onWake g).freeCtr = s.freeCtr ∧ (s.onWake g).nextUid = s.nextUid ∧ (s.onWake g).fuse = s.fuse ∧
  (s.onWake g).pin = s.pin ∧ (s.onWake g).dev = s.dev ∧ (s.onWake g).fn = s.fn ∧ (s.onWake g).apw = s.apw ∧ (s.onWake g).mbx = s.mbx ∧
  (s.onWake g).mbxBuf = s.mbxBuf ∧ (s.onWake g).queue = s.queue ∧ (s.onWake g).cas = s.cas ∧ (s.onWake g).ctx = s.ctx ∧
  (s.onWake g).alloc = s.alloc ∧ (s.onWake g).fills = s.fills ∧ (s.onWake g).desc = s.desc ∧ (s.onWake g).prog = s.prog ∧
  (s.onWake g).latch = s.latch ∧ (s.onWake g).latchHold = s.latchHold ∧ (s.onWake g).run = s.run ∧ (s.onWake g).core = s.core ∧
  (s.onWake g).saved = s.saved ∧ (s.onWake g).tile = s.tile ∧ (s.onWake g).opStore = s.opStore ∧ (s.onWake g).accStore = s.accStore ∧
  (s.onWake g).armed = s.armed ∧ (s.onWake g).unitCtx = s.unitCtx ∧ (s.onWake g).bank = s.bank ∧ (s.onWake g).localMem = s.localMem ∧
  (s.onWake g).sharedMem = s.sharedMem ∧ (s.onWake g).tileMem = s.tileMem ∧ (s.onWake g).badWords = s.badWords ∧ (s.onWake g).stackMem = s.stackMem ∧
  (s.onWake g).window = s.window ∧ (s.onWake g).winFree = s.winFree ∧ (s.onWake g).health = s.health ∧ (s.onWake g).lb = s.lb ∧
  (s.onWake g).ecc = s.ecc ∧ (s.onWake g).eccReg = s.eccReg ∧ (s.onWake g).farMem = s.farMem ∧ (s.onWake g).farBad = s.farBad ∧
  (s.onWake g).hostMem = s.hostMem ∧ (s.onWake g).far = s.far ∧ (s.onWake g).job = s.job ∧ (s.onWake g).seq = s.seq ∧ (s.onWake g).page = s.page ∧
  (s.onWake g).calib = s.calib ∧ (s.onWake g).area = s.area ∧ (s.onWake g).req = s.req ∧ (s.onWake g).fab = s.fab ∧ (s.onWake g).port = s.port ∧
  (s.onWake g).plan = s.plan ∧ (s.onWake g).coll = s.coll ∧ (s.onWake g).wlog = s.wlog ∧ (s.onWake g).lvr = s.lvr ∧ (s.onWake g).therm = s.therm ∧
  (s.onWake g).gated = s.gated ∧ (s.onWake g).turn = s.turn ∧ (s.onWake g).wake = g s.wake ∧ (s.onWake g).acc = s.acc ∧ (s.onWake g).proc = s.proc ∧
  (s.onWake g).fw = s.fw ∧ (s.onWake g).mgmt = s.mgmt ∧ (s.onWake g).out = s.out := by
  refine ⟨rfl, rfl, rfl, rfl, rfl, rfl, rfl, rfl, rfl, rfl, rfl, rfl, rfl, rfl, rfl, rfl, rfl, rfl, rfl, rfl, rfl, rfl, rfl, rfl, rfl, rfl, rfl, rfl, rfl, rfl, rfl, rfl, rfl, rfl, rfl, rfl, rfl, rfl, rfl, rfl, rfl, rfl, rfl, rfl, rfl, rfl, rfl, rfl, rfl, rfl, rfl, rfl, rfl, rfl, rfl, rfl, rfl, rfl, rfl, rfl, rfl, rfl, rfl, rfl⟩

@[simp] theorem State.onAcc_fields (s : State) (g : Reach → Reach) :
  (s.onAcc g).pending = s.pending ∧ (s.onAcc g).freeCtr = s.freeCtr ∧ (s.onAcc g).nextUid = s.nextUid ∧ (s.onAcc g).fuse = s.fuse ∧
  (s.onAcc g).pin = s.pin ∧ (s.onAcc g).dev = s.dev ∧ (s.onAcc g).fn = s.fn ∧ (s.onAcc g).apw = s.apw ∧ (s.onAcc g).mbx = s.mbx ∧
  (s.onAcc g).mbxBuf = s.mbxBuf ∧ (s.onAcc g).queue = s.queue ∧ (s.onAcc g).cas = s.cas ∧ (s.onAcc g).ctx = s.ctx ∧ (s.onAcc g).alloc = s.alloc ∧
  (s.onAcc g).fills = s.fills ∧ (s.onAcc g).desc = s.desc ∧ (s.onAcc g).prog = s.prog ∧ (s.onAcc g).latch = s.latch ∧
  (s.onAcc g).latchHold = s.latchHold ∧ (s.onAcc g).run = s.run ∧ (s.onAcc g).core = s.core ∧ (s.onAcc g).saved = s.saved ∧
  (s.onAcc g).tile = s.tile ∧ (s.onAcc g).opStore = s.opStore ∧ (s.onAcc g).accStore = s.accStore ∧ (s.onAcc g).armed = s.armed ∧
  (s.onAcc g).unitCtx = s.unitCtx ∧ (s.onAcc g).bank = s.bank ∧ (s.onAcc g).localMem = s.localMem ∧ (s.onAcc g).sharedMem = s.sharedMem ∧
  (s.onAcc g).tileMem = s.tileMem ∧ (s.onAcc g).badWords = s.badWords ∧ (s.onAcc g).stackMem = s.stackMem ∧ (s.onAcc g).window = s.window ∧
  (s.onAcc g).winFree = s.winFree ∧ (s.onAcc g).health = s.health ∧ (s.onAcc g).lb = s.lb ∧ (s.onAcc g).ecc = s.ecc ∧ (s.onAcc g).eccReg = s.eccReg ∧
  (s.onAcc g).farMem = s.farMem ∧ (s.onAcc g).farBad = s.farBad ∧ (s.onAcc g).hostMem = s.hostMem ∧ (s.onAcc g).far = s.far ∧
  (s.onAcc g).job = s.job ∧ (s.onAcc g).seq = s.seq ∧ (s.onAcc g).page = s.page ∧ (s.onAcc g).calib = s.calib ∧ (s.onAcc g).area = s.area ∧
  (s.onAcc g).req = s.req ∧ (s.onAcc g).fab = s.fab ∧ (s.onAcc g).port = s.port ∧ (s.onAcc g).plan = s.plan ∧ (s.onAcc g).coll = s.coll ∧
  (s.onAcc g).wlog = s.wlog ∧ (s.onAcc g).lvr = s.lvr ∧ (s.onAcc g).therm = s.therm ∧ (s.onAcc g).gated = s.gated ∧ (s.onAcc g).turn = s.turn ∧
  (s.onAcc g).wake = s.wake ∧ (s.onAcc g).acc = g s.acc ∧ (s.onAcc g).proc = s.proc ∧ (s.onAcc g).fw = s.fw ∧ (s.onAcc g).mgmt = s.mgmt ∧
  (s.onAcc g).out = s.out := by
  refine ⟨rfl, rfl, rfl, rfl, rfl, rfl, rfl, rfl, rfl, rfl, rfl, rfl, rfl, rfl, rfl, rfl, rfl, rfl, rfl, rfl, rfl, rfl, rfl, rfl, rfl, rfl, rfl, rfl, rfl, rfl, rfl, rfl, rfl, rfl, rfl, rfl, rfl, rfl, rfl, rfl, rfl, rfl, rfl, rfl, rfl, rfl, rfl, rfl, rfl, rfl, rfl, rfl, rfl, rfl, rfl, rfl, rfl, rfl, rfl, rfl, rfl, rfl, rfl, rfl⟩

@[simp] theorem State.onProc_fields (s : State) (g : Tbl Proc → Tbl Proc) :
  (s.onProc g).pending = s.pending ∧ (s.onProc g).freeCtr = s.freeCtr ∧ (s.onProc g).nextUid = s.nextUid ∧ (s.onProc g).fuse = s.fuse ∧
  (s.onProc g).pin = s.pin ∧ (s.onProc g).dev = s.dev ∧ (s.onProc g).fn = s.fn ∧ (s.onProc g).apw = s.apw ∧ (s.onProc g).mbx = s.mbx ∧
  (s.onProc g).mbxBuf = s.mbxBuf ∧ (s.onProc g).queue = s.queue ∧ (s.onProc g).cas = s.cas ∧ (s.onProc g).ctx = s.ctx ∧
  (s.onProc g).alloc = s.alloc ∧ (s.onProc g).fills = s.fills ∧ (s.onProc g).desc = s.desc ∧ (s.onProc g).prog = s.prog ∧
  (s.onProc g).latch = s.latch ∧ (s.onProc g).latchHold = s.latchHold ∧ (s.onProc g).run = s.run ∧ (s.onProc g).core = s.core ∧
  (s.onProc g).saved = s.saved ∧ (s.onProc g).tile = s.tile ∧ (s.onProc g).opStore = s.opStore ∧ (s.onProc g).accStore = s.accStore ∧
  (s.onProc g).armed = s.armed ∧ (s.onProc g).unitCtx = s.unitCtx ∧ (s.onProc g).bank = s.bank ∧ (s.onProc g).localMem = s.localMem ∧
  (s.onProc g).sharedMem = s.sharedMem ∧ (s.onProc g).tileMem = s.tileMem ∧ (s.onProc g).badWords = s.badWords ∧ (s.onProc g).stackMem = s.stackMem ∧
  (s.onProc g).window = s.window ∧ (s.onProc g).winFree = s.winFree ∧ (s.onProc g).health = s.health ∧ (s.onProc g).lb = s.lb ∧
  (s.onProc g).ecc = s.ecc ∧ (s.onProc g).eccReg = s.eccReg ∧ (s.onProc g).farMem = s.farMem ∧ (s.onProc g).farBad = s.farBad ∧
  (s.onProc g).hostMem = s.hostMem ∧ (s.onProc g).far = s.far ∧ (s.onProc g).job = s.job ∧ (s.onProc g).seq = s.seq ∧ (s.onProc g).page = s.page ∧
  (s.onProc g).calib = s.calib ∧ (s.onProc g).area = s.area ∧ (s.onProc g).req = s.req ∧ (s.onProc g).fab = s.fab ∧ (s.onProc g).port = s.port ∧
  (s.onProc g).plan = s.plan ∧ (s.onProc g).coll = s.coll ∧ (s.onProc g).wlog = s.wlog ∧ (s.onProc g).lvr = s.lvr ∧ (s.onProc g).therm = s.therm ∧
  (s.onProc g).gated = s.gated ∧ (s.onProc g).turn = s.turn ∧ (s.onProc g).wake = s.wake ∧ (s.onProc g).acc = s.acc ∧ (s.onProc g).proc = g s.proc ∧
  (s.onProc g).fw = s.fw ∧ (s.onProc g).mgmt = s.mgmt ∧ (s.onProc g).out = s.out := by
  refine ⟨rfl, rfl, rfl, rfl, rfl, rfl, rfl, rfl, rfl, rfl, rfl, rfl, rfl, rfl, rfl, rfl, rfl, rfl, rfl, rfl, rfl, rfl, rfl, rfl, rfl, rfl, rfl, rfl, rfl, rfl, rfl, rfl, rfl, rfl, rfl, rfl, rfl, rfl, rfl, rfl, rfl, rfl, rfl, rfl, rfl, rfl, rfl, rfl, rfl, rfl, rfl, rfl, rfl, rfl, rfl, rfl, rfl, rfl, rfl, rfl, rfl, rfl, rfl, rfl⟩

@[simp] theorem State.onFw_fields (s : State) (g : Fw → Fw) :
  (s.onFw g).pending = s.pending ∧ (s.onFw g).freeCtr = s.freeCtr ∧ (s.onFw g).nextUid = s.nextUid ∧ (s.onFw g).fuse = s.fuse ∧
  (s.onFw g).pin = s.pin ∧ (s.onFw g).dev = s.dev ∧ (s.onFw g).fn = s.fn ∧ (s.onFw g).apw = s.apw ∧ (s.onFw g).mbx = s.mbx ∧
  (s.onFw g).mbxBuf = s.mbxBuf ∧ (s.onFw g).queue = s.queue ∧ (s.onFw g).cas = s.cas ∧ (s.onFw g).ctx = s.ctx ∧ (s.onFw g).alloc = s.alloc ∧
  (s.onFw g).fills = s.fills ∧ (s.onFw g).desc = s.desc ∧ (s.onFw g).prog = s.prog ∧ (s.onFw g).latch = s.latch ∧
  (s.onFw g).latchHold = s.latchHold ∧ (s.onFw g).run = s.run ∧ (s.onFw g).core = s.core ∧ (s.onFw g).saved = s.saved ∧ (s.onFw g).tile = s.tile ∧
  (s.onFw g).opStore = s.opStore ∧ (s.onFw g).accStore = s.accStore ∧ (s.onFw g).armed = s.armed ∧ (s.onFw g).unitCtx = s.unitCtx ∧
  (s.onFw g).bank = s.bank ∧ (s.onFw g).localMem = s.localMem ∧ (s.onFw g).sharedMem = s.sharedMem ∧ (s.onFw g).tileMem = s.tileMem ∧
  (s.onFw g).badWords = s.badWords ∧ (s.onFw g).stackMem = s.stackMem ∧ (s.onFw g).window = s.window ∧ (s.onFw g).winFree = s.winFree ∧
  (s.onFw g).health = s.health ∧ (s.onFw g).lb = s.lb ∧ (s.onFw g).ecc = s.ecc ∧ (s.onFw g).eccReg = s.eccReg ∧ (s.onFw g).farMem = s.farMem ∧
  (s.onFw g).farBad = s.farBad ∧ (s.onFw g).hostMem = s.hostMem ∧ (s.onFw g).far = s.far ∧ (s.onFw g).job = s.job ∧ (s.onFw g).seq = s.seq ∧
  (s.onFw g).page = s.page ∧ (s.onFw g).calib = s.calib ∧ (s.onFw g).area = s.area ∧ (s.onFw g).req = s.req ∧ (s.onFw g).fab = s.fab ∧
  (s.onFw g).port = s.port ∧ (s.onFw g).plan = s.plan ∧ (s.onFw g).coll = s.coll ∧ (s.onFw g).wlog = s.wlog ∧ (s.onFw g).lvr = s.lvr ∧
  (s.onFw g).therm = s.therm ∧ (s.onFw g).gated = s.gated ∧ (s.onFw g).turn = s.turn ∧ (s.onFw g).wake = s.wake ∧ (s.onFw g).acc = s.acc ∧
  (s.onFw g).proc = s.proc ∧ (s.onFw g).fw = g s.fw ∧ (s.onFw g).mgmt = s.mgmt ∧ (s.onFw g).out = s.out := by
  refine ⟨rfl, rfl, rfl, rfl, rfl, rfl, rfl, rfl, rfl, rfl, rfl, rfl, rfl, rfl, rfl, rfl, rfl, rfl, rfl, rfl, rfl, rfl, rfl, rfl, rfl, rfl, rfl, rfl, rfl, rfl, rfl, rfl, rfl, rfl, rfl, rfl, rfl, rfl, rfl, rfl, rfl, rfl, rfl, rfl, rfl, rfl, rfl, rfl, rfl, rfl, rfl, rfl, rfl, rfl, rfl, rfl, rfl, rfl, rfl, rfl, rfl, rfl, rfl, rfl⟩

@[simp] theorem State.onMgmt_fields (s : State) (g : Mgmt → Mgmt) :
  (s.onMgmt g).pending = s.pending ∧ (s.onMgmt g).freeCtr = s.freeCtr ∧ (s.onMgmt g).nextUid = s.nextUid ∧ (s.onMgmt g).fuse = s.fuse ∧
  (s.onMgmt g).pin = s.pin ∧ (s.onMgmt g).dev = s.dev ∧ (s.onMgmt g).fn = s.fn ∧ (s.onMgmt g).apw = s.apw ∧ (s.onMgmt g).mbx = s.mbx ∧
  (s.onMgmt g).mbxBuf = s.mbxBuf ∧ (s.onMgmt g).queue = s.queue ∧ (s.onMgmt g).cas = s.cas ∧ (s.onMgmt g).ctx = s.ctx ∧
  (s.onMgmt g).alloc = s.alloc ∧ (s.onMgmt g).fills = s.fills ∧ (s.onMgmt g).desc = s.desc ∧ (s.onMgmt g).prog = s.prog ∧
  (s.onMgmt g).latch = s.latch ∧ (s.onMgmt g).latchHold = s.latchHold ∧ (s.onMgmt g).run = s.run ∧ (s.onMgmt g).core = s.core ∧
  (s.onMgmt g).saved = s.saved ∧ (s.onMgmt g).tile = s.tile ∧ (s.onMgmt g).opStore = s.opStore ∧ (s.onMgmt g).accStore = s.accStore ∧
  (s.onMgmt g).armed = s.armed ∧ (s.onMgmt g).unitCtx = s.unitCtx ∧ (s.onMgmt g).bank = s.bank ∧ (s.onMgmt g).localMem = s.localMem ∧
  (s.onMgmt g).sharedMem = s.sharedMem ∧ (s.onMgmt g).tileMem = s.tileMem ∧ (s.onMgmt g).badWords = s.badWords ∧ (s.onMgmt g).stackMem = s.stackMem ∧
  (s.onMgmt g).window = s.window ∧ (s.onMgmt g).winFree = s.winFree ∧ (s.onMgmt g).health = s.health ∧ (s.onMgmt g).lb = s.lb ∧
  (s.onMgmt g).ecc = s.ecc ∧ (s.onMgmt g).eccReg = s.eccReg ∧ (s.onMgmt g).farMem = s.farMem ∧ (s.onMgmt g).farBad = s.farBad ∧
  (s.onMgmt g).hostMem = s.hostMem ∧ (s.onMgmt g).far = s.far ∧ (s.onMgmt g).job = s.job ∧ (s.onMgmt g).seq = s.seq ∧ (s.onMgmt g).page = s.page ∧
  (s.onMgmt g).calib = s.calib ∧ (s.onMgmt g).area = s.area ∧ (s.onMgmt g).req = s.req ∧ (s.onMgmt g).fab = s.fab ∧ (s.onMgmt g).port = s.port ∧
  (s.onMgmt g).plan = s.plan ∧ (s.onMgmt g).coll = s.coll ∧ (s.onMgmt g).wlog = s.wlog ∧ (s.onMgmt g).lvr = s.lvr ∧ (s.onMgmt g).therm = s.therm ∧
  (s.onMgmt g).gated = s.gated ∧ (s.onMgmt g).turn = s.turn ∧ (s.onMgmt g).wake = s.wake ∧ (s.onMgmt g).acc = s.acc ∧ (s.onMgmt g).proc = s.proc ∧
  (s.onMgmt g).fw = s.fw ∧ (s.onMgmt g).mgmt = g s.mgmt ∧ (s.onMgmt g).out = s.out := by
  refine ⟨rfl, rfl, rfl, rfl, rfl, rfl, rfl, rfl, rfl, rfl, rfl, rfl, rfl, rfl, rfl, rfl, rfl, rfl, rfl, rfl, rfl, rfl, rfl, rfl, rfl, rfl, rfl, rfl, rfl, rfl, rfl, rfl, rfl, rfl, rfl, rfl, rfl, rfl, rfl, rfl, rfl, rfl, rfl, rfl, rfl, rfl, rfl, rfl, rfl, rfl, rfl, rfl, rfl, rfl, rfl, rfl, rfl, rfl, rfl, rfl, rfl, rfl, rfl, rfl⟩

@[simp] theorem State.onOut_fields (s : State) (g : Out → Out) :
  (s.onOut g).pending = s.pending ∧ (s.onOut g).freeCtr = s.freeCtr ∧ (s.onOut g).nextUid = s.nextUid ∧ (s.onOut g).fuse = s.fuse ∧
  (s.onOut g).pin = s.pin ∧ (s.onOut g).dev = s.dev ∧ (s.onOut g).fn = s.fn ∧ (s.onOut g).apw = s.apw ∧ (s.onOut g).mbx = s.mbx ∧
  (s.onOut g).mbxBuf = s.mbxBuf ∧ (s.onOut g).queue = s.queue ∧ (s.onOut g).cas = s.cas ∧ (s.onOut g).ctx = s.ctx ∧ (s.onOut g).alloc = s.alloc ∧
  (s.onOut g).fills = s.fills ∧ (s.onOut g).desc = s.desc ∧ (s.onOut g).prog = s.prog ∧ (s.onOut g).latch = s.latch ∧
  (s.onOut g).latchHold = s.latchHold ∧ (s.onOut g).run = s.run ∧ (s.onOut g).core = s.core ∧ (s.onOut g).saved = s.saved ∧
  (s.onOut g).tile = s.tile ∧ (s.onOut g).opStore = s.opStore ∧ (s.onOut g).accStore = s.accStore ∧ (s.onOut g).armed = s.armed ∧
  (s.onOut g).unitCtx = s.unitCtx ∧ (s.onOut g).bank = s.bank ∧ (s.onOut g).localMem = s.localMem ∧ (s.onOut g).sharedMem = s.sharedMem ∧
  (s.onOut g).tileMem = s.tileMem ∧ (s.onOut g).badWords = s.badWords ∧ (s.onOut g).stackMem = s.stackMem ∧ (s.onOut g).window = s.window ∧
  (s.onOut g).winFree = s.winFree ∧ (s.onOut g).health = s.health ∧ (s.onOut g).lb = s.lb ∧ (s.onOut g).ecc = s.ecc ∧ (s.onOut g).eccReg = s.eccReg ∧
  (s.onOut g).farMem = s.farMem ∧ (s.onOut g).farBad = s.farBad ∧ (s.onOut g).hostMem = s.hostMem ∧ (s.onOut g).far = s.far ∧
  (s.onOut g).job = s.job ∧ (s.onOut g).seq = s.seq ∧ (s.onOut g).page = s.page ∧ (s.onOut g).calib = s.calib ∧ (s.onOut g).area = s.area ∧
  (s.onOut g).req = s.req ∧ (s.onOut g).fab = s.fab ∧ (s.onOut g).port = s.port ∧ (s.onOut g).plan = s.plan ∧ (s.onOut g).coll = s.coll ∧
  (s.onOut g).wlog = s.wlog ∧ (s.onOut g).lvr = s.lvr ∧ (s.onOut g).therm = s.therm ∧ (s.onOut g).gated = s.gated ∧ (s.onOut g).turn = s.turn ∧
  (s.onOut g).wake = s.wake ∧ (s.onOut g).acc = s.acc ∧ (s.onOut g).proc = s.proc ∧ (s.onOut g).fw = s.fw ∧ (s.onOut g).mgmt = s.mgmt ∧
  (s.onOut g).out = g s.out := by
  refine ⟨rfl, rfl, rfl, rfl, rfl, rfl, rfl, rfl, rfl, rfl, rfl, rfl, rfl, rfl, rfl, rfl, rfl, rfl, rfl, rfl, rfl, rfl, rfl, rfl, rfl, rfl, rfl, rfl, rfl, rfl, rfl, rfl, rfl, rfl, rfl, rfl, rfl, rfl, rfl, rfl, rfl, rfl, rfl, rfl, rfl, rfl, rfl, rfl, rfl, rfl, rfl, rfl, rfl, rfl, rfl, rfl, rfl, rfl, rfl, rfl, rfl, rfl, rfl, rfl⟩

@[simp] theorem State.fnAt_eq (s : State) (k : Nat) : s.fnAt k = (tgetD s.fn k Func.init) := rfl

@[simp] theorem State.modFn_eq (s : State) (k : Nat) (g : Func → Func) : s.modFn k g = (s.onFn (fun t => tset t k (g (tgetD t k Func.init)))) := rfl

@[simp] theorem State.delFn_eq (s : State) (k : Nat) : s.delFn k = (s.onFn (fun t => tdel t k)) := rfl

@[simp] theorem State.apwAt_eq (s : State) (k : Nat) : s.apwAt k = (tgetD s.apw k Apw.init) := rfl

@[simp] theorem State.modApw_eq (s : State) (k : Nat) (g : Apw → Apw) : s.modApw k g = (s.onApw (fun t => tset t k (g (tgetD t k Apw.init)))) := rfl

@[simp] theorem State.delApw_eq (s : State) (k : Nat) : s.delApw k = (s.onApw (fun t => tdel t k)) := rfl

@[simp] theorem State.mbxAt_eq (s : State) (k : Nat) : s.mbxAt k = (tgetD s.mbx k Mbx.init) := rfl

@[simp] theorem State.modMbx_eq (s : State) (k : Nat) (g : Mbx → Mbx) : s.modMbx k g = (s.onMbx (fun t => tset t k (g (tgetD t k Mbx.init)))) := rfl

@[simp] theorem State.delMbx_eq (s : State) (k : Nat) : s.delMbx k = (s.onMbx (fun t => tdel t k)) := rfl

@[simp] theorem State.getQueue_eq (s : State) (k : Nat) : s.getQueue k = (tget s.queue k) := rfl

@[simp] theorem State.putQueue_eq (s : State) (k : Nat) (v : Queue) : s.putQueue k v = (s.onQueue (fun t => tset t k v)) := rfl

@[simp] theorem State.updQueue_eq (s : State) (k : Nat) (g : Queue → Queue) : s.updQueue k g = (s.onQueue (fun t => match tget t k with | some v => tset t k (g v) | none => t)) := rfl

@[simp] theorem State.delQueue_eq (s : State) (k : Nat) : s.delQueue k = (s.onQueue (fun t => tdel t k)) := rfl

@[simp] theorem State.casAt_eq (s : State) (k : Nat) : s.casAt k = (tgetD s.cas k Cas.init) := rfl

@[simp] theorem State.modCas_eq (s : State) (k : Nat) (g : Cas → Cas) : s.modCas k g = (s.onCas (fun t => tset t k (g (tgetD t k Cas.init)))) := rfl

@[simp] theorem State.delCas_eq (s : State) (k : Nat) : s.delCas k = (s.onCas (fun t => tdel t k)) := rfl

@[simp] theorem State.getCtx_eq (s : State) (k : Nat) : s.getCtx k = (tget s.ctx k) := rfl

@[simp] theorem State.putCtx_eq (s : State) (k : Nat) (v : Ctx) : s.putCtx k v = (s.onCtx (fun t => tset t k v)) := rfl

@[simp] theorem State.updCtx_eq (s : State) (k : Nat) (g : Ctx → Ctx) : s.updCtx k g = (s.onCtx (fun t => match tget t k with | some v => tset t k (g v) | none => t)) := rfl

@[simp] theorem State.delCtx_eq (s : State) (k : Nat) : s.delCtx k = (s.onCtx (fun t => tdel t k)) := rfl

@[simp] theorem State.getAlloc_eq (s : State) (k : Nat) : s.getAlloc k = (tget s.alloc k) := rfl

@[simp] theorem State.putAlloc_eq (s : State) (k : Nat) (v : Alloc) : s.putAlloc k v = (s.onAlloc (fun t => tset t k v)) := rfl

@[simp] theorem State.updAlloc_eq (s : State) (k : Nat) (g : Alloc → Alloc) : s.updAlloc k g = (s.onAlloc (fun t => match tget t k with | some v => tset t k (g v) | none => t)) := rfl

@[simp] theorem State.delAlloc_eq (s : State) (k : Nat) : s.delAlloc k = (s.onAlloc (fun t => tdel t k)) := rfl

@[simp] theorem State.getFills_eq (s : State) (k : Nat) : s.getFills k = (tget s.fills k) := rfl

@[simp] theorem State.putFills_eq (s : State) (k : Nat) (v : Fill) : s.putFills k v = (s.onFills (fun t => tset t k v)) := rfl

@[simp] theorem State.updFills_eq (s : State) (k : Nat) (g : Fill → Fill) : s.updFills k g = (s.onFills (fun t => match tget t k with | some v => tset t k (g v) | none => t)) := rfl

@[simp] theorem State.delFills_eq (s : State) (k : Nat) : s.delFills k = (s.onFills (fun t => tdel t k)) := rfl

@[simp] theorem State.getDesc_eq (s : State) (k : Nat) : s.getDesc k = (tget s.desc k) := rfl

@[simp] theorem State.putDesc_eq (s : State) (k : Nat) (v : Desc) : s.putDesc k v = (s.onDesc (fun t => tset t k v)) := rfl

@[simp] theorem State.updDesc_eq (s : State) (k : Nat) (g : Desc → Desc) : s.updDesc k g = (s.onDesc (fun t => match tget t k with | some v => tset t k (g v) | none => t)) := rfl

@[simp] theorem State.delDesc_eq (s : State) (k : Nat) : s.delDesc k = (s.onDesc (fun t => tdel t k)) := rfl

@[simp] theorem State.getProg_eq (s : State) (k : Nat) : s.getProg k = (tget s.prog k) := rfl

@[simp] theorem State.putProg_eq (s : State) (k : Nat) (v : Prog) : s.putProg k v = (s.onProg (fun t => tset t k v)) := rfl

@[simp] theorem State.updProg_eq (s : State) (k : Nat) (g : Prog → Prog) : s.updProg k g = (s.onProg (fun t => match tget t k with | some v => tset t k (g v) | none => t)) := rfl

@[simp] theorem State.delProg_eq (s : State) (k : Nat) : s.delProg k = (s.onProg (fun t => tdel t k)) := rfl

@[simp] theorem State.getLatch_eq (s : State) (k : Nat) : s.getLatch k = (tget s.latch k) := rfl

@[simp] theorem State.putLatch_eq (s : State) (k : Nat) (v : Latch) : s.putLatch k v = (s.onLatch (fun t => tset t k v)) := rfl

@[simp] theorem State.updLatch_eq (s : State) (k : Nat) (g : Latch → Latch) : s.updLatch k g = (s.onLatch (fun t => match tget t k with | some v => tset t k (g v) | none => t)) := rfl

@[simp] theorem State.delLatch_eq (s : State) (k : Nat) : s.delLatch k = (s.onLatch (fun t => tdel t k)) := rfl

@[simp] theorem State.getLatchHold_eq (s : State) (k : Nat) : s.getLatchHold k = (tget s.latchHold k) := rfl

@[simp] theorem State.putLatchHold_eq (s : State) (k : Nat) (v : (List Nat)) : s.putLatchHold k v = (s.onLatchHold (fun t => tset t k v)) := rfl

@[simp] theorem State.updLatchHold_eq (s : State) (k : Nat) (g : (List Nat) → (List Nat)) : s.updLatchHold k g = (s.onLatchHold (fun t => match tget t k with | some v => tset t k (g v) | none => t)) := rfl

@[simp] theorem State.delLatchHold_eq (s : State) (k : Nat) : s.delLatchHold k = (s.onLatchHold (fun t => tdel t k)) := rfl

@[simp] theorem State.getRun_eq (s : State) (k : Nat) : s.getRun k = (tget s.run k) := rfl

@[simp] theorem State.putRun_eq (s : State) (k : Nat) (v : Run) : s.putRun k v = (s.onRun (fun t => tset t k v)) := rfl

@[simp] theorem State.updRun_eq (s : State) (k : Nat) (g : Run → Run) : s.updRun k g = (s.onRun (fun t => match tget t k with | some v => tset t k (g v) | none => t)) := rfl

@[simp] theorem State.delRun_eq (s : State) (k : Nat) : s.delRun k = (s.onRun (fun t => tdel t k)) := rfl

@[simp] theorem State.coreAt_eq (s : State) (k : Nat) : s.coreAt k = (tgetD s.core k Core.init) := rfl

@[simp] theorem State.modCore_eq (s : State) (k : Nat) (g : Core → Core) : s.modCore k g = (s.onCore (fun t => tset t k (g (tgetD t k Core.init)))) := rfl

@[simp] theorem State.delCore_eq (s : State) (k : Nat) : s.delCore k = (s.onCore (fun t => tdel t k)) := rfl

@[simp] theorem State.getSaved_eq (s : State) (k : Nat) : s.getSaved k = (tget s.saved k) := rfl

@[simp] theorem State.putSaved_eq (s : State) (k : Nat) (v : Saved) : s.putSaved k v = (s.onSaved (fun t => tset t k v)) := rfl

@[simp] theorem State.updSaved_eq (s : State) (k : Nat) (g : Saved → Saved) : s.updSaved k g = (s.onSaved (fun t => match tget t k with | some v => tset t k (g v) | none => t)) := rfl

@[simp] theorem State.delSaved_eq (s : State) (k : Nat) : s.delSaved k = (s.onSaved (fun t => tdel t k)) := rfl

@[simp] theorem State.tileAt_eq (s : State) (k : Nat) : s.tileAt k = (tgetD s.tile k Tile.init) := rfl

@[simp] theorem State.modTile_eq (s : State) (k : Nat) (g : Tile → Tile) : s.modTile k g = (s.onTile (fun t => tset t k (g (tgetD t k Tile.init)))) := rfl

@[simp] theorem State.delTile_eq (s : State) (k : Nat) : s.delTile k = (s.onTile (fun t => tdel t k)) := rfl

@[simp] theorem State.opStoreAt_eq (s : State) (k : Nat) : s.opStoreAt k = (tgetD s.opStore k Store.init) := rfl

@[simp] theorem State.modOpStore_eq (s : State) (k : Nat) (g : Store → Store) : s.modOpStore k g = (s.onOpStore (fun t => tset t k (g (tgetD t k Store.init)))) := rfl

@[simp] theorem State.delOpStore_eq (s : State) (k : Nat) : s.delOpStore k = (s.onOpStore (fun t => tdel t k)) := rfl

@[simp] theorem State.accStoreAt_eq (s : State) (k : Nat) : s.accStoreAt k = (tgetD s.accStore k Store.init) := rfl

@[simp] theorem State.modAccStore_eq (s : State) (k : Nat) (g : Store → Store) : s.modAccStore k g = (s.onAccStore (fun t => tset t k (g (tgetD t k Store.init)))) := rfl

@[simp] theorem State.delAccStore_eq (s : State) (k : Nat) : s.delAccStore k = (s.onAccStore (fun t => tdel t k)) := rfl

@[simp] theorem State.getUnitCtx_eq (s : State) (k : Nat) : s.getUnitCtx k = (tget s.unitCtx k) := rfl

@[simp] theorem State.putUnitCtx_eq (s : State) (k : Nat) (v : Nat) : s.putUnitCtx k v = (s.onUnitCtx (fun t => tset t k v)) := rfl

@[simp] theorem State.updUnitCtx_eq (s : State) (k : Nat) (g : Nat → Nat) : s.updUnitCtx k g = (s.onUnitCtx (fun t => match tget t k with | some v => tset t k (g v) | none => t)) := rfl

@[simp] theorem State.delUnitCtx_eq (s : State) (k : Nat) : s.delUnitCtx k = (s.onUnitCtx (fun t => tdel t k)) := rfl

@[simp] theorem State.bankAt_eq (s : State) (k : Nat) : s.bankAt k = (tgetD s.bank k Bank.init) := rfl

@[simp] theorem State.modBank_eq (s : State) (k : Nat) (g : Bank → Bank) : s.modBank k g = (s.onBank (fun t => tset t k (g (tgetD t k Bank.init)))) := rfl

@[simp] theorem State.delBank_eq (s : State) (k : Nat) : s.delBank k = (s.onBank (fun t => tdel t k)) := rfl

@[simp] theorem State.getWindow_eq (s : State) (k : Nat) : s.getWindow k = (tget s.window k) := rfl

@[simp] theorem State.putWindow_eq (s : State) (k : Nat) (v : (List Byte × List Byte)) : s.putWindow k v = (s.onWindow (fun t => tset t k v)) := rfl

@[simp] theorem State.updWindow_eq (s : State) (k : Nat) (g : (List Byte × List Byte) → (List Byte × List Byte)) : s.updWindow k g = (s.onWindow (fun t => match tget t k with | some v => tset t k (g v) | none => t)) := rfl

@[simp] theorem State.delWindow_eq (s : State) (k : Nat) : s.delWindow k = (s.onWindow (fun t => tdel t k)) := rfl

@[simp] theorem State.getWinFree_eq (s : State) (k : Nat) : s.getWinFree k = (tget s.winFree k) := rfl

@[simp] theorem State.putWinFree_eq (s : State) (k : Nat) (v : Nat) : s.putWinFree k v = (s.onWinFree (fun t => tset t k v)) := rfl

@[simp] theorem State.updWinFree_eq (s : State) (k : Nat) (g : Nat → Nat) : s.updWinFree k g = (s.onWinFree (fun t => match tget t k with | some v => tset t k (g v) | none => t)) := rfl

@[simp] theorem State.delWinFree_eq (s : State) (k : Nat) : s.delWinFree k = (s.onWinFree (fun t => tdel t k)) := rfl

@[simp] theorem State.getHealth_eq (s : State) (k : Nat) : s.getHealth k = (tget s.health k) := rfl

@[simp] theorem State.putHealth_eq (s : State) (k : Nat) (v : Health) : s.putHealth k v = (s.onHealth (fun t => tset t k v)) := rfl

@[simp] theorem State.updHealth_eq (s : State) (k : Nat) (g : Health → Health) : s.updHealth k g = (s.onHealth (fun t => match tget t k with | some v => tset t k (g v) | none => t)) := rfl

@[simp] theorem State.delHealth_eq (s : State) (k : Nat) : s.delHealth k = (s.onHealth (fun t => tdel t k)) := rfl

@[simp] theorem State.lbAt_eq (s : State) (k : Nat) : s.lbAt k = (tgetD s.lb k Lb.init) := rfl

@[simp] theorem State.modLb_eq (s : State) (k : Nat) (g : Lb → Lb) : s.modLb k g = (s.onLb (fun t => tset t k (g (tgetD t k Lb.init)))) := rfl

@[simp] theorem State.delLb_eq (s : State) (k : Nat) : s.delLb k = (s.onLb (fun t => tdel t k)) := rfl

@[simp] theorem State.eccAt_eq (s : State) (k : Nat) : s.eccAt k = (tgetD s.ecc k EccStack.init) := rfl

@[simp] theorem State.modEcc_eq (s : State) (k : Nat) (g : EccStack → EccStack) : s.modEcc k g = (s.onEcc (fun t => tset t k (g (tgetD t k EccStack.init)))) := rfl

@[simp] theorem State.delEcc_eq (s : State) (k : Nat) : s.delEcc k = (s.onEcc (fun t => tdel t k)) := rfl

@[simp] theorem State.getJob_eq (s : State) (k : Nat) : s.getJob k = (tget s.job k) := rfl

@[simp] theorem State.putJob_eq (s : State) (k : Nat) (v : Job) : s.putJob k v = (s.onJob (fun t => tset t k v)) := rfl

@[simp] theorem State.updJob_eq (s : State) (k : Nat) (g : Job → Job) : s.updJob k g = (s.onJob (fun t => match tget t k with | some v => tset t k (g v) | none => t)) := rfl

@[simp] theorem State.delJob_eq (s : State) (k : Nat) : s.delJob k = (s.onJob (fun t => tdel t k)) := rfl

@[simp] theorem State.getSeq_eq (s : State) (k : Nat) : s.getSeq k = (tget s.seq k) := rfl

@[simp] theorem State.putSeq_eq (s : State) (k : Nat) (v : Seq) : s.putSeq k v = (s.onSeq (fun t => tset t k v)) := rfl

@[simp] theorem State.updSeq_eq (s : State) (k : Nat) (g : Seq → Seq) : s.updSeq k g = (s.onSeq (fun t => match tget t k with | some v => tset t k (g v) | none => t)) := rfl

@[simp] theorem State.delSeq_eq (s : State) (k : Nat) : s.delSeq k = (s.onSeq (fun t => tdel t k)) := rfl

@[simp] theorem State.getPage_eq (s : State) (k : Nat) : s.getPage k = (tget s.page k) := rfl

@[simp] theorem State.putPage_eq (s : State) (k : Nat) (v : Page) : s.putPage k v = (s.onPage (fun t => tset t k v)) := rfl

@[simp] theorem State.updPage_eq (s : State) (k : Nat) (g : Page → Page) : s.updPage k g = (s.onPage (fun t => match tget t k with | some v => tset t k (g v) | none => t)) := rfl

@[simp] theorem State.delPage_eq (s : State) (k : Nat) : s.delPage k = (s.onPage (fun t => tdel t k)) := rfl

@[simp] theorem State.getCalib_eq (s : State) (k : Nat) : s.getCalib k = (tget s.calib k) := rfl

@[simp] theorem State.putCalib_eq (s : State) (k : Nat) (v : (Nat × Nat)) : s.putCalib k v = (s.onCalib (fun t => tset t k v)) := rfl

@[simp] theorem State.updCalib_eq (s : State) (k : Nat) (g : (Nat × Nat) → (Nat × Nat)) : s.updCalib k g = (s.onCalib (fun t => match tget t k with | some v => tset t k (g v) | none => t)) := rfl

@[simp] theorem State.delCalib_eq (s : State) (k : Nat) : s.delCalib k = (s.onCalib (fun t => tdel t k)) := rfl

@[simp] theorem State.getArea_eq (s : State) (k : Nat) : s.getArea k = (tget s.area k) := rfl

@[simp] theorem State.putArea_eq (s : State) (k : Nat) (v : (Nat × Nat)) : s.putArea k v = (s.onArea (fun t => tset t k v)) := rfl

@[simp] theorem State.updArea_eq (s : State) (k : Nat) (g : (Nat × Nat) → (Nat × Nat)) : s.updArea k g = (s.onArea (fun t => match tget t k with | some v => tset t k (g v) | none => t)) := rfl

@[simp] theorem State.delArea_eq (s : State) (k : Nat) : s.delArea k = (s.onArea (fun t => tdel t k)) := rfl

@[simp] theorem State.getReq_eq (s : State) (k : Nat) : s.getReq k = (tget s.req k) := rfl

@[simp] theorem State.putReq_eq (s : State) (k : Nat) (v : Req) : s.putReq k v = (s.onReq (fun t => tset t k v)) := rfl

@[simp] theorem State.updReq_eq (s : State) (k : Nat) (g : Req → Req) : s.updReq k g = (s.onReq (fun t => match tget t k with | some v => tset t k (g v) | none => t)) := rfl

@[simp] theorem State.delReq_eq (s : State) (k : Nat) : s.delReq k = (s.onReq (fun t => tdel t k)) := rfl

@[simp] theorem State.portAt_eq (s : State) (k : Nat) : s.portAt k = (tgetD s.port k Port.init) := rfl

@[simp] theorem State.modPort_eq (s : State) (k : Nat) (g : Port → Port) : s.modPort k g = (s.onPort (fun t => tset t k (g (tgetD t k Port.init)))) := rfl

@[simp] theorem State.delPort_eq (s : State) (k : Nat) : s.delPort k = (s.onPort (fun t => tdel t k)) := rfl

@[simp] theorem State.getPlan_eq (s : State) (k : Nat) : s.getPlan k = (tget s.plan k) := rfl

@[simp] theorem State.putPlan_eq (s : State) (k : Nat) (v : Plan) : s.putPlan k v = (s.onPlan (fun t => tset t k v)) := rfl

@[simp] theorem State.updPlan_eq (s : State) (k : Nat) (g : Plan → Plan) : s.updPlan k g = (s.onPlan (fun t => match tget t k with | some v => tset t k (g v) | none => t)) := rfl

@[simp] theorem State.delPlan_eq (s : State) (k : Nat) : s.delPlan k = (s.onPlan (fun t => tdel t k)) := rfl

@[simp] theorem State.getColl_eq (s : State) (k : Nat) : s.getColl k = (tget s.coll k) := rfl

@[simp] theorem State.putColl_eq (s : State) (k : Nat) (v : Coll) : s.putColl k v = (s.onColl (fun t => tset t k v)) := rfl

@[simp] theorem State.updColl_eq (s : State) (k : Nat) (g : Coll → Coll) : s.updColl k g = (s.onColl (fun t => match tget t k with | some v => tset t k (g v) | none => t)) := rfl

@[simp] theorem State.delColl_eq (s : State) (k : Nat) : s.delColl k = (s.onColl (fun t => tdel t k)) := rfl

@[simp] theorem State.delWlog_eq (s : State) (k : Nat) : s.delWlog k = (s.onWlog (fun t => tdel t k)) := rfl

@[simp] theorem State.procAt_eq (s : State) (k : Nat) : s.procAt k = (tgetD s.proc k Proc.init) := rfl

@[simp] theorem State.modProc_eq (s : State) (k : Nat) (g : Proc → Proc) : s.modProc k g = (s.onProc (fun t => tset t k (g (tgetD t k Proc.init)))) := rfl

@[simp] theorem State.delProc_eq (s : State) (k : Nat) : s.delProc k = (s.onProc (fun t => tdel t k)) := rfl

end Sys2Proof.Machine
end

