-- ==== Sys2Proof/Tests/Slice0.lean ====
section
/-! SUPPORT. Tests: ill-formed commands are refused, and every hypothesis of a statement is met by a small state. -/

namespace Sys2Proof.Tests

set_option Elab.async false

open Sys2Proof Sys2Proof.Machine Sys2Proof.Claims

/-- A context of casement 0 that a function of port HA created. -/
def aCtx : Ctx :=
  { st := .active, cas := 0, prio := 4, shutter := none, model := false, fn := 0, faultVec := 0, faultAddr := 0, cmap := [], retired := [], mig := none,
    skips := [], skipN := 0, destroy := none }

/-- The module in full service, every stack in service, context 0 in casement 0, which port HA owns. -/
def ready : State :=
  { State.reset with
    dev := { State.reset.dev with service := .full, bootLock := true, stackIn := BitVec.allOnes 12, mullUp := 3, farDone := 3, dirWalked := true, coldWalk := 0 },
    cas := [(0, { Cas.init0 with owner := 1 })], ctx := [(0, aCtx)] }

/-- A payload of `n` bytes with the given fields: offset, length, value. -/
def pay (n : Nat) (l : List (Nat × Nat × Nat)) : List Byte := l.foldl (fun b x => overlay b x.1 (toLE x.2.2 x.2.1)) (zeros n)

theorem pair_eq {α β : Type} {r : α × β} {b : β} (h : r.2 = b) : r = (r.1, b) := by rw [← h]

/-! Ill-formed commands: one for each check. -/

theorem test_wf_refuses :
    (∀ i ∈ [Instr.nop 34 ⟨4, 0, 0, 0, 0, 0, 0, 0⟩ [], .nop 63 ⟨4, 0, 0, 0, 0, 0, 0, 0⟩ [], .nop 16448 ⟨4, 0, 0, 0, 0, 0, 0, 0⟩ [],  -- queueOk
        .nop 0 ⟨4, 0, 0, 0, 0, 0, 0, 0⟩ [0], .nop 0 ⟨4, 0, 0, 0, 0, 0, 0, 0⟩ (List.replicate 1024 0),  -- slotsOk
        .functionLevelReset 34, .devRst (.fn 34) (.full 1),  -- fnOk, viewOk
        .add 128 0, .refreshDue 12 0, .refreshDue 0 64, .linkLightOn 16 4, .farLinkUp 2, .fwVersion 0 6, .stepBoundary 16, .leave 16384,
        .migrationDrainTimeout 4096,  -- clOk, stackOk, bankOk, portOk, pairOk, procOk, casOk, rankOk, ctxOk
        .submissionDoorbell 0 4 (.full 0), .completionDoorbell 0 4 (.full 0), .registerWrite .mp (2 ^ 25) (.full 0), .mgmtRegisterRead (2 ^ 25) true,  -- bellOk, offOk
        .unitGate (.pivot 32), .unitGate (.wicket 4), .unitGate (.mullion 2), .unitGate (.cluster 128), .unitGate (.stack 12),  -- unitOk
        .latchWaitEval 16384, .pageFreeDeferred 65536, .hostApertureRead 0 64 0 4, .hostApertureRead 0 0 (2 ^ 32) 4, .thermalStepRelease 14, .laneFail 0 10,
        .laneCalibration 0 4], i.wf = false)
    ∧ ∀ i ∈ [Instr.nop 33 ⟨4, 0, 0, 0, 0, 0, 0, 0⟩ [], .nop 16447 ⟨4, 0, 0, 0, 0, 0, 0, 0⟩ (zeros 960), .functionLevelReset 33, .devRst .mp (.full 1), .add 127 0,
        .refreshDue 11 63, .unitGate (.pivot 31), .registerWrite .mp (2 ^ 25 - 1) (.full 0)], i.wf = true := by
  decide +kernel

/-! Packets. -/

/-- The parts of `Accepted`, as a Bool. -/
def okToRun (s : State) (q : Nat) (x : Queue) (h : Hdr) (pl p : List Byte) : Bool :=
  decide (s.getQueue q = some x) && decide (x.es = []) && decide (x.st = .active ∧ fetches x = true ∧ x.resume = none ∧ x.subDev = false)
  && decide (pktExtent h ≤ avail x) && decide (parseCheck s q x h pl = none) && decide (s.dev.inReset = false ∧ s.therm.trip = false)
  && !keeperWaits (fetched s q x h pl) q (entryOf s x h pl) && !keeperWaits (headed s q x h pl) q (headEntry s q x h pl)
  && decide (startCheck (fetched s q x h pl) q (entryOf s x h pl) = none) && decide (cplHeld x + 1 < 2 ^ x.cplLog2)
  && decide (headerWait (headed s q x h pl) (headEntry s q x h pl) = .met)
  && (match (beginEntry q (headEntry s q x h pl) (tried s.nextUid (headed s q x h pl))).2 with | .ok b => b = p | .error _ => false)

theorem accepted_of (s : State) (q : Nat) (x : Queue) (h : Hdr) (pl p : List Byte) (hk : okToRun s q x h pl p = true) :
    Accepted s q x h pl p (working s q x h pl p) := by
  simp only [okToRun, Bool.and_eq_true, decide_eq_true_eq, Bool.not_eq_true'] at hk
  obtain ⟨⟨⟨⟨⟨⟨⟨⟨⟨⟨⟨h1, h2⟩, h3⟩, h4⟩, h5⟩, h6⟩, h7⟩, h8⟩, h9⟩, h10⟩, h11⟩, h12⟩ := hk
  refine ⟨h1, h2, h3, h4, h5, h6, ⟨h7, h8⟩, h9, h10, h11, ?_, rfl⟩
  cases h : (beginEntry q (headEntry s q x ‹_› pl) (tried s.nextUid (headed s q x ‹_› pl))).2 <;> simp_all

/-- Queue 0 of context 0, or the admin queue of function 0, with 16 packets submitted. -/
def aQueue (admin : Bool) : Queue := { newQueue 0 0 0 0 0 0x10000 6 6 false false false false with admin := admin, tail := 16 }

/-- Both queues stand ready. -/
def queued (s : State) : State := { s with queue := [(0, aQueue true), (64, aQueue false)] }

/-- A header: opcode, ARG_A to ARG_D, payload length, inline. -/
def head (op a b c d n : Nat) : Hdr :=
  { w0 := BitVec.ofNat 64 ((n + 63) / 64 * 2 ^ 60 + op * 2 ^ 16 + 2 ^ 12 + 4), w1 := BitVec.ofNat 64 (a * 2 ^ 32 + n), w2 := 0, w3 := BitVec.ofNat 64 (b * 2 ^ 32),
    w4 := 0, w5 := 0, w6 := BitVec.ofNat 64 c, w7 := BitVec.ofNat 64 d }

/-- The packet, its inline slots and the state it works in. -/
def slots (p : List Byte) : List Byte := padTo ((p.length + 63) / 64 * 64) p
def pkt (s : State) (q : Nat) (h : Hdr) (p : List Byte) : Pkt := { q := q, raw := h, p := p, uid := s.nextUid }
def inHand (s : State) (q : Nat) (h : Hdr) (p : List Byte) : State := working s q (aQueue (q < 64)) h (slots p) p

/-- Queue `q` accepts the packet. -/
def accepts (s : State) (q : Nat) (h : Hdr) (p : List Byte) : Bool := okToRun s q (aQueue (q < 64)) h (slots p) p

theorem test_nop_accepted : accepts (queued ready) 64 (head 0x0100 0 0 0 0 0) [] = true := by decide +kernel

/-- What the operation of opcode `op` does to the packet meets no gated unit and no bank set inside a burst. -/
def clearRun (s : State) (op q : Nat) (h : Hdr) (p : List Byte) : Bool :=
  match packetRows.find? (fun r => r.2.1 = op) with
  | some r =>
    let t := endOp q s.nextUid (r.2.2 q ((headEntry s q (aQueue (q < 64)) h (slots p)).begun p) (inHand s q h p))
    t.acc.units.isEmpty && t.acc.banks.isEmpty
  | none => false

/-- The packet of opcode `op` is accepted in state `s` on queue `q`, its row's condition holds in the state it works in, and nothing it does waits. -/
def Meets (op q a b c d : Nat) (p : List Byte) (s : State) (ok : Pkt → State → Prop) : Prop :=
  let h := head op a b c d p.length
  accepts (queued s) q h p = true ∧ pktOpcode h = op ∧ clearRun (queued s) op q h p = true ∧ ok (pkt (queued s) q h p) (inHand (queued s) q h p)

/-- Context 0 with 1 MiB of interleaved memory and a stripe, handle 3, on bank set 0 of stack 0. -/
def mem : State :=
  { ready with alloc :=
      [(0, { ctx := 0, base := 2 ^ 20, len := 2 ^ 20, kind := .interleaved, off := 0, unit := 0, smask := 1, bsmask := 1, handle := 0, port := 0, ro := false }),
       (1, { ctx := 0, base := 2 ^ 21, len := 2 ^ 20, kind := .stripe, off := 2 ^ 20, unit := 2 ^ 20, smask := 1, bsmask := 1, handle := 3, port := 0, ro := false })] }

theorem test_ctx_create_meets : Meets 0x0101 0 0 0 0 0 (pay 64 [(1, 1, 7), (2, 1, 3)]) ready (CtxCreateOk 1) := by
  unfold Meets CtxCreateOk; decide +kernel
theorem test_ctx_destroy_meets : Meets 0x0102 0 0 0 0 0 [] ready (CtxDestroyOk aCtx) := by unfold Meets CtxDestroyOk; decide +kernel
theorem test_ctx_priority_meets : Meets 0x0109 0 7 0 0 0 [] ready (CtxPriorityOk aCtx) := by unfold Meets CtxPriorityOk; decide +kernel
theorem test_ctx_migrate_meets : Meets 0x0108 0 0 0 0 0 ([1, 0] ++ List.replicate 126 0xFF ++ zeros 128) ready (CtxMigrateOk aCtx) := by
  unfold Meets CtxMigrateOk; decide +kernel
theorem test_queue_create_meets : Meets 0x0103 0 0 0 0 0 (pay 64 [(16, 1, 6), (17, 1, 16), (19, 1, 3)]) ready QueueCreateOk := by
  unfold Meets QueueCreateOk; decide +kernel
theorem test_queue_destroy_meets : Meets 0x0104 0 0 0 0 0 [] ready (QueueDestroyOk (aQueue false)) := by unfold Meets QueueDestroyOk; decide +kernel
theorem test_queue_resume_meets : Meets 0x0105 0 0 0 63 0 [] ready (QueueResumeOk (aQueue false)) := by unfold Meets QueueResumeOk; decide +kernel
theorem test_case_assign_meets : Meets 0x0106 0 15 0 0 0 [] ready CaseAssignOk := by unfold Meets CaseAssignOk; decide +kernel
theorem test_case_assign_own_meets :
    Meets 0x0106 0 1 0 0 0 (pay 64 [(0, 16, 1), (16, 8, 1), (24, 4, 1), (28, 2, 16384), (32, 4, 100)]) { ready with cas := [] } CaseAssignOwnOk := by
  unfold Meets CaseAssignOwnOk; decide +kernel
theorem test_case_release_meets : Meets 0x0107 0 1 0 0 0 [] ready CaseReleaseOk := by unfold Meets CaseReleaseOk; decide +kernel
theorem test_mem_free_meets : ∃ a, Meets 0x0202 64 0 0 (2 ^ 20) 0 [] mem (MemFreeOk 0 a) := by
  refine ⟨(nth mem.alloc 0 (0, { ctx := 0, base := 0, len := 0, kind := .far, off := 0, unit := 0, smask := 0, bsmask := 0, handle := 0, port := 0, ro := false })).2, ?_⟩
  unfold Meets MemFreeOk; decide +kernel
theorem test_mem_fence_meets : Meets 0x0204 64 1 0 0 0 [] mem (fun _ _ => True) := by unfold Meets; decide +kernel
theorem test_mem_fill_meets : ∃ t2, Meets 0x0206 64 0 0 0 0 (pay 32 [(0, 8, 2 ^ 20), (8, 8, 64), (16, 8, 0x0102030405060708)]) mem (MemFillOk t2) := by
  refine ⟨_, ?_, ?_, ?_, ?_, ?_, pair_eq ?_⟩ <;> decide +kernel
theorem test_mem_copy_meets : ∃ bs t1 t2, Meets 0x0205 64 0 0 0 0 (pay 32 [(0, 8, 2 ^ 20), (8, 8, 2 ^ 20 + 64), (16, 8, 64)]) mem (MemCopyOk bs t1 t2) := by
  refine ⟨zeros 64, _, _, ?_, ?_, ?_, ?_, ?_, ?_, pair_eq ?_, ?_, pair_eq ?_⟩ <;> decide +kernel

/-- Two expanders of 1 GiB, half of each kept as the park pool. -/
def farMem : State := { mem with far := { mem.far with up := 3, cap := [(0, 4), (1, 4)], parkPool := some 4 } }

/-- The three kinds of allocation: interleaved, stripe, far. -/
theorem test_mem_alloc_meets :
    Meets 0x0201 64 0 0 0 0 (pay 64 [(8, 8, 4096), (20, 2, 3), (24, 8, 3)]) mem (MemAllocOk 2097152 4194304 0 4096 16384 3 3)
    ∧ Meets 0x0201 64 0 0 0 0 (pay 64 [(8, 8, 4095), (16, 1, 1), (18, 2, 7), (24, 8, 3)]) mem (MemAllocOk 2097152 4194304 1 4096 8192 1 3)
    ∧ Meets 0x0201 64 0 0 0 0 (pay 64 [(8, 8, 4097), (16, 1, 2)]) farMem (MemAllocOk (2 ^ 30) 4194304 2 8192 8192 0 0) := by
  unfold Meets MemAllocOk; dsimp only; repeat' apply And.intro
  all_goals decide +kernel
theorem test_mem_map_host_meets : Meets 0x0203 64 0 0 0 0 (pay 32 [(0, 8, 4096), (8, 8, 4096), (24, 1, 1)]) mem (MemMapHostOk 4194304) := by
  unfold Meets MemMapHostOk; decide +kernel

/-- An attention descriptor, and a COPY of one BF16 element. -/
def attnDesc : List Byte := pay 64 [(0, 1, 0x20), (1, 1, 2), (2, 1, 0x10), (3, 1, 0x10), (4, 1, 2), (5, 1, 1), (7, 1, 1), (8, 1, 1), (9, 1, 3)]
def copyDesc : List Byte :=
  pay 192 ([(0, 1, 1), (1, 1, 2), (2, 1, 2), (12, 4, 1)] ++ (List.range 5).map (fun i => (16 + 4 * i, 4, 1)) ++ (List.range 4).map (fun i => (68 + 8 * i, 8, 64))
    ++ [(108, 8, 2 ^ 20), (116, 8, 2 ^ 20 + 4096)])
theorem test_desc_create_meets : Meets 0x0301 64 0 0 0 0 attnDesc mem (DescCreateOk 1) ∧ Meets 0x0301 64 0 0 0 0 copyDesc mem (DescCreateOk 1) := by
  unfold Meets DescCreateOk; decide +kernel

/-- A program of one END. Handle 65,535 holds the COPY. -/
def oneEnd : Prog := { level := 0, features := 0, entry := List.replicate 16 0, shadow := [], words := [0x5900000000000000], tmpl := [] }
def loaded : State :=
  { mem with desc := [(65535, { bytes := copyDesc, stale := false, dead := [] })], prog := [(1, oneEnd)] }
theorem test_desc_destroy_meets : Meets 0x0302 64 65535 0 0 0 [] loaded (DescDestroyOk { bytes := copyDesc, stale := false, dead := [] }) := by
  unfold Meets DescDestroyOk; decide +kernel

/-- The image of that program in memory. -/
def image : List Byte := pay 264 [(0, 4, 0x49505847), (4, 1, 2), (8, 4, 1), (256, 8, 0x5900000000000000)]
theorem test_prog_load_meets : ∃ b t1, Meets 0x0401 64 0 0 0 0 (pay 64 [(0, 8, 2 ^ 20), (8, 4, 264)]) { mem with stackMem := mwrite [] 0 image } (ProgLoadOk 1 b t1) := by
  refine ⟨image, _, ?_, ?_, ?_, ?_, ?_, ?_, ?_, pair_eq ?_, ?_, ?_, ?_, ?_⟩ <;> decide +kernel
theorem test_prog_run_meets : Meets 0x0402 64 0 3 0 0 (pay 128 [(0, 8, 1), (16, 16, 1)]) loaded (ProgRunOk oneEnd 1) := by
  unfold Meets ProgRunOk; decide +kernel
theorem test_prog_unload_meets : Meets 0x0403 64 1 0 0 0 [] loaded ProgUnloadOk := by unfold Meets ProgUnloadOk; decide +kernel
theorem test_skiplog_read_meets : ∃ t1, Meets 0x0404 64 256 1 0 (2 ^ 20) [] mem (SkiplogReadOk aCtx t1) := by
  refine ⟨_, ?_, ?_, ?_, ?_, pair_eq ?_⟩ <;> decide +kernel

/-- Latch 5 of context 0 holds 7, latch 16,383 is poisoned. -/
def latched : State := { mem with latch := [(5, { value := 7, poison := false, owner := 0 }), (16383, { value := 0, poison := true, owner := 0 })] }
theorem test_latch_alloc_meets : Meets 0x0501 64 0 0 9 0 [] latched (LatchAllocOk 0) ∧ Meets 0x0501 64 1 0 9 0 [] latched (LatchAllocOk 8192) := by
  unfold Meets LatchAllocOk; decide +kernel
theorem test_latch_packets_meet :
    (∀ op ∈ [0x0502, 0x0503, 0x0504, 0x0505], Meets op 64 16383 0 0 0 [] latched (fun k t => ownsLatch t k.ctx k.a = true))
    ∧ Meets 0x0506 64 5 0 0 0 [] latched (LatchReadOk { value := 7, poison := false, owner := 0 }) := by
  unfold Meets LatchReadOk; decide +kernel
theorem test_latch_read_meets : ∃ t1, Meets 0x0506 64 5 0 0 (2 ^ 20) [] latched (LatchReadCopyOk { value := 7, poison := false, owner := 0 } t1) := by
  refine ⟨_, ?_, ?_, ?_, ?_, ?_, ?_, ?_, pair_eq ?_⟩ <;> decide +kernel

/-- Sequence 0 of context 0: one layer, slots of 16 tokens, one page in place, 16 tokens committed. -/
def aSeq : Seq :=
  { ctx := 0, pt := 2 ^ 20, calib := 2 ^ 20 + 65536, sref := 0, r0Base := 0, r0Len := 64, r1Base := 0, r1Len := 0, nlog2 := 4, layout := 0, kfmt := 0x10, vfmt := 0x10,
    sg := 1, headDim := 0, kvh := 1, layers := 1, pmax := 4, pool := 3 :: List.replicate 11 0, c := 16, dropped := [], held := none, closing := none, lastKey := 0,
    lastUse := 0, wild := false }
def aPage (st : PState) : Page :=
  { ctx := 0, seq := 0, layer := 0, slot := 0, expiry := 0, farloc := 0, sref := 0, kfmt := 0x10, vfmt := 0x10, sfmt := 0, g := 1, size := 4, st := st, stack := 0,
    bset := 0, off := 2 ^ 20, len := 4096, orphan := false, freeing := none }

/-- A request that a casement in service decodes. -/
def aReq : Req :=
  { ctx := 0, cas := 0, st := .decode, order := 1, prompt := 2 ^ 20, promptLen := 1, maxTok := 2, outAddr := 2 ^ 20 + 4096, recAddr := 2 ^ 20 + 8192, deadline := none,
    keep := false, stream := false, onEnd := 0, sigEn := false, sigLatch := 0, sigVal := 0, seqs := [0], seed := 0, temp := 0, topP := 0x3F800000, topK := 1,
    stops := [9, 0xFFFFFFFF, 0xFFFFFFFF], key := 0, ttl := 0, accept := 0, taken := 1, toks := [], steps := 0, firstUs := none, pages := 0, status := 0, cause := 0,
    cancel := none, endTime := 0 }

/-- Casement 0 serves context 0, whose sequence has its page in state `st`. -/
def serving (st : PState) : State :=
  { mem with cas := [(0, { Cas.init0 with owner := 1, svc := { Svc.init with mode := 1, ctx := some 0, maxReq := 2 } })], seq := [(0, aSeq)], page := [(0, aPage st)],
             far := farMem.far }

theorem test_seq_open_meets : ∃ t2, Meets 0x0601 64 0 0 0 0
    (pay 128 [(0, 8, 2 ^ 20), (8, 8, 2 ^ 20 + 65536), (20, 4, 64), (32, 1, 4), (34, 1, 0x10), (35, 1, 0x10), (36, 1, 1), (38, 1, 1), (39, 1, 1), (40, 2, 4), (44, 4, 16),
      (48, 2, 3)]) mem (SeqOpenOk 0 0 t2) := by
  refine ⟨_, ?_, ?_, ?_, ?_, ?_, ?_, ?_, ?_, ?_, (Option.some_get ?_).symm⟩ <;> decide +kernel
theorem test_seq_commit_meets : ∃ t1, Meets 0x0602 64 0 0 16 0 [] (serving .resident) (SeqCommitOk aSeq 16 t1) := by
  refine ⟨_, ?_, ?_, ?_, ?_, ?_, Prod.ext ?_ rfl⟩ <;> decide +kernel
theorem test_seq_drop_close_meet :
    Meets 0x0603 64 0 0 0 1 [] (serving .resident) (SeqDropOk aSeq) ∧ Meets 0x0604 64 0 0 0 0 [] (serving .resident) (SeqCloseOk aSeq) := by
  unfold Meets SeqDropOk SeqCloseOk; decide +kernel
theorem test_req_submit_meets : Meets 0x0605 64 0 0 0 0
    (pay 128 [(0, 8, 2 ^ 20), (8, 4, 1), (12, 4, 2), (16, 8, 2 ^ 20 + 4096), (24, 8, 2 ^ 20 + 8192), (48, 8, 0xFFFFFFFFFFFF0000), (68, 4, 0x3F800000), (72, 2, 1)])
    (serving .resident) (ReqSubmitOk 0) := by
  unfold Meets ReqSubmitOk; decide +kernel
theorem test_req_cancel_meets : Meets 0x0606 64 3 0 0 0 [] { serving .resident with req := [(3, aReq)] } (ReqCancelOk aReq) := by
  unfold Meets ReqCancelOk; decide +kernel
theorem test_req_park_resume_meet :
    Meets 0x0607 64 0 0 0 0 (pay 32 [(0, 8, 0xFFFFFFFFFFFF0000)]) (serving .resident) ReqParkOk
    ∧ Meets 0x0608 64 0 0 0 0 (pay 32 [(0, 8, 0xFFFFFFFFFFFF0000)]) (serving .parked) ReqResumeOk := by
  unfold Meets ReqParkOk ReqResumeOk; decide +kernel
theorem test_scrub_range_meets : Meets 0x0701 64 0 0 0 0 (pay 32 [(0, 8, 2 ^ 20), (8, 8, 8192), (16, 8, 2 ^ 20)]) mem ScrubRangeOk := by
  unfold Meets ScrubRangeOk; decide +kernel
theorem test_selftest_meets :
    Meets 0x0702 0 0 0 0 0 (pay 32 [(1, 1, 31), (2, 1, 11)]) { mem with ctx := [] } SelftestOk ∧ Meets 0x0702 0 0 0 0 0 (pay 32 [(0, 1, 15), (1, 1, 16)]) mem SelftestOk := by
  unfold Meets SelftestOk; decide +kernel
theorem test_ecc_test_meets : Meets 0x0703 0 0 0 0 0 (pay 32 [(0, 1, 1), (1, 1, 11), (4, 4, 2 ^ 20 - 64)]) mem EccTestWriteOk
    ∧ Meets 0x0703 0 0 0 0 0 (pay 32 [(0, 1, 4)]) mem EccTestCheckOk := by
  unfold Meets EccTestWriteOk EccTestCheckOk; decide +kernel
theorem test_link_and_power_meet :
    Meets 0x0704 0 0xFFFF 0 0 0 [] mem (fun _ t => ajar t = false)
    ∧ (∀ w ∈ [600, 1100], Meets 0x0901 0 w 0 0 0 [] mem (fun k _ => 600 ≤ k.a ∧ k.a ≤ 1100)) ∧ Meets 0x0902 0 0 0 0 4096 [] mem (fun _ _ => True) := by
  unfold Meets; decide +kernel

/-- A group of two ranks along one dimension; this device is rank 0 and its lintel. -/
def lintel : State :=
  { mem with
    fab := { Fab.init with
      member := true, isLintel := true, level := 2, rank := 0, group := 7, members := 2, levels := [(0, 2), (1, 2)], sizes := [2, 1, 1, 1], coord := [0, 0, 0, 0], portmap := [1, 2, 0, 0, 0, 0, 0, 0],
      anns := (List.range 2).map (fun r => { rank := r, level := 2, mver := 4, group := 7, sizes := [2, 1, 1, 1], live := [0, 1], reports := [], staged := [] }) },
    hostMem := mwrite [] 8192 [0, 0, 1, 0] }

/-- The same when rank 1 is lost. -/
def lone : State := { lintel with fab := { lintel.fab with lost := [1] } }

/-- The payload of a FAB_JOIN with ACTION `a` (10 Table 10.4), for those two ranks. -/
def joinPay (a : Nat) (l : List (Nat × Nat × Nat)) : List Byte :=
  pay 128 ([(0, 1, a), (1, 1, 1), (4, 4, 7), (24, 2, 2), (26, 2, 1), (28, 2, 1), (30, 2, 1), (32, 2, 1), (34, 2, 2)] ++ l)
theorem test_fab_join_meets : Meets 0x0801 0 0 0 0 0 (joinPay 0 []) mem (fun k t => joinBad t k.q k.p = false ∧ ajar t = false ∧ le k.p 0 1 = 0) := by
  unfold Meets; decide +kernel
theorem test_fab_raise_meets : Meets 0x0801 0 0 0 0 0 (joinPay 1 [(3, 1, 2)]) lone FabRaiseOk := by unfold Meets FabRaiseOk; decide +kernel
theorem opt_pair {α β : Type} {o : Option (α × β)} {a : α} (h : o.map Prod.fst = some a) : o = some (a, (o.get (by cases o <;> simp_all)).2) := by
  cases o with
  | none => simp at h
  | some x => simp only [Option.map_some, Option.some.injEq] at h; simp [← h]
theorem test_fab_team_meets : ∃ t1, Meets 0x0801 0 0 0 0 0 (joinPay 2 [(64, 8, 4096), (74, 2, 2), (80, 8, 8192)]) lone (FabTeamOk 1 t1) := by
  refine ⟨_, ?_, ?_, ?_, ?_, ?_, ?_, ?_, ?_, opt_pair ?_⟩ <;> decide +kernel
theorem test_fab_leave_status_meet :
    Meets 0x0802 0 0 0 0 0 [] lintel (fun _ t => t.fab.member = true ∧ t.fab.wait = .none) ∧ Meets 0x0803 0 0 0 0 4096 [] lintel FabStatusOk := by
  unfold Meets FabStatusOk; decide +kernel


/-! Core instructions. -/

/-- A run of context 0 on cluster 0. -/
def aRun : Run :=
  { ctx := 0, q := 64, uid := 9, prog := 1, entryPc := 0, clusters := [0], skipLimit := 0, stopIndex := 0, dumpAddr := 0, dumpLen := 0, args := [],
    noSave := false, release := false, skips := 0, added := 0, st := .running, order := 9, heldSince := 0, stop := none, tag := 0, keeper := none,
    migHold := false, watch := false, wrote := [] }

/-- Cluster 0 runs a program whose only word is `w`, its core changed by `g`; latch 5 of context 0 holds 7, latch 6 is poisoned. -/
def running (w : Word) (g : Core → Core) : State :=
  { ready with
    run := [(1, aRun)], prog := [(1, { level := 0, features := 0, entry := [0], shadow := [], words := [w], tmpl := [] })],
    core := [(0, g { Core.init with st := .running, run := some 1 })],
    latch := [(5, { value := 7, poison := false, owner := 0 }), (6, { value := 0, poison := true, owner := 0 })] }

/-- An instruction word of OP `op`: fields as (place, value). -/
def opWord (op : Nat) (l : List (Nat × Nat)) : Word := BitVec.ofNat 64 (op * 2 ^ 56 + (l.map (fun x => x.2 * 2 ^ x.1)).foldl (· + ·) 0)

/-- XD, XA and XB all 31, and all 0. -/
theorem test_three_registers_meet : ∀ r ∈ threeRows, ∀ x ∈ [0, 31],
    let w := opWord r.2.1 [(47, x), (42, x), (37, x)]
    Issues r.2.1 0 w (running w id) ∧ fld w 36 0 = 0 := by
  unfold Issues; decide +kernel
theorem test_immediates_meet :
    (∀ r ∈ immRows, let w := opWord r.2.1 [(47, 31), (42, 31), (0, 63)]
      Issues r.2.1 0 w (running w id) ∧ fld w 41 32 = 0 ∧ (r.2.2.1 = true → fld w 31 0 < 64))
    ∧ ∀ op ∈ [0x1E, 0x1F], let w := opWord op [(47, 31), (0, 2 ^ 32 - 1)]
      Issues op 0 w (running w id) ∧ fld w 46 32 = 0 := by
  unfold Issues; decide +kernel
theorem test_registers_meet : (0 < 31 ∧ (30 : Nat) ≠ 31) ∧ 0 < 7 ∧ 7 < 8 ∧ (6 : Nat) ≠ 7 := by decide
theorem test_failed_guard_meets : ∀ r ∈ coreRows, let w := opWord r.2 [(55, 1)]
    let s := running w id
    issues s 0 w [r.2] = true ∧ ((s.coreAt 0).pr (iGP w) != iGN w) = false := by
  decide +kernel

/-- Every command answers a next state: the one that `exec` gives. -/
def goesOn (i : Instr) (s : State) : Bool := match exec i s with | .next _ => true | _ => false
theorem test_register_rows_go_on : ∀ i ∈ registerRows, goesOn (i 0 0) State.reset = true := by decide +kernel

/-- Generator 15 counts 2, 1, 1, 3; its set stands at byte 16,256 of the local memory. -/
def genSet : List Byte := pay 128 [(0, 8, 64), (16, 4, 2), (24, 8, 8), (32, 4, 1), (48, 4, 1), (64, 4, 3)]
theorem test_generators_meet :
    (let w := opWord 0x21 [(47, 1), (37, 15)]
     let s := running w (fun c => { c with g := [(15, { base := 64, count := [2, 1, 1, 3], stride := [8, 0, 0, 1], index := [1, 0, 0, 2] })] })
     Issues 0x21 0 w s ∧ fld w 46 41 = 0 ∧ fld w 36 0 = 0
     ∧ tgetD (s.coreAt 0).g (iG w) Gen.init = { base := 64, count := [2, 1, 1, 3], stride := [8, 0, 0, 1], index := [1, 0, 0, 2] })
    ∧ (let w := opWord 0x22 [(37, 15)]
       Issues 0x22 0 w (running w id) ∧ fld w 51 41 = 0 ∧ fld w 36 0 = 0)
    ∧ (let w := opWord 0x20 [(42, 1), (37, 15)]
       let s := { running w (fun c => { c with x := [(1, 16256)] }) with localMem := mwrite [] 16256 genSet }
       Issues 0x20 0 w s ∧ fld w 51 47 = 0 ∧ fld w 41 41 = 0 ∧ fld w 36 0 = 0 ∧ 16256 = ((s.coreAt 0).xr (iXA w)).toNat ∧ 16256 % 128 = 0 ∧ 16256 < 2 ^ 14
       ∧ genBad (mread s.localMem (0 * 2 ^ 14 + 16256) 128) = false)
    ∧ (let w := opWord 0x20 [(37, 15)]
       let s := running w id
       Issues 0x20 0 w s ∧ (s.coreAt 0).brls = [] ∧ 0 = ((s.coreAt 0).xr (iXA w)).toNat ∧ leNat (mread s.localMem (0 * 2 ^ 14 + 0 + 16 + 16 * 3) 4) = 0) := by
  unfold Issues; decide +kernel
theorem test_loops_meet :
    (∀ n ∈ [0, 1, 2 ^ 32 - 1], let w := opWord 0x28 [(50, 3), (42, 1), (0, 2 ^ 24 - 1)]
     let s := running w (fun c => { c with x := [(1, BitVec.ofNat 64 n)] })
     Issues 0x28 0 w s ∧ n = ((s.coreAt 0).xr (iXA w)).toNat ∧ n < 2 ^ 32 ∧ (s.coreAt 0).loops = [] ∧ fld w 49 47 = 0 ∧ fld w 41 24 = 0 ∧ 0 < iB w)
    ∧ ∀ n ∈ [1, 2], let c : Core := { Core.init with pc := 4, l := [(3, BitVec.ofNat 32 n)], loops := [⟨3, 2, 4⟩] }
      c.loops = [] ++ [⟨3, 2, 4⟩] ∧ ((⟨3, 2, 4⟩ : Level).last = c.pc) ∧ (1 < (tgetD c.l 3 0).toNat ∨ (tgetD c.l 3 0).toNat ≤ 1) := by
  unfold Issues; decide +kernel
theorem test_predicates_meet :
    (∀ k ∈ [0, 5], let w := opWord 0x30 [(47, 7), (42, 31), (37, 31), (34, k)]
     let v := opWord 0x31 [(47, 7), (42, 31), (34, k), (0, 2 ^ 32 - 1)]
     (Issues 0x30 0 w (running w id) ∧ fld w 51 50 = 0 ∧ fld w 33 0 = 0 ∧ iCond w < 6)
     ∧ Issues 0x31 0 v (running v id) ∧ fld v 51 50 = 0 ∧ fld v 41 37 = 0 ∧ fld v 33 32 = 0 ∧ iCond v < 6)
    ∧ (∀ op ∈ [0x32, 0x33], let w := opWord op [(47, 7), (42, 7), (37, 7)]
       Issues op 0 w (running w id) ∧ fld w 51 50 = 0 ∧ fld w 46 45 = 0 ∧ fld w 41 40 = 0 ∧ fld w 36 0 = 0)
    ∧ let w := opWord 0x34 [(47, 7), (42, 7)]
      Issues 0x34 0 w (running w id) ∧ fld w 51 50 = 0 ∧ fld w 46 45 = 0 ∧ fld w 41 0 = 0 := by
  unfold Issues; decide +kernel

/-- Loads and stores at the last eight bytes of the local memory and of the scratchpad. -/
theorem test_loads_and_stores_meet :
    (∀ op ∈ [0x40, 0x41], let w := opWord op [(47, 1), (0, 2 ^ 14 - 8)]
     let s := running w id
     Issues op 0 w s ∧ fld w 41 32 = 0 ∧ address s 0 w % 8 = 0 ∧ address s 0 w + 8 ≤ 2 ^ 14 ∧ (s.coreAt 0).brls = [])
    ∧ ∀ op ∈ [0x42, 0x43], let w := opWord op [(47, 1), (0, 2 ^ 20 - 8)]
      let s := running w id
      Issues op 0 w s ∧ fld w 41 32 = 0 ∧ address s 0 w % 8 = 0 ∧ address s 0 w + 8 ≤ 2 ^ 20 ∧ (s.coreAt 0).brls = [] := by
  unfold Issues; decide +kernel

/-- A BRL of the running core whose latch is `l`. -/
def aBrl (l : Nat) : Brl :=
  { id := 3, pc := 0, latch := l, value := 7, addr := 0, cmp := 0, cond := 0, target := 1, hint := true, met := false, x := [], p := 1, l := [], g := [], loops := [] }
theorem test_branches_meet :
    (let w := opWord 0x38 [(4, 2 ^ 24 - 1)]
     Issues 0x38 0 w (running w id) ∧ fld w 51 28 = 0 ∧ fld w 3 0 = 0)
    ∧ (∀ v ∈ [7, 8], let w := opWord 0x39 [(47, 1), (42, 2), (37, 3), (34, 0)]
       let s := running w (fun c => { c with x := [(1, 5), (2, BitVec.ofNat 64 v), (3, 0xFFFF8)] })
       Issues 0x39 0 w s ∧ fld w 3 0 = 0 ∧ brlCond w < 6 ∧ OwnsXd 0 w s ∧ (s.coreAt 0).brls.length < 4 ∧ ((s.coreAt 0).xr (iXB w)).toNat % 8 = 0 ∧ ((s.coreAt 0).xr (iXB w)).toNat + 8 ≤ 2 ^ 20
       ∧ waitOn s 5 (BitVec.ofNat 64 v) = (if v = 7 then .met else .pending))
    ∧ (∀ l ∈ [5, 6], let s := running 0 (fun c => { c with brls := [{ aBrl 5 with value := 8 }, aBrl l] })
       (s.coreAt 0).brls = [{ aBrl 5 with value := 8 }] ++ aBrl l :: [] ∧ brlWait s { aBrl 5 with value := 8 } = .pending
       ∧ brlWait s (aBrl l) = (if l = 5 then .met else .failed)) := by
  unfold Issues OwnsXd; decide +kernel
theorem test_fifth_brl_meets :
    (let s := running 0 (fun c => { c with brls := List.replicate 4 (aBrl 5) })
     4 ≤ (s.coreAt 0).brls.length ∧ guardHolds (s.coreAt 0) (opWord 0x39 []) = true)
    ∧ let s := running 0 (fun c => { c with brls := [{ aBrl 5 with value := 8 }] })
      ∀ b ∈ (s.coreAt 0).brls, brlWait s b = .pending := by
  decide +kernel


/-! Engine queues. -/

theorem test_latch_instructions_meet :
    (∀ x ∈ [(5, 7), (5, 8), (6, 0)], let w := opWord 0x50 [(47, 1), (42, 2)]
     let s := running w (fun c => { c with x := [(1, BitVec.ofNat 64 x.1), (2, BitVec.ofNat 64 x.2)] })
     Issues 0x50 0 w s ∧ fld w 41 0 = 0 ∧ OwnsXd 0 w s ∧ (s.coreAt 0).brls = []
     ∧ waitOn s ((s.coreAt 0).xr (iXD w)).toNat ((s.coreAt 0).xr (iXA w)) = (if x.1 = 6 then .failed else if x.2 = 7 then .met else .pending))
    ∧ (let w := opWord 0x52 [(47, 1)]
       let s := running w (fun c => { c with x := [(1, 5)] })
       Issues 0x52 0 w s ∧ fld w 46 0 = 0 ∧ OwnsXd 0 w s ∧ (s.coreAt 0).brls = [])
    ∧ (∀ add ∈ [0, 1], let w := opWord 0x51 [(47, 1), (42, 2), (41, add), (36, 31)]
       let s := running w (fun c => { c with x := [(1, 5), (2, 9)] })
       Issues 0x51 0 w s ∧ fld w 35 0 = 0 ∧ OwnsXd 0 w s ∧ (s.coreAt 0).brls = []
       ∧ ((s.coreAt 0).eq.filter (fun e => (fld w 40 36).testBit e.qk)).map (fun e => e.uid) = [])
    ∧ (let g : Sigl := { uid := 4, env := false, latch := 5, value := 9, add := true, deps := [3] }
       let s := running 0 (fun c => { c with sigls := [g] })
       (s.coreAt 0).sigls.find? (fun x => x.uid = 4 && !x.env) = some g ∧ (s.coreAt 0).eq.any (fun e => g.deps.contains e.uid) = false) := by
  unfold Issues OwnsXd; decide +kernel
theorem test_hinge_end_illegal_meet :
    (∀ op ∈ [0x58, 0x59], let w := opWord op []
     let s := running w id
     Issues op 0 w s ∧ fld w 51 0 = 0 ∧ (s.coreAt 0).brls = [] ∧ (s.coreAt 0).eq.any (fun e => (s.coreAt 0).prevHinge.contains e.uid) = false)
    ∧ ∀ op ∈ [0x0D, 0xFF], let w := opWord op []
      definedOps.contains (iOp w) = false ∧ Issues (iOp w) 0 w (running w id) ∧ ((running w id).coreAt 0).brls = [] := by
  unfold Issues; decide +kernel
theorem test_latch_operations_meet :
    (running 0 id).getLatch 5 = some { value := 7, poison := false, owner := 0 } ∧ (running 0 id).getLatch 6 = some { value := 0, poison := true, owner := 0 } ∧ 6 ≠ 5 := by
  decide +kernel

/-- The envelope of an engine command: EOP, TARGET, and its WAIT on latch `l` for `v`. -/
def env (op tgt : Nat) (wait : Option Nat) : Hdr :=
  { w0 := BitVec.ofNat 64 (op * 2 ^ 56 + tgt * 2 ^ 48 + (match wait with | some l => 2 ^ 47 + l * 2 ^ 30 | none => 0)), w1 := 7, w2 := 0, w3 := 1,
    w4 := BitVec.ofNat 64 (3 * 2 ^ 48), w5 := BitVec.ofNat 64 (1 * 2 ^ 48), w6 := 0, w7 := 0 }

/-- Command 3 of cluster 0 stands alone in queue `q`. -/
def ecmd (q : Nat) (h : Hdr) : ECmd :=
  { uid := 3, qk := q, words := h, pc := 0, cmdIdx := 1, run := 1, ctx := 0, spec := [], stall := false, st := .queued, shadow := none, met := false }
def moveDesc (space : Nat) : List Byte := pay 192 [(0, 1, 1), (4, 1, space * 4)]
def pushed (e : ECmd) : State :=
  { running 0 (fun c => { c with eq := [e] }) with
    alloc := [(1, { ctx := 0, base := 2 ^ 21, len := 2 ^ 20, kind := .stripe, off := 2 ^ 20, unit := 2 ^ 20, smask := 1, bsmask := 1, handle := 3, port := 0, ro := false })],
    desc := [(1, { bytes := moveDesc 0, stale := false, dead := [] })] }

theorem starts_of {q op cl uid : Nat} {e : ECmd} {s : State}
    (h : (decide ((s.coreAt cl).eq.find? (fun x => x.uid = uid) = some e) && decide (e.qk = q) && decide (eEop e.words = op) && mayStart s cl e
      && decide (eWaitEn e.words = true → waitOn s (eWaitLatch e.words) e.words.w1 = .met) && hasTurn s cl e) = true) : Starts q op cl uid e s := by
  simp only [Bool.and_eq_true, decide_eq_true_eq] at h
  exact ⟨h.1.1.1.1.1, h.1.1.1.1.2, h.1.1.1.2, h.1.1.2, fun w => .inr (h.1.2 w), fun _ => h.2⟩

/-- Every engine row starts, without a WAIT and with one that is met. -/
theorem test_engine_rows_start : ∀ r ∈ engineRows, ∀ w ∈ [none, some 5], let e := ecmd r.2.1 (env r.2.2 (if r.2.1 = 0 then 1 else 0) w)
    Starts r.2.1 r.2.2 0 3 e (pushed e) := by
  have h : ∀ r ∈ engineRows, ∀ w ∈ [none, some 5], let e := ecmd r.2.1 (env r.2.2 (if r.2.1 = 0 then 1 else 0) w)
      let s := pushed e
      (decide ((s.coreAt 0).eq.find? (fun x => x.uid = 3) = some e) && decide (e.qk = r.2.1) && decide (eEop e.words = r.2.2) && mayStart s 0 e
        && decide (eWaitEn e.words = true → waitOn s (eWaitLatch e.words) e.words.w1 = .met) && hasTurn s 0 e) = true := by decide +kernel
  exact fun r hr w hw => starts_of (h r hr w hw)
/-- A command that reads the stripe; memory on stack 1; a plan of this rank alone. -/
def reading (q op : Nat) : ECmd := ecmd q { env op 0 none with w3 := 2 ^ 21, w6 := 0x100000000 }
def onStack1 : Nat × Alloc :=
  (2, { ctx := 0, base := 2 ^ 22, len := 2 ^ 20, kind := .stripe, off := 2 ^ 20, unit := 2 ^ 20, smask := 2, bsmask := 1, handle := 4, port := 0, ro := false })
def aPlan : Plan := { handle := 1, gen := 0, kind := 3, team := 0, level := 0, ranks := [0], cases := 1, steps := [], usable := true, retiring := false, closed := false }
def planned (e : ECmd) : State := { pushed e with plan := [(1, aPlan)] }
/-- A MOVE that copies an element from the interleaved memory, and a UCALL of routine `f` on sequence 0, whose page table lies on stack 1. -/
def moving (e : ECmd) : State := { pushed e with alloc := mem.alloc, desc := [(1, { bytes := copyDesc, stale := false, dead := [] })] }
def attending (f : Nat) : ECmd := ecmd 2 { env 10 0 none with w4 := BitVec.ofNat 64 (3 * 2 ^ 48 + f * 256), w6 := 2 ^ 40 }
def attended (e : ECmd) : State :=
  { pushed e with alloc := (pushed e).alloc ++ [onStack1], desc := [(1, { bytes := attnDesc, stale := false, dead := [] })], seq := [(0, { aSeq with pt := 2 ^ 22 })] }
def gatedAt (n : Nat) (s : State) : State := { s with gated := [.stack n] }

/-- The descriptor of a MOVE, to memory and to a scratchpad, and the routines of UCALL; what starts meets no gated unit. -/
theorem test_engine_operands_meet :
    (let e := ecmd 1 (env 1 0 none)
     let s := pushed e
     (∃ d, s.getDesc (e.ctx * 65536 + qDesc e.words) = some d ∧ (mdescOf d.bytes).dspace ≠ 2)
     ∧ (∃ d, ({ s with desc := [(1, { bytes := moveDesc 2, stale := false, dead := [] })] } : State).getDesc (e.ctx * 65536 + qDesc e.words) = some d
       ∧ (mdescOf d.bytes).dspace = 2)
     ∧ Passes 3 (fun t => moveCmd 0 e (begun 0 e t)) s)
    ∧ (∀ r ∈ sillRows, let e := ecmd 2 (env r.2 0 none)
       Passes 3 (fun t => sillCmd 0 e (begun 0 e t)) (pushed e))
    ∧ (∀ x ∈ [(3, 0), (0, 1), (1, 2), (2, 3)], (ucallRows.map (fun r => r.2 x.1))[x.2]? = some true
       ∧ Passes 3 (fun t => sillCmd 0 (attending x.1) (begun 0 (attending x.1) t)) (attended (attending x.1)))
    ∧ (∀ r ∈ wicketRows, Passes 3 (fun t => wicketCmd r.2.2 0 (reading 3 r.2.1) (begun 0 (reading 3 r.2.1) t)) (pushed (reading 3 r.2.1)))
    ∧ ∀ r ∈ mullionRows, Passes 3 (fun t => collCmd 0 (reading 4 r.2) (begun 0 (reading 4 r.2) t)) (planned (reading 4 r.2)) := by
  unfold Passes
  refine ⟨⟨⟨{ bytes := moveDesc 0, stale := false, dead := [] }, ?_⟩, ⟨{ bytes := moveDesc 2, stale := false, dead := [] }, ?_⟩, ?_⟩, ?_⟩ <;> decide +kernel
/-- A Sill command starts, or is stopped at its start; no stripe stops it too. -/
theorem test_sill_starts_meet :
    (∀ r ∈ sillRows, let e := ecmd 2 (env r.2 0 none)
     ∃ a t, stripeOf (pushed e) 0 (sStripe e.words) = some a
       ∧ sillStart { ctx := 0, uid := 3, a := a, stack := 0, going := false } e.words 1 (claimUnit 0 0 (pushed e)) = (t, none))
    ∧ (let e := attending 1
       ∃ a t o, stripeOf (pushed e) 0 (sStripe e.words) = some a
         ∧ sillStart { ctx := 0, uid := 3, a := a, stack := 0, going := false } e.words 1 (claimUnit 0 0 (pushed e)) = (t, some o))
    ∧ let e := ecmd 2 { env 1 0 none with w4 := 0 }
      stripeOf (pushed e) 0 (sStripe e.words) = none := by
  refine ⟨fun r hr => ⟨(nth (pushed (ecmd 2 (env r.2 0 none))).alloc 0 onStack1).2, _, ?_, pair_eq ?_⟩,
    ⟨(nth (pushed (attending 1)).alloc 0 onStack1).2, _, { st := 21, addr := 0 }, ?_, pair_eq ?_⟩, by decide +kernel⟩
  · revert r; decide +kernel
  · revert r; decide +kernel
  · decide +kernel
  · decide +kernel
/-- A collective starts with what it reads, on a plan of its own; none and an unusable one end it. -/
theorem test_collectives_meet :
    (∀ r ∈ mullionRows, (planned (reading 4 r.2)).getPlan (mPlan (reading 4 r.2).words) = some aPlan ∧ aPlan.usable = true
      ∧ Starts 4 r.2 0 3 (reading 4 r.2) (planned (reading 4 r.2))
      ∧ (pushed (reading 4 r.2)).getPlan (mPlan (reading 4 r.2).words) = none
      ∧ ({ pushed (reading 4 r.2) with plan := [(1, { aPlan with usable := false })] } : State).getPlan 1 = some { aPlan with usable := false })
    ∧ ∀ k ∈ [1, 2, 3, 4, 5, 8, 9], let e := reading 4 k
      let s := planned e
      let c := startedColl 0 3 0 e.words s
      let x := vRd 0 c.src (Coll.srcLen c 1 0) (numbered e.words (begun 0 e (tried 3 s)))
      (match x.2 with | .ok _ => true | .error _ => false) = true ∧ x.1.acc.units = [] ∧ x.1.acc.banks = [] := by
  constructor
  · intro r hr
    have h : ∀ r ∈ mullionRows, let e := reading 4 r.2
        let s := planned e
        (decide ((s.coreAt 0).eq.find? (fun x => x.uid = 3) = some e) && decide (e.qk = 4) && decide (eEop e.words = r.2) && mayStart s 0 e
          && decide (eWaitEn e.words = true → waitOn s (eWaitLatch e.words) e.words.w1 = .met) && hasTurn s 0 e) = true := by decide +kernel
    exact ⟨by revert r; decide +kernel, rfl, starts_of (h r hr), by revert r; decide +kernel, by revert r; decide +kernel⟩
  · decide +kernel
/-- Each meets a gated stack. -/
theorem test_gated_accesses_meet :
    (∀ x ∈ [((Instr.kvScore : Nat → Nat → Instr), 0), (Instr.kvApply, 1)], let e := attending x.2
     let s := gatedAt 1 (attended e)
     mayStart s 0 e = true ∧ eEop e.words = 10 ∧ sFn e.words = x.2 ∧ ¬ Passes 3 (fun t => sillCmd 0 e (begun 0 e t)) s)
    ∧ (∀ r ∈ wicketRows, let e := reading 3 r.2.1
       let s := gatedAt 0 (pushed e)
       mayStart s 0 e = true ∧ hasTurn s 0 e = true ∧ ¬ Passes 3 (fun t => wicketCmd r.2.2 0 e (begun 0 e t)) s)
    ∧ (∀ k ∈ [1, 2, 3, 4, 5, 8], let e := reading 4 k
       let s := gatedAt 0 (planned e)
       mayStart s 0 e = true ∧ ¬ Passes 3 (fun t => collCmd 0 e (begun 0 e t)) s)
    ∧ let e := ecmd 1 (env 1 0 none)
      let s := gatedAt 0 (moving e)
      mayStart s 0 e = true ∧ hasTurn s 0 e = true ∧ ¬ Passes 3 (fun t => moveCmd 0 e (begun 0 e t)) s := by
  unfold Passes; decide +kernel
theorem test_speculative_move_meets : let e := { ecmd 1 (env 1 0 none) with spec := [2] }
    Starts 1 1 0 3 e (pushed e) ∧ e.spec ≠ [] := ⟨starts_of (by decide +kernel), by decide⟩
theorem test_push_meets : ∃ t,
    let w := opWord 0x48 [(35, 1)]
    let h : Hdr := { env 3 1 none with w3 := 0x0001000000000000, w4 := 0, w5 := 0 }
    let s := { running w id with sharedMem := mwrite [] 64 (hdrBytes h) }
    Issues 0x48 0 w s ∧ coreRun s 0 = some (1, aRun) ∧ (s.coreAt 0).brls = [] ∧ pushCheck s 0 0 w (pushWords s 0 w) = (t, none)
    ∧ ((t.coreAt 0).eq.filter (fun e => e.qk = pQueue w)).length < queueDepth (pQueue w) := by
  refine ⟨_, ?_, ?_, ?_, pair_eq ?_, ?_⟩ <;> first | decide +kernel | (unfold Issues; decide +kernel)
/-- A shadow load behind an unresolved BRL. -/
def shadowLoad : Hdr := { env 3 1 none with w0 := BitVec.ofNat 64 (3 * 2 ^ 56 + 2 ^ 48 + 2 ^ 44) }
def speculating : State := { running (opWord 0x48 [(35, 1)]) (fun c => { c with brls := [aBrl 5], pushes := 1 }) with sharedMem := mwrite [] 64 (hdrBytes shadowLoad) }
theorem test_speculative_push_meets :
    eShadow (pushWords speculating 0 (opWord 0x48 [(35, 1)])) = true ∧ (speculating.coreAt 0).brls ≠ [] ∧ aRun.stopIndex = 0
    ∧ (speculating.coreAt 0).pushes.toNat + specPushes (speculating.coreAt 0) < ({ aRun with stopIndex := 2 } : Run).stopIndex.toNat := by
  decide +kernel
theorem test_waits_meet : ∀ r ∈ engineRows, ∀ w ∈ [5, 6], let e := ecmd r.2.1 { env r.2.2 (if r.2.1 = 0 then 1 else 0) (some w) with w1 := 8 }
    let s := pushed e
    (s.coreAt 0).eq.find? (fun x => x.uid = 3) = some e ∧ eWaitEn e.words = true ∧ e.met = false ∧ mayStart s 0 e = true
    ∧ waitOn s (eWaitLatch e.words) e.words.w1 = (if w = 5 then .pending else .failed) := by
  decide +kernel
/-- A command that has ended, with writes in the Letterbox of stack 0. -/
def ended (st : Nat) : ECmd := { ecmd 0 { env 3 1 none with w0 := BitVec.ofNat 64 (3 * 2 ^ 56 + 2 ^ 48 + 2 ^ 46 + 5 * 2 ^ 16) } with st := .done st 0 }
def buffered (e : ECmd) : State :=
  { pushed e with lb := [(0, { Lb.init with lines := [{ addr := 2 ^ 20, cells := [(0, 1)], owners := [(3, 0)], due := false, bad := false }] })] }
theorem test_completion_meets :
    (∀ st ∈ [stOK, stPageFault], ∀ b ∈ [false, true], let e := ended st
     let s := { buffered e with lb := if b then [(0, { Lb.init with bad := [3] })] else (buffered e).lb }
     let x := outcomeOf 0 e (tried 3 s)
     let u := setSt 0 3 (.done st 0) (drainOwned 3 x.1)
     (s.coreAt 0).eq.find? (fun x => x.uid = 3) = some e ∧ e.spec = [] ∧ (s.coreAt 0).st ≠ .cut ∧ x.2 = some (if st = stOK then EOut.ok else EOut.stop st 0)
     ∧ owns u 3 = false ∧ hitBad u 3 = b ∧ e.shadow = none ∧ eSigEn e.words = true
     ∧ ((u.coreAt 0).eq.takeWhile (fun x => x.uid ≠ 3)).any (fun x => x.qk = e.qk) = false
     ∧ Passes 3 (fun s => match outcomeOf 0 e s with
        | (t, none) => t
        | (t, some o) =>
          let u := setSt 0 3 (.done o.st o.addr) (drainOwned 3 t)
          if o.st = stOK && owns u 3 then u
          else leaveQueue 0 e (if o.st = stOK && hitBad u 3 then EOut.stop stEccUncorr 0 else o) false (freeBanks 3 (clearBad 3 u))) s)
    ∧ (let e := ended stOK
       let s := { buffered e with bank := [(0, { Bank.init with burst := true })] }
       ¬ Passes 3 (fun s => match outcomeOf 0 e s with
        | (t, none) => t
        | (t, some o) =>
          let u := setSt 0 3 (.done o.st o.addr) (drainOwned 3 t)
          if o.st = stOK && owns u 3 then u
          else leaveQueue 0 e (if o.st = stOK && hitBad u 3 then EOut.stop stEccUncorr 0 else o) false (freeBanks 3 (clearBad 3 u))) s)
    ∧ (let e := ecmd 1 (env 1 0 none)
       outcomeOf 0 e (tried 3 (pushed e)) = (tried 3 (pushed e), none) ∧ (tried 3 (pushed e)).acc.units = [] ∧ (tried 3 (pushed e)).acc.banks = [])
    ∧ let e := { ecmd 0 (env 3 1 none) with spec := [2] }
      ((pushed e).coreAt 0).eq.find? (fun x => x.uid = 3) = some e ∧ e.spec ≠ [] ∧ ((pushed e).coreAt 0).st ≠ .cut := by
  unfold Passes; decide +kernel


/-! Queues, runs and stacks. -/

/-- A processor restarts. -/
def without (p : Nat) (s : State) : State := { s with proc := [(p, { Proc.init with restarting := true })] }

theorem test_doorbells_meet :
    (∀ x ∈ [(0x1000, 0), (0x20000, 64)], let s := queued ready
     (isBell x.1 0 = true ∧ isBell (x.1 + 8) 8 = true) ∧ barOpen s = true ∧ bellQueue s 0 x.1 = some x.2 ∧ bellQueue s 0 (x.1 + 8) = some x.2
     ∧ s.getQueue x.2 = some (aQueue (x.2 < 64)) ∧ (63 : Word).toNat < 2 ^ (aQueue true).subLog2 ∧ 2 ^ (aQueue true).cplLog2 ≤ (64 : Word).toNat)
    ∧ isBell 0x20010 0 = true ∧ bellQueue (queued ready) 0 0x20010 = none := by
  decide +kernel
theorem test_refused_meets : let s := queued ready
    let h := head 0x0999 0 0 0 0 0
    (s.getQueue 64 = some (aQueue false) ∧ (aQueue false).st = .active ∧ fetches (aQueue false) = true ∧ (aQueue false).resume = none ∧ (aQueue false).subDev = false)
    ∧ pktExtent h ≤ avail (aQueue false) ∧ parseCheck s 64 (aQueue false) h [] = some { st := 0x01, det := 1, res := 0 } := by
  decide +kernel

/-- A command fetched from queue 64 that has opcode `o`, header `h` and stands at phase `ph`. -/
def anEntry (o : Nat) (h : Hdr) (ph : EPhase) (posted : Bool) : Entry :=
  { uid := 9, slot := 0, tag := 1, ctxf := 0, opc := o, hdr := h, pl := [], irq := true, ph := ph, sigged := false, posted := posted, chk := true, met := false, deps := [] }
def holding (x : Queue) : State := { running 0 id with queue := [(0, aQueue true), (64, x)] }

theorem test_in_progress_meets :
    (let x := { aQueue false with resume := some (0, 9, 0), es := [anEntry 0x0100 (head 0x0100 0 0 0 0 0) (.done 0 0 0) true] }
     let e := anEntry 0x0105 (head 0x0105 0 0 0 0 0) .running false
     (holding x).getQueue (ctxQ e.ctxf (hA e.hdr % 4)) = some x ∧ x.st ≠ .halted ∧ x.destroy = none ∧ x.resume = some (0, e.uid, hC e.hdr)
     ∧ x.es.all (fun y => y.posted) = true ∧ slotAhead x (hC e.hdr) = false)
    ∧ (holding (aQueue false)).getQueue (ctxQ 0 (hA (head 0x0104 0 0 0 0 0) % 4)) = some (aQueue false) ∧ (aQueue false).es = []
    ∧ (∀ d ∈ [[], [9]], let e := { anEntry 0x0204 (head 0x0204 1 0 0 0 0) .running false with uid := 8, deps := d }
       let x := { aQueue false with es := [e, anEntry 0x0100 (head 0x0100 0 0 0 0 0) .running false] }
       (holding x).getQueue 64 = some x ∧ e.opc = 0x0204 ∧ earlierDone x e.uid = true ∧ anyAlive (holding x) d = !d.isEmpty
       ∧ Passes e.uid (fun u => completeEntry 64 e.uid { st := 0, det := 0, res := 0 } 0 (forEach (List.range 12) drainStack u)) (holding x))
    ∧ ownsLatch (holding (aQueue false)) 0 (hA (head 0x0503 5 0 0 0 0)) = true
    ∧ ({ ready with req := [(3, aReq)] } : State).getReq (hA (head 0x0606 3 0 0 0 0)) = some aReq := by
  unfold Passes; decide +kernel
theorem test_records_meet :
    (∀ b ∈ [true, false], let e := { anEntry 0x0100 (head 0x0100 0 0 0 0 0) (.done 0 0 0) false with irq := b }
     let x := { aQueue false with es := [e], cplTail := 63, head := 1 }
     (holding x).getQueue 64 = some x ∧ x.es.find? (fun y => !y.posted) = some e ∧ e.ph = .done 0 0 0 ∧ cplFull x = false ∧ e.irq = b
     ∧ Passes 0 (fun s =>
        let u := updEntry 64 e.uid (fun y => { y with posted := true }) ((writeRecord x (recordBytes s 64 x e 0 0 0) s).updQueue 64 (fun y => { y with
          cplTail := (x.cplTail + 1) % 2 ^ x.cplLog2, phase := if (x.cplTail + 1) % 2 ^ x.cplLog2 = 0 then !y.phase else y.phase }))
        sweepQ 64 (if e.irq then msix x.fn x.vector u else u)) (holding x))
    ∧ (let e := anEntry 0x0100 { head 0x0100 0 0 0 0 0 with w3 := 0x80050000 } (.done 0 0 0) false
       let x := { aQueue false with es := [e] }
       (holding x).getQueue 64 = some x ∧ x.es.find? (fun y => y.uid = 9) = some e ∧ hSigEn e.hdr = true ∧ e.sigged = false ∧ e.kind = some .outcome
       ∧ earlierDone x 9 = true)
    ∧ (∀ x ∈ [(5, 7), (6, 0)], let c := { Core.init with st := .running, run := some 1, stall := some (x.1, BitVec.ofNat 64 x.2) }
       let s := { running 0 id with core := [(0, c)] }
       s.queue = [] ∧ c.stall = some (x.1, BitVec.ofNat 64 x.2) ∧ c.eq = [] ∧ c.brls = []
       ∧ waitOn s x.1 (BitVec.ofNat 64 x.2) = (if x.1 = 6 then .failed else .met))
    ∧ (ready.core = [] ∧ ready.queue = [])
    ∧ let e := ecmd 1 { env 1 0 (some 6) with w1 := 8 }
      (pushed e).core = [(0, { Core.init with st := .running, run := some 1, eq := [e] })] ∧ (pushed e).queue = [] ∧ e.st = .queued ∧ e.spec = []
      ∧ eWaitEn e.words = true ∧ eWaitLatch e.words = 6 ∧ e.met = false ∧ waitOn (pushed e) 6 e.words.w1 = .failed := by
  unfold Passes; decide +kernel

/-- Run 1 with its core ended. -/
def ending (x : Run) (st : CoreSt) : State := { mem with run := [(1, x)], core := [(0, { Core.init with st := st, run := some 1 })] }
theorem test_runs_meet :
    (∀ st ∈ [CoreSt.ended, .stopped, .cut], AllFinished 1 (ending aRun st))
    ∧ (ending aRun .ended).getRun 1 = some aRun ∧ aRun.stop = none ∧ aRun.stopIndex = 0 ∧ aRun.keeper = none
    ∧ Passes 9 (fun s => completeEntry 64 9 { st := 0, det := 0, res := aRun.added } 0 (freed 1 aRun s)) (ending aRun .ended)
    ∧ (∀ st ∈ [RunSt.running, .preempting, .saving], let x := { aRun with stop := some 0x16, st := st }
       (ending x .stopped).getRun 1 = some x ∧ kindOf 0x16 = .stop
       ∧ Passes 9 (fun s => completeEntry 64 9 { st := 0x16, det := 0, res := 0 } 0 (freed 1 x (spoilRun 1 s))) (ending x .stopped))
    ∧ ({ aRun with keeper := some 0 }).keeper = some 0 := by
  unfold AllFinished Passes; decide +kernel
/-- A far allocation; a run whose dump goes to `a`. -/
def onFar : Nat × Alloc :=
  (2, { ctx := 0, base := 2 ^ 22, len := 4096, kind := .far, off := 2 ^ 30, unit := 0, smask := 0, bsmask := 0, handle := 0, port := 0, ro := false })
def dumping (a : Nat) : Run := { aRun with clusters := [], stopIndex := 1, dumpAddr := a }
def dumped (a : Nat) : State × WRes := writeDump (dumping a) (tried 9 { farMem with alloc := [onFar], run := [(1, dumping a)] })
theorem test_dump_meets : (dumped (2 ^ 22)).2 = .ok ∧ (dumped 0).2 = .fault 0 := by decide +kernel
def dumpEnds : List State :=
  [completeEntry 64 9 { st := 0, det := 0, res := 0 } 0 (freed 1 (dumping (2 ^ 22)) (dumped (2 ^ 22)).1),
   completeEntry 64 9 { st := 0x15, det := 0, res := 0 } 0 (freed 1 (dumping 0) (spoilRun 1 (dumped 0).1))]
theorem test_dump_clear : ∀ t ∈ dumpEnds, Clear t := by unfold Clear; decide +kernel

/-- Run 2, of another context, waits for the cluster that run 1 holds; or run 2 waits, or is saved, alone. -/
def contended : State := { running 0 id with ctx := [(0, aCtx), (1, aCtx)], run := [(1, aRun), (2, { aRun with ctx := 1, st := .waiting, order := 10 })] }
def alone (st : RunSt) : State := { ready with run := [(2, { aRun with st := st })] }
theorem test_arbiter_meets :
    (∀ st ∈ [RunSt.waiting, .saved], nextRun (alone st) = some (2, { aRun with st := st }) ∧ startable (alone st) { aRun with st := st } = true
      ∧ waitingRuns (alone st) = [(2, { aRun with st := st })])
    ∧ ready.dev.inReset = false ∧ ready.dev.clockStop = false ∧ contended.getRun 1 = some aRun ∧ blocksEqual contended 1 = true
    ∧ let m : Mig := { q := 0, uid := 9, map := [], ptabs := [], moved := true, result := 0, drainMs := 100 }
      ({ ready with ctx := [(0, { aCtx with mig := some m })] } : State).getCtx 0 = some { aCtx with mig := some m } ∧ m.moved = true := by
  decide +kernel
/-- A context with a shutter area on stack 0. -/
def shuttered : Ctx := { aCtx with shutter := some { p0 := { off := 2 ^ 24, len := 2 ^ 22, stks := 1 }, p1 := { off := 0, len := 0, stks := 0 } } }
theorem test_preemption_meets :
    (let x := { aRun with st := .preempting }
     let s := ending x .hinge
     s.getRun 1 = some x ∧ x.stop = none ∧ (coresOf s 1).all (fun cl => coreAtHinge (s.coreAt cl)) = true
     ∧ (coresOf s 1).all (fun cl => coreFinished (s.coreAt cl)) = false ∧ s.getCtx x.ctx = some aCtx ∧ x.noSave = false ∧ aCtx.shutter = none ∧ x.keeper = none
     ∧ ({ s with ctx := [(0, shuttered)] } : State).getCtx 0 = some shuttered)
    ∧ (let s := running 0 (fun c => { c with stopReq := true })
       (s.coreAt 0).stopReq = true ∧ (s.coreAt 0).late = false ∧ (s.coreAt 0).st ≠ .ended ∧ coreAtHinge (s.coreAt 0) = false)
    ∧ (let x := { aRun with st := .saving }
       let s := { ending x .hinge with ctx := [(0, shuttered)], cas := [(0, { Cas.init0 with owner := 1, clusters := 1, bsmask := 1 })] }
       s.getRun 1 = some x ∧ x.stop = none ∧ (s.coreAt 0).run = some 1 ∧ Passes 9 (spillCluster 1 0) s
       ∧ shutPlace s x.ctx (s.coreAt 0).logical = some ({ off := 2 ^ 24, len := 2 ^ 22, stks := 1 }, 1, 0))
    ∧ let s := alone .restoring
      s.getRun 2 = some { aRun with st := .restoring } ∧ s.dev.inReset = false ∧ s.dev.clockStop = false ∧ Passes 9 (fun s => restoreRun 2 (loadArmed 2 s)) s := by
  unfold Passes; decide +kernel
theorem test_deferred_freeing_meets :
    (∀ d ∈ [[], [3]], let p := { aPage .resident with freeing := some d }
     let s := { pushed (ecmd 0 (env 3 1 none)) with page := [(65535, p)] }
     s.getPage 65535 = some p ∧ p.freeing = some d ∧ (Ended s d ↔ d = []))
    ∧ ∀ b ∈ [true, false], let x : Fill := { far := b, smask := 1, bsmask := 1, off := 0, len := 4096, deps := [] }
      let s := { ready with fills := [(0, x)] }
      s.getFills 0 = some x ∧ x.far = b ∧ Ended s x.deps := by
  unfold Ended; decide +kernel

theorem test_refresh_meets :
    (∀ b ∈ [{ Bank.init with debt := 7 }, { Bank.init with debt := 8 }], let s := { ready with bank := [(767, b)] }
     s.gated.contains (.stack 11) = false ∧ (s.bankAt (11 * 64 + 63)).debt = b.debt ∧ b.forced = false ∧ b.burst = false ∧ b.refresh = false
     ∧ waitsAt s 767 = false ∧ 0 < b.debt)
    ∧ ({ ready with gated := [.stack 11] } : State).gated.contains (.stack 11) = true
    ∧ (∀ f ∈ [true, false], let b := { Bank.init with burst := true, forced := f }
       let s := { ready with bank := [(0, b)] }
       (s.bankAt (0 * 64 + 0)).burst = true ∧ (s.bankAt 0).forced = f ∧ (s.bankAt 0).refresh = false ∧ ((rowsLand 0 s).bankAt 0).forced = f)
    ∧ ∀ u ∈ [none, some 3], let s := { ready with bank := [(0, { Bank.init with refresh := true, busy := u })] }
      (s.bankAt 0).refresh = true ∧ (s.bankAt 0).busy = u := by
  decide +kernel

/-- Window 63 of function 0 is open on context 0; far memory stands at 2^22 and a read-only host mapping cannot be reached through it. -/
def apertured : State :=
  { farMem with
    apw := [(63, { enable := true, ctx := 0, baseHi := 0 }), (62, { enable := true, ctx := 1, baseHi := 0 })],
    ctx := [(0, { aCtx with model := true }), (1, aCtx)],
    alloc := mem.alloc ++ [onFar] }
/-- An uncorrectable word in the stack, a poisoned line in the far tier. -/
def spoilt : State := { apertured with health := [(2 ^ 14, .poison)], farBad := [farKey apertured (2 ^ 30) / 64] }
theorem test_aperture_meets :
    (apShape 4095 1 = true ∧ apShape (2 ^ 20) 64 = true)
    ∧ (∃ a, apTarget apertured 0 63 (2 ^ 20) = some (0, 2 ^ 20, a, false) ∧ apTarget apertured 0 62 (2 ^ 20) = some (1, 2 ^ 20, a, true) ∧ a.loc (2 ^ 20) = .stk 0)
    ∧ bankFree apertured (0 / 2 ^ 30) = true ∧ bankFree { apertured with bank := [(0, { Bank.init with burst := true })] } (0 / 2 ^ 30) = false
    ∧ (gatedAt 0 apertured).gated.contains (.stack (saStack 0)) = true ∧ apertured.gated.contains (.stack (saStack 0)) = false
    ∧ (∃ t, stRead 1 0 64 apertured = (t, some (zeros 64))) ∧ (∃ t, stRead 1 (2 ^ 20) 64 spoilt = (t, none))
    ∧ (∃ a, apTarget apertured 0 63 (2 ^ 22) = some (0, 2 ^ 22, a, false) ∧ a.loc (2 ^ 22) = .far (2 ^ 30))
    ∧ (∃ t, farRead 1 (2 ^ 30) 64 apertured = (t, some (zeros 64))) ∧ (∃ t, farRead 1 (2 ^ 30) 64 spoilt = (t, none)) ∧ apTarget apertured 0 61 0 = none := by
  refine ⟨?_, ⟨(nth mem.alloc 0 onStack1).2, ?_⟩, ?_, ?_, ?_, ?_, ⟨_, pair_eq ?_⟩, ⟨_, pair_eq ?_⟩, ⟨(nth apertured.alloc 2 onStack1).2, ?_⟩,
    ⟨_, pair_eq ?_⟩, ⟨_, pair_eq ?_⟩, ?_⟩ <;> decide +kernel
theorem test_stack_work_meets :
    (let l : LbLine := { addr := 5, cells := [(0, 1)], owners := [], due := false, bad := false }
     ∀ b ∈ [true, false], let s := { ready with lb := [(0, { Lb.init with lines := [l], merge := [l] })], bank := [(0, { Bank.init with refresh := b })] }
     (s.lbAt 0).lines.find? (fun x => x.addr = l.addr) = some l ∧ saStack (5 * 64) = 0 ∧ mergeEntry s 5 = some l ∧ stkShut s (5 * 64) = b
     ∧ stkShut s (5 * 128) = b ∧ l.bad = false)
    ∧ (∀ b ∈ [true, false], let s := { ready with ecc := [(11, { (ready.eccAt 11) with patrol := 5 })], bank := [(11 * 64, { Bank.init with refresh := b })] }
       s.eccReg.period ≠ 0 ∧ s.dev.stackIn.getLsbD 11 = true ∧ s.gated.contains (.stack 11) = false ∧ (s.eccAt 11).patrol = 5
       ∧ ((tried 0 s).acc.units = [] ∧ (reachBank (11 * 2 ^ 36 + 5 * 4096) (tried 0 s)).acc.banks = (if b then [11 * 64] else [])))
    ∧ ({ ready with eccReg := { ready.eccReg with period := 0 } } : State).eccReg.period = 0 := by
  decide +kernel
/-- The patrol's row passes, or waits at a bank set in a refresh. -/
theorem test_patrol_meets :
    let f := fun (s : State) => (forEach (List.range 64) (fun i => patrolWord (11 * 2 ^ 36 + 5 * 4096 + 64 * i))
      (drainDramRow (11 * 2 ^ 36 + 5 * 4096) (reachBank (11 * 2 ^ 36 + 5 * 4096) s))).modEcc 11 (fun e => { e with patrol := (5 + 1) % 2 ^ 24 })
    Passes 0 f ready ∧ ¬ Passes 0 f { ready with bank := [(11 * 64, { Bank.init with refresh := true })] } := by
  unfold Passes; decide +kernel
theorem test_gating_meets :
    (∀ u ∈ [GUnit.cluster 127, .stack 11, .pivot 31, .wicket 3, .mullion 1], mayGate ready u = true
      ∧ mayGate { ready with gated := [u] } u = false
      ∧ (let s := { ready with gated := [u], wake := [u] }
         s.gated.contains u = true ∧ s.wake.contains u = true ∧ fusedOff s u = false ∧ s.dev.inReset = false ∧ s.therm.trip = false))
    ∧ ({ ready with therm := { ready.therm with trip := true } } : State).therm.trip = true
    ∧ (∀ n ∈ [1, 100], let s := { ready with fw := { ready.fw with ucodePend := [(64, some (2, List.replicate n 0))] } }
       s.fw.ucodePend.find? (fun e => e.1 = 1 * 64 + 0) = some (1 * 64 + 0, some (2, List.replicate n 0)) ∧ routineNamed s 1 0 = false
       ∧ procDown s (4 + 1 % 2) = false ∧ ucodeWords s.fw (1 * 64 + 0) + (List.replicate n (0 : BitVec 128)).length ≤ 4096)
    ∧ (let e := ecmd 2 { env 10 0 none with w4 := 0 }
       routineNamed (pushed e) 0 0 = true)
    ∧ procDown (without 5 ready) (4 + 1) = true := by
  decide +kernel


/-! Heat, power, links and groups. -/

/-- A state whose sites have these readings, hot ones among them. -/
def warm (l : List (Nat × Int)) (h : List Nat) : State := { ready with therm := { ready.therm with temp := l, hot := h } }
/-- Input 3 enabled at 60 and 90 °C, and open. -/
def inputs : State := { ready with therm := { ready.therm with inp := [(3, { en := true, hot := 60, trip := 90 })], openIn := 8 } }
/-- A trip in force at site 0, which has cooled down or not. -/
def tripped (x : Int) : State := { ready with therm := { ready.therm with trip := true, temp := [(0, x)] } }

theorem test_sensors_meet :
    (∀ i ∈ [0, 31, 0x100, 0x100 + 191, 0x200, 0x200 + 23, 0x300, 0x303], (siteLimits ready i).isSome = true ∧ inputOpen ready i = false)
    ∧ (∀ i ∈ [32, 0x100 + 192, 0x200 + 24, 0x304, 0x400], siteLimits ready i = none)
    ∧ 3 < 4 ∧ inputs.therm.openIn.getLsbD 3 = true ∧ (siteLimits inputs (0x400 + 3)).isSome = true ∧ inputs.therm.fault.getLsbD 3 = false := by
  decide +kernel
theorem test_refresh_rate_meets :
    4 * 85 < dramMax (warm [(0x1BF, 341)] []) 11 ∧ dramMax (warm [(0x1BF, 328)] []) 11 ≤ 4 * 82
    ∧ (4 * 82 < dramMax (warm [(0x1BF, 340)] []) 11 ∧ dramMax (warm [(0x1BF, 340)] []) 11 ≤ 4 * 85) := by
  decide +kernel
theorem test_trip_meets :
    (siteLimits ready 0x303).isSome = true ∧ ready.therm.trip = false ∧ ready.dev.inReset = false ∧ inputOpen ready 0x303 = false ∧ (tripped 0).therm.trip = true := by
  decide +kernel
theorem test_clears_meet :
    (∀ v ∈ [View.fn 0, .fn 17, .mp], pfOrMp (tripped 388) v = true ∧ allReleased (tripped 388) = true ∧ pfOrMp (tripped 389) v = true ∧ allReleased (tripped 389) = false)
    ∧ actVal (.full 1) = some 1 ∧ (1 : Nat).testBit 0 = true ∧ actVal (.lo 0x801) = some 0x801
    ∧ (8 : BitVec 4).getLsbD 3 = true ∧ (siteLimits inputs (0x400 + 3)).isSome = true ∧ inputs.therm.fault.getLsbD 3 = false
    ∧ siteIndex 0 = some (ready.therm.calib / 2) ∧ procDown ready 1 = false
    ∧ ({ tripped 388 with dev := { ready.dev with rst := true } } : State).dev.rst = true := by
  decide +kernel
theorem test_control_step_meets :
    procDown ready 1 = false ∧ ready.therm.trip = false ∧ ready.dev.inReset = false ∧ procDown (without 1 ready) 1 = true ∧ (tripped 0).therm.trip = true := by
  decide +kernel
theorem test_floor_meets :
    let f := { ready with lvr := { ready.lvr with floor := true } }
    unitHot ready 13 = [] ∧ plim ready = 1100 ∧ plim ready * (100 + ready.lvr.margin) < 1211 * 100 ∧ 1210 * 100 ≤ plim ready * (100 + ready.lvr.margin)
    ∧ f.lvr.floor = true ∧ procDown f 1 = false ∧ 1209 * 100 < plim f * (100 + f.lvr.margin)
    ∧ procDown (without 1 f) 1 = true ∧ 989 * 10 < plim (without 1 f) * 9 := by
  decide +kernel
/-- A collective of plan 4,095 in flight; ranks 0 and 1 in that plan. -/
def inFlight (done : Bool) : Coll :=
  { cl := 0, uid := 7, ctx := 0, plan := 4095, cseq := 0, kind := 8, fmt := 0, rop := 0, root := 0, dst := 0, src := 0, count := 0, aux := 0, sum := 0, cluster := 0,
    tout := 0, limit := 0, step := 0, posted := false, buf := [], recv := [], got := 0, flits := 0, counts := [], rowsIn := [], landed := [], sent := 0, back := 0,
    epoch := 0, disp := 0, finished := done }
def noticing (l : Tbl (Nat × Nat × List Nat)) : State :=
  { lintel with fab := { lintel.fab with notices := l }, plan := [(4095, { aPlan with handle := 4095, ranks := [0, 1] })], coll := [(7, inFlight false)] }
theorem test_notices_meet :
    0 < ({ lintel with fab := { lintel.fab with ownNotice := (5, 1) } } : State).fab.ownNotice.1 ∧ ready.fab.ownNotice.1 = 0
    ∧ (let n : Notice := { origin := 1, seq := 5, ext := 3, plan := 4095 }
       (∀ l ∈ [[], [(1, 4, 2, [4095])]], let s := noticing l
        s.fab.member = true ∧ n.origin ≠ s.fab.rank ∧ (tget s.fab.notices n.origin = none ∨ tget s.fab.notices n.origin = some (4, 2, [4095]))
        ∧ (let t := relimit (s.onFab (fun f => { f with notices := tset f.notices n.origin (n.seq, n.ext, [n.plan]) }))
           (t.plan.find? (fun p => p.1 % 4096 = n.plan && p.2.ranks.contains n.origin && p.2.ranks.contains t.fab.rank)).isSome = true))
       ∧ (let s := noticing [(1, 5, 3, [7])]
          tget s.fab.notices n.origin = some (n.seq, 3, [7]) ∧ n.plan ∉ [7]
          ∧ (let t := s.onFab (fun f => { f with notices := tset f.notices n.origin (n.seq, n.ext, [7] ++ [n.plan]) })
             (t.plan.find? (fun p => p.1 % 4096 = n.plan && p.2.ranks.contains n.origin && p.2.ranks.contains t.fab.rank)).isSome = true))
       ∧ (∀ x ∈ [(6, 0, []), (5, 0, [4095])], tget (noticing [(1, x)]).fab.notices n.origin = some x ∧ (n.seq < x.1 ∨ n.seq = x.1 ∧ n.plan ∈ x.2.2)))
    ∧ (noticing []).getColl 7 = some (inFlight false) ∧ (inFlight false).finished = false ∧ ready.fab.member = false := by
  decide +kernel

/-- Port 15 is in state `x`. -/
def portIn (x : Port) (s : State) : State := { s with port := [(15, x)] }
theorem test_ports_meet :
    (ready.portAt 15).st = .down ∧ ready.therm.trip = false ∧ ready.dev.inReset = false
    ∧ (∀ st ∈ [PortSt.train, .retrain, .negotiate], ((portIn { Port.init with st := st } ready).portAt 15).st = st)
    ∧ ready.fab.member = false ∧ (lintel.fab.member = true ∧ expectRank lintel 0 = some 1 ∧ lintel.fab.group = 7) := by
  decide +kernel
theorem test_lanes_meet :
    -- The lane that fails: each direction's first and last; lane 1, lanes 1 and 2, 1 to 3, or all five worked before.
    (∀ lane ∈ [0, 4, 5, 9], ∀ l ∈ [2, 6, 14, 31], let x := { Port.init with st := .up, tx := BitVec.ofNat 5 l, rx := BitVec.ofNat 5 l }
     let s := portIn x ready
     let tx := if lane < 5 then setBit (s.portAt 15).tx lane false else (s.portAt 15).tx
     let rx := if lane < 5 then (s.portAt 15).rx else setBit (s.portAt 15).rx (lane - 5) false
     (s.portAt 15).st = .up ∧ (decide ((ones tx).length < 2 ∨ (ones rx).length < 2) = (l = 2)) ∧ (l = 31 → 4 ≤ (ones tx).length ∧ 4 ≤ (ones rx).length)
     ∧ (l = 14 → ¬ (4 ≤ (ones tx).length ∧ 4 ≤ (ones rx).length)))
    ∧ (∀ c ∈ [none, some (0, 9)], let x := { Port.init with st := .up, calib := [3], lcal := c }
       ((portIn x ready).portAt 15).calib = 3 :: [] ∧ ((portIn x ready).portAt 15).lcal = c ∧ procDown (portIn x ready) (2 + 15 / 8) = false)
    ∧ procDown ready (2 + 1) = false := by
  decide +kernel

/-- A flit of link number `n` for rank 0. -/
def aFlit (n : Nat) : Flit :=
  { dst := 0, src := 1, type := 0, vc := 0, epoch := 0, plan := 4095, cseq := 9, step := 0, offset := 0, lseq := n, row := 0, entry := 0, slot := 0, ret := false, counts := [],
    turned := false, payload := [] }
/-- Port 15 of a member holds `l`, has had `n` failed replays and awaits flit 4,095. -/
def linked (l : List Nat) (n : Nat) : State :=
  portIn { Port.init with st := .up, rxSeq := 4095, replay := l.map (fun k => (none, aFlit k)), fails := n } (noticing [])
/-- The early buffer of engine 1 is full. -/
def crammed (s : State) : State := { s with fab := { s.fab with early := List.replicate 4096 (1, aFlit 0) } }
theorem test_flits_meet :
    (∀ a ∈ [none, some 2, some 9], let s := linked [1, 2, 3] 0
     let t := match a with | some k => portAck 15 k s | none => s
     (s.portAt 15).st = .up ∧ s.dev.inReset = false ∧ (t.portAt 15).rxSeq = 4095 ∧ arrivalRoom 15 (aFlit 4095) t = true
     ∧ arrivalRoom 15 (aFlit 4095) (crammed t) = false ∧ ((crammed t).portAt 15).rxSeq = 4095)
    ∧ (∀ n ∈ [4094, 4095 - 256], n ≠ 4095 ∧ (4095 + 4096 - n) % 4096 ≤ 256) ∧ (∀ n ∈ [0, 4095 - 257], n ≠ 4095 ∧ 256 < (4095 + 4096 - n) % 4096)
    ∧ (∀ x ∈ [([1], 16), ([1], 15), ([0, 1], 16)], let s := linked x.1 x.2
       let held := (s.portAt 15).replay.dropWhile (fun f => f.2.lseq ≠ 1)
       held ≠ [] ∧ (s.portAt 15).replay ≠ [] ∧ (s.portAt 15).fails = x.2
       ∧ (if held.length < (s.portAt 15).replay.length then 0 else (s.portAt 15).fails) = (if x.1 = [1] then x.2 else 0))
    ∧ (∀ b ∈ [true, false], ({ lintel with coll := [(7, inFlight b)] } : State).getColl 7 = some (inFlight b) ∧ (inFlight b).finished = b) ∧ ready.getColl 7 = none := by
  decide +kernel

/-- The device, rank `r`, forms the group. -/
def joining (r : Nat) : State := { lintel with fab := { lintel.fab with member := false, isLintel := false, rank := r, wait := .joining } }
def announce (r : Nat) : AnnounceMsg := { rank := r, level := 2, mver := 4, group := 7, sizes := [2, 1, 1, 1], live := [0, 1], reports := [], staged := [] }
/-- Rank 1 of the group, and the same after it has declared the lintel lost. -/
def member (w : FabWait) (m : Nat) : State := { lintel with fab := { lintel.fab with isLintel := false, rank := 1, wait := w, lmode := m } }
def bereft : State := { member .none 0 with fab := { (member .none 0).fab with lintelLost := true, candidate := 0 } }
/-- What the lintel publishes or commits: plan 5 of ranks 0 and 1, in team `t`. -/
def plansOf (lv t : Nat) : CommitMsg :=
  { level := lv, mver := 4, lintel := 0, gen := 2, team := t, plans := [{ aPlan with handle := 5, gen := 2, team := t, ranks := [0, 1] }], levels := [(0, 2), (1, 2)] }
theorem test_formation_meets :
    (mullBusy (joining 0) = false ∧ (joining 0).fab.wait = .joining ∧ (joining 0).fab.rank = (joining 0).fab.lintel)
    ∧ ((announce 1).group = (joining 0).fab.group ∧ (announce 1).sizes = (joining 0).fab.sizes ∧ (announce 1).rank < (joining 0).fab.members
       ∧ (joining 0).fab.members ≤ (announce 2).rank)
    ∧ (mullBusy lintel = false ∧ lintel.fab.wait = .none ∧ lintel.fab.member = true ∧ lintel.fab.isLintel = true)
    ∧ (let s := { lintel with fab := { lintel.fab with isLintel := false, rank := 1 } }
       mullBusy s = false ∧ s.fab.wait = .none ∧ s.fab.member = true ∧ s.fab.isLintel = false ∧ s.fab.lintelLost = false)
    ∧ (∀ r ∈ [0, 1], ∀ l ∈ [0, 1], let s := { joining r with fab := { (joining r).fab with lmode := l, portmap := [] } }
       s.fab.wait = .joining ∧ s.fab.announced = false ∧ mullBusy s = false
       ∧ (if s.fab.rank = s.fab.lintel then s else sendMsg s.fab.lintel (annFields 1 (ownAnnounce s)) s).fab.lmode = l)
    ∧ (joining 1).fab.rank ≠ (joining 1).fab.lintel ∧ takesMver (joining 1) (plansOf 2 0).mver = true
    ∧ ∀ w ∈ [FabWait.raising, .teaming], mullBusy (member w 0) = false ∧ (member w 0).fab.wait = w := by
  decide +kernel

theorem test_succession_meets :
    (∃ p, ({ lintel with plan := [(1, aPlan)] } : State).getPlan (handleNow { lintel with plan := [(1, aPlan)] } 0 3) = some p)
    ∧ (lintel.fab.member = true ∧ lintel.fab.isLintel = true ∧ mullBusy lintel = false)
    ∧ (∀ w ∈ [FabWait.none, .raising, .teaming], ∀ m ∈ [0, 1], let s := member w m
     s.fab.member = true ∧ s.fab.isLintel = false ∧ s.fab.lintelLost = false ∧ mullBusy s = false ∧ s.fab.lmode = m ∧ s.fab.wait = w)
    ∧ (bereft.fab.member = true ∧ bereft.fab.lintelLost = true ∧ bereft.fab.lmode = 0 ∧ mullBusy bereft = false ∧ bereft.fab.candidate ≠ bereft.fab.rank
      ∧ bereft.fab.announced = false) := by
  refine ⟨⟨aPlan, ?_⟩, ?_⟩ <;> decide +kernel
theorem test_losses_meet :
    (lintel.fab.member = true ∧ lintel.fab.isLintel = true ∧ mullBusy lintel = false ∧ liveRank lintel 1 = true ∧ liveRank lintel 0 = true)
    ∧ (member .leaving 0).fab.wait = .leaving ∧ mullBusy (member .leaving 0) = false ∧ mayRaise lintel 2 = true ∧ mayRaise lintel 3 = false
    ∧ (∀ w ∈ [FabWait.none, .raising, .teaming], ∀ l ∈ [[0, 1], [1]],
        let s := { member w 0 with fab := { (member w 0).fab with raiseTo := 1, teamReq := l, teamMask := 1 } }
        let m := plansOf 1 3
        let t := installPlans m.gen m.level m.plans s
        s.fab.member = true ∧ mullBusy s = false ∧ takesMver s m.mver = true ∧ t.fab.wait = w ∧ m.level = t.fab.raiseTo ∧ isOwnTeam m t = decide (l = [0, 1]))
    ∧ ({ lintel with fab := { lintel.fab with repeats := [(1, [2, 1])] } } : State).fab.repeats[0]? = some (1, [2, 1]) := by
  decide +kernel

/-- Casement 0 of a member or the lintel is steered by the group and moves experts. -/
def aPlace (st : Bool) (c : Option Nat) : Place :=
  { ctx := 0, recAddr := 2 ^ 20, tabA := 2 ^ 20 + 4096, tabB := 2 ^ 20 + 8192, staged := st, epoch := 1, loads := [], committed := c, old := [], freed := [], switchAt := 0,
    lastDone := (3, 1) }
def placing (s : State) (p : Place) : State :=
  { s with cas := [(0, { Cas.init0 with owner := 1, place := some p, svc := { Svc.init with mode := 2, ctx := some 0 } })] }
theorem test_moves_meet :
    (let s := placing (member .none 0) (aPlace true none)
     moveReady s 0 = true ∧ steered s 0 = true ∧ s.fab.isLintel = false ∧ (s.casAt 0).place = some (aPlace true none) ∧ (aPlace true none).staged = true
     ∧ (aPlace true none).committed = none ∧ fabricSteered s = true ∧ mullBusy s = false)
    ∧ ∀ g ∈ [[], [(1, 0)]], let s := placing { lintel with fab := { lintel.fab with staged := [(0, [(0, 3)])], giving := g, budget := some 2000 } } (aPlace true none)
      moveReady s 0 = true ∧ steered s 0 = true ∧ s.fab.isLintel = true ∧ tget s.fab.staged 0 = some [(0, 3)] ∧ s.fab.giving.contains (1, 0) = !g.isEmpty
      ∧ (s.casAt 0).place = some (aPlace true none) ∧ s.fab.budget = some 2000 ∧ fabricSteered s = true ∧ mullBusy s = false := by
  decide +kernel


/-! Service, firmware, resets and registers. -/

theorem test_boundaries_meet :
    (let s := serving .resident
     (s.casAt 0).svc.ctx = some 0 ∧ (s.casAt 0).svc.mode ≠ 0 ∧ (s.casAt 0).svc.run = none ∧ procDown s (4 + homeLeaf s 0) = false)
    ∧ (∀ r ∈ [{ aReq with cancel := some (64, 9) }, { aReq with deadline := some 4 }], let s := { serving .resident with req := [(3, r)] }
       s.getReq 3 = some r ∧ r.st ≠ .ended ∧ r.st ≠ .ending ∧ (r.cancel.isSome = true ∨ (r.cancel = none ∧ r.deadline = some 4 ∧ 4 < (5 : Word).toNat)))
    ∧ (v32 aReq.temp).isZero = true ∧ aReq.stream = false
    ∧ (8 ∉ aReq.stops ∧ aReq.toks.length + 1 < aReq.maxTok ∧ aReq.maxTok ≤ ({ aReq with toks := [4] }).toks.length + 1 ∧ 9 ∈ aReq.stops ∧ 9 ≠ 0xFFFFFFFF) := by
  decide +kernel

/-- A job on page 0, at phase `n`; its far record. The page that comes back is a short one. -/
def aJob (park : Bool) (n : Nat) : Job :=
  { park := park, leaf := 0, pages := [0], phase := n, keys := [(0, 77)], ttl := 0, q := 64, uid := 9, req := none, moved := 0, unit := 0 }
def aRec : FRec :=
  { mark := .complete, crcOk := true, key := 77, ttl := 0, expiry := 100, farloc := 1024, sref := 0, len := 1, kfmt := 0x10, vfmt := 0x10, sfmt := 0, g := 1, size := 4,
    ctx := 0, seq := 0, layer := 0, slot := 0, leaf := 0 }
def working (park : Bool) (n : Nat) (r : Bool) (st : PState) (e : Nat) : State :=
  { (if r then (serving st).putFdir 0 aRec else serving st) with job := [(1, aJob park n)], page := [(0, { aPage st with expiry := e, len := if park then 4096 else 128 })] }
/-- The page's bytes in the stack are uncorrectable; its copy's port is down, or the copy is poison. -/
def unread (s : State) : State := { s with health := [(2 ^ 14, .poison)] }
def portsDown (s : State) : State := { s with far := { s.far with up := 0 } }
def poolless (s : State) : State := { s with alloc := [] }
def unfetched (s : State) : State := { s with farBad := [farKey s (aRec.farloc * 4096) / 64] }
def clear (t : State) : Bool := t.acc.units.isEmpty && t.acc.banks.isEmpty
theorem clear_meets {t : State} (h : clear t = true) : Clear t := by simpa [clear, Clear] using h
/-- The page can be read without a wait; its copy is written or not; in each case nothing more waits. -/
def copies (ok : Bool) (g : State → State) (s : State) : Bool :=
  match stRead 7 (stAddr 0 0 (2 ^ 20)) 4096 (tried 9 s) with
  | (t, some bs) =>
    let w := farWrite (aRec.farloc * 4096) bs t
    clear t && w.2 == ok && clear (g w.1)
  | (_, none) => false
theorem copies_meet {ok : Bool} {g : State → State} {s : State} (h : copies ok g s = true) :
    ∃ bs t t', stRead 7 (stAddr 0 0 (2 ^ 20)) 4096 (tried 9 s) = (t, some bs) ∧ Clear t ∧ farWrite (aRec.farloc * 4096) bs t = (t', ok) ∧ Clear (g t') := by
  unfold copies at h
  split at h
  · next t bs hb =>
    simp only [Bool.and_eq_true, beq_iff_eq] at h
    exact ⟨bs, t, _, hb, clear_meets h.1.1, pair_eq h.1.2, clear_meets h.2⟩
  · cases h
theorem test_park_meets :
    (∀ n ∈ [0, 1, 2, 3], let s := working true n (n ≠ 0) .resident 0
     s.getJob 1 = some (aJob true n) ∧ jobRuns s 1 (aJob true n) = true ∧ ajar s = false ∧ (aJob true n).pages = 0 :: [] ∧ s.getPage 0 = some (aPage .resident)
     ∧ (aPage .resident).freeing = none ∧ recUp s 0 = true ∧ s.getFdir 0 = (if n = 0 then none else some aRec))
    ∧ freeUnits (working true 0 false .resident 0) ((aPage .resident).len / 4096) = some 1024
    ∧ (let s := working true 1 true .resident 0
       (portsDown s).getFdir 0 = some aRec ∧ (unread s).getFdir 0 = some aRec ∧ (stRead 7 (stAddr 0 0 (2 ^ 20)) 4096 (tried 9 (unread s))).2 = none
       ∧ copies true (fun t => t) s = true ∧ copies false (fun t => jobNext 1 false (markTrace 0 0 0 (t.delFdir 0))) (portsDown s) = true) := by
  decide +kernel
/-- What each phase does meets nothing to wait for; the copy waits at a gated stack. -/
theorem test_park_passes :
    (let s := working true 0 false .resident 0
     Passes 9 (fun t => (markTrace 0 0 1 (t.putFdir 0 (parkRec 0 1024 77 0 (aPage .resident)))).updJob 1 (fun y => { y with phase := 1 })) s)
    ∧ (let s := unread (working true 1 true .resident 0)
       Passes 9 (fun t => jobNext 1 false (markTrace 0 0 0 ((stRead 7 (stAddr 0 0 (2 ^ 20)) 4096 t).1.delFdir 0))) s)
    ∧ (let s := working true 2 true .resident 0
       Passes 9 (fun t => (markTrace 0 0 2 (t.putFdir 0 { aRec with mark := .complete, expiry := expiryOf (s.ctr 0) 0 })).updJob 1 (fun y => { y with phase := 3 })) s)
    ∧ (let p := aPage .resident
       Passes 9 (fun t => jobNext 1 true (writePte p.seq p.layer p.slot
        ((giveUp false (BitVec.twoPow 12 p.stack) (BitVec.twoPow 64 p.bset) p.off p.len [] t).updPage 0 (fun y => { y with
          st := .parked, farloc := aRec.farloc, expiry := aRec.expiry })))) (working true 3 true .resident 0))
    ∧ ¬ Passes 9 (parkStep 1 (aJob true 1)) (gatedAt 0 (working true 1 true .resident 0)) := by
  unfold Passes; decide +kernel
/-- A place is found; the copy is read, and the page is written, without a wait. -/
def placed (s : State) : Bool :=
  match choosePlace s 0 aSeq 0, farRead 7 (aRec.farloc * 4096) 128 (tried 9 s) with
  | some pl, (t, some bs) => clear (drainOwned 9 (stWrite 9 (stAddr pl.t pl.b pl.off) bs t))
  | _, _ => false
theorem placed_meets {s : State} (h : placed s = true) : ∃ pl bs t, choosePlace s 0 aSeq 0 = some pl ∧ farRead 7 (aRec.farloc * 4096) 128 (tried 9 s) = (t, some bs)
    ∧ Clear (drainOwned 9 (stWrite 9 (stAddr pl.t pl.b pl.off) bs t)) := by
  unfold placed at h
  split at h
  · next pl t bs h1 h2 => exact ⟨pl, bs, t, h1, h2, clear_meets h⟩
  · cases h
theorem test_restore_meets :
    (∀ n ∈ [0, 1, 2, 3], ∀ e ∈ [0, 1, 2 ^ 40 - 1], let s := working false n true .parked e
     s.getJob 1 = some (aJob false n) ∧ jobRuns s 1 (aJob false n) = true ∧ s.getPage 0 = some { aPage .parked with expiry := e, len := 128 } ∧ s.getFdir 0 = some aRec ∧ recUp s 0 = true
     ∧ expiryDue (s.ctr 0) e = decide (e = 0) ∧ s.getSeq 0 = some aSeq)
    ∧ (let s := working false 1 true .parked 100
       placed s = true ∧ (choosePlace (unfetched s) 0 aSeq 0).isSome = true ∧ (unfetched s).getFdir 0 = some aRec
       ∧ (farRead 7 (aRec.farloc * 4096) 128 (tried 9 (unfetched s))).2 = none
       ∧ clear (jobNext 1 false (markTrace 0 0 2 ((farRead 7 (aRec.farloc * 4096) 128 (tried 9 (unfetched s))).1.putFdir 0 { aRec with mark := .complete }))) = true
       ∧ choosePlace (poolless s) 0 aSeq 0 = none) := by
  decide +kernel
theorem test_restore_passes :
    Passes 9 (fun t => (markTrace 0 0 3 (t.putFdir 0 { aRec with mark := .restoring })).updJob 1 (fun y => { y with phase := 1 })) (working false 0 true .parked 100)
    ∧ Passes 9 (fun t => jobNext 1 false (markTrace 0 0 2 (t.putFdir 0 { aRec with mark := .complete }))) (poolless (working false 1 true .parked 100))
    ∧ Passes 9 (jobEnd 1 true) (working false 0 true .parked 0)
    ∧ Passes 9 (fun t => (writePte 0 0 0 (t.updPage 0 (fun y => { y with st := .resident, stack := saStack 0, bset := saBank 0, off := saOff 0, expiry := 0, farloc := 0 }))).updJob 1
          (fun y => { y with phase := 3 })) (working false 2 true .parked 100)
    ∧ Passes 9 (fun t => jobNext 1 true (markTrace 0 0 0 (t.delFdir 0))) (working false 3 true .parked 100)
    ∧ ¬ Passes 9 (restoreStep 1 (aJob false 1)) (gatedAt 0 (working false 1 true .parked 100)) := by
  unfold Passes; decide +kernel

/-- What bring-up finds behind a far port. -/
def expander (sp : Nat) : Expander := { trained := true, active := true, cap := 1, speed := sp, width := 8 }
def unlaid (n : Bool) : State := { ready with dev := { ready.dev with farDone := 0 }, pin := { ready.pin with prsntN := [(1, n)] } }
def found (n : Bool) (x : Expander) : Bool :=
  x.trained && x.active && decide (0 < x.cap) && decide (x.speed = 32 ∨ x.speed = 16) && decide (x.width = 16 ∨ x.width = 8) && !tgetD (unlaid n).pin.prsntN 1 true
theorem test_far_tier_meets :
    (∀ n ∈ [true, false], procDown (unlaid n) 4 = false ∧ (unlaid n).dev.inReset = false ∧ (unlaid n).dev.farDone.getLsbD 1 = false ∧ (unlaid n).dev.farDone ≠ 3)
    ∧ found false (expander 16) = true ∧ found false (expander 32) = true ∧ found true (expander 16) = false ∧ found false (expander 8) = false
    ∧ (let s := { farMem with farMem := [(farKey farMem (2 ^ 30 - 1), 1), (farKey farMem (2 ^ 30), 1)] }
       s.dev.farDone = 3 ∧ (∀ a ∈ [2 ^ 30 - 1, 2 ^ 30], (tget s.far.cap (farKey farMem a / 2 ^ 44)).isSome = true ∧ farBack s (farKey farMem a) = a) ∧ parkPoolLen s = 2 ^ 30)
    ∧ (let s := working true 1 true .resident 0
       0 < s.far.cap.length ∧ recOf (mread s.farMem (farKey s (64 * 0)) 64) = some aRec
       ∧ recOf (mread (portsDown s).farMem (farKey (portsDown s) (64 * 0)) 64) = some aRec ∧ (portsDown s).far.up.getLsbD (farPort (portsDown s) (0 * 64)) = false)
    ∧ (let s := { ready with dev := { ready.dev with dirWalked := false } }
       procDown s 4 = false ∧ s.dev.inReset = false ∧ s.dev.dirWalked = false ∧ s.dev.farDone = 3)
    ∧ farMem.far.up.getLsbD 1 = true
    ∧ (let s := { farMem with far := { farMem.far with up := 1 } }
       s.dev.farDone.getLsbD 1 = true ∧ s.far.up.getLsbD 1 = false ∧ 0 < farCap s 1)
    ∧ procDown ready (4 + 1) = false := by
  decide +kernel
theorem test_selftest_ends : (ready.casAt 15).selftest = none ∧ ∀ t ∈ [0, 31],
    let e := anEntry 0x0702 (head 0x0702 0 0 0 0 0) .running false
    let s := { holding { aQueue false with es := [e] } with cas := [(0, { Cas.init0 with owner := 1, bsmask := 1, selftest := some (64, 9, t, 0) })] }
    let u := s.modCas 0 (fun v => { v with selftest := none })
    let v := if t.testBit 2 then zeroBanks (casBs u 0) u else u
    (s.casAt 0).selftest = some (64, 9, t, 0) ∧ findEntry (if t.testBit 4 then havocWindow 0 v else v) 64 9 = some e := by
  decide +kernel
theorem test_service_states_meet :
    (let d := { ready.dev with service := .ajar }
     d.service ≠ .full ∧ (d.stackIn ||| d.stackFail) = BitVec.allOnes 12 ∧ d.mullUp = 3 ∧ d.farDone = 3 ∧ d.dirWalked = true ∧ d.bootLock = true)
    ∧ (let d := { ready.dev with service := .boot, stackIn := 0x41 }
       d.service = .boot ∧ (d.stackIn ||| d.stackFail) ≠ BitVec.allOnes 12 ∧ d.bootLock = true ∧ d.stackIn.getLsbD 0 = true ∧ d.stackIn.getLsbD 6 = true)
    ∧ ready.dev.service = .full ∧ State.reset.dev.service = .boot ∧ State.reset.dev.bootLock = false := by
  decide +kernel

/-- A message of type `ty` with body `b` on mailbox `p` of function 0. -/
def mailed (p ty : Nat) (b : List Byte) (s : State) : State :=
  { s with mbx := [(p, { outstanding := true, done := false, err := false, seq := 1 })],
           mbxBuf := mwrite [] (p * 8192) (pay 32 [(0, 1, 4), (1, 1, ty), (2, 1, p), (4, 2, b.length), (6, 2, 1)] ++ b) }
/-- The messages that need no more than their form: processor, type and length. -/
theorem test_messages_wait : ∀ x ∈ [(0, 0x01, 0), (5, 0x01, 0), (3, 0x02, 8), (0, 0x10, 40), (0, 0x15, 0), (1, 0x20, 0), (4, 0x42, 0)],
    let s := mailed x.1 x.2.1 (zeros x.2.2) ready
    Waits x.2.1 x.2.2 0 x.1 (message s 0 x.1) s ∧ isPF 0 = true := by
  unfold Waits; decide +kernel
/-- The messages that set something, at and outside the ends of their ranges. -/
theorem test_settings_wait :
    (∀ x ∈ [(0, 0x11, pay 12 [(8, 4, 0x20000)]), (0, 0x12, pay 20 [(16, 4, 0x1800000)]), (0, 0x13, zeros 8), (0, 0x14, zeros 1), (0, 0x17, [63]), (0, 0x16, pay 12 [(8, 4, 1)]),
        (1, 0x21, pay 16 [(12, 1, 1), (13, 1, 124), (14, 1, 125)]), (1, 0x22, pay 12 [(0, 4, 10), (4, 4, 1000000), (8, 4, 5)]), (1, 0x22, pay 12 [(0, 4, 9), (4, 4, 100), (8, 4, 5)]),
        (1, 0x23, pay 4 [(0, 4, 1200)]), (1, 0x24, [15, 25]), (1, 0x24, [4, 5]), (1, 0x24, [16, 25]), (2, 0x30, pay 2 [(0, 2, 720)]), (3, 0x30, [1, 0]), (3, 0x30, [0, 0]),
        (2, 0x30, pay 2 [(0, 2, 721)]), (4, 0x41, [5]), (4, 0x41, [100]), (4, 0x41, [4]), (4, 0x41, [101])],
      let s := mailed x.1 x.2.1 x.2.2 lintel
      Waits x.2.1 x.2.2.length 0 x.1 (message s 0 x.1) s ∧ isPF 0 = true)
    ∧ fwBusy ready = false ∧ ready.pin.flashWpN = true
    ∧ (let s := { ready with fw := { ready.fw with slots := [(0, .good), (1, .staged)], trial := true } }
       [0, 1].find? (fun k => slotSt s k = .staged) = some 1 ∧ s.fw.trial = true)
    ∧ (let a : BootCopy := { gen := 5, crcOk := true, active := 0, trial := false, count := 0, slots := [] }
       ({ ready.fw with copies := [a, { a with gen := 4 }] } : Fw).copies = [a, { a with gen := 4 }] ∧ a.crcOk = true ∧ (4 : BitVec 32).toNat < a.gen.toNat)
    ∧ cfgFault ready (padTo 1048 [0]) = none
    ∧ (lintel.fab.member = true ∧ 2 ≤ lintel.fab.level ∧ lintel.fab.isLintel = true ∧ 600 * lintel.fab.members ≤ 1200) := by
  unfold Waits; decide +kernel
/-- SVC_CONFIG of MODE `m` on mailbox `p`. -/
def svcMail (p m : Nat) : State :=
  mailed p 0x40 (pay 64 [(1, 1, m), (4, 8, 1), (13, 1, 1), (14, 2, 16), (16, 2, 1), (18, 2, 1), (20, 2, 0xFFFF), (32, 4, 2 ^ 20)]) { ready with prog := [(1, oneEnd)] }
theorem test_service_config_meets :
    (∀ m ∈ [0, 1], let s := svcMail 4 m
     Waits 0x40 64 0 4 (message s 0 4) s ∧ (s.casAt 0).owner = fnPort 0 + 1 ∧ le (message s 0 4).body 1 1 = m ∧ tget s.fab.teams (le (message s 0 4).body 20 2) = none
     ∧ s.getCtx (le (message s 0 4).body 2 2) = some aCtx ∧ liveOf s 0 = 0 ∧ ajar s = false ∧ svcBad s (message s 0 4).body = false ∧ (s.casAt 0).svc.mode ≠ 2
     ∧ procDown s (4 + homeLeaf s 0) = false
     ∧ dirty (message s 0 4).body 23 1 = false ∧ dirty (message s 0 4).body 40 24 = false ∧ le (message s 0 4).body 22 1 < 2)
    ∧ let s := without 4 (svcMail 5 0)
      Waits 0x40 64 0 5 (message s 0 5) s ∧ procDown s (4 + homeLeaf s 0) = true ∧ le (message s 0 5).body 1 1 = 0 := by
  unfold Waits; decide +kernel
theorem test_replies_meet :
    (((mailed 5 1 [] ready).mbxAt (0 * 6 + 5)).outstanding = true ∧ (ready.mbxAt (33 * 6 + 5)).outstanding = false ∧ procDown ready 5 = false)
    ∧ (let s := { mailed 0 1 [] ready with mbxBuf := mwrite [] 0 (pay 32 [(0, 1, 5), (1, 1, 0x77)]) }
       msgWaits s 0 0 = true ∧ verOk s 0 (message s 0 0).ver = false)
    ∧ (let s := mailed 0 0x77 [] ready
       msgWaits s 0 0 = true ∧ verOk s 0 (message s 0 0).ver = true ∧ msgKnown 0 (message s 0 0).ty = false ∧ s.dev.recovery = false)
    ∧ (Waits 0x01 1 0 0 (message (mailed 0 1 [0] ready) 0 0) (mailed 0 1 [0] ready))
    ∧ let s := { ready with mbx := [(9, { outstanding := true, done := false, err := false, seq := 1 })],
                            mbxBuf := mwrite [] (9 * 8192) (pay 40 [(0, 1, 4), (1, 1, 2), (2, 1, 3), (4, 2, 8)]) }
      Waits 0x02 8 1 3 (message s 1 3) s ∧ isPF 1 = false := by
  unfold Waits; decide +kernel

def aWork (k : Nat) : FwWork := { kind := k, fn := 33, addr := 4096, len := 64, status := 8192, nonce := [] }
theorem test_work_meets :
    (∀ k ∈ [0x10, 0x12, 0x13], let s := { ready with fw := { ready.fw with work := [aWork k] } }
     s.fw.work.find? (workReady s) = some (aWork k)) ∧ procDown ready 0 = false ∧ ready.dev.inReset = false ∧ (aWork 0x12).fn < 34 ∧ ready.pin.flashWpN = true
    ∧ ({ ready with pin := { ready.pin with flashWpN := false } } : State).pin.flashWpN = false := by
  decide +kernel

theorem test_crashes_meet :
    (∀ p ∈ [0, 5], ready.fw.work.find? (fun w => w.kind = 0x12) = none ∧ procDown ready p = false ∧ ready.dev.inReset = false ∧ ready.fw.window = false
      ∧ ((busyAll p (crashed p 1 0 0 ready)).procAt p).crashes.length < 4
      ∧ (let s := { ready with proc := [(p, { Proc.init with crashes := [0, 0, 0] })] }
         procDown s p = false ∧ 4 ≤ ((busyAll p (crashed p 1 0 0 s)).procAt p).crashes.length)
      ∧ (let s := { ready with fw := { ready.fw with window := true }, proc := [(p, { Proc.init with newCrash := 1 })] }
         procDown s p = false ∧ (busyAll p (crashed p 1 0 0 s)).fw.window = true ∧ 2 ≤ ((busyAll p (crashed p 1 0 0 s)).procAt p).newCrash)
      ∧ procDown (without p ready) p = true)
    ∧ (∀ p ∈ [0, 3, 4, 5], ((without p ready).procAt p).restarting = true ∧ ((without p ready).procAt p).held = false ∧ ((without p ready).procAt p).planned = false)
    ∧ (let s := { ready with proc := [(5, { Proc.init with planned := true, restarting := true })], fw := { ready.fw with queue := [5, 0] } }
       (s.procAt 5).restarting = true ∧ (s.procAt 5).held = false ∧ (s.procAt 5).planned = true ∧ s.fw.queue.head? = some 5)
    ∧ (let s := { ready with proc := [(5, { Proc.init with planned := true })] }
       (s.procAt 5).planned = true ∧ procDown s 5 = false ∧ quiet s 5 = true)
    ∧ let s := { joining 0 with proc := [(2, { Proc.init with planned := true })] }
      (s.procAt 2).planned = true ∧ procDown s 2 = false ∧ quiet s 2 = false := by
  decide +kernel
/-- A slot whose image is sound, and one whose image is not. -/
def slotOf (v : Bool) : SlotImg := { valid := v, ver := 4, svn := 0, hover := 0, homin := 0, imgver := 0, meas := [], wins := [], ucode := [] }
/-- Before the ROM runs: two slots, and a descriptor in trial or not. -/
def booting (a b : Bool) (trial : Bool) (act : Nat) : State :=
  let c : BootCopy := { gen := 3, crcOk := true, active := act, trial := trial, count := 1, slots := [(0, .good), (1, .good)] }
  { State.reset with fw := { State.reset.fw with img := [(0, slotOf a), (1, slotOf b)], copies := [c, { c with gen := 2, crcOk := false }] } }
theorem test_boot_meets :
    (State.reset.dev.inReset = false ∧ State.reset.dev.bootLock = false ∧ State.reset.dev.recovery = false)
    ∧ (∃ a b, (booting true true false 0).fw.copies = [a, b] ∧ a.crcOk = true)
    ∧ (∀ x ∈ [(true, false, true, false), (false, true, false, true), (false, false, false, false)], let u := readDescriptor (booting x.1 x.2.1 false 0)
       u.fw.trial = false ∧ u.fw.active = 0 ∧ slotOk u 0 = x.2.2.1 ∧ bootable u (1 - 0 % 2) = x.2.2.2)
    ∧ (let u := readDescriptor (booting true true true 1)
       u.fw.trial = true ∧ 1 ≤ u.fw.count ∧ u.fw.active = 1 ∧ slotOk u 0 = true)
    ∧ let s := { State.reset with dev := { State.reset.dev with bootLock := true } }
      procDown s (4 + leafOfStack 11) = false ∧ s.dev.stackIn.getLsbD 11 = false ∧ s.dev.stackFail.getLsbD 11 = false := by
  refine ⟨by decide +kernel, ⟨_, _, rfl, rfl⟩, by decide +kernel⟩

theorem test_resets_meet :
    (∀ v ∈ [View.fn 0, .mp], actVal (.full 1) = some 1 ∧ pfOrMp (tripped 0) v = true ∧ absorbed (tripped 0) = false ∧ (tripped 0).therm.trip = true
      ∧ pfOrMp ready v = true ∧ absorbed ready = false ∧ ready.therm.trip = false ∧ ready.dev.compatPend = false)
    ∧ (let s := { tripped 388 with dev := { ready.dev with rst := true } }
       allReleased s = true ∧ s.dev.rst = true ∧ pfOrMp s .mp = true)
    ∧ (let s := { tripped 389 with dev := { ready.dev with rst := true } }
       allReleased s = false ∧ s.dev.rst = true ∧ pfOrMp s .mp = true)
    ∧ (ready.dev.inReset = false ∧ (∀ k, k < 16 → (ready.casAt k).selftest = none)
      ∧ ({ ready with dev := { ready.dev with inReset := true } } : State).dev.inReset = true)
    ∧ (resetting ready 33 = false ∧ resetting { ready with dev := { ready.dev with resets := [(0, .function 17)] } } 33 = true
      ∧ absorbed { ready with dev := { ready.dev with rst := true, service := .boot } } = true)
    ∧ tget ({ ready with dev := { ready.dev with resets := [(0, .casement 15), (1, .function 33)] } } : State).dev.resets 0 = some (.casement 15)
    ∧ tget ({ ready with dev := { ready.dev with resets := [(0, .casement 15), (1, .function 33)] } } : State).dev.resets 1 = some (.function 33)
    ∧ ready.dev.caseRst = 0 := by
  decide +kernel
theorem test_registers_open :
    (let v : Word := 0x8000000000000000
     barOpen ready = true ∧ v.toNat.testBit 63 = true ∧ (ready.fnAt 33).enabled = false ∧ ready.dev.recovery = false)
    ∧ (∀ x ∈ [(6, 16), (16, 6)], 6 ≤ x.1 * 2 ^ 8 / 2 ^ 8 % 32 ∧ x.1 ≤ 16 ∧ 6 ≤ x.2 ∧ x.2 ≤ 16) ∧ (5 < 6 ∧ 16 < 17)
    ∧ (let s := { queued ready with fn := [(0, { Func.init with enable := true, enabled := true })] }
       (0 : Word).toNat.testBit 63 = false ∧ (s.fnAt 0).enabled = true ∧ (s.fnAt 0).enable = true)
    ∧ (let s := { queued ready with fn := [(0, { Func.init with enabled := true })] }
       s.getQueue 0 = some (aQueue true) ∧ (s.fnAt 0).enabled = true ∧ (s.fnAt 0).enable = false ∧ (aQueue true).es = [])
    ∧ (63 < (if isPF 0 then 64 else 4) ∧ 3 < (if isPF 1 then 64 else 4)) ∧ (2 : Word).toNat % 4 ≤ compatCeil ready
    ∧ compatCeil { ready with dev := { ready.dev with compatPins := 1 } } < (2 : Word).toNat % 4 ∧ lintel.fab.member = true ∧ ready.fab.member = false
    ∧ pfOrMp ready .mp = true ∧ 4 % 8 ≠ 0 ∧ viewOpen ready .mp = true ∧ viewOpen ready (.fn 0) = true ∧ viewOpen State.reset (.fn 0) = false
    ∧ (0xFFFF0001 : Word).toNat % 2 ^ 16 ≠ 0 ∧ (0xFFFF0001 : Word).toNat / 2 ^ 16 % 2 ^ 16 ≠ 0 := by
  decide +kernel
/-- The LATCH_ window: a latch whose owner the function reaches or not, and none; all free. -/
theorem test_latch_window_meets :
    (let l : Latch := { value := 7, poison := true, owner := 0 }
     let s := { ready with latch := [(16383, l)] }
     barOpen s = true ∧ s.getLatch 16383 = some l ∧ reaches s 0 l.owner = true ∧ reaches s 33 l.owner = false ∧ s.getLatch 0 = none)
    ∧ barOpen ready = true ∧ ready.latch = [] ∧ ready.latchHold = [] := by
  decide +kernel
theorem test_management_meets :
    ready.mgmt.code ≠ 1
    ∧ (∀ w ∈ [true, false], let s := { ready with mgmt := { code := 1, off := 0x1000, value := 1, write := w } }
       s.mgmt.code = 1 ∧ s.mgmt.write = w ∧ mgmtRead s s.mgmt.off = some 0) := by
  decide +kernel


/-! What a few commands do, on numbers taken from the rules. -/

/-- Fuses of a GX880-S: its quadrants lose clusters 0 and 1. -/
def sFuse : Fuse := { State.reset.fuse with part := .s (Vector.replicate 8 (0, 0)) }
theorem test_steps_meet :
    State.reset.pending = [] ∧ State.reset.dev.inReset = false ∧ ({ ready with pending := [.idcode, .bypass] } : State).pending = .idcode :: [.bypass]
    ∧ MemOk { ready with stackMem := [(3, 1), (4, 255)] }
    ∧ (computes (ticked ready) = true ∧ computes (ticked { ready with dev := { ready.dev with clockStop := true } }) = false
      ∧ ready.dev.inReset = false ∧ ({ ready with dev := { ready.dev with inReset := true } } : State).dev.inReset = true)
    ∧ Unbusy (running 0 id) ∧ State.reset.fuse.grade = 1 ∧ sFuse.grade = 2 := by
  refine ⟨by decide, by decide, by decide, ?_, by decide +kernel, ⟨by decide +kernel, by decide +kernel⟩, by decide +kernel⟩
  constructor <;> decide

/-- The state after a command. -/
def after (i : Instr) (s : State) : State := match exec i s with | .next t => t | _ => s

/-- ADD wraps (03 Table 3.17), MIN is signed, SRA keeps the sign, a write to X0 is lost (03 Table 3.1). -/
theorem test_scalar_results : ∀ x ∈ [(0x00, 2 ^ 64 - 1, 1, 3, 0), (0x09, 2 ^ 64 - 1, 1, 3, 2 ^ 64 - 1), (0x05, 2 ^ 63, 64 + 63, 3, 2 ^ 64 - 1), (0x02, 2 ^ 32, 2 ^ 32 + 1, 3, 2 ^ 32),
      (0x00, 1, 1, 0, 0)],
    let w := opWord x.1 [(47, x.2.2.2.1), (42, 1), (37, 2)]
    let s := running w (fun c => { c with x := [(1, BitVec.ofNat 64 x.2.1), (2, BitVec.ofNat 64 x.2.2.1)] })
    let i : Instr := if x.1 = 0 then .add 0 w else if x.1 = 9 then .minS 0 w else if x.1 = 5 then .sra 0 w else .mul 0 w
    (((after i s).coreAt 0).xr x.2.2.2.1).toNat = x.2.2.2.2 ∧ ((after i s).coreAt 0).pc = 1 := by
  decide +kernel
/-- LOOP with a count of 0 skips its body (03 R94); an OP that Table 3.17 does not name is logged as ILLEGAL_OP, reason 0x01 (03 Table 3.14). -/
theorem test_loop_and_illegal :
    (let w := opWord 0x28 [(50, 1), (42, 1), (0, 5)]
     ((after (.loopOp 0 w) (running w id)).coreAt 0).pc = 6)
    ∧ let w := opWord 0x0D []
      ((after (.illegalOp 0 w) (running w id)).getCtx 0).map (fun c => c.skips.map (fun k => (k.reason, k.pc))) = some [(1, 0)] := by
  decide +kernel
/-- CTX_CREATE hands out the lowest free context (11 R413); an unknown opcode is SKIPPED with DETAIL 0x01 (02 R590, Table 2.9). -/
theorem test_packets :
    (let s := after (.ctxCreate 0 (head 0x0101 0 0 0 0 64) (zeros 64)) (queued ready)
     (s.getCtx 1).isSome = true ∧ (s.getQueue 0).map (fun x => x.es.map (fun e => e.ph)) = some [.done 0 0 1])
    ∧ ((after (.unknownOpcode 64 (head 0x0999 0 0 0 0 0) []) (queued ready)).getQueue 64).map (fun x => x.es.map (fun e => e.ph)) = some [.done 1 1 0] := by
  decide +kernel
/-- A sum past 2^64 - 1 poisons a latch and leaves its VALUE (03 R128). -/
theorem test_latch_overflow :
    (signalLatch 5 (BitVec.ofNat 64 (2 ^ 64 - 7)) true (running 0 id)).getLatch 5 = some { value := 7, poison := true, owner := 0 }
    ∧ (signalLatch 5 (BitVec.ofNat 64 (2 ^ 64 - 8)) true (running 0 id)).getLatch 5 = some { value := BitVec.ofNat 64 (2 ^ 64 - 1), poison := false, owner := 0 } := by
  decide +kernel
/-- A trip drives TRIP_N low and stops the clocks (14 R513); a cold reset takes every context (15 Table 15.4); IDCODE shifts its word out (17 R585). -/
theorem test_trip_reset_idcode :
    (let s := after (.thermalTrip 0) (running 0 id)
     s.therm.trip = true ∧ s.pin.tripN = false ∧ s.dev.clockStop = true ∧ s.gated.length = 12)
    ∧ (after .coldResetAssert ready).ctx = [] ∧ (after .idcode ready).out.tdo = [0x00880D6B] := by
  decide +kernel
/-- A code word written twice into an armed area leaves its row undefined after SMX_NORM, a first write does not (06 R244). -/
theorem test_score_word_written_twice :
    let a : Armed := { unit := 0, ctx := 0, base := 0, n := 2, k := 32, acc := 0, aux := 4096, rows := [], seen := [], spoilt := [], run := 1, saved := none, norm := none }
    let s := State.reset.onArmed (fun _ => [a])
    (captureWord 0 64 (zeros 64) s).armed.map (fun x => (x.seen, x.spoilt)) = [([1], [])]
    ∧ (captureWord 0 64 (zeros 64) (captureWord 0 64 (zeros 64) s)).armed.map (fun x => (x.seen, x.spoilt)) = [([1], [1])] := by
  decide +kernel

end Sys2Proof.Tests
end

section
/-! SUPPORT. A step without a command (01 R33, R34; 04 R148, R149): what the leaf counters read after it, and that no tile moves where nothing is
queued or in flight. -/

namespace Sys2Proof.Machine

open Sys2Proof.Claims

/-- A loop whose body changes nothing at any of its elements changes nothing. -/
theorem forEach_eq_self {α : Type} (l : List α) (f : α → State → State) (s : State) (h : ∀ a ∈ l, f a s = s) : forEach l f s = s := by
  induction l with
  | nil => rfl
  | cons a l ih =>
    obtain ⟨ha, hl⟩ := List.forall_mem_cons.mp h
    calc forEach (a :: l) f s
      _ = forEach l f (f a s) := rfl
      _ = forEach l f s := by rw [ha]
      _ = s := ih hl

theorem step_of_no_command (s : State) (h : s.pending = []) : step s = .next (idle s) := by
  unfold step
  rw [h]

theorem ticked_ctr_zero (s : State) : (ticked s).ctr 0 = s.ctr 0 + 1 := by
  simp [ticked, State.ctr, tgetD, tget_tset_other]

theorem ticked_ctr_one (s : State) : (ticked s).ctr 1 = s.ctr 1 + 1 := by
  simp [ticked, State.ctr, tgetD]

/-- The compute cycle depends on the service and the clocks, which a tick leaves, and on the count it gives (01 R33). -/
theorem computes_ticked (s : State) :
    computes (ticked s) = (!s.dev.clockStop && (s.dev.service ≠ .ajar || ((ticked s).ctr 0).getLsbD 0)) := rfl

theorem passCycle_of_computes (s : State) (h : computes (ticked s) = true) : passCycle s = tilesTick (issueAll (ticked s)) := if_pos h

theorem passCycle_of_not_computes (s : State) (h : computes (ticked s) = false) : passCycle s = ticked s := if_neg (ne_true_of_eq_false h)

theorem issueAll_of_empty_queues (s : State) (h : ∀ e ∈ s.core, (s.coreAt e.1).eq = []) : issueAll s = s := by
  refine forEach_eq_self _ _ s fun cl hcl => ?_
  obtain ⟨e, he, rfl⟩ := List.mem_map.mp hcl
  rw [h e he]
  rfl

theorem tilesTick_of_none_in_flight (s : State) (h : ∀ e ∈ s.tile, e.2.fl = []) :
    tilesTick s = s.onDev (fun d => { d with cycle := d.cycle + 1 }) := by
  have idleTiles : tfilter (fun _ t => !t.fl.isEmpty) s.tile = [] := List.filter_eq_nil_iff.mpr fun e he => by simp [h e he]
  unfold tilesTick
  rw [idleTiles]
  rfl

/-- A compute cycle of a module with nothing queued or in flight only counts (04 R148, R149). -/
theorem passCycle_of_unbusy (s : State) (hc : computes (ticked s) = true) (hu : Unbusy s) :
    passCycle s = (ticked s).onDev (fun d => { d with cycle := d.cycle + 1 }) := by
  obtain ⟨hcore, htile⟩ := hu
  rw [passCycle_of_computes s hc, issueAll_of_empty_queues (ticked s) hcore, tilesTick_of_none_in_flight (ticked s) htile]

/-- Settles O2: by the two branches of `idle`, and of `passCycle` where the module is out of reset. -/
theorem idleStepCountsOneCycle : Obligations.IdleStepCountsOneCycle := by
  unfold Obligations.IdleStepCountsOneCycle
  intro s hp
  rw [step_of_no_command s hp]
  refine ⟨fun hr => ?_, fun hr => ⟨?_, ticked_ctr_zero s, ticked_ctr_one s, computes_ticked s, passCycle_of_not_computes s,
    fun hc => ⟨passCycle_of_computes s hc, passCycle_of_unbusy s hc⟩⟩⟩
  · rw [idle, if_pos hr]
  · rw [idle, if_neg (ne_true_of_eq_false hr)]

end Sys2Proof.Machine
end

section
/-! SUPPORT. Host accesses through the aperture (09 R329-R331; 05 R205, R209): one equation for each place that an access can meet. -/

namespace Sys2Proof.Machine

/-! A served read of a stack (09 R333, Table 9.4). -/

theorem serveAcc_read_correctable {f x len : Nat} {s t : State} {bs : List Byte} (h : stRead 1 x len s = (t, some bs)) :
    serveAcc { fn := f, addr := x, len := len, bs := none } s = apReply f bs false t := by
  simp only [serveAcc, h]

theorem serveAcc_read_uncorrectable {f x len : Nat} {s t : State} (h : stRead 1 x len s = (t, none)) :
    serveAcc { fn := f, addr := x, len := len, bs := none } s = apReply f (mread t.stackMem x len) true t := by
  simp only [serveAcc, h]

/-! Reads. -/

section
variable {f win off len c va x : Nat} {a : Alloc} {ro : Bool} {bs : List Byte} {s t : State}

theorem exec_hostApertureRead (hs : apShape off len = true) : exec (.hostApertureRead f win off len) s = .next (apRead f win off len s) :=
  congrArg _ (if_pos hs)

theorem apRead_outside (ht : apTarget s f win off = none) :
    apRead f win off len s = apReply f (List.replicate len 0xFF) false (setApwErr f s) := by
  unfold apRead
  rw [ht]
  rfl

theorem apRead_free_stack (ht : apTarget s f win off = some (c, va, a, ro)) (hl : a.loc va = .stk x) (hb : bankFree s (x / 2 ^ 30) = true) :
    apRead f win off len s = serveAcc { fn := f, addr := x, len := len, bs := none } s := by
  simp only [apRead, ht, hl, hb, if_true]

/-- A busy or gated bank set keeps the read waiting, and a gated one is woken (05 R209; 01 R36). -/
theorem apRead_shut_stack (ht : apTarget s f win off = some (c, va, a, ro)) (hl : a.loc va = .stk x) (hb : bankFree s (x / 2 ^ 30) = false) :
    apRead f win off len s = (wakeFor (.stack (x / 2 ^ 30 / 64)) s).modBank (x / 2 ^ 30)
      (fun b => { b with host := b.host ++ [{ fn := f, addr := x, len := len, bs := none }] }) := by
  simp only [apRead, ht, hl, hb, Bool.false_eq_true, if_false]

theorem apRead_far (ht : apTarget s f win off = some (c, va, a, ro)) (hl : a.loc va = .far x) (hr : farRead 1 x len s = (t, some bs)) :
    apRead f win off len s = apReply f bs false t := by
  simp only [apRead, ht, hl, hr]

theorem apRead_far_failed (ht : apTarget s f win off = some (c, va, a, ro)) (hl : a.loc va = .far x) (hr : farRead 1 x len s = (t, none)) :
    apRead f win off len s = apReply f (zeros len) true t := by
  simp only [apRead, ht, hl, hr]

/-! Writes. -/

theorem exec_hostApertureWrite (hs : apShape off bs.length = true) :
    exec (.hostApertureWrite f win off bs) s = .next (apWrite f win off bs s) := congrArg _ (if_pos hs)

theorem apWrite_outside (ht : apTarget s f win off = none) : apWrite f win off bs s = setApwErr f s := by
  simp only [apWrite, ht]

theorem apWrite_readOnly (ht : apTarget s f win off = some (c, va, a, true)) : apWrite f win off bs s = setApwErr f s := by
  simp only [apWrite, ht, if_true]

theorem apWrite_awake_stack (ht : apTarget s f win off = some (c, va, a, false)) (hl : a.loc va = .stk x)
    (hg : s.gated.contains (.stack (saStack x)) = false) : apWrite f win off bs s = stWrite 0 x bs s := by
  simp only [apWrite, ht, hl, hg, Bool.false_eq_true, if_false]

/-- A write to a gated stack waits for the wake that it begins (01 R36, R41). -/
theorem apWrite_gated_stack (ht : apTarget s f win off = some (c, va, a, false)) (hl : a.loc va = .stk x)
    (hg : s.gated.contains (.stack (saStack x)) = true) :
    apWrite f win off bs s = (wakeFor (.stack (saStack x)) s).modBank (x / 2 ^ 30)
      (fun b => { b with host := b.host ++ [{ fn := f, addr := x, len := bs.length, bs := some bs }] }) := by
  simp only [apWrite, ht, hl, hg, Bool.false_eq_true, if_false, if_true]

theorem apWrite_far (ht : apTarget s f win off = some (c, va, a, false)) (hl : a.loc va = .far x) :
    apWrite f win off bs s = (vaWrite c 0 va bs s).1 := by
  simp only [apWrite, ht, hl, Bool.false_eq_true, if_false]

end

/-- Settles O37: a read by the place that the window's address names, a write by that and by whether its allocation is read-only. -/
theorem hostAperture : Obligations.HostAperture := by
  unfold Obligations.HostAperture
  refine ⟨?stackRead, ?farRead, ?readOutside, ?write, ?writeOutside, fun _ _ _ _ => rfl⟩
  case stackRead =>
    intro f win off len c va x a ro s hs ht hl
    rw [exec_hostApertureRead hs]
    refine ⟨fun hb t => ?_, fun hb => by rw [apRead_shut_stack ht hl hb]⟩
    rw [apRead_free_stack ht hl hb]
    exact ⟨fun bs h => by rw [serveAcc_read_correctable h]; rfl, fun h => by rw [serveAcc_read_uncorrectable h]; rfl⟩
  case farRead =>
    intro f win off len c va x a ro s t hs ht hl
    rw [exec_hostApertureRead hs]
    exact ⟨fun bs h => by rw [apRead_far ht hl h]; rfl, fun h => by rw [apRead_far_failed ht hl h]; rfl⟩
  case readOutside =>
    intro f win off len s hs ht
    rw [exec_hostApertureRead hs, apRead_outside ht]
    rfl
  case write =>
    intro f win off c va bs a ro s hs ht
    rw [exec_hostApertureWrite hs]
    refine ⟨?_, ?_, ?_, ?_⟩ <;> rintro rfl
    · rw [apWrite_readOnly ht]
    · exact fun x hl hg => by rw [apWrite_awake_stack ht hl hg]
    · exact fun x hl hg => by rw [apWrite_gated_stack ht hl hg]
    · exact fun x hl => by rw [apWrite_far ht hl]
  case writeOutside =>
    intro f win off bs s hs ht
    rw [exec_hostApertureWrite hs, apWrite_outside ht]

end Sys2Proof.Machine
end

section
/-! SUPPORT. Gating and waking a unit (01 R36-R41; 14 R499, R500, R513), and the deferred change of a routine (05 R179, R181). -/

namespace Sys2Proof.Machine

theorem exec_unitGate_of_mayGate {u : GUnit} {s : State} (h : mayGate s u = true) : exec (.unitGate u) s = .next (gate u s) :=
  congrArg _ (if_pos h)

theorem exec_unitGate_of_not_mayGate {u : GUnit} {s : State} (h : mayGate s u = false) : exec (.unitGate u) s = .next s :=
  congrArg _ (if_neg (ne_true_of_eq_false h))

/-- A unit that is neither a cluster nor a stack has nothing to lose when its power goes. -/
theorem gate_of_not_cluster_not_stack {u : GUnit} {s : State} (hc : ∀ n, u ≠ .cluster n) (hs : ∀ n, u ≠ .stack n) :
    gate u s = s.onGated (fun l => l ++ [u]) := by
  cases u with
  | cluster n => exact absurd rfl (hc n)
  | stack n => exact absurd rfl (hs n)
  | pivot | wicket | mullion => rfl

/-- A wake that an event began ends, except of a stack during a trip (14 R513). -/
theorem exec_unitWakeDone_of_waking {u : GUnit} {s : State} (hg : s.gated.contains u = true) (hw : s.wake.contains u = true)
    (hf : fusedOff s u = false) (hr : s.dev.inReset = false) (ht : s.therm.trip = false ∨ ∀ n, u ≠ .stack n) :
    exec (.unitWakeDone u) s
      = .next (pumpAll (serveIdle ((s.onGated (fun l => l.filter (fun x => x ≠ u))).onWake (fun l => l.filter (fun x => x ≠ u))))) := by
  have awaited : (!s.gated.contains u || !s.wake.contains u || fusedOff s u || s.dev.inReset) = false := by
    simp only [hg, hw, hf, hr, Bool.not_true, Bool.or_false]
  change execUnitWakeDone u s = _
  simp only [execUnitWakeDone, awaited, Bool.false_or]
  cases ht with
  | inl untripped => rw [untripped, Bool.and_false]; rfl
  | inr notStack =>
    cases u with
    | stack n => exact absurd rfl (notStack n)
    | cluster | pivot | wicket | mullion => rfl

theorem exec_unitWakeDone_stack_of_trip {n : Nat} {s : State} (ht : s.therm.trip = true) : exec (.unitWakeDone (.stack n)) s = .next s := by
  change execUnitWakeDone (.stack n) s = _
  simp only [execUnitWakeDone, ht, Bool.and_self, Bool.or_true, if_true]

/-! The deferred microcode swap. -/

/-- Changes of what the firmware holds that agree on what it holds are one change. -/
theorem State.onFw_congr {s : State} {g g' : Fw → Fw} (h : g s.fw = g' s.fw) : s.onFw g = s.onFw g' := by
  unfold State.onFw
  rw [h]

/-- A routine that the leaf's micro-words hold is loaded (05 R179). -/
theorem putRoutine_of_fits {k ver : Nat} {ws : List (BitVec 128)} {w : Fw} (h : ucodeWords w k + ws.length ≤ 4096) :
    putRoutine k (some (ver, ws)) w = { w with uram := tset w.uram k (ver, ws) } := if_pos h

section
variable {leaf fn ver : Nat} {ws : List (BitVec 128)} {s : State}

/-- The swap of a routine that no command names, by a Keeper that runs (05 R181). -/
theorem exec_microcodeSwap_of_fits
    (hp : s.fw.ucodePend.find? (fun e => e.1 = leaf * 64 + fn) = some (leaf * 64 + fn, some (ver, ws)))
    (hn : routineNamed s leaf fn = false) (hd : procDown s (4 + leaf % 2) = false) (hw : ucodeWords s.fw (leaf * 64 + fn) + ws.length ≤ 4096) :
    exec (.microcodeSwap leaf fn) s = .next ((trace (4 + leaf % 2) 0x4004 1 (BitVec.ofNat 64 fn) (BitVec.ofNat 64 ver) s).onFw (fun w => { w with
      uram := tset w.uram (leaf * 64 + fn) (ver, ws), ucodePend := w.ucodePend.filter (fun x => x.1 ≠ leaf * 64 + fn) })) := by
  change execMicrocodeSwap leaf fn s = _
  simp only [execMicrocodeSwap, hp, hn, hd, Bool.or_self, Bool.false_eq_true, if_false]
  exact congrArg _ (State.onFw_congr (putRoutine_of_fits hw))

theorem exec_microcodeSwap_of_held (h : routineNamed s leaf fn = true ∨ procDown s (4 + leaf % 2) = true) :
    exec (.microcodeSwap leaf fn) s = .next s := by
  have held : (routineNamed s leaf fn || procDown s (4 + leaf % 2)) = true := (Bool.or_eq_true _ _).mpr h
  change execMicrocodeSwap leaf fn s = _
  unfold execMicrocodeSwap
  dsimp only
  split
  · rfl
  · rw [if_pos held]

end

/-- Settles O38: from what `gate` does to each kind of unit, and the guards of UNIT_WAKE_DONE and MICROCODE_SWAP. -/
theorem gatingAndMicrocode : Obligations.GatingAndMicrocode := by
  unfold Obligations.GatingAndMicrocode
  refine ⟨fun n s h => exec_unitGate_of_mayGate h, fun n s h => exec_unitGate_of_mayGate h, ?other, fun u s => exec_unitGate_of_not_mayGate,
    fun u s => exec_unitWakeDone_of_waking, fun n s => exec_unitWakeDone_stack_of_trip, fun leaf fn ver ws s => exec_microcodeSwap_of_fits,
    fun leaf fn s => exec_microcodeSwap_of_held⟩
  case other =>
    intro u s h hc hs
    rw [exec_unitGate_of_mayGate h, gate_of_not_cluster_not_stack hc hs]

end Sys2Proof.Machine
end

section
/-! SUPPORT. `attempt` (01 R39; 05 R204): what is tried stands where it meets nothing to wait for, and depends only on what `f` does to the state in
which it is tried. -/

namespace Sys2Proof.Machine

open Sys2Proof.Claims

section
variable {uid : Nat} {f g : State → State} {s : State}

/-- What is tried is looked at in one state alone. -/
theorem attempt_congr (h : f (tried uid s) = g (tried uid s)) : attempt uid f s = attempt uid g s := by
  unfold tried at h
  simp only [attempt, h]

theorem attempt_of_passes (h : Passes uid f s) : attempt uid f s = passed uid f s := by
  obtain ⟨noUnits, noBanks⟩ := h
  have clear : ((f (tried uid s)).acc.units.isEmpty && (f (tried uid s)).acc.banks.isEmpty) = true := by rw [noUnits, noBanks]; rfl
  exact if_pos clear

end

end Sys2Proof.Machine
end

section
/-! SUPPORT. Commands in progress (02 R49, R50; 03 R133; 05 R217; 10 R372; 12 R455): one equation for each opcode that goes on after its start. -/

namespace Sys2Proof.Machine

open Sys2Proof.Claims

section
variable {q : Nat} {e : Entry} {x : Queue} {s : State}

theorem goOn_queueResume (ho : e.opc = 0x0105) : goOn q e s = resumeGo q e s := by simp [goOn, ho]

theorem goOn_queueDestroy (ho : e.opc = 0x0104) : goOn q e s = destroyGo q e s := by simp [goOn, ho]

theorem goOn_memFence (ho : e.opc = 0x0204) : goOn q e s = fenceGo q e s := by simp [goOn, ho]

theorem goOn_latchSignal (ho : e.opc = 0x0503) : goOn q e s = signalGo q e s := by simp [goOn, ho]

theorem goOn_latchWait (ho : e.opc = 0x0504) : goOn q e s = waitGo q e s := by simp [goOn, ho]

theorem goOn_reqCancel (ho : e.opc = 0x0606) : goOn q e s = cancelGo q e s := by simp [goOn, ho]

theorem goOn_linkCalib (ho : e.opc = 0x0704) : goOn q e s = calibGo q e s := by simp [goOn, ho]

/-- The last step of a QUEUE_RESUME (02 R49): every record is posted, and the queue has come to the slot. -/
theorem resumeGo_at_slot (hq : s.getQueue (ctxQ e.ctxf (hA e.hdr % 4)) = some x) (hh : x.st ≠ .halted) (hd : x.destroy = none)
    (hr : x.resume = some (q, e.uid, hC e.hdr)) (hp : x.es.all (fun y => y.posted) = true) (ha : slotAhead x (hC e.hdr) = false) :
    resumeGo q e s = completeEntry q e.uid (Res.ok 0) 0
      (s.updQueue (ctxQ e.ctxf (hA e.hdr % 4)) (fun y => { y with st := .active, fetch := hC e.hdr, drain := false, resume := none })) := by
  have mine : (q ≠ q || e.uid ≠ e.uid || !x.es.all (fun y => y.posted)) = false := by simp [hp]
  have stands : (x.st = .halted || x.destroy.isSome) = false := by simp [hh, hd]
  simp only [resumeGo, hq, stands, hr, mine, ha, Bool.false_eq_true, if_false]

/-- The last step of a QUEUE_DESTROY (02 R50): no command is left. -/
theorem destroyGo_of_empty (hq : s.getQueue (ctxQ e.ctxf (hA e.hdr % 4)) = some x) (he : x.es = []) :
    destroyGo q e s = completeEntry q e.uid (Res.ok (nth e.deps 0 0)) 0 (s.delQueue (ctxQ e.ctxf (hA e.hdr % 4))) := by
  simp only [destroyGo, hq, he, List.all_nil, if_true]
  rfl

/-- A MEM_FENCE waits for every earlier command and for all that it noted (05 R217). -/
theorem fenceGo_of_waiting (hq : s.getQueue q = some x) (hw : (earlierDone x e.uid && !anyAlive s e.deps) = false) : fenceGo q e s = s := by
  simp only [fenceGo, hq, hw, Bool.false_eq_true, if_false]

theorem fenceGo_of_ended (hq : s.getQueue q = some x) (he : earlierDone x e.uid = true) (ha : anyAlive s e.deps = false) :
    fenceGo q e s = attempt e.uid (fun s => completeEntry q e.uid (Res.ok 0) 0 (forEach (List.range 12) drainStack s)) s := by
  simp only [fenceGo, hq, he, ha, Bool.not_false, Bool.and_self, if_true]

theorem signalGo_of_owned (hq : s.getQueue q = some x) (ho : ownsLatch s e.ctxf (hA e.hdr) = true) :
    signalGo q e s = if earlierDone x e.uid then completeEntry q e.uid (Res.ok 0) 0
      (signalLatch (hA e.hdr) (BitVec.ofNat 64 (hC e.hdr)) ((hB e.hdr).testBit 0) s) else s := by
  cases hd : earlierDone x e.uid <;> simp only [signalGo, hq, hd, ho, Bool.not_false, Bool.not_true, Bool.false_eq_true, if_true, if_false]

end

/-- Settles O32: by the operation that each opcode goes on with. -/
theorem commandsInProgressEnd : Obligations.CommandsInProgressEnd := by
  unfold Obligations.CommandsInProgressEnd
  refine ⟨?resume, ?destroy, ?fenceWaits, ?fenceEnds, ?signal, ?wait, ?cancel, ?calib⟩
  case resume =>
    intro q e x u hq hhalt hdest ho hres hpost hslot
    rw [goOn_queueResume ho, resumeGo_at_slot hq hhalt hdest hres hpost hslot]
    rfl
  case destroy =>
    intro q e x u hq ho hes
    rw [goOn_queueDestroy ho, destroyGo_of_empty hq hes]
    rfl
  case fenceWaits =>
    intro q e x u hq ho hwait
    rw [goOn_memFence ho, fenceGo_of_waiting hq hwait]
  case fenceEnds =>
    rintro q e x u f hq ho hdone hdead rfl hpass
    rw [goOn_memFence ho, fenceGo_of_ended hq hdone hdead]
    exact attempt_of_passes hpass
  case signal =>
    intro q e x u hq ho hown
    rw [goOn_latchSignal ho, signalGo_of_owned hq hown]
    rfl
  case wait =>
    intro q e u ho hmet
    rw [goOn_latchWait ho, waitGo, hmet]
    rfl
  case cancel =>
    intro q e r u ho hreq
    rw [goOn_reqCancel ho, cancelGo, hreq]
    rfl
  case calib =>
    intro q e u ho
    rw [goOn_linkCalib ho]
    rfl

end Sys2Proof.Machine
end

section
/-! SUPPORT. Completion records and header signals (02 R62-R66), and what LATCH_WAIT_EVAL does to the waits of a core (03 R128, R129, R134). -/

namespace Sys2Proof.Machine

open Sys2Proof.Claims

section
variable {q st det res uid : Nat} {x : Queue} {e : Entry} {s : State}

/-- The record of a command that has completed is posted where the ring has room (02 R62-R65). -/
theorem postOldest_of_done (hq : s.getQueue q = some x) (he : x.es.find? (fun y => !y.posted) = some e) (hp : e.ph = .done st det res)
    (hr : cplFull x = false) :
    postOldest q s =
      let t := (x.cplTail + 1) % 2 ^ x.cplLog2
      let u := updEntry q e.uid (fun y => { y with posted := true })
        ((writeRecord x (recordBytes s q x e st det res) s).updQueue q (fun y => { y with cplTail := t, phase := if t = 0 then !y.phase else y.phase }))
      sweepQ q (if e.irq then msix x.fn x.vector u else u) := by
  simp only [postOldest, hq, nextToPost, he, hp, hr, Bool.false_eq_true, if_false]

/-- Only a SCRUB_RANGE in progress ends when its record is asked for (09 R346). -/
theorem scrubOldest_of_done (hq : s.getQueue q = some x) (he : x.es.find? (fun y => !y.posted) = some e) (hp : e.ph = .done st det res) :
    scrubOldest q s = s := by
  have ended : (e.ph = .running && e.opc = 0x0701) = false := by rw [hp]; rfl
  simp only [scrubOldest, hq, nextToPost, he, ended, Bool.false_eq_true, if_false]

theorem exec_completionRecordPost_of_done (hq : s.getQueue q = some x) (he : x.es.find? (fun y => !y.posted) = some e) (hp : e.ph = .done st det res) :
    exec (.completionRecordPost q) s = .next (pumpAll (attempt 0 (postOldest q) s)) := by
  change execCompletionRecordPost q s = _
  rw [execCompletionRecordPost, scrubOldest_of_done hq he hp]

theorem exec_headerLatchSignal : exec (.headerLatchSignal q uid) s = .next (pumpAll (headerSignal q uid s)) := rfl

theorem headerSignal_of_due (hq : s.getQueue q = some x) (he : x.es.find? (fun y => y.uid = uid) = some e) (hn : hSigEn e.hdr = true)
    (hs : e.sigged = false) (hk : e.kind = some .outcome) (hd : earlierDone x uid = true) :
    headerSignal q uid s = sweepQ q (updEntry q uid (fun y => { y with sigged := true })
      (signalLatch (hSigLatch e.hdr) (hSigVal e.hdr) (hSigAdd e.hdr) s)) := by
  have due : (hSigEn e.hdr && !e.sigged && e.kind = some .outcome && earlierDone x uid) = true := by rw [hn, hs, hk, hd]; rfl
  simp only [headerSignal, hq, he, due, if_true]

end

/-! Which waits a latch satisfies. -/

/-- A latch satisfies a wait when it has reached its value and is not poisoned (03 R128). -/
theorem reached_iff_met (s : State) (l : Nat) (v : Word) : reached s l v = true ↔ waitOn s l v = .met := by
  unfold reached waitOn
  cases s.getLatch l with
  | none => simp
  | some x => cases h : x.poison <;> simp [h]

theorem reached_of_failed {s : State} {l : Nat} {v : Word} (h : waitOn s l v = .failed) : reached s l v = false :=
  Bool.eq_false_iff.mpr fun hr => by rw [(reached_iff_met s l v).mp hr] at h; exact absurd h (by decide)

section
variable {l cl : Nat} {v : Word} {c : Core} {e : ECmd} {s : State}

/-- A change of the elements with a property that none has. -/
theorem map_ite_eq_self {α : Type} {l : List α} {p : α → Bool} {g : α → α} (h : ∀ a ∈ l, p a = false) :
    l.map (fun a => if p a then g a else a) = l :=
  (List.map_congr_left fun a ha => if_neg (ne_true_of_eq_false (h a ha))).trans (List.map_id l)

/-- A latch that satisfies no wait of a core changes nothing of it. -/
theorem Core.noteMet_of_unreached (he : ∀ e ∈ c.eq, eWaitLatch e.words = l → reached s l e.words.w1 = false)
    (hs : ∀ v, c.stall = some (l, v) → reached s l v = false) (hb : ∀ b ∈ c.brls, b.latch = l → reached s l b.value = false) :
    c.noteMet s l = c := by
  have unmetCmd : ∀ e ∈ c.eq, (e.st = .queued && eWaitEn e.words && eWaitLatch e.words = l && !behind c e && reached s l e.words.w1) = false := by
    intro e hmem
    by_cases hl : eWaitLatch e.words = l <;> simp [hl, he e hmem]
  have unmetBrl : ∀ b ∈ c.brls, (b.latch = l && reached s l b.value) = false := by
    intro b hmem
    by_cases hl : b.latch = l <;> simp [hl, hb b hmem]
  rw [Core.noteMet, map_ite_eq_self unmetCmd, map_ite_eq_self unmetBrl]
  cases hst : c.stall with
  | none =>
    dsimp only
    rw [← hst]
  | some w =>
    obtain ⟨k, v⟩ := w
    have unmet : (k = l && reached s l v) = false := by
      by_cases hk : k = l
      · rw [hs v (hk ▸ hst), Bool.and_false]
      · simp [hk]
    simp only [unmet, Bool.false_eq_true, if_false]
    rw [← hst]

/-- A core stalled on a latch that satisfies its wait goes on (03 R134). -/
theorem Core.noteMet_of_stall_met (he : c.eq = []) (hb : c.brls = []) (hs : c.stall = some (l, v)) (hr : reached s l v = true) :
    c.noteMet s l = { c with stall := none } := by
  simp [Core.noteMet, he, hb, hs, hr]

theorem exec_latchWaitEval (l : Nat) (s : State) : exec (.latchWaitEval l) s = .next (pumpAll (evalWaits l s)) := rfl

/-! A module with no core, or with one, and no queue. -/

theorem noteMet_of_no_queues (hq : s.queue = []) : noteMet l s = { s with core := tmap (fun _ c => c.noteMet s l) s.core } := by
  cases s
  subst hq
  rfl

theorem noteMet_of_no_cores (hc : s.core = []) (hq : s.queue = []) : noteMet l s = s := by
  rw [noteMet_of_no_queues hq, hc]
  change { s with core := [] } = s
  rw [← hc]

theorem wakeCores_of_no_cores (hc : s.core = []) : wakeCores l s = s := by
  rw [wakeCores, hc]
  rfl

theorem failCmds_of_no_cores (hc : s.core = []) : failCmds l s = s := by
  rw [failCmds, hc]
  rfl

theorem failWaits_of_no_queues (hq : s.queue = []) : failWaits l s = s := by
  rw [failWaits, hq]
  rfl

theorem forEach_one_core (hc : s.core = [(cl, c)]) (g : Nat → State → State) : forEach (tkeys s.core) g s = g cl s := by
  rw [hc]
  rfl

theorem coreAt_of_one_core (hc : s.core = [(cl, c)]) : s.coreAt cl = c := by
  rw [State.coreAt, hc, tgetD, tget, if_pos rfl]
  rfl

theorem modCore_of_one_core (hc : s.core = [(cl, c)]) (g : Core → Core) : s.modCore cl g = { s with core := [(cl, g c)] } := by
  have same : tgetD s.core cl Core.init = c := coreAt_of_one_core hc
  rw [State.modCore, State.onCore, same, hc, tset, if_neg (Nat.lt_irrefl cl), if_pos rfl]

theorem noteMet_of_one_core (hc : s.core = [(cl, c)]) (hq : s.queue = []) : noteMet l s = { s with core := [(cl, c.noteMet s l)] } := by
  rw [noteMet_of_no_queues hq, hc]
  rfl

theorem noteMet_of_unreached (hc : s.core = [(cl, c)]) (hq : s.queue = []) (hn : c.noteMet s l = c) : noteMet l s = s := by
  rw [noteMet_of_one_core hc hq, hn, ← hc]

theorem wakeCores_of_unstalled (hc : s.core = [(cl, c)]) (hs : c.stall = none) : wakeCores l s = s := by
  rw [wakeCores, forEach_one_core hc, coreAt_of_one_core hc, hs]

/-- A failed WAITL stops the run of its core (03 R134). -/
theorem wakeCores_of_failed (hc : s.core = [(cl, c)]) (hs : c.stall = some (l, v)) (hw : waitOn s l v = .failed) :
    wakeCores l s = stopRun cl stLatchPoisoned c.pc 0 { s with core := [(cl, { c with stall := none })] } := by
  rw [wakeCores, forEach_one_core hc, coreAt_of_one_core hc, hs]
  simp only [ne_eq, not_true_eq_false, if_false, hw]
  rw [modCore_of_one_core hc]

theorem failCmds_of_no_commands (hc : s.core = [(cl, c)]) (he : c.eq = []) : failCmds l s = s := by
  rw [failCmds, forEach_one_core hc, coreAt_of_one_core hc, he]
  rfl

/-- The failed wait of a command at the head of its engine stops its run (03 R129, R134). -/
theorem failCmds_of_failed (hc : s.core = [(cl, c)]) (he : c.eq = [e]) (hst : e.st = .queued) (hsp : e.spec = []) (hen : eWaitEn e.words = true)
    (hl : eWaitLatch e.words = l) (hm : e.met = false) (hw : waitOn s l e.words.w1 = .failed) :
    failCmds l s = stopRun cl stLatchPoisoned e.pc 0 (poisonEnv e s) := by
  have first : behind c e = false := by simp [behind, he]
  rw [failCmds, forEach_one_core hc, coreAt_of_one_core hc, he]
  simp [hst, hsp, hen, hl, hm, hw, first]

end

/-- Settles O33: by the guards of a record and of a header signal, and by the waits that a latch satisfies or fails. -/
theorem recordsAndHeaderSignals : Obligations.RecordsAndHeaderSignals := by
  unfold Obligations.RecordsAndHeaderSignals
  refine ⟨?record, ?signal, ?noCore, ?met, ?failed, ?command⟩
  case record =>
    intro q st det res x e s f hq he hp hr hf hpass
    have posts : postOldest q (tried 0 s) = f (tried 0 s) := by
      rw [hf]
      exact postOldest_of_done hq he hp hr
    rw [exec_completionRecordPost_of_done hq he hp, attempt_congr posts, attempt_of_passes hpass]
  case signal =>
    intro q uid x e s hq he hn hs hk hd
    rw [exec_headerLatchSignal, headerSignal_of_due hq he hn hs hk hd]
  case noCore =>
    intro l s hc hq
    rw [exec_latchWaitEval, evalWaits, noteMet_of_no_cores hc hq, wakeCores_of_no_cores hc, failCmds_of_no_cores hc, failWaits_of_no_queues hq]
  case met =>
    intro l cl v c s hc hq hs he hb hw
    have quiet : { s with core := [(cl, { c with stall := none })] }.queue = [] := hq
    rw [exec_latchWaitEval, evalWaits, noteMet_of_one_core hc hq, Core.noteMet_of_stall_met he hb hs ((reached_iff_met s l v).mpr hw),
      wakeCores_of_unstalled rfl rfl, failCmds_of_no_commands (c := { c with stall := none }) rfl he, failWaits_of_no_queues quiet]
  case failed =>
    intro l cl v c s hc hq hs he hb hw
    have unnoted : c.noteMet s l = c := Core.noteMet_of_unreached (by simp [he]) (fun v' hv' => by
      rw [hs] at hv'
      cases hv'
      exact reached_of_failed hw) (by simp [hb])
    rw [exec_latchWaitEval, evalWaits, noteMet_of_unreached hc hq unnoted, wakeCores_of_failed hc hs hw]
    rfl
  case command =>
    intro l cl c e s hc hq hs hb he hst hsp hen hl hm hw
    have unnoted : c.noteMet s l = c := Core.noteMet_of_unreached (by simp [he, reached_of_failed hw]) (by simp [hs]) (by simp [hb])
    rw [exec_latchWaitEval, evalWaits, noteMet_of_unreached hc hq unnoted, wakeCores_of_unstalled hc hs, failCmds_of_failed hc he hst hsp hen hl hm hw]
    rfl

end Sys2Proof.Machine
end

section
/-! SUPPORT. Loads and stores of a control core (03 Table 3.17): what one instruction does where nothing keeps its core from it, and what a memory
reads where it has been written. -/

namespace Sys2Proof.Machine

open Sys2Proof.Claims

@[simp] theorem toLE_length (x n : Nat) : (toLE x n).length = n := by
  induction n generalizing x with
  | zero => rfl
  | succ n ih => rw [toLE, List.length_cons, ih]

/-- What has been written reads back. -/
theorem mread_mwrite_same (m : Mem) (a : Nat) (bs : List Byte) : mread (mwrite m a bs) a bs.length = bs :=
  List.ext_getElem (by simp [mread]) fun i _ hi => by simp only [mread, List.getElem_map, List.getElem_range, mget_mwrite_inside bs m a i hi]

theorem mread_mwrite_toLE (m : Mem) (a x n : Nat) : mread (mwrite m a (toLE x n)) a n = toLE x n := by
  simpa only [toLE_length] using mread_mwrite_same m a (toLE x n)

/-- The IMM32 that the model takes from an instruction is that of 03 R591. -/
theorem iImm_eq_imm32 (w : Word) : iImm w = imm32 w := by
  apply BitVec.eq_of_toNat_eq
  have low : fld w 31 0 % 2 ^ 32 = w.toNat % 2 ^ 32 := Nat.mod_mod _ _
  have sign : (fld w 31 0).testBit 31 = (w.extractLsb' 0 32).msb := by
    rw [BitVec.msb_eq_getLsbD_last, BitVec.getLsbD_extractLsb']
    exact Nat.testBit_mod_two_pow (w.toNat >>> 0) 32 31
  have fits : w.toNat % 2 ^ 32 < 2 ^ 32 := Nat.mod_lt _ (by decide)
  rw [iImm, sext, imm32, BitVec.toNat_signExtend, ← sign, low]
  split
  · simp [*]
    omega
  · simp [*]

theorem memAddr_eq_address (s : State) (cl : Nat) (w : Word) : memAddr s cl w = address s cl w := by
  rw [memAddr, address, iImm_eq_imm32]

section
variable {op cl : Nat} {w : Word} {s : State}

/-- The effect of an instruction that issues under its guard, whose fields are in range (03 R92, R135). -/
theorem instrStep_of_issues {eff : State → State} {waits : Bool} (hi : Issues op cl w s) (hb : waits = false ∨ (s.coreAt cl).brls = []) :
    instrStep [op] cl w none waits eff s = eff s := by
  obtain ⟨issued, guarded⟩ := hi
  have unheld : (waits && !(s.coreAt cl).brls.isEmpty) = false := by
    cases hb with
    | inl prompt => rw [prompt, Bool.false_and]
    | inr resolved => rw [resolved, List.isEmpty_nil, Bool.not_true, Bool.and_false]
  simp only [instrStep, issued, guarded, unheld, Bool.not_true, Bool.false_eq_true, if_false]

/-- An aligned address inside a memory, with its reserved bits 0, is no BAD_FIELD. -/
theorem badField_memBad_of_inside {size : Nat} (hr : fld w 41 32 = 0) (ha : address s cl w % 8 = 0) (hs : address s cl w + 8 ≤ size) :
    badField (memBad s cl w size) = none := by
  have inside : ¬ size < address s cl w + 8 := Nat.not_lt.mpr hs
  simp [badField, memBad, memAddr_eq_address, hr, ha, inside]

theorem exec_ldl (hi : Issues 0x40 cl w s) (hr : fld w 41 32 = 0) (ha : address s cl w % 8 = 0) (hs : address s cl w + 8 ≤ 2 ^ 14) :
    exec (.ldl cl w) s
      = .next (goneOn cl (fun c => c.setX (iXD w) (BitVec.ofNat 64 (leNat (mread s.localMem (cl * 2 ^ 14 + address s cl w) 8)))) s) := by
  change execLdl cl w s = _
  rw [execLdl, badField_memBad_of_inside hr ha hs, instrStep_of_issues hi (.inl rfl), memAddr_eq_address]
  rfl

theorem exec_lds (hi : Issues 0x42 cl w s) (hr : fld w 41 32 = 0) (ha : address s cl w % 8 = 0) (hs : address s cl w + 8 ≤ 2 ^ 20) :
    exec (.lds cl w) s
      = .next (goneOn cl (fun c => c.setX (iXD w) (BitVec.ofNat 64 (leNat (mread s.sharedMem (cl * 2 ^ 20 + address s cl w) 8)))) s) := by
  change execLds cl w s = _
  rw [execLds, badField_memBad_of_inside hr ha hs, instrStep_of_issues hi (.inl rfl), memAddr_eq_address]
  rfl

theorem exec_stl (hi : Issues 0x41 cl w s) (hr : fld w 41 32 = 0) (ha : address s cl w % 8 = 0) (hs : address s cl w + 8 ≤ 2 ^ 14)
    (hb : (s.coreAt cl).brls = []) :
    exec (.stl cl w) s = .next (goneOn cl id (coreWrote cl (5, cl * 2 ^ 14 + address s cl w, 8)
      { s with localMem := mwrite s.localMem (cl * 2 ^ 14 + address s cl w) (toLE ((s.coreAt cl).xr (iXD w)).toNat 8) })) := by
  change execStl cl w s = _
  rw [execStl, badField_memBad_of_inside hr ha hs, instrStep_of_issues hi (.inr hb), memAddr_eq_address]
  rfl

theorem exec_sts (hi : Issues 0x43 cl w s) (hr : fld w 41 32 = 0) (ha : address s cl w % 8 = 0) (hs : address s cl w + 8 ≤ 2 ^ 20)
    (hb : (s.coreAt cl).brls = []) :
    exec (.sts cl w) s = .next (goneOn cl id (coreWrote cl (3, cl * 2 ^ 20 + address s cl w, 8)
      { s with sharedMem := mwrite s.sharedMem (cl * 2 ^ 20 + address s cl w) (toLE ((s.coreAt cl).xr (iXD w)).toNat 8) })) := by
  change execSts cl w s = _
  rw [execSts, badField_memBad_of_inside hr ha hs, instrStep_of_issues hi (.inr hb), memAddr_eq_address]
  rfl

end

/-- Settles O13: an access in range is the effect of its row, and a byte of a memory reads as written inside the range and as before outside it. -/
theorem loadsAndStores : Obligations.LoadsAndStores := by
  unfold Obligations.LoadsAndStores
  refine ⟨fun cl w s => exec_ldl, fun cl w s => exec_lds, ?stl, ?sts⟩
  case stl =>
    rintro cl w s a m hi hr ha hs hb rfl rfl
    exact ⟨exec_stl hi hr ha hs hb, mread_mwrite_toLE _ _ _ 8, fun b hout => mget_mwrite_outside _ _ _ b (by rwa [toLE_length])⟩
  case sts =>
    rintro cl w s a m hi hr ha hs hb rfl rfl
    exact ⟨exec_sts hi hr ha hs hb, mread_mwrite_toLE _ _ _ 8, fun b hout => mget_mwrite_outside _ _ _ b (by rwa [toLE_length])⟩

end Sys2Proof.Machine
end

section
/-! SUPPORT. Doorbells (02 R51-R56): what a write with an index does to the queue that its offset names. -/

namespace Sys2Proof.Machine

section
variable {f off q : Nat} {v : Word} {x : Queue} {s : State} {n : Queue → Nat} {g : Nat → Queue → Queue}

theorem ringBell_inside (ho : barOpen s = true) (hb : bellQueue s f off = some q) (hq : s.getQueue q = some x) (hv : v.toNat < n x) :
    ringBell f off (.full v) n g s = s.updQueue q (g v.toNat) := by
  simp only [ringBell, actVal, ho, hb, hq, Nat.not_le.mpr hv, Bool.not_true, Bool.false_eq_true, if_false]

/-- An index past the ring moves nothing (02 R52). -/
theorem ringBell_past (ho : barOpen s = true) (hb : bellQueue s f off = some q) (hq : s.getQueue q = some x) (hv : n x ≤ v.toNat) :
    ringBell f off (.full v) n g s = s.updQueue q (fun y => { y with dbErr := true }) := by
  simp only [ringBell, actVal, ho, hb, hq, hv, Bool.not_true, Bool.false_eq_true, if_false, if_true]
  rfl

theorem ringBell_no_queue (ho : barOpen s = true) (hb : bellQueue s f off = none) :
    ringBell f off (.full v) n g s = s.modFn f (fun n => { n with dbErr := true }) := by
  simp only [ringBell, actVal, ho, hb, Bool.not_true, Bool.false_eq_true, if_false]
  rfl

theorem exec_submissionDoorbell {a : Acc} (ho : isBell off 0 = true) :
    exec (.submissionDoorbell f off a) s = .next (ringBell f off a (fun x => 2 ^ x.subLog2) (fun v x => { x with tail := v }) s) :=
  congrArg _ (if_pos ho)

theorem exec_completionDoorbell {a : Acc} (ho : isBell off 8 = true) :
    exec (.completionDoorbell f off a) s = .next (pumpAll (ringBell f off a (fun x => 2 ^ x.cplLog2) (fun v x => { x with head := v }) s)) :=
  congrArg _ (if_pos ho)

end

/-- Settles O24: by the three outcomes of `ringBell`. -/
theorem doorbells : Obligations.Doorbells := by
  unfold Obligations.Doorbells
  refine ⟨?submission, ?completion, ?noQueue⟩
  case submission =>
    intro f off q v x s hoff hopen hbell hq
    rw [exec_submissionDoorbell hoff]
    exact ⟨fun hv => by rw [ringBell_inside hopen hbell hq hv], fun hv => by rw [ringBell_past hopen hbell hq hv]⟩
  case completion =>
    intro f off q v x s hoff hopen hbell hq
    rw [exec_completionDoorbell hoff]
    exact ⟨fun hv => by rw [ringBell_inside hopen hbell hq hv], fun hv => by rw [ringBell_past hopen hbell hq hv]⟩
  case noQueue =>
    intro f off v s hoff hopen hbell
    rw [exec_submissionDoorbell hoff, ringBell_no_queue hopen hbell]

end Sys2Proof.Machine
end

section
/-! SUPPORT. Queues: the entry that a fetched packet becomes (02 R55-R60, R589), and the two steps in which the only command of a queue is checked and
starts (02 R64, R66, R73, R74). -/

namespace Sys2Proof.Machine

open Sys2Proof.Claims

theorem State.getQueue_updQueue_same {s : State} {q : Nat} {x : Queue} (g : Queue → Queue) (h : s.getQueue q = some x) :
    (s.updQueue q g).getQueue q = some (g x) := by
  have there : tget s.queue q = some x := h
  simp [there]

/-! The fetch. -/

/-- A queue that runs, with its ring in host memory, fetches the packet `h` whole (02 R49-R57). -/
structure FetchesWhole (s : State) (q : Nat) (x : Queue) (h : Hdr) : Prop where
  queue  : s.getQueue q = some x
  active : x.st = .active
  runs   : fetches x = true
  going  : x.resume = none
  host   : x.subDev = false
  slots  : pktExtent h ≤ avail x

/-- The entry of a packet that a check of 02 R589 refuses with `r`. -/
def refusedEntry (s : State) (x : Queue) (h : Hdr) (pl : List Byte) (r : Res) : Entry :=
  { entryOf s x h pl with hdr := { nativeHdr h with w3 := 0 }, opc := 0, ph := .done r.st r.det r.res }

/-- The entry of a packet, refused or not. -/
def checkedEntry (s : State) (x : Queue) (h : Hdr) (pl : List Byte) (r : Option Res) : Entry :=
  (r.map (refusedEntry s x h pl)).getD (entryOf s x h pl)

section
variable {s : State} {q : Nat} {x : Queue} {h : Hdr} {pl : List Byte}

/-- The checks of steps 1 to 7 of 02 R589 do not look at what a fetch has changed before them. -/
theorem parseCheck_tried (k : Nat) : parseCheck ((tried k s).onNextUid (fun n => n + 1)) q x h pl = parseCheck s q x h pl := rfl

theorem fetchPacket_tried (hf : FetchesWhole s q x h) (k : Nat) :
    fetchPacket q h pl (tried k s)
      = appendEntry q (checkedEntry s x h pl (parseCheck s q x h pl)) (pktExtent h) ((tried k s).onNextUid (fun n => n + 1)) := by
  obtain ⟨hq, active, runs, going, host, slots⟩ := hf
  have queued : (tried k s).getQueue q = some x := hq
  have whole : (!fetches x || avail x < pktExtent h) = false := by simp [runs, slots]
  have kept : (x.st = .stopped || x.resume.isSome) = false := by simp [active, going]
  simp only [fetchPacket, queued, whole, State.newUid, ringRead, host, Bool.not_false, if_true, Bool.or_self, Bool.false_eq_true, if_false,
    parseCheck_tried, kept]
  cases parseCheck s q x h pl <;> rfl

/-- The fetch itself meets nothing to wait for. -/
theorem attempt_fetchPacket (hf : FetchesWhole s q x h) :
    attempt 0 (fetchPacket q h pl) s = appendEntry q (checkedEntry s x h pl (parseCheck s q x h pl)) (pktExtent h)
      ({ s with acc := Reach.none }.onNextUid (fun n => n + 1)) := by
  rw [attempt_congr (g := fun t => appendEntry q (checkedEntry s x h pl (parseCheck s q x h pl)) (pktExtent h) (t.onNextUid (fun n => n + 1)))
    (fetchPacket_tried hf 0), attempt_of_passes ⟨rfl, rfl⟩]
  rfl

end

/-- Settles O26: a refused packet has no opcode to start with, and its fetch meets nothing to wait for. -/
theorem refusedPacketCompletesAtOnce : Obligations.RefusedPacketCompletesAtOnce := by
  unfold Obligations.RefusedPacketCompletesAtOnce
  intro s q x h pl r hq hactive hruns hgoing hhost hslots hparse
  have refused : packetRefused s q h pl = true := by simp only [packetRefused, hq, hparse, Option.isSome_some, Bool.or_true]
  change execUnknownOpcode q h pl s = _
  rw [execUnknownOpcode, if_pos refused, attempt_fetchPacket ⟨hq, hactive, hruns, hgoing, hhost, hslots⟩, hparse]
  rfl

/-! The head of a queue. -/

/-- The only command of a running queue waits, and its Keeper, if it has one, answers (02 R64, R74). -/
structure WaitsAlone (s : State) (q : Nat) (x : Queue) (e : Entry) : Prop where
  queue   : s.getQueue q = some x
  alone   : x.es = [e]
  active  : x.st = .active
  awake   : s.dev.inReset = false
  waiting : e.ph = .waiting
  keeper  : keeperWaits s q e = false

section
variable {s : State} {q : Nat} {x : Queue} {e : Entry}

/-- The first step checks it (02 R589 steps 8 and 9). -/
theorem pumpOne_of_unchecked (hw : WaitsAlone s q x e) (hc : e.chk = false) (hn : startCheck s q e = none) :
    pumpOne q s = some (fenceNote q e (updEntry q e.uid (fun y => { y with chk := true }) s)) := by
  obtain ⟨hq, alone, active, awake, waiting, keeper⟩ := hw
  have first : x.es.find? (fun y => y.ph = .waiting) = some e := by simp [alone, waiting]
  have front : x.es.takeWhile (fun y => y.uid ≠ e.uid) = [] := by simp [alone]
  simp only [pumpOne, hq, first, front, active, awake, keeper, hc, hn, List.any_nil, ne_eq, not_true_eq_false, decide_false, Bool.or_self,
    Bool.false_eq_true, if_false, Bool.not_false, if_true]

/-- The second starts it, where its WAIT is satisfied and a completion entry is free (02 R56, R66; 14 R514). -/
theorem pumpOne_of_checked (hw : WaitsAlone s q x e) (hc : e.chk = true) (hr : cplHeld x + 1 < 2 ^ x.cplLog2) (hm : headerWait s e = .met)
    (ht : s.therm.trip = false) : pumpOne q s = some (startEntry q e s) := by
  obtain ⟨hq, alone, active, awake, waiting, keeper⟩ := hw
  have first : x.es.find? (fun y => y.ph = .waiting) = some e := by simp [alone, waiting]
  have front : x.es.takeWhile (fun y => y.uid ≠ e.uid) = [] := by simp [alone]
  have room : hasRoom x e.uid = true := by simp [hasRoom, alone, hr]
  simp only [pumpOne, hq, first, front, active, awake, keeper, hc, room, hm, ht, List.any_nil, List.all_nil, ne_eq, not_true_eq_false, decide_false,
    Bool.or_self, Bool.and_false, Bool.false_and, Bool.false_eq_true, if_false, Bool.not_true]

/-- Its start, where its operation meets nothing to wait for. -/
theorem startEntry_of_clear {f : Nat → Entry → State → HRes} {p : List Byte} {t : State} (hf : opFor e.opc = some f)
    (hr : (beginEntry q e (tried e.uid s)).2 = .ok p) (ht : t = updEntry q e.uid (fun y => { y with pl := p }) (beginEntry q e (tried e.uid s)).1)
    (hc : Clear (endOp q e.uid (f q (e.begun p) t))) :
    startEntry q e s = (endOp q e.uid (f q (e.begun p) t)).onAcc (fun _ => Reach.none) := by
  have read : beginEntry q e (tried e.uid s) = ((beginEntry q e (tried e.uid s)).1, .ok p) := Prod.ext rfl hr
  rw [startEntry, attempt_congr (g := fun _ => endOp q e.uid (f q (e.begun p) t)) (by rw [read, ht]; simp only [hf])]
  exact attempt_of_passes hc

theorem getQueue_updEntry_alone (hq : s.getQueue q = some x) (ha : x.es = [e]) (g : Entry → Entry) :
    (updEntry q e.uid g s).getQueue q = some { x with es := [g e] } := by
  rw [updEntry, State.getQueue_updQueue_same _ hq]
  simp [ha]

theorem fenceNote_dev (q : Nat) (e : Entry) (s : State) : (fenceNote q e s).dev = s.dev := by
  unfold fenceNote
  split <;> rfl

theorem fenceNote_therm (q : Nat) (e : Entry) (s : State) : (fenceNote q e s).therm = s.therm := by
  unfold fenceNote
  split <;> rfl

end

/-! An accepted packet. -/

section
variable {s : State} {q : Nat} {x : Queue} {h : Hdr} {pl p : List Byte} {t : State}

theorem getQueue_fetched (hq : s.getQueue q = some x) (he : x.es = []) :
    (fetched s q x h pl).getQueue q = some { x with es := [entryOf s x h pl], fetch := (x.fetch + pktExtent h) % 2 ^ x.subLog2 } := by
  have unfetched : ({ s with acc := Reach.none }.onNextUid (fun n => n + 1)).getQueue q = some x := hq
  rw [fetched, appendEntry, State.getQueue_updQueue_same _ unfetched, he]
  rfl

theorem getQueue_headed (hq : s.getQueue q = some x) (he : x.es = []) :
    (headed s q x h pl).getQueue q = some { x with es := [headEntry s q x h pl], fetch := (x.fetch + pktExtent h) % 2 ^ x.subLog2 } := by
  have checked := getQueue_updEntry_alone (getQueue_fetched (h := h) (pl := pl) hq he) rfl (fun y => { y with chk := true })
  unfold headed fenceNote headEntry
  have noted : ((entryOf s x h pl).opc = 0x0204 && (hA (entryOf s x h pl).hdr).testBit 0) = true
      ↔ pktOpcode h = 0x0204 ∧ (hA (nativeHdr h)).testBit 0 = true := by
    rw [Bool.and_eq_true, decide_eq_true_eq]
    rfl
  by_cases fence : pktOpcode h = 0x0204 ∧ (hA (nativeHdr h)).testBit 0 = true
  · rw [if_pos (noted.mpr fence), if_pos fence]
    exact getQueue_updEntry_alone checked rfl _
  · rw [if_neg (mt noted.mp fence), if_neg fence]
    exact checked

theorem waitsAlone_fetched (ha : Accepted s q x h pl p t) :
    WaitsAlone (fetched s q x h pl) q { x with es := [entryOf s x h pl], fetch := (x.fetch + pktExtent h) % 2 ^ x.subLog2 } (entryOf s x h pl) where
  queue := getQueue_fetched ha.queue ha.empty
  alone := rfl
  active := ha.runs.1
  awake := ha.awake.1
  waiting := rfl
  keeper := ha.keeper.1

theorem waitsAlone_headed (ha : Accepted s q x h pl p t) :
    WaitsAlone (headed s q x h pl) q { x with es := [headEntry s q x h pl], fetch := (x.fetch + pktExtent h) % 2 ^ x.subLog2 } (headEntry s q x h pl) where
  queue := getQueue_headed ha.queue ha.empty
  alone := rfl
  active := ha.runs.1
  awake := (congrArg Dev.inReset (fenceNote_dev _ _ _)).trans ha.awake.1
  waiting := rfl
  keeper := ha.keeper.2

/-- A fetched packet that is accepted is checked and starts; two steps of its queue are left (02 R64, R589). -/
theorem pump_fetched {f : Nat → Entry → State → HRes} (ha : Accepted s q x h pl p t) (hf : opFor (pktOpcode h) = some f)
    (hc : Clear (endOp q s.nextUid (f q ((headEntry s q x h pl).begun p) t))) :
    pump q (fetched s q x h pl)
      = pumpGo q 2 ((endOp q s.nextUid (f q ((headEntry s q x h pl).begun p) t)).onAcc (fun _ => Reach.none)) := by
  have checks : pumpOne q (fetched s q x h pl) = some (headed s q x h pl) := pumpOne_of_unchecked (waitsAlone_fetched ha) rfl ha.named
  have cool : (headed s q x h pl).therm.trip = false := (congrArg Therm.trip (fenceNote_therm _ _ _)).trans ha.awake.2
  have starts : pumpOne q (headed s q x h pl)
      = some ((endOp q s.nextUid (f q ((headEntry s q x h pl).begun p) t)).onAcc (fun _ => Reach.none)) := by
    rw [pumpOne_of_checked (waitsAlone_headed ha) rfl ha.room ha.waits cool]
    exact congrArg some (startEntry_of_clear hf ha.reads ha.works hc)
  simp only [pump, getQueue_fetched ha.queue ha.empty, List.length_singleton, pumpGo, checks, starts]

theorem packet_of_accepted {f : Nat → Entry → State → HRes} (ha : Accepted s q x h pl p t) (hf : opFor (pktOpcode h) = some f)
    (hc : Clear (endOp q s.nextUid (f q ((headEntry s q x h pl).begun p) t))) :
    packet (pktOpcode h) q h pl s = settled q (endOp q s.nextUid (f q ((headEntry s q x h pl).begun p) t)) := by
  have whole : FetchesWhole s q x h := ⟨ha.queue, ha.runs.1, ha.runs.2.1, ha.runs.2.2.1, ha.runs.2.2.2, ha.slots⟩
  have fetches : attempt 0 (fetchPacket q h pl) s = fetched s q x h pl := by
    rw [attempt_fetchPacket whole, ha.parses]
    rfl
  rw [packet, if_pos rfl, fetches, pump_fetched ha hf hc]
  rfl

end

/-- The packet rows are the rows of the table of operations (02 Table 2.7). -/
theorem map_packetRows : packetRows.map Prod.snd = opTable := rfl

/-- In a table whose keys are distinct a row is found by its key. -/
theorem find?_key_of_mem {α : Type} {l : List (Nat × α)} {r : Nat × α} (hd : (l.map Prod.fst).Nodup) (hr : r ∈ l) :
    l.find? (fun y => y.1 = r.1) = some r := by
  induction l with
  | nil => exact absurd hr List.not_mem_nil
  | cons a l ih =>
    obtain ⟨fresh, rest⟩ := List.nodup_cons.mp hd
    rcases List.mem_cons.mp hr with rfl | later
    · simp
    · have other : a.1 ≠ r.1 := fun he => fresh (he ▸ List.mem_map_of_mem later)
      rw [List.find?_cons_of_neg (by simpa using other), ih rest later]

theorem opFor_of_mem_opTable {r : Nat × (Nat → Entry → State → HRes)} (h : r ∈ opTable) : opFor r.1 = some r.2 := by
  have distinct : (opTable.map Prod.fst).Nodup := by decide
  rw [opFor, find?_key_of_mem distinct h]
  rfl

theorem exec_packetRow : ∀ r ∈ packetRows, ∀ q h pl s, exec (r.1 q h pl) s = .next (packet r.2.1 q h pl s) := by
  simp only [packetRows, List.forall_mem_cons, List.not_mem_nil, false_imp_iff, implies_true, and_true]
  and_intros <;> intros <;> rfl

/-- Settles O25: the fetched packet is checked in one step of its queue and starts in the next, with the operation of its opcode. -/
theorem acceptedPacketRunsItsOperation : Obligations.AcceptedPacketRunsItsOperation := by
  unfold Obligations.AcceptedPacketRunsItsOperation
  intro r hr s q x h pl p t hop ha hc
  have hf : opFor r.2.1 = some r.2.2 := opFor_of_mem_opTable (map_packetRows ▸ List.mem_map_of_mem hr)
  rw [exec_packetRow r hr, ← hop, packet_of_accepted ha (hop ▸ hf) hc]

end Sys2Proof.Machine
end

section
/-! SUPPORT. The own effect of a packet (02 R64, R68): from what the operation of its opcode answers to `CompletesOk` and `GoesOn`. -/

namespace Sys2Proof.Machine

open Sys2Proof.Claims

/-- The entry that the operation of packet `k` works on. -/
structure Carries (e : Entry) (k : Pkt) : Prop where
  pl  : e.pl = k.p
  ctx : e.ctxf = k.ctx
  hdr : e.hdr = k.hdr
  uid : e.uid = k.uid

section
variable {c : Nat → Hdr → List Byte → Instr} {op : Nat} {f : Nat → Entry → State → HRes} {ok : Pkt → State → Prop}
  {eff : Pkt → State → State}

theorem completesOk_of_op {res : Pkt → State → Nat} (hr : (c, op, f) ∈ packetRows)
    (h : ∀ k e t, Carries e k → ok k t → f k.q e t = fin (Res.ok (res k t)) (eff k t)) : CompletesOk c op ok res eff := by
  intro s x pl k t hop huid ha hok hclear
  have runs := acceptedPacketRunsItsOperation _ hr s k.q x k.raw pl k.p t hop ha
  dsimp only at runs
  rw [h k _ t ⟨rfl, rfl, rfl, huid.symm⟩ hok, ← huid] at runs
  exact runs hclear

theorem goesOn_of_op (hr : (c, op, f) ∈ packetRows) (h : ∀ k e t, Carries e k → ok k t → f k.q e t = going (eff k t)) : GoesOn c op ok eff := by
  intro s x pl k t hop huid ha hok hclear
  have runs := acceptedPacketRunsItsOperation _ hr s k.q x k.raw pl k.p t hop ha
  dsimp only at runs
  rw [h k _ t ⟨rfl, rfl, rfl, huid.symm⟩ hok] at runs
  exact runs hclear

end

end Sys2Proof.Machine
end

section
/-! SUPPORT. The packets on contexts, queues and casements (02 R46-R50, R81; 11 R408-R414, R423, R432-R436): each operation where no check of its own
refuses it. -/

namespace Sys2Proof.Machine

open Sys2Proof.Claims

/-! What the operations look at in their payloads. -/

section
variable {c : Nat} {k : Pkt} {t : State}

theorem ctxCreate_inRange (h : CtxCreateOk c k t) :
    (dirty k.p 3 1 || dirty k.p 6 2 || dirty k.p 16 48 || 7 < le k.p 1 1 || 3 < le k.p 2 1 || 15 < le k.p 0 1 || 2047 < le k.p 4 2
      || le k.p 8 8 % 64 ≠ 0 || (t.casAt (le k.p 0 1)).clusters = 0) = false := by
  obtain ⟨clean3, clean6, clean16, prio, flags, cas, vec, aligned, clusters, -⟩ := h
  simp only [clean3, clean6, clean16, aligned, clusters, ne_eq, not_true_eq_false, decide_false, Bool.false_or, Bool.or_false, Bool.or_eq_false_iff,
    decide_eq_false_iff_not]
  omega

/-- What a CTX_CREATE asks for is free (11 R414). -/
theorem ctxCreate_free (h : CtxCreateOk c k t) :
    (((le k.p 2 1).testBit 1 && (modelOf t (le k.p 0 1)).isSome) || ((le k.p 2 1).testBit 0 && (takeShutter t (le k.p 0 1)).isNone)) = false := by
  obtain ⟨-, -, -, -, -, -, -, -, -, -, -, -, -, alone, room⟩ := h
  rw [Bool.or_eq_false_iff, Bool.and_eq_false_imp, Bool.and_eq_false_imp]
  exact ⟨fun model => by rw [alone model]; rfl, fun shutter => Option.isNone_eq_false_iff.mpr (Option.isSome_iff_ne_none.mpr (room shutter))⟩

section
variable {cl : BitVec 128} (h : (migMap k.p).all (fun m => t.fuse.clusterEn.getLsbD m.2 && cl.getLsbD m.2) = true)
include h

theorem migMap_not_fused : (migMap k.p).any (fun m => m.2 < 128 && !t.fuse.clusterEn.getLsbD m.2) = false :=
  List.any_eq_false.mpr fun m hm => by
    rw [((Bool.and_eq_true _ _).mp (List.all_eq_true.mp h m hm)).1, Bool.not_true, Bool.and_false]
    exact Bool.false_ne_true

theorem migMap_owned : (migMap k.p).any (fun m => !cl.getLsbD m.2) = false :=
  List.any_eq_false.mpr fun m hm => by
    rw [((Bool.and_eq_true _ _).mp (List.all_eq_true.mp h m hm)).2]
    exact Bool.false_ne_true

end

/-- The placement tables that a CTX_MIGRATE names are its context's own (11 R435). -/
theorem migTables_inside {tabs : List Nat} (h : tabs.all (fun a => a = 0 || (a % 64 = 0 && insideOwn t k.ctx a 64 (fun _ => true))) = true) :
    tabs.any (fun a => a ≠ 0 && (a % 64 ≠ 0 || !(insideOwn t k.ctx a 64 (fun _ => true)))) = false := by
  refine List.any_eq_false.mpr fun a ha => ?_
  rcases (Bool.or_eq_true _ _).mp (List.all_eq_true.mp h a ha) with unused | placed
  · simp [of_decide_eq_true unused]
  · obtain ⟨aligned, own⟩ := (Bool.and_eq_true _ _).mp placed
    simp [of_decide_eq_true aligned, own]

theorem queueCreate_known (h : QueueCreateOk k t) : (dirty k.p 22 42 || 3 < le k.p 18 1) = false := by
  obtain ⟨clean, places, -⟩ := h
  rw [clean, Bool.false_or, decide_eq_false_iff_not]
  omega

theorem queueCreate_inRange (h : QueueCreateOk k t) :
    (le k.p 16 1 < 6 || 16 < le k.p 16 1 || le k.p 17 1 < 6 || 16 < le k.p 17 1 || 3 < le k.p 19 1 || 2047 < le k.p 20 2
      || !ringOk t k.ctx ((le k.p 18 1).testBit 0) (le k.p 0 8) (2 ^ le k.p 16 1 * 64)
      || !ringOk t k.ctx ((le k.p 18 1).testBit 1) (le k.p 8 8) (2 ^ le k.p 17 1 * 16)) = false := by
  obtain ⟨-, -, subMin, subMax, cplMin, cplMax, number, vec, subOk, cplOk, -⟩ := h
  simp only [subOk, cplOk, Bool.not_true, Bool.or_false, Bool.or_eq_false_iff, decide_eq_false_iff_not, Nat.not_lt]
  omega

/-- A casement that is free, or the port's own, is not denied to the port (02 R81). -/
theorem not_denied_of_owner {v : Cas} {me : Nat} (h : v.owner = 0 ∨ v.owner = me) : (v.owner ≠ 0 && v.owner ≠ me) = false := by
  rcases h with free | own
  · simp [free]
  · simp [own]

end

/-! The packets. -/

/-- NOP, CTX_CREATE, CTX_DESTROY, CTX_PRIORITY and CTX_MIGRATE. -/
theorem contextPackets : ContextPackets := by
  refine ⟨?nop, ?create, ?destroy, ?priority, ?migrate⟩
  case nop => exact completesOk_of_op (List.mem_of_getElem? (i := 0) rfl) fun _ _ _ _ _ => rfl
  case create =>
    intro c
    refine completesOk_of_op (List.mem_of_getElem? (i := 1) rfl) fun k e t he hok => ?_
    have ⟨_, _, _, _, _, _, _, _, _, reached, full, untested, slot, _, _⟩ := hok
    simp only [opCtxCreate, he.pl, ctxCreate_inRange hok, reached, full, untested, slot, ctxCreate_free hok, Bool.false_and, Bool.not_true,
      Bool.or_self, Bool.false_eq_true, if_false]
  case destroy =>
    intro v
    refine goesOn_of_op (List.mem_of_getElem? (i := 2) rfl) fun k e t he hok => ?_
    obtain ⟨there, alone, still⟩ := hok
    have allowed : (v.model && 1 < (ctxsOf t v.cas).length) = false := by
      rw [Bool.and_eq_false_imp]
      exact fun model => decide_eq_false (Nat.not_lt.mpr (alone model))
    simp only [opCtxDestroy, he.ctx, he.uid, there, allowed, still, Option.isSome_none, Bool.false_eq_true, if_false]
  case priority =>
    intro v
    refine completesOk_of_op (List.mem_of_getElem? (i := 9) rfl) fun k e t he hok => ?_
    have there : t.getCtx k.ctx = some v := hok
    simp only [opCtxPriority, he.ctx, he.hdr, there]
    rfl
  case migrate =>
    intro v
    refine goesOn_of_op (List.mem_of_getElem? (i := 8) rfl) fun k e t he hok => ?_
    obtain ⟨there, active, still, clean, drain, enabled, injective, tables⟩ := hok
    simp only [opCtxMigrate, he.pl, he.ctx, he.uid, there, active, still, clean, migMap_not_fused enabled, migMap_owned enabled,
      migTables_inside tables, injective, Nat.not_lt.mpr drain, Nat.lt_irrefl, ne_eq, not_true_eq_false,
      decide_false, Bool.or_self, Option.isSome_none, Bool.false_eq_true, if_false]

/-- QUEUE_CREATE, QUEUE_DESTROY, QUEUE_RESUME, CASE_ASSIGN and CASE_RELEASE. -/
theorem queueAndCasementPackets : QueueAndCasementPackets := by
  refine ⟨?create, ?destroy, ?resume, ?assign, ?assignOwn, ?release⟩
  case create =>
    refine completesOk_of_op (List.mem_of_getElem? (i := 3) rfl) fun k e t he hok => ?_
    have ⟨_, _, _, _, _, _, _, _, _, _, fresh⟩ := hok
    simp only [opQueueCreate, he.pl, he.ctx, queueCreate_known hok, queueCreate_inRange hok, fresh, Option.isSome_none, Bool.false_eq_true, if_false]
    rfl
  case destroy =>
    intro y
    refine goesOn_of_op (List.mem_of_getElem? (i := 4) rfl) fun k e t he hok => ?_
    have there : t.getQueue (ctxQ k.ctx (hA k.hdr % 4)) = some y := hok
    simp only [opQueueDestroy, he.ctx, he.hdr, he.uid, there]
    rfl
  case resume =>
    intro y
    refine goesOn_of_op (List.mem_of_getElem? (i := 5) rfl) fun k e t he hok => ?_
    obtain ⟨there, running, stays, slot⟩ := hok
    have allowed : (y.st = .halted || y.destroy.isSome || 2 ^ y.subLog2 ≤ hC k.hdr) = false := by
      simp only [running, stays, Option.isSome_none, decide_false, Bool.or_self, Bool.false_or, decide_eq_false_iff_not, Nat.not_le]
      exact slot
    have there : t.getQueue (ctxQ k.ctx (hA k.hdr % 4)) = some y := there
    simp only [opQueueResume, he.ctx, he.hdr, there, allowed, Bool.false_eq_true, if_false]
  case assign =>
    refine completesOk_of_op (List.mem_of_getElem? (i := 6) rfl) fun k e t he hok => ?_
    obtain ⟨owner, bare⟩ := hok
    have mine : ((t.casAt (hA k.hdr % 16)).owner ≠ 0 && (t.casAt (hA k.hdr % 16)).owner ≠ fnPort k.q + 1) = false := not_denied_of_owner owner
    simp only [opCaseAssign, he.hdr, mine, bare, Bool.false_eq_true, if_false, if_true]
    rfl
  case assignOwn =>
    refine completesOk_of_op (List.mem_of_getElem? (i := 6) rfl) fun k e t he hok => ?_
    obtain ⟨owner, withPayload, full, untested, clean30, clean36, latches, quantum, clusters, banks, channels, enabledCl, enabledPv, empty, apart,
      sum⟩ := hok
    have mine : ((t.casAt (hA k.hdr % 16)).owner ≠ 0 && (t.casAt (hA k.hdr % 16)).owner ≠ fnPort k.q + 1) = false := not_denied_of_owner owner
    have payload : ¬ hPlen k.hdr = 0 := by omega
    have service : (ajar t || testing t (hA k.hdr % 16)) = false := Bool.or_eq_false_iff.mpr ⟨full, untested⟩
    simp only [opCaseAssign, he.hdr, he.pl, mine, payload, service, Bool.false_eq_true, if_false]
    refine (if_neg ?inRange).trans ((if_neg ?fused).trans ((if_neg ?contexts).trans ((if_neg ?taken).trans rfl)))
    case inRange =>
      simp only [clean30, clean36, clusters, banks, channels, Bool.or_eq_true, Bool.and_eq_true, decide_eq_true_eq, Bool.false_eq_true, or_false, false_or,
        and_false]
      omega
    case fused =>
      simp only [enabledCl, enabledPv, ne_eq, not_true_eq_false, decide_false, Bool.or_self, Bool.false_eq_true, not_false_eq_true]
    case contexts =>
      have empty : ctxsOf t (hA k.hdr % 16) = [] := empty
      rw [empty]
      exact Bool.false_ne_true
    case taken =>
      intro taken
      rcases (Bool.or_eq_true _ _).mp taken with shared | past
      · obtain ⟨i, hi, common⟩ := List.any_eq_true.mp shared
        have disjoint := List.all_eq_true.mp apart i hi
        simp only [Bool.and_eq_true, Bool.or_eq_true, decide_eq_true_eq] at disjoint common
        obtain ⟨⟨cl, bank⟩, channel⟩ := disjoint
        exact common.elim (fun h => h.elim (absurd cl) (absurd bank)) (absurd channel)
      · exact absurd (of_decide_eq_true past) (Nat.not_lt.mpr sum)
  case release =>
    refine completesOk_of_op (List.mem_of_getElem? (i := 7) rfl) fun k e t he hok => ?_
    obtain ⟨owner, empty⟩ := hok
    have mine : ((t.casAt (hA k.hdr % 16)).owner ≠ 0 && (t.casAt (hA k.hdr % 16)).owner ≠ fnPort k.q + 1) = false := not_denied_of_owner owner
    have empty : ctxsOf t (hA k.hdr % 16) = [] := empty
    simp only [opCaseRelease, he.hdr, mine, empty, List.isEmpty_nil, Bool.not_true, Bool.false_eq_true, if_false]
    rfl

/-- Settles O28: each packet by its operation, where none of that operation's own checks refuses it. -/
theorem contextAndQueuePackets : Obligations.ContextAndQueuePackets := ⟨contextPackets, queueAndCasementPackets⟩

end Sys2Proof.Machine
end

section
/-! SUPPORT. One instruction of a control core (03 R91, R92, R119, R135): what `instrStep` can do, and that every row of Table 3.17 is one. -/

namespace Sys2Proof.Machine

open Sys2Proof.Claims

theorem State.coreAt_modCore_same (s : State) (k : Nat) (g : Core → Core) : (s.modCore k g).coreAt k = g (s.coreAt k) := by
  simp [tgetD]

/-- A change of a core is what it makes of that core as it stands. -/
theorem State.modCore_congr {s : State} {k : Nat} {g g' : Core → Core} (h : g (s.coreAt k) = g' (s.coreAt k)) : s.modCore k g = s.modCore k g' :=
  congrArg (fun c => s.onCore (fun t => tset t k c)) h

/-! What the shared changes of a core leave alone: queues, push counter, state, run, and what waits for a BRL. -/

/-- Core `d` has the push counter, queues, state, run, unresolved BRL, waiting signals and held skips of core `c`. -/
def SameQueues (c d : Core) : Prop :=
  d.pushes = c.pushes ∧ d.eq = c.eq ∧ d.st = c.st ∧ d.run = c.run ∧ d.brls = c.brls ∧ d.sigls = c.sigls ∧ d.held = c.held

theorem SameQueues.refl (c : Core) : SameQueues c c := ⟨rfl, rfl, rfl, rfl, rfl, rfl, rfl⟩

theorem SameQueues.trans {b c d : Core} (h : SameQueues b c) (k : SameQueues c d) : SameQueues b d := by
  obtain ⟨h1, h2, h3, h4, h5, h6, h7⟩ := h
  obtain ⟨k1, k2, k3, k4, k5, k6, k7⟩ := k
  exact ⟨k1.trans h1, k2.trans h2, k3.trans h3, k4.trans h4, k5.trans h5, k6.trans h6, k7.trans h7⟩

theorem Core.setX_sameQueues (c : Core) (i : Nat) (v : Word) : SameQueues c (c.setX i v) := by
  unfold Core.setX
  split <;> exact .refl c

theorem Core.setP_sameQueues (c : Core) (i : Nat) (b : Bool) : SameQueues c (c.setP i b) := by
  unfold Core.setP
  split <;> exact .refl c

theorem Core.fallFrom_sameQueues (c : Core) (p : Nat) : SameQueues c (c.fallFrom p) := .refl c

theorem Core.branchTo_sameQueues (c : Core) (t : Nat) : SameQueues c (c.branchTo t) := .refl c

/-! The outcomes of one instruction. -/

section
variable {ops : List Nat} {cl : Nat} {w : Word} {bad : Option (Nat × Nat)} {waits : Bool} {eff : State → State} {s : State}

/-- An instruction whose guard fails only goes on (03 R92). -/
theorem instrStep_of_guard_fails (hi : issues s cl w ops = true) (hg : guardHolds (s.coreAt cl) w = false) :
    instrStep ops cl w bad waits eff s = goneOn cl id s := by
  simp only [instrStep, hi, hg, Bool.not_true, Bool.not_false, Bool.false_eq_true, if_false, if_true]
  rfl

/-- An instruction out of range is skipped on a confirmed path (03 R119, R135). -/
theorem instrStep_of_bad {op reason info : Nat} (hi : Issues op cl w s) (hb : (s.coreAt cl).brls = []) :
    instrStep [op] cl w (some (reason, info)) waits eff s
      = logSkip cl (s.coreAt cl).pc reason info (s.coreAt cl).pushes (s.ctr (leafOfCluster cl)) (goneOn cl id s) := by
  obtain ⟨issued, guarded⟩ := hi
  simp only [instrStep, issued, guarded, hb, List.isEmpty_nil, Bool.not_true, Bool.false_eq_true, if_false, if_true]
  rfl

/-- Where one instruction does not have its effect, nothing changes, or it goes on, or it is skipped. -/
theorem instrStep_cases :
    instrStep ops cl w bad waits eff s = s ∨ instrStep ops cl w bad waits eff s = goneOn cl id s
    ∨ (∃ reason info, instrStep ops cl w bad waits eff s
        = logSkip cl (s.coreAt cl).pc reason info (s.coreAt cl).pushes (s.ctr (leafOfCluster cl)) (goneOn cl id s))
    ∨ instrStep ops cl w bad waits eff s = eff s := by
  unfold instrStep
  split
  · exact .inl rfl
  · dsimp only
    split
    · exact .inr (.inl rfl)
    · cases bad with
      | some r =>
        dsimp only
        split
        · exact .inr (.inr (.inl ⟨r.1, r.2, rfl⟩))
        · exact .inl rfl
      | none =>
        dsimp only
        split
        · exact .inl rfl
        · exact .inr (.inr (.inr rfl))

end

/-- Every row of Table 3.17 is one instruction of its OP. -/
theorem exec_coreRow : ∀ r ∈ coreRows, ∀ cl w s, ∃ bad waits eff, exec (r.1 cl w) s = .next (instrStep [r.2] cl w bad waits eff s) := by
  simp only [coreRows, threeRows, immRows, List.map_cons, List.map_nil, List.cons_append, List.nil_append, List.forall_mem_cons, List.not_mem_nil,
    false_imp_iff, implies_true, and_true]
  and_intros <;> exact fun _ _ _ => ⟨_, _, _, rfl⟩

/-- Settles O8: by the failed guard of one instruction, which every row is. -/
theorem failedGuardHasNoEffect : Obligations.FailedGuardHasNoEffect := by
  unfold Obligations.FailedGuardHasNoEffect
  intro r hr cl w s hi hg
  obtain ⟨bad, waits, eff, hexec⟩ := exec_coreRow r hr cl w s
  have after : (goneOn cl id s).coreAt cl = (s.coreAt cl).fallFrom (s.coreAt cl).pc := State.coreAt_modCore_same s cl _
  rw [hexec, instrStep_of_guard_fails hi hg, after]
  exact ⟨rfl, rfl, rfl, rfl⟩

/-! The instructions that write only registers. -/

/-- An instruction whose effect changes one core and none of its queues. -/
def RegistersOnly (i : Nat → Word → Instr) : Prop :=
  ∀ cl w s, ∃ op bad g, exec (i cl w) s = .next (instrStep [op] cl w bad false (fun t => t.modCore cl g) s) ∧ ∀ c, SameQueues c (g c)

/-- An instruction that changes registers of its core and goes on is one. -/
theorem registersOnly_of_coreEff {i : Nat → Word → Instr}
    (h : ∀ cl w s, ∃ op bad g, exec (i cl w) s = .next (instrStep [op] cl w bad false (coreEff cl g) s) ∧ ∀ c, SameQueues c (g c)) :
    RegistersOnly i := by
  intro cl w s
  obtain ⟨op, bad, g, hexec, same⟩ := h cl w s
  exact ⟨op, bad, fun c => (g c).fallFrom c.pc, hexec, fun c => (same c).trans (Core.fallFrom_sameQueues _ _)⟩

theorem registersOnly_of_setX {i : Nat → Word → Instr}
    (h : ∀ cl w s, ∃ op bad, ∃ v : Core → Word, exec (i cl w) s = .next (instrStep [op] cl w bad false (coreEff cl (fun c => c.setX (iXD w) (v c))) s)) :
    RegistersOnly i := registersOnly_of_coreEff fun cl w s =>
  have ⟨op, bad, _, hexec⟩ := h cl w s
  ⟨op, bad, _, hexec, fun c => c.setX_sameQueues _ _⟩

theorem registersOnly_of_setP {i : Nat → Word → Instr}
    (h : ∀ cl w s, ∃ op bad, ∃ b : Core → Bool, exec (i cl w) s = .next (instrStep [op] cl w bad false (coreEff cl (fun c => c.setP (iPD w) (b c))) s)) :
    RegistersOnly i := registersOnly_of_coreEff fun cl w s =>
  have ⟨op, bad, _, hexec⟩ := h cl w s
  ⟨op, bad, _, hexec, fun c => c.setP_sameQueues _ _⟩

theorem registersOnly_gset : RegistersOnly .gset :=
  registersOnly_of_coreEff fun _ _ _ => ⟨_, _, _, rfl, fun c => .refl c⟩

theorem registersOnly_greset : RegistersOnly .greset :=
  registersOnly_of_coreEff fun _ _ _ => ⟨_, _, _, rfl, fun c => .refl c⟩

theorem registersOnly_gnext : RegistersOnly .gnext :=
  registersOnly_of_coreEff fun _ _ _ => ⟨_, _, _, rfl, fun c => .trans (.refl c) (Core.setX_sameQueues _ _ _)⟩

theorem registersOnly_loopOp : RegistersOnly .loopOp := fun _ _ _ => ⟨_, _, _, rfl, fun c => by
  split
  · exact Core.fallFrom_sameQueues c _
  · exact .refl c⟩

theorem registersOnly_br : RegistersOnly .br := fun _ _ _ => ⟨_, _, _, rfl, fun c => c.branchTo_sameQueues _⟩

theorem registersOnly_threeRows : ∀ r ∈ threeRows, RegistersOnly r.1 := by
  simp only [threeRows, List.forall_mem_cons, List.not_mem_nil, false_imp_iff, implies_true, and_true]
  and_intros <;> exact registersOnly_of_setX fun _ _ _ => ⟨_, _, _, rfl⟩

theorem registersOnly_immRows : ∀ r ∈ immRows, RegistersOnly r.1 := by
  simp only [immRows, List.forall_mem_cons, List.not_mem_nil, false_imp_iff, implies_true, and_true]
  and_intros <;> exact registersOnly_of_setX fun _ _ _ => ⟨_, _, _, rfl⟩

theorem registersOnly_registerRows : ∀ i ∈ registerRows, RegistersOnly i := by
  simp only [registerRows, List.forall_mem_append, List.forall_mem_map, List.forall_mem_cons, List.not_mem_nil, false_imp_iff, implies_true, and_true]
  refine ⟨⟨registersOnly_threeRows, registersOnly_immRows⟩, ?movi, ?movhi, registersOnly_gset, registersOnly_gnext, registersOnly_greset,
    registersOnly_loopOp, ?cmp, ?cmpi, ?pand, ?por, ?pnot, registersOnly_br, ?ldl, ?lds⟩
  case movi | movhi | ldl | lds => exact registersOnly_of_setX fun _ _ _ => ⟨_, _, _, rfl⟩
  case cmp | cmpi | pand | por | pnot => exact registersOnly_of_setP fun _ _ _ => ⟨_, _, _, rfl⟩

/-- Settles O9: by the outcomes of one instruction, the last of which changes one core and none of its queues. -/
theorem registerInstructionsChangeOneCore : Obligations.RegisterInstructionsChangeOneCore := by
  unfold Obligations.RegisterInstructionsChangeOneCore
  intro i hi cl w s t ht
  obtain ⟨op, bad, g, hexec, same⟩ := registersOnly_registerRows i hi cl w s
  obtain rfl : instrStep [op] cl w bad false (fun t => t.modCore cl g) s = t := Host.Outcome.next.inj (hexec.symm.trans ht)
  rcases instrStep_cases (ops := [op]) (cl := cl) (w := w) (bad := bad) (waits := false) (eff := fun t => t.modCore cl g) (s := s)
    with none | guard | skip | effect
  · exact .inl none
  · exact .inr (.inl ⟨(s.coreAt cl).fallFrom (s.coreAt cl).pc, guard, Core.fallFrom_sameQueues _ _⟩)
  · exact .inr (.inr skip)
  · exact .inr (.inl ⟨g (s.coreAt cl), effect, same _⟩)

end Sys2Proof.Machine
end

section
/-! SUPPORT. The scalar, address, loop and predicate instructions (03 R93, R94, R591, Table 3.17): the result of each where nothing keeps its core
from it. -/

namespace Sys2Proof.Machine

open Sys2Proof.Claims

/-! The operations of the model are those of Table 3.17. -/

theorem opMul_eq : opMul = fun a b => BitVec.ofNat 64 (a.toNat * b.toNat) := by
  funext a b
  exact BitVec.eq_of_toNat_eq (by simp [opMul])

theorem opMin_eq : opMin = fun a b => if a.toInt ≤ b.toInt then a else b := by
  funext a b
  simp [opMin, BitVec.sle]

theorem opMax_eq : opMax = fun a b => if a.toInt ≤ b.toInt then b else a := by
  funext a b
  simp [opMax, BitVec.sle]

theorem opMinu_eq : opMinu = fun a b => if a.toNat ≤ b.toNat then a else b := by
  funext a b
  simp [opMinu, BitVec.ule]

theorem opMaxu_eq : opMaxu = fun a b => if a.toNat ≤ b.toNat then b else a := by
  funext a b
  simp [opMaxu, BitVec.ule]

theorem exec_threeRow : ∀ r ∈ threeRows, ∀ cl w s, exec (r.1 cl w) s = .next (alu3 r.2.1 cl w r.2.2 s) := by
  simp only [threeRows, List.forall_mem_cons, List.not_mem_nil, false_imp_iff, implies_true, and_true, ← opMul_eq, ← opMin_eq, ← opMax_eq, ← opMinu_eq,
    ← opMaxu_eq]
  and_intros <;> exact fun _ _ _ => rfl

theorem exec_immRow : ∀ r ∈ immRows, ∀ cl w s, exec (r.1 cl w) s = .next (aluI r.2.1 cl w r.2.2.1 r.2.2.2 s) := by
  simp only [immRows, List.forall_mem_cons, List.not_mem_nil, false_imp_iff, implies_true, and_true, ← opMul_eq, ← opMin_eq, ← opMax_eq, ← opMinu_eq,
    ← opMaxu_eq]
  and_intros <;> exact fun _ _ _ => rfl

@[simp] theorem badField_false : badField false = none := rfl

section
variable {op cl : Nat} {w : Word} {s : State} {eff : State → State}

/-- The effect of an instruction that waits for no BRL and whose fields are in range (03 R92, R135). -/
theorem instrStep_of_inRange {b : Bool} (hi : Issues op cl w s) (hb : b = false) : instrStep [op] cl w (badField b) false eff s = eff s := by
  rw [hb, badField_false]
  exact instrStep_of_issues hi (.inl rfl)

/-- MOVHI puts IMM32 above the low half of Xd. -/
theorem movhi_value (w x : Word) : BitVec.ofNat 64 (fld w 31 0 * 2 ^ 32 + fld x 31 0) = w.extractLsb' 0 32 ++ x.extractLsb' 0 32 := by
  apply BitVec.eq_of_toNat_eq
  have high : fld w 31 0 = w.toNat % 2 ^ 32 := rfl
  have low : fld x 31 0 = x.toNat % 2 ^ 32 := rfl
  have fits : x.toNat % 2 ^ 32 < 2 ^ 32 := Nat.mod_lt _ (by decide)
  rw [high, low, BitVec.toNat_ofNat, BitVec.toNat_append, Nat.shiftLeft_eq, BitVec.extractLsb'_toNat, BitVec.extractLsb'_toNat, Nat.shiftRight_zero,
    Nat.shiftRight_zero, ← Nat.shiftLeft_eq, ← Nat.shiftLeft_add_eq_or_of_lt fits, Nat.shiftLeft_eq]
  omega

end

/-- Settles O14: each row writes its operation's result where its reserved bits are 0. -/
theorem scalarResults : Obligations.ScalarResults := by
  unfold Obligations.ScalarResults Claims.ThreeRegisterResults Claims.ImmediateResults
  refine ⟨?three, ?imm, ?movi, ?movhi⟩
  case three =>
    intro r hr cl w s hi hz
    rw [exec_threeRow r hr, alu3, instrStep_of_inRange hi (by simp [hz])]
    rfl
  case imm =>
    intro r hr cl w s hi hz hshift
    have inRange : (fld w 41 32 ≠ 0 || (r.2.2.1 && decide (64 ≤ fld w 31 0))) = false := by
      cases h : r.2.2.1 with
      | false => simp [hz]
      | true => simp [hz, hshift h]
    rw [exec_immRow r hr, aluI, instrStep_of_inRange hi inRange, iImm_eq_imm32]
    rfl
  case movi =>
    intro cl w s hi hz
    change execMovi cl w s = _
    rw [execMovi, instrStep_of_inRange hi (by simp [hz]), iImm_eq_imm32]
    rfl
  case movhi =>
    intro cl w s hi hz
    change execMovhi cl w s = _
    rw [execMovhi, instrStep_of_inRange hi (by simp [hz])]
    simp only [movhi_value]
    rfl

/-! Address generators (03 R93). -/

/-- The indices after one address, of a generator with its four dimensions. -/
theorem genNext_eq_advanced {n i : List (BitVec 32)} (hn : n.length = 4) (hi : i.length = 4) : genNext (n.zip i) = advanced n i := by
  match n, i, hn, hi with
  | [n0, n1, n2, n3], [i0, i1, i2, i3], _, _ =>
    simp only [List.zip_cons_cons, List.zip_nil_left, genNext, advanced, List.map_cons, List.map_nil]
    split
    · rfl
    · split
      · rfl
      · split
        · rfl
        · split <;> rfl

theorem genAddr_of_four (b : Word) (n i : List (BitVec 32)) (k0 k1 k2 k3 : Word) :
    genAddr { base := b, count := n, stride := [k0, k1, k2, k3], index := i }
      = b + (nth i 0 0).setWidth 64 * k0 + (nth i 1 0).setWidth 64 * k1 + (nth i 2 0).setWidth 64 * k2 + (nth i 3 0).setWidth 64 * k3 := by
  have index : ∀ x : BitVec 32, BitVec.ofNat 64 x.toNat = x.setWidth 64 := fun x => BitVec.ofNat_toNat 64 x
  simp only [genAddr, index]
  rfl

/-- A block with a count of 0 is no generator (03 R93). -/
theorem genBad_of_count_zero {b : List Byte} {i : Nat} (hi : i < 4) (hz : le b (16 + 16 * i) 4 = 0) : genBad b = true := by
  have zero : (genOf b).count.any (fun n => n = 0) = true :=
    List.any_eq_true.mpr ⟨0, List.mem_map.mpr ⟨i, List.mem_range.mpr hi, by rw [hz]; rfl⟩, rfl⟩
  simp only [genBad, zero, Bool.true_or]

theorem le_mread {m : Mem} {a n lo k : Nat} (h : lo + k ≤ n) : le (mread m a n) lo k = leNat (mread m (a + lo) k) := by
  have part : ((mread m a n).drop lo).take k = mread m (a + lo) k := by
    refine List.ext_getElem (by simp [mread]; omega) fun i _ _ => ?_
    simp [mread, Nat.add_assoc]
  rw [le, part]

/-- Settles O10: the four dimensions of `genAddr` and `genNext`, and the check of a block that GSET loads. -/
theorem addressGenerators : Obligations.AddressGenerators := by
  unfold Obligations.AddressGenerators
  refine ⟨?gnext, ?greset, ?gset, ?refused⟩
  case gnext =>
    intro cl w s b n i k0 k1 k2 k3 hi hz hz' hg hn hlen
    change execGnext cl w s = _
    have inRange : (fld w 46 41 ≠ 0 || fld w 36 0 ≠ 0) = false := by simp [hz, hz']
    simp only [execGnext, inRange, Bool.false_eq_true, if_false, instrStep_of_issues hi (.inl rfl)]
    refine congrArg _ (State.modCore_congr ?_)
    simp only [hg, genNext_eq_advanced hn hlen, genAddr_of_four]
  case greset =>
    intro cl w s hi hz hz'
    change execGreset cl w s = _
    have inRange : (fld w 51 41 ≠ 0 || fld w 36 0 ≠ 0) = false := by simp [hz, hz']
    simp only [execGreset, inRange, Bool.false_eq_true, if_false, instrStep_of_issues hi (.inl rfl)]
    rfl
  case gset =>
    rintro cl w s a hi hz hz' hz'' rfl haligned hinside hgood
    change execGset cl w s = _
    simp only [execGset, hz, hz', hz'', haligned, Nat.not_le.mpr hinside, hgood, ne_eq, not_true_eq_false, decide_false, Bool.or_self, Bool.false_eq_true,
      if_false, instrStep_of_issues hi (.inl rfl)]
    rfl
  case refused =>
    rintro cl w s a i hi hb rfl haligned hinside hlt hzero
    have refuses : genBad (mread s.localMem (cl * 2 ^ 14 + ((s.coreAt cl).xr (iXA w)).toNat) 128) = true :=
      genBad_of_count_zero hlt (by rwa [le_mread (by omega), ← Nat.add_assoc])
    change execGset cl w s = _
    simp only [execGset, refuses, Bool.or_true, if_true, instrStep_of_bad hi hb]
    rfl

/-! LOOP (03 R94). -/

section
variable {c : Core} {outer : List Level} {v : Level}

theorem Core.fallFrom_of_no_level (c : Core) (p : Nat) (h : c.loops = []) : c.fallFrom p = { c with pc := (p + 1) % 2 ^ 24 } := by
  cases c
  subst h
  rfl

/-- Inside the body of the innermost level execution goes to the next instruction. -/
theorem Core.fallFrom_inside (h : c.loops = outer ++ [v]) (hv : v.last ≠ c.pc) : c.fallFrom c.pc = { c with pc := (c.pc + 1) % 2 ^ 24 } := by
  have falls : fallGo c.pc (v :: outer.reverse) c.l = (v :: outer.reverse, c.l, (c.pc + 1) % 2 ^ 24) := if_pos hv
  rw [Core.fallFrom, h, List.reverse_concat, falls, List.reverse_cons, List.reverse_reverse, ← h]

/-- At the end of a body with passes left the level returns to its first instruction. -/
theorem Core.fallFrom_returns (h : c.loops = outer ++ [v]) (hv : v.last = c.pc) (hn : 1 < (tgetD c.l v.ln 0).toNat) :
    c.fallFrom c.pc = { c with l := tset c.l v.ln (BitVec.ofNat 32 ((tgetD c.l v.ln 0).toNat - 1)), pc := v.first } := by
  have falls : fallGo c.pc (v :: outer.reverse) c.l
      = (v :: outer.reverse, tset c.l v.ln (BitVec.ofNat 32 ((tgetD c.l v.ln 0).toNat - 1)), v.first) :=
    (if_neg (not_not.mpr hv)).trans (if_pos (by omega))
  rw [Core.fallFrom, h, List.reverse_concat, falls, List.reverse_cons, List.reverse_reverse, ← h]

/-- After the last pass of the only level it closes with counter 0. -/
theorem Core.fallFrom_closes (h : c.loops = [v]) (hv : v.last = c.pc) (hn : (tgetD c.l v.ln 0).toNat ≤ 1) :
    c.fallFrom c.pc = { c with l := tset c.l v.ln 0, loops := [], pc := (c.pc + 1) % 2 ^ 24 } := by
  have falls : fallGo c.pc [v] c.l = ([], tset c.l v.ln 0, (c.pc + 1) % 2 ^ 24) := (if_neg (not_not.mpr hv)).trans (if_neg (by omega))
  simp only [Core.fallFrom, h, List.reverse_singleton, falls, List.reverse_nil]

end

/-- What LOOP does where no level is open (03 R94). -/
theorem exec_loopOp_of_no_level {cl n : Nat} {w : Word} {s : State} (hi : Issues 0x28 cl w s) (hn : n = ((s.coreAt cl).xr (iXA w)).toNat)
    (hlt : n < 2 ^ 32) (hl : (s.coreAt cl).loops = []) (hz : fld w 49 47 = 0) (hz' : fld w 41 24 = 0) (hb : 0 < iB w) :
    exec (.loopOp cl w) s = .next (s.modCore cl (fun c =>
      if n = 0 then c.fallFrom (c.pc + iB w)
      else { c with l := tset c.l (iLN w) (BitVec.ofNat 32 n), loops := c.loops ++ [{ ln := iLN w, first := c.pc + 1, last := c.pc + iB w }],
                    pc := (c.pc + 1) % 2 ^ 24 })) := by
  subst hn
  change execLoopOp cl w s = _
  have shallow : ¬ 4 ≤ (s.coreAt cl).loops.length := by rw [hl]; exact of_decide_eq_false rfl
  have inRange : (fld w 49 47 ≠ 0 || fld w 41 24 ≠ 0 || iB w = 0 || (s.coreAt cl).loops.any (fun v => v.ln = iLN w)
      || 2 ^ 32 ≤ ((s.coreAt cl).xr (iXA w)).toNat || (s.coreAt cl).loops.any (fun v => decide (v.last < (s.coreAt cl).pc + iB w))) = false := by
    simp only [hz, hz', hl, Nat.ne_of_gt hb, Nat.not_le.mpr hlt, List.any_nil, ne_eq, not_true_eq_false, decide_false, Bool.or_self]
  simp only [execLoopOp, shallow, if_false, instrStep_of_inRange hi inRange]

/-- Settles O11: LOOP with no level open, and the three ways in which a core falls through at its innermost level. -/
theorem loopLevels : Obligations.LoopLevels := by
  unfold Obligations.LoopLevels
  refine ⟨fun cl w s n hi hn hlt hl hz hz' hb => ?_, fun c outer v h => ⟨Core.fallFrom_inside h, Core.fallFrom_returns h, ?_⟩⟩
  · rw [exec_loopOp_of_no_level hi hn hlt hl hz hz' hb]
    refine ⟨fun hpos => congrArg _ (State.modCore_congr ?_), fun hzero => congrArg _ (State.modCore_congr ?_)⟩
    · simp only [Nat.ne_of_gt hpos, if_false, hl, List.nil_append]
    · simp only [hzero, if_true, Core.fallFrom_of_no_level _ _ hl]
  · rintro hv hn rfl
    exact Core.fallFrom_closes h hv hn

/-! Predicates. -/

theorem condHolds_iff {k : Nat} (a b : Word) (hk : k < 6) :
    condHolds k a b = true ↔ k = 0 ∧ a = b ∨ k = 1 ∧ a ≠ b ∨ k = 2 ∧ a.toInt < b.toInt ∨ k = 3 ∧ b.toInt ≤ a.toInt
      ∨ k = 4 ∧ a.toNat < b.toNat ∨ k = 5 ∧ b.toNat ≤ a.toNat := by
  match k, hk with
  | 0, _ | 1, _ | 2, _ | 3, _ | 4, _ | 5, _ => simp [condHolds, BitVec.slt, BitVec.ult]

/-- Settles O12: each of the five instructions, with the conditions of Table 3.17. -/
theorem predicateResults : Obligations.PredicateResults := by
  unfold Obligations.PredicateResults
  refine ⟨?cmp, ?cmpi, ?two, ?pnot⟩
  case cmp =>
    intro cl w s hi hz hz' hk
    refine ⟨condHolds (iCond w) ((s.coreAt cl).xr (iXA w)) ((s.coreAt cl).xr (iXB w)), condHolds_iff _ _ hk, ?_⟩
    change execCmp cl w s = _
    rw [execCmp, instrStep_of_inRange hi (by simp [hz, hz', hk])]
    rfl
  case cmpi =>
    intro cl w s hi hz hz' hz'' hk
    refine ⟨condHolds (iCond w) ((s.coreAt cl).xr (iXA w)) (imm32 w), condHolds_iff _ _ hk, ?_⟩
    change execCmpi cl w s = _
    rw [execCmpi, instrStep_of_inRange hi (by simp [hz, hz', hz'', hk]), iImm_eq_imm32]
    rfl
  case two =>
    simp only [List.forall_mem_cons, List.not_mem_nil, false_imp_iff, implies_true, and_true]
    refine ⟨fun cl w s hi hz hz' hz'' hz''' => ?_, fun cl w s hi hz hz' hz'' hz''' => ?_⟩
    · change execPand cl w s = _
      rw [execPand, instrStep_of_inRange hi (by simp [hz, hz', hz'', hz'''])]
      rfl
    · change execPor cl w s = _
      rw [execPor, instrStep_of_inRange hi (by simp [hz, hz', hz'', hz'''])]
      rfl
  case pnot =>
    intro cl w s hi hz hz' hz''
    change execPnot cl w s = _
    rw [execPnot, instrStep_of_inRange hi (by simp [hz, hz', hz''])]
    rfl

end Sys2Proof.Machine
end

section
/-! SUPPORT. Branches and speculation (03 R117, R118, R122, R123, R126): BR, BRL as it issues, and the BRL that resolves first. -/

namespace Sys2Proof.Machine

open Sys2Proof.Claims

section
variable {cl : Nat} {w : Word} {s : State}

/-- A BRL whose fields are in range, on a latch of its context (03 R117). -/
theorem exec_brl_of_inRange (hi : Issues 0x39 cl w s) (hz : fld w 3 0 = 0) (hk : brlCond w < 6) (ha : ((s.coreAt cl).xr (iXB w)).toNat % 8 = 0)
    (hs : ((s.coreAt cl).xr (iXB w)).toNat + 8 ≤ 2 ^ 20) (ho : OwnsXd cl w s) : exec (.brl cl w) s = .next (brlEff cl w s) := by
  unfold OwnsXd at ho
  change execBrl cl w s = _
  simp only [execBrl, hz, Nat.not_le.mpr hk, ha, Nat.not_lt.mpr hs, ho, ne_eq, not_true_eq_false, decide_false, Bool.or_self, Bool.not_true,
    Bool.false_eq_true, if_false, instrStep_of_issues hi (.inl rfl)]

/-- Where core `cl` goes on behind the BRL `w`: to its target where it is taken (03 R117). -/
def brlGo (cl : Nat) (w : Word) (taken : Bool) (s : State) : State :=
  s.modCore cl (fun c => if taken then c.branchTo (branchTarget c.pc w) else c.fallFrom c.pc)

/-- The BRL `w` of core `c` that is left unresolved, with the core's registers as its checkpoint (03 R117, R123). -/
def issuedBrl (s : State) (c : Core) (w : Word) : Brl :=
  { id := s.nextUid, pc := c.pc, latch := (c.xr (iXD w)).toNat, value := c.xr (iXA w), addr := (c.xr (iXB w)).toNat, cmp := c.xr (brlXC w),
    cond := brlCond w, target := branchTarget c.pc w, hint := bitW w 28, met := false, x := c.x, p := c.p, l := c.l, g := c.g, loops := c.loops }

theorem brlEff_of_met (hn : (s.coreAt cl).brls.length < 4) (hw : waitOn s ((s.coreAt cl).xr (iXD w)).toNat ((s.coreAt cl).xr (iXA w)) = .met) :
    brlEff cl w s = brlGo cl w (condHolds (brlCond w)
      (BitVec.ofNat 64 (leNat (mread s.sharedMem (cl * 2 ^ 20 + ((s.coreAt cl).xr (iXB w)).toNat) 8))) ((s.coreAt cl).xr (brlXC w))) s := by
  simp only [brlEff, Nat.not_le.mpr hn, if_false, hw]
  rfl

theorem brlEff_of_pending (hn : (s.coreAt cl).brls.length < 4)
    (hw : waitOn s ((s.coreAt cl).xr (iXD w)).toNat ((s.coreAt cl).xr (iXA w)) = .pending) :
    brlEff cl w s = brlGo cl w (bitW w 28)
      ((s.onNextUid (fun n => n + 1)).modCore cl (fun c => { c with brls := c.brls ++ [issuedBrl s (s.coreAt cl) w] })) := by
  simp only [brlEff, Nat.not_le.mpr hn, if_false, hw]
  rfl

/-- A fifth BRL does not issue (03 R118). -/
theorem brlEff_of_four (hn : 4 ≤ (s.coreAt cl).brls.length) : brlEff cl w s = s := if_pos hn

/-- Whatever its fields, a fifth BRL changes nothing: on a speculative path a skip is held off as well (03 R118, R119). -/
theorem exec_brl_of_four (hn : 4 ≤ (s.coreAt cl).brls.length) (hg : guardHolds (s.coreAt cl) w = true) : exec (.brl cl w) s = .next s := by
  have speculative : (s.coreAt cl).brls.isEmpty = false := by
    cases h : (s.coreAt cl).brls with
    | nil => rw [h] at hn; exact absurd hn (by decide)
    | cons b rest => rfl
  change execBrl cl w s = _
  unfold execBrl
  refine congrArg _ ?_
  unfold instrStep
  split
  · rfl
  · simp only [hg, speculative, Bool.not_true, Bool.false_and, Bool.false_eq_true, if_false]
    split
    · rfl
    · exact brlEff_of_four hn

end

/-! BRL_RESOLVE. -/

section
variable {cl : Nat} {s : State} {older rest : List Brl} {b : Brl}

/-- The BRL that resolves is the first whose wait is not pending (03 R126). -/
theorem find?_first_resolvable (hb : (s.coreAt cl).brls = older ++ b :: rest) (ho : ∀ x ∈ older, brlWait s x = .pending) (hw : brlWait s b ≠ .pending) :
    (s.coreAt cl).brls.find? (fun x => brlWait s x ≠ .pending) = some b := by
  rw [hb, List.find?_append, List.find?_eq_none.mpr fun x hx => by simp [ho x hx]]
  simp [hw]

theorem resolveBrl_of_met (hb : (s.coreAt cl).brls = older ++ b :: rest) (ho : ∀ x ∈ older, brlWait s x = .pending) (hw : brlWait s b = .met) :
    resolveBrl cl s = if brlTaken s cl b = b.hint then confirmBrl cl b.id s else mispredict cl b (brlTaken s cl b) s := by
  have first := find?_first_resolvable hb ho (by rw [hw]; decide)
  have unfailed : ¬ Wait.met = .failed := by decide
  simp only [resolveBrl, first, hw, unfailed, if_false]

theorem resolveBrl_of_failed (hb : (s.coreAt cl).brls = older ++ b :: rest) (ho : ∀ x ∈ older, brlWait s x = .pending) (hw : brlWait s b = .failed) :
    resolveBrl cl s = stopRun cl stLatchPoisoned b.pc 0 (cancelSpec cl (liveBrls s cl) s) := by
  have first := find?_first_resolvable hb ho (by rw [hw]; decide)
  simp only [resolveBrl, first, hw, if_true]

theorem resolveBrl_of_pending (h : ∀ b ∈ (s.coreAt cl).brls, brlWait s b = .pending) : resolveBrl cl s = s := by
  have none : (s.coreAt cl).brls.find? (fun b => brlWait s b ≠ .pending) = none := List.find?_eq_none.mpr fun b hb => by simp [h b hb]
  simp only [resolveBrl, none]

end

theorem exec_brlResolve (cl : Nat) (s : State) : exec (.brlResolve cl) s = .next (resolveBrl cl s) := rfl

theorem branches : Claims.Branches := by
  unfold Claims.Branches
  refine ⟨?br, ?brl, ?resolve⟩
  case br =>
    intro cl w s hi hz hz'
    change execBr cl w s = _
    rw [execBr, instrStep_of_inRange hi (by simp [hz, hz'])]
  case brl =>
    rintro cl w s c l a v go hi rfl hz hk rfl ha hs rfl ho hn rfl rfl
    rw [exec_brl_of_inRange hi hz hk ha hs ho]
    exact ⟨fun hw => by rw [brlEff_of_met hn hw]; rfl, fun hw => by rw [brlEff_of_pending hn hw]; exact congrArg _ (congrArg _ (State.modCore_congr rfl))⟩
  case resolve =>
    rintro cl s older b rest taken hb ho rfl
    rw [exec_brlResolve]
    exact ⟨fun hw => by rw [resolveBrl_of_met hb ho hw]; rfl, fun hw => by rw [resolveBrl_of_failed hb ho hw]⟩

/-- Settles O15: what BRL does by the wait of its latch and the BRLs before it, and which BRL resolves. -/
theorem branchesAndSpeculation : Obligations.BranchesAndSpeculation := by
  refine ⟨branches, fun cl w s => exec_brl_of_four, fun cl s h => ?_⟩
  rw [exec_brlResolve, resolveBrl_of_pending h]

end Sys2Proof.Machine
end

section
/-! SUPPORT. The operations on a latch (03 R128), and the instructions and packets that signal, poison and wait (03 R127-R134). -/

namespace Sys2Proof.Machine

open Sys2Proof.Claims

section
variable {l k : Nat} {x : Latch} {s : State}

/-- What has been satisfied is noted in cores and queues alone. -/
theorem getLatch_noteMet (l k : Nat) (s : State) : (noteMet l s).getLatch k = s.getLatch k := rfl

theorem State.getLatch_updLatch_same (g : Latch → Latch) (h : s.getLatch l = some x) : (s.updLatch l g).getLatch l = some (g x) := by
  have there : tget s.latch l = some x := h
  simp [there]

theorem State.getLatch_updLatch_other (g : Latch → Latch) (h : k ≠ l) : (s.updLatch l g).getLatch k = s.getLatch k := by
  simp only [State.updLatch_eq, State.getLatch_eq, State.onLatch_fields]
  cases tget s.latch l with
  | none => rfl
  | some v => exact tget_tset_other _ _ _ _ h

theorem getLatch_signalLatch_same (v : Word) (add : Bool) (h : s.getLatch l = some x) :
    (signalLatch l v add s).getLatch l = some (if add then x.add v else x.set v) :=
  State.getLatch_updLatch_same _ ((getLatch_noteMet l l s).trans h)

theorem getLatch_signalLatch_other (v : Word) (add : Bool) (h : k ≠ l) : (signalLatch l v add s).getLatch k = s.getLatch k :=
  (State.getLatch_updLatch_other _ h).trans (getLatch_noteMet l k s)

theorem getLatch_poisonLatch_same (h : s.getLatch l = some x) : (poisonLatch l s).getLatch l = some { x with poison := true } :=
  State.getLatch_updLatch_same _ ((getLatch_noteMet l l s).trans h)

theorem getLatch_poisonLatch_other (h : k ≠ l) : (poisonLatch l s).getLatch k = s.getLatch k :=
  (State.getLatch_updLatch_other _ h).trans (getLatch_noteMet l k s)

/-- A signal never lowers VALUE. -/
theorem Latch.value_le_set (x : Latch) (v : Word) : x.value.toNat ≤ (x.set v).value.toNat := by
  unfold Latch.set
  split
  · exact Nat.le_refl _
  · dsimp only
    split <;> omega

theorem Latch.value_le_add (x : Latch) (v : Word) : x.value.toNat ≤ (x.add v).value.toNat := by
  unfold Latch.add
  split
  · exact Nat.le_refl _
  · split
    · next fits =>
      rw [BitVec.toNat_add, Nat.mod_eq_of_lt fits]
      exact Nat.le_add_right _ _
    · exact Nat.le_refl _

theorem waitOn_of_latch (v : Word) (h : s.getLatch l = some x) :
    waitOn s l v = if x.poison then .failed else if v.toNat ≤ x.value.toNat then .met else .pending := by
  simp only [waitOn, h]

theorem waitOn_failed_iff (v : Word) (h : s.getLatch l = some x) : waitOn s l v = .failed ↔ x.poison = true := by
  rw [waitOn_of_latch v h]
  cases x.poison with
  | true => simp
  | false => by_cases hv : v.toNat ≤ x.value.toNat <;> simp [hv]

theorem waitOn_met_iff (v : Word) (h : s.getLatch l = some x) : waitOn s l v = .met ↔ x.poison = false ∧ v.toNat ≤ x.value.toNat := by
  rw [waitOn_of_latch v h]
  cases x.poison with
  | true => simp
  | false => by_cases hv : v.toNat ≤ x.value.toNat <;> simp [hv]

end

/-- Settles O17: a signal or poison changes its own latch alone, as R128's pseudocode says, and a wait reads it. -/
theorem latchOperations : Obligations.LatchOperations := by
  unfold Obligations.LatchOperations
  intro l v x s h
  refine ⟨getLatch_signalLatch_same v false h, getLatch_signalLatch_same v true h, getLatch_poisonLatch_same h, ?rises, waitOn_failed_iff v h,
    waitOn_met_iff v h, fun k hk => ⟨getLatch_signalLatch_other v false hk, getLatch_signalLatch_other v true hk, getLatch_poisonLatch_other hk⟩⟩
  case rises =>
    intro add
    cases add with
    | false => exact ⟨_, getLatch_signalLatch_same v false h, x.value_le_set v⟩
    | true => exact ⟨_, getLatch_signalLatch_same v true h, x.value_le_add v⟩

/-! The instructions. -/

section
variable {cl uid : Nat} {w : Word} {s : State}

theorem latchBad_of_owned (ho : OwnsXd cl w s) : latchBad s cl w false = none := by
  unfold OwnsXd at ho
  simp only [latchBad, ho, Bool.not_true, Bool.false_eq_true, if_false]

/-- An instruction on a latch of its context, on a confirmed path and with its reserved bits 0, has its effect. -/
theorem instrStep_of_owned {op : Nat} {eff : State → State} {resv : Bool} (hi : Issues op cl w s) (hr : resv = false) (ho : OwnsXd cl w s)
    (hb : (s.coreAt cl).brls = []) : instrStep [op] cl w (latchBad s cl w resv) true eff s = eff s := by
  rw [hr, latchBad_of_owned ho]
  exact instrStep_of_issues hi (.inr hb)

theorem exec_waitl (hi : Issues 0x50 cl w s) (hz : fld w 41 0 = 0) (ho : OwnsXd cl w s) (hb : (s.coreAt cl).brls = []) :
    exec (.waitl cl w) s = .next (match waitOn s ((s.coreAt cl).xr (iXD w)).toNat ((s.coreAt cl).xr (iXA w)) with
      | .met => goneOn cl id s
      | .failed => stopRun cl stLatchPoisoned (s.coreAt cl).pc 0 s
      | .pending => s.modCore cl (fun c =>
          { c.fallFrom c.pc with stall := some (((s.coreAt cl).xr (iXD w)).toNat, (s.coreAt cl).xr (iXA w)) })) := by
  change execWaitl cl w s = _
  rw [execWaitl, instrStep_of_owned hi (by simp [hz]) ho hb]
  rfl

theorem exec_poisl (hi : Issues 0x52 cl w s) (hz : fld w 46 0 = 0) (ho : OwnsXd cl w s) (hb : (s.coreAt cl).brls = []) :
    exec (.poisl cl w) s = .next (goneOn cl id (poisonLatch ((s.coreAt cl).xr (iXD w)).toNat s)) := by
  change execPoisl cl w s = _
  rw [execPoisl, instrStep_of_owned hi (by simp [hz]) ho hb]
  rfl

/-- The signal that a SIGL leaves waiting (03 R134). -/
def waitingSigl (s : State) (c : Core) (w : Word) : Sigl :=
  { uid := s.nextUid, env := false, latch := (c.xr (iXD w)).toNat, value := c.xr (iXA w), add := bitW w 41, deps := qmaskDeps c w }

theorem exec_sigl (hi : Issues 0x51 cl w s) (hz : fld w 35 0 = 0) (ho : OwnsXd cl w s) (hb : (s.coreAt cl).brls = []) :
    exec (.sigl cl w) s = .next (if (qmaskDeps (s.coreAt cl) w).isEmpty
      then goneOn cl id (signalLatch ((s.coreAt cl).xr (iXD w)).toNat ((s.coreAt cl).xr (iXA w)) (bitW w 41) s)
      else goneOn cl (fun c => { c with sigls := c.sigls ++ [waitingSigl s (s.coreAt cl) w] }) (s.onNextUid (fun n => n + 1))) := by
  change execSigl cl w s = _
  rw [execSigl, instrStep_of_owned hi (by simp [hz]) ho hb]
  rfl

theorem exec_siglSignal_of_due {g : Sigl} (hf : (s.coreAt cl).sigls.find? (fun x => x.uid = uid && !x.env) = some g)
    (hd : (s.coreAt cl).eq.any (fun e => g.deps.contains e.uid) = false) :
    exec (.siglSignal cl uid) s
      = .next ((signalLatch g.latch g.value g.add s).modCore cl (fun c => { c with sigls := c.sigls.filter (fun x => x.uid ≠ uid) })) := by
  change execSiglSignal cl uid s = _
  simp only [execSiglSignal, hf, hd, Bool.false_eq_true, if_false]

end

theorem latchInstructions : Claims.LatchInstructions := by
  unfold Claims.LatchInstructions
  refine ⟨fun cl w s hi hz ho hb => ?waitl, fun cl w s => exec_poisl, fun cl w s hi hz ho hb => ?sigl, fun cl uid s g => exec_siglSignal_of_due⟩
  case waitl =>
    dsimp only
    rw [exec_waitl hi hz ho hb]
    exact ⟨fun h => by rw [h], fun h => by rw [h], fun h => by rw [h]⟩
  case sigl =>
    dsimp only
    rw [exec_sigl hi hz ho hb]
    exact ⟨fun h => congrArg _ (if_pos (List.isEmpty_iff.mpr h)), fun h => congrArg _ (if_neg (mt List.isEmpty_iff.mp h))⟩

/-! HINGE, END and an OP without a meaning. -/

theorem hingeEndAndIllegalOps : Claims.HingeEndAndIllegalOps := by
  unfold Claims.HingeEndAndIllegalOps
  refine ⟨?hinge, ?endProgram, ?illegal⟩
  case hinge =>
    intro cl w s hi hz hb hd
    change execHinge cl w s = _
    simp only [execHinge, hz, ne_eq, not_true_eq_false, decide_false, badField_false, instrStep_of_issues hi (.inr hb), hd, Bool.false_eq_true, if_false]
    rfl
  case endProgram =>
    intro cl w s hi hz hb
    change execEndProgram cl w s = _
    simp only [execEndProgram, hz, ne_eq, not_true_eq_false, decide_false, badField_false, instrStep_of_issues hi (.inr hb)]
  case illegal =>
    intro cl w s hd hi hb
    change execIllegalOp cl w s = _
    simp only [execIllegalOp, hd, Bool.false_eq_true, if_false, instrStep_of_bad hi hb]
    rfl

/-- Settles O21: the latch instructions by the latch that they name, the rest by the one instruction that each is. -/
theorem latchInstructionsHingeAndEnd : Obligations.LatchInstructionsHingeAndEnd := ⟨latchInstructions, hingeEndAndIllegalOps⟩

end Sys2Proof.Machine
end

section
/-! SUPPORT. PUSH (03 R103-R106, R119, R141): the command that enters its queue. -/

namespace Sys2Proof.Machine

open Sys2Proof.Claims

theorem coreAt_modTile (s : State) (k cl : Nat) (g : Tile → Tile) : (s.modTile k g).coreAt cl = s.coreAt cl := rfl

/-- A loop whose body leaves a core alone leaves it alone. -/
theorem coreAt_forEach {α : Type} {l : List α} {f : α → State → State} {cl : Nat} (h : ∀ a s, (f a s).coreAt cl = s.coreAt cl) (s : State) :
    (forEach l f s).coreAt cl = s.coreAt cl := by
  induction l generalizing s with
  | nil => rfl
  | cons a l ih => exact (ih (f a s)).trans (h a s)

theorem coreAt_countPush_eq (cl : Nat) (stop : Word) (s : State) : ((countPush cl stop s).coreAt cl).eq = (s.coreAt cl).eq := by
  rw [countPush, State.coreAt_modCore_same]

/-- The state in which a push enters: a new number is taken, and on a confirmed path it counts (03 R141). -/
def pushCounted (cl : Nat) (stop : Word) (s : State) : State :=
  if (liveBrls s cl).isEmpty then countPush cl stop (s.onNextUid (fun n => n + 1)) else s.onNextUid (fun n => n + 1)

/-- The command that enters, speculative under the BRLs of its core that are not resolved (03 R105, R119). -/
def pushedCmd (cl pc c q r : Nat) (h : Hdr) (stop : Word) (s : State) : ECmd :=
  { uid := s.nextUid, qk := q, words := h, pc := pc, cmdIdx := ((pushCounted cl stop s).coreAt cl).pushes, run := r, ctx := c, spec := liveBrls s cl,
    stall := false, met := false, st := .queued,
    shadow := if q = 1 then pqShadow (pushCounted cl stop s) c (shadowsOf (pushCounted cl stop s) cl) h else none }

/-- The state with that command at the end of its core's commands. -/
def pushAppended (cl pc c q r : Nat) (h : Hdr) (stop : Word) (s : State) : State :=
  (pushCounted cl stop s).modCore cl (fun k => { k with eq := k.eq ++ [pushedCmd cl pc c q r h stop s] })

theorem enqueue_eq (cl pc c q r : Nat) (h : Hdr) (stop : Word) (s : State) : enqueue cl pc c q r h stop s
    = if q = 0 then forEach (bitsWhere 4 (fun i => (eTarget h).testBit i)) (fun i s => s.modTile (4 * cl + i) (noteDist (eEop h) h))
        (pushAppended cl pc c q r h stop s)
      else pushAppended cl pc c q r h stop s := rfl

theorem eq_pushCounted (cl : Nat) (stop : Word) (s : State) : ((pushCounted cl stop s).coreAt cl).eq = (s.coreAt cl).eq := by
  unfold pushCounted
  split
  · exact coreAt_countPush_eq cl stop _
  · rfl

/-- What a push into a tile queue notes of distances is no part of its core. -/
theorem eq_enqueue (cl pc c q r : Nat) (h : Hdr) (stop : Word) (s : State) :
    ((enqueue cl pc c q r h stop s).coreAt cl).eq = (s.coreAt cl).eq ++ [pushedCmd cl pc c q r h stop s] := by
  have appended : ((pushAppended cl pc c q r h stop s).coreAt cl).eq = (s.coreAt cl).eq ++ [pushedCmd cl pc c q r h stop s] := by
    rw [pushAppended, State.coreAt_modCore_same, eq_pushCounted]
  rw [enqueue_eq]
  split
  · rw [coreAt_forEach fun i z => coreAt_modTile z _ cl _, appended]
  · exact appended

/-- A push that may enter, passes the checks and finds room enters (03 R105, R106, R119, R141). -/
theorem pushEff_of_accepted {cl r : Nat} {w : Word} {s t : State} {x : Run} (hx : coreRun s cl = some (r, x))
    (hb : (s.coreAt cl).brls = [] ∨ (eShadow (pushWords s cl w) = true
      ∧ (x.stopIndex = 0 ∨ (s.coreAt cl).pushes.toNat + specPushes (s.coreAt cl) < x.stopIndex.toNat)))
    (hc : pushCheck s cl x.ctx w (pushWords s cl w) = (t, none))
    (hd : ((s.coreAt cl).eq.filter (fun e => e.qk = pQueue w)).length < queueDepth (pQueue w)) :
    pushEff cl w s = wakeUnit (pQueue w) (pushWords s cl w)
      (enqueue cl (s.coreAt cl).pc x.ctx (pQueue w) r (pushWords s cl w) x.stopIndex (goneOn cl id t)) := by
  have enters : (!(s.coreAt cl).brls.isEmpty && (!eShadow (pushWords s cl w)
      || (x.stopIndex ≠ 0 && decide (x.stopIndex.toNat ≤ (s.coreAt cl).pushes.toNat + specPushes (s.coreAt cl))))) = false := by
    rcases hb with confirmed | ⟨shadow, unlimited | before⟩
    · rw [confirmed]
      rfl
    · rw [shadow, unlimited]
      exact Bool.and_false _
    · rw [shadow, decide_eq_false (Nat.not_le.mpr before), Bool.and_false]
      exact Bool.and_false _
  simp only [pushEff, hx, enters, Bool.false_eq_true, if_false, hc, Nat.not_le.mpr hd]
  rfl

/-- Settles O16: by the push that may enter, and the queue behind it. -/
theorem pushEntersQueue : Obligations.PushEntersQueue := by
  unfold Obligations.PushEntersQueue
  rintro cl w s t r x h hi hx hb rfl hc hd
  have same : SameQueues (t.coreAt cl) ((goneOn cl id t).coreAt cl) := by
    rw [goneOn, State.coreAt_modCore_same]
    exact Core.fallFrom_sameQueues _ _
  obtain ⟨-, queued, -, -, unresolved, -, -⟩ := same
  refine ⟨?_, ?_⟩
  · change execPush cl w s = _
    rw [execPush, instrStep_of_issues hi (.inl rfl), pushEff_of_accepted hx hb hc hd]
  · refine ⟨_, (eq_enqueue ..).trans (congrArg (· ++ _) queued), rfl, rfl, rfl, rfl, rfl, ?_⟩
    exact congrArg (List.map Brl.id) unresolved

end Sys2Proof.Machine
end

section
/-! SUPPORT. The latch packets (03 R127-R133): each operation where no check of its own refuses it. -/

namespace Sys2Proof.Machine

open Sys2Proof.Claims

section
variable {l : Nat} {v : Latch} {k : Pkt} {e : Entry} {t : State}

/-- The latch that a LATCH_ALLOC takes is the first free one of the leaf that it asks for, else of the other (03 R127). -/
theorem opLatchAlloc_of_free (he : Carries e k) (h : LatchAllocOk l k t) :
    opLatchAlloc k.q e t = fin (Res.ok l) (t.putLatch l { value := BitVec.ofNat 64 k.c, poison := false, owner := k.ctx }) := by
  unfold LatchAllocOk at h
  extract_lets home first lim at h
  obtain ⟨share, free⟩ := h
  have taken : (freeLatchOn t first lim).orElse (fun _ => freeLatchOn t (1 - first) lim) = some l := by
    rcases free with one | ⟨none, other⟩
    · rw [one]
      rfl
    · rw [none, Option.orElse, other]
  unfold opLatchAlloc
  rw [he.ctx, he.hdr]
  refine (if_neg (Nat.not_le.mpr share)).trans ?_
  split
  · next none => exact absurd (none.symm.trans taken) (Option.some_ne_none l).symm
  · next l' found =>
    obtain rfl : l' = l := Option.some.inj (found.symm.trans taken)
    rfl

/-- What LATCH_READ answers of a latch of its context, on a queue that is not v3 (03 R133). -/
theorem opLatchRead_of_no_copy (he : Carries e k) (h : LatchReadOk v k t) :
    opLatchRead k.q e t = fin (Res.ok (v.value.toNat % 2 ^ 32)) t := by
  obtain ⟨there, owned, notV3, noCopy⟩ := h
  have there : t.getLatch (hA k.hdr) = some v := there
  have noCopy : hD k.hdr = 0 := noCopy
  simp only [opLatchRead, he.ctx, he.hdr, there, owned, notV3, noCopy, ne_eq, not_true_eq_false, Bool.false_and, Bool.false_eq_true, if_false, if_true]

theorem opLatchRead_of_copy {t1 : State} (he : Carries e k) (h : LatchReadCopyOk v t1 k t) :
    opLatchRead k.q e t = fin (Res.ok (v.value.toNat % 2 ^ 32)) t1 := by
  obtain ⟨there, owned, notV3, copies, written⟩ := h
  have there : t.getLatch (hA k.hdr) = some v := there
  have copies : ¬ hD k.hdr = 0 := copies
  have written : vaWrite k.ctx k.uid (hD k.hdr) (toLE v.value.toNat 8 ++ toLE (b2n v.poison) 1 ++ toLE k.ctx 2 ++ zeros 5) t = (t1, .ok) := owned ▸ written
  simp only [opLatchRead, he.ctx, he.hdr, he.uid, there, owned, notV3, copies, ne_eq, not_true_eq_false, Bool.false_and, Bool.false_eq_true, if_false,
    written]

end

/-- Settles O30: each packet by its operation, on a latch of its context. -/
theorem latchPackets : Obligations.LatchPackets := by
  unfold Obligations.LatchPackets
  refine ⟨?alloc, ?free, ?signal, ?wait, ?poison, ?read, ?copy⟩
  case alloc => exact fun l => completesOk_of_op (List.mem_of_getElem? (i := 22) rfl) fun k e t he => opLatchAlloc_of_free he
  case free =>
    refine completesOk_of_op (List.mem_of_getElem? (i := 23) rfl) fun k e t he hok => ?_
    have owned : ownsLatch t k.ctx (hA k.hdr) = true := hok
    simp only [opLatchFree, he.ctx, he.hdr, owned, Bool.not_true, Bool.false_eq_true, if_false]
    rfl
  case signal =>
    refine goesOn_of_op (List.mem_of_getElem? (i := 24) rfl) fun k e t he hok => ?_
    rw [opLatchSignal, he.ctx, he.hdr]
    exact if_pos hok
  case wait =>
    refine goesOn_of_op (List.mem_of_getElem? (i := 25) rfl) fun k e t he hok => ?_
    rw [opLatchWait, he.ctx, he.hdr]
    exact if_pos hok
  case poison =>
    refine completesOk_of_op (List.mem_of_getElem? (i := 26) rfl) fun k e t he hok => ?_
    rw [opLatchPoison, he.ctx, he.hdr]
    exact if_pos hok
  case read => exact fun v => completesOk_of_op (List.mem_of_getElem? (i := 27) rfl) fun k e t he => opLatchRead_of_no_copy he
  case copy => exact fun v t1 => completesOk_of_op (List.mem_of_getElem? (i := 27) rfl) fun k e t he => opLatchRead_of_copy he

end Sys2Proof.Machine
end

section
/-! SUPPORT. Engine commands (03 R101, R108, R109, R115, R121, R125, R134): when a command starts, waits or stops its run, and how one completes. -/

namespace Sys2Proof.Machine

open Sys2Proof.Claims

/-- What meets a gated unit or a bank set inside a burst is delayed whole (log 66). -/
theorem attempt_of_not_passes {uid : Nat} {f : State → State} {s : State} (h : ¬ Passes uid f s) : attempt uid f s = delayed uid f s := by
  have unclear : ¬ ((f (tried uid s)).acc.units.isEmpty && (f (tried uid s)).acc.banks.isEmpty) = true := by
    rwa [Bool.and_eq_true, List.isEmpty_iff, List.isEmpty_iff]
  exact if_neg unclear

/-! The start of a command. -/

section
variable {q op cl uid : Nat} {run : ECmd → State → State} {e : ECmd} {s : State}

/-- The WAIT of a command that has not been satisfied is that of its latch (03 R129). -/
theorem cmdWait_of_unmet (hn : eWaitEn e.words = true) (hm : e.met = false) : cmdWait s e = waitOn s (eWaitLatch e.words) e.words.w1 := by
  simp only [cmdWait, hn, hm, Bool.not_false, Bool.and_self, if_true]

theorem startCmd_of_pending (hf : (s.coreAt cl).eq.find? (fun x => x.uid = uid) = some e) (hw : cmdWait s e = .pending) :
    startCmd q op cl uid run s = s := by
  simp only [startCmd, hf, hw, ite_self]

/-- A speculative command whose WAIT fails neither starts nor stops its run (03 R125). -/
theorem startCmd_of_failed_speculative (hf : (s.coreAt cl).eq.find? (fun x => x.uid = uid) = some e) (hw : cmdWait s e = .failed) (hs : e.spec ≠ []) :
    startCmd q op cl uid run s = s := by
  have speculative : e.spec.isEmpty = false := Bool.eq_false_iff.mpr (mt List.isEmpty_iff.mp hs)
  simp only [startCmd, hf, hw, speculative, Bool.false_eq_true, if_false, ite_self]

theorem startCmd_of_failed (hf : (s.coreAt cl).eq.find? (fun x => x.uid = uid) = some e) (hw : cmdWait s e = .failed) (hs : e.spec = []) (hq : e.qk = q)
    (ho : eEop e.words = op) (hm : mayStart s cl e = true) : startCmd q op cl uid run s = stopRun cl stLatchPoisoned e.pc 0 (poisonEnv e s) := by
  simp only [startCmd, hf, hq, ho, hm, hw, hs, ne_eq, not_true_eq_false, decide_false, Bool.not_true, Bool.or_self, Bool.false_eq_true, if_false,
    List.isEmpty_nil, if_true]

theorem cmdWait_of_starts (h : Starts q op cl uid e s) : cmdWait s e = .met := by
  unfold cmdWait
  cases hn : eWaitEn e.words with
  | false => rfl
  | true =>
    rcases h.wait hn with met | reached
    · simp [met]
    · simp [reached]

theorem hasTurn_of_starts (h : Starts q op cl uid e s) : hasTurn s cl e = true := by
  by_cases served : q = 1 ∨ q = 3
  · exact h.turn served
  · have always : (e.qk ≠ 1 && e.qk ≠ 3) = true := by simpa [h.queue] using served
    exact if_pos always

theorem startCmd_of_starts (h : Starts q op cl uid e s) : startCmd q op cl uid run s = attempt uid (fun t => run e (begun cl e t)) s := by
  simp only [startCmd, h.found, h.queue, h.opcode, h.free, cmdWait_of_starts h, hasTurn_of_starts h, ne_eq, not_true_eq_false, decide_false, Bool.not_true,
    Bool.or_self, Bool.false_eq_true, if_false, if_true]

/-- The routine that a UCALL names is its command's (05 R202). -/
theorem ucallFn_of_starts (h : Starts q op cl uid e s) : ucallFn s cl uid = some (sFn e.words) := by
  rw [ucallFn, h.found]
  rfl

end

/-! The rows. -/

theorem exec_sillRow : ∀ r ∈ sillRows, ∀ cl uid s, exec (r.1 cl uid) s = .next (startSill r.2 cl uid s) := by
  simp only [sillRows, List.forall_mem_cons, List.not_mem_nil, false_imp_iff, implies_true, and_true]
  and_intros <;> exact fun _ _ _ => rfl

theorem exec_wicketRow : ∀ r ∈ wicketRows, ∀ cl uid s, exec (r.1 cl uid) s = .next (startWicket r.2.1 cl uid r.2.2 s) := by
  simp only [wicketRows, List.forall_mem_cons, List.not_mem_nil, false_imp_iff, implies_true, and_true]
  and_intros <;> exact fun _ _ _ => rfl

theorem exec_mullionRow : ∀ r ∈ mullionRows, ∀ cl uid s, exec (r.1 cl uid) s = .next (startColl r.2 cl uid s) := by
  simp only [mullionRows, List.forall_mem_cons, List.not_mem_nil, false_imp_iff, implies_true, and_true]
  and_intros <;> exact fun _ _ _ => rfl

/-- A row of UCALL starts its command where that names a routine of the row. -/
theorem exec_ucallRow : ∀ r ∈ ucallRows, ∀ cl uid s, exec (r.1 cl uid) s = .next (startSill 10 cl uid s) ∨ exec (r.1 cl uid) s = .next s := by
  have routine : ∀ (n cl uid : Nat) (s : State),
      (if ucallFn s cl uid = some n then startSill 10 cl uid s else s) = startSill 10 cl uid s
      ∨ (if ucallFn s cl uid = some n then startSill 10 cl uid s else s) = s := fun n cl uid s => ite_eq_or_eq _ _ _
  simp only [ucallRows, List.forall_mem_cons, List.not_mem_nil, false_imp_iff, implies_true, and_true]
  refine ⟨fun cl uid s => ?_, fun cl uid s => (routine 0 cl uid s).imp (congrArg _) (congrArg _),
    fun cl uid s => (routine 1 cl uid s).imp (congrArg _) (congrArg _), fun cl uid s => (routine 2 cl uid s).imp (congrArg _) (congrArg _)⟩
  change execUcall cl uid s = _ ∨ execUcall cl uid s = _
  unfold execUcall
  split
  · split
    · exact .inr rfl
    · exact .inl rfl
  · exact .inr rfl

/-- An engine row starts its command, but for a row of UCALL on a routine of another row. -/
theorem exec_engineRow : ∀ r ∈ engineRows, ∀ cl uid s,
    (∃ run, exec (r.1 cl uid) s = .next (startCmd r.2.1 r.2.2 cl uid run s)) ∨ r.2.2 = 10 ∧ exec (r.1 cl uid) s = .next s := by
  simp only [engineRows, List.forall_mem_append, List.forall_mem_map, List.forall_mem_cons, List.not_mem_nil, false_imp_iff, implies_true, and_true]
  refine ⟨⟨⟨⟨⟨?_, ?_, ?_, ?_, ?_⟩, ?sill⟩, ?ucall⟩, ?wicket⟩, ?mullion⟩
  case sill => exact fun r hr cl uid s => .inl ⟨_, exec_sillRow r hr cl uid s⟩
  case ucall => exact fun r hr cl uid s => (exec_ucallRow r hr cl uid s).imp (fun h => ⟨_, h⟩) (fun h => ⟨trivial, h⟩)
  case wicket => exact fun r hr cl uid s => .inl ⟨_, exec_wicketRow r hr cl uid s⟩
  case mullion => exact fun r hr cl uid s => .inl ⟨_, exec_mullionRow r hr cl uid s⟩
  all_goals exact fun cl uid s => .inl ⟨_, rfl⟩

theorem engineWaitsHold : Claims.EngineWaitsHold := by
  unfold Claims.EngineWaitsHold
  refine ⟨?waits, ?ucall, ?wicket, ?mullion, ?move⟩
  case waits =>
    intro r hr cl uid e s hf hn hm
    rw [← cmdWait_of_unmet hn hm]
    refine ⟨fun hw => ?_, fun hw hs => ?_, fun hw hs hq ho h10 hfree => ?_⟩
    · rcases exec_engineRow r hr cl uid s with ⟨run, starts⟩ | ⟨-, idle⟩
      · rw [starts, startCmd_of_pending hf hw]
      · exact idle
    · rcases exec_engineRow r hr cl uid s with ⟨run, starts⟩ | ⟨-, idle⟩
      · rw [starts, startCmd_of_failed_speculative hf hw hs]
      · exact idle
    · rcases exec_engineRow r hr cl uid s with ⟨run, starts⟩ | ⟨ucall, -⟩
      · rw [starts, startCmd_of_failed hf hw hs hq ho hfree]
      · exact absurd ucall h10
  case ucall =>
    simp only [List.forall_mem_cons, List.not_mem_nil, false_imp_iff, implies_true, and_true]
    refine ⟨fun cl uid e s hs hr hp => ?_, fun cl uid e s hs hr hp => ?_⟩
    · change execKvScore cl uid s = _
      rw [execKvScore, if_pos (hr ▸ ucallFn_of_starts hs), startSill, startCmd_of_starts hs, attempt_of_not_passes hp]
    · change execKvApply cl uid s = _
      rw [execKvApply, if_pos (hr ▸ ucallFn_of_starts hs), startSill, startCmd_of_starts hs, attempt_of_not_passes hp]
  case wicket =>
    intro r hr cl uid e s hs hp
    rw [exec_wicketRow r hr, startWicket, startCmd_of_starts hs, attempt_of_not_passes hp]
  case mullion =>
    intro r hr cl uid e s hs hp
    rw [exec_mullionRow r hr, startColl, startCmd_of_starts hs, attempt_of_not_passes hp]
  case move =>
    intro cl uid e s hs hp
    change execMove cl uid s = _
    rw [execMove, startMove, startCmd_of_starts hs, attempt_of_not_passes hp]

/-! The completion of a command. -/

/-- What a completion does with the outcome of a command (03 R101, R109, R115). -/
def finished (cl uid : Nat) (e : ECmd) (s : State) : State :=
  match outcomeOf cl e s with
  | (t, none) => t
  | (t, some o) =>
    let u := setSt cl uid (.done o.st o.addr) (drainOwned uid t)
    if o.st = stOK && owns u uid then u
    else leaveQueue cl e (if o.st = stOK && hitBad u uid then EOut.stop stEccUncorr 0 else o) false (freeBanks uid (clearBad uid u))

section
variable {cl uid : Nat} {e : ECmd} {o : EOut} {s t u v : State}

theorem exec_engineCommandCompletion (cl uid : Nat) (s : State) :
    exec (.engineCommandCompletion cl uid) s = .next (serveIdle (pumpAll (engineComplete cl uid s))) := rfl

/-- A confirmed command of a core that is not cut completes with its outcome. -/
theorem engineComplete_of_confirmed (hf : (s.coreAt cl).eq.find? (fun x => x.uid = uid) = some e) (hs : e.spec = []) (hc : (s.coreAt cl).st ≠ .cut) :
    engineComplete cl uid s = attempt uid (finished cl uid e) s := by
  simp only [engineComplete, hf, hs, hc, List.isEmpty_nil, Bool.not_true, Bool.false_and, decide_false, Bool.and_false, Bool.false_eq_true, if_false]
  rfl

/-- A speculative command waits to be confirmed (03 R121). -/
theorem engineComplete_of_speculative (hf : (s.coreAt cl).eq.find? (fun x => x.uid = uid) = some e) (hs : e.spec ≠ []) (hc : (s.coreAt cl).st ≠ .cut) :
    engineComplete cl uid s = s := by
  have speculative : e.spec.isEmpty = false := Bool.eq_false_iff.mpr (mt List.isEmpty_iff.mp hs)
  simp only [engineComplete, hf, speculative, hc, ne_eq, not_false_eq_true, decide_true, Bool.not_false, Bool.and_self, if_true]

theorem finished_of_running (ho : outcomeOf cl e s = (t, none)) : finished cl uid e s = t := by
  simp only [finished, ho]

theorem finished_of_outcome (ho : outcomeOf cl e s = (t, some o)) (hu : u = setSt cl uid (.done o.st o.addr) (drainOwned uid t))
    (hn : (o.st = stOK && owns u uid) = false) :
    finished cl uid e s
      = leaveQueue cl e (if o.st = stOK && hitBad u uid then EOut.stop stEccUncorr 0 else o) false (freeBanks uid (clearBad uid u)) := by
  subst hu
  simp only [finished, ho, hn, Bool.false_eq_true, if_false]

/-- An outcome that nothing of its queue precedes signals its latch at once (03 R109). -/
theorem leaveQueue_of_ok (hk : o.st = stOK) (hd : e.shadow = none) (hn : eSigEn e.words = true)
    (hb : ((s.coreAt cl).eq.takeWhile (fun x => x.uid ≠ e.uid)).any (fun x => x.qk = e.qk) = false) :
    leaveQueue cl e o false s = fireEnv cl (signalLatch (eSigLatch e.words) e.words.w2 (eSigAdd e.words)
      (settleWrites e.uid (handWrites e (s.modCore cl (fun c => { c with eq := c.eq.filter (fun x => x.uid ≠ e.uid) }))))) := by
  have alone : ((s.coreAt cl).eq.takeWhile (fun x => x.uid ≠ e.uid)).filterMap (fun x => if x.qk = e.qk then some x.uid else none) = [] :=
    List.filterMap_eq_nil_iff.mpr fun x hx => if_neg (by simpa using List.any_eq_false.mp hb x hx)
  simp only [leaveQueue, alone, hk, hd, envSignal, hn, decide_true, Bool.not_false, Bool.and_self, Bool.not_true, Bool.false_eq_true, if_false, if_true,
    List.isEmpty_nil]

/-- A stop leaves what the command had written undefined, poisons its latch and stops its run (03 R115; 02 R69). -/
theorem leaveQueue_of_stop (hk : o.st ≠ stOK) (hs : e.spec = [])
    (hv : v = s.modCore cl (fun c => { c with eq := c.eq.filter (fun x => x.uid ≠ e.uid) })) :
    leaveQueue cl e o false s
      = stopRun cl o.st e.pc o.addr (fireEnv cl (poisonEnv e (settleWrites e.uid (undefWrites (tgetD v.wlog e.uid []) v)))) := by
  subst hv
  simp only [leaveQueue, hk, hs, decide_false, Bool.false_and, Bool.false_eq_true, if_false, List.isEmpty_nil, Bool.not_true, Bool.or_self]

end

theorem engineCompletionSignals : Claims.EngineCompletionSignals := by
  unfold Claims.EngineCompletionSignals
  refine ⟨?ended, ?stays, ?speculative⟩
  case ended =>
    intro cl uid e o s t u v w hf hs hc ho hu hv
    obtain rfl : e.uid = uid := of_decide_eq_true (List.find?_some (p := fun x : ECmd => decide (x.uid = uid)) hf)
    have stands : ∀ {z : State}, finished cl e.uid e (tried e.uid s) = z → z.acc.units = [] → z.acc.banks = [] →
        exec (.engineCommandCompletion cl e.uid) s = .next (serveIdle (pumpAll (z.onAcc (fun _ => Reach.none)))) := by
      rintro z rfl hunits hbanks
      rw [exec_engineCommandCompletion, engineComplete_of_confirmed hf hs hc, attempt_of_passes ⟨hunits, hbanks⟩]
      rfl
    refine ⟨fun hk howns hbad hd hn hb hw => ?ok, fun hk hw => ?stop, fun hk howns hbad hw => ?ecc⟩
    case ok =>
      refine stands ?_
      have first : (((freeBanks e.uid (clearBad e.uid u)).coreAt cl).eq.takeWhile (fun x => x.uid ≠ e.uid)).any (fun x => x.qk = e.qk) = false := hb
      rw [finished_of_outcome ho hu (by rw [howns, Bool.and_false]), hbad, Bool.and_false, if_neg Bool.false_ne_true, leaveQueue_of_ok hk hd hn first, hw, hv]
    case stop =>
      refine stands ?_
      have stopped : decide (o.st = stOK) = false := decide_eq_false hk
      rw [finished_of_outcome ho hu (by rw [stopped, Bool.false_and]), stopped, Bool.false_and, if_neg Bool.false_ne_true, leaveQueue_of_stop hk hs hv, hw]
    case ecc =>
      refine stands ?_
      have hit : (o.st = stOK && hitBad u e.uid) = true := by rw [hk, hbad]; rfl
      rw [finished_of_outcome ho hu (by rw [howns, Bool.and_false]), if_pos hit, leaveQueue_of_stop (by decide) hs hv, hw]
      rfl
  case stays =>
    intro cl uid e s hf hs hc
    rw [exec_engineCommandCompletion, engineComplete_of_confirmed hf hs hc]
    refine ⟨fun t ho hunits hbanks => ?_, ?_⟩
    · have runs : finished cl uid e (tried uid s) = t := finished_of_running ho
      have passes : Passes uid (finished cl uid e) s := by
        rw [Passes, runs]
        exact ⟨hunits, hbanks⟩
      rw [attempt_of_passes passes, passed, runs]
    · rintro f rfl hp
      exact congrArg (fun z => Host.Outcome.next (serveIdle (pumpAll z))) (attempt_of_not_passes hp)
  case speculative =>
    intro cl uid e s hf hs hc
    rw [exec_engineCommandCompletion, engineComplete_of_speculative hf hs hc]

/-- Settles O23: the WAIT decides the start of a command, its outcome what its completion leaves. -/
theorem engineWaitsAndCompletions : Obligations.EngineWaitsAndCompletions := ⟨engineWaitsHold, engineCompletionSignals⟩

end Sys2Proof.Machine
end

section
/-! SUPPORT. Runs (03 R101, R113-R115, R141; 11 R421-R437): how one completes, what the arbiter starts, hinge points, saves and restores. -/

namespace Sys2Proof.Machine

open Sys2Proof.Claims

/-! The end of a run. -/

/-- A loop whose body does not look at what is noted of accesses leaves the note to whoever makes it. -/
theorem forEach_onAcc {α : Type} {l : List α} {f : α → State → State} {g : Reach → Reach} (h : ∀ a s, f a (s.onAcc g) = (f a s).onAcc g) (s : State) :
    forEach l f (s.onAcc g) = (forEach l f s).onAcc g := by
  induction l generalizing s with
  | nil => rfl
  | cons a l ih => exact (congrArg (forEach l f) (h a s)).trans (ih (f a s))

/-- Freeing a run's clusters meets nothing to wait for. -/
theorem freed_onAcc (r : Nat) (x : Run) (g : Reach → Reach) (s : State) : freed r x (s.onAcc g) = (freed r x s).onAcc g := by
  have release : releaseRun r (s.onAcc g) = (releaseRun r s).onAcc g := rfl
  unfold freed
  split
  · rw [release]
    exact forEach_onAcc (fun _ _ => rfl) _
  · exact release

section
variable {r a : Nat} {x : Run} {res : Res} {s : State}

/-- A run that ends with an outcome, or preempted, keeps what it has written (02 R69). -/
theorem endRun_of_kept (hk : x.keeper = none) (hs : (kindOf res.st = .stop || kindOf res.st = .discard) = false) :
    endRun r x res a s = completeEntry x.q x.uid res a (freed r x s) := by
  simp only [endRun, hk, hs, Bool.false_eq_true, if_false]
  rfl

/-- What a stopped run has written is undefined (02 R69). -/
theorem endRun_of_spoilt (hk : x.keeper = none) (hs : kindOf res.st = .stop ∨ kindOf res.st = .discard) :
    endRun r x res a s = completeEntry x.q x.uid res a (freed r x (spoilRun r s)) := by
  have spoils : (kindOf res.st = .stop || kindOf res.st = .discard) = true := by simpa using hs
  simp only [endRun, hk, spoils, if_true]
  rfl

/-- The Keeper's step takes the status of a run of its own (13 R485). -/
theorem endRun_of_keeper {k : Nat} (hk : x.keeper = some k) (hs : (kindOf res.st = .stop || kindOf res.st = .discard) = false) :
    endRun r x res a s = (freed r x s).modCas k (fun v =>
      if v.svc.run = some r then { v with svc := { v.svc with run := none, result := some res.st } } else v) := by
  simp only [endRun, hk, hs, Bool.false_eq_true, if_false]
  rfl

end

section
variable {r : Nat} {x : Run} {s t : State}

theorem coreFinished_iff (c : Core) : coreFinished c = true ↔ (c.st = .ended ∨ c.st = .stopped ∨ c.st = .cut) ∧ c.eq = [] ∧ c.sigls = [] := by
  simp [coreFinished, or_assoc, and_assoc]

theorem coreFinished_of_allFinished (h : AllFinished r s) : (coresOf s r).all (fun cl => coreFinished (s.coreAt cl)) = true :=
  List.all_eq_true.mpr fun cl hcl => (coreFinished_iff _).mpr (h cl hcl)

/-- A stopped run whose cores have all finished is over (03 R101, R115). -/
theorem runComplete_of_stopped {st : Nat} (hx : s.getRun r = some x) (hst : x.st = .running ∨ x.st = .preempting ∨ x.st = .saving) (hf : AllFinished r s)
    (hp : x.stop = some st) : runComplete r s = endRun r x (Res.stat st) 0 s := by
  have inProgress : (x.st = .running || x.st = .preempting || x.st = .saving) = true := by simpa [or_assoc] using hst
  simp only [runComplete, hx, inProgress, coreFinished_of_allFinished hf, hp, Bool.not_true, Bool.or_self, Bool.false_eq_true, if_false]

section
variable (hx : s.getRun r = some x) (hst : x.st = .running) (hf : AllFinished r s) (hp : x.stop = none)
include hx hst hf hp

theorem runComplete_of_ended (hi : x.stopIndex = 0) : runComplete r s = endRun r x (Res.ok x.added) 0 s := by
  have unsaved : ¬ RunSt.running = .saving := by decide
  simp only [runComplete, hx, hst, coreFinished_of_allFinished hf, hp, hi, unsaved, decide_true, Bool.true_or, Bool.not_true, Bool.or_self,
    Bool.false_eq_true, if_false, if_true]

/-- A run with a STOP_INDEX writes its dump first (03 R141). -/
theorem runComplete_of_dumped (hi : x.stopIndex ≠ 0) (hw : writeDump x s = (t, .ok)) : runComplete r s = endRun r x (Res.ok x.added) 0 t := by
  have unsaved : ¬ RunSt.running = .saving := by decide
  simp only [runComplete, hx, hst, coreFinished_of_allFinished hf, hp, hi, unsaved, hw, decide_true, Bool.true_or, Bool.not_true, Bool.or_self,
    Bool.false_eq_true, if_false]

theorem runComplete_of_dump_fault {va : Nat} (hi : x.stopIndex ≠ 0) (hw : writeDump x s = (t, .fault va)) :
    runComplete r s = endRun r x (Res.stat stPageFault) va t := by
  have unsaved : ¬ RunSt.running = .saving := by decide
  simp only [runComplete, hx, hst, coreFinished_of_allFinished hf, hp, hi, unsaved, hw, decide_true, Bool.true_or, Bool.not_true, Bool.or_self,
    Bool.false_eq_true, if_false]

end

/-- PROG_RUN_COMPLETION of a run, where its work comes to `t` and meets nothing to wait for. -/
theorem exec_progRunCompletion (hx : s.getRun r = some x) (ht : runComplete r (tried x.uid s) = t) (hc : Clear t) :
    exec (.progRunCompletion r) s = .next (pumpAll (t.onAcc (fun _ => Reach.none))) := by
  subst ht
  obtain ⟨hunits, hbanks⟩ := hc
  change execProgRunCompletion r s = _
  rw [execProgRunCompletion, hx]
  exact congrArg (fun z => Host.Outcome.next (pumpAll z)) (attempt_of_passes ⟨hunits, hbanks⟩)

end

/-- Settles O35: a completion looks at the run's stop, its STOP_INDEX and its dump, and ends the run with what they give. -/
theorem runsComplete : Obligations.RunsComplete := by
  unfold Obligations.RunsComplete
  refine ⟨?ended, ?stopped, ?keeper, ?dumped, ?faulted⟩
  case ended =>
    rintro r x s f hx hst hf hp hi hk rfl hpass
    have ends : runComplete r (tried x.uid s) = completeEntry x.q x.uid (Res.ok x.added) 0 (freed r x (tried x.uid s)) := by
      rw [runComplete_of_ended (s := tried x.uid s) hx hst hf hp hi, endRun_of_kept hk rfl]
    exact exec_progRunCompletion hx ends hpass
  case stopped =>
    rintro r st x s f hx hst hf hp hkind hk rfl hpass
    have ends : runComplete r (tried x.uid s) = completeEntry x.q x.uid (Res.stat st) 0 (freed r x (spoilRun r (tried x.uid s))) := by
      rw [runComplete_of_stopped (s := tried x.uid s) hx hst hf hp, endRun_of_spoilt hk hkind]
    exact exec_progRunCompletion hx ends hpass
  case keeper =>
    intro r k x s hx hst hf hp hi hk
    have noted : freed r x (tried x.uid s) = (freed r x s).onAcc (fun _ => { on := true, who := x.uid, units := [], banks := [] }) := freed_onAcc r x _ s
    have unnoted : freed r x { s with acc := Reach.none } = (freed r x s).onAcc (fun _ => Reach.none) := freed_onAcc r x (fun _ => Reach.none) s
    have ends : runComplete r (tried x.uid s) = ((freed r x s).onAcc (fun _ => { on := true, who := x.uid, units := [], banks := [] })).modCas k (fun v =>
        if v.svc.run = some r then { v with svc := { v.svc with run := none, result := some 0 } } else v) := by
      rw [runComplete_of_ended (s := tried x.uid s) hx hst hf hp hi, endRun_of_keeper hk rfl, noted]
      rfl
    rw [exec_progRunCompletion hx ends ⟨rfl, rfl⟩, unnoted]
    rfl
  case dumped =>
    rintro r x s t u hx hst hf hp hi hk hw rfl hc
    have ends : runComplete r (tried x.uid s) = completeEntry x.q x.uid (Res.ok x.added) 0 (freed r x t) := by
      rw [runComplete_of_dumped (s := tried x.uid s) hx hst hf hp hi hw, endRun_of_kept hk rfl]
    exact exec_progRunCompletion hx ends hc
  case faulted =>
    rintro r va x s t u hx hst hf hp hi hk hw rfl hc
    have ends : runComplete r (tried x.uid s) = completeEntry x.q x.uid (Res.stat stPageFault) va (freed r x (spoilRun r t)) := by
      rw [runComplete_of_dump_fault (s := tried x.uid s) hx hst hf hp hi hw, endRun_of_spoilt hk (.inl rfl)]
    exact exec_progRunCompletion hx ends hc

/-! The arbiter. -/

section
variable {r : Nat} {x : Run} {s : State}

theorem clocked_of_clocks_run (hr : s.dev.inReset = false) (hc : s.dev.clockStop = false) : clocked s = true := by
  simp only [clocked, hr, hc, Bool.not_false, Bool.and_self]

theorem exec_runStart_of_next (hr : s.dev.inReset = false) (hc : s.dev.clockStop = false) (hn : nextRun s = some (r, x)) :
    exec .runStart s = .next (pumpAll (if x.st = .saved then resumeRun r x s else startRun r x s)) := by
  change execRunStart s = _
  simp only [execRunStart, clocked_of_clocks_run hr hc, hn, Bool.not_true, Bool.false_eq_true, if_false]

/-- A run that waits alone, and may start, is next (11 R422). -/
theorem nextRun_of_alone (hs : startable s x = true) (ha : ∀ e ∈ waitingRuns s, e = (r, x)) (hn : waitingRuns s ≠ []) : nextRun s = some (r, x) := by
  cases hw : waitingRuns s with
  | nil => exact absurd hw hn
  | cons f rest =>
    obtain rfl : f = (r, x) := ha f (hw ▸ List.mem_cons_self)
    simp only [nextRun, hw, hs, if_true]

theorem requestPreempt_of_running (hx : s.getRun r = some x) (hst : x.st = .running) :
    requestPreempt r s = (forEach (coresOf s r) (fun cl t => t.modCore cl (fun c => if c.st = .running then { c with stopReq := true } else c)) s).updRun r
      (fun y => { y with st := .preempting }) := by
  simp only [requestPreempt, hx, hst, ne_eq, not_true_eq_false, if_false]

theorem migDone_of_moving {c : Nat} {v : Ctx} {m : Mig} (hv : s.getCtx c = some v) (hm : v.mig = some m) :
    migDone c s = completeEntry m.q m.uid (Res.ok m.result) 0 (s.updCtx c (fun y => { y with mig := none, retired := [] })) := by
  simp only [migDone, hv, hm]

end

theorem arbiterEvents : Claims.ArbiterEvents := by
  unfold Claims.ArbiterEvents
  refine ⟨fun r x s hr hc hn hst => ?starts, fun r x s hr hc hn hst => ?resumes, fun r x s => nextRun_of_alone, fun r x s hx hst hb => ?quantum,
    fun c x m s hx hm hmoved => ?drained⟩
  case starts => rw [exec_runStart_of_next hr hc hn, hst, if_neg (by decide)]
  case resumes => rw [exec_runStart_of_next hr hc hn, hst, if_pos rfl]
  case quantum =>
    change execQuantumExpiry r s = _
    rw [execQuantumExpiry, if_pos hb, requestPreempt_of_running hx hst]
  case drained =>
    change execMigrationDrainTimeout c s = _
    simp only [execMigrationDrainTimeout, hx, hm, hmoved, if_true, migDone_of_moving hx hm]
    rfl

/-! Hinge points, saves and restores. -/

section
variable {r cl base : Nat} {x : Run} {v : Ctx} {s : State}

/-- Every core of a run that is to be preempted has stopped, and not all of them have ended (11 R424). -/
structure AtHinge (r : Nat) (x : Run) (s : State) : Prop where
  run     : s.getRun r = some x
  asked   : x.st = .preempting
  going   : x.stop = none
  stopped : (coresOf s r).all (fun cl => coreAtHinge (s.coreAt cl)) = true
  unended : (coresOf s r).all (fun cl => coreFinished (s.coreAt cl)) = false

/-- A run that may be saved begins its save (11 R424, R425). -/
theorem hingeReached_of_saved (h : AtHinge r x s) (hv : s.getCtx x.ctx = some v) (hn : x.noSave = false) (hs : v.shutter.isSome = true) :
    hingeReached r s = (saveArmed r x true s).updRun r (fun y => { y with st := .saving }) := by
  obtain ⟨hx, hst, hp, hall, hend⟩ := h
  simp only [hingeReached, hx, hst, hp, hall, hend, hv, hn, hs, ne_eq, not_true_eq_false, decide_false, Option.isSome_none, Bool.not_true, Bool.not_false,
    Bool.and_self, Bool.or_self, Bool.false_eq_true, if_false]

/-- Any other ends PREEMPTED (11 R429). -/
theorem hingeReached_of_unsaved (h : AtHinge r x s) (hv : s.getCtx x.ctx = some v) (hn : x.noSave = true ∨ v.shutter = none) :
    hingeReached r s = endRun r x (Res.stat stPreempted) 0 (saveArmed r x false s) := by
  obtain ⟨hx, hst, hp, hall, hend⟩ := h
  have unkept : (!x.noSave && v.shutter.isSome) = false := by
    rcases hn with noSave | noArea
    · rw [noSave]
      rfl
    · rw [noArea]
      exact Bool.and_false _
  simp only [hingeReached, hx, hst, hp, hall, hend, hv, unkept, ne_eq, not_true_eq_false, decide_false, Option.isSome_none, Bool.not_true, Bool.not_false,
    Bool.or_self, Bool.false_eq_true, if_false, if_true]

theorem exec_hingePointReached (r : Nat) (s : State) : exec (.hingePointReached r) s = .next (pumpAll (hingeReached r s)) := rfl

/-- A request whose hinge point is not reached is noted once (03 R114). -/
theorem exec_hingeLate_of_unreached (hq : (s.coreAt cl).stopReq = true) (hl : (s.coreAt cl).late = false) (he : (s.coreAt cl).st ≠ .ended)
    (hh : coreAtHinge (s.coreAt cl) = false) :
    exec (.hingeLate cl) s = .next ((logSkip cl (s.coreAt cl).pc 0x20 noInfo (s.coreAt cl).pushes (clTime s cl) s).modCore cl
      (fun c => { c with late := true })) := by
  change execHingeLate cl s = _
  simp only [execHingeLate, hq, hl, he, hh, decide_false, Bool.not_false, Bool.and_self, if_true]
  rfl

/-- The state in which a cluster of run `x` is saved in its record, and released (11 R425). -/
def spilled (r cl : Nat) (x : Run) (p : ShutPart) (bs : BitVec 64) (base : Nat) (s : State) : State :=
  ((writeRec p bs base cl (reachPart p bs s)).putSaved (x.ctx * 128 + (s.coreAt cl).logical)
    { run := r, core := { s.coreAt cl with stopReq := false, late := false } }).modCore cl (fun c => { Core.init with lastCtx := c.lastCtx, live := none })

/-- With its last cluster the run is saved whole. -/
theorem spillCluster_of_place {p : ShutPart} {bs : BitVec 64} (hx : s.getRun r = some x) (hp : shutPlace s x.ctx (s.coreAt cl).logical = some (p, bs, base)) :
    spillCluster r cl s
      = if (coresOf (spilled r cl x p bs base s) r).isEmpty then
          ((spilled r cl x p bs base s).onNextUid (fun n => n + 1)).updRun r
            (fun y => { y with st := .saved, order := (spilled r cl x p bs base s).nextUid })
        else spilled r cl x p bs base s := by
  simp only [spillCluster, hx, hp]
  rfl

theorem getSaved_spilled (p : ShutPart) (bs : BitVec 64) : (spilled r cl x p bs base s).getSaved (x.ctx * 128 + (s.coreAt cl).logical)
    = some { run := r, core := { s.coreAt cl with stopReq := false, late := false } } := tget_tset_same _ _ _

theorem stackMem_spilled (p : ShutPart) (bs : BitVec 64) :
    (spilled r cl x p bs base s).stackMem = (writeRec p bs base cl (reachPart p bs s)).stackMem := by
  simp only [spilled, State.modCore_eq, State.onCore_fields, State.putSaved_eq, State.onSaved_fields]

theorem spillCluster_saves {p : ShutPart} {bs : BitVec 64} (hx : s.getRun r = some x) (hp : shutPlace s x.ctx (s.coreAt cl).logical = some (p, bs, base)) :
    (spillCluster r cl s).getSaved (x.ctx * 128 + (s.coreAt cl).logical) = some { run := r, core := { s.coreAt cl with stopReq := false, late := false } }
    ∧ (spillCluster r cl s).stackMem = (writeRec p bs base cl (reachPart p bs s)).stackMem := by
  have kept : ∀ t : State, ((t.onNextUid (fun n => n + 1)).updRun r (fun y => { y with st := .saved, order := t.nextUid })).getSaved = t.getSaved
      ∧ ((t.onNextUid (fun n => n + 1)).updRun r (fun y => { y with st := .saved, order := t.nextUid })).stackMem = t.stackMem := fun _ => ⟨rfl, rfl⟩
  rw [spillCluster_of_place hx hp]
  split
  · rw [(kept _).1, (kept _).2]
    exact ⟨getSaved_spilled p bs, stackMem_spilled p bs⟩
  · exact ⟨getSaved_spilled p bs, stackMem_spilled p bs⟩

end

theorem preemptionEvents : Claims.PreemptionEvents := by
  unfold Claims.PreemptionEvents
  refine ⟨?hinge, fun cl s => exec_hingeLate_of_unreached, ?save, fun r cl base x p bs s => spillCluster_saves, ?restore⟩
  case hinge =>
    intro r x v s hx hst hp hall hend hv
    have atHinge : AtHinge r x s := ⟨hx, hst, hp, hall, hend⟩
    rw [exec_hingePointReached]
    refine ⟨fun hn hs => ?_, fun hn hk => ?_⟩
    · rw [hingeReached_of_saved atHinge hv hn hs]
    · rw [hingeReached_of_unsaved atHinge hv hn, endRun_of_kept hk rfl]
      rfl
  case save =>
    intro r cl x s hx hst hp hrun hpass
    have saves : (x.st = .saving && x.stop.isNone && (s.coreAt cl).run = some r) = true := by
      simp only [hst, hp, hrun, decide_true, Option.isNone_none, Bool.and_self]
    change execShutterSave r cl s = _
    simp only [execShutterSave, hx, saves, if_true, attempt_of_passes hpass]
  case restore =>
    intro r x s hx hst hr hc hpass
    change execRunRestore r s = _
    simp only [execRunRestore, hx, hst, clocked_of_clocks_run hr hc, decide_true, Bool.and_self, if_true, attempt_of_passes hpass]

/-- Settles O36: the arbiter by the run that is next, preemption by the cores that have stopped and the records that are written. -/
theorem arbitrationAndPreemption : Obligations.ArbitrationAndPreemption := ⟨arbiterEvents, preemptionEvents⟩

end Sys2Proof.Machine
end

section
/-! SUPPORT. Tile commands (04 R147-R149): what MMA, DRAIN and TNOP do as they start, and what an issue changes on its tile. -/

namespace Sys2Proof.Machine

open Sys2Proof.Claims

theorem State.tileAt_modTile_same (s : State) (k : Nat) (g : Tile → Tile) : (s.modTile k g).tileAt k = g (s.tileAt k) := by
  simp [tgetD]

theorem State.tileAt_modTile_other (s : State) {k j : Nat} (g : Tile → Tile) (h : j ≠ k) : (s.modTile k g).tileAt j = s.tileAt j := by
  simp [tgetD, tget_tset_other _ k j _ h]

/-- What does not look at the note of accesses meets nothing to wait for: it is done at once. -/
theorem attempt_of_ignores_acc {uid : Nat} {f : State → State} (h : ∀ g t, f (t.onAcc g) = (f t).onAcc g) (s : State) :
    attempt uid f s = f (s.onAcc (fun _ => Reach.none)) := by
  have noted : f (tried uid s) = (f s).onAcc (fun _ => { on := true, who := uid, units := [], banks := [] }) := h _ s
  have passes : Passes uid f s := by
    rw [Passes, noted]
    exact ⟨rfl, rfl⟩
  rw [attempt_of_passes passes, passed, noted, h]
  rfl

section
variable {op cl uid : Nat} {e : ECmd} {s : State}

/-- The state of a command does not bear on the run of its core. -/
theorem coreRun_setSt (cl uid : Nat) (st : EcSt) (s : State) : coreRun (setSt cl uid st s) cl = coreRun s cl := by
  have sameRun : ((setSt cl uid st s).coreAt cl).run = (s.coreAt cl).run := by rw [setSt, State.coreAt_modCore_same]
  rw [coreRun, sameRun]
  rfl

/-- A tile command is in no engine's turn: its start changes its own state alone. -/
theorem begun_of_tile_queue (hq : e.qk = 0) : begun cl e s = setSt cl e.uid .running s := by
  simp [begun, hq]

/-- An issue reaches no unit that could be gated and no bank set. -/
theorem tileCmd_onAcc (op cl : Nat) (e : ECmd) (g : Reach → Reach) (s : State) : tileCmd op cl e (s.onAcc g) = (tileCmd op cl e s).onAcc g :=
  forEach_onAcc (fun _ _ => rfl) s

/-- A tile command that can start issues on each tile of its mask (04 R147). -/
theorem startTile_of_starts (h : Starts 0 op cl uid e s) :
    startTile op cl uid s = forEach (tilesOf cl e)
      (fun tl t => tileIssue tl uid op e.ctx e.words (match coreRun s cl with | some (_, x) => x.watch | none => false) t)
      (setSt cl uid .running (s.onAcc (fun _ => Reach.none))) := by
  obtain rfl : e.uid = uid := of_decide_eq_true (List.find?_some (p := fun x : ECmd => decide (x.uid = uid)) h.found)
  have ignoresAcc : ∀ g t, tileCmd op cl e (setSt cl e.uid .running (t.onAcc g)) = (tileCmd op cl e (setSt cl e.uid .running t)).onAcc g :=
    fun g t => tileCmd_onAcc op cl e g (setSt cl e.uid .running t)
  rw [startTile, startCmd_of_starts h]
  simp only [begun_of_tile_queue h.queue]
  rw [attempt_of_ignores_acc ignoresAcc, tileCmd, coreRun_setSt]
  rfl

end

/-- Settles O18: a start issues on the tiles of the mask, and an issue adds one command to its tile's own. -/
theorem tileCommandsIssue : Obligations.TileCommandsIssue := by
  unfold Obligations.TileCommandsIssue
  refine ⟨?starts, fun tl uid op ctx h watch s => ?issues⟩
  case starts =>
    simp only [List.forall_mem_cons, List.not_mem_nil, false_imp_iff, implies_true, and_true]
    refine ⟨fun cl uid e s hs => ?mma, fun cl uid e s hs => ?drain, fun cl uid e s hs => ?tnop⟩
    all_goals exact congrArg Host.Outcome.next (startTile_of_starts hs)
  case issues =>
    refine ⟨?last, ?flight, fun k hk => State.tileAt_modTile_other s _ hk⟩
    case last =>
      rw [tileIssue, State.tileAt_modTile_same]
      rfl
    case flight =>
      rw [tileIssue, State.tileAt_modTile_same]
      exact ⟨_, rfl, rfl, rfl, rfl, rfl, rfl, rfl, rfl⟩

end Sys2Proof.Machine
end

section
/-! SUPPORT. Sill commands (05 R183-R204; 06 R249-R253): which rows start one, and what it does where nothing stops it and where something does. -/

namespace Sys2Proof.Machine

open Sys2Proof.Claims

section
variable {op cl uid : Nat} {a : Alloc} {e : ECmd} {o : EOut} {s t : State}

/-- A Sill command that can start does what it does at once where it meets nothing to wait for. -/
theorem startSill_of_passes (h : Starts 2 op cl uid e s) (hp : Passes uid (fun t => sillCmd cl e (begun cl e t)) s) :
    startSill op cl uid s = passed uid (fun t => sillCmd cl e (begun cl e t)) s := by
  rw [startSill, startCmd_of_starts h, attempt_of_passes hp]

/-- A row of UCALL starts a command that names a routine of the row (05 R202, 06 R249). -/
theorem exec_ucallRow_of_routine (h : Starts 2 10 cl uid e s) :
    ∀ r ∈ ucallRows, r.2 (sFn e.words) = true → exec (r.1 cl uid) s = .next (startSill 10 cl uid s) := by
  have named : ucallFn s cl uid = some (sFn e.words) := ucallFn_of_starts h
  simp only [ucallRows, List.forall_mem_cons, List.not_mem_nil, false_imp_iff, implies_true, and_true, decide_eq_true_eq]
  refine ⟨fun other => ?ucall, fun score => ?kvScore, fun apply => ?kvApply, fun merge => ?smxMerge⟩
  case ucall =>
    change execUcall cl uid s = _
    simp only [execUcall, named, if_neg (Nat.not_le.mpr other)]
  case kvScore => exact congrArg _ (if_pos (score ▸ named))
  case kvApply => exact congrArg _ (if_pos (apply ▸ named))
  case smxMerge => exact congrArg _ (if_pos (merge ▸ named))

/-! The effect of a command, in its stripe or without one. -/

theorem sillEnv_of_stripe (going : Bool) (ha : stripeOf s e.ctx (sStripe e.words) = some a) :
    sillEnv s e going = some { ctx := e.ctx, uid := e.uid, a := a, stack := eTarget e.words, going := going } := by
  rw [sillEnv, ha]
  rfl

theorem sillEnv_of_no_stripe (going : Bool) (ha : stripeOf s e.ctx (sStripe e.words) = none) : sillEnv s e going = none := by
  rw [sillEnv, ha]
  rfl

/-- Where nothing stops the command its bank sets enter a burst, one in a refresh when that ends (05 R204). -/
theorem sillCmd_of_started (ha : stripeOf s e.ctx (sStripe e.words) = some a)
    (hs : sillStart { ctx := e.ctx, uid := e.uid, a := a, stack := eTarget e.words, going := false } e.words e.run
      (forEach (sillUnits e) (claimUnit e.ctx) s) = (t, none)) :
    sillCmd cl e s = forEach (sillUnits e)
      (fun u x => x.modBank u (fun b => { b with busy := some e.uid, burst := !b.refresh, prog := 0, old := [] })) t := by
  simp only [sillCmd, sillEnv_of_stripe false ha, hs]

theorem sillCmd_of_stopped (ha : stripeOf s e.ctx (sStripe e.words) = some a)
    (hs : sillStart { ctx := e.ctx, uid := e.uid, a := a, stack := eTarget e.words, going := false } e.words e.run
      (forEach (sillUnits e) (claimUnit e.ctx) s) = (t, some o)) :
    sillCmd cl e s = endCmd cl e.uid o t := by
  simp only [sillCmd, sillEnv_of_stripe false ha, hs]

theorem sillCmd_of_no_stripe (ha : stripeOf s e.ctx (sStripe e.words) = none) :
    sillCmd cl e s = endCmd cl e.uid (EOut.stop stPageFault 0) s := by
  simp only [sillCmd, sillEnv_of_no_stripe false ha]

end

/-- Settles O19: a row starts its command, whose effect is by its stripe and by what its start answers. -/
theorem sillCommands : Obligations.SillCommands := by
  unfold Obligations.SillCommands
  refine ⟨fun r hr cl uid e s hs hp => ?rows, fun r hr cl uid e s hs hf hp => ?ucall, fun cl e a s t => sillCmd_of_started,
    fun cl e a o s t => sillCmd_of_stopped, fun cl e s => sillCmd_of_no_stripe⟩
  case rows => rw [exec_sillRow r hr, startSill_of_passes hs hp]
  case ucall => rw [exec_ucallRow_of_routine hs r hr hf, startSill_of_passes hs hp]

end Sys2Proof.Machine
end

section
/-! SUPPORT. Bank sets (05 R204-R214): one equation for each outcome of a refresh event and of a yield. -/

namespace Sys2Proof.Machine

/-! Changes of a bank set. -/

/-- Of two writes to one entry the last stands. -/
theorem tset_tset_same {α : Type} (t : Tbl α) (k : Nat) (v w : α) : tset (tset t k v) k w = tset t k w := by
  induction t with
  | nil => simp [tset]
  | cons e t ih =>
    obtain ⟨j, u⟩ := e
    rcases Nat.lt_trichotomy k j with before | rfl | after
    · simp [tset, before]
    · simp [tset]
    · simp [tset, Nat.lt_asymm after, Nat.ne_of_gt after, ih]

/-- A change of a bank set is what it makes of that bank set as it stands. -/
theorem State.modBank_congr {s : State} {k : Nat} {g g' : Bank → Bank} (h : g (s.bankAt k) = g' (s.bankAt k)) : s.modBank k g = s.modBank k g' :=
  congrArg (fun b => s.onBank (fun t => tset t k b)) h

/-- Two changes of one bank set are one. -/
theorem State.modBank_modBank (s : State) (k : Nat) (g g' : Bank → Bank) : (s.modBank k g).modBank k g' = s.modBank k (fun b => g' (g b)) := by
  simp [State.onBank, tgetD, tset_tset_same]

/-! Refresh (05 R211, R212, R214). -/

section
variable {st bs u : Nat} {s : State}

/-- A gated stack refreshes itself (05 R214). -/
theorem exec_refreshDue_of_gated (hg : s.gated.contains (.stack st) = true) : exec (.refreshDue st bs) s = .next s :=
  congrArg _ (if_pos hg)

theorem exec_refreshDue_of_awake (hg : s.gated.contains (.stack st) = false) :
    exec (.refreshDue st bs) s
      = .next (s.modBank (unitNo st bs) (fun b => if b.debt < 8 then { b with debt := b.debt + 1 } else { b with forced := true })) :=
  congrArg _ (if_neg (ne_true_of_eq_false hg))

theorem exec_forcedRefresh_of_forced (hf : (s.bankAt (unitNo st bs)).forced = true) (hr : (s.bankAt (unitNo st bs)).refresh = false) :
    exec (.forcedRefresh st bs) s = .next (startRefresh (unitNo st bs) s) := by
  have due : ((s.bankAt (unitNo st bs)).forced && !(s.bankAt (unitNo st bs)).refresh) = true := by rw [hf, hr]; rfl
  exact congrArg _ (if_pos due)

/-- A bank set that owes a refresh and has nothing to do pays one (05 R211). -/
theorem exec_opportunisticRefresh_of_free (hb : (s.bankAt (unitNo st bs)).burst = false) (hr : (s.bankAt (unitNo st bs)).refresh = false)
    (hw : waitsAt s (unitNo st bs) = false) (hd : 0 < (s.bankAt (unitNo st bs)).debt) (hg : s.gated.contains (.stack st) = false) :
    exec (.opportunisticRefresh st bs) s
      = .next (startRefresh (unitNo st bs) (s.modBank (unitNo st bs) (fun b => { b with debt := b.debt - 1 }))) := by
  have owes : decide ((s.bankAt (unitNo st bs)).debt = 0) = false := decide_eq_false (Nat.ne_of_gt hd)
  change execOpportunisticRefresh st bs s = _
  simp only [execOpportunisticRefresh, hb, hr, hw, owes, hg, Bool.or_self, Bool.false_eq_true, if_false]

theorem exec_refreshComplete (st bs : Nat) (s : State) : exec (.refreshComplete st bs) s = .next (pumpAll (refreshDone (st * 64 + bs) s)) := rfl

theorem refreshDone_of_busy (hr : (s.bankAt u).refresh = true) (hb : (s.bankAt u).busy.isSome = true) :
    refreshDone u s = yieldServe u (rowsLand u s) := by
  simp only [refreshDone, hr, hb, Bool.not_true, Bool.false_eq_true, if_false, if_true]

theorem refreshDone_of_idle (hr : (s.bankAt u).refresh = true) (hb : (s.bankAt u).busy = none) :
    refreshDone u s = serveIdle (s.modBank u (fun b => { b with refresh := false })) := by
  simp only [refreshDone, hr, hb, Bool.not_true, Option.isSome_none, Bool.false_eq_true, if_false]

end

theorem refreshOfABankSet : Claims.RefreshOfABankSet := by
  unfold Claims.RefreshOfABankSet
  refine fun st bs s => ⟨fun hg hd => ?owed, fun hg hd => ?forces, exec_refreshDue_of_gated, exec_forcedRefresh_of_forced,
    fun hb hr hw hd hg => ?pays, fun hr hb => ?resumes, fun hr hb => ?served⟩
  case owed =>
    rw [exec_refreshDue_of_awake hg]
    exact congrArg _ (State.modBank_congr (if_pos hd))
  case forces =>
    rw [exec_refreshDue_of_awake hg]
    exact congrArg _ (State.modBank_congr (if_neg (Nat.not_lt.mpr hd.ge)))
  case pays =>
    rw [exec_opportunisticRefresh_of_free hb hr hw hd hg, startRefresh, State.modBank_modBank]
    rfl
  case resumes =>
    rw [exec_refreshComplete, refreshDone_of_busy hr hb]
  case served =>
    rw [exec_refreshComplete, refreshDone_of_idle hr hb]

/-! Yields (05 R204, R205, R208). -/

section
variable {u : Nat} {s : State}

theorem exec_burstYield (st bs : Nat) (s : State) : exec (.burstYield st bs) s = .next (pumpAll (burstYield (st * 64 + bs) s)) := rfl

theorem burstYield_of_forced (hb : (s.bankAt u).burst = true) (hf : ((rowsLand u s).bankAt u).forced = true) :
    burstYield u s = startRefresh u (rowsLand u s) := by
  simp only [burstYield, hb, hf, Bool.not_true, Bool.false_eq_true, if_false, if_true]

theorem burstYield_of_unforced (hb : (s.bankAt u).burst = true) (hf : ((rowsLand u s).bankAt u).forced = false) :
    burstYield u s = yieldServe u (rowsLand u s) := by
  simp only [burstYield, hb, hf, Bool.not_true, Bool.false_eq_true, if_false]

end

theorem burstYields : Claims.BurstYields := by
  unfold Claims.BurstYields
  intro st bs s t
  dsimp only
  rintro hb rfl
  refine ⟨fun hf => ?forced, fun hf => ?served, fun n => rfl⟩
  case forced =>
    rw [exec_burstYield, burstYield_of_forced hb hf]
    rfl
  case served =>
    rw [exec_burstYield, burstYield_of_unforced hb hf]
    rfl

/-- Settles O39: a refresh event by the bank set as it stands, a yield by whether a refresh is forced. -/
theorem bankSetArbitration : Obligations.BankSetArbitration := ⟨refreshOfABankSet, burstYields⟩

end Sys2Proof.Machine
end

section
/-! SUPPORT. The refresh interval of a stack (05 R213): the three ranges of its hottest DRAM die. -/

namespace Sys2Proof.Machine

theorem getLsbD_setBit_same {w i : Nat} (m : BitVec w) (b : Bool) (h : i < w) : (setBit m i b).getLsbD i = b := by
  cases b <;> simp [setBit, h]

theorem getLsbD_setBit_other {w i k : Nat} (m : BitVec w) (b : Bool) (h : k ≠ i) : (setBit m i b).getLsbD k = m.getLsbD k := by
  cases b with
  | true => simp [setBit, BitVec.getLsbD_twoPow, h.symm]
  | false =>
    rw [setBit, if_neg Bool.false_ne_true, BitVec.getLsbD_and, BitVec.getLsbD_not, BitVec.getLsbD_twoPow, decide_eq_false h.symm, Bool.and_false,
      Bool.not_false, Bool.and_true]
    exact Bool.and_eq_left_iff_imp.mpr fun there => decide_eq_true (BitVec.lt_of_getLsbD there)

section
variable {st : Nat} {s : State}

theorem refreshRate_of_hot (h : 4 * 85 < dramMax s st) :
    refreshRate st s = s.onTherm (fun t => { t with ref2x := setBit t.ref2x st true }) := if_pos h

theorem refreshRate_of_cool (h : dramMax s st ≤ 4 * 82) :
    refreshRate st s = s.onTherm (fun t => { t with ref2x := setBit t.ref2x st false }) :=
  (if_neg (by omega)).trans (if_pos h)

/-- Between the two the interval stays as it was (05 R213). -/
theorem refreshRate_of_between (hlo : 4 * 82 < dramMax s st) (hhi : dramMax s st ≤ 4 * 85) : refreshRate st s = s :=
  (if_neg (Int.not_lt.mpr hhi)).trans (if_neg (Int.not_le.mpr hlo))

/-- A new interval is one bit of the map, that of its stack. -/
theorem refreshRate_eq_self_or_setBit (st : Nat) (s : State) :
    refreshRate st s = s ∨ ∃ b, refreshRate st s = s.onTherm (fun t => { t with ref2x := setBit t.ref2x st b }) := by
  rcases lt_or_ge (4 * 85) (dramMax s st) with hot | notHot
  · exact .inr ⟨true, refreshRate_of_hot hot⟩
  · rcases lt_or_ge (4 * 82) (dramMax s st) with between | cool
    · exact .inl (refreshRate_of_between between notHot)
    · exact .inr ⟨false, refreshRate_of_cool cool⟩

end

/-- Settles O41: by the three ranges, and by the one bit that a new interval changes. -/
theorem refreshIntervalFollowsTheHottestDie : Obligations.RefreshIntervalFollowsTheHottestDie := by
  unfold Obligations.RefreshIntervalFollowsTheHottestDie
  refine fun st s hst => ⟨fun hot => ?halves, fun cool => ?returns, refreshRate_of_between, fun k hk => ?others⟩
  case halves =>
    rw [refreshRate_of_hot hot]
    exact getLsbD_setBit_same _ true hst
  case returns =>
    rw [refreshRate_of_cool cool]
    exact getLsbD_setBit_same _ false hst
  case others =>
    rcases refreshRate_eq_self_or_setBit st s with unchanged | ⟨b, changed⟩
    · rw [unchanged]
    · rw [changed]
      exact getLsbD_setBit_other _ b hk

end Sys2Proof.Machine
end

section
/-! SUPPORT. What a write to memory leaves alone (09 R320-R340): every part of the state but the memories, their error state and logs, the Letterbox and
merge buffers, the armed areas, the wakes, and the notes taken of the write. -/

namespace Sys2Proof.Machine

variable {α : Type} {π : State → α}

/-- A part of the state that none of the primitive changes of which a write is made touches. -/
structure UntouchedByWrites (π : State → α) : Prop where
  freeCtr  : ∀ s g, π (s.onFreeCtr g) = π s
  pin      : ∀ s g, π (s.onPin g) = π s
  out      : ∀ s g, π (s.onOut g) = π s
  armed    : ∀ s g, π (s.onArmed g) = π s
  stackMem : ∀ s g, π (s.onStackMem g) = π s
  health   : ∀ s g, π (s.onHealth g) = π s
  lb       : ∀ s g, π (s.onLb g) = π s
  ecc      : ∀ s g, π (s.onEcc g) = π s
  eccReg   : ∀ s g, π (s.onEccReg g) = π s
  farMem   : ∀ s g, π (s.onFarMem g) = π s
  farBad   : ∀ s g, π (s.onFarBad g) = π s
  hostMem  : ∀ s g, π (s.onHostMem g) = π s
  seq      : ∀ s g, π (s.onSeq g) = π s
  wlog     : ∀ s g, π (s.onWlog g) = π s
  wake     : ∀ s g, π (s.onWake g) = π s
  acc      : ∀ s g, π (s.onAcc g) = π s

/-- A loop whose body leaves a part of the state alone leaves it alone. -/
theorem forEach_untouched {β : Type} {f : β → State → State} (h : ∀ b s, π (f b s) = π s) (l : List β) (s : State) : π (forEach l f s) = π s := by
  induction l generalizing s with
  | nil => rfl
  | cons b l ih => exact (ih (f b s)).trans (h b s)

theorem ite_untouched {c : Prop} [Decidable c] {a b s : State} (ha : π a = π s) (hb : π b = π s) : π (if c then a else b) = π s := by
  split
  · exact ha
  · exact hb

section
variable (h : UntouchedByWrites π)
include h

/-! Corrections and uncorrectable words (09 R340-R344). -/

theorem eccIrq_untouched (s : State) : π (eccIrq s) = π s := by
  have message : ∀ f s, π (if (State.fnAt s f).eccEn then msix f (State.fnAt s f).eccVec s else s) = π s := fun _ _ => ite_untouched (h.out _ _) rfl
  exact (message 17 _).trans (message 0 s)

theorem setUe_untouched (st : Nat) (s : State) : π (setUe st s) = π s := ite_untouched (h.eccReg _ _) ((h.pin _ _).trans (h.eccReg _ _))

theorem setCeOvf_untouched (st : Nat) (s : State) : π (setCeOvf st s) = π s := ite_untouched (h.eccReg _ _) ((h.pin _ _).trans (h.eccReg _ _))

theorem modEcc_untouched (k : Nat) (g : EccStack → EccStack) (s : State) : π (s.modEcc k g) = π s := h.ecc _ _

theorem logUe_untouched (src a : Nat) (s : State) : π (logUe src a s) = π s :=
  ite_untouched rfl ((eccIrq_untouched h _).trans ((setUe_untouched h _ _).trans (modEcc_untouched h _ _ s)))

theorem bucketAdd_untouched (t : Nat) (s : State) : π (bucketAdd t s) = π s := by
  have emptied : π (s.modEcc t (fun e => { e with level := 0 })) = π s := modEcc_untouched h _ _ s
  exact ite_untouched (modEcc_untouched h _ _ s) (ite_untouched ((modEcc_untouched h _ _ _).trans emptied)
    ((eccIrq_untouched h _).trans ((setCeOvf_untouched h _ _).trans emptied)))

theorem countCorr_untouched (cw : Nat) (s : State) : π (countCorr cw s) = π s := by
  have filtered : ∀ g, π (s.modEcc (saStack (cw * 64)) g) = π s := fun g => modEcc_untouched h _ g s
  exact ite_untouched (filtered _) ((bucketAdd_untouched h _ _).trans ((modEcc_untouched h _ _ _).trans (filtered _)))

/-! Code words (09 R337-R339; 05 R199). -/

theorem storeWord_untouched (cw : Nat) (bs : List Byte) (s : State) : π (storeWord cw bs s) = π s := by
  simp only [storeWord, State.delHealth_eq, h.health, h.stackMem]

theorem writeWord_untouched (cw : Nat) (bs : List Byte) (s : State) : π (writeWord cw bs s) = π s := by
  simp only [writeWord, captureWord, h.armed, storeWord_untouched h]

theorem spoilRow_untouched (unit off : Nat) (s : State) : π (spoilRow unit off s) = π s := h.armed _ _

theorem capturePart_untouched (unit off : Nat) (s : State) : π (capturePart unit off s) = π s := by
  unfold capturePart
  exact ite_untouched ((spoilRow_untouched h _ _ _).trans ((h.armed _ _).trans (h.freeCtr _ _))) rfl

theorem rmw_untouched (cw : Nat) (cells : Tbl Byte) (owners : List Nat) (s : State) : π (rmw cw cells owners s) = π s := by
  unfold rmw
  extract_lets t merged captured
  have hcaptured : π captured = π s := capturePart_untouched h _ _ s
  split
  · rw [storeWord_untouched h, hcaptured]
  · rw [storeWord_untouched h, countCorr_untouched h, hcaptured]
  · rw [State.modLb_eq, h.lb, State.putHealth_eq, h.health, storeWord_untouched h, logUe_untouched h, hcaptured]

theorem poisonWord_untouched (cw : Nat) (cells : Tbl Byte) (s : State) : π (poisonWord cw cells s) = π s := by
  simp only [poisonWord, State.modLb_eq, State.putHealth_eq, h.lb, h.health, storeWord_untouched h, logUe_untouched h]

/-! Reaching a stack (01 R36; 05 R204). -/

theorem wakeFor_untouched (u : GUnit) (s : State) : π (wakeFor u s) = π s := ite_untouched (h.wake _ _) rfl

theorem reachStack_untouched (a : Nat) (s : State) : π (reachStack a s) = π s :=
  ite_untouched (ite_untouched ((h.acc _ _).trans (wakeFor_untouched h _ s)) (wakeFor_untouched h _ s)) rfl

theorem reachBank_untouched (a : Nat) (s : State) : π (reachBank a s) = π s :=
  ite_untouched ((h.acc _ _).trans (reachStack_untouched h a s)) (reachStack_untouched h a s)

/-! The Letterbox and the merge buffer (09 R331-R338). -/

theorem modLb_untouched (k : Nat) (g : Lb → Lb) (s : State) : π (s.modLb k g) = π s := h.lb _ _

theorem mergeOut_untouched (l : LbLine) (s : State) : π (mergeOut l s) = π s :=
  ite_untouched ((poisonWord_untouched h _ _ _).trans (modLb_untouched h _ _ s)) ((rmw_untouched h _ _ _ _).trans (modLb_untouched h _ _ s))

theorem mergeInto_untouched (cw : Nat) (cells : Tbl Byte) (owners : List (Nat × Nat)) (s : State) : π (mergeInto cw cells owners s) = π s := by
  unfold mergeInto
  extract_lets t old all own bad grp roomy
  have hroomy : π roomy = π s := by
    refine ite_untouched rfl ?_
    split
    · exact mergeOut_untouched h _ s
    · rfl
  refine ite_untouched ((writeWord_untouched h _ _ _).trans (modLb_untouched h _ _ s)) ?_
  clear_value old
  cases old with
  | some l => exact modLb_untouched h _ _ s
  | none => exact (modLb_untouched h _ _ roomy).trans hroomy

theorem lineOut_untouched (t : Nat) (l : LbLine) (s : State) : π (lineOut t l s) = π s := by
  unfold lineOut
  extract_lets taken half
  have hhalf : ∀ n u, π (half n u) = π u := fun n u =>
    ite_untouched rfl (ite_untouched (poisonWord_untouched h _ _ u) (mergeInto_untouched h _ _ _ u))
  rw [hhalf, hhalf, modLb_untouched h]

theorem drainLine_untouched (t : Nat) (l : LbLine) (s : State) : π (drainLine t l s) = π s :=
  ite_untouched ((modLb_untouched h _ _ _).trans (reachBank_untouched h _ s)) (lineOut_untouched h t l s)

theorem spoilWrite_untouched (a : Nat) (bs : List Byte) (s : State) : π (spoilWrite a bs s) = π s :=
  ite_untouched rfl (forEach_untouched (fun _ _ => ite_untouched (spoilRow_untouched h _ _ _) rfl) _ s)

theorem lbWrite_untouched (owner a : Nat) (bs : List Byte) (s : State) : π (lbWrite owner a bs s) = π s := by
  unfold lbWrite
  extract_lets t n own reached roomy written
  have hreached : π reached = π s := (reachStack_untouched h _ _).trans (spoilWrite_untouched h _ _ s)
  have hroomy : π roomy = π s := by
    unfold roomy
    split
    · exact hreached
    · split
      · rw [lineOut_untouched h, hreached]
      · rw [lineOut_untouched h, reachBank_untouched h, hreached]
      · exact hreached
  have hwritten : π written = π s := by
    unfold written
    split
    · rw [modLb_untouched h, hreached]
    · rw [modLb_untouched h, hroomy]
  split
  · exact ite_untouched ((drainLine_untouched h _ _ _).trans hwritten) hwritten
  · exact hwritten

/-! Writes (09 R320, R331, R356). -/

theorem noteWrite_untouched (owner space a n : Nat) (s : State) : π (noteWrite owner space a n s) = π s := by
  have noted : ∀ (c : Prop) [Decidable c] g, π (if c then s.onSeq g else s) = π s := fun _ _ _ => ite_untouched (h.seq _ _) rfl
  exact ite_untouched rfl (ite_untouched (noted _ _) ((h.wlog _ _).trans (noted _ _)))

theorem stWrite_untouched (owner a : Nat) (bs : List Byte) (s : State) : π (stWrite owner a bs s) = π s :=
  (forEach_untouched (fun _ _ => lbWrite_untouched h _ _ _ _) _ _).trans (noteWrite_untouched h _ _ _ _ s)

theorem farWrite_untouched (a : Nat) (bs : List Byte) (s : State) : π (farWrite a bs s).1 = π s := by
  unfold farWrite
  refine List.foldlRecOn (motive := fun r : State × Bool => π r.1 = π s) _ _ rfl fun r hr p _ => ?_
  split
  · rw [h.farBad, h.farMem, hr]
  · exact hr

theorem vaWritePiece_untouched (c owner va : Nat) (bs : List Byte) (s : State) : π (vaWritePiece c owner va bs s).1 = π s := by
  unfold vaWritePiece
  split
  · rfl
  · split
    · rfl
    · split
      · rfl
      · split
        · exact stWrite_untouched h _ _ _ s
        · next x _ =>
          have far := (farWrite_untouched h x bs (noteWrite owner 1 x bs.length s)).trans (noteWrite_untouched h _ _ _ _ s)
          split
          · next e => rwa [e] at far
          · next e => rwa [e] at far
        · rw [h.hostMem, noteWrite_untouched h]

theorem vaWriteGo_untouched (c owner : Nat) (l : List (Nat × List Byte)) (s : State) : π (vaWriteGo c owner l s).1 = π s := by
  induction l generalizing s with
  | nil => rfl
  | cons p l ih =>
    have piece := vaWritePiece_untouched h c owner p.1 p.2 s
    unfold vaWriteGo
    split
    · next t e =>
      rw [e] at piece
      rw [ih, piece]
    · exact piece

theorem vaPut_untouched (c va : Nat) (bs : List Byte) (s : State) : π (vaPut c va bs s) = π s := vaWriteGo_untouched h _ _ _ s

/-! Page table entries (06 R225). -/

theorem writePte_untouched (q l k : Nat) (s : State) : π (writePte q l k s) = π s := by
  unfold writePte
  split
  · rfl
  · rw [h.seq, vaPut_untouched h]

end

/-- No write touches the page map. -/
theorem page_untouchedByWrites : UntouchedByWrites State.page := by
  constructor <;> intros <;> rfl

end Sys2Proof.Machine
end

section
/-! SUPPORT. Background work of a stack (05 R205; 09 R332, R338, R342, R343), and space that returns once the commands it waits for have ended (06 R237, R238;
11 R417). -/

namespace Sys2Proof.Machine

open Sys2Proof.Claims

/-! Drains (09 R332, R338). -/

section
variable {st cw : Nat} {l : LbLine} {s : State}

theorem exec_letterboxLineDrain_of_found (hl : (s.lbAt st).lines.find? (fun x => x.addr = l.addr) = some l) :
    exec (.letterboxLineDrain st l.addr) s = .next (drainLine st l s) := by
  change execLetterboxLineDrain st l.addr s = _
  rw [execLetterboxLineDrain, hl]

theorem drainLine_of_shut (h : stkShut s (l.addr * 128) = true) :
    drainLine st l s = (reachBank (l.addr * 128) s).modLb st
      (fun b => { b with lines := b.lines.map (fun x => if x.addr = l.addr then { x with due := true } else x) }) := if_pos h

theorem drainLine_of_open (h : stkShut s (l.addr * 128) = false) : drainLine st l s = lineOut st l s := if_neg (ne_true_of_eq_false h)

/-- A line that its SECDED does not find uncorrectable hands both halves on. -/
theorem lineOut_of_good (hb : l.bad = false) :
    lineOut st l s =
      let half := fun (h : Nat) (t : State) =>
        if (halfCells l.cells h).isEmpty then t else mergeInto (2 * l.addr + h) (halfCells l.cells h) (halfOwners l h) t
      half 1 (half 0 (s.modLb st (fun b => { b with lines := b.lines.filter (fun x => x.addr ≠ l.addr) }))) := by
  simp only [lineOut, hb, Bool.false_eq_true, if_false]

theorem exec_mergeEntryDrain_of_own (hst : saStack (cw * 64) = st) : exec (.mergeEntryDrain st cw) s = .next (drainMerge cw s) :=
  congrArg _ (if_pos hst)

theorem drainMerge_of_shut (hl : mergeEntry s cw = some l) (h : stkShut s (cw * 64) = true) :
    drainMerge cw s = (reachBank (cw * 64) s).modLb (saStack (cw * 64))
      (fun b => { b with merge := b.merge.map (fun x => if x.addr = cw then { x with due := true } else x) }) := by
  rw [drainMerge, hl]
  exact if_pos h

theorem drainMerge_of_open (hl : mergeEntry s cw = some l) (h : stkShut s (cw * 64) = false) : drainMerge cw s = mergeOut l s := by
  rw [drainMerge, hl]
  exact if_neg (ne_true_of_eq_false h)

/-- The entry found for a code word is that word's. -/
theorem addr_of_mergeEntry (hl : mergeEntry s cw = some l) : l.addr = cw := of_decide_eq_true (List.find?_some hl :)

theorem mergeOut_of_good (hb : l.bad = false) :
    mergeOut l s = rmw l.addr l.cells (l.owners.map (·.1))
      (s.modLb (saStack (l.addr * 64)) (fun b => { b with merge := b.merge.filter (fun x => x.addr ≠ l.addr) })) :=
  if_neg (ne_true_of_eq_false hb)

/-! The patrol (09 R343). -/

theorem exec_patrolRow_of_off (hp : s.eccReg.period = 0) : exec (.patrolRow st) s = .next s := by
  have off : (s.eccReg.period = 0 || !s.dev.stackIn.getLsbD st || s.gated.contains (.stack st)) = true := by simp [hp]
  exact congrArg _ (if_pos off)

theorem exec_patrolRow_of_on (hp : s.eccReg.period ≠ 0) (hs : s.dev.stackIn.getLsbD st = true) (hg : s.gated.contains (.stack st) = false) :
    exec (.patrolRow st) s = .next (attempt 0 (patrolRow st) s) := by
  have on : ¬ (s.eccReg.period = 0 || !s.dev.stackIn.getLsbD st || s.gated.contains (.stack st)) = true := by
    simp only [hp, hs, hg, decide_false, Bool.not_true, Bool.or_self, Bool.false_eq_true, not_false_eq_true]
  exact congrArg _ (if_neg on)

end

theorem stackBackgroundWork : Claims.StackBackgroundWork := by
  unfold Claims.StackBackgroundWork
  refine ⟨fun st l s hl => ⟨fun hopen hgood => ?line, fun hshut => ?lineWaits⟩, ?merge, ?patrol, fun st s => exec_patrolRow_of_off, fun st s => rfl⟩
  case line => rw [exec_letterboxLineDrain_of_found hl, drainLine_of_open hopen, lineOut_of_good hgood]
  case lineWaits => rw [exec_letterboxLineDrain_of_found hl, drainLine_of_shut hshut]
  case merge =>
    rintro st cw l s rfl hl
    obtain rfl := addr_of_mergeEntry hl
    rw [exec_mergeEntryDrain_of_own rfl]
    exact ⟨fun hopen hgood => by rw [drainMerge_of_open hl hopen, mergeOut_of_good hgood], fun hshut => by rw [drainMerge_of_shut hl hshut]⟩
  case patrol =>
    rintro st r a s f hp hs hg rfl rfl hf
    have same : patrolRow st (tried 0 s) = f (tried 0 s) := by
      rw [hf]
      rfl
    rw [exec_patrolRow_of_on hp hs hg, attempt_congr same]
    exact ⟨fun hpass => congrArg _ (attempt_of_passes hpass), fun hwait => congrArg _ (attempt_of_not_passes hwait)⟩

/-! Deferred freeing (06 R237, R238). -/

section
variable {i : Nat} {s : State}

section
variable {p : Page} {d : List Nat} (hp : s.getPage i = some p) (hd : p.freeing = some d)
include hp hd

theorem exec_pageFreeDeferred_of_ended (he : Ended s d) : exec (.pageFreeDeferred i) s = .next (pumpAll (freePage i s)) := by
  have ended : anyAlive s d = false := he
  change execPageFreeDeferred i s = _
  simp only [execPageFreeDeferred, hp, hd, ended, Bool.false_eq_true, if_false]

theorem exec_pageFreeDeferred_of_alive (he : ¬ Ended s d) : exec (.pageFreeDeferred i) s = .next s := by
  have alive : anyAlive s d = true := eq_true_of_ne_false he
  change execPageFreeDeferred i s = _
  simp only [execPageFreeDeferred, hp, hd, alive, if_true]

end

/-- A page that is freed leaves the page map, and its page table entry is written outside that map. -/
theorem getPage_freePage_same (i : Nat) (s : State) : (freePage i s).getPage i = none := by
  unfold freePage
  split
  · assumption
  · extract_lets given left
    have gone : left.getPage i = none := tget_tdel_same _ i
    split
    · exact gone
    · rw [State.getPage, writePte_untouched page_untouchedByWrites]
      exact gone

/-! Zero fills (11 R417). -/

section
variable {x : Fill} (hx : s.getFills i = some x)
include hx

theorem exec_zeroFillDone_of_alive (he : ¬ Ended s x.deps) : exec (.zeroFillDone i) s = .next s := by
  have alive : anyAlive s x.deps = true := eq_true_of_ne_false he
  change execZeroFillDone i s = _
  simp only [execZeroFillDone, hx, alive, if_true]

theorem exec_zeroFillDone_of_ended (he : Ended s x.deps) :
    exec (.zeroFillDone i) s = .next ((zeroFill x (forEach (if x.far then [] else ones x.smask) drainStack s)).delFills i) := by
  have ended : anyAlive s x.deps = false := he
  change execZeroFillDone i s = _
  simp only [execZeroFillDone, hx, ended, Bool.false_eq_true, if_false]

end

theorem zeroFill_of_far {x : Fill} (h : x.far = true) :
    zeroFill x s = forEach (pieces 4096 x.off x.len) (fun p t => t.onFarMem (fun m => mclear m (farKey t p.1) p.2)) s := if_pos h

end

theorem deferredFreeing : Claims.DeferredFreeing := by
  unfold Claims.DeferredFreeing
  refine ⟨?page, ?far, ?stack⟩
  case page =>
    exact fun i p d s hp hd => ⟨fun he => ⟨exec_pageFreeDeferred_of_ended hp hd he, getPage_freePage_same i s⟩, exec_pageFreeDeferred_of_alive hp hd⟩
  case far =>
    refine fun i x s hx hfar => ⟨fun he => ?_, exec_zeroFillDone_of_alive hx⟩
    rw [exec_zeroFillDone_of_ended hx he, zeroFill_of_far hfar, hfar]
    rfl
  case stack =>
    intro i x s hx hnear he
    rw [exec_zeroFillDone_of_ended hx he, hnear]
    rfl

/-- Settles O40: each row by its guard, and the freed page by what its page table entry's write leaves alone. -/
theorem backgroundWork : Obligations.BackgroundWork := ⟨stackBackgroundWork, deferredFreeing⟩

end Sys2Proof.Machine
end

section
/-! SUPPORT. Sequence packets (06 R218-R238; 12 R451) and request packets (12 R449-R463): each operation where no check of its own refuses it. -/

namespace Sys2Proof.Machine

open Sys2Proof.Claims

/-! Reserved bytes. -/

theorem leNat_eq_zero_iff (bs : List Byte) : leNat bs = 0 ↔ ∀ b ∈ bs, b = 0 := by
  induction bs with
  | nil => simp [leNat]
  | cons b bs ih =>
    have clean : b.toNat = 0 ↔ b = 0 := BitVec.toNat_inj (x := b) (y := 0)
    simp only [leNat, Nat.add_eq_zero_iff, Nat.mul_eq_zero, OfNat.ofNat_ne_zero, false_or, ih, List.forall_mem_cons, clean]

/-- Bytes that lie among clean bytes are clean. -/
theorem le_eq_zero_of_within {bs : List Byte} {lo n lo' n' : Nat} (h : le bs lo n = 0) (hlo : lo ≤ lo') (hn : lo' + n' ≤ lo + n) : le bs lo' n' = 0 := by
  rw [le, leNat_eq_zero_iff] at h ⊢
  obtain ⟨d, rfl⟩ := Nat.exists_eq_add_of_le hlo
  intro b hb
  rw [← List.drop_drop, ← Nat.add_sub_cancel_left (n := d) (m := n'), ← List.drop_take] at hb
  exact h b (List.take_subset_take_left _ (by omega) (List.mem_of_mem_drop hb))

section
variable {k : Pkt} {e : Entry} {t : State}

/-! Sequences. -/

theorem opSeqOpen_of_free {n c : Nat} {t2 : State} (he : Carries e k) (h : SeqOpenOk n c t2 k t) : opSeqOpen k.q e t = fin (Res.ok n) t2 := by
  unfold SeqOpenOk at h
  extract_lets x at h
  obtain ⟨clean42, clean72, sg, inRange, slot, entry, placed⟩ := h
  have known : ¬ 8 ≤ le k.p 36 1 := by omega
  simp only [opSeqOpen, he.pl, he.ctx, clean42, clean72, known, inRange, slot, entry, decide_false, Bool.or_self, Bool.false_eq_true, if_false]
  split
  · next t3 placed3 =>
    obtain rfl : t3 = t2 := Option.some.inj (placed3.symm.trans placed)
    rfl
  · next unplaced => exact absurd (unplaced.symm.trans placed) (Option.some_ne_none t2).symm

theorem opSeqCommit_of_open {v : Seq} {r : Nat} {t1 : State} (he : Carries e k) (h : SeqCommitOk v r t1 k t) : opSeqCommit k.q e t = fin (Res.ok r) t1 := by
  obtain ⟨there, unheld, commits⟩ := h
  have there : namedSeq t k.ctx (hA k.hdr) = some v := there
  have commits : seqCommitDo (hA k.hdr) (hC k.hdr) (hD k.hdr) t = (Res.ok r, t1) := commits
  simp only [opSeqCommit, he.ctx, he.hdr, there, unheld, commits, Option.isSome_none, Bool.false_eq_true, if_false]

/-- The slots that a SEQ_DROP names are its sequence's, and committed (06 R237). -/
theorem seqDrop_inRange {v : Seq} (h : SeqDropOk v k t) :
    (hB k.hdr / 256 < hB k.hdr % 256 || v.layers ≤ hB k.hdr / 256 || slotCount v < hC k.hdr + hD k.hdr
      || (List.range (hD k.hdr)).any (fun i => v.c < slotStart v (hC k.hdr + i) + 2 ^ v.nlog2)) = false := by
  obtain ⟨-, -, ordered, layers, slots, committed⟩ := h
  have uncommitted : (List.range (hD k.hdr)).any (fun i => decide (v.c < slotStart v (hC k.hdr + i) + 2 ^ v.nlog2)) = false :=
    List.any_eq_false.mpr fun i hi => by
      have below := of_decide_eq_true (List.all_eq_true.mp committed i hi)
      exact fun above => absurd (of_decide_eq_true above) (Nat.not_lt.mpr below)
  have ordered : ¬ hB k.hdr / 256 < hB k.hdr % 256 := Nat.not_lt.mpr ordered
  have layers : ¬ v.layers ≤ hB k.hdr / 256 := Nat.not_le.mpr layers
  have slots : ¬ slotCount v < hC k.hdr + hD k.hdr := Nat.not_lt.mpr slots
  simp only [ordered, layers, slots, uncommitted, decide_false, Bool.or_self]

/-! Requests. -/

/-- Below level 2 a request neither parks at its end nor names a sequence with a PARKED page (12 R450). -/
theorem reqSubmit_supported {id : Nat} (h : ReqSubmitOk id k t) :
    (t.dev.compatLevel < 2 && (le k.p 36 1 / 4 % 4 = 1 || (seqNames k.p 48).any (hasParked t))) = false := by
  obtain ⟨-, -, supported, -⟩ := h
  refine Bool.and_eq_false_imp.mpr fun old => ?_
  obtain ⟨unparked, none⟩ := supported (of_decide_eq_true old)
  simp only [unparked, none, decide_false, Bool.or_self]

theorem opReqSubmit_of_free {id : Nat} (he : Carries e k) (h : ReqSubmitOk id k t) :
    opReqSubmit k.q e t = fin (Res.ok id) (forEach (seqKeys k.p 48 (le k.p 88 8))
      (fun x d => d.updSeq x.1 (fun y => { y with held := some id, lastKey := x.2, lastUse := t.nextUid }))
      ((t.onNextUid (fun n => n + 1)).putReq id (reqOf (t.onNextUid (fun n => n + 1)) k.ctx t.nextUid k.p))) := by
  have supported := reqSubmit_supported h
  obtain ⟨served, inRange, -, unheld, room, number⟩ := h
  unfold opReqSubmit
  rw [he.ctx, he.pl]
  dsimp only
  rw [if_neg (by rw [served]; exact Bool.false_ne_true), if_neg (ne_true_of_eq_false inRange), if_neg (ne_true_of_eq_false supported)]
  refine (if_neg (ne_true_of_eq_false unheld)).trans ((if_neg (Nat.not_le.mpr room)).trans ?_)
  rw [number]
  rfl

/-- The checks that REQ_PARK and REQ_RESUME share (12 R461, R462). -/
theorem namesSequences (hname : le k.p 0 2 ≠ 0xFFFF) (hown : (seqNames k.p 0).any (fun x => (namedSeq t k.ctx x).isNone) = false) :
    (le k.p 0 2 = 0xFFFF || (seqNames k.p 0).any (fun x => (namedSeq t k.ctx x).isNone)) = false := by
  simp only [hname, hown, decide_false, Bool.or_self]

/-- A job that is there goes on (09 R357). -/
theorem jobStarted_of_there {uid : Nat} {u : State} (h : u.job.any (fun j => j.2.uid = uid && j.2.req.isNone) = true) : jobStarted uid u = going u := if_pos h

theorem opReqPark_of_job (he : Carries e k) (h : ReqParkOk k t) :
    opReqPark k.q e t = going (startPark (seqKeys k.p 0 (le k.p 8 8)) (le k.p 16 4) (homeLeaf t (ctxCas t k.ctx)) k.q k.uid none t) := by
  obtain ⟨clean, named, own, full, unheld, there⟩ := h
  simp only [opReqPark, he.pl, he.ctx, he.uid, clean, namesSequences named own, full, unheld, Bool.or_self, Bool.false_eq_true, if_false]
  exact jobStarted_of_there there

/-- Clean bytes ask a REQ_RESUME to adopt nothing (12 R462). -/
theorem opReqResume_of_job (he : Carries e k) (h : ReqResumeOk k t) :
    opReqResume k.q e t = going (startRestore (seqNames k.p 0) (homeLeaf t (ctxCas t k.ctx)) k.q k.uid none t) := by
  obtain ⟨clean, named, own, full, unheld, there⟩ := h
  have zero : le k.p 20 12 = 0 := by simpa [dirty] using clean
  have adopt : le k.p 20 1 = 0 := le_eq_zero_of_within zero (by omega) (by omega)
  have rest : dirty k.p 21 11 = false := by simp [dirty, le_eq_zero_of_within (lo' := 21) (n' := 11) zero (by omega) (by omega)]
  simp only [opReqResume, he.pl, he.ctx, he.uid, rest, adopt, namesSequences named own, full, unheld, Nat.not_lt_zero, Nat.zero_testBit, decide_false,
    Bool.or_self, Bool.not_false, Bool.false_eq_true, if_false, if_true]
  exact jobStarted_of_there there

end

/-- Settles O31: each packet by its operation, where none of that operation's own checks refuses it. -/
theorem sequenceAndRequestPackets : Obligations.SequenceAndRequestPackets := by
  unfold Obligations.SequenceAndRequestPackets
  refine ⟨?opens, ?commits, ?drops, ?closes, ?submits, ?cancels, ?parks, ?resumes⟩
  case opens => exact fun n c t2 => completesOk_of_op (List.mem_of_getElem? (i := 28) rfl) fun k e t he => opSeqOpen_of_free he
  case commits => exact fun v r t1 => completesOk_of_op (List.mem_of_getElem? (i := 29) rfl) fun k e t he => opSeqCommit_of_open he
  case drops =>
    refine fun v => completesOk_of_op (List.mem_of_getElem? (i := 30) rfl) fun k e t he hok => ?_
    have inRange := seqDrop_inRange hok
    obtain ⟨there, unheld, -⟩ := hok
    have there : namedSeq t k.ctx (hA k.hdr) = some v := there
    simp only [opSeqDrop, he.ctx, he.hdr, he.uid, there, unheld, inRange, Option.isSome_none, Bool.false_eq_true, if_false]
    rfl
  case closes =>
    refine fun v => completesOk_of_op (List.mem_of_getElem? (i := 31) rfl) fun k e t he hok => ?_
    obtain ⟨there, unheld⟩ := hok
    have there : namedSeq t k.ctx (hA k.hdr) = some v := there
    simp only [opSeqClose, he.ctx, he.hdr, he.uid, there, unheld, Option.isSome_none, Bool.false_eq_true, if_false]
    rfl
  case submits => exact fun id => completesOk_of_op (List.mem_of_getElem? (i := 32) rfl) fun k e t he => opReqSubmit_of_free he
  case cancels =>
    refine fun v => goesOn_of_op (List.mem_of_getElem? (i := 33) rfl) fun k e t he hok => ?_
    obtain ⟨served, there, own, live⟩ := hok
    have there : t.getReq (hA k.hdr) = some v := there
    simp only [opReqCancel, he.ctx, he.hdr, he.uid, served, there, own, live, ne_eq, not_true_eq_false, decide_false, Bool.or_self, Bool.not_true,
      Bool.false_eq_true, if_false]
    rfl
  case parks => exact goesOn_of_op (List.mem_of_getElem? (i := 34) rfl) fun k e t he => opReqPark_of_job he
  case resumes => exact goesOn_of_op (List.mem_of_getElem? (i := 35) rfl) fun k e t he => opReqResume_of_job he

end Sys2Proof.Machine
end

section
/-! SUPPORT. Pivot and Wicket commands (07 R272-R275; 08 R302-R317): what a command that can start does where it meets nothing to wait for. -/

namespace Sys2Proof.Machine

open Sys2Proof.Claims

section
variable {q op cl uid : Nat} {run : ECmd → State → State} {f : State → State} {d : Desc} {e : ECmd} {s : State}

theorem uid_of_starts (h : Starts q op cl uid e s) : e.uid = uid :=
  of_decide_eq_true (List.find?_some (p := fun x : ECmd => decide (x.uid = uid)) h.found)

/-- A command that can start does at once what it is tried with, where that meets nothing to wait for. -/
theorem startCmd_of_passes (h : Starts q op cl uid e s) (hf : run e (begun cl e (tried uid s)) = f (tried uid s)) (hp : Passes uid f s) :
    startCmd q op cl uid run s = passed uid f s := by
  rw [startCmd_of_starts h, attempt_congr hf, attempt_of_passes hp]

/-! The start of a command. -/

theorem getDesc_begun (cl : Nat) (e : ECmd) (s : State) (k : Nat) : (begun cl e s).getDesc k = s.getDesc k := by
  unfold begun
  split <;> rfl

theorem begun_onAcc (cl : Nat) (e : ECmd) (g : Reach → Reach) (s : State) : begun cl e (s.onAcc g) = (begun cl e s).onAcc g := by
  unfold begun
  split <;> rfl

/-! MOVE. -/

/-- A MOVE to another space, and one that is still speculative, leaves the staleness of shadow buffers alone (03 R120, R124). -/
theorem moveCmd_of_no_shared_write (hd : s.getDesc (e.ctx * 65536 + qDesc e.words) = some d) (h : (mdescOf d.bytes).dspace ≠ 2 ∨ e.spec ≠ []) :
    moveCmd cl e s = endCmd cl e.uid (moveRun e.ctx e.uid e.words (mdescOf d.bytes) s).2 (moveRun e.ctx e.uid e.words (mdescOf d.bytes) s).1 := by
  have keeps : ¬ ((mdescOf d.bytes).dspace = 2 && e.spec.isEmpty) = true := by
    rw [Bool.and_eq_true, decide_eq_true_eq, List.isEmpty_iff, not_and_or]
    exact h
  simp only [moveCmd, hd, if_neg keeps]

/-- A write to a shared scratchpad that is not speculative ends the staleness of the shadow buffers that it meets (03 R124). -/
theorem moveCmd_of_shared_write (hd : s.getDesc (e.ctx * 65536 + qDesc e.words) = some d) (h2 : (mdescOf d.bytes).dspace = 2) (hs : e.spec = []) :
    moveCmd cl e s =
      let m := mdescOf d.bytes
      let u := (moveRun e.ctx e.uid e.words m s).1
      let k := physOf u e.ctx (qCluster e.words)
      let lo := (m.dstFoot.1 + qDslide e.words).toNat
      endCmd cl e.uid (moveRun e.ctx e.uid e.words m s).2 (freshen u k lo ((m.dstFoot.2 + qDslide e.words).toNat + 1 - lo) (shadowsOf u k)) := by
  have ends : ((mdescOf d.bytes).dspace = 2 && e.spec.isEmpty) = true := by rw [h2, hs]; rfl
  simp only [moveCmd, hd, if_pos ends]

/-! PREFETCH. -/

/-- PREFETCH touches no memory, so nothing keeps it waiting (07 R274). -/
theorem startPrefetch_of_starts (h : Starts 1 2 cl uid e s) :
    startCmd 1 2 cl uid (prefetchCmd cl) s = endCmd cl e.uid EOut.ok (begun cl e (s.onAcc (fun _ => Reach.none))) := by
  have ignoresAcc : ∀ g t, prefetchCmd cl e (begun cl e (t.onAcc g)) = (prefetchCmd cl e (begun cl e t)).onAcc g := fun g t => by
    rw [begun_onAcc]
    rfl
  rw [startCmd_of_starts h, attempt_of_ignores_acc ignoresAcc, prefetchCmd]

end

theorem pivotCommands : Claims.PivotCommands := by
  unfold Claims.PivotCommands
  refine ⟨?elsewhere, ?shared, ?prefetch⟩
  case elsewhere =>
    intro cl uid e d s f hs hd helse hf hp
    obtain rfl := uid_of_starts hs
    have there : (begun cl e (tried e.uid s)).getDesc (e.ctx * 65536 + qDesc e.words) = some d := (getDesc_begun _ _ _ _).trans hd
    refine congrArg Host.Outcome.next (startCmd_of_passes hs ?_ hp)
    rw [moveCmd_of_no_shared_write there helse, hf]
  case shared =>
    intro cl uid e d s m lo f hs hd hm h2 hspec hlo hf hp
    obtain rfl := uid_of_starts hs
    subst hm hlo
    have there : (begun cl e (tried e.uid s)).getDesc (e.ctx * 65536 + qDesc e.words) = some d := (getDesc_begun _ _ _ _).trans hd
    refine congrArg Host.Outcome.next (startCmd_of_passes hs ?_ hp)
    rw [moveCmd_of_shared_write there h2 hspec, hf]
  case prefetch =>
    intro cl uid e s hs
    obtain rfl := uid_of_starts hs
    exact congrArg Host.Outcome.next (startPrefetch_of_starts hs)

theorem wicketCommands : Claims.WicketCommands := by
  intro r hr cl uid e s f hs hf hp
  obtain rfl := uid_of_starts hs
  rw [exec_wicketRow r hr, startWicket, startCmd_of_passes hs (f := f) (by rw [hf, wicketCmd]) hp]

/-- Settles O22: each row starts its command, a MOVE by whether it writes a shared scratchpad and is confirmed. -/
theorem pivotAndWicketCommands : Obligations.PivotAndWicketCommands := ⟨pivotCommands, wicketCommands⟩

end Sys2Proof.Machine
end

section
/-! SUPPORT. The packets on descriptors, programs and the skip log (07 R262, R270; 03 R96-R102, R139): each operation where no check of its own
refuses it. -/

namespace Sys2Proof.Machine

open Sys2Proof.Claims

/-- The operation of a packet that goes on works on an entry with the packet's own tag (02 Table 2.4). -/
theorem goesOn_of_tagged_op {c : Nat → Hdr → List Byte → Instr} {op : Nat} {f : Nat → Entry → State → HRes} {ok : Pkt → State → Prop}
    {eff : Pkt → State → State} (hr : (c, op, f) ∈ packetRows)
    (h : ∀ k e t, Carries e k → e.tag = hTag k.raw → ok k t → f k.q e t = going (eff k t)) : GoesOn c op ok eff := by
  intro s x pl k t hop huid ha hok hclear
  have runs := acceptedPacketRunsItsOperation _ hr s k.q x k.raw pl k.p t hop ha
  dsimp only at runs
  rw [h k _ t ⟨rfl, rfl, rfl, huid.symm⟩ rfl hok] at runs
  exact runs hclear

section
variable {k : Pkt} {e : Entry} {t : State}

/-! The arguments of a packet, as its entry carries them (02 Table 2.4). -/

theorem Carries.a (he : Carries e k) : hA e.hdr = k.a := congrArg hA he.hdr
theorem Carries.b (he : Carries e k) : hB e.hdr = k.b := congrArg hB he.hdr
theorem Carries.d (he : Carries e k) : hD e.hdr = k.d := congrArg hD he.hdr

/-! Descriptors. -/

theorem opDescCreate_of_free {n : Nat} (he : Carries e k) (h : DescCreateOk n k t) :
    opDescCreate k.q e t = fin (Res.ok (n % 65536)) (t.putDesc n { bytes := k.p, stale := false, dead := [] }) := by
  obtain ⟨len, passes, handle⟩ := h
  simp only [opDescCreate, he.pl, he.ctx, len, passes, handle, ne_eq, not_true_eq_false, if_false]

/-- A handle that commands name stays taken until they have ended (07 R270). -/
theorem opDescDestroy_of_live {d : Desc} (he : Carries e k) (h : DescDestroyOk d k t) :
    opDescDestroy k.q e t = fin (Res.ok 0) (if descNamers t k.ctx k.a = [] then t.delDesc (k.ctx * 65536 + k.a)
      else t.putDesc (k.ctx * 65536 + k.a) { d with dead := descNamers t k.ctx k.a }) := by
  obtain ⟨positive, bounded, there, live⟩ := h
  have bounded : ¬ 65535 < k.a := by omega
  simp only [opDescDestroy, he.ctx, he.a, Nat.ne_of_gt positive, bounded, there, live, List.isEmpty_nil, List.isEmpty_iff, decide_false, Bool.or_self,
    Bool.not_true, Bool.false_eq_true, if_false]

/-! Programs. -/

theorem any_not_eq_false {α : Type} {l : List α} {p : α → Bool} (h : ∀ a ∈ l, p a = true) : l.any (fun a => !p a) = false := by
  rw [← List.not_all_eq_any_not, List.all_eq_true.mpr h, Bool.not_true]

theorem opProgLoad_of_wellFormed {n : Nat} {b : List Byte} {t1 : State} (he : Carries e k) (h : ProgLoadOk n b t1 k t) :
    opProgLoad k.q e t = fin (Res.ok (n % 512)) (t1.putProg n (imgProg b)) := by
  obtain ⟨clean, aligned, long, short, read, formed, level, features, handle⟩ := h
  have inRange : (le k.p 0 8 % 64 ≠ 0 || le k.p 8 4 < 256 || 2 ^ 24 < le k.p 8 4) = false := by
    simp only [aligned, Nat.not_lt.mpr long, Nat.not_lt.mpr short, ne_eq, not_true_eq_false, decide_false, Bool.or_self]
  have supported : (t1.dev.compatLevel < le b 5 1 || (t1.dev.compatLevel = 0 && (le b 6 1).testBit 0)) = false := by
    rw [Bool.or_eq_false_iff, Bool.and_eq_false_imp]
    exact ⟨decide_eq_false (Nat.not_lt.mpr level), fun zero => features (of_decide_eq_true zero)⟩
  simp only [opProgLoad, he.pl, he.ctx, clean, inRange, read, formed, supported, handle, Bool.false_eq_true, if_false]

section
variable {v : Prog} {r : Nat} (h : ProgRunOk v r k t)
include h

theorem progRun_clean : (dirty k.p 9 1 || dirty k.p 12 4 || dirty k.p 56 8) = false := by
  obtain ⟨clean9, clean12, clean56, -⟩ := h
  rw [clean9, clean12, clean56]
  rfl

/-- The clusters that a PROG_RUN names are enabled, and its casement's (03 R99). -/
theorem progRun_clusters : ∀ n ∈ (ones (BitVec.ofNat 128 (le k.p 16 16))).map (physOf t k.ctx),
    t.fuse.clusterEn.getLsbD n = true ∧ (t.casAt (ctxCas t k.ctx)).clusters.getLsbD n = true := by
  obtain ⟨-, -, -, -, own, -⟩ := h
  exact List.forall_mem_map.mpr fun n hn => (Bool.and_eq_true _ _).mp (List.all_eq_true.mp own n hn)

theorem progRun_named : (if le k.p 0 8 = 0 || 256 < le k.p 0 8 then none else t.getProg (k.ctx * 512 + le k.p 0 8)) = some v := by
  obtain ⟨-, -, -, -, -, positive, bounded, there, -⟩ := h
  simp only [Nat.ne_of_gt positive, Nat.not_lt.mpr bounded, there, decide_false, Bool.or_self, Bool.false_eq_true, if_false]

theorem progRun_entered : (decide (le k.p 8 1 < 16) && decide (nth v.entry (le k.p 8 1) 0 < v.words.length)) = true := by
  obtain ⟨-, -, -, -, -, -, -, -, entry, pc, -⟩ := h
  rw [decide_eq_true entry, decide_eq_true pc]
  rfl

/-- A run that may stop at an index has room for its dump (03 R99). -/
theorem progRun_dumps : (le k.p 32 8 ≠ 0
    && (le k.p 40 8 % 4096 ≠ 0 || le k.p 48 8 < dumpLen (ones (BitVec.ofNat 128 (le k.p 16 16))).length)) = false := by
  obtain ⟨-, -, -, -, -, -, -, -, -, -, dump, -⟩ := h
  rw [Bool.and_eq_false_imp]
  intro stops
  obtain ⟨aligned, room⟩ := dump (of_decide_eq_true stops)
  simp only [aligned, Nat.not_lt.mpr room, ne_eq, not_true_eq_false, decide_false, Bool.or_self]

end

theorem opProgUnload_of_unused (he : Carries e k) (h : ProgUnloadOk k t) : opProgUnload k.q e t = fin (Res.ok 0) (t.delProg (k.ctx * 512 + k.a)) := by
  obtain ⟨positive, bounded, there, idle, unserved⟩ := h
  have known : (k.a = 0 || 256 < k.a || (t.getProg (k.ctx * 512 + k.a)).isNone) = false := by
    simp only [Nat.ne_of_gt positive, Nat.not_lt.mpr bounded, Option.isNone_eq_false_iff.mpr there, decide_false, Bool.or_self]
  simp only [opProgUnload, he.ctx, he.a, Bool.if_true_left, Bool.decide_eq_true, idle, unserved, known, Bool.or_self, Bool.false_eq_true, if_false]

/-! The skip log. -/

theorem opSkiplogRead_of_written {v : Ctx} {t1 : State} (he : Carries e k) (h : SkiplogReadOk v t1 k t) :
    opSkiplogRead k.q e t = fin (Res.ok (v.skips.take k.a).length)
      (if k.b.testBit 0 then t1.updCtx k.ctx (fun y => { y with skips := [], skipN := 0 }) else t1) := by
  obtain ⟨there, written⟩ := h
  simp only [opSkiplogRead, he.ctx, he.uid, he.a, he.b, he.d, there, written]

end

/-- Settles O29: each packet by its operation, where none of that operation's own checks refuses it. -/
theorem descriptorAndProgramPackets : Obligations.DescriptorAndProgramPackets := by
  unfold Obligations.DescriptorAndProgramPackets
  refine ⟨?create, ?destroy, ?load, ?run, ?unload, ?skiplog⟩
  case create => exact fun n => completesOk_of_op (List.mem_of_getElem? (i := 16) rfl) fun k e t he => opDescCreate_of_free he
  case destroy => exact fun d => completesOk_of_op (List.mem_of_getElem? (i := 17) rfl) fun k e t he => opDescDestroy_of_live he
  case load => exact fun n b t1 => completesOk_of_op (List.mem_of_getElem? (i := 18) rfl) fun k e t he => opProgLoad_of_wellFormed he
  case run =>
    refine fun v r => goesOn_of_tagged_op (List.mem_of_getElem? (i := 19) rfl) fun k e t he ht hok => ?_
    have ⟨_, _, _, chosen, _, _, _, _, _, _, _, slot⟩ := hok
    have chosen : (ones (BitVec.ofNat 128 (le k.p 16 16))).isEmpty = false := Bool.eq_false_iff.mpr (mt List.isEmpty_iff.mp chosen)
    have enabled := any_not_eq_false fun n hn => (progRun_clusters hok n hn).1
    have owned := any_not_eq_false fun n hn => (progRun_clusters hok n hn).2
    simp only [opProgRun, he.pl, he.ctx, he.b, he.uid, ht, progRun_clean hok, enabled, owned, progRun_named hok, progRun_entered hok, progRun_dumps hok,
      chosen, slot, Bool.not_true, Bool.or_self, Bool.false_eq_true, if_false]
    rfl
  case unload => exact completesOk_of_op (List.mem_of_getElem? (i := 20) rfl) fun k e t he => opProgUnload_of_unused he
  case skiplog => exact fun v t1 => completesOk_of_op (List.mem_of_getElem? (i := 21) rfl) fun k e t he => opSkiplogRead_of_written he

end Sys2Proof.Machine
end

section
/-! SUPPORT. The canonical form of the memories, for a whole step (09 R321; log 6): every command of the module, and the passing of a cycle, leave a
good state good. -/

namespace Sys2Proof.Machine

variable {F : Fuse} {P : List Instr}

/-- Every command goes on to a good state, by what the meaning that its arm of `exec` calls does. -/
theorem exec_good {s : State} (h : Good F P s) : ∀ i : Instr, GoodN F P (exec i s)
  | .submissionDoorbell .. => execSubmissionDoorbell_good h
  | .completionDoorbell .. => execCompletionDoorbell_good h
  | .unknownOpcode .. => execUnknownOpcode_good h
  | .nop .. => execNop_good h
  | .ctxCreate .. => execCtxCreate_good h
  | .ctxDestroy .. => execCtxDestroy_good h
  | .queueCreate .. => execQueueCreate_good h
  | .queueDestroy .. => execQueueDestroy_good h
  | .queueResume .. => execQueueResume_good h
  | .caseAssign .. => execCaseAssign_good h
  | .caseRelease .. => execCaseRelease_good h
  | .ctxMigrate .. => execCtxMigrate_good h
  | .ctxPriority .. => execCtxPriority_good h
  | .memAlloc .. => execMemAlloc_good h
  | .memFree .. => execMemFree_good h
  | .memMapHost .. => execMemMapHost_good h
  | .memFence .. => execMemFence_good h
  | .memCopy .. => execMemCopy_good h
  | .memFill .. => execMemFill_good h
  | .descCreate .. => execDescCreate_good h
  | .descDestroy .. => execDescDestroy_good h
  | .progLoad .. => execProgLoad_good h
  | .progRun .. => execProgRun_good h
  | .progRunCompletion .. => execProgRunCompletion_good h
  | .progUnload .. => execProgUnload_good h
  | .skiplogRead .. => execSkiplogRead_good h
  | .latchAlloc .. => execLatchAlloc_good h
  | .latchFree .. => execLatchFree_good h
  | .latchSignal .. => execLatchSignal_good h
  | .latchWait .. => execLatchWait_good h
  | .latchPoison .. => execLatchPoison_good h
  | .latchRead .. => execLatchRead_good h
  | .latchWaitEval .. => execLatchWaitEval_good h
  | .headerLatchSignal .. => execHeaderLatchSignal_good h
  | .completionRecordPost .. => execCompletionRecordPost_good h
  | .seqOpen .. => execSeqOpen_good h
  | .seqCommit .. => execSeqCommit_good h
  | .seqDrop .. => execSeqDrop_good h
  | .seqClose .. => execSeqClose_good h
  | .pageFreeDeferred .. => execPageFreeDeferred_good h
  | .reqSubmit .. => execReqSubmit_good h
  | .reqCancel .. => execReqCancel_good h
  | .reqPark .. => execReqPark_good h
  | .reqResume .. => execReqResume_good h
  | .scrubRange .. => execScrubRange_good h
  | .selftest .. => execSelftest_good h
  | .eccTest .. => execEccTest_good h
  | .linkCalib .. => execLinkCalib_good h
  | .fabJoin .. => execFabJoin_good h
  | .fabLeave .. => execFabLeave_good h
  | .fabStatus .. => execFabStatus_good h
  | .pwrSetLimit .. => execPwrSetLimit_good h
  | .pwrRead .. => execPwrRead_good h
  | .add .. => execAdd_good h
  | .sub .. => execSub_good h
  | .mul .. => execMul_good h
  | .shl .. => execShl_good h
  | .shr .. => execShr_good h
  | .sra .. => execSra_good h
  | .andB .. => execAndB_good h
  | .orB .. => execOrB_good h
  | .xorB .. => execXorB_good h
  | .minS .. => execMinS_good h
  | .maxS .. => execMaxS_good h
  | .minu .. => execMinu_good h
  | .maxu .. => execMaxu_good h
  | .addi .. => execAddi_good h
  | .subi .. => execSubi_good h
  | .muli .. => execMuli_good h
  | .shli .. => execShli_good h
  | .shri .. => execShri_good h
  | .srai .. => execSrai_good h
  | .andi .. => execAndi_good h
  | .ori .. => execOri_good h
  | .xori .. => execXori_good h
  | .mini .. => execMini_good h
  | .maxi .. => execMaxi_good h
  | .minui .. => execMinui_good h
  | .maxui .. => execMaxui_good h
  | .movi .. => execMovi_good h
  | .movhi .. => execMovhi_good h
  | .gset .. => execGset_good h
  | .gnext .. => execGnext_good h
  | .greset .. => execGreset_good h
  | .loopOp .. => execLoopOp_good h
  | .cmp .. => execCmp_good h
  | .cmpi .. => execCmpi_good h
  | .pand .. => execPand_good h
  | .por .. => execPor_good h
  | .pnot .. => execPnot_good h
  | .br .. => execBr_good h
  | .brl .. => execBrl_good h
  | .brlResolve .. => execBrlResolve_good h
  | .ldl .. => execLdl_good h
  | .stl .. => execStl_good h
  | .lds .. => execLds_good h
  | .sts .. => execSts_good h
  | .push .. => execPush_good h
  | .waitl .. => execWaitl_good h
  | .sigl .. => execSigl_good h
  | .siglSignal .. => execSiglSignal_good h
  | .poisl .. => execPoisl_good h
  | .hinge .. => execHinge_good h
  | .endProgram .. => execEndProgram_good h
  | .illegalOp .. => execIllegalOp_good h
  | .mma .. => execMma_good h
  | .drain .. => execDrain_good h
  | .tnop .. => execTnop_good h
  | .move .. => execMove_good h
  | .prefetch .. => execPrefetch_good h
  | .loadop .. => execLoadop_good h
  | .gemv .. => execGemv_good h
  | .ewise .. => execEwise_good h
  | .norm .. => execNorm_good h
  | .deq .. => execDeq_good h
  | .topk .. => execTopk_good h
  | .sqGather .. => execSqGather_good h
  | .smxArm .. => execSmxArm_good h
  | .smxNorm .. => execSmxNorm_good h
  | .ucall .. => execUcall_good h
  | .kvScore .. => execKvScore_good h
  | .kvApply .. => execKvApply_good h
  | .smxMerge .. => execSmxMerge_good h
  | .gate .. => execGate_good h
  | .combine .. => execCombine_good h
  | .select .. => execSelect_good h
  | .stepRecord .. => execStepRecord_good h
  | .allreduce .. => execAllreduce_good h
  | .reduceScatter .. => execReduceScatter_good h
  | .allgather .. => execAllgather_good h
  | .broadcast .. => execBroadcast_good h
  | .mqGather .. => execMqGather_good h
  | .dispatch .. => execDispatch_good h
  | .returnRows .. => execReturnRows_good h
  | .ringShift .. => execRingShift_good h
  | .barrier .. => execBarrier_good h
  | .engineCommandCompletion .. => execEngineCommandCompletion_good h
  | .runStart => execRunStart_good h
  | .quantumExpiry .. => execQuantumExpiry_good h
  | .hingePointReached .. => execHingePointReached_good h
  | .hingeLate .. => execHingeLate_good h
  | .shutterSave .. => execShutterSave_good h
  | .runRestore .. => execRunRestore_good h
  | .migrationDrainTimeout .. => execMigrationDrainTimeout_good h
  | .burstYield .. => execBurstYield_good h
  | .refreshDue .. => execRefreshDue_good h
  | .forcedRefresh .. => execForcedRefresh_good h
  | .opportunisticRefresh .. => execOpportunisticRefresh_good h
  | .refreshComplete .. => execRefreshComplete_good h
  | .hostApertureRead .. => execHostApertureRead_good h
  | .hostApertureWrite .. => execHostApertureWrite_good h
  | .atomicopRequest f win off => execAtomicopRequest_good (x0 := f) (x1 := win) (x2 := off) h
  | .letterboxLineDrain .. => execLetterboxLineDrain_good h
  | .mergeEntryDrain .. => execMergeEntryDrain_good h
  | .patrolRow .. => execPatrolRow_good h
  | .eccBucketLeak .. => execEccBucketLeak_good h
  | .zeroFillDone .. => execZeroFillDone_good h
  | .unitGate .. => execUnitGate_good h
  | .unitWakeDone .. => execUnitWakeDone_good h
  | .microcodeSwap .. => execMicrocodeSwap_good h
  | .sensorSample .. => execSensorSample_good h
  | .thermalTrip .. => execThermalTrip_good h
  | .tripClear .. => execTripClear_good h
  | .thermFaultClear .. => execThermFaultClear_good h
  | .diodeCalibration .. => execDiodeCalibration_good h
  | .controlStep .. => execControlStep_good h
  | .thermalStepRelease .. => execThermalStepRelease_good h
  | .floorEngage .. => execFloorEngage_good h
  | .floorRelease .. => execFloorRelease_good h
  | .slowNoticeRenew => execSlowNoticeRenew_good h
  | .slowNoticeReceive .. => execSlowNoticeReceive_good h
  | .slowNoticeLapse .. => execSlowNoticeLapse_good h
  | .linkLightOn .. => execLinkLightOn_good h
  | .linkLightLost .. => execLinkLightLost_good h
  | .lanesLocked .. => execLanesLocked_good h
  | .negotiationComplete .. => execNegotiationComplete_good h
  | .laneFail .. => execLaneFail_good h
  | .flitReceive .. => execFlitReceive_good h
  | .negativeAck .. => execNegativeAck_good h
  | .replayTimeout .. => execReplayTimeout_good h
  | .laneCalibration .. => execLaneCalibration_good h
  | .calibrationPeriod .. => execCalibrationPeriod_good h
  | .stepTimeout .. => execStepTimeout_good h
  | .joinAnnounce .. => execJoinAnnounce_good h
  | .joinAnnounceRepeat => execJoinAnnounceRepeat_good h
  | .joinRefuse .. => execJoinRefuse_good h
  | .groupCommit .. => execGroupCommit_good h
  | .groupAbort => execGroupAbort_good h
  | .formationTimeout => execFormationTimeout_good h
  | .lintelBeatSend => execLintelBeatSend_good h
  | .lintelBeat => execLintelBeat_good h
  | .lintelLost => execLintelLost_good h
  | .lintelAnnounceTimeout => execLintelAnnounceTimeout_good h
  | .peerLostReport .. => execPeerLostReport_good h
  | .memberLost .. => execMemberLost_good h
  | .leave .. => execLeave_good h
  | .planPublish .. => execPlanPublish_good h
  | .planGraceExpiry .. => execPlanGraceExpiry_good h
  | .placeStage .. => execPlaceStage_good h
  | .placeStaged .. => execPlaceStaged_good h
  | .placeStagedTimeout .. => execPlaceStagedTimeout_good h
  | .placeCommit .. => execPlaceCommit_good h
  | .placeAbort .. => execPlaceAbort_good h
  | .stepReport .. => execStepReport_good h
  | .placeRelease .. => execPlaceRelease_good h
  | .powerShare .. => execPowerShare_good h
  | .powerShareSend => execPowerShareSend_good h
  | .stepBoundary .. => execStepBoundary_good h
  | .parkStep .. => execParkStep_good h
  | .restoreStep .. => execRestoreStep_good h
  | .ttlSweep .. => execTtlSweep_good h
  | .farDirectoryWalk => execFarDirectoryWalk_good h
  | .farPortBringup .. => execFarPortBringup_good h
  | .farLinkDown .. => execFarLinkDown_good h
  | .farLinkUp .. => execFarLinkUp_good h
  | .expanderEvent .. => execExpanderEvent_good h
  | .fwVersion .. => execFwVersion_good h
  | .traceSet .. => execTraceSet_good h
  | .attest .. => execAttest_good h
  | .certRead .. => execCertRead_good h
  | .fwStage .. => execFwStage_good h
  | .fwActivate .. => execFwActivate_good h
  | .fwCommit .. => execFwCommit_good h
  | .fwQuery .. => execFwQuery_good h
  | .cfgWrite .. => execCfgWrite_good h
  | .fwRestart .. => execFwRestart_good h
  | .calibPeriod .. => execCalibPeriod_good h
  | .svcConfig .. => execSvcConfig_good h
  | .parkShare .. => execParkShare_good h
  | .ucodeQuery .. => execUcodeQuery_good h
  | .lvrStatus .. => execLvrStatus_good h
  | .thermCfg .. => execThermCfg_good h
  | .gateCfg .. => execGateCfg_good h
  | .groupBudget .. => execGroupBudget_good h
  | .floorCfg .. => execFloorCfg_good h
  | .unknownMtype .. => execUnknownMtype_good h
  | .mailboxWorkDone .. => execMailboxWorkDone_good h
  | .trialWindowEnd => execTrialWindowEnd_good h
  | .wdogExpire .. => execWdogExpire_good h
  | .fatalExc .. => execFatalExc_good h
  | .windowViol .. => execWindowViol_good h
  | .restartDone .. => execRestartDone_good h
  | .plannedRestart .. => execPlannedRestart_good h
  | .romBoot => execRomBoot_good h
  | .firstStageRelease => execFirstStageRelease_good h
  | .stackInService .. => execStackInService_good h
  | .stackTrainingFail .. => execStackTrainingFail_good h
  | .coldResetAssert => execColdResetAssert_good h
  | .coldResetRelease => execColdResetRelease_good h
  | .pwrGoodLow => execPwrGoodLow_good h
  | .perstAssert .. => execPerstAssert_good h
  | .hostLinkLoss .. => execHostLinkLoss_good h
  | .functionLevelReset .. => execFunctionLevelReset_good h
  | .caseRst .. => execCaseRst_good h
  | .devRst .. => execDevRst_good h
  | .adminQueueEnable .. => execAdminQueueEnable_good h
  | .adminQueueDisable .. => execAdminQueueDisable_good h
  | .adminQueueDrained .. => execAdminQueueDrained_good h
  | .apertureWindowWrite .. => execApertureWindowWrite_good h
  | .compatLevelWrite .. => execCompatLevelWrite_good h
  | .eccCeCfgWrite .. => execEccCeCfgWrite_good h
  | .eccCeClr .. => execEccCeClr_good h
  | .registerWrite .. => execRegisterWrite_good h
  | .mgmtRegisterRead .. => execMgmtRegisterRead_good h
  | .mgmtRegisterWrite .. => execMgmtRegisterWrite_good h
  | .mgmtAccessDone => execMgmtAccessDone_good h
  | .mgmtResultRead => execMgmtResultRead_good h
  | .mgmtAlertResponse => execMgmtAlertResponse_good h
  | .idcode => execIdcode_good h
  | .bypass => execBypass_good h
  | .samplePreload => execSamplePreload_good h
  | .extest => execExtest_good h
  | .extestPulse => execExtestPulse_good h
  | .extestTrain => execExtestTrain_good h
  | .testLogicReset => execTestLogicReset_good h
  | .perstDeassert .. => execPerstDeassert_good h
  | .leaveAcknowledged => execLeaveAcknowledged_good h
  | .lostLintelAnnouncement .. => execLostLintelAnnouncement_good h
  | .lintelStepReport .. => execLintelStepReport_good h
  | .raiseRequest .. => execRaiseRequest_good h
  | .managementMessageRepeat .. => execManagementMessageRepeat_good h
  | .selftestDone .. => execSelftestDone_good h
  | .resetComplete .. => execResetComplete_good h

/-- The queue of commands is no memory. -/
theorem MemOk.with_pending {s : State} (h : MemOk s) (p : List Instr) : MemOk { s with pending := p } :=
  ⟨h.mbxBuf, h.localMem, h.sharedMem, h.tileMem, h.stackMem, h.farMem, h.hostMem⟩

/-- A step with canonical memories goes on to a good state, with the queue's rest. -/
theorem step_good {s : State} (h : MemOk s) : GoodN s.fuse (s.pending.drop 1) (step s) := by
  unfold step
  split
  next hp => exact goodN_next (idle_good ⟨rfl, by rw [hp]; rfl, h⟩)
  next c cs hp => exact exec_good ⟨rfl, by rw [hp]; rfl, h.with_pending cs⟩ c

/-- Settles O4: a step is the command in front or the passing of a cycle, and either leaves a good state good. -/
theorem stepKeepsMemoriesCanonical : Obligations.StepKeepsMemoriesCanonical := by
  unfold Obligations.StepKeepsMemoriesCanonical
  intro s h
  obtain ⟨t, goes, good⟩ := step_good h
  exact ⟨t, goes, good.mem, good.fuse, good.pending⟩

end Sys2Proof.Machine
end

section
/-! SUPPORT. The memory packets (09 R324-R328; 05 R217): each operation where no check of its own refuses it. -/

namespace Sys2Proof.Machine

open Sys2Proof.Claims

section
variable {k : Pkt} {e : Entry} {t : State}

theorem Carries.c (he : Carries e k) : hC e.hdr = k.c := congrArg hC he.hdr

/-! What the allocations ask for. -/

section
variable {off base kind unit len : Nat} {sm : BitVec 12} {bs : BitVec 64} (h : MemAllocOk off base kind unit len sm bs k t)
include h

/-- The stacks of a MEM_ALLOC are those that it names: one for a stripe, a mask of them else (09 R324). -/
theorem memAlloc_stacks : (if le k.p 16 1 = 1 then BitVec.twoPow 12 (le k.p 17 1) else BitVec.ofNat 12 (le k.p 20 2)) = sm := by
  obtain ⟨-, -, -, rfl, -, -, -, -, hsm, -⟩ := h
  exact hsm.symm

/-- Its size on each stack and bank set, and in all, rounded up to whole granules (09 R324). -/
theorem memAlloc_sizes :
    (if le k.p 16 1 = 0 then alignUp (le k.p 8 8) ((ones sm).length * (ones bs).length * 4096) / ((ones sm).length * (ones bs).length)
      else alignUp (le k.p 8 8) 4096) = unit
    ∧ (if le k.p 16 1 = 0 then unit * ((ones sm).length * (ones bs).length) else if le k.p 16 1 = 1 then unit * (ones bs).length else unit) = len := by
  obtain ⟨-, -, -, rfl, -, -, -, -, -, -, -, -, hunit, hlen, -⟩ := h
  exact ⟨hunit.symm, hlen.symm⟩

/-- None of the checks of 09 R325 on its payload refuses it. -/
theorem memAlloc_inRange :
    (dirty k.p 22 2 || dirty k.p 32 32 || 4095 < le k.p 20 2 || 2 < le k.p 16 1 || le k.p 8 8 = 0 || (le k.p 16 1 = 1 && 2 ^ 30 < le k.p 8 8)
      || (le k.p 16 1 ≠ 2 && bs = 0) || (le k.p 16 1 = 0 && BitVec.ofNat 12 (le k.p 20 2) = 0)
      || (le k.p 16 1 ≠ 2 && (bs &&& ~~~ casBs t (ctxCas t k.ctx)) ≠ 0) || 11 < le k.p 17 1
      || (le k.p 16 1 = 1 && (le k.p 18 2 = 0 || handleUsed t k.ctx (le k.p 18 2))) || (le k.p 0 8 ≠ 0 && vaBad t k.ctx (le k.p 0 8) len)) = false := by
  obtain ⟨clean22, clean32, flags, rfl, kinds, sized, stack, -, hsm, placed, named, stripe, -, -, wanted, -⟩ := h
  simp only [Bool.or_eq_false_iff, Bool.and_eq_false_imp, decide_eq_true_eq, decide_eq_false_iff_not, Nat.not_lt]
  refine ⟨⟨⟨⟨⟨⟨⟨⟨⟨⟨⟨clean22, clean32⟩, Nat.le_of_lt_succ flags⟩, kinds⟩, sized⟩, fun one => (stripe one).1⟩, fun near => (placed near).1⟩, ?spread⟩,
    fun near => not_not.mpr (placed near).2.1⟩, stack⟩, fun one => (stripe one).2⟩, wanted⟩
  case spread =>
    intro zero
    rw [if_neg (by omega)] at hsm
    exact hsm ▸ named zero

/-- Every stack that it names is in service (15 R549). -/
theorem memAlloc_inService : (le k.p 16 1 ≠ 2 && (sm &&& ~~~ t.dev.stackIn) ≠ 0) = false := by
  obtain ⟨-, -, -, rfl, -, -, -, -, -, placed, -⟩ := h
  rw [Bool.and_eq_false_imp]
  exact fun near => decide_eq_false (not_not.mpr (placed (of_decide_eq_true near)).2.2)

end

theorem opMemAlloc_of_free {off base kind unit len : Nat} {sm : BitVec 12} {bs : BitVec 64} (he : Carries e k)
    (h : MemAllocOk off base kind unit len sm bs k t) :
    opMemAlloc k.q e t = fin (Res.ok (base / 4096 % 2 ^ 32)) (addAlloc
      { ctx := k.ctx, base := base, len := len, kind := if kind = 0 then .interleaved else if kind = 1 then .stripe else .far, off := off,
        unit := if kind = 1 then unit else 0, smask := if kind = 2 then 0 else sm, bsmask := if kind = 2 then 0 else bs,
        handle := if kind = 1 then le k.p 18 2 else 0, port := 0, ro := false } t) := by
  have hinRange := memAlloc_inRange h
  have hinService := memAlloc_inService h
  have ⟨hunit, hlen⟩ := memAlloc_sizes h
  have hstacks := memAlloc_stacks h
  obtain ⟨-, -, -, rfl, -, -, -, rfl, -, -, -, -, -, -, -, full, room, place, baseFree⟩ := h
  simp only [opMemAlloc, he.pl, he.ctx, hstacks, hunit, hlen, hinRange, hinService, full, room, place, baseFree, Bool.false_and, Bool.or_self,
    Bool.false_eq_true, if_false]
  rfl

/-- MEM_FREE of an allocation that nothing holds: its descriptors become stale, and its space is given up once what may use it has ended (09 R326). -/
theorem opMemFree_of_unheld {i : Nat} {a : Alloc} (he : Carries e k) (h : MemFreeOk i a k t) :
    opMemFree k.q e t = fin (Res.ok 0) (releaseAlloc a
      (((readersOf t k.ctx).flatMap (fun c => startedUids t (some c))).filter (fun u => u ≠ k.uid))
      (staleDescs (readersOf t k.ctx) a.base (a.base + a.len) (t.delAlloc i))) := by
  obtain ⟨there, unheld, unscrubbed⟩ := h
  simp only [opMemFree, he.ctx, he.c, he.uid, there, unheld, unscrubbed, Bool.false_eq_true, if_false]

theorem opMemMapHost_of_free {base : Nat} (he : Carries e k) (h : MemMapHostOk base k t) :
    opMemMapHost k.q e t = fin (Res.ok (base / 4096 % 2 ^ 32)) (addAlloc
      { ctx := k.ctx, base := base, len := le k.p 8 8, kind := .host, off := le k.p 0 8, unit := 0, smask := 0, bsmask := 0, handle := 0,
        port := (if (t.casAt (ctxCas t k.ctx)).owner = 0 then (match t.getQueue k.q with | some x => fnPort x.fn | none => 0)
          else (t.casAt (ctxCas t k.ctx)).owner - 1), ro := (le k.p 24 1).testBit 0 } t) := by
  obtain ⟨clean, flag, busAligned, lenAligned, long, wanted, room, baseFree⟩ := h
  have inRange : (dirty k.p 25 7 || 1 < le k.p 24 1 || le k.p 0 8 % 4096 ≠ 0 || le k.p 8 8 % 4096 ≠ 0 || le k.p 8 8 = 0
      || (le k.p 16 8 ≠ 0 && vaBad t k.ctx (le k.p 16 8) (le k.p 8 8))) = false := by
    simp only [Bool.or_eq_false_iff, Bool.and_eq_false_imp, decide_eq_true_eq, decide_eq_false_iff_not, Nat.not_lt]
    exact ⟨⟨⟨⟨⟨clean, flag⟩, not_not.mpr busAligned⟩, not_not.mpr lenAligned⟩, long⟩, wanted⟩
  simp only [opMemMapHost, he.pl, he.ctx, inRange, room, baseFree, Bool.false_eq_true, if_false]
  rfl

/-! Copies. -/

theorem copyOut_of_written {c uid dst : Nat} {bs : List Byte} {s s' : State} (h : vaWrite c uid dst bs s = (s', .ok)) :
    copyOut c uid dst bs s = fin (Res.ok 0) s' := by
  simp only [copyOut, h]

/-- A MEM_COPY whose ranges are apart writes what it has read (09 R328). -/
theorem opMemCopy_of_apart {bs : List Byte} {t1 t2 : State} (he : Carries e k) (h : MemCopyOk bs t1 t2 k t) :
    opMemCopy k.q e t = fin (Res.ok 0) t2 := by
  obtain ⟨clean, source, destination, read, apart, written⟩ := h
  have disjoint : (le k.p 0 8 < le k.p 8 8 + le k.p 16 8 && le k.p 8 8 < le k.p 0 8 + le k.p 16 8) = false := by
    rw [← Bool.not_eq_true, Bool.and_eq_true, decide_eq_true_eq, decide_eq_true_eq]
    omega
  simp only [opMemCopy, he.pl, he.ctx, he.uid, clean, source, destination, read, disjoint, Bool.and_self, Bool.not_true, Bool.false_eq_true, if_false,
    copyOut_of_written written]

theorem opMemFill_of_inside {t2 : State} (he : Carries e k) (h : MemFillOk t2 k t) : opMemFill k.q e t = fin (Res.ok 0) t2 := by
  obtain ⟨clean, destination, written⟩ := h
  simp only [opMemFill, he.pl, he.ctx, he.uid, clean, destination, Bool.not_true, Bool.false_eq_true, if_false, copyOut_of_written written]

end

/-- Settles O27: each packet by its operation, where none of that operation's own checks refuses it. -/
theorem memoryPackets : Obligations.MemoryPackets := by
  unfold Obligations.MemoryPackets
  refine ⟨?alloc, ?free, ?mapHost, ?copy, ?fill, ?fence⟩
  case alloc =>
    exact fun off base kind unit len sm bs => completesOk_of_op (List.mem_of_getElem? (i := 10) rfl) fun k e t he => opMemAlloc_of_free he
  case free => exact fun i a => completesOk_of_op (List.mem_of_getElem? (i := 11) rfl) fun k e t he => opMemFree_of_unheld he
  case mapHost => exact fun base => completesOk_of_op (List.mem_of_getElem? (i := 12) rfl) fun k e t he => opMemMapHost_of_free he
  case copy => exact fun bs t1 t2 => completesOk_of_op (List.mem_of_getElem? (i := 14) rfl) fun k e t he => opMemCopy_of_apart he
  case fill => exact fun t2 => completesOk_of_op (List.mem_of_getElem? (i := 15) rfl) fun k e t he => opMemFill_of_inside he
  case fence => exact goesOn_of_op (List.mem_of_getElem? (i := 13) rfl) fun _ _ _ _ _ => rfl

end Sys2Proof.Machine
end

section
/-! SUPPORT. The packets of maintenance, power and the fabric (09 R345-R351; 15 R540-R543; 10 R372, R377-R392; 14 R516, R517): each operation where no
check of its own refuses it. -/

namespace Sys2Proof.Machine

open Sys2Proof.Claims

section
variable {k : Pkt} {e : Entry} {t : State}

/-! Maintenance. -/

theorem opScrubRange_of_mapped (he : Carries e k) (h : ScrubRangeOk k t) : opScrubRange k.q e t = going t := by
  obtain ⟨clean, flag, long, inside, aligned, room, granules⟩ := h
  have flag : ¬ 1 < le k.p 24 1 := Nat.not_lt.mpr flag
  have inside : ¬ 2 ^ 52 < le k.p 0 8 + le k.p 8 8 := Nat.not_lt.mpr inside
  unfold opScrubRange
  rw [he.pl, he.ctx]
  refine if_neg fun refused => ?_
  simp only [clean, flag, long, inside, aligned, room, ne_eq, not_true_eq_false, decide_false, Bool.not_true, Bool.or_self, Bool.false_or,
    Bool.not_eq_true'] at refused
  exact Bool.false_ne_true (refused.symm.trans granules)

theorem opSelftest_of_testable (he : Carries e k) (h : SelftestOk k t) :
    opSelftest k.q e t = going (t.modCas (le k.p 0 1) (fun v => { v with selftest := some (k.q, k.uid, le k.p 1 1, le k.p 2 1) })) := by
  obtain ⟨clean3, clean16, positive, tests, cas, stack, aligned, reached, full, empty, idle, window⟩ := h
  have inRange : (dirty k.p 3 5 || dirty k.p 16 16 || 31 < le k.p 1 1 || le k.p 1 1 = 0 || 15 < le k.p 0 1 || 11 < le k.p 2 1
      || le k.p 8 8 % 64 ≠ 0) = false := by
    simp only [clean3, clean16, aligned, Bool.false_or, Bool.or_eq_false_iff, decide_eq_false_iff_not]
    omega
  have allowed : (le k.p 1 1 ≠ 16 && !reachesCas t k.q (le k.p 0 1)) = false := by
    rw [Bool.and_eq_false_imp, decide_eq_true_eq, Bool.not_eq_false']
    exact reached
  have unused : (le k.p 1 1 % 16 ≠ 0 && !(ctxsOf t (le k.p 0 1)).isEmpty) = false := by
    rw [Bool.and_eq_false_imp, decide_eq_true_eq, Bool.not_eq_false', List.isEmpty_iff]
    exact empty
  have untested : ((t.casAt (le k.p 0 1)).selftest.isSome || ((le k.p 1 1).testBit 4 && windowTest t (le k.p 2 1))) = false := by
    rw [idle, Option.isSome_none, Bool.false_or, Bool.and_eq_false_imp]
    exact window
  simp only [opSelftest, he.pl, he.uid, inRange, allowed, full, unused, untested, Bool.false_eq_true, if_false]

/-- No access to a stack touches the memory of a host. -/
theorem hostMem_reachBank (a : Nat) (s : State) : (reachBank a s).hostMem = s.hostMem := by
  unfold reachBank reachStack wakeFor
  dsimp only
  split_ifs <;> rfl

/-- An ECC_TEST with operation `n` and a clean payload, of a word of a window in service that is not under test (09 R349). -/
def EccTestReady (n : Nat) (k : Pkt) (t : State) : Prop :=
  dirty k.p 2 2 = false ∧ dirty k.p 16 16 = false ∧ le k.p 0 1 % 128 = n ∧ le k.p 1 1 < 12 ∧ le k.p 4 4 % 64 = 0 ∧ le k.p 4 4 < 2 ^ 20
  ∧ le k.p 8 8 % 64 = 0 ∧ t.dev.stackIn.getLsbD (le k.p 1 1) = true ∧ windowTest t (le k.p 1 1) = false

theorem eccTestWriteOk_iff : EccTestWriteOk k t ↔ EccTestReady 1 k t := Iff.rfl

theorem eccTestCheckOk_iff : EccTestCheckOk k t ↔ EccTestReady 4 k t := Iff.rfl

theorem opEccTest_of_ready {n : Nat} (he : Carries e k) (hn : 1 ≤ n ∧ n ≤ 4) (h : EccTestReady n k t) : opEccTest k.q e t = eccDo k.q e t := by
  obtain ⟨clean2, clean16, op, stack, word, inside, aligned, inService, untested⟩ := h
  have inRange : (le k.p 0 1 % 128 < 1 || 4 < le k.p 0 1 % 128 || 11 < le k.p 1 1 || le k.p 4 4 % 64 ≠ 0 || 2 ^ 20 ≤ le k.p 4 4
      || le k.p 8 8 % 64 ≠ 0) = false := by
    simp only [op, word, aligned, Bool.or_eq_false_iff, decide_eq_false_iff_not]
    omega
  simp only [opEccTest, he.pl, clean2, clean16, inRange, inService, untested, Bool.or_self, Bool.not_true, Bool.false_eq_true, if_false]

/-- OP 1 writes the window word from the host's buffer (09 R350). -/
theorem opEccTest_write (he : Carries e k) (h : EccTestWriteOk k t) :
    opEccTest k.q e t = fin (Res.ok 0) ((reachBank (winAddr (le k.p 1 1) (le k.p 4 4)) t).putWindow (le k.p 1 1 * 16384 + le k.p 4 4 / 64)
      (busRead t (fnPort k.q) (le k.p 8 8) 64, busRead t (fnPort k.q) (le k.p 8 8 + 64) 8)) := by
  rw [opEccTest_of_ready he ⟨by omega, by omega⟩ (eccTestWriteOk_iff.mp h)]
  obtain ⟨-, -, op, -⟩ := h
  simp only [eccDo, he.pl, op, busRead, hostMem_reachBank, Nat.reduceEqDiff, if_false, if_true]

/-- OP 4 answers the check bytes of the host's data and reaches no stack (09 R350). -/
theorem opEccTest_check (he : Carries e k) (h : EccTestCheckOk k t) :
    opEccTest k.q e t = fin (Res.ok 0) (busWrite (fnPort k.q) (le k.p 8 8 + 64)
      (checkOf (winAddr (le k.p 1 1) (le k.p 4 4)) (busRead t (fnPort k.q) (le k.p 8 8) 64)) t) := by
  rw [opEccTest_of_ready he ⟨by omega, by omega⟩ (eccTestCheckOk_iff.mp h)]
  obtain ⟨-, -, op, -⟩ := h
  simp only [eccDo, he.pl, op, Nat.reduceEqDiff, if_false, if_true]

theorem opLinkCalib_of_full_service (he : Carries e k) (h : ajar t = false) :
    opLinkCalib k.q e t = going (forEach ((bitsWhere 16 (fun p => k.a.testBit p)).filter (fun p => canCalib (t.portAt p)))
      (fun p t => t.modPort p (fun x => { x with calib := [0, 1, 2, 3], lcal := some (k.q, k.uid) }))
      (updEntry k.q k.uid (fun y => { y with deps := [0] }) t)) := by
  simp only [opLinkCalib, he.a, he.uid, h, Bool.false_eq_true, if_false]

/-! Power. -/

theorem opPwrSetLimit_of_inRange (he : Carries e k) (h : 600 ≤ k.a ∧ k.a ≤ 1100) :
    opPwrSetLimit k.q e t = fin (Res.ok (plim (t.onLvr (fun l => { l with hostLim := k.a })))) (t.onLvr (fun l => { l with hostLim := k.a })) := by
  have inRange : (k.a < 600 || 1100 < k.a) = false := by
    simp only [Bool.or_eq_false_iff, decide_eq_false_iff_not]
    omega
  simp only [opPwrSetLimit, he.a, inRange, Bool.false_eq_true, if_false]

theorem opPwrRead_eq (he : Carries e k) :
    opPwrRead k.q e t = fin (Res.ok t.lvr.draw) (if k.d = 0 then t else busWrite (fnPort k.q) k.d (powerRecord t) t) := by
  rw [opPwrRead, he.d]

/-! The fabric. -/

theorem opFabJoin_of_start (he : Carries e k) (hj : joinBad t k.q k.p = false) (hs : ajar t = false) (ha : le k.p 0 1 = 0) :
    opFabJoin k.q e t = going (startJoin k.q k.uid k.p t) := by
  simp only [opFabJoin, he.pl, he.uid, hj, hs, ha, Bool.false_eq_true, if_false, if_true]

theorem opFabJoin_of_raise (he : Carries e k) (h : FabRaiseOk k t) : opFabJoin k.q e t = fin (Res.ok (le k.p 3 1)) (rebuildPlans (le k.p 3 1) t) := by
  obtain ⟨known, full, raise, lintel, stands, allowed⟩ := h
  simp only [opFabJoin, he.pl, known, full, raise, lintel, stands, allowed, Bool.and_false, Bool.false_eq_true, Nat.one_ne_zero, if_false, if_true]

theorem opFabJoin_of_team {n : Nat} {t1 : State} (he : Carries e k) (h : FabTeamOk n t1 k t) :
    opFabJoin k.q e t = fin (Res.ok t1.fab.level) (busWrite (fnPort k.q) (BitVec.ofNat 64 (le k.p 64 8)).toNat (joinRecord t1 n) t1) := by
  obtain ⟨known, full, team, lintel, stands, entered⟩ := h
  simp only [opFabJoin, he.pl, known, full, team, lintel, stands, entered, Bool.and_false, Bool.false_eq_true, Nat.reduceEqDiff, OfNat.ofNat_ne_zero,
    if_false, if_true]

theorem opFabLeave_of_member (hm : t.fab.member = true) (hw : t.fab.wait = .none) : opFabLeave k.q e t = going t := by
  simp only [opFabLeave, hm, hw, Bool.not_true, ne_eq, not_true_eq_false, decide_false, Bool.or_self, Bool.false_eq_true, if_false]

theorem opFabStatus_of_member (he : Carries e k) (h : FabStatusOk k t) :
    opFabStatus k.q e t = fin (Res.ok (liveRanks t).length) (busWrite (fnPort k.q) k.d
      (padTo 256 (joinRecord t k.c ++ (List.range 16).flatMap (fun p =>
        toLE (portCode (t.portAt p).st) 1 ++ toLE (t.portAt p).width 1 ++ toLE (t.portAt p).level 1 ++ toLE (b2n (t.portAt p).spare) 1
        ++ toLE (t.portAt p).peer 2 ++ toLE (t.portAt p).retrained 2) ++ toLE t.fab.lost.length 2)) t) := by
  obtain ⟨team, member⟩ := h
  have known : (k.c ≠ 0 && (tget t.fab.teams k.c).isNone) = false := by
    rw [Bool.and_eq_false_imp, decide_eq_true_eq, Option.isNone_eq_false_iff]
    exact team.resolve_left
  simp only [opFabStatus, he.c, he.d, known, member, Bool.false_eq_true, if_false, if_true]

end

/-- SCRUB_RANGE, SELFTEST, ECC_TEST, LINK_CALIB, PWR_SET_LIMIT and PWR_READ. -/
theorem maintenanceAndPowerPackets : MaintenanceAndPowerPackets := by
  refine ⟨?scrub, ?selftest, ?write, ?check, ?calib, ?limit, ?read⟩
  case scrub => exact goesOn_of_op (List.mem_of_getElem? (i := 36) rfl) fun k e t he => opScrubRange_of_mapped he
  case selftest => exact goesOn_of_op (List.mem_of_getElem? (i := 37) rfl) fun k e t he => opSelftest_of_testable he
  case write => exact completesOk_of_op (List.mem_of_getElem? (i := 38) rfl) fun k e t he => opEccTest_write he
  case check => exact completesOk_of_op (List.mem_of_getElem? (i := 38) rfl) fun k e t he => opEccTest_check he
  case calib => exact goesOn_of_op (List.mem_of_getElem? (i := 39) rfl) fun k e t he => opLinkCalib_of_full_service he
  case limit => exact completesOk_of_op (List.mem_of_getElem? (i := 43) rfl) fun k e t he => opPwrSetLimit_of_inRange he
  case read => exact completesOk_of_op (List.mem_of_getElem? (i := 44) rfl) fun k e t he _ => opPwrRead_eq he

/-- FAB_JOIN, FAB_LEAVE and FAB_STATUS. -/
theorem fabricPackets : FabricPackets := by
  refine ⟨?join, ?raise, ?team, ?leave, ?status⟩
  case join =>
    exact goesOn_of_op (List.mem_of_getElem? (i := 40) rfl) fun k e t he ⟨known, full, start⟩ => opFabJoin_of_start he known full start
  case raise => exact completesOk_of_op (List.mem_of_getElem? (i := 40) rfl) fun k e t he => opFabJoin_of_raise he
  case team => exact fun n t1 => completesOk_of_op (List.mem_of_getElem? (i := 40) rfl) fun k e t he => opFabJoin_of_team he
  case leave => exact goesOn_of_op (List.mem_of_getElem? (i := 41) rfl) fun k e t _ ⟨member, free⟩ => opFabLeave_of_member member free
  case status => exact completesOk_of_op (List.mem_of_getElem? (i := 42) rfl) fun k e t he => opFabStatus_of_member he

/-- Settles O34: each packet by its operation, where none of that operation's own checks refuses it. -/
theorem maintenanceAndFabricPackets : Obligations.MaintenanceAndFabricPackets := ⟨maintenanceAndPowerPackets, fabricPackets⟩

end Sys2Proof.Machine
end

section
/-! SUPPORT. Parking and restoring (09 R357-R360): what one step of a job does with the page in hand, and how PARK_STEP and RESTORE_STEP run it
(01 R39). -/

namespace Sys2Proof.Machine

open Sys2Proof.Claims

/-! What a job looks at before its step is tried. -/

theorem freeUnits_tried (uid : Nat) (s : State) (n : Nat) : freeUnits (tried uid s) n = freeUnits s n := rfl

theorem choosePlace_tried (uid : Nat) (s : State) (q : Nat) (x : Seq) (l : Nat) : choosePlace (tried uid s) q x l = choosePlace s q x l := rfl

/-- Two changes of one job are one. -/
theorem State.updJob_updJob (s : State) (j : Nat) (f g : Job → Job) : (s.updJob j f).updJob j g = s.updJob j (fun y => g (f y)) := by
  cases h : tget s.job j <;> simp [State.onJob, h, tset_tset_same]

/-! A command whose meaning is one attempt (01 R39). -/

section
variable {c : Instr} {uid : Nat} {F : State → State} {s : State} (h : exec c s = .next (pumpAll (attempt uid F s)))
include h

theorem exec_attempt_of_passes {f : State → State} (hf : F (tried uid s) = f (tried uid s)) (hpass : Passes uid f s) :
    exec c s = .next (pumpAll (passed uid f s)) := by
  rw [h, attempt_congr hf, attempt_of_passes hpass]

theorem exec_attempt_of_eq {u : State} (hu : F (tried uid s) = u) (hc : Clear u) : exec c s = .next (pumpAll (u.onAcc (fun _ => Reach.none))) :=
  exec_attempt_of_passes (f := fun _ => u) h hu hc

theorem exec_attempt_of_waits (hwait : ¬ Passes uid F s) : exec c s = .next (pumpAll (delayed uid F s)) := by
  rw [h, attempt_of_not_passes hwait]

end

section
variable {j i : Nat} {rest : List Nat} {x : Job} {p : Page} {d : FRec} {s : State}

/-! PARK_STEP (09 R358). -/

theorem exec_parkStep_of_runs (hj : s.getJob j = some x) (hp : x.park = true) (hr : jobRuns s j x = true) (hs : ajar s = false) :
    exec (.parkStep j) s = .next (pumpAll (attempt x.uid (parkStep j x) s)) := by
  change execParkStep j s = _
  simp only [execParkStep, hj, hp, hr, hs, Bool.not_false, Bool.and_self, if_true]

section
variable (hx : x.pages = i :: rest) (hg : s.getPage i = some p) (hres : p.st = .resident) (hkept : p.freeing = none)
include hx hg hres hkept

/-- A page that is to be parked is RESIDENT, and not being freed (09 R358). -/
theorem parkStep_of_no_record (hd : s.getFdir i = none) : parkStep j x s = parkBegin j x i p s := by
  simp only [parkStep, hx, hg, hres, hkept, hd, ne_eq, not_true_eq_false, decide_false, Option.isSome_none, Bool.or_self, Bool.false_eq_true, if_false]

/-- What a step does with a page in hand that has its record, by the phase (09 R358). -/
theorem parkStep_of_record (hd : s.getFdir i = some d) :
    parkStep j x s = if x.phase = 1 then parkCopy j x i p d s
      else if x.phase = 2 then
        if !recUp s i then jobNext j false (s.delFdir i)
        else jobPhase j 3 (markTrace x.leaf i 2 (s.putFdir i { d with mark := .complete, expiry := expiryOf (s.ctr x.leaf) x.ttl }))
      else if x.phase = 3 then parkMove j i p d s
      else parkBegin j x i p s := by
  simp only [parkStep, hx, hg, hres, hkept, hd, ne_eq, not_true_eq_false, decide_false, Option.isSome_none, Bool.or_self, Bool.false_eq_true, if_false]

theorem parkStep_copies (hd : s.getFdir i = some d) (hph : x.phase = 1) : parkStep j x s = parkCopy j x i p d s := by
  rw [parkStep_of_record hx hg hres hkept hd, if_pos hph]

theorem parkStep_completes (hd : s.getFdir i = some d) (hph : x.phase = 2) (hup : recUp s i = true) :
    parkStep j x s = jobPhase j 3 (markTrace x.leaf i 2 (s.putFdir i { d with mark := .complete, expiry := expiryOf (s.ctr x.leaf) x.ttl })) := by
  simp only [parkStep_of_record hx hg hres hkept hd, hph, hup, Nat.reduceEqDiff, OfNat.ofNat_ne_one, Bool.not_true, Bool.false_eq_true, if_false, if_true]

theorem parkStep_moves (hd : s.getFdir i = some d) (hph : x.phase = 3) : parkStep j x s = parkMove j i p d s := by
  simp only [parkStep_of_record hx hg hres hkept hd, hph, Nat.reduceEqDiff, OfNat.ofNat_ne_one, if_false, if_true]

end

theorem parkBegin_of_room {u : Nat} (hup : recUp s i = true) (hu : freeUnits s (p.len / 4096) = some u) :
    parkBegin j x i p s = jobPhase j 1 (markTrace x.leaf i 1 (s.putFdir i (parkRec x.leaf u
      (match x.keys.find? (fun k => k.1 = p.seq) with | some k => k.2 | none => 0) x.ttl p))) := by
  rw [parkBegin, hup, hu]
  rfl

/-- A page is copied where it can be read and stored; one that cannot be stays what it was, without a record (09 R358 step 2). -/
theorem parkCopy_of_stored {bs : List Byte} {t t' : State} (hr : stRead 7 (stAddr p.stack p.bset p.off) p.len s = (t, some bs))
    (hw : farWrite (d.farloc * 4096) bs t = (t', true)) : parkCopy j x i p d s = jobPhase j 2 t' := by
  simp only [parkCopy, hr, hw]

theorem parkCopy_of_unstored {bs : List Byte} {t t' : State} (hr : stRead 7 (stAddr p.stack p.bset p.off) p.len s = (t, some bs))
    (hw : farWrite (d.farloc * 4096) bs t = (t', false)) : parkCopy j x i p d s = jobNext j false (markTrace x.leaf i 0 (t'.delFdir i)) := by
  simp only [parkCopy, hr, hw]

theorem parkCopy_of_unread (hr : (stRead 7 (stAddr p.stack p.bset p.off) p.len s).2 = none) :
    parkCopy j x i p d s = jobNext j false (markTrace x.leaf i 0 ((stRead 7 (stAddr p.stack p.bset p.off) p.len s).1.delFdir i)) := by
  have read : stRead 7 (stAddr p.stack p.bset p.off) p.len s = ((stRead 7 (stAddr p.stack p.bset p.off) p.len s).1, none) := Prod.ext rfl hr
  unfold parkCopy
  rw [read]

/-! RESTORE_STEP (09 R359). -/

theorem exec_restoreStep_of_runs (hj : s.getJob j = some x) (hp : x.park = false) (hr : jobRuns s j x = true) :
    exec (.restoreStep j) s = .next (pumpAll (attempt x.uid (restoreStep j x) s)) := by
  change execRestoreStep j s = _
  simp only [execRestoreStep, hj, hp, hr, Bool.not_false, Bool.and_self, if_true]

section
variable (hx : x.pages = i :: rest) (hg : s.getPage i = some p)
include hx hg

theorem restoreStep_begins (hph : x.phase = 0) : restoreStep j x s = restoreBegin j x i p s := by
  simp only [restoreStep, hx, hg, hph]

theorem restoreStep_copies (hd : s.getFdir i = some d) (hph : x.phase = 1) : restoreStep j x s = restoreCopy j x i p d s := by
  simp only [restoreStep, hx, hg, hd, hph]

/-- A page that is copied becomes RESIDENT where it was placed (09 R359 step 3). -/
theorem restoreStep_places (hph : x.phase = 2) : restoreStep j x s = jobPhase j 3 (writePte p.seq p.layer p.slot (s.updPage i (fun y => { y with
    st := .resident, stack := saStack x.unit, bset := saBank x.unit, off := saOff x.unit, expiry := 0, farloc := 0 }))) := by
  simp only [restoreStep, hx, hg, hph]

/-- Its record goes (09 R359 step 4). -/
theorem restoreStep_ends (hph : x.phase = 3) : restoreStep j x s = jobNext j true (markTrace x.leaf i 0 (s.delFdir i)) := by
  simp only [restoreStep, hx, hg, hph]

end

theorem restoreBegin_of_expired (he : expiryDue (s.ctr x.leaf) p.expiry = true) : restoreBegin j x i p s = jobEnd j true s := by
  simp only [restoreBegin, he, Bool.or_true, if_true]

theorem restoreBegin_of_parked (hst : p.st = .parked) (he : expiryDue (s.ctr x.leaf) p.expiry = false) (hd : s.getFdir i = some d)
    (hup : recUp s i = true) : restoreBegin j x i p s = jobPhase j 1 (markTrace x.leaf i 3 (s.putFdir i { d with mark := .restoring })) := by
  simp [restoreBegin, hst, he, hd, hup]

section
variable {q : Seq} (hq : s.getSeq p.seq = some q)
include hq

/-- A page that finds no place stays PARKED, its record COMPLETE (09 R359 step 2). -/
theorem restoreCopy_of_unplaced (hpl : choosePlace s p.seq q p.layer = none) :
    restoreCopy j x i p d s = jobNext j false (markTrace x.leaf i 2 (s.putFdir i { d with mark := .complete })) := by
  simp only [restoreCopy, hq, hpl]

section
variable {pl : Place1} {t : State} (hpl : choosePlace s p.seq q p.layer = some pl)
include hpl

theorem restoreCopy_of_unread (hr : farRead 7 (d.farloc * 4096) p.len s = (t, none)) :
    restoreCopy j x i p d s = jobNext j false (markTrace x.leaf i 2 (t.putFdir i { d with mark := .complete })) := by
  simp only [restoreCopy, hq, hpl, hr]

theorem restoreCopy_of_read {bs : List Byte} (hr : farRead 7 (d.farloc * 4096) p.len s = (t, some bs)) :
    restoreCopy j x i p d s = (drainOwned x.uid (stWrite x.uid (stAddr pl.t pl.b pl.off) bs t)).updJob j
      (fun y => { y with phase := 2, unit := stAddr pl.t pl.b pl.off }) := by
  simp only [restoreCopy, hq, hpl, hr, jobPhase, State.updJob_updJob]

end
end
end

/-- Settles O52: by the phase of the job and what the page in hand meets there. -/
theorem parkAndRestoreSteps : Obligations.ParkAndRestoreSteps := by
  unfold Obligations.ParkAndRestoreSteps
  refine ⟨?park, ?restore⟩
  case park =>
    intro j i rest x p s hj hp hr hs hx hg hres hkept
    have runs := exec_parkStep_of_runs hj hp hr hs
    refine ⟨?begins, ?copies, ?unread, ?unstored, ?completes, ?moves, ?waits⟩
    case begins =>
      rintro u f hd hup hu rfl hpass
      have step := parkStep_of_no_record (j := j) (s := tried x.uid s) hx hg hres hkept hd
      exact exec_attempt_of_passes runs (step.trans (parkBegin_of_room hup ((freeUnits_tried _ _ _).trans hu))) hpass
    case copies =>
      intro d bs t t' hd hph hread _ hw hc
      have step := parkStep_copies (j := j) (s := tried x.uid s) hx hg hres hkept hd hph
      exact exec_attempt_of_eq runs (step.trans (parkCopy_of_stored hread hw)) hc
    case unread =>
      rintro d f hd hph hread rfl hpass
      have step := parkStep_copies (j := j) (s := tried x.uid s) hx hg hres hkept hd hph
      exact exec_attempt_of_passes runs (step.trans (parkCopy_of_unread hread)) hpass
    case unstored =>
      rintro d bs t t' u hd hph hread hw rfl hc
      have step := parkStep_copies (j := j) (s := tried x.uid s) hx hg hres hkept hd hph
      exact exec_attempt_of_eq runs (step.trans (parkCopy_of_unstored hread hw)) hc
    case completes =>
      rintro d f hd hph hup rfl hpass
      exact exec_attempt_of_passes runs (parkStep_completes (s := tried x.uid s) hx hg hres hkept hd hph hup) hpass
    case moves =>
      rintro d f hd hph rfl hpass
      exact exec_attempt_of_passes runs (parkStep_moves (s := tried x.uid s) hx hg hres hkept hd hph) hpass
    case waits => exact exec_attempt_of_waits runs
  case restore =>
    intro j i rest x p s hj hp hr hx hg
    have runs := exec_restoreStep_of_runs hj hp hr
    refine ⟨?begins, ?copies, ?unread, ?unplaced, ?expires, ?places, ?ends, ?waits⟩
    case begins =>
      rintro d f hph hst he hd hup rfl hpass
      have step := restoreStep_begins (j := j) (s := tried x.uid s) hx hg hph
      exact exec_attempt_of_passes runs (step.trans (restoreBegin_of_parked hst he hd hup)) hpass
    case copies =>
      intro d q pl bs t u hph hd hq hpl hread hu hc
      have step := restoreStep_copies (j := j) (s := tried x.uid s) hx hg hd hph
      rw [restoreCopy_of_read (s := tried x.uid s) hq ((choosePlace_tried _ _ _ _ _).trans hpl) hread, ← hu] at step
      exact exec_attempt_of_eq runs step hc
    case unread =>
      rintro d q pl t u hph hd hq hpl hread rfl hc
      have step := restoreStep_copies (j := j) (s := tried x.uid s) hx hg hd hph
      exact exec_attempt_of_eq runs (step.trans (restoreCopy_of_unread (s := tried x.uid s) hq ((choosePlace_tried _ _ _ _ _).trans hpl) hread)) hc
    case unplaced =>
      rintro d q f hph hd hq hpl rfl hpass
      have step := restoreStep_copies (j := j) (s := tried x.uid s) hx hg hd hph
      exact exec_attempt_of_passes runs (step.trans (restoreCopy_of_unplaced (s := tried x.uid s) hq ((choosePlace_tried _ _ _ _ _).trans hpl))) hpass
    case expires =>
      rintro f hph he rfl hpass
      have step := restoreStep_begins (j := j) (s := tried x.uid s) hx hg hph
      exact exec_attempt_of_passes runs (step.trans (restoreBegin_of_expired he)) hpass
    case places =>
      rintro f hph rfl hpass
      have step := restoreStep_places (j := j) (s := tried x.uid s) hx hg hph
      exact exec_attempt_of_passes runs step hpass
    case ends =>
      rintro f hph rfl hpass
      have step := restoreStep_ends (j := j) (s := tried x.uid s) hx hg hph
      exact exec_attempt_of_passes runs step hpass
    case waits => exact exec_attempt_of_waits runs

end Sys2Proof.Machine
end

section
/-! SUPPORT. The far tier (09 R353-R361), the end of a self-test (15 R542, R543) and the states of service (15 R545-R549). -/

namespace Sys2Proof.Machine

open Sys2Proof.Claims

/-! Far ports (09 R353, R356). -/

section
variable {p : Nat} {s : State}

/-- An expander that trained with a capacity and a speed and width of the subset (09 Table 9.7). -/
theorem expanderOk_iff (x : Expander) : expanderOk x = true ↔
    x.trained = true ∧ x.active = true ∧ 0 < x.cap ∧ (x.speed = 32 ∨ x.speed = 16) ∧ (x.width = 16 ∨ x.width = 8) := by
  simp only [expanderOk, Bool.and_eq_true, Bool.or_eq_true, decide_eq_true_eq, and_assoc]

theorem exec_farPortBringup_of_due (x : Expander) (hp : p < 2) (hk : procDown s 4 = false) (hr : s.dev.inReset = false)
    (hd : s.dev.farDone.getLsbD p = false) :
    exec (.farPortBringup p x) s = .next (pumpAll (serviceCheck (layFar
      (if expanderOk x && !tgetD s.pin.prsntN p true then
        (s.onDev (fun d => { d with farDone := setBit d.farDone p true })).onFar (fun f => { f with
          up := setBit f.up p true, cap := tset f.cap p x.cap, speed := tset f.speed p x.speed, width := tset f.width p x.width })
      else setFarDown p (s.onDev (fun d => { d with farDone := setBit d.farDone p true })))))) := by
  have due : (2 ≤ p || procDown s 4 || s.dev.inReset || s.dev.farDone.getLsbD p) = false := by
    simp only [hk, hr, hd, Bool.or_false, decide_eq_false_iff_not]
    omega
  change execFarPortBringup p x s = _
  rw [execFarPortBringup, if_neg (ne_true_of_eq_false due)]
  rfl

theorem exec_farLinkDown_of_up (hp : p < 2) (hu : s.far.up.getLsbD p = true) :
    exec (.farLinkDown p) s = .next (eccIrq (setFarDown p (s.onFar (fun f => { f with up := setBit f.up p false })))) := by
  change execFarLinkDown p s = _
  rw [execFarLinkDown, if_pos (by rw [hu, decide_eq_true hp]; rfl)]

theorem exec_farLinkUp_of_down (hp : p < 2) (hd : s.dev.farDone.getLsbD p = true) (hu : s.far.up.getLsbD p = false) (hc : 0 < farCap s p)
    (hk : procDown s 4 = false) :
    exec (.farLinkUp p) s = .next (((s.onFar (fun f => { f with up := setBit f.up p true })).onEccReg (fun e => { e with
      farDown := setBit e.farDown p false })).onDev (fun d => { d with dirWalked := false, walkDue := setBit d.walkDue p true })) := by
  change execFarLinkUp p s = _
  rw [execFarLinkUp, if_pos (by rw [hd, hu, hk, decide_eq_true hp, decide_eq_true hc]; rfl)]

theorem exec_expanderEvent_of_up (kind : Nat) (hp : p < 2) (hu : s.far.up.getLsbD p = true) :
    exec (.expanderEvent p kind) s = .next (trace 4 0x4005 2 (BitVec.ofNat 64 p) (BitVec.ofNat 64 kind) s) := by
  change execExpanderEvent p kind s = _
  rw [execExpanderEvent, if_pos (by rw [hu, decide_eq_true hp]; rfl)]

end

/-! The layout (09 R354; log 67). -/

section
variable {s : State} {k : Nat}

theorem layFar_of_undone (h : s.dev.farDone ≠ 3) : layFar s = s := if_pos h

/-- Of the far memory the layout keeps what lies on an expander that is down, and the park pool. -/
theorem mem_farMem_layFar (h : s.dev.farDone = 3) (e : Nat × Byte) :
    e ∈ (layFar s).farMem ↔ e ∈ s.farMem ∧ (tget s.far.cap (e.1 / 2 ^ 44) = none ∨ farBack s e.1 < parkPoolLen s) := by
  rw [layFar, if_neg (not_not.mpr h)]
  simp [State.onFarMem, State.onFarBad]

/-- The far heap is zeros: no byte of it is listed. -/
theorem farHeap_layFar (h : s.dev.farDone = 3) (hc : (tget s.far.cap (k / 2 ^ 44)).isSome = true) (hb : parkPoolLen s ≤ farBack s k) :
    ∀ e ∈ (layFar s).farMem, e.1 ≠ k := by
  rintro e he rfl
  rcases ((mem_farMem_layFar h e).mp he).2 with down | pool
  · rw [down] at hc
    exact Bool.false_ne_true hc
  · omega

theorem parkPool_layFar (h : s.dev.farDone = 3) (hb : farBack s k < parkPoolLen s) : ∀ e ∈ s.farMem, e.1 = k → e ∈ (layFar s).farMem := by
  rintro e he rfl
  exact (mem_farMem_layFar h e).mpr ⟨he, Or.inr hb⟩

end

/-! The directory (09 R356, R360, R361). -/

section
variable {s : State}

/-- Record `i` lies at byte 64 · i of the far tier, once the tier has an expander. -/
theorem getFdir_of_capacity {i : Nat} {d : FRec} (hc : 0 < s.far.cap.length) (hr : recOf (mread s.farMem (farKey s (64 * i)) 64) = some d) :
    s.getFdir i = some d := by
  have present : s.far.cap.isEmpty = false := List.isEmpty_eq_false_iff.mpr (List.ne_nil_of_length_pos hc)
  rw [State.getFdir, present]
  exact hr

theorem exec_farDirectoryWalk_of_due (hk : procDown s 4 = false) (hr : s.dev.inReset = false) (hw : s.dev.dirWalked = false) (hd : s.dev.farDone = 3) :
    exec .farDirectoryWalk s = .next (pumpAll (serviceCheck ((forEach (readableRecs s) (fun e t => walkRec e.1 e.2 t) s).onDev (fun d => { d with
      dirWalked := true, walkDue := 0,
      coldWalk := d.coldWalk &&& ~~~ (d.walkDue &&& (forEach (readableRecs s) (fun e t => walkRec e.1 e.2 t) s).far.up) })))) := by
  have due : (procDown s 4 || s.dev.inReset || s.dev.dirWalked || s.dev.farDone ≠ 3) = false := by
    simp only [hk, hr, hw, hd, ne_eq, not_true_eq_false, decide_false, Bool.or_self]
  change execFarDirectoryWalk s = _
  rw [execFarDirectoryWalk, if_neg (ne_true_of_eq_false due)]

theorem exec_ttlSweep_of_running {leaf : Nat} (hk : procDown s (4 + leaf) = false) (hr : s.dev.inReset = false) :
    exec (.ttlSweep leaf) s = .next (pumpAll (forEach ((s.page.filter (fun e => e.2.st = .parked && e.2.freeing.isNone
      && expiryDue (s.ctr leaf) e.2.expiry
      && (match s.getFdir e.1 with | some d => d.leaf = leaf && d.mark ≠ .restoring | none => false))).map (fun e => e.1)) expirePage s)) := by
  have running : (procDown s (4 + leaf) || s.dev.inReset) = false := by rw [hk, hr]; rfl
  change execTtlSweep leaf s = _
  exact congrArg _ (if_neg (ne_true_of_eq_false running))

end

/-! The end of a self-test (15 R542, R543). -/

theorem selftestDone_of_none {k : Nat} {s : State} (res : List (Nat × Nat × Nat × Nat)) (h : (s.casAt k).selftest = none) : selftestDone k res s = s := by
  rw [selftestDone, h]

/-- A casement whose test has ended: its bank sets are zeros after a SILL test, and the test window of the stack is
undefined after a WINDOW test (15 R542). -/
def testEnded (k t st : Nat) (s : State) : State :=
  let u := s.modCas k (fun v => { v with selftest := none })
  let v := if t.testBit 2 then zeroBanks (casBs u k) u else u
  if t.testBit 4 then havocWindow st v else v

theorem selftestDone_of_tested {k q uid t st : Nat} {s : State} {e : Entry} (res : List (Nat × Nat × Nat × Nat))
    (h : (s.casAt k).selftest = some (q, uid, t, st)) (he : findEntry (testEnded k t st s) q uid = some e) :
    selftestDone k res s = completeEntry q uid
      (Res.ok ((List.range 5).foldl (fun n i => if t.testBit i then n + (nth res i (0, 0, 0, 0)).2.1 else n) 0 % 2 ^ 32)) 0
      (busWrite (fnPort q) (le e.pl 8 8) (selftestRecord t res) (testEnded k t st s)) := by
  unfold testEnded at he ⊢
  simp only [selftestDone, h, he]

/-- FAR_PORT_BRINGUP, FAR_DIRECTORY_WALK, FAR_LINK_DOWN, FAR_LINK_UP, EXPANDER_EVENT, TTL_SWEEP and SELFTEST_DONE. -/
theorem farTier : FarTier := by
  refine ⟨?bringup, fun s => layFar_of_undone, fun k s h hc => ⟨farHeap_layFar h hc, parkPool_layFar h⟩, ?record,
    fun s => exec_farDirectoryWalk_of_due, fun p s => exec_farLinkDown_of_up, fun p s => exec_farLinkUp_of_down,
    fun p kind s => exec_expanderEvent_of_up kind, fun leaf s => exec_ttlSweep_of_running, ?untested, ?tested⟩
  case bringup =>
    intro p x s hp hk hr hd
    have trained : (expanderOk x && !tgetD s.pin.prsntN p true) = true ↔ x.trained = true ∧ x.active = true ∧ 0 < x.cap
        ∧ (x.speed = 32 ∨ x.speed = 16) ∧ (x.width = 16 ∨ x.width = 8) ∧ tgetD s.pin.prsntN p true = false := by
      simp only [Bool.and_eq_true, expanderOk_iff, Bool.not_eq_true', and_assoc]
    rw [exec_farPortBringup_of_due x hp hk hr hd]
    exact ⟨fun ok => by rw [if_pos (trained.mpr ok)], fun bad => by rw [if_neg (mt trained.mp bad)]⟩
  case record => exact fun i d s _ hc hr => ⟨getFdir_of_capacity hc hr, rfl, fun down => down⟩
  case untested => exact fun k res s h => congrArg (fun t => Host.Outcome.next (pumpAll t)) (selftestDone_of_none res h)
  case tested =>
    rintro k q uid st t res e s u v w h rfl rfl rfl he
    exact congrArg (fun t => Host.Outcome.next (pumpAll t)) (selftestDone_of_tested res h he)

/-! The states of service (15 R545-R549). -/

theorem fullReady_iff (s : State) : fullReady s = true ↔
    (s.dev.stackIn ||| s.dev.stackFail) = BitVec.allOnes 12 ∧ s.dev.mullUp = 3 ∧ s.dev.farDone = 3 ∧ s.dev.dirWalked = true ∧ s.dev.bootLock = true := by
  simp only [fullReady, Bool.and_eq_true, decide_eq_true_eq, and_assoc]

/-- Full service begins. -/
theorem serviceCheck_of_ready {s : State} (h : s.dev.service ≠ .full) (hf : fullReady s = true) :
    serviceCheck s = s.onDev (fun d => { d with service := .full, rst := false }) := by
  rw [serviceCheck, if_pos (by rw [decide_eq_true h, hf]; rfl)]

theorem serviceCheck_of_not_ready {s : State} (hf : ¬ (s.dev.service ≠ .full ∧ fullReady s = true)) :
    serviceCheck s = if s.dev.service = .boot && s.dev.bootLock && s.dev.stackIn.getLsbD 0 && s.dev.stackIn.getLsbD 6 then
      s.onDev (fun d => { d with service := .ajar, rst := false }) else s := by
  rw [serviceCheck, if_neg (by rwa [Bool.and_eq_true, decide_eq_true_eq])]

/-- Outside BOOT no other service begins. -/
theorem serviceCheck_of_not_boot {s : State} (hf : ¬ (s.dev.service ≠ .full ∧ fullReady s = true)) (hb : s.dev.service ≠ .boot) : serviceCheck s = s := by
  rw [serviceCheck_of_not_ready hf, decide_eq_false hb]
  rfl

/-- Full service, ajar service, and the service that stays. -/
theorem serviceStates : ServiceStates := by
  intro s full
  have ready : fullReady s = true ↔ full := fullReady_iff s
  refine ⟨?full, ?ajar, ?stays, ?locked, ?waits⟩
  case full => exact fun h hf => serviceCheck_of_ready h (ready.mpr hf)
  case ajar =>
    intro hb hf hl h0 h6
    rw [serviceCheck_of_not_ready (fun h => hf (ready.mp h.2)), hl, h0, h6, decide_eq_true hb]
    rfl
  case stays => exact fun h => serviceCheck_of_not_boot (fun hf => hf.1 h) (by rw [h]; decide)
  case locked =>
    intro hb hl
    have unready : ¬ fullReady s = true := fun hf => by
      obtain ⟨-, -, -, -, locked⟩ := ready.mp hf
      exact Bool.false_ne_true (hl.symm.trans locked)
    rw [serviceCheck_of_not_ready (fun h => unready h.2), hl, Bool.and_false]
    rfl
  case waits => exact fun h hf => serviceCheck_of_not_boot (fun hr => hf (ready.mp hr.2)) (by rw [h]; decide)

/-- Settles O53: each row of the far tier by its guard, and the service by whether it may be full. -/
theorem farTierAndService : Obligations.FarTierAndService := ⟨farTier, serviceStates⟩

end Sys2Proof.Machine
end

section
/-! SUPPORT. Ports and the flits that they send (10 R370, R374): what sending leaves alone, what a change of a port leaves of it, and that a port that
changes its state stands in that state. -/

namespace Sys2Proof.Machine

section
variable {α : Type} {π : State → α}

/-- A part of the state that neither a flit on its way nor the log of a port's state touches. -/
structure UntouchedBySends (π : State → α) : Prop where
  port : ∀ s g, π (s.onPort g) = π s
  proc : ∀ s g, π (s.onProc g) = π s

variable (h : UntouchedBySends π)
include h

theorem sendVia_untouched (from_ : Option Nat) (via : List Nat) (f : Flit) (s : State) : π (sendVia from_ via f s) = π s := by
  rw [sendVia]
  split
  · exact h.port _ _
  · rfl

theorem sendFlit_untouched (from_ : Option Nat) (f : Flit) (s : State) : π (sendFlit from_ f s) = π s := sendVia_untouched h from_ [] f s

theorem trace_untouched (p pt sev : Nat) (a0 a1 : Word) (s : State) : π (trace p pt sev a0 a1 s) = π s := by
  rw [trace, State.modProc]
  exact h.proc s _

theorem setPort_untouched (p : Nat) (st : PortSt) (s : State) : π (setPort p st s) = π s := by
  unfold setPort
  extract_lets x
  split
  · rfl
  · rename_i logged _
    have log : π logged = π s := (trace_untouched h _ _ _ _ _ _).trans (h.port s _)
    clear_value logged
    refine ite_untouched log (Eq.trans ?_ log)
    exact forEach_untouched (fun _ => sendFlit_untouched h _ _) x.wait logged

theorem retrainAll_untouched (s : State) : π (retrainAll s) = π s :=
  forEach_untouched (fun p s => ite_untouched rfl (setPort_untouched h p .retrain s)) _ s

end

theorem fab_untouchedBySends : UntouchedBySends State.fab := ⟨fun _ _ => rfl, fun _ _ => rfl⟩
theorem plan_untouchedBySends : UntouchedBySends State.plan := ⟨fun _ _ => rfl, fun _ _ => rfl⟩
theorem lvr_untouchedBySends : UntouchedBySends State.lvr := ⟨fun _ _ => rfl, fun _ _ => rfl⟩

/-! Changes of a port. -/

theorem State.portAt_modPort_same (s : State) (p : Nat) (g : Port → Port) : (s.modPort p g).portAt p = g (s.portAt p) := by
  simp [tgetD]

theorem State.portAt_modPort_other (s : State) {p q : Nat} (g : Port → Port) (h : q ≠ p) : (s.modPort p g).portAt q = s.portAt q := by
  simp [tgetD, tget_tset_other _ p q _ h]

/-- A change of a port is a change of the port as it stands. -/
theorem State.modPort_congr {s : State} {p : Nat} {g g' : Port → Port} (h : g (s.portAt p) = g' (s.portAt p)) : s.modPort p g = s.modPort p g' :=
  congrArg (fun y => s.onPort (fun t => tset t p y)) h

/-- A flit joins those that wait on its port; no port changes its state by that. -/
theorem st_sendVia (q : Nat) (from_ : Option Nat) (via : List Nat) (f : Flit) (s : State) : ((sendVia from_ via f s).portAt q).st = (s.portAt q).st := by
  rw [sendVia]
  split
  case h_1 p _ _ _ =>
    by_cases hq : q = p
    · rw [hq, State.portAt_modPort_same]
    · rw [State.portAt_modPort_other _ _ hq]
  case h_2 => rfl

theorem st_sendFlit (q : Nat) (from_ : Option Nat) (f : Flit) (s : State) : ((sendFlit from_ f s).portAt q).st = (s.portAt q).st :=
  st_sendVia q from_ [] f s

theorem portAt_trace (q p pt sev : Nat) (a0 a1 : Word) (s : State) : (trace p pt sev a0 a1 s).portAt q = s.portAt q := rfl

theorem st_setPort (p : Nat) (st : PortSt) (s : State) : ((setPort p st s).portAt p).st = st := by
  unfold setPort
  extract_lets x
  split
  · assumption
  · rename_i logged _
    have stands : (logged.portAt p).st = st := by
      rw [portAt_trace, State.portAt_modPort_same]
    clear_value logged
    split
    · exact stands
    · refine Eq.trans ?_ stands
      exact forEach_untouched (π := fun t => (t.portAt p).st) (fun _ => st_sendFlit p _ _) x.wait logged

end Sys2Proof.Machine
end

section
/-! SUPPORT. Forming a group (10 R379-R388): what each message does by the guards of its row, and what leaving a group clears. -/

namespace Sys2Proof.Machine

open Sys2Proof.Claims

/-! Announcements (10 R379 steps 1 to 4, R385). -/

section
variable {m : AnnounceMsg} {s t u : State} {a : List Nat}

theorem joinAnnounce_at_forming_lintel (hb : mullBusy s = false) (hw : s.fab.wait = .joining) (hl : s.fab.rank = s.fab.lintel) :
    joinAnnounce m s = if m.group ≠ s.fab.group ∨ m.sizes ≠ s.fab.sizes ∨ s.fab.members ≤ m.rank then
        refuseJoin m.rank m.mver false (sendMsgV m.mver m.rank [22] s)
      else tryForm (holdAnnounce m (sendMsgV m.mver m.rank [22] s)) := by
  simp only [joinAnnounce, hb, hw, hl, decide_true, Bool.and_self, Bool.false_eq_true, if_false, if_true, Bool.or_eq_true, decide_eq_true_eq, or_assoc]

theorem joinAnnounce_of_member (hb : mullBusy s = false) (hw : s.fab.wait = .none) (hm : s.fab.member = true) :
    joinAnnounce m s = if s.fab.isLintel then rejoin m (sendMsgV m.mver m.rank [22] s)
      else if s.fab.lintelLost then s else sendMsgV m.mver s.fab.lintel (annFields 1 m) s := by
  simp only [joinAnnounce, hb, hw, hm, reduceCtorEq, decide_false, Bool.false_and, Bool.not_true, Bool.false_eq_true, if_false]

theorem exec_joinAnnounceRepeat_of_due (hw : s.fab.wait = .joining) (ha : s.fab.announced = false) (hb : mullBusy s = false) :
    exec .joinAnnounceRepeat s = .next (servePorts (announceAgain s)) :=
  congrArg _ (if_pos (by rw [hw, ha, hb]; rfl))

/-- Under LMODE 1 the announcement goes to the fixed lintel alone. -/
theorem announceAgain_of_fixed_lintel (ha : a = annFields 1 (ownAnnounce s))
    (ht : t = if s.fab.rank = s.fab.lintel then s else sendMsg s.fab.lintel a s) (h : t.fab.lmode = 1) : announceAgain s = t := by
  subst ha ht
  exact if_pos h

/-- Else it goes to the next rank to try as well (log 37). -/
theorem announceAgain_of_open_lintel (ha : a = annFields 1 (ownAnnounce s))
    (ht : t = if s.fab.rank = s.fab.lintel then s else sendMsg s.fab.lintel a s) (h : t.fab.lmode ≠ 1)
    (hu : u = t.onFab (fun f => { f with candidate := nextTry t })) :
    announceAgain s = if nextTry t = u.fab.rank ∨ nextTry t = u.fab.lintel then u else sendMsg (nextTry t) a u := by
  subst ha ht hu
  rw [announceAgain, if_neg h]
  simp only [Bool.or_eq_true, decide_eq_true_eq]

end

/-! Refusal, abort and timeout (10 R379, R380, R386, R388). -/

section
variable {s : State}

theorem joinRefuse_of_joining (ver : Bool) (hb : mullBusy s = false) (hw : s.fab.wait = .joining) :
    joinRefuse ver s = leaveGroup (fabAnswer (if ver then Res.stat stVersionUnsup else Res.skip 6) s) := by
  simp only [joinRefuse, hb, hw, Bool.false_eq_true, if_false]

theorem joinRefuse_of_raising (ver : Bool) (hb : mullBusy s = false) (hw : s.fab.wait = .raising) :
    joinRefuse ver s = fabAnswer (Res.stat stVersionUnsup) (answered s.fab.lintel 19 s) := by
  simp only [joinRefuse, hb, hw, Bool.false_eq_true, if_false]

theorem joinRefuse_of_teaming (ver : Bool) (hb : mullBusy s = false) (hw : s.fab.wait = .teaming) :
    joinRefuse ver s = fabAnswer (Res.deny 3) (answered s.fab.lintel 23 s) := by
  simp only [joinRefuse, hb, hw, Bool.false_eq_true, if_false]

theorem joinFails_of_joining (hw : s.fab.wait = .joining) : joinFails s = leaveGroup (fabAnswer (Res.stat stPeerLost) s) := if_pos hw

theorem exec_groupAbort_of_free (hb : mullBusy s = false) : exec .groupAbort s = .next (pumpAll (joinFails s)) :=
  congrArg _ (if_neg (ne_true_of_eq_false hb))

theorem exec_formationTimeout_of_joining (hw : s.fab.wait = .joining) :
    exec .formationTimeout s = .next (pumpAll (joinFails (if s.fab.rank = s.fab.lintel then sendAll [4] s else s))) :=
  congrArg _ (if_neg (not_not_intro hw))

/-- A held compatibility level takes effect as the group is left; it touches neither group, plans nor power share (10 R384; 14 R518). -/
theorem leaveGroup_clears (s : State) : (leaveGroup s).fab.member = false ∧ (leaveGroup s).plan = [] ∧ (leaveGroup s).lvr.share = none := by
  have compat : ∀ {α : Type} (π : State → α), UntouchedBySends π → (∀ t g, π (t.onDev g) = π t) → ∀ t, π (applyCompat t) = π t :=
    fun _ h dev t => (retrainAll_untouched h _).trans (dev t _)
  rw [leaveGroup]
  split
  · rw [compat State.fab fab_untouchedBySends (fun _ _ => rfl), compat State.plan plan_untouchedBySends (fun _ _ => rfl),
      compat State.lvr lvr_untouchedBySends (fun _ _ => rfl)]
    exact ⟨rfl, rfl, rfl⟩
  · exact ⟨rfl, rfl, rfl⟩

end

/-! The commit (10 R379 step 5, R391). -/

theorem fab_planRoom (n k : Nat) (s : State) : (planRoom n k s).fab = s.fab := by
  induction k generalizing s with
  | zero => rfl
  | succ k ih =>
    rw [planRoom]
    split
    · rfl
    · split
      · exact ih _
      · rfl

/-- Installing plans sets the level, and leaves membership, lintel and what the member waits for. -/
theorem fab_installPlans (gen lv : Nat) (l : List Plan) (s : State) :
    (installPlans gen lv l s).fab.member = s.fab.member ∧ (installPlans gen lv l s).fab.lintel = s.fab.lintel
    ∧ (installPlans gen lv l s).fab.wait = s.fab.wait ∧ (installPlans gen lv l s).fab.level = lv := by
  have held : ∀ n k (t : State), (forEach l (fun p u => u.putPlan p.handle p) (planRoom n k t)).fab = t.fab := fun n k t =>
    (forEach_untouched (π := State.fab) (f := fun p u => u.putPlan p.handle p) (fun _ _ => rfl) l _).trans (fab_planRoom n k t)
  simp only [installPlans, State.onFab, held]
  exact ⟨rfl, rfl, rfl, trivial⟩

theorem fab_linkSend (p : Nat) (m : LinkOut) (s : State) : (linkSend p m s).fab = s.fab := rfl

theorem fab_identAll (s : State) : (identAll s).fab = s.fab := by
  rw [identAll]
  refine forEach_untouched (π := State.fab) (fun p t => ?_) _ s
  exact ite_untouched (fab_linkSend p _ t) rfl

theorem fab_busWrite (port a : Nat) (bs : List Byte) (s : State) : (busWrite port a bs s).fab = s.fab := rfl

theorem fab_writeJoin (team : Nat) (s : State) : (writeJoin team s).fab = s.fab := by
  rw [writeJoin]
  split
  · exact fab_busWrite _ _ _ s
  · rfl

/-- A joining member takes its seat under the lintel that commits, installs the plans and answers its FAB_JOIN. -/
theorem commitGroup_of_joining {m : CommitMsg} {s : State} (hw : s.fab.wait = .joining) (hv : takesMver s m.mver = true) :
    ∃ u : State, commitGroup m s = fabAnswer (Res.ok m.level) (writeJoin 0 (identAll (installPlans m.gen m.level m.plans u)))
      ∧ u.fab.member = true ∧ u.fab.lintel = m.lintel ∧ u.fab.wait = .joining := by
  simp only [commitGroup, hv, hw, Bool.not_true, Bool.false_eq_true, if_false, if_true]
  refine ⟨_, rfl, ?_, rfl, ?_⟩
  · split <;> rfl
  · split <;> exact hw

theorem exec_groupCommit_of_free {m : CommitMsg} {s : State} (hb : mullBusy s = false) : exec (.groupCommit m) s = .next (pumpAll (commitGroup m s)) :=
  congrArg _ (if_neg (ne_true_of_eq_false hb))

/-- Settles O48: each message by the guards of its row, a commit by the seat that the member takes. -/
theorem groupFormation : Obligations.GroupFormation := by
  unfold Obligations.GroupFormation
  refine ⟨?announce, ?pass, ?again, ?ends, ?answers, ?commit, ?timeout, leaveGroup_clears⟩
  case announce =>
    intro m s hb hw hl
    have row : exec (.joinAnnounce m) s = .next (pumpAll (joinAnnounce m s)) := rfl
    rw [row, joinAnnounce_at_forming_lintel hb hw hl]
    refine ⟨fun hg hz hr => ?_, fun h => by rw [if_pos h]⟩
    rw [if_neg (by simp [hg, hz, hr])]
  case pass =>
    intro m s hb hw hm
    have row : exec (.joinAnnounce m) s = .next (pumpAll (joinAnnounce m s)) := rfl
    rw [row, joinAnnounce_of_member hb hw hm]
    refine ⟨fun hl => by rw [if_pos hl], fun hl hlost => ?_⟩
    rw [if_neg (ne_true_of_eq_false hl), if_neg (ne_true_of_eq_false hlost)]
  case again =>
    intro a s t hw ha hb haf ht
    rw [exec_joinAnnounceRepeat_of_due hw ha hb]
    exact ⟨fun h => by rw [announceAgain_of_fixed_lintel haf ht h], fun u h hu => by rw [announceAgain_of_open_lintel haf ht h hu]⟩
  case ends =>
    intro s hb hw
    have row : ∀ ver, exec (.joinRefuse ver) s = .next (pumpAll (joinRefuse ver s)) := fun _ => rfl
    rw [row, row, joinRefuse_of_joining true hb hw, joinRefuse_of_joining false hb hw, exec_groupAbort_of_free hb, joinFails_of_joining hw]
    exact ⟨rfl, rfl, rfl⟩
  case answers =>
    intro ver s hb
    have row : exec (.joinRefuse ver) s = .next (pumpAll (joinRefuse ver s)) := rfl
    rw [row]
    exact ⟨fun hw => by rw [joinRefuse_of_raising ver hb hw]; rfl, fun hw => by rw [joinRefuse_of_teaming ver hb hw]; rfl⟩
  case commit =>
    intro m s hb hw hv
    obtain ⟨u, hu, member, lintel, joining⟩ := commitGroup_of_joining hw hv
    obtain ⟨member', lintel', joining', level⟩ := fab_installPlans m.gen m.level m.plans u
    have same : (writeJoin 0 (identAll (installPlans m.gen m.level m.plans u))).fab = (installPlans m.gen m.level m.plans u).fab :=
      (fab_writeJoin 0 _).trans (fab_identAll _)
    refine ⟨_, (exec_groupCommit_of_free hb).trans (by rw [hu]; rfl), ?_⟩
    rw [same]
    exact ⟨member'.trans member, lintel'.trans lintel, level, joining'.trans joining⟩
  case timeout =>
    intro s hw
    rw [exec_formationTimeout_of_joining hw]
    refine ⟨fun h => ?_, fun h => by rw [if_pos h]⟩
    rw [if_neg h, joinFails_of_joining hw]
    rfl

end Sys2Proof.Machine
end

section
/-! SUPPORT. The lintel's beat and its succession (10 R375, R382), losses, leaving and plans (R380, R383-R391): one equation for each message where the
guards of its row hold. -/

namespace Sys2Proof.Machine

open Sys2Proof.Claims

section
variable {s : State}

/-! The beat (10 R382). -/

theorem beatOn_of_plan {p : Plan} (hp : s.getPlan (handleNow s 0 3) = some p) :
    beatOn s = servePorts (forEach (p.steps.filter (fun x => x.root = s.fab.lintel && x.sendTo ≠ s.fab.rank)) (fun x t =>
      sendVia none x.ports { newFlit t x.sendTo 4 3 with plan := p.handle % 4096 } t) s) := by
  simp only [beatOn, hp]

theorem exec_lintelBeatSend_of_lintel (hm : s.fab.member = true) (hl : s.fab.isLintel = true) (hb : mullBusy s = false) :
    exec .lintelBeatSend s = .next (beatOn s) :=
  congrArg _ (if_pos (by rw [hm, hl, hb]; rfl))

theorem exec_lintelBeat_of_follower (hm : s.fab.member = true) (hl : s.fab.isLintel = false) :
    exec .lintelBeat s = .next (let t := s.onFab (fun f => { f with beatAt := s.ctr 0 }); if mullBusy t then t else beatOn t) :=
  congrArg _ (if_pos (by rw [hm, hl]; rfl))

/-! The lintel's loss (10 R382). -/

/-- A member that hears no beat turns to a successor, or under LMODE 1 only gives up what it asked of the lintel. -/
theorem lintelLost_of_follower (hm : s.fab.member = true) (hl : s.fab.isLintel = false) (hn : s.fab.lintelLost = false) (hb : mullBusy s = false) :
    lintelLost s =
      let t := s.onFab (fun f => { f with lintelLost := true, anns := [], candidate := f.lintel })
      if s.fab.lmode = 1 then (if s.fab.wait = .raising ∨ s.fab.wait = .teaming then fabAnswer (Res.stat stPeerLost) t else t)
      else trySucceed (turnTo (nextLive t s.fab.lintel) t) := by
  simp only [lintelLost, hm, hl, hn, hb, Bool.not_true, Bool.or_self, Bool.false_eq_true, if_false, Bool.or_eq_true, decide_eq_true_eq]

theorem exec_lintelAnnounceTimeout_of_unanswered (hm : s.fab.member = true) (hl : s.fab.lintelLost = true) (hf : s.fab.lmode = 0)
    (hb : mullBusy s = false) (hc : s.fab.candidate ≠ s.fab.rank) (ha : s.fab.announced = false) :
    exec .lintelAnnounceTimeout s = .next (pumpAll (trySucceed (turnTo (nextLive s s.fab.candidate) s))) :=
  congrArg _ (if_pos (by simp only [hm, hl, hf, hb, hc, ha, decide_true, Bool.not_false, ne_eq, not_false_eq_true, Bool.and_self]))

theorem exec_lostLintelAnnouncement_of_loser (m : AnnounceMsg) (hm : s.fab.member = true) (hl : s.fab.lintelLost = true) (hf : s.fab.lmode = 0)
    (hb : mullBusy s = false) :
    exec (.lostLintelAnnouncement m) s = .next (pumpAll (trySucceed (holdAnnounce m (sendMsgV m.mver m.rank [22] s)))) :=
  congrArg _ (if_pos (by rw [hm, hl, hf, hb]; rfl))

theorem exec_lostLintelAnnouncement_of_follower (m : AnnounceMsg) (hl : s.fab.lintelLost = false) : exec (.lostLintelAnnouncement m) s = .next s :=
  congrArg _ (if_neg (by rw [hl, Bool.and_false]; exact Bool.false_ne_true))

theorem lintelBeatAndSuccession : Claims.LintelBeatAndSuccession := by
  unfold Claims.LintelBeatAndSuccession
  refine ⟨fun p s => beatOn_of_plan, fun s => exec_lintelBeatSend_of_lintel, ?beat, ?lost, ?next, fun m s => exec_lostLintelAnnouncement_of_follower m⟩
  case beat =>
    intro s t hm hl ht
    subst ht
    exact exec_lintelBeat_of_follower hm hl
  case lost =>
    intro s hm hl hn hb t
    have row : exec .lintelLost s = .next (pumpAll (lintelLost s)) := rfl
    rw [row, lintelLost_of_follower hm hl hn hb]
    refine ⟨fun hf => ?turns, fun hf hw => ?stays, fun hf hw => ?asked⟩
    case turns => rw [if_neg hf]
    case stays => rw [if_pos hf, hw, if_neg (by decide)]
    case asked => rw [if_pos hf, if_pos hw]; rfl
  case next =>
    exact fun s hm hl hf hb => ⟨exec_lintelAnnounceTimeout_of_unanswered hm hl hf hb, fun m => exec_lostLintelAnnouncement_of_loser m hm hl hf hb⟩

/-! Losses (10 R383, R384). -/

theorem exec_memberLost_of_member (r : Nat) (hm : s.fab.member = true) (hb : mullBusy s = false) : exec (.memberLost r) s = .next (memberLost r s) :=
  congrArg _ (if_pos (by rw [hm, hb]; rfl))

theorem peerLost_at_lintel {src lost : Nat} (hm : s.fab.member = true) (hl : s.fab.isLintel = true) (hb : mullBusy s = false)
    (hlost : liveRank s lost = true) (hsrc : liveRank s src = true) (hne : src ≠ lost) :
    peerLost src lost s =
      let l := if s.fab.reports.contains (src, lost) then s.fab.reports else s.fab.reports ++ [(src, lost)]
      let t := s.onFab (fun f => { f with reports := l })
      if 2 ≤ (l.filter (fun x => x.2 = lost)).length then declareLost lost t else t := by
  have heard : (!s.fab.member || !s.fab.isLintel || mullBusy s || !liveRank s lost || !liveRank s src || src = lost) = false := by
    simp only [hm, hl, hb, hlost, hsrc, hne, Bool.not_true, Bool.or_self, decide_false]
  rw [peerLost, if_neg (ne_true_of_eq_false heard)]

theorem exec_leave_at_lintel (r : Nat) (hm : s.fab.member = true) (hl : s.fab.isLintel = true) (hb : mullBusy s = false) :
    exec (.leave r) s = .next (pumpAll (declareLost r (sendMsg r [8] s))) :=
  congrArg _ (if_pos (by rw [hm, hl, hb]; rfl))

theorem exec_leaveAcknowledged_of_leaving (hw : s.fab.wait = .leaving) (hb : mullBusy s = false) :
    exec .leaveAcknowledged s = .next (pumpAll (leaveGroup (fabAnswer (Res.ok 0) s))) :=
  congrArg _ (if_pos (by rw [hw, hb]; rfl))

/-! Plans (10 R388-R391). -/

theorem exec_raiseRequest_at_lintel (src lv : Nat) (hm : s.fab.member = true) (hl : s.fab.isLintel = true) (hb : mullBusy s = false) :
    exec (.raiseRequest src lv) s = .next (pumpAll (if mayRaise s lv then rebuildPlans lv s else sendMsg src [2, 1] s)) :=
  congrArg _ (if_neg (by rw [hm, hl, hb]; exact Bool.false_ne_true))

theorem exec_planPublish_of_free (m : CommitMsg) (hb : mullBusy s = false) : exec (.planPublish m) s = .next (pumpAll (takePlans m s)) :=
  congrArg _ (if_neg (ne_true_of_eq_false hb))

/-- A member installs the plans, and they answer the RAISE or the TEAM that waits for them (10 R380, R388). -/
theorem takePlans_of_member {m : CommitMsg} (hm : s.fab.member = true) (hv : takesMver s m.mver = true) :
    takePlans m s =
      let t := installPlans m.gen m.level m.plans s
      if t.fab.wait = .raising ∧ m.level = t.fab.raiseTo then fabAnswer (Res.ok m.level) (answered t.fab.lintel 19 t)
      else if t.fab.wait = .teaming ∧ isOwnTeam m t = true then fabAnswer (Res.ok m.level) (writeJoin m.team (answered t.fab.lintel 23 t))
      else t := by
  simp only [takePlans, hm, hv, Bool.not_true, Bool.or_self, Bool.false_eq_true, if_false, Bool.and_eq_true, decide_eq_true_eq]

theorem exec_managementMessageRepeat_of_held {i dst : Nat} {fields : List Nat} (h : s.fab.repeats[i]? = some (dst, fields)) :
    exec (.managementMessageRepeat i) s = .next (servePorts (sendMsg dst fields s)) := by
  change execManagementMessageRepeat i s = _
  simp only [execManagementMessageRepeat, h]

end

theorem lossLeavingAndPlans : Claims.LossLeavingAndPlans := by
  unfold Claims.LossLeavingAndPlans
  refine ⟨fun r s => exec_memberLost_of_member r, ?report, fun r s => exec_leave_at_lintel r, fun s => exec_leaveAcknowledged_of_leaving, ?raise, ?publish,
    fun gen s => rfl, fun i dst fields s => exec_managementMessageRepeat_of_held⟩
  case report =>
    intro src lost s hm hl hb hlost hsrc hne l t
    have row : exec (.peerLostReport src lost) s = .next (pumpAll (peerLost src lost s)) := rfl
    rw [row, peerLost_at_lintel hm hl hb hlost hsrc hne]
  case raise =>
    intro src lv s hm hl hb
    rw [exec_raiseRequest_at_lintel src lv hm hl hb]
    exact ⟨fun h => by rw [if_pos h], fun h => by rw [if_neg (ne_true_of_eq_false h)]⟩
  case publish =>
    intro m s hm hb hv t
    rw [exec_planPublish_of_free m hb, takePlans_of_member hm hv]
    have awaits : ∀ {w w' : FabWait} {q : Prop}, t.fab.wait = w → w ≠ w' → ¬ (t.fab.wait = w' ∧ q) := fun h hne hq => hne (h.symm.trans hq.1)
    refine ⟨fun hw => ?none, fun hw hlv => ?raised, fun hw ho => ?own, fun hw ho => ?other⟩
    case none => rw [if_neg (awaits hw (by decide)), if_neg (awaits hw (by decide))]
    case raised => rw [if_pos ⟨hw, hlv⟩]; rfl
    case own => rw [if_neg (awaits hw (by decide)), if_pos ⟨hw, ho⟩]; rfl
    case other =>
      rw [if_neg (awaits hw (by decide)), if_neg (fun h => Bool.false_ne_true (ho.symm.trans h.2))]

/-- Settles O50: each message by the guards of its row, a publication by what the member waits for. -/
theorem lintelAndLosses : Obligations.LintelAndLosses := ⟨lintelBeatAndSuccession, lossLeavingAndPlans⟩

end Sys2Proof.Machine
end

section
/-! SUPPORT. Collectives (10 R383, R393-R400): what one does at its start, by its opcode and its plan. -/

namespace Sys2Proof.Machine

open Sys2Proof.Claims

section
variable {cl uid ctx : Nat} {h : Hdr} {p : Plan} {s : State}

/-! The start of a collective (10 R395). -/

/-- On a plan that is gone or unusable it ends at once (10 R383). -/
theorem collStart_of_lost_plan (hp : s.getPlan (mPlan h) = none ∨ ∃ p, s.getPlan (mPlan h) = some p ∧ p.usable = false) :
    collStart cl uid ctx h s = endCmd cl uid (EOut.stop stPeerLost 0) s := by
  rcases hp with gone | ⟨p, found, unusable⟩
  · simp only [collStart, gone]
  · simp only [collStart, found, unusable, Bool.not_false, if_true]

theorem startBuf_eq (c : Coll) (ranks : List Nat) (me : Nat) (bs : List Byte) : startBuf c ranks me bs =
    if (c.kind = 3 || c.kind = 5) = true then overlay (zeros (Coll.bufLen c ranks.length)) (teamIndex ranks me * c.count * c.esz) bs
    else padTo (Coll.bufLen c ranks.length) bs := by
  simp only [startBuf, Bool.or_eq_true, decide_eq_true_eq]

section
variable {c : Coll} (hp : s.getPlan (mPlan h) = some p) (hu : p.usable = true)
include hp hu

/-- One that is neither DISPATCH nor RETURN takes the bytes of its SRC into its buffer (10 Table 10.9). -/
theorem collStart_of_source {t : State} {bs : List Byte} (h6 : eEop h ≠ 6) (h7 : eEop h ≠ 7) (hc : c = startedColl cl uid ctx h s)
    (hr : vRd ctx c.src (Coll.srcLen c p.ranks.length s.fab.rank) (numbered h s) = (t, .ok bs)) :
    collStart cl uid ctx h s = collGo uid (t.fab.early.length + 1) (t.putColl uid { c with buf := startBuf c p.ranks s.fab.rank bs }) := by
  subst hc
  simp only [collStart, hp, hu, h6, h7, Bool.not_true, Bool.false_eq_true, if_false]
  split
  next heq => exact nomatch (Prod.mk.inj (heq.symm.trans hr)).2
  next heq =>
    obtain ⟨rfl, hbs⟩ := Prod.mk.inj (heq.symm.trans hr)
    obtain rfl := Except.ok.inj hbs
    rw [startBuf_eq]
    rfl

/-- DISPATCH sends its counts and rows first (10 R398). -/
theorem collStart_of_dispatch (h6 : eEop h = 6) (hc : c = startedColl cl uid ctx h s) :
    collStart cl uid ctx h s =
      let x := dispatchSend uid c ((numbered h s).putColl uid c)
      if x.2.st = stOK then collGo uid (x.1.fab.early.length + 1) x.1 else collStop uid x.2 x.1 := by
  subst hc
  simp only [collStart, hp, hu, h6, Bool.not_true, Bool.false_eq_true, if_false, if_true]
  rw [startedColl, h6]
  rfl

/-- RETURN sends the rows that answer the latest DISPATCH (10 R399). -/
theorem collStart_of_return (h7 : eEop h = 7) (hc : c = { startedColl cl uid ctx h s with disp := dispOf s ctx (mPlan h) }) :
    collStart cl uid ctx h s =
      let x := returnSend c ((numbered h s).putColl uid c)
      if x.2.st = stOK then collGo uid (x.1.fab.early.length + 1) x.1 else collStop uid x.2 x.1 := by
  subst hc
  simp only [collStart, hp, hu, h7, Bool.not_true, Bool.false_eq_true, if_false, if_true, Nat.reduceEqDiff]
  rw [startedColl, h7]
  rfl

end

end

/-! Its command (03 R108). -/

section
variable {op cl uid : Nat} {e : ECmd} {p : Plan} {s : State}

/-- That a command is started bears on its core and its engine's turn alone. -/
theorem getPlan_begun (cl : Nat) (e : ECmd) (s : State) (k : Nat) : (begun cl e s).getPlan k = s.getPlan k := by
  unfold begun
  split <;> rfl

theorem rank_begun (cl : Nat) (e : ECmd) (s : State) : (begun cl e s).fab.rank = s.fab.rank := by
  unfold begun
  split <;> rfl

theorem startedColl_begun (cl uid ctx : Nat) (h : Hdr) (e : ECmd) (s : State) :
    startedColl cl uid ctx h (begun cl e (tried uid s)) = startedColl cl uid ctx h s := by
  unfold begun
  split <;> rfl

theorem dispOf_begun (cl : Nat) (e : ECmd) (s : State) (ctx plan : Nat) : dispOf (begun cl e s) ctx plan = dispOf s ctx plan := by
  unfold begun
  split <;> rfl

theorem startColl_of_lost_plan (hs : Starts 4 op cl uid e s)
    (hp : s.getPlan (mPlan e.words) = none ∨ ∃ p, s.getPlan (mPlan e.words) = some p ∧ p.usable = false) :
    startColl op cl uid s = endCmd cl uid (EOut.stop stPeerLost 0) (begun cl e (s.onAcc (fun _ => Reach.none))) := by
  obtain rfl := uid_of_starts hs
  have ends : collCmd cl e (begun cl e (tried e.uid s)) = endCmd cl e.uid (EOut.stop stPeerLost 0) (begun cl e (tried e.uid s)) :=
    collStart_of_lost_plan (by rw [getPlan_begun]; exact hp)
  have ignoresAcc : ∀ g t, endCmd cl e.uid (EOut.stop stPeerLost 0) (begun cl e (State.onAcc t g))
      = (endCmd cl e.uid (EOut.stop stPeerLost 0) (begun cl e t)).onAcc g := fun g t => by
    rw [begun_onAcc]
    rfl
  rw [startColl, startCmd_of_starts hs, attempt_congr (g := fun t => endCmd cl e.uid (EOut.stop stPeerLost 0) (begun cl e t)) ends,
    attempt_of_ignores_acc ignoresAcc]

section
variable (hs : Starts 4 op cl uid e s) (hp : s.getPlan (mPlan e.words) = some p) (hu : p.usable = true)
include hs hp hu

theorem startColl_of_source {c : Coll} {t : State} {bs : List Byte} {u : State} (h6 : op ≠ 6) (h7 : op ≠ 7) (hc : c = startedColl cl uid e.ctx e.words s)
    (hr : vRd e.ctx c.src (Coll.srcLen c p.ranks.length s.fab.rank) (numbered e.words (begun cl e (tried uid s))) = (t, .ok bs))
    (hgo : collGo uid (t.fab.early.length + 1) (t.putColl uid { c with buf := startBuf c p.ranks s.fab.rank bs }) = u)
    (hunits : u.acc.units = []) (hbanks : u.acc.banks = []) : startColl op cl uid s = u.onAcc (fun _ => Reach.none) := by
  obtain rfl := uid_of_starts hs
  have here : (begun cl e (tried e.uid s)).getPlan (mPlan e.words) = some p := (getPlan_begun _ _ _ _).trans hp
  refine startCmd_of_passes hs (f := fun _ => u) ?_ ⟨hunits, hbanks⟩
  rw [← hgo]
  have rank : (begun cl e (tried e.uid s)).fab.rank = s.fab.rank := rank_begun _ _ _
  rw [← rank] at hr ⊢
  exact collStart_of_source here hu (hs.opcode ▸ h6) (hs.opcode ▸ h7) (hc.trans (startedColl_begun _ _ _ _ _ _).symm) hr

end

end

/-- Settles O20: a collective by its plan and its opcode, where what it starts with meets nothing to wait for. -/
theorem collectivesStart : Obligations.CollectivesStart := by
  unfold Obligations.CollectivesStart
  refine ⟨?source, ?lost, ?rows⟩
  case source =>
    intro r hr cl uid e s p t bs c hs hp hu h6 h7 hc hread hunits hbanks
    rw [exec_mullionRow r hr, startColl_of_source hs hp hu h6 h7 hc hread rfl hunits hbanks]
  case lost =>
    intro r hr cl uid e s hs hp
    rw [exec_mullionRow r hr, startColl_of_lost_plan hs hp]
    rfl
  case rows =>
    intro cl uid e s p c f hp hu
    have here : (begun cl e (tried uid s)).getPlan (mPlan e.words) = some p := (getPlan_begun _ _ _ _).trans hp
    refine ⟨fun hs hc hf hpass => ?dispatch, fun hs hc hf hpass => ?answer⟩
    case dispatch =>
      obtain rfl := uid_of_starts hs
      refine congrArg Host.Outcome.next (startCmd_of_passes hs ?_ hpass)
      rw [hf]
      exact collStart_of_dispatch here hu hs.opcode (hc.trans (startedColl_begun _ _ _ _ _ _).symm)
    case answer =>
      obtain rfl := uid_of_starts hs
      refine congrArg Host.Outcome.next (startCmd_of_passes hs ?_ hpass)
      rw [hf]
      refine collStart_of_return here hu hs.opcode (hc.trans ?_)
      rw [startedColl_begun, dispOf_begun]
      rfl

end Sys2Proof.Machine
end

section
/-! SUPPORT. The floor limiter (14 R510-R512) and slow-notices (10 R401-R403): each event by its guards, and what a notice does to the timeouts of the
collectives in flight. -/

namespace Sys2Proof.Machine

open Sys2Proof.Claims

/-! Tables. -/

theorem tget_tmap {α : Type} (f : Nat → α → α) (t : Tbl α) (k : Nat) : tget (tmap f t) k = (tget t k).map (f k) := by
  induction t with
  | nil => rfl
  | cons e t ih =>
    obtain ⟨j, u⟩ := e
    by_cases h : j = k
    · subst h
      simp [tmap, tget]
    · simpa [tmap, tget, h] using ih

section
variable {avg u : Nat} {s : State}

/-! The floor limiter (14 R510-R512). -/

theorem exec_thermalStepRelease_of_cool (hu : u < 14) (hh : unitHot s u = []) (hp : procDown s 1 = false) :
    exec (.thermalStepRelease u) s = .next (s.onLvr (fun l => { l with therm := tset l.therm u (tgetD l.therm u 0 - 1) })) :=
  congrArg _ (if_pos (by rw [hh, hp, decide_eq_true hu]; rfl))

theorem floorEngage_of_above (ha : floorAt s < avg * 100) (ht : s.therm.trip = false) (hr : s.dev.inReset = false) :
    floorEngage avg s = noticeUpdate (s.onLvr (fun l => { l with
      floor := true, below := false, step := (List.range 14).foldl (fun t u => tset t u (Nat.max l.floorStep (tgetD t u 0))) l.step })) := by
  have above : (avg * 100 ≤ floorAt s || s.therm.trip || s.dev.inReset) = false := by
    rw [ht, hr, decide_eq_false (Nat.not_le.mpr ha)]
    rfl
  rw [floorEngage, if_neg (ne_true_of_eq_false above)]

theorem floorEngage_of_within (ha : avg * 100 ≤ floorAt s) : floorEngage avg s = s := by
  have within : (avg * 100 ≤ floorAt s || s.therm.trip || s.dev.inReset) = true := by
    rw [Bool.or_assoc, decide_eq_true ha, Bool.true_or]
  rw [floorEngage, if_pos within]

/-- With Louvre running, the next control step releases the floor (14 R511). -/
theorem floorRelease_of_louvre (hf : s.lvr.floor = true) (hp : procDown s 1 = false) (ha : avg * 100 < floorAt s) :
    floorRelease avg s = s.onLvr (fun l => { l with below := true }) := by
  rw [floorRelease, hf, hp, if_neg (by decide), if_neg (by decide), if_pos ha]

/-- Without it, each unit returns to the step that Louvre wrote last (14 R511). -/
theorem floorRelease_of_no_louvre (hf : s.lvr.floor = true) (hp : procDown s 1 = true) (ha : avg * 10 < plim s * 9) :
    floorRelease avg s = noticeUpdate (s.onLvr (fun l => { l with
      floor := false, below := false, step := (List.range 14).foldl (fun t u => tset t u (tgetD l.written u 0)) l.step })) := by
  rw [floorRelease, hf, hp, if_neg (by decide), if_pos rfl, if_pos ha]

end

theorem floorLimiter : Claims.FloorLimiter := by
  unfold Claims.FloorLimiter
  have engages : ∀ avg s, exec (.floorEngage avg) s = .next (floorEngage avg s) := fun _ _ => rfl
  have releases : ∀ avg s, exec (.floorRelease avg) s = .next (floorRelease avg s) := fun _ _ => rfl
  refine ⟨fun u s => exec_thermalStepRelease_of_cool, ?above, ?within, ?louvre, ?alone⟩
  case above => exact fun avg s ha ht hr => by rw [engages, floorEngage_of_above ha ht hr]
  case within => exact fun avg s ha => by rw [engages, floorEngage_of_within ha]
  case louvre => exact fun avg s hf hp ha => by rw [releases, floorRelease_of_louvre hf hp ha]
  case alone => exact fun avg s hf hp ha => by rw [releases, floorRelease_of_no_louvre hf hp ha]

/-! Slow-notices (10 R401-R403). -/

section
variable {n : Notice} {s t : State}

theorem exec_slowNoticeRenew_of_slow (h : 0 < s.fab.ownNotice.1) :
    exec .slowNoticeRenew s = .next (sendOwn (s.onFab (fun f => { f with ownNotice := (f.ownNotice.1, f.ownNotice.2 + 1) }))) :=
  congrArg _ (if_neg (Nat.ne_of_gt h))

theorem exec_slowNoticeRenew_of_full_rate (h : s.fab.ownNotice.1 = 0) : exec .slowNoticeRenew s = .next s := congrArg _ (if_pos h)

/-- A notice of another rank is for a member of a group. -/
theorem concerns_member (hm : s.fab.member = true) (ho : n.origin ≠ s.fab.rank) : (!s.fab.member || n.origin = s.fab.rank) = false := by
  rw [hm, decide_eq_false ho]
  rfl

/-- A newer notice takes effect on the timeouts and is forwarded in the team of its plan. -/
theorem slowNotice_of_newer (hm : s.fab.member = true) (ho : n.origin ≠ s.fab.rank) (hn : ∀ x, tget s.fab.notices n.origin = some x → x.1 < n.seq) :
    slowNotice n s = forwardNotice n (relimit (s.onFab (fun f => { f with notices := tset f.notices n.origin (n.seq, n.ext, [n.plan]) }))) := by
  rw [slowNotice, if_neg (ne_true_of_eq_false (concerns_member hm ho))]
  cases held : tget s.fab.notices n.origin with
  | none => rfl
  | some x => exact if_pos (hn x held)

/-- One held already that comes on another plan is forwarded in the team of that plan. -/
theorem slowNotice_of_other_plan {e : Nat} {l : List Nat} (hm : s.fab.member = true) (ho : n.origin ≠ s.fab.rank)
    (hx : tget s.fab.notices n.origin = some (n.seq, e, l)) (hl : n.plan ∉ l) :
    slowNotice n s = forwardNotice n (s.onFab (fun f => { f with notices := tset f.notices n.origin (n.seq, n.ext, l ++ [n.plan]) })) := by
  rw [slowNotice, if_neg (ne_true_of_eq_false (concerns_member hm ho))]
  simp only [hx, Nat.lt_irrefl, if_false, decide_true, Bool.true_and, List.contains_eq_mem, decide_eq_false hl, Bool.not_false, if_true]

/-- An older one, and one that has come on this plan already, is dropped. -/
theorem slowNotice_of_held {x : Nat × Nat × List Nat} (hx : tget s.fab.notices n.origin = some x) (h : n.seq < x.1 ∨ n.seq = x.1 ∧ n.plan ∈ x.2.2) :
    slowNotice n s = s := by
  obtain ⟨k, e, l⟩ := x
  have older : ¬ k < n.seq := by
    rcases h with h | h
    · exact Nat.lt_asymm h
    · exact Nat.not_lt.mpr (Nat.le_of_eq h.1)
  have known : ¬ (k = n.seq && !l.contains n.plan) = true := by
    rw [Bool.and_eq_true, decide_eq_true_eq, Bool.not_eq_true', List.contains_eq_mem, decide_eq_false_iff_not]
    rintro ⟨same, fresh⟩
    rcases h with h | h
    · exact Nat.lt_irrefl _ (same ▸ h)
    · exact fresh h.2
  rw [slowNotice]
  simp only [hx, if_neg older, if_neg known, ite_self]

theorem slowNotice_of_no_concern (h : s.fab.member = false ∨ n.origin = s.fab.rank) : slowNotice n s = s := by
  refine if_pos ?_
  rcases h with h | h
  · rw [h]; rfl
  · rw [decide_eq_true h, Bool.or_true]

theorem forwardNotice_of_plan {p : Nat × Plan}
    (hp : t.plan.find? (fun p => p.1 % 4096 = n.plan && p.2.ranks.contains n.origin && p.2.ranks.contains t.fab.rank) = some p) :
    forwardNotice n t = servePorts (sendNotice n ((teamNeighbours t p.2.ranks).filter (fun r => r ≠ n.origin)) t) := by
  simp only [forwardNotice, hp]

/-- The timeout of a collective in flight follows the notices in force. -/
theorem getColl_relimit {u : Nat} {c : Coll} (hc : s.getColl u = some c) (hf : c.finished = false) :
    (relimit s).getColl u = some { c with limit := stepLimit s c } := by
  have entry : tget s.coll u = some c := hc
  refine (tget_tmap (fun _ c => if c.finished then c else { c with limit := stepLimit s c }) s.coll u).trans ?_
  rw [entry, Option.map_some, if_neg (ne_true_of_eq_false hf)]

end

theorem slowNotices : Claims.SlowNotices := by
  unfold Claims.SlowNotices
  have received : ∀ n s, exec (.slowNoticeReceive n) s = .next (slowNotice n s) := fun _ _ => rfl
  refine ⟨fun s => exec_slowNoticeRenew_of_slow, fun s => exec_slowNoticeRenew_of_full_rate, ?taken, fun s u c => getColl_relimit, ?held, ?own, fun r s => rfl⟩
  case taken =>
    intro n s t p hm ho ht hp
    have forwarded : slowNotice n s = forwardNotice n t := by
      rcases ht with ⟨newer, rfl⟩ | ⟨e, l, hx, fresh, rfl⟩
      · exact slowNotice_of_newer hm ho newer
      · exact slowNotice_of_other_plan hm ho hx fresh
    rw [received, forwarded, forwardNotice_of_plan hp]
  case held => exact fun n x s hx h => by rw [received, slowNotice_of_held hx h]
  case own => exact fun n s h => by rw [received, slowNotice_of_no_concern h]

/-- Settles O45: the floor by the average and by whether Louvre runs, a notice by what is held of its origin. -/
theorem floorLimiterAndSlowNotices : Obligations.FloorLimiterAndSlowNotices := ⟨floorLimiter, slowNotices⟩

end Sys2Proof.Machine
end

section
/-! SUPPORT. What comes in on a link (10 R370, R374), the replay of held flits (R370), and the timeout of a collective's step (R401). -/

namespace Sys2Proof.Machine

open Sys2Proof.Claims

section
variable {p : Nat} {m : LinkIn} {fl : Flit} {s : State}

/-! Arrivals (10 R370, R374). -/

/-- The acknowledgement that comes with what arrives releases held flits first. -/
def acked (p : Nat) (m : LinkIn) (s : State) : State := match m.ack with | some k => portAck p k s | none => s

/-- An UP port out of reset takes what its link brings. -/
theorem port_takes (hp : p < 16) (hu : (s.portAt p).st = .up) (hr : s.dev.inReset = false) :
    (!isPort p || (s.portAt p).st ≠ .up || s.dev.inReset) = false := by
  simp only [isPort, hp, hu, hr, decide_true, Bool.not_true, ne_eq, not_true_eq_false, decide_false, Bool.or_self]

theorem flitReceive_of_flit (hp : p < 16) (hu : (s.portAt p).st = .up) (hr : s.dev.inReset = false) (hf : m.flit = some fl) :
    flitReceive p m s =
      let t := acked p m s
      let n := (t.portAt p).rxSeq
      if fl.lseq = n then
        if arrivalRoom p fl t then takeArrival p fl (linkSend p (.ack n) (t.modPort p (fun y => { y with rxSeq := (y.rxSeq + 1) % 4096 }))) else t
      else if (n + 4096 - fl.lseq) % 4096 ≤ 256 then linkSend p (.ack ((n + 4095) % 4096)) t
      else linkSend p (.nak n) t := by
  rw [flitReceive, if_neg (ne_true_of_eq_false (port_takes hp hu hr))]
  simp only [hf]
  rfl

theorem flitReceive_of_ack_alone {k : Nat} (hp : p < 16) (hu : (s.portAt p).st = .up) (hr : s.dev.inReset = false) (hf : m.flit = none)
    (ha : m.ack = some k) : flitReceive p m s = portAck p k s := by
  rw [flitReceive, if_neg (ne_true_of_eq_false (port_takes hp hu hr))]
  simp only [hf, ha]

/-! Replays (10 R370). -/

section
variable {seq fails : Nat} {held : List (Option Nat × Flit)}

theorem replayPort_of_few (h : fails < 16) :
    replayPort p fails held s = (s.modPort p (fun y => { y with replay := held, fails := fails + 1 })).onOut (fun o => { o with
      flits := (held.map (fun f => (p, f.2))).reverse ++ o.flits }) := if_pos h

/-- After 16 failed replays the port retrains, and its flits take another way (10 R374). -/
theorem replayPort_of_many (h : 16 ≤ fails) :
    replayPort p fails held s
      = forEach held (fun f => sendFlit f.1 f.2) (setPort p .retrain (s.modPort p (fun y => { y with replay := [], fails := 0 }))) :=
  if_neg (Nat.not_lt.mpr h)

theorem negativeAck_of_held (hp : p < 16) (hu : (s.portAt p).st = .up) (hh : held = (s.portAt p).replay.dropWhile (fun f => f.2.lseq ≠ seq))
    (hne : held ≠ []) (hf : fails = if held.length < (s.portAt p).replay.length then 0 else (s.portAt p).fails) :
    negativeAck p seq s = replayPort p fails held s := by
  subst hf hh
  have known : (!isPort p || (s.portAt p).st ≠ .up || ((s.portAt p).replay.dropWhile (fun f => f.2.lseq ≠ seq)).isEmpty) = false := by
    rw [List.isEmpty_eq_false_iff.mpr hne, isPort, decide_eq_true hp, hu]
    rfl
  rw [negativeAck, if_neg (ne_true_of_eq_false known)]

theorem exec_replayTimeout_of_held (hp : p < 16) (hu : (s.portAt p).st = .up) (hne : (s.portAt p).replay ≠ []) :
    exec (.replayTimeout p) s = .next (pumpAll (replayPort p (s.portAt p).fails (s.portAt p).replay s)) := by
  refine congrArg _ (if_pos ?_)
  rw [List.isEmpty_eq_false_iff.mpr hne, isPort, decide_eq_true hp, hu]
  rfl

end

/-! The timeout of a step (10 R401). -/

theorem stepTimeout_of_flight {u : Nat} {c : Coll} (hc : s.getColl u = some c) (hf : c.finished = false) :
    stepTimeout u s = forEach (collAwaits s c)
      (fun r t => if t.fab.isLintel then peerLost t.fab.rank r t else sendMsg t.fab.lintel [13, r] t) (collStop u (EOut.stop stPeerLost 0) s) := by
  simp only [stepTimeout, collTimeout, hc, hf, Bool.false_eq_true, if_false]

theorem stepTimeout_of_ended {u : Nat} (h : s.getColl u = none ∨ ∃ c, s.getColl u = some c ∧ c.finished = true) : stepTimeout u s = s := by
  rcases h with hc | ⟨c, hc, hf⟩
  · simp only [stepTimeout, hc]
  · simp only [stepTimeout, hc, hf, if_true]

end

/-- Settles O46: a flit by where its number stands to the one awaited, a replay by how many have failed. -/
theorem flitsAndReplay : Obligations.FlitsAndReplay := by
  unfold Obligations.FlitsAndReplay
  have received : ∀ p m s, exec (.flitReceive p m) s = .next (pumpAll (flitReceive p m s)) := fun _ _ _ => rfl
  have nacked : ∀ p seq s, exec (.negativeAck p seq) s = .next (pumpAll (negativeAck p seq s)) := fun _ _ _ => rfl
  have timed : ∀ u s, exec (.stepTimeout u) s = .next (pumpAll (stepTimeout u s)) := fun _ _ => rfl
  refine ⟨?flit, ?ack, ?nak, ?timeout, ?step, ?ended⟩
  case flit =>
    intro p n m fl s t hp hu hr ht hn hf
    have after : acked p m s = t := ht.symm
    rw [received, flitReceive_of_flit hp hu hr hf]
    simp only [after, ← hn]
    refine ⟨fun hs room => ?awaited, fun hs full => ?noRoom, fun hs old => ?before, fun hs ahead => ?ahead⟩
    case awaited => rw [if_pos hs, if_pos room]
    case noRoom => rw [if_pos hs, if_neg (ne_true_of_eq_false full)]
    case before => rw [if_neg hs, if_pos old]
    case ahead => rw [if_neg hs, if_neg (Nat.not_le.mpr ahead)]
  case ack => exact fun p k m s hp hu hr hf ha => by rw [received, flitReceive_of_ack_alone hp hu hr hf ha]; rfl
  case nak =>
    intro p seq fails held s hp hu hh hne hf
    rw [nacked, negativeAck_of_held hp hu hh hne hf]
    exact ⟨fun h => by rw [replayPort_of_few h], fun h => by rw [replayPort_of_many h]⟩
  case timeout =>
    intro p s hp hu hne
    rw [exec_replayTimeout_of_held hp hu hne]
    exact ⟨fun h => by rw [replayPort_of_few h], fun h => by rw [replayPort_of_many h]⟩
  case step => exact fun u c s hc hf => by rw [timed, stepTimeout_of_flight hc hf]; rfl
  case ended => exact fun u s h => by rw [timed, stepTimeout_of_ended h]

end Sys2Proof.Machine
end

section
/-! SUPPORT. The states of a port (10 R365-R367, R376; Table 10.3), and its lanes: failures, widths and calibration (R362, R369, R371, R372). -/

namespace Sys2Proof.Machine

open Sys2Proof.Claims

section
variable {p : Nat} {s : State}

/-! The states of a port (10 Table 10.3). -/

theorem exec_linkLightOn_of_down {lanes : Nat} (hp : p < 16) (hl : 2 ≤ lanes) (hd : (s.portAt p).st = .down) (ht : s.therm.trip = false)
    (hr : s.dev.inReset = false) : exec (.linkLightOn p lanes) s = .next (setPort p .train s) :=
  congrArg _ (if_pos (by rw [isPort, decide_eq_true hp, decide_eq_true hl, hd, ht, hr]; rfl))

theorem exec_linkLightLost_of_many {lanes : Nat} (hp : p < 16) (hl : 3 < lanes) :
    exec (.linkLightLost p lanes) s = .next (pumpAll (noticeUpdate (darkPort p s))) :=
  congrArg _ (if_pos (by rw [isPort, decide_eq_true hp, decide_eq_true hl]; rfl))

theorem exec_linkLightLost_of_few {lanes : Nat} (hl : lanes ≤ 3) : exec (.linkLightLost p lanes) s = .next s :=
  congrArg _ (if_neg (by rw [decide_eq_false (Nat.not_lt.mpr hl), Bool.and_false]; exact Bool.false_ne_true))

/-- A dark port is as at reset, but for its counts (10 Table 10.3). -/
theorem portAt_darkPort (p : Nat) (s : State) : ((darkPort p s).portAt p).st = .down ∧ ((darkPort p s).portAt p).replay = [] := by
  rw [darkPort, State.portAt_modPort_same]
  exact ⟨rfl, rfl⟩

theorem exec_lanesLocked_of_training (hp : p < 16) (ht : (s.portAt p).st = .train ∨ (s.portAt p).st = .retrain) (hr : s.dev.inReset = false) :
    exec (.lanesLocked p) s = .next (pumpAll (linkSend p (.ident (ownIdent s)) (setPort p .negotiate s))) := by
  refine congrArg _ (if_pos ?_)
  rw [isPort, decide_eq_true hp, hr]
  rcases ht with h | h
  · rw [h]; rfl
  · rw [h]; rfl

/-! Negotiation (10 R367, R376). -/

section
variable {peer : PeerId}

/-- The peer reports another place than the topology map expects behind the port (10 R376). -/
def misplaced (p : Nat) (peer : PeerId) (s : State) : Bool :=
  (s.fab.member || s.fab.wait = .joining) && peer.joined
  && (match expectRank s p with | some r => peer.group ≠ s.fab.group || peer.rank ≠ r | none => false)

theorem misplaced_iff : misplaced p peer s = true ↔ (s.fab.member = true ∨ s.fab.wait = .joining) ∧ peer.joined = true
    ∧ ∃ r, expectRank s p = some r ∧ (peer.group ≠ s.fab.group ∨ peer.rank ≠ r) := by
  unfold misplaced
  cases expectRank s p with
  | none => simp
  | some r => simp [and_assoc]

/-- What the two ends agree on: the lower of their levels, and the width of the narrower direction (10 R367, R369). -/
def agreed (p : Nat) (peer : PeerId) (s : State) : State :=
  s.modPort p (fun y => { y with
    level := Nat.min s.dev.compatLevel peer.level, width := Nat.min (laneWidth y.tx) (laneWidth y.rx), spare := spareIn y.tx || spareIn y.rx,
    peer := if peer.joined then peer.rank else 0, peerDigest := peer.digest, fails := 0 })

theorem negotiated_of_locked (hp : p < 16) (hr : s.dev.inReset = false)
    (hs : (s.portAt p).st = .negotiate ∨ (s.portAt p).st = .up ∨ (s.portAt p).st = .miswired) :
    negotiated p peer s = noticeUpdate (setPort p (if misplaced p peer s then .miswired else .up) (agreed p peer s)) := by
  have locked : (!isPort p || s.dev.inReset || !((s.portAt p).st = .negotiate || (s.portAt p).st = .up || (s.portAt p).st = .miswired)) = false := by
    simp only [isPort, hp, hr, hs, decide_true, Bool.not_true, Bool.or_self, Bool.false_or, Bool.not_eq_false', Bool.or_eq_true, decide_eq_true_eq, or_assoc]
  rw [negotiated, if_neg (ne_true_of_eq_false locked)]
  rfl

end

theorem portStates : Claims.PortStates := by
  unfold Claims.PortStates
  refine ⟨fun p lanes s hp hl hd ht hr => ⟨exec_linkLightOn_of_down hp hl hd ht hr, st_setPort p .train s⟩,
    fun p lanes s hp hl => ⟨exec_linkLightLost_of_many hp hl, portAt_darkPort p s⟩, fun p lanes s => exec_linkLightLost_of_few,
    fun p s hp ht hr => ⟨exec_lanesLocked_of_training hp ht hr, st_setPort p .negotiate s⟩, ?negotiation⟩
  intro p peer s hp hr hs low inGroup
  have row : exec (.negotiationComplete p peer) s = .next (pumpAll (negotiated p peer s)) := rfl
  rw [row, negotiated_of_locked hp hr hs]
  have ends : ∀ st, (if misplaced p peer s then PortSt.miswired else .up) = st → noticeUpdate (setPort p
      (if misplaced p peer s then .miswired else .up) (agreed p peer s)) = noticeUpdate (setPort p st low) := fun st h => by rw [h]; rfl
  have up : ¬ misplaced p peer s = true → (if misplaced p peer s then PortSt.miswired else .up) = .up := fun h => if_neg h
  refine ⟨fun h => ?unplaced, fun r hx hg hrank => ?placed, fun r hin hj hx hne => ?wrong⟩
  case unplaced =>
    rw [ends .up (up fun hm => ?_)]
    obtain ⟨hin, hj, r, hx, -⟩ := misplaced_iff.mp hm
    rcases h with h | h | h
    · exact h hin
    · exact Bool.false_ne_true (h.symm.trans hj)
    · exact nomatch h.symm.trans hx
  case placed =>
    rw [ends .up (up fun hm => ?_)]
    obtain ⟨-, -, r', hx', hne⟩ := misplaced_iff.mp hm
    obtain rfl : r = r' := Option.some.inj (hx.symm.trans hx')
    exact hne.elim (fun h => h hg) (fun h => h hrank)
  case wrong => rw [ends .miswired (if_pos (misplaced_iff.mpr ⟨hin, hj, r, hx, hne⟩))]

/-! Lanes (10 R362, R369). -/

section
variable {lane : Nat} {tx rx : BitVec 5}

theorem min_laneWidth_eq_zero (h : (ones tx).length < 2 ∨ (ones rx).length < 2) : Nat.min (laneWidth tx) (laneWidth rx) = 0 := by
  change min (laneWidth tx) (laneWidth rx) = 0
  simp only [laneWidth]
  split_ifs <;> omega

theorem min_laneWidth_of_working (ht : 2 ≤ (ones tx).length) (hr : 2 ≤ (ones rx).length) :
    Nat.min (laneWidth tx) (laneWidth rx) = if 4 ≤ (ones tx).length ∧ 4 ≤ (ones rx).length then 4 else 2 := by
  change min (laneWidth tx) (laneWidth rx) = _
  simp only [laneWidth]
  split_ifs <;> omega

/-- A lane fails in its own direction (10 R362). -/
theorem Port.failLane_eq (x : Port) (lane : Nat) :
    x.failLane lane = { x with tx := if lane < 5 then setBit x.tx lane false else x.tx, rx := if lane < 5 then x.rx else setBit x.rx (lane - 5) false } := by
  unfold Port.failLane
  split <;> rfl

theorem laneFail_of_lit (hp : p < 16) (hl : lane < 10) (hd : (s.portAt p).st ≠ .down)
    (ht : tx = if lane < 5 then setBit (s.portAt p).tx lane false else (s.portAt p).tx)
    (hr : rx = if lane < 5 then (s.portAt p).rx else setBit (s.portAt p).rx (lane - 5) false) :
    laneFail p lane s =
      if Nat.min (laneWidth tx) (laneWidth rx) = 0 then noticeUpdate (darkPort p s)
      else noticeUpdate (s.modPort p (fun y => { y with
        tx := tx, rx := rx, width := if y.st = .up then Nat.min (laneWidth tx) (laneWidth rx) else y.width, spare := spareIn tx || spareIn rx,
        calib := [], lcal := none })) := by
  have lit : (!isPort p || 9 < lane || (s.portAt p).st = .down) = false := by
    rw [isPort, decide_eq_true hp, decide_eq_false hd, decide_eq_false (Nat.not_lt.mpr (Nat.le_of_lt_succ hl))]
    rfl
  rw [laneFail, if_neg (ne_true_of_eq_false lit), Port.failLane_eq, ← ht, ← hr]
  rfl

end

/-! Calibration (10 R371, R372). -/

section
variable {lane : Nat} {rest : List Nat}

/-- The lane in hand may be retrained while the port's Mullion processor runs. -/
theorem lane_in_hand (hp : p < 16) (hc : (s.portAt p).calib = lane :: rest) (hd : procDown s (2 + p / 8) = false) :
    (!isPort p || (s.portAt p).calib.head? ≠ some lane || procDown s (2 + p / 8)) = false := by
  simp only [isPort, hp, hc, hd, decide_true, Bool.not_true, List.head?_cons, ne_eq, not_true_eq_false, decide_false, Bool.or_self]

theorem laneCalibrated_of_period (hp : p < 16) (hc : (s.portAt p).calib = lane :: rest) (hd : procDown s (2 + p / 8) = false)
    (hn : (s.portAt p).lcal = none) :
    laneCalibrated p lane s = s.modPort p (fun y => { y with retrained := y.retrained + 1, calib := rest, lcal := none }) := by
  rw [laneCalibrated, if_neg (ne_true_of_eq_false (lane_in_hand hp hc hd))]
  simp only [hn]
  refine State.modPort_congr ?_
  rw [hc, hn, ite_self]
  rfl

/-- A lane of a LINK_CALIB counts for that command (10 R372). -/
theorem laneCalibrated_of_command {q u : Nat} (hp : p < 16) (hc : (s.portAt p).calib = lane :: rest) (hd : procDown s (2 + p / 8) = false)
    (hl : (s.portAt p).lcal = some (q, u)) :
    laneCalibrated p lane s = (updEntry q u (fun e => { e with deps := [nth e.deps 0 0 + 1] }) s).modPort p (fun y => { y with
      retrained := y.retrained + 1, calib := y.calib.drop 1, lcal := if (y.calib.drop 1).isEmpty then none else y.lcal }) := by
  rw [laneCalibrated, if_neg (ne_true_of_eq_false (lane_in_hand hp hc hd))]
  simp only [hl]

theorem canCalib_and_idle_iff (x : Port) : (canCalib x && x.calib.isEmpty) = true ↔ x.st = .up ∧ x.spare = false ∧ x.level = 2 ∧ x.calib = [] := by
  simp only [canCalib, Bool.and_eq_true, decide_eq_true_eq, Bool.not_eq_true', List.isEmpty_iff, and_assoc]

theorem exec_calibrationPeriod_of_running {leaf : Nat} (hl : leaf < 2) (hd : procDown s (2 + leaf) = false) :
    exec (.calibrationPeriod leaf) s = .next (forEach ((List.range 8).map (fun i => leaf * 8 + i)) (fun p t =>
      t.modPort p (fun x => if canCalib x && x.calib.isEmpty then { x with calib := [0, 1, 2, 3] } else x)) s) :=
  congrArg _ (if_neg (by rw [hd, decide_eq_false (Nat.not_lt.mpr (Nat.le_of_lt_succ hl))]; exact Bool.false_ne_true))

end

end

theorem portLanes : Claims.PortLanes := by
  unfold Claims.PortLanes
  refine ⟨?fails, ?period, ?command, ?listed⟩
  case fails =>
    intro p lane tx rx s hp hl hd ht hr
    have row : exec (.laneFail p lane) s = .next (pumpAll (laneFail p lane s)) := rfl
    rw [row, laneFail_of_lit hp hl hd ht hr]
    refine ⟨fun few => by rw [if_pos (min_laneWidth_eq_zero few)], fun h2t h2r hup => ?_⟩
    have width := min_laneWidth_of_working h2t h2r
    have lit : ¬ Nat.min (laneWidth tx) (laneWidth rx) = 0 := by
      rw [width]
      split <;> decide
    rw [if_neg lit, width]
    exact congrArg (fun t => Host.Outcome.next (pumpAll (noticeUpdate t))) (State.modPort_congr (by rw [if_pos hup]))
  case period =>
    intro p lane rest s hp hc hd hn
    have row : exec (.laneCalibration p lane) s = .next (pumpAll (laneCalibrated p lane s)) := rfl
    rw [row, laneCalibrated_of_period hp hc hd hn]
  case command =>
    intro p lane q u rest s hp hc hd hl
    have row : exec (.laneCalibration p lane) s = .next (pumpAll (laneCalibrated p lane s)) := rfl
    rw [row, laneCalibrated_of_command hp hc hd hl]
  case listed =>
    intro leaf s hl hd
    rw [exec_calibrationPeriod_of_running hl hd]
    simp only [canCalib_and_idle_iff]

/-- Settles O47: a port by its state and its light, a negotiation by what the map expects, a lane's failure by the lanes that still work. -/
theorem portStatesAndLanes : Obligations.PortStatesAndLanes := ⟨portStates, portLanes⟩

end Sys2Proof.Machine
end

section
/-! SUPPORT. Expert moves (10 R405, R406) and power shares (14 R516, R518): what each message does at a Keeper and at the lintel where the guards of its row
hold. -/

namespace Sys2Proof.Machine

open Sys2Proof.Claims

section
variable {k : Nat} {s : State}

/-! Staging (10 R405 steps 1 to 4). -/

section
variable {m : PlaceMsg}

theorem exec_placeStage_of_ready (hr : moveReady s m.cas = true) : exec (.placeStage m) s = .next (pumpAll (takeStage m s)) := congrArg _ (if_pos hr)

theorem takeStage_of_follower (hs : steered s m.cas = true) (hl : s.fab.isLintel = false) :
    takeStage m s = stageGo m.cas (s.modCas m.cas (fun v => { v with stage := some m })) := by
  simp only [takeStage, hs, hl, Bool.not_true, Bool.not_false, Bool.false_eq_true, if_false, if_true]

/-- The lintel's decision counts the EPOCH up and goes to every live member (log 40). -/
theorem takeStage_at_lintel {p : Place} (hs : steered s m.cas = true) (hl : s.fab.isLintel = true) (hp : (s.casAt m.cas).place = some p) :
    takeStage m s =
      let ep := ((inForce p s).1 + 1) % 256
      stageGo m.cas ((forEach ((liveRanks s).filter (fun r => r ≠ s.fab.rank))
        (fun r => sendAsk r ([11, m.cas, ep] ++ m.entries.map (·.toNat))) (s.onFab (fun f => { f with staged := tset f.staged m.cas [] }))).modCas m.cas
          (fun v => { v with stage := some { m with epoch := ep } })) := by
  simp only [takeStage, hs, hl, hp, Bool.not_true, Bool.false_eq_true, if_false]

end

section
variable {r cur : Nat} {l : List (Nat × Nat)} (hl : s.fab.isLintel = true)
include hl

theorem gotStaged_of_move (hg : s.fab.giving.contains (r, k) = false) (ht : tget s.fab.staged k = some l) :
    gotStaged r k cur s = tryCommit k ((stageAnswered k (fun x => x = r) s).onFab (fun f => { f with
      staged := tset f.staged k (l.filter (fun x => x.1 ≠ r) ++ [(r, cur)]) })) := by
  simp only [gotStaged, hl, hg, ht, Bool.not_true, Bool.false_eq_true, if_false]

/-- A member that was given the placement in force commits it at its current step (10 R406; log 40). -/
theorem gotStaged_of_giving (hg : s.fab.giving.contains (r, k) = true) :
    gotStaged r k cur s = sendMsg r [14, k, cur] ((stageAnswered k (fun x => x = r) s).onFab (fun f => { f with
      giving := f.giving.filter (fun g => g ≠ (r, k)) })) := by
  simp only [gotStaged, hl, hg, Bool.not_true, Bool.false_eq_true, if_false, if_true]

theorem stageTimeout_at_lintel (ht : tget s.fab.staged k = some l) :
    stageTimeout k s = abortPlace k ((sendAll [15, k] (stageAnswered k (fun r => !s.fab.giving.contains (r, k)) s)).onFab (fun f => { f with
      staged := tdel f.staged k })) := by
  simp only [stageTimeout, hl, ht, Bool.not_true, Bool.false_eq_true, if_false]

end

theorem exec_placeStaged_of_ready (r cur : Nat) (hr : moveReady s k = true) :
    exec (.placeStaged r k cur) s = .next (servePorts (gotStaged r k cur s)) := congrArg _ (if_pos hr)

theorem exec_placeStagedTimeout_of_ready (hr : moveReady s k = true) : exec (.placeStagedTimeout k) s = .next (servePorts (stageTimeout k s)) :=
  congrArg _ (if_pos hr)

/-! Commit, abort and release at a Keeper (10 R405, R406). -/

theorem exec_placeCommit_of_ready (frm : Nat) (hr : moveReady s k = true) : exec (.placeCommit k frm) s = .next (commitPlace k frm s) :=
  congrArg _ (if_pos hr)

theorem exec_placeAbort_of_ready (hr : moveReady s k = true) : exec (.placeAbort k) s = .next (abortPlace k s) := congrArg _ (if_pos hr)

theorem exec_placeRelease_of_ready (hr : moveReady s k = true) : exec (.placeRelease k) s = .next (releasePlace k s) := congrArg _ (if_pos hr)

theorem commitPlace_of_staged {frm : Nat} {p : Place} (hp : (s.casAt k).place = some p) (hs : p.staged = true) (hc : p.committed = none) :
    commitPlace k frm s = (vaPut p.ctx (placeTabs p s).1 (overlay (overlay (tabHead p.ctx (placeTabs p s).1 s) 16 (toLE frm 8)) 1 [1]) s).modCas k
      (fun v => { v with place := some { p with committed := some frm } }) := by
  simp only [commitPlace, hp, hs, hc, Bool.not_true, Option.isSome_none, Bool.false_eq_true, if_false, Option.getD_none]

/-! Step reports (10 R405 steps 6 and 7; 14 R518). -/

theorem gotReport_at_lintel (r step ep want : Nat) (hl : s.fab.isLintel = true) :
    gotReport r k step ep want s = tryRelease k (s.onFab (fun f => { f with
      stepReps := f.stepReps.filter (fun x => !(x.1 = r && x.2.1 = k)) ++ [(r, k, step, ep)], wants := tset f.wants r want })) := by
  simp only [gotReport, hl, Bool.not_true, Bool.false_eq_true, if_false]

theorem exec_stepReport_of_steered {p : Place} (hp : (s.casAt k).place = some p) (hs : steered s k = true) (hr : moveReady s k = true) :
    exec (.stepReport k) s = .next (servePorts (toLintel [16, k, p.lastDone.1, p.lastDone.2, s.lvr.want]
      (gotReport s.fab.rank k p.lastDone.1 p.lastDone.2 s.lvr.want) s)) := by
  change execStepReport k s = _
  simp only [execStepReport, hp, hs, hr, Bool.and_self, if_true]

theorem exec_lintelStepReport_of_ready (r step ep want : Nat) (hr : moveReady s k = true) :
    exec (.lintelStepReport r k step ep want) s = .next (servePorts (gotReport r k step ep want s)) := congrArg _ (if_pos hr)

/-! Power shares (14 R516, R518). -/

theorem exec_powerShare_of_steered (w : Nat) (hf : fabricSteered s = true) (hb : mullBusy s = false) :
    exec (.powerShare w) s = .next (s.onLvr (fun l => { l with shareNext := some w })) :=
  congrArg _ (if_pos (by rw [hf, hb]; rfl))

theorem powerShareSend_at_lintel {b : Nat} (hb : s.fab.budget = some b) (hl : s.fab.isLintel = true) (hf : fabricSteered s = true)
    (hm : mullBusy s = false) :
    powerShareSend s =
      let l := (liveRanks s).map (fun r => (r, if r = s.fab.rank then ((s.lvr.want : Nat) : Rat) else ((tgetD s.fab.wants r 0 : Nat) : Rat)))
      forEach (splitBudget (l.length + 1) l b []) (fun x t =>
        if x.1 = t.fab.rank then t.onLvr (fun l => { l with shareNext := some x.2 }) else sendMsg x.1 [18, x.2] t) s := by
  simp only [powerShareSend, hb, hl, hf, hm, Bool.not_true, Bool.or_self, Bool.false_eq_true, if_false]

end

/-- Settles O49: each message by whether it comes to a Keeper or to the lintel, a PLACE_STAGED by what the lintel has asked of the member. -/
theorem expertMovesAndPowerShares : Obligations.ExpertMovesAndPowerShares := by
  unfold Obligations.ExpertMovesAndPowerShares
  refine ⟨?stage, ?staged, ?commit, ?ends, ?report, ?lintelReport, fun w s => exec_powerShare_of_steered w, ?send⟩
  case stage =>
    intro m s hr hs
    rw [exec_placeStage_of_ready hr]
    refine ⟨fun hl => by rw [takeStage_of_follower hs hl], fun p ep hl hp hep => ?_⟩
    rw [takeStage_at_lintel hs hl hp, hep]
  case staged =>
    intro r k cur l s hr hl ht
    rw [exec_placeStaged_of_ready r cur hr, exec_placeStagedTimeout_of_ready hr, stageTimeout_at_lintel hl ht]
    exact ⟨fun hg => by rw [gotStaged_of_move hl hg ht], fun hg => by rw [gotStaged_of_giving hl hg], rfl⟩
  case commit => exact fun k frm p s hr hp hs hc => (exec_placeCommit_of_ready frm hr).trans (congrArg _ (commitPlace_of_staged hp hs hc))
  case ends => exact fun k s hr => ⟨exec_placeAbort_of_ready hr, exec_placeRelease_of_ready hr⟩
  case report =>
    intro k p s hp hs hr
    rw [exec_stepReport_of_steered hp hs hr, toLintel]
    refine ⟨fun hl => by rw [if_neg (ne_true_of_eq_false hl)], fun hl => ?_⟩
    rw [if_pos hl, gotReport_at_lintel _ _ _ _ hl]
  case lintelReport => exact fun r k step ep want s hr hl => by rw [exec_lintelStepReport_of_ready r step ep want hr, gotReport_at_lintel r step ep want hl]
  case send =>
    intro b s hb hl hf hm
    have row : exec .powerShareSend s = .next (servePorts (powerShareSend s)) := rfl
    rw [row, powerShareSend_at_lintel hb hl hf hm]

end Sys2Proof.Machine
end

section
/-! SUPPORT. Step boundaries (12 R446, R451-R454): what a row does to a request that goes on, the greedy token, and what a token that is kept ends. -/

namespace Sys2Proof.Machine

open Sys2Proof.Claims

section
variable {k c id tok : Nat} {t : Word} {r : Req} {s : State}

/-! The boundary and its rows (12 R446). -/

theorem exec_stepBoundary_of_idle (hc : (s.casAt k).svc.ctx = some c) (hm : (s.casAt k).svc.mode ≠ 0) (hr : (s.casAt k).svc.run = none)
    (hd : procDown s (4 + homeLeaf s k) = false) : exec (.stepBoundary k) s = .next (pumpAll (boundary k c s)) := by
  change execStepBoundary k s = _
  simp only [execStepBoundary, hc, hr, hd, decide_eq_true hm, Option.isNone_none, Bool.not_false, Bool.and_self, if_true]

theorem late_of_lt {d : Nat} (h : r.deadline = some d) (hd : d < t.toNat) : late r t = true := by
  simp only [late, h, hd, decide_true]

section
variable {ca : Nat} {row : Nat × Nat × Nat × Bool × Bool} (hr : s.getReq row.1 = some r) (hd : r.st ≠ .ended) (he : r.st ≠ .ending)
include hr hd he

theorem rowDone_of_cancelled (hx : r.cancel.isSome = true) : rowDone c k t ca row s = discardReq 4 row.1 s := by
  simp only [rowDone, hr, hd, he, hx, decide_false, Bool.or_self, Bool.false_eq_true, if_false, if_true]

theorem rowDone_of_late (hx : r.cancel = none) (hl : late r t = true) : rowDone c k t ca row s = endReq stExpired 2 row.1 t s := by
  simp only [rowDone, hr, hd, he, hx, hl, Option.isSome_none, decide_false, Bool.or_self, Bool.false_eq_true, if_false, if_true]

end

/-! A token (12 R453, R454). -/

theorem sampleToken_of_isZero (n : Nat) (x : Nat × BitVec 32) (l : List (Nat × BitVec 32)) (h : (v32 r.temp).isZero = true) :
    sampleToken r n (x :: l) = some x.1 := if_pos h

/-- The request `r` keeps a token that was sampled for it, and its first token gives the time to it. -/
def keepToken (id tok : Nat) (t : Word) (r : Req) (s : State) : State :=
  s.updReq id (fun x => { x with
    st := .decode, toks := x.toks ++ [tok], endTime := t, firstUs := match r.firstUs with | some u => some u | none => some ((t - r.accept).toNat / 1050) })

section
variable (hr : s.getReq id = some r) (hs : r.stream = false)
include hr hs

/-- A request that does not stream keeps its token; a stop token counts before the last one (log 61). -/
theorem takeToken_of_unstreamed : takeToken id tok t s =
    if tok ∈ r.stops ∧ tok ≠ 0xFFFFFFFF then endReq stOK 1 id t (keepToken id tok t r s)
    else if r.maxTok ≤ r.toks.length + 1 then endReq stOK 0 id t (keepToken id tok t r s)
    else keepToken id tok t r s := by
  simp only [takeToken, hr, hs, Bool.false_eq_true, if_false, List.contains_eq_mem, Bool.and_eq_true, decide_eq_true_eq]
  rfl

theorem takeToken_of_more (hn : tok ∉ r.stops) (hm : r.toks.length + 1 < r.maxTok) : takeToken id tok t s = keepToken id tok t r s := by
  rw [takeToken_of_unstreamed hr hs, if_neg (fun h => hn h.1), if_neg (Nat.not_le.mpr hm)]

theorem takeToken_of_last (hn : tok ∉ r.stops) (hm : r.maxTok ≤ r.toks.length + 1) :
    takeToken id tok t s = endReq stOK 0 id t (keepToken id tok t r s) := by
  rw [takeToken_of_unstreamed hr hs, if_neg (fun h => hn h.1), if_pos hm]

theorem takeToken_of_stop (hn : tok ∈ r.stops) (hf : tok ≠ 0xFFFFFFFF) : takeToken id tok t s = endReq stOK 1 id t (keepToken id tok t r s) := by
  rw [takeToken_of_unstreamed hr hs, if_pos ⟨hn, hf⟩]

end

end

/-- Settles O51: a boundary by the guard of its row, a row by whether its request is cancelled or late, a token by whether it stops its request. -/
theorem stepBoundaries : Obligations.StepBoundaries := by
  unfold Obligations.StepBoundaries
  refine ⟨fun k c s => exec_stepBoundary_of_idle, ?row, fun r n tok p l h => sampleToken_of_isZero n (tok, p) l h, ?token⟩
  case row =>
    intro c k id pos n ca t pre smp r s hr hd he
    exact ⟨rowDone_of_cancelled hr hd he, fun d hx hl hlt => rowDone_of_late hr hd he hx (late_of_lt hl hlt)⟩
  case token =>
    intro id tok t r s hr hs
    exact ⟨takeToken_of_more hr hs, takeToken_of_last hr hs, takeToken_of_stop hr hs⟩

end Sys2Proof.Machine
end

section
/-! SUPPORT. Messages of a mailbox (13 R478-R483, R490-R494): what serving a message that waits answers, and each message in its range. -/

namespace Sys2Proof.Machine

open Sys2Proof.Claims

/-! Serving (13 R478-R482). -/

section
variable {ty len f p : Nat} {pf : Bool} {m : Msg} {s u : State} {act : Msg → State → Reply × State} {r : Reply}

theorem msgWaits_iff : msgWaits s f p = true ↔
    f < 34 ∧ p < 6 ∧ (s.mbxAt (f * 6 + p)).outstanding = true ∧ procDown s p = false ∧ s.dev.inReset = false := by
  simp only [msgWaits, mbxNo, Bool.and_eq_true, decide_eq_true_eq, Bool.not_eq_true', and_assoc]

theorem msgWaits_of_waits (h : Waits ty len f p m s) : msgWaits s f p = true := by
  obtain ⟨-, hf, hp, ho, hd, hr, -⟩ := h
  exact msgWaits_iff.mpr ⟨hf, hp, ho, hd, hr⟩

/-- What a message that waits comes to: refused for the function that sends it or for its length, or answered as its row decides. -/
theorem serve_of_waits {n : Nat} (h : Waits ty len f p m s) : serve ty pf n f p act s =
    if (pf && !isPF f) = true then answer f p m m.ver (Reply.deny 2) s
    else if len ≠ n then answer f p m m.ver (Reply.skip 6) s
    else pumpAll (answer f p m m.ver (act m s).1 (act m s).2) := by
  have hw := msgWaits_of_waits h
  obtain ⟨hm, -, -, -, -, -, hty, hk, hv, hrec, hres, hproc, hlen⟩ := h
  simp only [serve, hm, hw, hty, hk, hv, hrec, hres, hproc, hlen, Bool.not_true, Bool.false_and, ne_eq, not_true_eq_false, decide_false, Bool.false_or,
    Bool.or_self, Bool.false_eq_true, if_false, decide_eq_true_eq]

/-- A message of its type's length, from a function that may send it, is answered as its row decides. -/
theorem serve_of_taken (h : Waits ty len f p m s) (hpf : (pf && !isPF f) = false) (ha : act m s = (r, u)) :
    serve ty pf len f p act s = pumpAll (answer f p m m.ver r u) := by
  rw [serve_of_waits h, if_neg (ne_true_of_eq_false hpf), if_neg (not_not_intro rfl), ha]

end

theorem not_refused_of_waitsPF {ty len f p : Nat} {m : Msg} {s : State} (h : WaitsPF ty len f p m s) : (true && !isPF f) = false := by
  rw [h.2]
  rfl

section
variable {ty len f p res : Nat} {m : Msg} {s u : State} {act : Msg → State → Reply × State} {body : List Byte}

/-- A message that any function may send is answered OK where its row says so. -/
theorem serve_of_ok (h : Waits ty len f p m s) (ha : act m s = (Reply.ok res body, u)) : serve ty false len f p act s = said f p m res body u :=
  serve_of_taken h rfl ha

/-- A message that a physical function has sent is answered OK where its row says so. -/
theorem servePF_of_ok (h : WaitsPF ty len f p m s) (ha : act m s = (Reply.ok res body, u)) : serve ty true len f p act s = said f p m res body u :=
  serve_of_taken h.1 (not_refused_of_waitsPF h) ha

/-- It is answered SKIPPED where its row finds a field out of range. -/
theorem servePF_of_skip (h : WaitsPF ty len f p m s) (ha : act m s = (Reply.skip 6, u)) :
    serve ty true len f p act s = pumpAll (answer f p m m.ver { st := 0x01, det := 6, res := 0, body := [] } u) :=
  serve_of_taken h.1 (not_refused_of_waitsPF h) ha

end

/-! The messages of any processor and of Deadbolt (13 R474-R477, R490-R497). -/

/-- A rewritten descriptor is one of the two copies, of the next generation. -/
theorem mem_copies_rewrite (w : Fw) :
    ({ gen := w.bootGen + 1, crcOk := true, active := w.active, trial := w.trial, count := w.count, slots := w.slots } : BootCopy)
      ∈ (Fw.rewrite w).copies := by
  rw [Fw.rewrite]
  dsimp only
  split
  · split <;> simp
  · simp

/-- Of two good copies the one with the higher generation stays in its place (13 R469). -/
theorem copies_rewrite_of_good {w : Fw} {a b : BootCopy} (hw : w.copies = [a, b]) (ha : a.crcOk = true) (hb : b.crcOk = true) :
    (b.gen.toNat < a.gen.toNat → (Fw.rewrite w).copies.head? = some a) ∧ (a.gen.toNat ≤ b.gen.toNat → (Fw.rewrite w).copies[1]? = some b) := by
  rw [Fw.rewrite, hw]
  simp only [ha, hb, Bool.not_true, Bool.false_or, Bool.true_and, decide_eq_true_eq]
  refine ⟨fun h => ?_, fun h => ?_⟩
  · rw [if_pos h]
    rfl
  · rw [if_neg (Nat.not_lt.mpr h)]
    rfl

theorem firmwareMessages : Claims.FirmwareMessages := by
  unfold Claims.FirmwareMessages
  refine ⟨fun f p m s h => congrArg _ (serve_of_ok h rfl), fun f p m s h => congrArg _ (servePF_of_ok h rfl),
    fun f p m s h => congrArg _ (serve_of_ok h rfl), ?certRead, ?stage, ?activate, ?commit,
    fun w => ⟨rfl, mem_copies_rewrite w, fun a b => copies_rewrite_of_good⟩, ?query, ?restart, ?config⟩
  case certRead =>
    intro f p m c s h hc
    subst hc
    exact congrArg _ (serve_of_ok h rfl)
  case stage =>
    intro f p m s h hb hw hn
    refine congrArg _ (servePF_of_ok h ?_)
    simp only [hb, hw, Nat.not_lt.mpr hn, slotLen, Bool.not_true, Bool.false_eq_true, if_false]
    rfl
  case activate =>
    intro f p sl m s h hb hs
    refine congrArg _ (servePF_of_ok h ?_)
    simp only [hb, hs, Bool.false_eq_true, if_false]
    rfl
  case commit =>
    intro f p m s h hm hb ht
    refine congrArg _ (servePF_of_ok h ?_)
    simp only [hm, hb, ht, Bool.not_true, Bool.false_eq_true, if_false, Nat.reduceLeDiff, zero_ne_one]
    rfl
  case query =>
    intro f p m s h
    exact ⟨_, congrArg _ (serve_of_ok h rfl), rfl⟩
  case restart =>
    intro f p m s h hk
    refine congrArg _ (servePF_of_ok h ?_)
    simp only [Nat.not_le.mpr hk, if_false]
    rfl
  case config =>
    intro f p m s r h hn hr hc hw
    subst hr
    refine congrArg _ (servePF_of_ok h ?_)
    simp only [hc, hw, cfgLen, Nat.not_lt.mpr hn, Option.isSome_none, Bool.not_true, Bool.false_eq_true, if_false]

/-! The messages of Louvre, the Mullion processors and the Keepers (10 R371; 14 R499, R502, R511, R518, R519; 09 R357). -/

/-- A hot threshold lies below its trip threshold, so that it is in range where that one is (14 R502). -/
theorem thermCfg_in_range {b : List Byte} (h : ∀ i, i < 4 → le b (4 * i) 1 < 2 ∧ dirty b (4 * i + 3) 1 = false
      ∧ (le b (4 * i) 1 = 1 → le b (4 * i + 2) 1 ≤ 125 ∧ le b (4 * i + 1) 1 < le b (4 * i + 2) 1)) :
    (List.range 4).any (fun i => 2 ≤ le b (4 * i) 1 || dirty b (4 * i + 3) 1) = false
    ∧ (List.range 4).any (fun i => le b (4 * i) 1 = 1 && (decide (125 < le b (4 * i + 1) 1) || decide (125 < le b (4 * i + 2) 1)
        || decide (le b (4 * i + 2) 1 ≤ le b (4 * i + 1) 1))) = false := by
  refine ⟨List.any_eq_false.mpr fun i hi => ?_, List.any_eq_false.mpr fun i hi => ?_⟩
  · obtain ⟨hen, hd, -⟩ := h i (List.mem_range.mp hi)
    simp [hd, hen]
  · obtain ⟨-, -, ht⟩ := h i (List.mem_range.mp hi)
    simp only [Bool.and_eq_true, Bool.or_eq_true, decide_eq_true_eq]
    omega

theorem toLintel_at_lintel {s : State} (h : s.fab.isLintel = true) (l : List Nat) (own : State → State) : toLintel l own s = own s := if_pos h

/-! SVC_CONFIG (12 R441, R444). -/

/-- The message names a casement of the sender's port and a context of that casement. -/
structure NamesOwnCasement (f k : Nat) (b : List Byte) (x : Ctx) (s : State) : Prop where
  cas   : k = le b 0 1
  lt    : k < 16
  owner : (s.casAt k).owner = fnPort f + 1
  ctx   : s.getCtx (le b 2 2) = some x
  home  : x.cas = k

/-- Nothing of the casement is alive, it is not served across the group, and every field of the message is in range. -/
structure MaySetService (k : Nat) (b : List Byte) (s : State) : Prop where
  live   : liveOf s k = 0
  auto   : le b 22 1 < 2
  resv   : dirty b 23 1 = false
  tail   : dirty b 40 24 = false
  fields : svcBad s b = false
  mode   : (s.casAt k).svc.mode ≠ 2

section
variable {f k : Nat} {b : List Byte} {s : State} {x : Ctx} (hn : NamesOwnCasement f k b x s)
include hn

/-- While the home leaf's Keeper restarts, SVC_CONFIG is answered BUSY with a free estimate (13 R486; log 44). -/
theorem svcConfig_of_restarting (hd : procDown s (4 + homeLeaf s k) = true) (hm : le b 1 1 = 0) : svcConfig f b s = replyWait stBusy s := by
  obtain ⟨rfl, hlt, ho, hx, hc⟩ := hn
  simp only [svcConfig, Nat.not_lt.mpr (Nat.le_of_lt_succ hlt), ho, hm, hx, hc, hd, ne_eq, not_true_eq_false, if_false, if_true, OfNat.zero_ne_ofNat,
    zero_ne_one, decide_false, Bool.false_and, Bool.false_eq_true, beq_self_eq_true, Bool.not_true]

/-- MODE 0 sets the service and nothing runs. -/
theorem svcConfig_of_off (hd : procDown s (4 + homeLeaf s k) = false) (hok : MaySetService k b s) (hm : le b 1 1 = 0) :
    svcConfig f b s = (Reply.ok 0 [], s.modCas k (fun v => { v with svc := svcOf b })) := by
  obtain ⟨rfl, hlt, ho, hx, hc⟩ := hn
  obtain ⟨hl, ha, hr, hr', hb, hs⟩ := hok
  have off : (svcOf b).ctx = none := if_pos hm
  simp only [svcConfig, Nat.not_lt.mpr (Nat.le_of_lt_succ hlt), ho, hm, hx, hc, hd, hl, Nat.not_le.mpr ha, hr, hr', hb, hs, off, ne_eq,
    not_true_eq_false, if_false, OfNat.zero_ne_ofNat, zero_ne_one, decide_false, Bool.false_and, Bool.false_eq_true, beq_self_eq_true,
    Bool.not_true, Nat.lt_irrefl, Bool.or_self]

/-- MODE 1 sets the service, and its first boundary follows. -/
theorem svcConfig_of_alone (hd : procDown s (4 + homeLeaf s k) = false) (hok : MaySetService k b s) (hm : le b 1 1 = 1) (hj : ajar s = false)
    (ht : ∀ l, tget s.fab.teams (le b 20 2) = some l → l.length ≤ 64) :
    svcConfig f b s = (Reply.ok 0 [], boundary k (le b 2 2) (s.modCas k (fun v => { v with svc := svcOf b }))) := by
  obtain ⟨rfl, hlt, ho, hx, hc⟩ := hn
  obtain ⟨hl, ha, hr, hr', hb, hs⟩ := hok
  have on : (svcOf b).ctx = some (le b 2 2) := if_neg (by rw [hm]; decide)
  have small : ¬ 64 < (match tget s.fab.teams (le b 20 2) with | some l => l.length | none => 0) := by
    split
    · next l h => exact Nat.not_lt.mpr (ht l h)
    · decide
  simp only [svcConfig, Nat.not_lt.mpr (Nat.le_of_lt_succ hlt), ho, hm, hx, hc, hd, hl, Nat.not_le.mpr ha, hr, hr', hb, hs, on, hj, ne_eq, not_true_eq_false,
    if_false, OfNat.one_ne_ofNat, decide_false, Bool.false_and, Bool.and_false, Bool.false_eq_true, beq_self_eq_true, Bool.not_true, Nat.lt_irrefl,
    Bool.or_self]
  exact if_neg fun hbig => small (of_decide_eq_true (Bool.and_eq_true_iff.mp hbig).2)

end

theorem serviceMessages : Claims.ServiceMessages := by
  unfold Claims.ServiceMessages
  refine ⟨fun f p m s h => congrArg _ (servePF_of_ok h rfl), ?inputs, ?gates, ?budget, ?floor, ?calibration, ?share,
    fun f p m s h => congrArg _ (serve_of_ok h rfl), ?service⟩
  case inputs =>
    intro f p m s h hin
    obtain ⟨reserved, thresholds⟩ := thermCfg_in_range hin
    refine congrArg _ (servePF_of_ok h ?_)
    simp only [reserved, thresholds, Bool.false_eq_true, if_false]
  case gates =>
    intro f p m s h ok
    exact ⟨fun hin => congrArg _ (servePF_of_ok h (if_neg (by grind))), fun hout => congrArg _ (servePF_of_skip h (if_pos (by grind)))⟩
  case budget =>
    intro f p m s h hm hl hi hlo hhi
    refine congrArg _ (servePF_of_ok h ?_)
    simp only [hm, toLintel_at_lintel hi, Nat.not_lt.mpr hlo, Nat.not_lt.mpr hhi, Nat.not_lt.mpr hl, Bool.not_true, decide_false, Bool.or_self,
      Bool.false_eq_true, if_false]
  case floor =>
    intro f p m s h ok
    exact ⟨fun hin => congrArg _ (servePF_of_ok h (if_neg (by grind))), fun hout => congrArg _ (servePF_of_skip h (if_pos (by grind)))⟩
  case calibration =>
    intro f p m s h
    exact ⟨fun hlo hhi => congrArg _ (servePF_of_ok h (if_neg (by grind))), fun hout => congrArg _ (servePF_of_skip h (if_pos (by grind)))⟩
  case share =>
    intro f p m s h
    exact ⟨fun hlo hhi => congrArg _ (servePF_of_ok h (if_neg (by grind))), fun hout => congrArg _ (servePF_of_skip h (if_pos (by grind)))⟩
  case service =>
    intro f p m s x k h hk hlt ho hx hc
    have hn : NamesOwnCasement f k m.body x s := ⟨hk, hlt, ho, hx, hc⟩
    refine ⟨fun hd hm => congrArg _ (serve_of_taken h.1 (not_refused_of_waitsPF h) (svcConfig_of_restarting hn hd hm)), fun hd hl ha hr hr' hb hs => ?_⟩
    have hok : MaySetService k m.body s := ⟨hl, ha, hr, hr', hb, hs⟩
    exact ⟨fun hm hj ht => congrArg _ (servePF_of_ok h (svcConfig_of_alone hn hd hok hm hj ht)),
      fun hm => congrArg _ (servePF_of_ok h (svcConfig_of_off hn hd hok hm))⟩

/-- Settles O54: a message that waits is answered as its row decides, and each row by whether its fields are in range. -/
theorem mailboxMessages : Obligations.MailboxMessages := ⟨firmwareMessages, serviceMessages⟩

end Sys2Proof.Machine
end

section
/-! SUPPORT. Replies and refusals of a mailbox (13 R478-R482; 16 R563), and what the background work of a message leaves: the slot that an image is stored in
(13 R490), and the trial window that an activation opens (R491, R494). -/

namespace Sys2Proof.Machine

open Sys2Proof.Claims

/-! Replies and doorbells (13 R478-R480; 16 R563). -/

theorem State.mbxAt_modMbx_same (s : State) (k : Nat) (g : Mbx → Mbx) : (s.modMbx k g).mbxAt k = g (s.mbxAt k) := by
  simp [tgetD]

theorem State.mbxAt_modMbx_other (s : State) {k j : Nat} (g : Mbx → Mbx) (h : j ≠ k) : (s.modMbx k g).mbxAt j = s.mbxAt j := by
  simp [tgetD, tget_tset_other _ k j _ h]

section
variable {f p ver : Nat} {m : Msg} {r : Reply} {s : State}

/-- Beside the vector that it may send, a reply writes its buffer and changes its own mailbox. -/
theorem answer_of_untouched {α : Type} {π : State → α} (hout : ∀ s g, π (s.onOut g) = π s) (f p ver : Nat) (m : Msg) (r : Reply) (s : State) :
    ∃ g : Mem → Mem, π (answer f p m ver r s) = π ((s.onMbxBuf g).modMbx (f * 6 + p) (fun x => { x with outstanding := false, done := true })) := by
  unfold answer
  extract_lets env written replied
  exact ⟨_, ite_untouched (s := replied) (hout _ _) rfl⟩

theorem mbx_answer (f p ver : Nat) (m : Msg) (r : Reply) (s : State) :
    (answer f p m ver r s).mbx = (s.modMbx (f * 6 + p) (fun x => { x with outstanding := false, done := true })).mbx := by
  obtain ⟨g, h⟩ := answer_of_untouched (π := State.mbx) (fun _ _ => rfl) f p ver m r s
  exact h

theorem fw_answer (f p ver : Nat) (m : Msg) (r : Reply) (s : State) : (answer f p m ver r s).fw = s.fw := by
  obtain ⟨g, h⟩ := answer_of_untouched (π := State.fw) (fun _ _ => rfl) f p ver m r s
  exact h

theorem mbxAt_answer (k : Nat) : (answer f p m ver r s).mbxAt k
    = (s.modMbx (f * 6 + p) (fun x => { x with outstanding := false, done := true })).mbxAt k :=
  congrArg (tgetD · k Mbx.init) (mbx_answer f p ver m r s)

theorem mbxBell_of_outstanding {seq : Nat} (h : (s.mbxAt (f * 6 + p)).outstanding = true) :
    mbxBell f p seq s = s.modMbx (f * 6 + p) (fun x => { x with err := true }) := if_pos h

theorem mbxBell_of_free {seq : Nat} (h : (s.mbxAt (f * 6 + p)).outstanding = false) (hd : procDown s p = false) :
    mbxBell f p seq s = s.modMbx (f * 6 + p) (fun x => { x with outstanding := true, done := false, seq := seq }) :=
  (if_neg (ne_true_of_eq_false h)).trans (if_neg (ne_true_of_eq_false hd))

/-! Refusals (13 R481, R482). -/

theorem exec_unknownMtype_of_version (hw : msgWaits s f p = true) (hv : verOk s p (message s f p).ver = false) :
    exec (.unknownMtype f p) s = .next (answer f p (message s f p) (s.procAt p).ver { st := 0x31, det := 0, res := 0, body := [] } s) := by
  show Host.Outcome.next _ = _
  simp only [hw, hv, Bool.not_true, Bool.not_false, Bool.false_eq_true, if_true, if_false]
  rfl

theorem exec_unknownMtype_of_type (hw : msgWaits s f p = true) (hv : verOk s p (message s f p).ver = true) (hk : msgKnown p (message s f p).ty = false)
    (hr : s.dev.recovery = false) :
    exec (.unknownMtype f p) s = .next (answer f p (message s f p) (message s f p).ver { st := 0x01, det := 1, res := 0, body := [] } s) := by
  show Host.Outcome.next _ = _
  simp only [hw, hv, hk, hr, Bool.not_true, Bool.false_eq_true, if_false]
  rfl

/-- A message of another length than its type's is refused. -/
theorem serve_of_wrong_length {ty len n : Nat} {act : Msg → State → Reply × State} (h : Waits ty len f p m s) (hl : len ≠ n) :
    serve ty false n f p act s = answer f p m m.ver { st := 0x01, det := 6, res := 0, body := [] } s := by
  rw [serve_of_waits h, if_neg (by simp), if_pos hl]
  rfl

/-- A message that only a physical function may send is refused to a virtual one. -/
theorem serve_of_virtual {ty len n : Nat} {act : Msg → State → Reply × State} (h : Waits ty len f p m s) (hf : isPF f = false) :
    serve ty true n f p act s = answer f p m m.ver { st := 0x40, det := 2, res := 0, body := [] } s := by
  rw [serve_of_waits h, if_pos (by rw [hf]; rfl)]
  rfl

end

theorem mailboxReplies : Claims.MailboxReplies := by
  unfold Claims.MailboxReplies
  refine ⟨?reply, fun f p seq s => mbxBell_of_outstanding, fun f p seq s => mbxBell_of_free, fun f p s => exec_unknownMtype_of_version,
    fun f p s => exec_unknownMtype_of_type, fun f p len m s h hl => congrArg _ (serve_of_wrong_length h hl),
    fun f p len m s h hf => congrArg _ (serve_of_virtual h hf)⟩
  case reply =>
    intro f p ver m r s _ _
    refine ⟨?_, ?_, fun k hk => by rw [mbxAt_answer, State.mbxAt_modMbx_other _ _ hk]⟩ <;> rw [mbxAt_answer, State.mbxAt_modMbx_same]

/-! Background work (13 R483, R490, R491). -/

section
variable {w : FwWork} {b : Bool} {s : State}

theorem fw_workWrite (w : FwWork) (a : Nat) (bs : List Byte) (s : State) : (workWrite w a bs s).fw = s.fw := ite_untouched (π := State.fw) rfl rfl

theorem fw_trace (p pt sev : Nat) (a0 a1 : Word) (s : State) : (trace p pt sev a0 a1 s).fw = s.fw := rfl

theorem workDone_of_ready (hd : procDown s 0 = false) (hr : s.dev.inReset = false) (hw : s.fw.work.find? (workReady s) = some w) :
    workDone b s = if w.kind = 0x12 then stageDone w b (dropWork w s)
      else if w.kind = 0x13 then workWrite w w.status (statusLine stOK 0)
        (((dropWork w s).onFw (fun x => { x with window := true })).onProc (tmap (fun _ p => { p with newCrash := 0 })))
      else workWrite w w.status (statusLine stOK 0) (workWrite w w.addr (report (dropWork w s) w.nonce) (dropWork w s)) := by
  simp only [workDone, hd, hr, hw, Bool.or_self, Bool.false_eq_true, if_false]

/-! The slot of a stored image (13 R490). -/

/-- What FW_STAGE's work answers as DENIED, if it does: a flash that cannot be written, or what the check of the image finds. -/
def stageFault (w : FwWork) (b : Bool) (s : State) : Option Nat :=
  if !b || !s.pin.flashWpN then some 0x26 else imageFault s (busRead s (fnPort (w.fn % 34)) w.addr w.len)

/-- The image is checked as it was read: the check asks nothing of the flash bytes that have just been written. The other slot keeps its state. -/
theorem fw_stageDone (w : FwWork) (b : Bool) (s : State) :
    (stageDone w b s).fw.slots = tset s.fw.slots (1 - s.fw.active % 2) (if stageFault w b s = none then .staged else .empty)
    ∧ ((b && s.pin.flashWpN) = false → (stageDone w b s).fw.mem = s.fw.mem) := by
  unfold stageDone
  extract_lets sl m t bad
  have checked : bad = stageFault w b s := by
    unfold bad t
    split <;> rfl
  have slots : t.fw.slots = s.fw.slots := by unfold t; split <;> rfl
  have mem : (b && s.pin.flashWpN) = false → t.fw.mem = s.fw.mem := fun h => congrArg (fun u : State => u.fw.mem) (if_neg (ne_true_of_eq_false h))
  rw [← checked]
  clear_value t bad
  cases bad with
  | none =>
    exact ⟨(congrArg Fw.slots (fw_workWrite _ _ _ _)).trans (congrArg (tset · sl SlotSt.staged) slots),
      fun h => (congrArg Fw.mem (fw_workWrite _ _ _ _)).trans (mem h)⟩
  | some d =>
    have logged : ∀ (c : Prop) [Decidable c] (a : Word) (u : State), (if c then trace 0 0x1002 3 a (BitVec.ofNat 64 d) u else u).fw = u.fw :=
      fun _ _ _ _ => ite_untouched (π := State.fw) rfl rfl
    exact ⟨(congrArg Fw.slots (fw_workWrite _ _ _ _)).trans (congrArg (tset · sl SlotSt.empty) ((congrArg Fw.slots (logged _ _ _)).trans slots)),
      fun h => (congrArg Fw.mem (fw_workWrite _ _ _ _)).trans ((congrArg Fw.mem (logged _ _ _)).trans (mem h))⟩

theorem slotSt_stageDone (w : FwWork) (b : Bool) (s : State) :
    slotSt (stageDone w b s) (1 - s.fw.active % 2) = (if stageFault w b s = none then .staged else .empty)
    ∧ slotSt (stageDone w b s) (s.fw.active % 2) = slotSt s (s.fw.active % 2) := by
  obtain ⟨slots, -⟩ := fw_stageDone w b s
  have other : s.fw.active % 2 ≠ 1 - s.fw.active % 2 := by omega
  simp only [slotSt, slots, tget_tset_same, tget_tset_other _ _ _ _ other, Option.getD_some, and_self]

theorem stageFault_of_written (hf : w.fn < 34) (hp : s.pin.flashWpN = true) :
    stageFault w true s = imageFault s (busRead s (fnPort w.fn) w.addr w.len) := by
  rw [stageFault, Nat.mod_eq_of_lt hf, hp]
  rfl

theorem stageFault_of_unwritten (h : b = false ∨ s.pin.flashWpN = false) : stageFault w b s = some 0x26 :=
  if_pos (by rcases h with h | h <;> simp [h])

end

theorem mailboxWork : Claims.MailboxWork := by
  unfold Claims.MailboxWork
  refine ⟨?ends, ?stored, ?unstored, fun s => rfl⟩
  case ends =>
    intro b w s hd hr hw t
    have row : exec (.mailboxWorkDone b) s = .next (workDone b s) := rfl
    rw [row, workDone_of_ready hd hr hw]
    refine ⟨fun hk => ?_, fun hk => ?_, fun hk => ?_⟩ <;> simp only [hk] <;> rfl
  case stored =>
    intro w s hf hp
    rw [← stageFault_of_written hf hp]
    exact slotSt_stageDone w true s
  case unstored =>
    intro w b s _ h
    obtain ⟨own, other⟩ := slotSt_stageDone w b s
    obtain ⟨-, mem⟩ := fw_stageDone w b s
    rw [stageFault_of_unwritten h] at own
    exact ⟨own, other, mem (by rcases h with h | h <;> simp [h])⟩

/-- Settles O55: a message is refused by the first rule it breaks, and work ends by its kind, an image's by what its check finds. -/
theorem mailboxRepliesAndWork : Obligations.MailboxRepliesAndWork := ⟨mailboxReplies, mailboxWork⟩

end Sys2Proof.Machine
end

section
/-! SUPPORT. Crashes and restarts of the firmware processors (13 R466, R467, R484-R494): what a crash leaves, and how a processor returns. -/

namespace Sys2Proof.Machine

open Sys2Proof.Claims

/-! Processors and what answering BUSY leaves of the firmware (13 R486). -/

theorem State.procAt_modProc_same (s : State) (k : Nat) (g : Proc → Proc) : (s.modProc k g).procAt k = g (s.procAt k) := by
  simp [tgetD]

theorem State.procAt_modProc_other (s : State) {k j : Nat} (g : Proc → Proc) (h : j ≠ k) : (s.modProc k g).procAt j = s.procAt j := by
  simp [tgetD, tget_tset_other _ k j _ h]

theorem fw_busyAll (p : Nat) (s : State) : (busyAll p s).fw = s.fw :=
  forEach_untouched (π := State.fw) (fun f t => fw_answer f p _ _ _ (State.fresh t).2) _ s

/-! Crashes (13 R484, R486, R488, R494). -/

theorem windowOpen_iff {s : State} {p : Nat} {a b : Word} :
    windowOpen s p a b = true ↔ ∃ w ∈ windowsOf s p, w.base ≤ a.toNat ∧ a.toNat < w.limit ∧ (b.truncate 3 &&& ~~~ w.rights) = 0 := by
  simp only [windowOpen, List.any_eq_true, Bool.and_eq_true, decide_eq_true_eq, and_assoc]

/-- What a crash comes to once its processor's messages are answered: a rollback, a processor held down, or a restart (13 R488, R494). -/
def afterCrash (p : Nat) (t : State) : State :=
  let n := (t.procAt p).crashes.length
  if t.fw.window && 2 ≤ (t.procAt p).newCrash then rollback p t
  else if 4 ≤ n then busyAll p (devEvent 0 ((trace p 0x0005 4 (BitVec.ofNat 64 n) 0 (t.modProc p (fun x => { x with held := true }))).onDev
    (fun d => { d with fwFail := setBit d.fwFail p true })))
  else t

section
variable {p pt : Nat} {a b : Word} {s t : State}

theorem crash_of_down (h : procDown s p = true) : crash p pt a b s = s := if_pos (by simp [h])

theorem failStage_of_none (h : s.fw.work.find? (fun w => w.kind = 0x12) = none) : failStage s = s := by
  rw [failStage, h]

/-- A crash with no FW_STAGE to fail is logged, and answers the processor's messages BUSY. -/
theorem crash_of_up (hw : 0 < p ∨ s.fw.work.find? (fun w => w.kind = 0x12) = none) (hp : p < 6) (hd : procDown s p = false) (hr : s.dev.inReset = false) :
    crash p pt a b s = afterCrash p (busyAll p (crashed p pt a b s)) := by
  have staged : (if p = 0 then failStage (crashed p pt a b s) else crashed p pt a b s) = crashed p pt a b s := by
    split
    · next h0 => exact failStage_of_none (hw.resolve_left (by omega))
    · rfl
  have up : ¬ (decide (6 ≤ p) || procDown s p || s.dev.inReset) = true := by simp [hd, hr, hp]
  calc crash p pt a b s
    _ = afterCrash p (busyAll p (if p = 0 then failStage (crashed p pt a b s) else crashed p pt a b s)) := if_neg up
    _ = afterCrash p (busyAll p (crashed p pt a b s)) := by rw [staged]

theorem window_of_crashed : (busyAll p (crashed p pt a b s)).fw.window = s.fw.window := congrArg Fw.window (fw_busyAll p _)

theorem afterCrash_of_few (hw : t.fw.window = false) (hn : (t.procAt p).crashes.length < 4) : afterCrash p t = t := by
  rw [afterCrash, hw, if_neg (by simp), if_neg (Nat.not_le.mpr hn)]

theorem afterCrash_of_fourth (hw : t.fw.window = false) (hn : 4 ≤ (t.procAt p).crashes.length) :
    afterCrash p t = busyAll p (devEvent 0 ((trace p 0x0005 4 (BitVec.ofNat 64 (t.procAt p).crashes.length) 0
      (t.modProc p (fun x => { x with held := true }))).onDev (fun d => { d with fwFail := setBit d.fwFail p true }))) := by
  rw [afterCrash, hw, if_neg (by simp), if_pos hn]

theorem afterCrash_of_second_in_trial (hw : t.fw.window = true) (hn : 2 ≤ (t.procAt p).newCrash) : afterCrash p t = rollback p t :=
  if_pos (by simp only [hw, hn, decide_true, Bool.and_self])

end

/-! Restarts (13 R466, R484, R487, R489). -/

section
variable {p : Nat} {s : State} (hs : (s.procAt p).restarting = true) (hh : (s.procAt p).held = false) (hr : s.dev.inReset = false)
include hs hh hr

theorem exec_restartDone_of_planned (hp : (s.procAt p).planned = true) :
    exec (.restartDone p) s = .next (pumpAll (trace p 0x0004 1 (Config.freeWord s.freeCtr 0) 1 (plannedDone p (s.onFreeCtr (fun n => n + 1))))) := by
  show Host.Outcome.next (restartDone p s) = _
  simp only [restartDone, hs, hh, hr, hp, Bool.not_true, Bool.or_self, Bool.false_eq_true, if_false, if_true]
  rfl

theorem exec_restartDone_of_unplanned (hp : (s.procAt p).planned = false) :
    exec (.restartDone p) s = .next (pumpAll (trace p 0x0004 1 (Config.freeWord s.freeCtr 0) 0
      (let t := (s.onFreeCtr (fun n => n + 1)).modProc p (fun x => { x with restarting := false, restarts := x.restarts + 1 })
       if p = 4 ∨ p = 5 then resumeJobs (p - 4) (loseRequests (p - 4) t) else t))) := by
  show Host.Outcome.next (restartDone p s) = _
  simp only [restartDone, hs, hh, hr, hp, Bool.not_true, Bool.or_self, Bool.false_eq_true, if_false, Bool.or_eq_true, decide_eq_true_eq]
  rfl

end

theorem exec_plannedRestart_of_quiet {p : Nat} {s : State} (hp : p < 6) (hpl : (s.procAt p).planned = true) (hd : procDown s p = false)
    (hr : s.dev.inReset = false) (hq : quiet s p = true) :
    exec (.plannedRestart p) s = .next (s.modProc p (fun x => { x with restarting := true })) := by
  show Host.Outcome.next _ = _
  simp only [hp, hpl, hd, hr, hq, decide_true, Bool.true_or, Bool.not_false, Bool.and_self, if_true]

theorem exec_plannedRestart_of_unquiet {p : Nat} {s : State} (hq : quiet s p = false) : exec (.plannedRestart p) s = .next s :=
  congrArg Host.Outcome.next (if_neg (by simp [hq]))

theorem procAt_setWindows_same (p : Nat) (s : State) :
    (setWindows p s).procAt p = { s.procAt p with win := ((tget (slotImg s s.fw.booted).wins (compOf p)).getD []).take 16 } :=
  State.procAt_modProc_same s p _

theorem procAt_setWindows_other {p k : Nat} (h : k ≠ p) (s : State) : (setWindows p s).procAt k = s.procAt k := State.procAt_modProc_other s _ h

theorem procAt_loadImage (p k : Nat) (s : State) : (loadImage p s).procAt k = (setWindows p (s.modProc p (fun x => { x with
    ver := (slotImg s s.fw.booted).ver, hover := (slotImg s s.fw.booted).hover, imgver := (slotImg s s.fw.booted).imgver }))).procAt k := rfl

theorem crashesAndRestarts : Claims.CrashesAndRestarts := by
  unfold Claims.CrashesAndRestarts
  refine ⟨fun p a b s => ⟨rfl, rfl, rfl, windowOpen_iff⟩, ?few, ?second, fun p s h pt a b => crash_of_down h, ?engine, ?keeper, ?planned, ?image, ?turn⟩
  case few =>
    intro p pt a b s hst hp hd hr hw t
    have closed : t.fw.window = false := window_of_crashed.trans hw
    rw [crash_of_up hst hp hd hr]
    exact ⟨afterCrash_of_few closed, afterCrash_of_fourth closed⟩
  case second =>
    intro p pt a b s hst hp hd hr _ t hw hn
    rw [crash_of_up hst hp hd hr]
    exact afterCrash_of_second_in_trial hw hn
  case engine =>
    intro p s hp hs hh hpl hr
    rw [exec_restartDone_of_unplanned hs hh hr hpl]
    dsimp only
    rw [if_neg (by omega)]
  case keeper =>
    intro p s hp hs hh hpl hr
    rw [exec_restartDone_of_unplanned hs hh hr hpl]
    dsimp only
    rw [if_pos hp]
  case planned => exact fun p s hs hh hpl _ hr => exec_restartDone_of_planned hs hh hr hpl
  case image =>
    intro p s
    refine ⟨?_, ?_, ?_, fun k hk => ?_⟩
    · rw [procAt_setWindows_same]
    · rw [procAt_loadImage, procAt_setWindows_same]
      rfl
    · rw [procAt_loadImage, procAt_setWindows_same, State.procAt_modProc_same]
    · rw [procAt_loadImage, procAt_setWindows_other hk, State.procAt_modProc_other _ _ hk]
  case turn =>
    exact fun p s hp hpl hd hr => ⟨exec_plannedRestart_of_quiet hp hpl hd hr, exec_plannedRestart_of_unquiet⟩

end Sys2Proof.Machine
end

section
/-! SUPPORT. The boot (13 R469, R472-R474; 05 R180; 15 R545-R549): the copy of the boot descriptor that the ROM reads, the slot that it boots, and the
stacks that come into service. -/

namespace Sys2Proof.Machine

open Sys2Proof.Claims

/-! The boot descriptor (13 R469). -/

/-- What Deadbolt works with after it has read a copy. -/
def Fw.readFrom (w : Fw) (x : BootCopy) : Fw := { w with active := x.active, trial := x.trial, count := x.count, slots := x.slots, bootGen := x.gen }

section
variable {w : Fw} {a b : BootCopy} (hw : w.copies = [a, b])
include hw

theorem reread_of_first (ha : a.crcOk = true) (hb : b.crcOk = false ∨ b.gen.toNat ≤ a.gen.toNat) : Fw.reread w = w.readFrom a := by
  cases hc : b.crcOk with
  | false => simp [Fw.reread, Fw.readFrom, hw, ha, hc]
  | true => simp [Fw.reread, Fw.readFrom, hw, ha, hc, Nat.not_lt.mpr (hb.resolve_left (by simp [hc]))]

theorem reread_of_second (hb : b.crcOk = true) (ha : a.crcOk = false ∨ a.gen.toNat < b.gen.toNat) : Fw.reread w = w.readFrom b := by
  cases hc : a.crcOk with
  | false => simp [Fw.reread, Fw.readFrom, hw, hb, hc]
  | true => simp [Fw.reread, Fw.readFrom, hw, hb, hc, ha.resolve_left (by simp [hc])]

end

/-! ROM_BOOT (13 R473). -/

/-- The ROM boots the active slot, or the other one where that may be booted instead, or it enters recovery. -/
def bootFrom (t : State) : State :=
  let other := 1 - t.fw.active % 2
  if slotOk t t.fw.active then bootSlot t.fw.active t
  else if bootable t other then bootSlot other (trace 0 0x1003 3 (BitVec.ofNat 64 t.fw.active) (BitVec.ofNat 64 other) t)
  else t.onDev (fun d => { d with recovery := true, rst := false })

section
variable {s t u : State}

theorem exec_romBoot_of_unlocked (hr : s.dev.inReset = false) (hl : s.dev.bootLock = false) (hv : s.dev.recovery = false) :
    exec .romBoot s = .next (bootFrom (countTrial (readDescriptor s))) :=
  congrArg Host.Outcome.next (if_neg (by simp [hr, hl, hv]))

theorem bootFrom_of_valid (h : slotOk t t.fw.active = true) : bootFrom t = bootSlot t.fw.active t := if_pos h

theorem bootFrom_of_other (h : slotOk t t.fw.active = false) (ho : bootable t (1 - t.fw.active % 2) = true) :
    bootFrom t = bootSlot (1 - t.fw.active % 2) (trace 0 0x1003 3 (BitVec.ofNat 64 t.fw.active) (BitVec.ofNat 64 (1 - t.fw.active % 2)) t) :=
  (if_neg (ne_true_of_eq_false h)).trans (if_pos ho)

theorem bootFrom_of_none (h : slotOk t t.fw.active = false) (ho : bootable t (1 - t.fw.active % 2) = false) :
    bootFrom t = t.onDev (fun d => { d with recovery := true, rst := false }) :=
  (if_neg (ne_true_of_eq_false h)).trans (if_neg (ne_true_of_eq_false ho))

theorem countTrial_of_settled (h : u.fw.trial = false) : countTrial u = u := if_pos (by simp [h])

/-- The second boot of a trial gives it up: the slot is rejected and the other one takes its place, with the images as they were. -/
theorem countTrial_of_second (h : u.fw.trial = true) (hc : 1 ≤ u.fw.count) :
    (countTrial u).fw.trial = false ∧ (countTrial u).fw.count = 0 ∧ (countTrial u).fw.slots = tset u.fw.slots u.fw.active .rejected
    ∧ (countTrial u).fw.active = 1 - u.fw.active % 2 ∧ (countTrial u).fw.img = u.fw.img ∧ (countTrial u).fw.svn = u.fw.svn := by
  have given : countTrial u = setSlot u.fw.active .rejected ((u.onFw (fun w => Fw.rewrite { w with count := w.count + 1 })).onFw
      (fun w => { w with active := 1 - u.fw.active % 2, trial := false, count := 0 })) :=
    (if_neg (by simp [h])).trans (if_neg (Nat.not_lt.mpr (Nat.succ_le_succ hc)))
  rw [given]
  exact ⟨rfl, rfl, rfl, rfl, rfl, rfl⟩

theorem slotOk_congr {sl : Nat} (hi : t.fw.img = u.fw.img) (hs : t.fw.svn = u.fw.svn) : slotOk t sl = slotOk u sl := by
  rw [slotOk, slotOk, slotImg, slotImg, hi, hs]

/-! The first stage and the stacks (13 R472; 15 R545-R549). -/

theorem exec_firstStageRelease_of_unlocked (hr : s.dev.inReset = false) (hl : s.dev.bootLock = false) (hv : s.dev.recovery = false)
    (hu : u = bootUcode (forEach (List.range 6) setWindows (s.onDev (fun d => { d with bootLock := true, mullUp := 3 })))) :
    exec .firstStageRelease s = .next (pumpAll (serviceCheck (trace 0 0x1001 1 1 (BitVec.ofNat 64 u.fw.booted) u))) := by
  subst hu
  exact congrArg Host.Outcome.next (if_neg (by simp [hr, hl, hv]))

variable {st : Nat} (hst : st < 12) (hr : s.dev.inReset = false) (hd : procDown s (4 + leafOfStack st) = false) (hi : s.dev.stackIn.getLsbD st = false)
include hst hr hd hi

theorem exec_stackInService_of_trained (hf : s.dev.stackFail.getLsbD st = false) :
    exec (.stackInService st) s = .next (pumpAll (serviceCheck (s.onDev (fun d => { d with stackIn := setBit d.stackIn st true })))) :=
  congrArg Host.Outcome.next (if_neg (by simp only [Nat.not_le.mpr hst, hr, hd, hi, hf, decide_false, Bool.or_self, Bool.false_eq_true, not_false_eq_true]))

theorem exec_stackTrainingFail_of_training :
    exec (.stackTrainingFail st) s = .next (pumpAll (serviceCheck (s.onDev (fun d => { d with stackFail := setBit d.stackFail st true })))) :=
  congrArg Host.Outcome.next (if_neg (by simp only [Nat.not_le.mpr hst, hr, hd, hi, decide_false, Bool.or_self, Bool.false_eq_true, not_false_eq_true]))

end

theorem bootSequence : Claims.BootSequence := by
  unfold Claims.BootSequence
  refine ⟨?descriptor, ?settled, ?trial, fun s u => exec_firstStageRelease_of_unlocked,
    fun st s hst hr hd hi => ⟨exec_stackInService_of_trained hst hr hd hi, exec_stackTrainingFail_of_training hst hr hd hi⟩⟩
  case descriptor =>
    intro a b w hw hok x
    by_cases hx : a.crcOk = true ∧ (b.crcOk = false ∨ b.gen.toNat ≤ a.gen.toNat)
    · have first : x = a := if_pos hx
      rw [first]
      exact reread_of_first hw hx.1 hx.2
    · have second : x = b := if_neg hx
      rw [second]
      exact reread_of_second hw (by grind) (by grind)
  case settled =>
    intro s u sl hr hl hv hu ht hsl
    subst hsl
    rw [exec_romBoot_of_unlocked hr hl hv, ← hu, countTrial_of_settled ht]
    exact ⟨fun h => congrArg _ (bootFrom_of_valid h), fun h ho => congrArg _ (bootFrom_of_other h ho), fun h ho => congrArg _ (bootFrom_of_none h ho)⟩
  case trial =>
    intro s u hr hl hv hu ht hc ha hok
    obtain ⟨trial, count, slots, active, img, svn⟩ := countTrial_of_second ht hc
    rw [ha] at slots active
    refine ⟨countTrial u, ?_, trial, count, ?_, active⟩
    · rw [exec_romBoot_of_unlocked hr hl hv, ← hu, bootFrom_of_valid (by rw [active, slotOk_congr img svn]; exact hok), active]
    · rw [slotSt, slots, tget_tset_same]
      rfl

/-- Settles O56: a crash by what has come before it, a restart by whether it was planned, a boot by the slots that the descriptor names. -/
theorem restartsAndBoot : Obligations.RestartsAndBoot := ⟨crashesAndRestarts, bootSequence⟩

end Sys2Proof.Machine
end

section
/-! SUPPORT. The control step (14 R509-R512, R516, R518): what it records, the step that it gives each unit, and that the slow-notice it may send leaves
both as they stand. -/

namespace Sys2Proof.Machine

/-! Tables. -/

theorem tgetD_tset_same {α : Type} (t : Tbl α) (k : Nat) (v d : α) : tgetD (tset t k v) k d = v := by
  rw [tgetD, tget_tset_same]
  rfl

theorem tgetD_tset_other {α : Type} (t : Tbl α) {k j : Nat} (v d : α) (h : j ≠ k) : tgetD (tset t k v) j d = tgetD t j d := by
  rw [tgetD, tget_tset_other t k j v h]
  rfl

/-- A table whose first entries are written in turn holds at each of them what was written there. -/
theorem tgetD_foldl_tset_range {α : Type} (f : Nat → α) (t : Tbl α) (d : α) {u n : Nat} (h : u < n) :
    tgetD ((List.range n).foldl (fun t k => tset t k (f k)) t) u d = f u := by
  induction n with
  | zero => exact absurd h (Nat.not_lt_zero u)
  | succ n ih =>
    rw [List.range_succ, List.foldl_append, List.foldl_cons, List.foldl_nil]
    rcases Nat.lt_succ_iff_lt_or_eq.mp h with earlier | rfl
    · rw [tgetD_tset_other _ _ _ (Nat.ne_of_lt earlier), ih earlier]
    · exact tgetD_tset_same _ _ _ _

/-! Slow-notices (10 R402): they leave the steps and limits of power alone. -/

theorem servePort_lvr (p n : Nat) (s : State) : (servePort p n s).lvr = s.lvr := by
  induction n generalizing s with
  | zero => rfl
  | succ n ih =>
    unfold servePort
    dsimp only
    split
    · rfl
    · split
      · rfl
      · exact ih _

theorem sendNotice_lvr (n : Notice) (dsts : List Nat) (s : State) : (sendNotice n dsts s).lvr = s.lvr :=
  forEach_untouched (π := State.lvr) (fun _ _ => sendFlit_untouched lvr_untouchedBySends _ _ _) dsts s

theorem sendOwn_lvr (s : State) : (sendOwn s).lvr = s.lvr :=
  (forEach_untouched (π := State.lvr) (fun _ _ => servePort_lvr _ _ _) _ _).trans
    (forEach_untouched (π := State.lvr) (fun _ _ => sendNotice_lvr _ _ _) _ s)

theorem noticeUpdate_lvr (s : State) : (noticeUpdate s).lvr = s.lvr := ite_untouched (π := State.lvr) rfl (sendOwn_lvr _)

/-! The steps that Louvre writes. -/

/-- The limits of power with some steps written (14 R509). -/
def Lvr.withSteps (l : Lvr) (steps : List (Nat × Nat)) : Lvr :=
  { l with step := steps.foldl (fun t e => tset t e.1 e.2) l.step, written := steps.foldl (fun t e => tset t e.1 e.2) l.written }

theorem writeStep_lvr (u st : Nat) (s : State) :
    (writeStep u st s).lvr = { s.lvr with step := tset s.lvr.step u st, written := tset s.lvr.written u st } := by
  unfold writeStep
  split <;> rfl

theorem forEach_writeStep_lvr (steps : List (Nat × Nat)) (s : State) :
    (forEach steps (fun e => writeStep e.1 e.2) s).lvr = s.lvr.withSteps steps := by
  induction steps generalizing s with
  | nil => rfl
  | cons e steps ih =>
    refine (ih (writeStep e.1 e.2 s)).trans ?_
    rw [writeStep_lvr]
    rfl

/-! What a control step records, and what it shows when it is done. -/

/-- The module once a control step has taken its measurements, limits and thermal steps (14 R509, R510, R512, R518). -/
def measured (draw fixed : Nat) (load : List Nat) (s : State) : State :=
  (s.onLvr (fun l => { l with
    share := match l.shareNext with | some w => some w | none => l.share, shareNext := none, thermLim := nextThermLim s,
    therm := (List.range 14).foldl (fun t u => tset t u (nextTherm s u)) l.therm,
    floor := l.floor && !l.below, below := l.below && !l.floor, draw := draw, fixed := fixed, load := load })).onTherm
    (fun t => { t with prev := t.temp.filter (fun e => t.hot.contains e.1) })

theorem measured_therm (draw fixed : Nat) (load : List Nat) (s : State) :
    (measured draw fixed load s).lvr.therm = (List.range 14).foldl (fun t u => tset t u (nextTherm s u)) s.lvr.therm := by
  simp only [measured, State.onTherm_fields, State.onLvr_fields]

theorem stepOf_measured (draw fixed : Nat) (load : List Nat) (s : State) (u : Nat) : stepOf (measured draw fixed load s) u = stepOf s u := by
  simp only [stepOf, measured, State.onTherm_fields, State.onLvr_fields]

theorem floorStep_measured (draw fixed : Nat) (load : List Nat) (s : State) : (measured draw fixed load s).lvr.floorStep = s.lvr.floorStep := by
  simp only [measured, State.onTherm_fields, State.onLvr_fields]

/-- The power that the units want and the limits in force, as they stand at the end of a control step (14 R516; 16 Table 16.26). -/
def Lvr.showing (l : Lvr) (want lim : Nat) : Lvr :=
  { l with want := want, shown := (lim, l.hostLim, (match l.share with | some w => w | none => 0), l.margin, l.floorStep) }

theorem Lvr.therm_showing_written (l : Lvr) (steps : List (Nat × Nat)) (want lim : Nat) : ((l.withSteps steps).showing want lim).therm = l.therm := rfl
theorem Lvr.floor_showing_written (l : Lvr) (steps : List (Nat × Nat)) (want lim : Nat) : ((l.withSteps steps).showing want lim).floor = l.floor := rfl
theorem Lvr.step_showing_written (l : Lvr) (steps : List (Nat × Nat)) (want lim : Nat) :
    ((l.withSteps steps).showing want lim).step = steps.foldl (fun t e => tset t e.1 e.2) l.step := rfl

/-- A control step outside a restart, a trip and reset gives each unit its new step by its load and its share. -/
theorem controlStep_eq (draw fixed : Nat) (load : List Nat) {s : State} (hp : procDown s 1 = false) (ht : s.therm.trip = false)
    (hr : s.dev.inReset = false) : ∃ (ld sh : Nat → Rat) (want lim : Nat), controlStep draw fixed load s =
      noticeUpdate ((forEach ((List.range 14).map (fun u => (u, nextStep (measured draw fixed load s) (ld u) (sh u) u)))
        (fun e => writeStep e.1 e.2) (measured draw fixed load s)).onLvr (fun l => l.showing want lim)) :=
  ⟨_, _, _, _, if_neg (by rw [hp, ht, hr]; decide)⟩

/-- The limits of power after a control step. -/
theorem controlStep_lvr (draw fixed : Nat) (load : List Nat) {s : State} (hp : procDown s 1 = false) (ht : s.therm.trip = false)
    (hr : s.dev.inReset = false) : ∃ (ld sh : Nat → Rat) (want lim : Nat), (controlStep draw fixed load s).lvr =
      ((measured draw fixed load s).lvr.withSteps
        ((List.range 14).map (fun u => (u, nextStep (measured draw fixed load s) (ld u) (sh u) u)))).showing want lim := by
  obtain ⟨ld, sh, want, lim, given⟩ := controlStep_eq draw fixed load hp ht hr
  refine ⟨ld, sh, want, lim, ?_⟩
  rw [given, noticeUpdate_lvr, ← forEach_writeStep_lvr]
  rfl

/-- A new step is no faster than the thermal step and the floor let it be, and at most two steps faster than the one before (14 R509, R510, R512). -/
theorem nextStep_bounds (s : State) (load share : Rat) (u : Nat) :
    tgetD s.lvr.therm u 0 ≤ nextStep s load share u ∧ stepOf s u ≤ nextStep s load share u + 2
    ∧ (s.lvr.floor = true → s.lvr.floorStep ≤ nextStep s load share u) := by
  unfold nextStep
  extract_lets p target cur
  have heat : tgetD s.lvr.therm u 0 ≤ target := (Nat.le_max_left _ _).trans (Nat.le_max_right _ _)
  have floor : s.lvr.floor = true → s.lvr.floorStep ≤ target := fun engaged => by
    have low : (if s.lvr.floor then s.lvr.floorStep else 0) ≤ target := (Nat.le_max_right _ _).trans (Nat.le_max_right p _)
    rwa [if_pos engaged] at low
  have reached : target ≤ (if cur < target then target else Nat.max target (cur - 2)) := by
    split
    · exact Nat.le_refl target
    · exact Nat.le_max_left target _
  refine ⟨heat.trans reached, ?_, fun engaged => (floor engaged).trans reached⟩
  split
  case isTrue slower => exact (Nat.le_of_lt slower).trans (Nat.le_add_right target 2)
  case isFalse => exact (Nat.le_add_of_sub_le (Nat.le_max_right target (cur - 2)))

/-- Settles O44: a control step writes each unit's next step over what it has recorded. -/
theorem controlStepLimits : Obligations.ControlStepLimits := by
  unfold Obligations.ControlStepLimits
  refine ⟨fun draw fixed load s hp ht hr => ⟨controlStep draw fixed load s, rfl, ?_⟩, fun draw fixed load s h => congrArg Host.Outcome.next (if_pos ?_)⟩
  · obtain ⟨ld, sh, want, lim, lvr⟩ := controlStep_lvr draw fixed load hp ht hr
    refine ⟨by rw [lvr]; rfl, by rw [lvr]; rfl, by rw [lvr]; rfl, fun u hu => ?_⟩
    have heat : tgetD (measured draw fixed load s).lvr.therm u 0 = nextTherm s u := by
      rw [measured_therm, tgetD_foldl_tset_range (nextTherm s) _ _ hu]
    have step : stepOf (controlStep draw fixed load s) u = nextStep (measured draw fixed load s) (ld u) (sh u) u := by
      rw [stepOf, lvr, Lvr.step_showing_written, List.foldl_map]
      exact tgetD_foldl_tset_range (fun k => nextStep (measured draw fixed load s) (ld k) (sh k) k) _ 0 hu
    obtain ⟨warm, down, floor⟩ := nextStep_bounds (measured draw fixed load s) (ld u) (sh u) u
    rw [step]
    rw [lvr, Lvr.therm_showing_written, Lvr.floor_showing_written, heat]
    rw [heat] at warm
    rw [stepOf_measured] at down
    rw [floorStep_measured] at floor
    exact ⟨rfl, warm, down, floor⟩
  · rw [Bool.or_eq_true, Bool.or_eq_true, or_assoc]
    exact h

end Sys2Proof.Machine
end

section
/-! SUPPORT. Readings of the sensors, the device interrupt that they may raise, and the thermal trip (14 R501-R503, R510, R513-R515; 16 R557, R567,
R568). -/

namespace Sys2Proof.Machine

open Sys2Proof.Claims

/-- What a loop's body keeps, the loop keeps. -/
theorem forEach_keeps {α : Type} {p : State → Prop} {f : α → State → State} (h : ∀ a s, p s → p (f a s)) (l : List α) {s : State} (hs : p s) :
    p (forEach l f s) := by
  induction l generalizing s with
  | nil => exact hs
  | cons a l ih => exact ih (h a s hs)

/-! The device interrupt (16 R557). -/

section
variable {bit f : Nat} {s t : State}

theorem devEvent1_of_set (h : (s.fnAt f).cause.getLsbD bit = true) : devEvent1 bit f s = s := if_pos h

theorem devEvent1_of_unset (h : (s.fnAt f).cause.getLsbD bit = false) :
    devEvent1 bit f s =
      (let s1 := s.modFn f (fun n => { n with cause := setBit n.cause bit true })
       let s2 := if (s.fnAt f).devEn then msix f (s.fnAt f).devVec s1 else s1
       if f = 0 then mgmtAlert s2 else s2) := if_neg (ne_true_of_eq_false h)

theorem devEvent1_therm (bit f : Nat) (s : State) : (devEvent1 bit f s).therm = s.therm :=
  ite_untouched (π := State.therm) rfl (ite_untouched (π := State.therm) (ite_untouched (π := State.therm) rfl rfl) (ite_untouched (π := State.therm) rfl rfl))

theorem devEvent_therm (bit : Nat) (s : State) : (devEvent bit s).therm = s.therm :=
  (devEvent1_therm bit 17 _).trans (devEvent1_therm bit 0 s)

/-- The registers of the functions after an event are those before it, with the cause set in its function. -/
theorem fn_devEvent1_of_unset (h : (s.fnAt f).cause.getLsbD bit = false) :
    (devEvent1 bit f s).fn = tset s.fn f { s.fnAt f with cause := setBit (s.fnAt f).cause bit true } := by
  rw [devEvent1_of_unset h]
  dsimp only
  split <;> split <;> rfl

theorem fnAt_devEvent1_other {g : Nat} (h : g ≠ f) : (devEvent1 bit f s).fnAt g = s.fnAt g := by
  cases set : (s.fnAt f).cause.getLsbD bit with
  | true => rw [devEvent1_of_set set]
  | false =>
    rw [State.fnAt_eq, fn_devEvent1_of_unset set, tgetD_tset_other _ _ _ h, State.fnAt_eq]

theorem cause_devEvent1 (h : bit < 4) : ((devEvent1 bit f s).fnAt f).cause.getLsbD bit = true := by
  cases set : (s.fnAt f).cause.getLsbD bit with
  | true => rw [devEvent1_of_set set, set]
  | false =>
    rw [State.fnAt_eq, fn_devEvent1_of_unset set, tgetD_tset_same]
    exact getLsbD_setBit_same _ true h

/-- An event sends its message where its cause was clear and DEV_EN is 1 (16 R557). -/
theorem msix_devEvent1 (h : (s.fnAt f).cause.getLsbD bit = false) (he : (s.fnAt f).devEn = true) :
    (devEvent1 bit f s).out.msix = (f, (s.fnAt f).devVec) :: s.out.msix := by
  rw [devEvent1_of_unset h]
  dsimp only
  rw [if_pos he]
  split <;> rfl

theorem mem_msix_devEvent1 {m : Nat × Nat} (h : m ∈ s.out.msix) : m ∈ (devEvent1 bit f s).out.msix := by
  cases set : (s.fnAt f).cause.getLsbD bit with
  | true => rwa [devEvent1_of_set set]
  | false =>
    cases en : (s.fnAt f).devEn with
    | true =>
      rw [msix_devEvent1 set en]
      exact List.mem_cons_of_mem _ h
    | false =>
      rw [devEvent1_of_unset set]
      dsimp only
      rw [if_neg (ne_true_of_eq_false en)]
      split <;> exact h

/-- From s to t the device interrupt has taken the cause `bit`: it is set in both physical functions, and the message has gone out where it was clear in s
and DEV_EN was 1 (16 R557). -/
def Raised (bit : Nat) (s t : State) : Prop :=
  ∀ f, f = 0 ∨ f = 17 → (t.fnAt f).cause.getLsbD bit = true
    ∧ ((s.fnAt f).cause.getLsbD bit = false → (s.fnAt f).devEn = true → (f, (s.fnAt f).devVec) ∈ t.out.msix)

theorem raised_devEvent (s : State) (h : bit < 4) : Raised bit s (devEvent bit s) := by
  intro f hf
  rcases hf with rfl | rfl
  · refine ⟨?_, fun set en => mem_msix_devEvent1 (by rw [msix_devEvent1 set en]; exact List.mem_cons_self)⟩
    rw [devEvent, fnAt_devEvent1_other (by decide), cause_devEvent1 h]
  · refine ⟨cause_devEvent1 h, fun set en => ?_⟩
    rw [← fnAt_devEvent1_other (bit := bit) (f := 0) (s := s) (g := 17) (by decide)] at set en ⊢
    rw [devEvent, msix_devEvent1 set en]
    exact List.mem_cons_self

/-- A cause that is set already takes no further event. -/
theorem devEvent_of_raised (h : Raised bit s t) : devEvent bit t = t := by
  rw [devEvent, devEvent1_of_set (h 0 (.inl rfl)).1, devEvent1_of_set (h 17 (.inr rfl)).1]

end

/-! One reading (14 R501). -/

/-- The readings with x taken at site i, which is hot after it or is not. -/
def Therm.read (i : Nat) (x : Int) (now : Bool) (t : Therm) : Therm :=
  { t with temp := tset t.temp i x, hot := if now then (if t.hot.contains i then t.hot else t.hot ++ [i]) else t.hot.filter (fun y => y ≠ i) }

theorem mem_hot_read (i j : Nat) (x : Int) (now : Bool) (t : Therm) :
    j ∈ (t.read i x now).hot ↔ (if j = i then now = true else j ∈ t.hot) := by
  cases now with
  | false => by_cases hj : j = i <;> simp [Therm.read, hj]
  | true => by_cases hi : i ∈ t.hot <;> by_cases hj : j = i <;> simp_all [Therm.read]

section
variable {i : Nat} {h rel trip x : Int} {s : State}

theorem sampleSite_therm (hl : siteLimits s i = some (h, rel, trip)) (ho : inputOpen s i = false) :
    (sampleSite (i, x) s).therm = s.therm.read i x (decide (4 * h ≤ x) || (s.therm.hot.contains i && decide (4 * rel < x))) := by
  simp only [sampleSite, hl, ho, Bool.false_eq_true, if_false]
  exact ite_untouched (π := State.therm) (s := s.onTherm _) (devEvent_therm 1 _) rfl

theorem sampleSite_of_no_site (hl : siteLimits s i = none) : sampleSite (i, x) s = s := by
  simp only [sampleSite, hl]

theorem exec_sensorSample_of_running {rs : List (Nat × Int)} {faulty : BitVec 4} (hr : s.dev.inReset = false) :
    exec (.sensorSample rs faulty) s = .next (forEach (List.range 12) refreshRate (forEach (List.range 4) faultInput
      (forEach rs sampleSite (s.onTherm (fun t => { t with openIn := faulty }))))) :=
  congrArg Host.Outcome.next (if_neg (ne_true_of_eq_false hr))

theorem faultInput_of_new (ho : s.therm.openIn.getLsbD i = true) (hl : (siteLimits s (0x400 + i)).isSome = true)
    (hf : s.therm.fault.getLsbD i = false) :
    faultInput i s = devEvent 3 (s.onTherm (fun t => { t with fault := setBit t.fault i true })) :=
  if_neg (by rw [ho, hf, Option.isNone_eq_false_iff.mpr hl]; decide)

end

theorem sensorReadings : Claims.SensorReadings := by
  unfold Claims.SensorReadings
  refine ⟨fun rs faulty s => exec_sensorSample_of_running, ?reading, fun i x s => sampleSite_of_no_site,
    fun i s _ => faultInput_of_new⟩
  case reading =>
    intro i h rel trip x s hl ho
    rw [sampleSite_therm hl ho]
    refine ⟨tget_tset_same _ _ _, ?_, fun j hj => ?_⟩
    · rw [mem_hot_read, if_pos rfl]
      simp
    · rw [mem_hot_read, if_neg hj]

/-! The trip (14 R513, R514). -/

theorem thermalTrip_of_tripped {site : Nat} {s : State} (h : s.therm.trip = true) : thermalTrip site s = s := by
  unfold thermalTrip
  split
  · rfl
  · exact if_pos (by rw [h]; rfl)

theorem thermalTripStopsTheModule : Claims.ThermalTripStopsTheModule := by
  unfold Claims.ThermalTripStopsTheModule
  refine ⟨?trips, fun site s h => congrArg Host.Outcome.next (thermalTrip_of_tripped h), ?noSite⟩
  case trips =>
    intro site h rel trip s hl ht hr ho c r m stopped ended asleep
    refine congrArg Host.Outcome.next ?_
    simp only [thermalTrip, hl, ht, hr, ho, Bool.or_self, Bool.false_eq_true, if_false]
    rfl
  case noSite =>
    intro site s hl
    refine congrArg Host.Outcome.next ?_
    simp only [thermalTrip, hl]

/-- Settles O43: a reading by what it makes of its site, a trip by its guards. -/
theorem sensorsAndTrip : Obligations.SensorsAndTrip := ⟨sensorReadings, thermalTripStopsTheModule⟩

end Sys2Proof.Machine
end

section
/-! SUPPORT. Writes that clear TRIP and FAULT (14 R515; 15 R537; 16 R568): a THERM_IN input that is still faulted at the next sample sets its bit and the
cause of the device interrupt again. -/

namespace Sys2Proof.Machine

open Sys2Proof.Claims

/-! Clears. -/

section
variable {v : View} {a : Acc} {x : Nat} {s : State}

theorem tripClear_of_released (ha : actVal a = some x) (hv : pfOrMp s v = true) (hx : x.testBit 0 = true) (ht : s.therm.trip = true)
    (hr : allReleased s = true) : tripClear v a s = (if (endTrip s).dev.rst then deviceReset (endTrip s) else pumpAll (endTrip s)) := by
  simp only [tripClear, ha, hv, hx, ht, hr, Bool.not_true, Bool.or_self, Bool.false_eq_true, if_false]

theorem tripClear_of_heat (ha : actVal a = some x) (hr : allReleased s = false) : tripClear v a s = s := by
  simp only [tripClear, ha, hr, Bool.not_false, Bool.or_true, if_true]

theorem exec_thermFaultClear_of_open (ha : actVal a = some x) (hv : pfOrMp s v = true) :
    exec (.thermFaultClear v a) s = .next (s.onTherm (fun t => { t with fault := t.fault &&& ~~~ BitVec.ofNat 4 (x / 256 % 16) })) := by
  have field : fldN x 11 8 = x / 256 % 16 := by
    rw [fldN, Nat.shiftRight_eq_div_pow]
    rfl
  refine congrArg Host.Outcome.next ?_
  simp only [ha, hv, field, if_true]

theorem exec_diodeCalibration_of_next {site : Nat} (hs : siteIndex site = some (s.therm.calib / 2)) (hd : procDown s 1 = false) :
    exec (.diodeCalibration site) s = .next (s.onTherm (fun t => { t with calib := (t.calib + 1) % 496 })) :=
  congrArg Host.Outcome.next (if_pos (by rw [hs, hd, decide_eq_true rfl]; rfl))

end

/-- Units that all start at one step stand at that step. -/
theorem tgetD_map_range {α : Type} (f : Nat → α) (d : α) {u n : Nat} (h : u < n) : tgetD ((List.range n).map (fun k => (k, f k))) u d = f u := by
  have entries : ∀ l : List Nat, u ∈ l → tget (l.map (fun k => (k, f k))) u = some (f u) := by
    intro l hl
    induction l with
    | nil => exact absurd hl List.not_mem_nil
    | cons k l ih =>
      by_cases hk : k = u
      · simp [tget, hk]
      · simpa [tget, hk] using ih ((List.mem_cons.mp hl).resolve_left (Ne.symm hk))
  rw [tgetD, entries _ (List.mem_range.mpr h)]
  rfl

/-! An input that is still faulted (14 R502; 16 R568). -/

/-- What a sample without readings has done so far, from s on: the inputs are as they were, a FAULT bit set is still set, and either no FAULT bit has been
set or the device interrupt has taken its cause. -/
structure Faulting (s t : State) : Prop where
  openIn : t.therm.openIn = s.therm.openIn
  inp    : t.therm.inp = s.therm.inp
  signal : t.therm.fault = s.therm.fault ∧ t.fn = s.fn ∨ Raised 3 s t

theorem siteLimits_congr {s t : State} (h : t.therm.inp = s.therm.inp) (i : Nat) : siteLimits t i = siteLimits s i := by
  rw [siteLimits, siteLimits, h]

section
variable {i : Nat} {s t : State}

theorem faultInput_eq_self_or_devEvent (i : Nat) (t : State) :
    faultInput i t = t ∨ faultInput i t = devEvent 3 (t.onTherm (fun x => { x with fault := setBit x.fault i true })) := by
  unfold faultInput
  split
  · exact .inl rfl
  · exact .inr rfl

theorem Faulting.devEvent (h : Faulting s t) (g : BitVec 4 → BitVec 4) :
    Faulting s (devEvent 3 (t.onTherm (fun x => { x with fault := g x.fault }))) := by
  refine ⟨?_, ?_, .inr ?_⟩
  · rw [devEvent_therm]
    exact h.openIn
  · rw [devEvent_therm]
    exact h.inp
  · rcases h.signal with ⟨-, fn⟩ | raised
    · have event := raised_devEvent (bit := 3) (t.onTherm (fun x => { x with fault := g x.fault })) (by decide)
      intro f hf
      have same : (t.onTherm (fun x => { x with fault := g x.fault })).fnAt f = s.fnAt f := congrArg (tgetD · f Func.init) fn
      rw [← same]
      exact event f hf
    · have there : Raised 3 s (t.onTherm (fun x => { x with fault := g x.fault })) := raised
      rw [devEvent_of_raised there]
      exact there

theorem faultInput_faulting (i : Nat) (h : Faulting s t) : Faulting s (faultInput i t) := by
  rcases faultInput_eq_self_or_devEvent i t with same | event
  · rwa [same]
  · rw [event]
    exact h.devEvent (setBit · i true)

/-- A FAULT bit that is set stays set while the inputs are looked at. -/
theorem fault_faultInput_of_set {k : Nat} (hk : k < 4) (h : t.therm.fault.getLsbD k = true) : (faultInput i t).therm.fault.getLsbD k = true := by
  rcases faultInput_eq_self_or_devEvent i t with same | event
  · rwa [same]
  · rw [event, devEvent_therm]
    by_cases hi : k = i
    · exact hi ▸ getLsbD_setBit_same t.therm.fault true hk
    · exact (getLsbD_setBit_other t.therm.fault true hi).trans h

/-- The bit of the input looked at is set where it is faulted. -/
theorem fault_faultInput_same (hi : i < 4) (ho : t.therm.openIn.getLsbD i = true) (hl : (siteLimits t (0x400 + i)).isSome = true) :
    (faultInput i t).therm.fault.getLsbD i = true := by
  cases hf : t.therm.fault.getLsbD i with
  | true => exact fault_faultInput_of_set hi hf
  | false =>
    rw [faultInput_of_new ho hl hf, devEvent_therm]
    exact getLsbD_setBit_same _ true hi

/-- When all inputs have been looked at, the bit of one that is faulted is set. -/
theorem fault_forEach_faultInput {l : List Nat} (hm : i ∈ l) (hi : i < 4) (h : Faulting s t) (ho : s.therm.openIn.getLsbD i = true)
    (hl : (siteLimits s (0x400 + i)).isSome = true) : (forEach l faultInput t).therm.fault.getLsbD i = true := by
  induction l generalizing t with
  | nil => exact absurd hm List.not_mem_nil
  | cons k l ih =>
    by_cases hk : i = k
    · refine forEach_keeps (p := fun t => t.therm.fault.getLsbD i = true) (fun _ _ => fault_faultInput_of_set hi) l ?_
      subst hk
      exact fault_faultInput_same hi (by rw [h.openIn, ho]) (by rw [siteLimits_congr h.inp, hl])
    · exact ih ((List.mem_cons.mp hm).resolve_left hk) (faultInput_faulting k h)

end

/-- The refresh intervals are no part of the inputs' state (05 R213). -/
theorem refreshRate_keeps (st : Nat) (s : State) :
    (refreshRate st s).therm.fault = s.therm.fault ∧ (refreshRate st s).fn = s.fn ∧ (refreshRate st s).out = s.out := by
  rcases refreshRate_eq_self_or_setBit st s with same | ⟨b, changed⟩
  · rw [same]
    exact ⟨rfl, rfl, rfl⟩
  · rw [changed]
    exact ⟨rfl, rfl, rfl⟩

/-- The part of the state that an input's fault shows in: FAULT, the functions' registers and the messages sent. -/
def faultSigns (s : State) : BitVec 4 × Tbl Func × Out := (s.therm.fault, s.fn, s.out)

theorem faultSigns_refreshRates (l : List Nat) (s : State) : faultSigns (forEach l refreshRate s) = faultSigns s := by
  refine forEach_untouched (π := faultSigns) (fun st t => ?_) l s
  obtain ⟨fault, fn, out⟩ := refreshRate_keeps st t
  rw [faultSigns, fault, fn, out]
  rfl

/-- Settles O42: a clear by its guards, and a sample of a faulted input by what each input looked at leaves. -/
theorem tripAndFaultClears : Obligations.TripAndFaultClears := by
  unfold Obligations.TripAndFaultClears
  refine ⟨?trip, fun v a x s => exec_thermFaultClear_of_open, ?again, fun site s => exec_diodeCalibration_of_next⟩
  case trip =>
    intro v a x s ha hv hx ht
    refine ⟨fun hr steps n t hsteps hn hnt => ?_, fun hr => congrArg Host.Outcome.next (tripClear_of_heat ha hr)⟩
    have ended : endTrip s = t := by
      rw [hnt, hn, hsteps]
      rfl
    have cleared := tripClear_of_released ha hv hx ht hr
    rw [ended] at cleared
    refine ⟨congrArg Host.Outcome.next cleared, fun u hu => ?_⟩
    rw [stepOf, hn, hsteps]
    exact tgetD_map_range (fun _ => s.lvr.floorStep) 0 hu
  case again =>
    intro i faulty s hi hr hopen hl hf
    let begun : State := s.onTherm (fun t => { t with openIn := faulty })
    let looked : State := forEach (List.range 4) faultInput begun
    have start : Faulting begun begun := ⟨rfl, rfl, .inl ⟨rfl, rfl⟩⟩
    have set : looked.therm.fault.getLsbD i = true := fault_forEach_faultInput (List.mem_range.mpr hi) hi start hopen hl
    have done : Faulting begun looked := forEach_keeps (p := Faulting begun) (fun k t => faultInput_faulting k) (List.range 4) start
    have raised : Raised 3 begun looked := done.signal.resolve_left fun ⟨fault, _⟩ => by
      rw [fault] at set
      exact Bool.false_ne_true (hf.symm.trans set)
    have signs := faultSigns_refreshRates (List.range 12) looked
    simp only [faultSigns, Prod.mk.injEq] at signs
    obtain ⟨fault, fn, out⟩ := signs
    refine ⟨forEach (List.range 12) refreshRate looked, exec_sensorSample_of_running hr, by rw [fault]; exact set, ?_⟩
    have raisedIn : Raised 3 s (forEach (List.range 12) refreshRate looked) := by
      intro f hf
      rw [State.fnAt, fn, out]
      exact raised f hf
    exact ⟨(raisedIn 0 (.inl rfl)).1, (raisedIn 17 (.inr rfl)).1, fun f hf => (raisedIn f hf).2⟩

end Sys2Proof.Machine
end

section
/-! SUPPORT. The command at the front of the queue, the registers that discard writes (03 Table 3.1), and the state after reset (00 R5-R8; 11 R410; 15 R545;
16 reset columns). -/

namespace Sys2Proof.Machine

/-- Settles O1: `step` on a queue that is not empty. -/
theorem stepRunsFrontCommand : Obligations.StepRunsFrontCommand := by
  unfold Obligations.StepRunsFrontCommand
  refine ⟨fun c rest s h => ?_, fun c s => rfl⟩
  rw [step, h]

/-! Registers of a core (03 Table 3.1). -/

section
variable (c : Core) {i j : Nat}

theorem Core.xr_setX_same (v : Word) (h : 0 < i) : (c.setX i v).xr i = v := by
  rw [Core.xr, Core.setX, if_neg (Nat.ne_of_gt h), if_neg (Nat.ne_of_gt h), tgetD_tset_same]

theorem Core.xr_setX_other (v : Word) (h : j ≠ i) : (c.setX i v).xr j = c.xr j := by
  unfold Core.xr Core.setX
  by_cases hi : i = 0
  · rw [if_pos hi]
  · rw [if_neg hi, tgetD_tset_other _ _ _ h]

theorem Core.pr_setP_same (b : Bool) (h : 0 < i) (h8 : i < 8) : (c.setP i b).pr i = b := by
  rw [Core.pr, Core.setP, if_neg (Nat.ne_of_gt h), decide_eq_false (Nat.ne_of_gt h), Bool.false_or, getLsbD_setBit_same _ _ h8]

theorem Core.pr_setP_other (b : Bool) (h : j ≠ i) : (c.setP i b).pr j = c.pr j := by
  unfold Core.pr Core.setP
  by_cases hi : i = 0
  · rw [if_pos hi]
  · rw [if_neg hi, getLsbD_setBit_other _ _ h]

end

/-- Settles O7: register 0 by the guard of its read and write, the others by what their table or map holds. -/
theorem registerZeroAndPredicateZero : Obligations.RegisterZeroAndPredicateZero := by
  unfold Obligations.RegisterZeroAndPredicateZero
  exact ⟨fun c v => ⟨rfl, rfl⟩, fun c i v hi => ⟨c.xr_setX_same v hi, fun j hj => c.xr_setX_other v hj⟩, fun c b => ⟨rfl, rfl⟩,
    fun c i b hi h8 => ⟨c.pr_setP_same b hi h8, fun j hj => c.pr_setP_other b hj⟩⟩

/-! The state after reset. -/

/-- Settles O5: every memory is empty, and so is the queue of commands. -/
theorem resetMemoriesCanonical : Obligations.ResetMemoriesCanonical := ⟨⟨rfl, rfl, rfl, rfl, rfl, rfl, rfl⟩, rfl⟩

/-- Two numbers taken out of a range leave all but two. -/
theorem length_filter_range_two {a b n : Nat} (ha : a < n) (hb : b < n) (hab : a ≠ b) :
    ((List.range n).filter (fun i => !(i = a || i = b))).length = n - 2 := by
  have removed : (List.range n).filter (fun i => !(i = a || i = b)) = ((List.range n).erase a).erase b := by
    rw [List.nodup_range.erase_eq_filter, (List.nodup_range.filter _).erase_eq_filter, List.filter_filter]
    exact List.filter_congr fun i _ => by rw [Bool.not_or, Bool.and_comm]; rfl
  rw [removed, List.length_erase_of_mem ((List.mem_erase_of_ne hab.symm).mpr (List.mem_range.mpr hb)), List.length_erase_of_mem (List.mem_range.mpr ha),
    List.length_range]
  omega

/-- A pair names two clusters of its quadrant (00 R6). -/
theorem gonePair_spec (p : Fin 16 × Fin 15) : (gonePair p).1 < 16 ∧ (gonePair p).2 < 16 ∧ (gonePair p).1 ≠ (gonePair p).2 := by
  obtain ⟨⟨a, ha⟩, ⟨b, hb⟩⟩ := p
  simp only [gonePair]
  split <;> omega

/-- A cluster of a GX880-S is enabled unless it is one of the two that its quadrant has lost (00 R6). -/
theorem getLsbD_clusterEn_s (gone : Vector (Fin 16 × Fin 15) 8) {q i : Nat} (hq : q < 8) (hi : i < 16) :
    (Grade.s gone).clusterEn.getLsbD (16 * q + i) = !(i = (gonePair gone[q]).1 || i = (gonePair gone[q]).2) := by
  have place : 16 * q + i < 128 := by omega
  have quadrant : (16 * q + i) / 16 = q := by omega
  have offset : (16 * q + i) % 16 = i := by omega
  rw [Grade.clusterEn, BitVec.getLsbD_setWidth, BitVec.getLsbD_ofBoolListLE]
  simp [place, quadrant, offset, hq]

theorem length_enabled_quadrant (gone : Vector (Fin 16 × Fin 15) 8) {q : Nat} (hq : q < 8) :
    ((List.range 16).filter (fun i => (Grade.s gone).clusterEn.getLsbD (16 * q + i))).length = 14 := by
  obtain ⟨first, second, differ⟩ := gonePair_spec gone[q]
  rw [List.filter_congr fun i hi => getLsbD_clusterEn_s gone hq (List.mem_range.mp hi)]
  exact length_filter_range_two first second differ

/-- What the fuses enable is what their grade says: all of a GX880-T, and of a GX880-S all but two clusters of each quadrant and two channels (00 R5-R8). -/
theorem Fuse.enables (f : Fuse) :
    (f.grade = 1 → f.clusterEn = BitVec.allOnes 128 ∧ f.pivotEn = BitVec.allOnes 32)
    ∧ (f.grade = 2 → f.pivotEn = 0x7FFF7FFF ∧ ∀ q, q < 8 → ((List.range 16).filter (fun i => f.clusterEn.getLsbD (16 * q + i))).length = 14)
    ∧ (f.grade = 1 ∨ f.grade = 2) := by
  obtain ⟨_ | gone, _⟩ := f
  · exact ⟨fun _ => ⟨rfl, rfl⟩, fun two => absurd two (by decide : (1 : BitVec 8) ≠ 2), .inl rfl⟩
  · exact ⟨fun one => absurd one (by decide : (2 : BitVec 8) ≠ 1), fun _ => ⟨rfl, fun q => length_enabled_quadrant gone⟩, .inr rfl⟩

/-- Settles O6: each value as `State.reset` gives it, and those of a grade from the fuses. -/
theorem resetHoldsStatedValues : Obligations.ResetHoldsStatedValues :=
  ⟨rfl, rfl, rfl, rfl, rfl, rfl, rfl, rfl, fun _ => rfl, fun _ => ⟨rfl, rfl⟩, rfl, rfl, rfl, rfl, rfl, rfl, fun _ => rfl, rfl, rfl, rfl, rfl, rfl, rfl, rfl, rfl,
    fun f => ⟨rfl, rfl, rfl, f.enables⟩⟩

end Sys2Proof.Machine
end

section
/-! SUPPORT. The classes of reset (15 R529-R539; 16 R558; 17 R572, R576, R586, R587): what a device-wide reset leaves, and each request by its guards. -/

namespace Sys2Proof.Machine

open Sys2Proof.Claims

/-! Device-wide resets (15 Table 15.5). -/

theorem zeroBanks_pin (bs : BitVec 64) (s : State) : (zeroBanks bs s).pin = s.pin := by
  unfold zeroBanks
  refine forEach_untouched (π := State.pin) ?_ _ s
  exact fun _ _ => rfl

/-- Dropping a self-test moves no pin (15 R542). -/
theorem dropTest_pin (k : Nat) (s : State) : (dropTest k s).pin = s.pin := by
  unfold dropTest
  split
  · rfl
  · extract_lets cleared banks windows
    have zeroed : banks.pin = s.pin := ite_untouched (π := State.pin) (s := cleared) (zeroBanks_pin _ _) rfl
    have undefined : windows.pin = banks.pin := ite_untouched (π := State.pin) rfl rfl
    clear_value windows
    split <;> exact undefined.trans zeroed

theorem havocWindows_keeps (s : State) :
    (havocWindows s).pin = s.pin ∧ (havocWindows s).therm = s.therm ∧ (havocWindows s).dev = s.dev := by
  obtain ⟨w, k, f, freed⟩ := havocWindows_eq s
  rw [freed]
  exact ⟨rfl, rfl, rfl⟩

/-- A device-wide reset ends a trip and asks for no other reset; the pins are not its own. -/
theorem clearAll_signals (s : State) : (clearAll s).pin = s.pin ∧ (clearAll s).therm.trip = false ∧ (clearAll s).dev.rst = false := by
  have pins : (forEach (List.range 16) dropTest s).pin = s.pin := forEach_untouched (π := State.pin) dropTest_pin _ s
  unfold clearAll
  generalize forEach (List.range 16) dropTest s = dropped at *
  dsimp only
  rw [(havocWindows_keeps _).1, (havocWindows_keeps _).2.1, (havocWindows_keeps _).2.2]
  exact ⟨pins, rfl, rfl⟩

section
variable {s : State}

/-- What a cold reset leaves of a device that runs no self-test (17 R587; 15 Table 15.5). -/
structure ColdCleared (s t : State) : Prop where
  inReset  : t.dev.inReset = true
  service  : t.dev.service = .boot
  bootLock : t.dev.bootLock = false
  queue    : t.queue = []
  ctx      : t.ctx = []
  core     : t.core = []
  latch    : t.latch = []
  stackMem : t.stackMem = []
  fuse     : t.fuse = s.fuse
  fwMem    : t.fw.mem = s.fw.mem
  hostMem  : t.hostMem = s.hostMem
  pin      : t.pin = { s.pin with tripN := true }
  cas      : t.cas = []

theorem coldAssert_cleared (hr : s.dev.inReset = false) (hn : ∀ k, k < 16 → (s.casAt k).selftest = none) : ColdCleared s (coldAssert s) := by
  obtain ⟨queue, ctx, core, latch, stackMem, fuse, fwMem, hostMem, pin, service, bootLock, -⟩ := clearAll_keeps s hn
  rw [coldAssert_eq s hr]
  generalize clearAll s = z at *
  exact ⟨rfl, service, bootLock, queue, ctx, core, latch, stackMem, fuse, fwMem, hostMem, congrArg (fun p : Pins => { p with tripN := true }) pin, rfl⟩

theorem coldAssert_of_reset (hr : s.dev.inReset = true) : coldAssert s = s := if_pos hr

/-- What a device reset leaves of a device that runs no self-test and for which no level waits (15 R529; 15 Table 15.5). -/
structure DeviceCleared (s t : State) : Prop where
  rst      : t.dev.rst = true
  service  : t.dev.service = .boot
  queue    : t.queue = []
  ctx      : t.ctx = []
  core     : t.core = []
  stackMem : t.stackMem = []
  boardId  : t.dev.boardId = s.dev.boardId
  rack     : t.dev.rack = s.dev.rack
  slot     : t.dev.slot = s.dev.slot
  hostMem  : t.hostMem = s.hostMem
  ctr      : t.dev.ctr = s.dev.ctr

theorem deviceReset_cleared (hc : s.dev.compatPend = false) (hn : ∀ k, k < 16 → (s.casAt k).selftest = none) : DeviceCleared s (deviceReset s) := by
  obtain ⟨queue, ctx, core, -, stackMem, -, -, hostMem, -, service, -, ctr, -, -, level⟩ := clearAll_keeps s hn
  unfold deviceReset
  generalize clearAll s = z at *
  dsimp only
  split
  case isTrue waits => exact absurd (level.trans hc) (ne_false_of_eq_true waits)
  case isFalse => constructor <;> simp [service, queue, ctx, core, stackMem, hostMem, ctr]

/-! A reset that waits for the end of a trip (15 R537). -/

variable {v : View} {a : Acc} {x f : Nat}

theorem devReset_of_trip (ha : actVal a = some x) (hx : x.testBit 0 = true) (hv : pfOrMp s v = true) (hb : absorbed s = false)
    (ht : s.therm.trip = true) : devReset v a s = s.onDev (fun d => { d with rst := true }) := by
  simp only [devReset, ha, hx, hv, hb, ht, Bool.not_true, Bool.or_self, Bool.false_eq_true, if_false, if_true]

theorem devReset_of_no_trip (ha : actVal a = some x) (hx : x.testBit 0 = true) (hv : pfOrMp s v = true) (hb : absorbed s = false)
    (ht : s.therm.trip = false) : devReset v a s = deviceReset s := by
  simp only [devReset, ha, hx, hv, hb, ht, Bool.not_true, Bool.or_self, Bool.false_eq_true, if_false]

end

/-- Settles O57: a request by its guards, the clear by what `endTrip` leaves of DEV_RST, and a cold reset by what every device-wide reset takes. -/
theorem deviceResetWaitsForTheTrip : Obligations.DeviceResetWaitsForTheTrip := by
  unfold Obligations.DeviceResetWaitsForTheTrip
  refine ⟨?waits, ?clear, ?cold⟩
  case waits =>
    exact fun v a x s ha hx hv hb ht => ⟨congrArg Host.Outcome.next (devReset_of_trip ha hx hv hb ht), rfl⟩
  case clear =>
    intro v a x s ha hx hv hd ht
    refine ⟨fun hr => congrArg Host.Outcome.next ?_, fun hr => congrArg Host.Outcome.next (tripClear_of_heat ha hr)⟩
    rw [tripClear_of_released ha hv hx ht hr, endTrip_dev, if_pos hd]
  case cold =>
    intro s hr _
    obtain ⟨pin, trip, rst⟩ := clearAll_signals (s.onPin (fun p => { p with coldRstN := false }))
    refine ⟨coldAssert (s.onPin (fun p => { p with coldRstN := false })), rfl, ?_⟩
    rw [coldAssert_eq (s.onPin (fun p => { p with coldRstN := false })) hr]
    generalize clearAll (s.onPin (fun p => { p with coldRstN := false })) = z at *
    exact ⟨rfl, trip, rst, congrArg Pins.coldRstN pin⟩

/-! Function and casement resets. -/

section
variable {s : State} {v : View} {a : Acc} {i f k x : Nat}

theorem functionReset_of_alone (hf : f < 34) (hb : absorbed s = false) (hr : resetting s f = false) :
    functionReset f s =
      (let fs := if isPF f then portFns (fnPort f) else [f]
       let u := forEach (tkeys (tfilter (fun _ x => fs.contains x.fn) s.ctx)) resetCtx s
       let t := forEach fs resetFn (forEach ((List.range 16).filter (fun k => match (u.casAt k).selftest with | some t => fs.contains t.1 | none => false)) dropTest u)
       pumpAll (havocWindows (beginReset (.function f) (if isPF f then dropHostMaps (fnPort f) t else t)))) :=
  if_neg (by rw [hb, hr, decide_eq_false (Nat.not_le.mpr hf)]; decide)

/-- A function reset that overlaps another in progress is part of it (15 R535). -/
theorem functionReset_of_part (h : absorbed s = true ∨ resetting s f = true) : functionReset f s = s :=
  if_pos (by rw [Bool.or_assoc, Bool.or_eq_true]; exact .inr ((Bool.or_eq_true _ _).mpr h))

theorem caseReset_of_open (ha : actVal a = some x) (hv : pfOrMp s v = true) (hb : absorbed s = false) :
    caseReset v a s = pumpAll (forEach ((List.range 16).filter (fun k => x.testBit k && mayReset s v k)) casementReset s) := by
  simp only [caseReset, ha, hv, hb, Bool.not_true, Bool.or_self, Bool.false_eq_true, if_false]

theorem resetDone_of_casement (h : tget s.dev.resets i = some (.casement k)) :
    resetDone i s = s.onDev (fun d => { d with caseRst := setBit d.caseRst k false, resets := tdel d.resets i }) := by
  simp only [resetDone, h]
  rfl

/-- A function reset waits for no casement where none is in reset (15 R529, R535). -/
theorem resetDone_of_function (h : tget s.dev.resets i = some (.function f)) (hc : s.dev.caseRst = 0) :
    resetDone i s = s.onDev (fun d => { d with resets := tdel d.resets i }) := by
  simp only [resetDone, h, hc]
  refine if_neg ?_
  simp

end

/-- Settles O58: a device-wide reset by what it clears, the others by their guards. -/
theorem resetClasses : Obligations.ResetClasses := by
  unfold Obligations.ResetClasses
  refine ⟨?cold, ?release, ?again, ?device, fun f s hf hb hr => congrArg Host.Outcome.next (functionReset_of_alone hf hb hr),
    fun f s h => congrArg Host.Outcome.next (functionReset_of_part h), ?port, fun v a x s ha hv hb => congrArg Host.Outcome.next (caseReset_of_open ha hv hb),
    fun i k s h => congrArg Host.Outcome.next (resetDone_of_casement h), fun i f s h hc => congrArg Host.Outcome.next (resetDone_of_function h hc)⟩
  case cold =>
    intro s hr hn
    let pinned (g : Pins → Pins) : State := s.onPin g
    have pressed : ColdCleared (pinned fun p => { p with coldRstN := false }) (coldAssert _) := coldAssert_cleared hr hn
    have unpowered : ColdCleared (pinned fun p => { p with pwrGood := false }) (coldAssert _) := coldAssert_cleared hr hn
    exact ⟨_, _, rfl, rfl, pressed.inReset, pressed.service, pressed.bootLock, pressed.queue, pressed.ctx, pressed.core, pressed.latch, pressed.stackMem,
      pressed.fuse, pressed.fwMem, pressed.hostMem, congrArg Pins.coldRstN pressed.pin, pressed.cas, congrArg Pins.pwrGood unpowered.pin,
      unpowered.inReset, unpowered.queue, unpowered.fuse, unpowered.hostMem⟩
  case release =>
    intro s hr
    refine ⟨coldRelease s, rfl, ?_⟩
    rw [coldRelease_eq s hr, State.ctr, State.ctr, (applyConfig_keeps _).1, (applyConfig_keeps _).2]
    exact ⟨rfl, rfl, rfl, rfl, rfl, rfl, rfl, rfl⟩
  case again =>
    exact fun s => ⟨fun hr => ⟨congrArg Host.Outcome.next (coldAssert_of_reset hr), congrArg Host.Outcome.next (coldAssert_of_reset hr)⟩,
      fun hr => congrArg Host.Outcome.next (if_pos (by rw [hr]; rfl))⟩
  case device =>
    intro v a x s ha hx hv hb ht hc hn
    obtain ⟨rst, service, queue, ctx, core, stackMem, boardId, rack, slot, hostMem, ctr⟩ := deviceReset_cleared hc hn
    exact ⟨deviceReset s, congrArg Host.Outcome.next (devReset_of_no_trip ha hx hv hb ht), rst, service, queue, ctx, core, stackMem, boardId, rack, slot,
      hostMem, ctr⟩
  case port =>
    exact fun port s hp => ⟨rfl, congrArg Host.Outcome.next (if_pos hp), congrArg Host.Outcome.next (if_pos hp), congrArg Host.Outcome.next (if_pos hp)⟩

end Sys2Proof.Machine
end

section
/-! SUPPORT. Registers by offset, admin queues and the LATCH_ window (16 R550-R553, R559-R561, R564-R566), the management port and the test port
(17 R582-R585): each access by its guards. -/

namespace Sys2Proof.Machine

open Sys2Proof.Claims

/-! The management port (17 R582-R584). -/

section
variable {off : Nat} {v : Word} {write ok : Bool} {s : State}

theorem mgmtStart_of_pending (h : s.mgmt.code = 1) : mgmtStart off v write ok s = s := if_pos h

theorem mgmtStart_of_good_pec (h : s.mgmt.code ≠ 1) :
    mgmtStart off v write true s = s.onMgmt (fun _ => { code := mgmtCode s off write, off := off, value := if write then v else 0, write := write }) :=
  (if_neg h).trans (if_neg (by decide))

theorem mgmtStart_of_bad_pec (h : s.mgmt.code ≠ 1) : mgmtStart off v write false s = s.onMgmt (fun m => { m with code := 4 }) :=
  (if_neg h).trans (if_pos rfl)

theorem mgmtDone_of_read {x : Nat} (h : s.mgmt.code = 1) (hw : s.mgmt.write = false) (hx : mgmtRead s s.mgmt.off = some x) :
    mgmtDone s = s.onMgmt (fun m => { m with code := 0, value := BitVec.ofNat 64 x }) := by
  simp only [mgmtDone, h, hw, hx, ne_eq, not_true_eq_false, Bool.false_eq_true, if_false, Option.getD_some]

theorem mgmtDone_of_write (h : s.mgmt.code = 1) (hw : s.mgmt.write = true) :
    mgmtDone s = (regWrite .mp s.mgmt.off (.full s.mgmt.value) s).onMgmt (fun m => { m with code := 0 }) := by
  simp only [mgmtDone, h, hw, ne_eq, not_true_eq_false, if_false, if_true]

end

/-! The test port (17 R585). -/

theorem jtag_of_inner (i : Jtag) (s : State) (h : (i = .extest || i = .extestPulse || i = .extestTrain) = false) :
    jtag i s = s.onPin (fun p => { p with trstN := true, jtagReset := false, jtagIr := i }) := by
  simp only [jtag, h, Bool.false_and, Bool.false_eq_true, if_false]

theorem jtag_of_extest (i : Jtag) (s : State) (h : (i = .extest || i = .extestPulse || i = .extestTrain) = true) :
    jtag i s = s.onPin (fun p => { p with trstN := true, jtagReset := false, jtagIr := if s.pin.coldRstN then .bypass else i }) := by
  simp only [jtag, h, Bool.true_and]
  rfl

theorem idcodeWord_eq (s : State) : idcodeWord s = if s.fuse.stepping = 0xB1 then 0x10880D6B else 0x00880D6B := by
  unfold idcodeWord
  split <;> rfl

/-- Settles O59: an access of the management port by whether one is pending, an instruction of the test port by whether it drives pins. -/
theorem managementAndTestPorts : Obligations.ManagementAndTestPorts := by
  unfold Obligations.ManagementAndTestPorts
  have next : ∀ {s t : State}, s = t → (Host.Outcome.next s : Host.Outcome State Fault Refusal) = .next t := fun h => congrArg _ h
  refine ⟨fun off v s h => ⟨next (mgmtStart_of_good_pec h), next (mgmtStart_of_good_pec h), next (mgmtStart_of_bad_pec h), next (mgmtStart_of_bad_pec h)⟩,
    fun off v b s h => ⟨next (mgmtStart_of_pending h), next (mgmtStart_of_pending h)⟩, fun x s h hw hx => next (mgmtDone_of_read h hw hx),
    fun s h hw => next (mgmtDone_of_write h hw), fun s => ⟨rfl, rfl⟩, ?instructions⟩
  case instructions =>
    intro s
    refine ⟨next ?_, next (jtag_of_inner .bypass s rfl), next (jtag_of_inner .samplePreload s rfl), next (jtag_of_extest .extest s rfl),
      next (jtag_of_extest .extestPulse s rfl), next (jtag_of_extest .extestTrain s rfl), rfl⟩
    rw [jtag_of_inner .idcode s rfl, idcodeWord_eq]

/-! Fields of a register. -/

/-- The field of n bits from bit lo of a number. -/
theorem fldN_eq (x hi lo : Nat) : fldN x hi lo = x / 2 ^ lo % 2 ^ (hi - lo + 1) := by rw [fldN, Nat.shiftRight_eq_div_pow]

/-! Admin queues (16 R561). -/

section
variable {f : Nat} {v : Word} {s : State}

/-- The queue that ENABLE = 1 starts: at slot 0 of its rings, with the sizes and the vector of its register (16 R561). -/
def adminQueue (f : Nat) (s : State) : Queue :=
  { newQueue f 0 0 (s.fnAt f).vector (s.fnAt f).subBase (s.fnAt f).cplBase (s.fnAt f).subLog2 (s.fnAt f).cplLog2 false false
      (decide (s.dev.compatLevel < 2)) false with admin := true }

/-- The register with the fields of a write but ENABLE (16 Table 16.14). -/
def setAdminCfg (f : Nat) (v : Word) (s : State) : State :=
  s.modFn f (fun n => { n with vector := v.toNat / 2 ^ 32 % 2048, cplLog2 := v.toNat / 2 ^ 16 % 32, subLog2 := v.toNat / 2 ^ 8 % 32 })

theorem fnAt_setAdminCfg (f : Nat) (v : Word) (s : State) : (setAdminCfg f v s).fnAt f =
    { s.fnAt f with vector := v.toNat / 2 ^ 32 % 2048, cplLog2 := v.toNat / 2 ^ 16 % 32, subLog2 := v.toNat / 2 ^ 8 % 32 } := by
  rw [setAdminCfg, State.fnAt_eq, State.modFn_eq]
  exact tgetD_tset_same _ _ _ _

/-- A write with ENABLE = 1 to a queue that does not run: it starts where its sizes lie in 6 to 16. -/
theorem adminCfg_of_enable (hv : v.toNat.testBit 63 = true) (he : (s.fnAt f).enabled = false) (hr : s.dev.recovery = false) :
    adminCfg f (.full v) s =
      if v.toNat / 2 ^ 8 % 32 < 6 ∨ 16 < v.toNat / 2 ^ 8 % 32 ∨ v.toNat / 2 ^ 16 % 32 < 6 ∨ 16 < v.toNat / 2 ^ 16 % 32 then setAdminCfg f v s
      else ((setAdminCfg f v s).putQueue f (adminQueue f (setAdminCfg f v s))).modFn f (fun n => { n with enable := true, enabled := true, dbErr := false }) := by
  have fields : (s.modFn f (fun n => { n with vector := fldN v.toNat 42 32, cplLog2 := fldN v.toNat 20 16, subLog2 := fldN v.toNat 12 8 }))
      = setAdminCfg f v s := by
    simp only [fldN_eq]
    rfl
  have quiet : (setAdminCfg f v s).dev.recovery = false := hr
  simp only [adminCfg, mergeAcc, hv, he, fields, quiet, adminQueue, fnAt_setAdminCfg, Bool.not_false, Bool.true_and, Bool.or_false, Bool.false_eq_true,
    if_false, if_true, Bool.or_eq_true, decide_eq_true_eq, or_assoc]

theorem exec_adminQueueEnable_of_open (hf : f < 34) (hb : barOpen s = true) (hv : v.toNat.testBit 63 = true) :
    exec (.adminQueueEnable f (.full v)) s = .next (adminCfg f (.full v) s) :=
  congrArg Host.Outcome.next (if_pos (by rw [mergeAcc, hb, hv, decide_eq_true hf]; rfl))

theorem exec_adminQueueDisable_of_running (hf : f < 34) (hb : barOpen s = true) (hv : v.toNat.testBit 63 = false) (he : (s.fnAt f).enabled = true)
    (hn : (s.fnAt f).enable = true) : exec (.adminQueueDisable f (.full v)) s
      = .next ((s.updQueue f (fun x => { x with drain := true })).modFn f (fun n => { n with enable := false })) := by
  refine congrArg Host.Outcome.next ((if_pos (by rw [mergeAcc, hb, hv, decide_eq_true hf]; rfl)).trans ?_)
  simp only [adminCfg, mergeAcc, hv, he, hn, Bool.not_true, Bool.not_false, Bool.and_self, Bool.false_eq_true, if_false, if_true]

theorem exec_adminQueueDrained_of_empty {x : Queue} (hf : f < 34) (hq : s.getQueue f = some x) (he : (s.fnAt f).enabled = true)
    (hn : (s.fnAt f).enable = false) (hx : x.es = []) :
    exec (.adminQueueDrained f) s = .next (pumpAll ((s.delQueue f).modFn f (fun n => { n with enabled := false }))) := by
  refine congrArg Host.Outcome.next ((if_pos hf).trans (congrArg pumpAll ?_))
  simp only [adminDrained, hq, he, hn, hx, Bool.not_false, List.all_nil, Bool.and_self, if_true, List.map_nil]
  rfl

end

theorem adminQueueRegister : Claims.AdminQueueRegister := by
  unfold Claims.AdminQueueRegister
  refine ⟨?enable, fun f v s => exec_adminQueueDisable_of_running, fun f x s => exec_adminQueueDrained_of_empty⟩
  case enable =>
    intro f v s hf hb hv he hr sub cpl vec t
    rw [exec_adminQueueEnable_of_open hf hb hv, adminCfg_of_enable hv he hr]
    refine ⟨fun hs6 hs16 hc6 hc16 => ⟨adminQueue f t, ?_, ?_⟩, fun h => by rw [if_pos h]; rfl⟩
    · rw [if_neg (by omega)]
      rfl
    · have register : t.fnAt f = _ := fnAt_setAdminCfg f v s
      simp only [adminQueue, newQueue, register, true_and]
      trivial

/-! Register writes (16 R550-R553, R559, R560, R566; 09 R342). -/

section
variable {f win off : Nat} {v : View} {w : Word} {a : Acc} {s : State}

theorem apwWrite_of_open (hf : f < 34) (hb : barOpen s = true) (hw : win < (if isPF f then 64 else 4)) :
    apwWrite f win (.full w) s
      = s.modApw (f * 64 + win) (fun _ => { enable := w.toNat.testBit 63, ctx := w.toNat / 2 ^ 48 % 4096, baseHi := w.toNat % 2 ^ 20 }) := by
  have taken : ¬ (34 ≤ f || !barOpen s || (if isPF f then 64 else 4) ≤ win) = true := by
    simp only [hb, Nat.not_le.mpr hf, Nat.not_le.mpr hw, decide_false, Bool.not_true, Bool.or_self, Bool.false_eq_true, not_false_eq_true]
  rw [apwWrite, if_neg taken]
  simp only [mergeAcc, fldN_eq, pow_zero, Nat.div_one]
  rfl

theorem compatWrite_of_allowed (hf : f < 34) (hp : isPF f = true) (hb : barOpen s = true) (hl : w.toNat % 4 ≤ compatCeil s) :
    compatWrite (.fn f) (.full w) s = if s.fab.member then s.onDev (fun d => { d with compatReq := w.toNat % 4, compatPend := true })
      else applyCompat (s.onDev (fun d => { d with compatReq := w.toNat % 4 })) := by
  have level : fldN w.toNat 1 0 = w.toNat % 4 := by rw [fldN_eq, pow_zero, Nat.div_one]; rfl
  simp only [compatWrite, mergeAcc, level, pfOpen, hp, hb, hf, Nat.not_lt.mpr hl, decide_true, decide_false, Bool.and_self, Bool.not_true, Bool.or_self,
    Bool.false_eq_true, if_false]
  rfl

theorem compatWrite_of_above (hl : compatCeil s < w.toNat % 4) : compatWrite v (.full w) s = s := by
  have level : fldN w.toNat 1 0 = w.toNat % 4 := by rw [fldN_eq, pow_zero, Nat.div_one]; rfl
  simp only [compatWrite, mergeAcc, level, hl, decide_true, Bool.or_true, if_true]

theorem ceCfgWrite_of_open (hv : pfOrMp s v = true) :
    ceCfgWrite v (.full w) s = s.onEccReg (fun e => { e with
      thresh := if w.toNat % 2 ^ 16 = 0 then e.thresh else w.toNat % 2 ^ 16,
      leakMs := if w.toNat / 2 ^ 16 % 2 ^ 16 = 0 then e.leakMs else w.toNat / 2 ^ 16 % 2 ^ 16 }) := by
  simp only [ceCfgWrite, mergeAcc, fldN_eq, hv, pow_zero, Nat.div_one, Bool.not_true, Bool.false_eq_true, if_false, Nat.sub_zero, Nat.reduceAdd, Nat.reduceSub]

theorem ceClr_of_open (hv : pfOrMp s v = true) :
    ceClr v (.full w) s = forEach ((List.range 12).filter (fun k => w.toNat.testBit k)) (fun k t => t.modEcc k (fun e => { e with
      total := 0, ovf := 0 })) s := by
  simp only [ceClr, actVal, hv, Bool.not_true, Bool.false_eq_true, if_false]

/-! Writes by offset (16 R550-R553). -/

theorem regWrite_of_closed (h : viewOpen s v = false) : regWrite v off a s = s := if_pos (by rw [h]; rfl)

theorem regWrite_of_misaligned (h : viewOpen s v = true) (ho : off % 8 ≠ 0) : regWrite v off a s = misaligned v s :=
  (if_neg (by rw [h]; decide)).trans (if_pos ho)

theorem regWrite_mp_of_misaligned (ho : off % 8 ≠ 0) : regWrite .mp off a s = s := by
  cases open_ : viewOpen s .mp with
  | false => exact regWrite_of_closed open_
  | true => exact regWrite_of_misaligned open_ ho

/-- An aligned offset of the DEV_ window. -/
theorem regWrite_of_device (h : viewOpen s v = true) (h8 : off % 8 = 0) (hlo : 0x1000 ≤ off) (hhi : off < 0x2000) :
    regWrite v off a s = devWrite v (off - 0x1000) a s := by
  have device : (0x1000 ≤ off && off < 0x2000) = true := by rw [decide_eq_true hlo, decide_eq_true hhi]; rfl
  simp only [regWrite, h, h8, device, Bool.not_true, Bool.false_eq_true, ne_eq, not_true_eq_false, if_false, if_true]

theorem regWrite_eccCeCfg (h : viewOpen s v = true) : regWrite v 0x20008 a s = ceCfgWrite v a s := if_neg (by rw [h]; decide)

theorem regWrite_apertureWindow (hw : win < 64) (h : viewOpen s (.fn f) = true) : regWrite (.fn f) (0x1200 + 8 * win) a s = apwWrite f win a s := by
  have place : 0x1200 + 8 * win - 0x1000 = 0x200 + 8 * win := by omega
  rw [regWrite_of_device h (by omega) (by omega) (by omega), place, devWrite]
  have other : ∀ k, k < 0x200 → 0x200 + 8 * win ≠ k := by omega
  have window : (0x200 ≤ 0x200 + 8 * win && 0x200 + 8 * win < 0x400 && (0x200 + 8 * win) % 8 = 0) = true := by
    simp only [Bool.and_eq_true, decide_eq_true_eq]
    omega
  have number : (0x200 + 8 * win - 0x200) / 8 = win := by omega
  simp only [other 0 (by decide), other 0x20 (by decide), other 0x28 (by decide), other 8 (by decide), other 0x10 (by decide), other 0x18 (by decide), h,
    window, number, decide_false, Bool.false_and, Bool.not_true, Bool.false_eq_true, if_false, if_true]

end

/-! Reads of the LATCH_ window (16 R564, R565). -/

section
variable {f i off : Nat} {l : Latch} {s : State}

/-- An aligned offset of the LATCH_ window. -/
theorem regRead_latch (hb : barOpen s = true) (h8 : off % 8 = 0) (hlo : 0x100000 ≤ off) (hhi : off < 0x180000) :
    regRead s f off = BitVec.ofNat 64 (latchRead s f (off - 0x100000)) := by
  have device : (0x1000 ≤ off && off < 0x2000) = false := by
    rw [Bool.and_eq_false_imp]
    exact fun _ => decide_eq_false (by omega)
  have latch : (0x100000 ≤ off && off < 0x180000) = true := by rw [decide_eq_true hlo, decide_eq_true hhi]; rfl
  simp only [regRead, hb, h8, device, latch, Bool.not_true, Bool.false_eq_true, ne_eq, not_true_eq_false, if_false, if_true]

theorem regRead_latch_value (hb : barOpen s = true) (hi : i < 16384) : regRead s f (0x100000 + 16 * i) = (latchView s f i).1 := by
  have place : 0x100000 + 16 * i - 0x100000 = 16 * i := by omega
  have inside : 16 * i < 0x40000 := by omega
  have number : 16 * i / 16 = i := by omega
  have first : 16 * i % 16 = 0 := by omega
  rw [regRead_latch hb (by omega) (by omega) (by omega), place, latchRead, if_pos inside, number]
  simp only [first, if_true, BitVec.ofNat_toNat, BitVec.setWidth_eq]

theorem regRead_latch_status (hb : barOpen s = true) (hi : i < 16384) : regRead s f (0x100000 + 16 * i + 8) = (latchView s f i).2 := by
  have place : 0x100000 + 16 * i + 8 - 0x100000 = 16 * i + 8 := by omega
  have inside : 16 * i + 8 < 0x40000 := by omega
  have number : (16 * i + 8) / 16 = i := by omega
  have second : (16 * i + 8) % 16 ≠ 0 := by omega
  rw [regRead_latch hb (by omega) (by omega) (by omega), place, latchRead, if_pos inside, number]
  simp only [second, if_false, BitVec.ofNat_toNat, BitVec.setWidth_eq]

theorem latchView_of_reached (h : s.getLatch i = some l) (hr : reaches s f l.owner = true) :
    latchView s f i = (l.value, BitVec.ofNat 64 (2 ^ 31 + l.owner * 2 ^ 16 + b2n l.poison)) := by
  simp only [latchView, h, hr, if_true]

theorem latchView_of_unreached (h : s.getLatch i = some l) (hr : reaches s f l.owner = false) : latchView s f i = (0, 0) := by
  simp only [latchView, h, hr, Bool.false_eq_true, if_false]

theorem latchView_of_free (h : s.getLatch i = none) : latchView s f i = (0, 0) := by
  simp only [latchView, h]

theorem latchPool_of_no_latch (hl : s.latch = []) (hh : s.latchHold = []) : latchPool s = 0x20002000 := by
  rw [latchPool, latchesFree, latchesFree, hl, hh]
  rfl

end

theorem registerWrites : Claims.RegisterWrites := by
  unfold Claims.RegisterWrites
  have next : ∀ {s t : State}, s = t → (Host.Outcome.next s : Host.Outcome State Fault Refusal) = .next t := fun h => congrArg _ h
  refine ⟨fun f win v s hf hb hw => next (apwWrite_of_open hf hb hw), fun f v s hf hp hb hl => next (compatWrite_of_allowed hf hp hb hl),
    fun f v s hl => next (compatWrite_of_above hl), fun v w s hv => next (ceCfgWrite_of_open hv), fun v w s hv => next (ceClr_of_open hv),
    fun v off a s h => next (regWrite_of_closed h),
    fun f off a s ho => ⟨fun h => next (regWrite_of_misaligned h ho), next (regWrite_mp_of_misaligned ho)⟩,
    ?latch, ?free, ?pool, ?offsets, ?cePair, fun f win a s hw h => next (regWrite_apertureWindow hw h)⟩
  case latch =>
    intro f i l s hb hi hl
    rw [regRead_latch_value hb hi, regRead_latch_status hb hi]
    refine ⟨fun hr => ?_, fun hr => ?_⟩
    · rw [latchView_of_reached hl hr]
      exact ⟨rfl, rfl⟩
    · rw [latchView_of_unreached hl hr]
      exact ⟨rfl, rfl⟩
  case free =>
    intro f i s hb hi hl
    rw [regRead_latch_value hb hi, regRead_latch_status hb hi, latchView_of_free hl]
    exact ⟨rfl, rfl⟩
  case pool =>
    intro f s hb hl hh
    have pool : latchRead s f (0x140000 - 0x100000) = latchPool s := rfl
    rw [regRead_latch hb rfl (by decide) (by decide), pool, latchPool_of_no_latch hl hh]
    rfl
  case offsets =>
    intro v a s h
    have opened : ¬ (!viewOpen s v) = true := by rw [h]; decide
    exact ⟨next (regWrite_of_device h rfl (by decide) (by decide)), next (regWrite_of_device h rfl (by decide) (by decide)), next (if_neg opened),
      next (regWrite_eccCeCfg h), next (if_neg opened)⟩
  case cePair =>
    intro v w s h hv ht hl
    refine next ((regWrite_eccCeCfg h).trans ((ceCfgWrite_of_open hv).trans ?_))
    simp only [ht, hl, if_false]

/-- Settles O60: a write by the register that its view reaches at its offset, a read of the LATCH_ window by the latch that its offset names. -/
theorem registerAccess : Obligations.RegisterAccess := ⟨adminQueueRegister, registerWrites⟩

end Sys2Proof.Machine
end

section
/-! SUPPORT. What no command changes (16 R555; 95 What each step holds), whatever the memories hold: the parts of the state, the memories and the spaces. -/

namespace Sys2Proof.Machine

/-- A fold whose every step leaves a part of what it carries alone leaves it alone. -/
theorem foldl_untouched {α β γ : Type} {π : β → γ} {g : β → α → β} (h : ∀ b a, π (g b a) = π b) (l : List α) (b : β) : π (l.foldl g b) = π b := by
  induction l generalizing b with
  | nil => rfl
  | cons a l ih => exact (ih (g b a)).trans (h b a)

/-- What no command changes: the fuses (16 R555) and the commands that wait. -/
def inert (s : State) : Fuse × List Instr := (s.fuse, s.pending)

/-- A state with a result, that still holds what `s` holds of what no command changes. -/
def KeepsFst {α : Type} (s : State) (p : State × α) : Prop := inert p.1 = inert s

theorem inert_forEach {α : Type} {g : α → State → State} (h : ∀ a s, inert (g a s) = inert s) (l : List α) (s : State) :
    inert (forEach l g s) = inert s :=
  forEach_untouched h l s

theorem inert_foldl {α : Type} {g : State → α → State} (h : ∀ s a, inert (g s a) = inert s) (l : List α) (s : State) :
    inert (l.foldl g s) = inert s := foldl_untouched h l s

theorem inert_foldl_fst {α β : Type} {g : State × β → α → State × β} (h : ∀ p a, inert (g p a).1 = inert p.1) (l : List α) (p : State × β) :
    inert (l.foldl g p).1 = inert p.1 := foldl_untouched (π := fun p => inert p.1) h l p

theorem inert_foldl_snd {α β : Type} {g : β × State → α → β × State} (h : ∀ p a, inert (g p a).2 = inert p.2) (l : List α) (p : β × State) :
    inert (l.foldl g p).2 = inert p.2 := foldl_untouched (π := fun p => inert p.2) h l p

theorem inert_thenE {ε α β : Type} {f : α → State → State × Except ε β} (h : ∀ a s, inert (f a s).1 = inert s) (r : State × Except ε α) :
    inert (thenE r f).1 = inert r.1 := by
  obtain ⟨s, _ | a⟩ := r
  · rfl
  · exact h a s

/-- A chain of steps that may fail keeps what each step keeps. By the definition's name the kernel compares no chain of projections. -/
theorem keepsFst_thenE {ε α β : Type} {r : State × Except ε α} {f : α → State → State × Except ε β} {s : State} (hr : KeepsFst s r)
    (h : ∀ a t, KeepsFst t (f a t)) : KeepsFst s (thenE r f) := (inert_thenE h r).trans hr

theorem inert_ite_snd {α : Type} {c : Prop} [Decidable c] {a b : α × State} {s : State} (ha : inert a.2 = inert s) (hb : inert b.2 = inert s) :
    inert (if c then a else b).2 = inert s := by
  split
  · exact ha
  · exact hb

theorem inert_onPin {s g} : inert (s.onPin g) = inert s := rfl
theorem inert_onDev {s g} : inert (s.onDev g) = inert s := rfl
theorem inert_modFn {s k g} : inert (s.modFn k g) = inert s := rfl
theorem inert_onApw {s g} : inert (s.onApw g) = inert s := rfl
theorem inert_modApw {s k g} : inert (s.modApw k g) = inert s := rfl
theorem inert_onMbx {s g} : inert (s.onMbx g) = inert s := rfl
theorem inert_modMbx {s k g} : inert (s.modMbx k g) = inert s := rfl
theorem inert_onMbxBuf {s g} : inert (s.onMbxBuf g) = inert s := rfl
theorem inert_onQueue {s g} : inert (s.onQueue g) = inert s := rfl
theorem inert_putQueue {s k v} : inert (s.putQueue k v) = inert s := rfl
theorem inert_updQueue {s k g} : inert (s.updQueue k g) = inert s := rfl
theorem inert_delQueue {s k} : inert (s.delQueue k) = inert s := rfl
theorem inert_onCas {s g} : inert (s.onCas g) = inert s := rfl
theorem inert_modCas {s k g} : inert (s.modCas k g) = inert s := rfl
theorem inert_putCtx {s k v} : inert (s.putCtx k v) = inert s := rfl
theorem inert_updCtx {s k g} : inert (s.updCtx k g) = inert s := rfl
theorem inert_delCtx {s k} : inert (s.delCtx k) = inert s := rfl
theorem inert_onAlloc {s g} : inert (s.onAlloc g) = inert s := rfl
theorem inert_putAlloc {s k v} : inert (s.putAlloc k v) = inert s := rfl
theorem inert_delAlloc {s k} : inert (s.delAlloc k) = inert s := rfl
theorem inert_putFills {s k v} : inert (s.putFills k v) = inert s := rfl
theorem inert_delFills {s k} : inert (s.delFills k) = inert s := rfl
theorem inert_onDesc {s g} : inert (s.onDesc g) = inert s := rfl
theorem inert_putDesc {s k v} : inert (s.putDesc k v) = inert s := rfl
theorem inert_delDesc {s k} : inert (s.delDesc k) = inert s := rfl
theorem inert_onProg {s g} : inert (s.onProg g) = inert s := rfl
theorem inert_putProg {s k v} : inert (s.putProg k v) = inert s := rfl
theorem inert_delProg {s k} : inert (s.delProg k) = inert s := rfl
theorem inert_putLatch {s k v} : inert (s.putLatch k v) = inert s := rfl
theorem inert_delLatch {s k} : inert (s.delLatch k) = inert s := rfl
theorem inert_putLatchHold {s k v} : inert (s.putLatchHold k v) = inert s := rfl
theorem inert_putRun {s k v} : inert (s.putRun k v) = inert s := rfl
theorem inert_updRun {s k g} : inert (s.updRun k g) = inert s := rfl
theorem inert_onCore {s g} : inert (s.onCore g) = inert s := rfl
theorem inert_modCore {s k g} : inert (s.modCore k g) = inert s := rfl
theorem inert_onSaved {s g} : inert (s.onSaved g) = inert s := rfl
theorem inert_putSaved {s k v} : inert (s.putSaved k v) = inert s := rfl
theorem inert_delSaved {s k} : inert (s.delSaved k) = inert s := rfl
theorem inert_modTile {s k g} : inert (s.modTile k g) = inert s := rfl
theorem inert_modOpStore {s k g} : inert (s.modOpStore k g) = inert s := rfl
theorem inert_modAccStore {s k g} : inert (s.modAccStore k g) = inert s := rfl
theorem inert_onArmed {s g} : inert (s.onArmed g) = inert s := rfl
theorem inert_onUnitCtx {s g} : inert (s.onUnitCtx g) = inert s := rfl
theorem inert_putUnitCtx {s k v} : inert (s.putUnitCtx k v) = inert s := rfl
theorem inert_onBank {s g} : inert (s.onBank g) = inert s := rfl
theorem inert_modBank {s k g} : inert (s.modBank k g) = inert s := rfl
theorem inert_onLocalMem {s g} : inert (s.onLocalMem g) = inert s := rfl
theorem inert_onSharedMem {s g} : inert (s.onSharedMem g) = inert s := rfl
theorem inert_onTileMem {s g} : inert (s.onTileMem g) = inert s := rfl
theorem inert_onBadWords {s g} : inert (s.onBadWords g) = inert s := rfl
theorem inert_onStackMem {s g} : inert (s.onStackMem g) = inert s := rfl
theorem inert_putWindow {s k v} : inert (s.putWindow k v) = inert s := rfl
theorem inert_onHealth {s g} : inert (s.onHealth g) = inert s := rfl
theorem inert_putHealth {s k v} : inert (s.putHealth k v) = inert s := rfl
theorem inert_delHealth {s k} : inert (s.delHealth k) = inert s := rfl
theorem inert_onLb {s g} : inert (s.onLb g) = inert s := rfl
theorem inert_modLb {s k g} : inert (s.modLb k g) = inert s := rfl
theorem inert_onEcc {s g} : inert (s.onEcc g) = inert s := rfl
theorem inert_modEcc {s k g} : inert (s.modEcc k g) = inert s := rfl
theorem inert_onEccReg {s g} : inert (s.onEccReg g) = inert s := rfl
theorem inert_onFarMem {s g} : inert (s.onFarMem g) = inert s := rfl
theorem inert_onFarBad {s g} : inert (s.onFarBad g) = inert s := rfl
theorem inert_onHostMem {s g} : inert (s.onHostMem g) = inert s := rfl
theorem inert_onFar {s g} : inert (s.onFar g) = inert s := rfl
theorem inert_onJob {s g} : inert (s.onJob g) = inert s := rfl
theorem inert_putJob {s k v} : inert (s.putJob k v) = inert s := rfl
theorem inert_updJob {s k g} : inert (s.updJob k g) = inert s := rfl
theorem inert_delJob {s k} : inert (s.delJob k) = inert s := rfl
theorem inert_onSeq {s g} : inert (s.onSeq g) = inert s := rfl
theorem inert_putSeq {s k v} : inert (s.putSeq k v) = inert s := rfl
theorem inert_updSeq {s k g} : inert (s.updSeq k g) = inert s := rfl
theorem inert_delSeq {s k} : inert (s.delSeq k) = inert s := rfl
theorem inert_onPage {s g} : inert (s.onPage g) = inert s := rfl
theorem inert_putPage {s k v} : inert (s.putPage k v) = inert s := rfl
theorem inert_updPage {s k g} : inert (s.updPage k g) = inert s := rfl
theorem inert_delPage {s k} : inert (s.delPage k) = inert s := rfl
theorem inert_onCalib {s g} : inert (s.onCalib g) = inert s := rfl
theorem inert_putCalib {s k v} : inert (s.putCalib k v) = inert s := rfl
theorem inert_delCalib {s k} : inert (s.delCalib k) = inert s := rfl
theorem inert_onArea {s g} : inert (s.onArea g) = inert s := rfl
theorem inert_putArea {s k v} : inert (s.putArea k v) = inert s := rfl
theorem inert_onReq {s g} : inert (s.onReq g) = inert s := rfl
theorem inert_putReq {s k v} : inert (s.putReq k v) = inert s := rfl
theorem inert_updReq {s k g} : inert (s.updReq k g) = inert s := rfl
theorem inert_onFab {s g} : inert (s.onFab g) = inert s := rfl
theorem inert_onPort {s g} : inert (s.onPort g) = inert s := rfl
theorem inert_modPort {s k g} : inert (s.modPort k g) = inert s := rfl
theorem inert_onPlan {s g} : inert (s.onPlan g) = inert s := rfl
theorem inert_putPlan {s k v} : inert (s.putPlan k v) = inert s := rfl
theorem inert_onColl {s g} : inert (s.onColl g) = inert s := rfl
theorem inert_putColl {s k v} : inert (s.putColl k v) = inert s := rfl
theorem inert_updColl {s k g} : inert (s.updColl k g) = inert s := rfl
theorem inert_delColl {s k} : inert (s.delColl k) = inert s := rfl
theorem inert_onWlog {s g} : inert (s.onWlog g) = inert s := rfl
theorem inert_delWlog {s k} : inert (s.delWlog k) = inert s := rfl
theorem inert_onLvr {s g} : inert (s.onLvr g) = inert s := rfl
theorem inert_onTherm {s g} : inert (s.onTherm g) = inert s := rfl
theorem inert_onGated {s g} : inert (s.onGated g) = inert s := rfl
theorem inert_onTurn {s g} : inert (s.onTurn g) = inert s := rfl
theorem inert_onWake {s g} : inert (s.onWake g) = inert s := rfl
theorem inert_onAcc {s g} : inert (s.onAcc g) = inert s := rfl
theorem inert_onProc {s g} : inert (s.onProc g) = inert s := rfl
theorem inert_modProc {s k g} : inert (s.modProc k g) = inert s := rfl
theorem inert_onFw {s g} : inert (s.onFw g) = inert s := rfl
theorem inert_onMgmt {s g} : inert (s.onMgmt g) = inert s := rfl
theorem inert_onOut {s g} : inert (s.onOut g) = inert s := rfl
theorem inert_fresh {s} : inert s.fresh.2 = inert s := rfl
theorem inert_newUid {s} : inert s.newUid.2 = inert s := rfl

/-! Machine/Flags.lean. -/

theorem inert_msix {f v s} : inert (msix f v s) = inert s := rfl
theorem inert_mgmtAlert {s} : inert (mgmtAlert s) = inert s := rfl

theorem inert_devEvent1 {bit f s} : inert (devEvent1 bit f s) = inert s := by
  unfold devEvent1
  grind [inert_mgmtAlert, inert_modFn, inert_msix]

theorem inert_devEvent {bit s} : inert (devEvent bit s) = inert s := by
  unfold devEvent
  grind [inert_devEvent1]

theorem inert_eccIrq {s} : inert (eccIrq s) = inert s := by
  unfold eccIrq
  grind [inert_msix]

theorem inert_setUe {st s} : inert (setUe st s) = inert s := by
  unfold setUe
  grind [inert_mgmtAlert, inert_onEccReg]

theorem inert_setCeOvf {st s} : inert (setCeOvf st s) = inert s := by
  unfold setCeOvf
  grind [inert_mgmtAlert, inert_onEccReg]

theorem inert_setFarUe {p s} : inert (setFarUe p s) = inert s := by
  unfold setFarUe
  grind [inert_mgmtAlert, inert_onEccReg]

theorem inert_setFarDown {p s} : inert (setFarDown p s) = inert s := by
  unfold setFarDown
  grind [inert_mgmtAlert, inert_onEccReg]

theorem inert_setDbErrFn {f s} : inert (setDbErrFn f s) = inert s := rfl
theorem inert_setDbErrQ {q s} : inert (setDbErrQ q s) = inert s := rfl
theorem inert_setApwErr {f s} : inert (setApwErr f s) = inert s := rfl
theorem inert_trace {p pt sev a0 a1 s} : inert (trace p pt sev a0 a1 s) = inert s := rfl

/-! Machine/Latch.lean. -/

theorem inert_noteMet {l s} : inert (noteMet l s) = inert s := rfl
theorem inert_signalLatch {l v add s} : inert (signalLatch l v add s) = inert s := rfl
theorem inert_poisonLatch {l s} : inert (poisonLatch l s) = inert s := rfl

theorem inert_poisonCtxLatches {c s} : inert (poisonCtxLatches c s) = inert s := by
  unfold poisonCtxLatches
  grind [inert_foldl, inert_poisonLatch]

/-! Machine/Sf.lean. -/

theorem inert_spoilRow {unit off s} : inert (spoilRow unit off s) = inert s := rfl

theorem inert_capturePart {unit off s} : inert (capturePart unit off s) = inert s := by
  unfold capturePart
  grind [inert_fresh, inert_onArmed, inert_spoilRow]

/-! Machine/Mem.lean. -/

theorem inert_readBy {rd} (h : ∀ a s, inert (rd a s).1 = inert s) {l b s} : inert (readBy rd l b s).1 = inert s := by
  induction l generalizing b s with
  | nil => rfl
  | cons a l ih => grind [readBy]

theorem inert_ueAppend {k port src time loc s} : inert (ueAppend k port src time loc s) = inert s := rfl

theorem inert_logUeAt {src a s} : inert (logUeAt src a s) = inert s := by
  unfold logUeAt
  grind [inert_ueAppend, inert_setUe, inert_eccIrq]

theorem inert_logUe {src a s} : inert (logUe src a s) = inert s := by
  unfold logUe
  grind [inert_logUeAt]

theorem inert_logFarUe {src p a s} : inert (logFarUe src p a s) = inert s := by
  unfold logFarUe
  grind [inert_ueAppend, inert_setFarUe, inert_eccIrq]

theorem inert_bucketAdd {t s} : inert (bucketAdd t s) = inert s := by
  unfold bucketAdd
  grind [inert_setCeOvf, inert_modEcc, inert_eccIrq]

theorem inert_countCorr {cw s} : inert (countCorr cw s) = inert s := by
  unfold countCorr
  grind [inert_bucketAdd, inert_modEcc]

theorem inert_readWord {src cw s} : inert (readWord src cw s).1 = inert s := by
  unfold readWord
  grind [inert_logUe, inert_countCorr]

theorem inert_storeWord {cw bs s} : inert (storeWord cw bs s) = inert s := rfl
theorem inert_writeWord {cw bs s} : inert (writeWord cw bs s) = inert s := rfl

theorem inert_rmw {cw cells owners s} : inert (rmw cw cells owners s) = inert s := by
  unfold rmw
  grind [inert_capturePart, inert_logUe, inert_storeWord, inert_modLb, inert_putHealth, inert_countCorr]

theorem inert_wakeFor {u s} : inert (wakeFor u s) = inert s := by
  unfold wakeFor
  grind [inert_onWake]

theorem inert_reachStack {a s} : inert (reachStack a s) = inert s := by
  unfold reachStack
  grind [inert_onAcc, inert_wakeFor]

theorem inert_reachBank {a s} : inert (reachBank a s) = inert s := by
  unfold reachBank
  grind [inert_reachStack, inert_onAcc]

theorem inert_noteWrite {owner space a n s} : inert (noteWrite owner space a n s) = inert s := by
  unfold noteWrite
  grind [inert_onWlog, inert_onSeq]

theorem inert_poisonWord {cw cells s} : inert (poisonWord cw cells s) = inert s := by
  unfold poisonWord
  grind [inert_logUe, inert_storeWord, inert_modLb, inert_putHealth]

theorem inert_mergeOut {l s} : inert (mergeOut l s) = inert s := by
  unfold mergeOut
  grind [inert_poisonWord, inert_modLb, inert_rmw]

theorem inert_drainMerge {cw s} : inert (drainMerge cw s) = inert s := by
  unfold drainMerge
  grind [inert_mergeOut, inert_modLb, inert_reachBank]

theorem inert_mergeInto {cw cells owners s} : inert (mergeInto cw cells owners s) = inert s := by
  unfold mergeInto
  grind [inert_writeWord, inert_mergeOut, inert_modLb]

theorem inert_lineOut {t l s} : inert (lineOut t l s) = inert s := by
  unfold lineOut
  grind [inert_poisonWord, inert_mergeInto, inert_modLb]

theorem inert_drainLine {t l s} : inert (drainLine t l s) = inert s := by
  unfold drainLine
  grind [inert_lineOut, inert_modLb, inert_reachBank]

theorem inert_spoilWrite {a bs s} : inert (spoilWrite a bs s) = inert s := by
  unfold spoilWrite
  grind [inert_forEach, inert_spoilRow]

theorem inert_lbWrite {owner a bs s} : inert (lbWrite owner a bs s) = inert s := by
  unfold lbWrite
  grind [inert_lineOut, inert_reachStack, inert_spoilWrite, inert_modLb, inert_reachBank, inert_drainLine]

theorem inert_stWrite {owner a bs s} : inert (stWrite owner a bs s) = inert s := by
  unfold stWrite
  grind [inert_noteWrite, inert_lbWrite, inert_forEach]

theorem inert_flushBad {cw s} : inert (flushBad cw s) = inert s := by
  unfold flushBad
  grind [inert_lineOut, inert_mergeOut]

theorem inert_ifWord {src cw s} : inert (ifWord src cw s).1 = inert s := by
  unfold ifWord
  grind [inert_readWord, inert_drainMerge, inert_reachStack, inert_flushBad, inert_reachBank]

theorem inert_stRead {src a n s} : inert (stRead src a n s).1 = inert s := by
  unfold stRead
  grind [inert_readBy, inert_ifWord]

theorem inert_sillWord {cw s} : inert (sillWord cw s).1 = inert s := by
  unfold sillWord
  grind [inert_readWord, inert_mergeOut]

theorem inert_sillRead {a n s} : inert (sillRead a n s).1 = inert s := by
  unfold sillRead
  grind [inert_readBy, inert_sillWord]

theorem inert_sillWrite {owner a bs s} : inert (sillWrite owner a bs s) = inert s := by
  unfold sillWrite
  grind [inert_writeWord, inert_noteWrite, inert_rmw, inert_forEach]

theorem inert_drainWhere {t p a s} : inert (drainWhere t p a s) = inert s := by
  unfold drainWhere
  grind [inert_drainMerge, inert_forEach, inert_drainLine]

theorem inert_drainOwned {owner s} : inert (drainOwned owner s) = inert s := by
  unfold drainOwned
  grind [inert_drainWhere, inert_forEach]

theorem inert_drainStack {t s} : inert (drainStack t s) = inert s := by
  unfold drainStack
  grind [inert_drainWhere]

theorem inert_clearBad {owner s} : inert (clearBad owner s) = inert s := rfl

theorem inert_farPiece {src a n s} : inert (farPiece src a n s).1 = inert s := by
  unfold farPiece
  grind [inert_logFarUe]

theorem inert_farReadGo {src l l' s} : inert (farReadGo src l l' s).1 = inert s := by
  induction l generalizing src l' s with
  | nil => grind [farReadGo]
  | cons a l ih => grind [farReadGo, inert_farPiece]

theorem inert_farRead {src a n s} : inert (farRead src a n s).1 = inert s := by
  unfold farRead
  grind [inert_farReadGo]

theorem inert_farWrite {a bs s} : inert (farWrite a bs s).1 = inert s := by
  unfold farWrite
  grind [inert_foldl_fst, inert_onFarBad, inert_onFarMem]

theorem inert_vaPiece {c src va n s} : inert (vaPiece c src va n s).1 = inert s := by
  unfold vaPiece
  grind [inert_farRead, inert_stRead]

theorem inert_vaReadGo {c src l l' s} : inert (vaReadGo c src l l' s).1 = inert s := by
  induction l generalizing c src l' s with
  | nil => grind [vaReadGo]
  | cons a l ih => grind [vaReadGo, inert_vaPiece]

theorem inert_vaRead {c src va n s} : inert (vaRead c src va n s).1 = inert s := by
  unfold vaRead
  grind [inert_vaReadGo]

theorem inert_vaWritePiece {c owner va bs s} : inert (vaWritePiece c owner va bs s).1 = inert s := by
  unfold vaWritePiece
  grind [inert_noteWrite, inert_onHostMem, inert_farWrite, inert_stWrite]

theorem inert_vaWriteGo {c owner l s} : inert (vaWriteGo c owner l s).1 = inert s := by
  induction l generalizing c owner s with
  | nil => grind [vaWriteGo]
  | cons a l ih => grind [vaWriteGo, inert_vaWritePiece]

theorem inert_vaWrite {c owner va bs s} : inert (vaWrite c owner va bs s).1 = inert s := by
  unfold vaWrite
  grind [inert_vaWriteGo]

theorem inert_spoilHdrs {c vas s} : inert (spoilHdrs c vas s) = inert s := by
  unfold spoilHdrs
  grind [inert_forEach, inert_spoilRow]

theorem inert_vaPut {c va bs s} : inert (vaPut c va bs s) = inert s := by
  unfold vaPut
  grind [inert_vaWrite]

theorem inert_busWrite {port a bs s} : inert (busWrite port a bs s) = inert s := rfl

theorem inert_attempt (m) {g} (h : ∀ s, inert (g s) = inert s) {s} : inert (attempt m g s) = inert s := by
  unfold attempt
  grind [inert_onAcc, inert_wakeFor, inert_modBank, inert_forEach]

theorem inert_havocVa {c owner va n s} : inert (havocVa c owner va n s) = inert s := by
  unfold havocVa
  grind [inert_fresh, inert_vaWrite]

theorem inert_undefWrite {w s} : inert (undefWrite w s) = inert s := by
  unfold undefWrite
  grind [inert_fresh, inert_onStackMem, inert_onSharedMem, inert_modLb, inert_onHostMem, inert_farWrite, inert_onTileMem, inert_onLocalMem]

theorem inert_undefWrites {l s} : inert (undefWrites l s) = inert s := by
  unfold undefWrites
  grind [inert_forEach, inert_undefWrite]

theorem inert_settleWrites {owner s} : inert (settleWrites owner s) = inert s := rfl

/-! Machine/Space.lean. -/

theorem inert_reachPart {p bs s} : inert (reachPart p bs s) = inert s := by
  unfold reachPart
  grind [inert_forEach, inert_reachBank]

theorem inert_putFdir {s i d} : inert (s.putFdir i d) = inert s := by
  unfold State.putFdir
  grind [inert_farWrite]

theorem inert_delFdir {s i} : inert (s.delFdir i) = inert s := by
  unfold State.delFdir
  grind [inert_farWrite]

theorem inert_giveUp {far sm bs off len deps s} : inert (giveUp far sm bs off len deps s) = inert s := by
  unfold giveUp
  grind [inert_putFills]

theorem inert_zeroFill {x s} : inert (zeroFill x s) = inert s := by
  unfold zeroFill
  grind [inert_onStackMem, inert_onHealth, inert_onFarMem, inert_forEach]

theorem inert_releaseAlloc {a deps s} : inert (releaseAlloc a deps s) = inert s := by
  unfold releaseAlloc
  grind [inert_giveUp]

theorem inert_writePte {q l k s} : inert (writePte q l k s) = inert s := by
  unfold writePte
  grind [inert_vaPut, inert_onSeq]

theorem inert_placeOne {q l k s} : ∀ t, placeOne q l k s = some t → inert t = inert s := by
  unfold placeOne
  grind [inert_writePte, inert_putPage]

theorem inert_placeAll {q l s} : ∀ t, placeAll q l s = some t → inert t = inert s := by
  induction l generalizing q s with
  | nil => grind [placeAll]
  | cons a l ih => grind [placeAll, inert_placeOne]

theorem inert_setCommitted {q c s} : inert (setCommitted q c s) = inert s := by
  unfold setCommitted
  grind [inert_writePte, inert_updPage, inert_updSeq, inert_forEach]

theorem inert_reserveSlots {q e s} : ∀ t, reserveSlots q e s = some t → inert t = inert s := by
  unfold reserveSlots
  grind [inert_placeAll]

theorem inert_seqCommitDo {q a d s} : inert (seqCommitDo q a d s).2 = inert s := by
  unfold seqCommitDo
  grind [inert_reserveSlots, inert_setCommitted]

theorem inert_freePage {i s} : inert (freePage i s) = inert s := by
  unfold freePage
  grind [inert_delFdir, inert_writePte, inert_delPage, inert_giveUp]

theorem inert_freePages {l deps s} : inert (freePages l deps s) = inert s := by
  unfold freePages
  grind [inert_freePage, inert_updPage, inert_forEach]

theorem inert_dropCalib {k s} : inert (dropCalib k s) = inert s := by
  unfold dropCalib
  grind [inert_delCalib]

theorem inert_endSeq {q s} : inert (endSeq q s) = inert s := by
  unfold endSeq
  grind [inert_dropCalib, inert_delSeq]

theorem inert_closeSeq {q deps s} : inert (closeSeq q deps s) = inert s := by
  unfold closeSeq
  grind [inert_endSeq, inert_updSeq, inert_freePages]

end Sys2Proof.Machine
end

section
/-! SUPPORT. What no command changes (16 R555; 95 What each step holds), whatever the memories hold: contexts, queues and runs. -/

namespace Sys2Proof.Machine

/-! Machine/Ctx.lean. -/

theorem inert_updEntry {q uid g s} : inert (updEntry q uid g s) = inert s := rfl
theorem inert_setDone {q uid r s} : inert (setDone q uid r s) = inert s := rfl

theorem inert_poisonSig {q e s} : inert (poisonSig q e s) = inert s := by
  unfold poisonSig
  grind [inert_poisonLatch]

theorem inert_poisonArg {q e s} : inert (poisonArg q e s) = inert s := by
  unfold poisonArg
  grind [inert_poisonLatch]

theorem inert_sweepQ {q s} : inert (sweepQ q s) = inert s := rfl

theorem inert_poisonEnv {e s} : inert (poisonEnv e s) = inert s := by
  unfold poisonEnv
  grind [inert_poisonLatch]

theorem inert_cancelSpec {cl ids s} : inert (cancelSpec cl ids s) = inert s := by
  unfold cancelSpec
  grind [inert_settleWrites, inert_modCore, inert_undefWrites, inert_forEach]

theorem inert_fireEnv {cl s} : inert (fireEnv cl s) = inert s := by
  unfold fireEnv
  grind [inert_signalLatch, inert_modCore, inert_forEach]

theorem inert_withdraw {cl s} : inert (withdraw cl s) = inert s := by
  unfold withdraw
  grind [inert_poisonEnv, inert_modCore, inert_fireEnv, inert_poisonLatch, inert_forEach]

theorem inert_cutRun {r st s} : inert (cutRun r st s) = inert s := by
  unfold cutRun
  grind [inert_modCore, inert_updRun, inert_forEach, inert_withdraw]

theorem inert_spoilRun {r s} : inert (spoilRun r s) = inert s := by
  unfold spoilRun
  grind [inert_undefWrites, inert_updRun]

theorem inert_releaseRun {r s} : inert (releaseRun r s) = inert s := rfl

theorem inert_endMark {p s} : inert (endMark p s) = inert s := by
  unfold endMark
  grind [inert_delFdir, inert_putFdir]

theorem inert_abortJob {j s} : inert (abortJob j s) = inert s := by
  unfold abortJob
  grind [inert_delJob, inert_endMark, inert_forEach]

theorem inert_dropJob {j s} : inert (dropJob j s) = inert s := by
  unfold dropJob
  grind [inert_delFdir, inert_abortJob]

theorem inert_finishReq {id s} : inert (finishReq id s) = inert s := by
  unfold finishReq
  grind [inert_vaPut, inert_signalLatch, inert_updEntry, inert_poisonLatch, inert_onSeq, inert_updReq]

theorem inert_discardReq {cause id s} : inert (discardReq cause id s) = inert s := by
  unfold discardReq
  grind [inert_finishReq, inert_dropJob, inert_trace, inert_forEach, inert_updReq]

theorem inert_scrubCut {e s} : inert (scrubCut e s) = inert s := by
  unfold scrubCut
  grind [inert_fresh, inert_vaPut]

theorem inert_discardEntry {q e s} : inert (discardEntry q e s) = inert s := by
  unfold discardEntry
  grind [inert_cutRun, inert_setDone, inert_settleWrites, inert_poisonSig, inert_undefWrites, inert_dropJob, inert_releaseRun, inert_updRun,
    inert_spoilRun, inert_forEach, inert_poisonArg, inert_scrubCut]

theorem inert_stopQueue {q uid s} : inert (stopQueue q uid s) = inert s := by
  unfold stopQueue
  grind [inert_discardEntry, inert_updQueue, inert_forEach]

theorem inert_endWaits {q s} : inert (endWaits q s) = inert s := by
  unfold endWaits
  grind [inert_setDone, inert_updQueue]

theorem inert_tearDown {c keep s} : inert (tearDown c keep s) = inert s := by
  unfold tearDown
  grind [inert_cutRun, inert_onArmed, inert_discardEntry, inert_releaseRun, inert_updQueue, inert_endWaits, inert_poisonCtxLatches, inert_forEach]

theorem inert_ctxFault {c keep i s} : inert (ctxFault c keep i s) = inert s := by
  unfold ctxFault
  grind [inert_modCas, inert_setDone, inert_discardReq, inert_busWrite, inert_forEach, inert_updCtx, inert_msix, inert_tearDown]

theorem inert_completeEntry {q uid r addr s} : inert (completeEntry q uid r addr s) = inert s := by
  unfold completeEntry
  grind [inert_setDone, inert_settleWrites, inert_clearBad, inert_drainOwned, inert_poisonSig, inert_ctxFault, inert_undefWrites, inert_stopQueue,
    inert_poisonArg]

theorem inert_freeLatch {l s} : inert (freeLatch l s) = inert s := by
  unfold freeLatch
  grind [inert_putLatchHold, inert_poisonLatch, inert_delLatch]

theorem inert_freeCtx {orphan c s} : inert (freeCtx orphan c s) = inert s := by
  unfold freeCtx
  grind [inert_closeSeq, inert_onDesc, inert_onColl, inert_freePage, inert_onProg, inert_onSaved, inert_releaseAlloc, inert_onAlloc, inert_freeLatch,
    inert_onCas, inert_onArmed, inert_onApw, inert_dropJob, inert_releaseRun, inert_onArea, inert_giveUp, inert_onUnitCtx, inert_forEach,
    inert_onPage, inert_onQueue, inert_onReq, inert_delCtx, inert_abortJob, inert_onCore, inert_onCalib]

/-! Machine/Queue.lean. -/

theorem inert_ringRead {s x ext} : inert (ringRead s x ext).1 = inert s := by
  unfold ringRead
  grind [inert_vaRead, inert_foldl_fst]

theorem inert_appendEntry {q e n s} : inert (appendEntry q e n s) = inert s := rfl

theorem inert_fetchPacket {q h pl s} : inert (fetchPacket q h pl s) = inert s := by
  unfold fetchPacket
  grind [inert_ringRead, inert_appendEntry, inert_newUid, inert_completeEntry]

theorem inert_writeRecord {x bs s} : inert (writeRecord x bs s) = inert s := by
  unfold writeRecord
  grind [inert_busWrite, inert_vaPut]

theorem inert_postOldest {q s} : inert (postOldest q s) = inert s := by
  unfold postOldest
  grind [inert_updEntry, inert_updQueue, inert_sweepQ, inert_writeRecord, inert_msix]

theorem inert_headerSignal {q uid s} : inert (headerSignal q uid s) = inert s := by
  unfold headerSignal
  grind [inert_signalLatch, inert_updEntry, inert_sweepQ]

/-! Machine/Run.lean. -/

theorem inert_havocSill {c s} : inert (havocSill c s) = inert s := by
  unfold havocSill
  grind [inert_fresh, inert_modOpStore, inert_modAccStore, inert_forEach]

theorem inert_zeroCluster {cl s} : inert (zeroCluster cl s) = inert s := by
  unfold zeroCluster
  grind [inert_onSharedMem, inert_onBadWords, inert_onTileMem, inert_onLocalMem]

theorem inert_havocTiles {cl s} : inert (havocTiles cl s) = inert s := rfl

theorem inert_startCore {r x rank s} : inert (startCore r x rank s) = inert s := by
  unfold startCore
  grind [inert_modCore, inert_zeroCluster, inert_onSharedMem, inert_havocTiles]

theorem inert_startRun {r x s} : inert (startRun r x s) = inert s := by
  unfold startRun
  grind [inert_havocSill, inert_onArmed, inert_startCore, inert_updRun, inert_forEach]

theorem inert_resumeRun {r x s} : inert (resumeRun r x s) = inert s := by
  unfold resumeRun
  grind [inert_modCore, inert_updRun, inert_forEach]

theorem inert_requestPreempt {r s} : inert (requestPreempt r s) = inert s := by
  unfold requestPreempt
  grind [inert_modCore, inert_updRun, inert_forEach]

theorem inert_arbitrate {s} : inert (arbitrate s) = inert s := by
  unfold arbitrate
  grind [inert_requestPreempt, inert_forEach, inert_wakeFor]

theorem inert_writeRec {p bs base cl s} : inert (writeRec p bs base cl s) = inert s := by
  unfold writeRec
  grind [inert_onStackMem, inert_onHealth, inert_putHealth, inert_forEach]

theorem inert_spillCluster {r cl s} : inert (spillCluster r cl s) = inert s := by
  unfold spillCluster
  grind [inert_modCore, inert_newUid, inert_reachPart, inert_writeRec, inert_updRun, inert_putSaved]

theorem inert_checkRec {p bs base s} : inert (checkRec p bs base s).1 = inert s := by
  unfold checkRec
  grind [inert_readWord, inert_foldl_fst]

theorem inert_restoreCluster {r ctx lg t} : inert (restoreCluster r ctx lg t).1 = inert t.1 := by
  unfold restoreCluster
  grind [inert_checkRec, inert_reachPart, inert_onLocalMem, inert_onTileMem, inert_onSharedMem, inert_onBadWords, inert_havocTiles, inert_modCore,
    inert_delSaved]

theorem inert_restoreRun {r s} : inert (restoreRun r s) = inert s := by
  unfold restoreRun
  grind [inert_cutRun, inert_havocSill, inert_updRun, inert_foldl_fst, inert_restoreCluster]

theorem inert_writeDump {x s} : inert (writeDump x s).1 = inert s := by
  unfold writeDump
  grind [inert_vaWrite, inert_foldl_fst]

/-! Machine/Skip.lean. -/

theorem inert_addSkip {c k s} : inert (addSkip c k s) = inert s := rfl

theorem inert_logSkip {cl pc reason info idx time s} : inert (logSkip cl pc reason info idx time s) = inert s := by
  unfold logSkip
  grind [inert_fresh, inert_addSkip, inert_ctxFault, inert_updRun]

theorem inert_stopRun {cl st pc addr s} : inert (stopRun cl st pc addr s) = inert s := by
  unfold stopRun
  grind [inert_cutRun, inert_ctxFault]

end Sys2Proof.Machine
end

section
/-! SUPPORT. What no command changes (16 R555; 95 What each step holds), whatever the memories hold: the engines of a cluster. -/

namespace Sys2Proof.Machine

/-! Machine/Pivot.lean. -/

theorem inert_tileWrite {t a bs s} : inert (tileWrite t a bs s) = inert s := rfl

theorem inert_reachCluster {cl s} : inert (reachCluster cl s) = inert s := by
  unfold reachCluster
  grind [inert_onAcc, inert_wakeFor]

theorem inert_spRead {c space cl tmask a n s} : inert (spRead c space cl tmask a n s).1 = inert s := by
  unfold spRead
  grind [inert_vaRead, inert_reachCluster]

theorem inert_spWrite {c owner space cl tmask a bs s} : inert (spWrite c owner space cl tmask a bs s).1 = inert s := by
  unfold spWrite
  grind [inert_vaWrite, inert_tileWrite, inert_noteWrite, inert_onSharedMem, inert_forEach, inert_reachCluster]

theorem inert_spWriteAll {c owner space cl tmask l s} : inert (spWriteAll c owner space cl tmask l s).1 = inert s := by
  induction l generalizing c owner space cl tmask s with
  | nil => grind [spWriteAll]
  | cons a l ih => grind [spWriteAll, inert_spWrite]

theorem inert_spReadAll {c space cl tmask n l l' s} : inert (spReadAll c space cl tmask n l l' s).1 = inert s := by
  induction l generalizing c space cl tmask n l' s with
  | nil => grind [spReadAll]
  | cons a l ih => grind [spReadAll, inert_spRead]

theorem inert_havocRanges {c owner space cl tmask l s} : inert (havocRanges c owner space cl tmask l s) = inert s := by
  unfold havocRanges
  grind [inert_fresh, inert_spWrite, inert_forEach]

theorem inert_readIf {want c space cl tmask a n s} : inert (readIf want c space cl tmask a n s).1 = inert s := by
  unfold readIf
  grind [inert_spRead]

theorem inert_readExtras {c cl tmask slide m s} : inert (readExtras c cl tmask slide m s).1 = inert s := by
  unfold readExtras
  grind [inert_thenE, inert_readIf]

theorem inert_readIdx {c n n' l s} : inert (readIdx c n n' l s).1 = inert s := by
  induction n generalizing c n' l s with
  | zero => grind [readIdx]
  | succ n ih => grind [readIdx, inert_vaRead]

theorem inert_moveEnd {c owner cl tmask m w s} : inert (moveEnd c owner cl tmask m w s).1 = inert s := by
  unfold moveEnd
  grind [inert_havocRanges, inert_spWriteAll]

theorem inert_moveShape {c owner cl tmask ss ds tag m s} : inert (moveShape c owner cl tmask ss ds tag m s).1 = inert s := by
  unfold moveShape
  grind [inert_spReadAll, inert_delWlog, inert_readExtras, inert_havocRanges, inert_moveEnd, inert_spoilHdrs, inert_spWriteAll]

theorem inert_readRowsAt {c space cl tmask n l l' s} : inert (readRowsAt c space cl tmask n l l' s).1 = inert s := by
  induction l generalizing l' s with
  | nil => rfl
  | cons a l ih => cases a <;> grind [readRowsAt, inert_spRead]

theorem inert_moveGather {c owner cl tmask ss ds m idx s} : inert (moveGather c owner cl tmask ss ds m idx s).1 = inert s := by
  unfold moveGather
  grind [inert_readRowsAt, inert_havocRanges, inert_moveEnd]

theorem inert_accWindow {c owner cl tmask ds m l s} : inert (accWindow c owner cl tmask ds m l s).1 = inert s := by
  induction l generalizing c owner cl tmask ds m s with
  | nil => grind [accWindow]
  | cons a l ih => grind [accWindow, inert_spWrite, inert_spRead]

theorem inert_accWindows {c owner cl tmask ds m n l s} : inert (accWindows c owner cl tmask ds m n l s).1 = inert s := by
  induction n generalizing l s with
  | zero => cases l <;> rfl
  | succ n ih => cases l <;> grind [accWindows, inert_accWindow]

theorem inert_loseUpdates {owner s} : inert (loseUpdates owner s) = inert s := by
  unfold loseUpdates
  grind [inert_undefWrites]

theorem inert_moveScatter {c owner cl tmask ss ds m idx s} : inert (moveScatter c owner cl tmask ss ds m idx s).1 = inert s := by
  unfold moveScatter
  grind [inert_spReadAll, inert_havocRanges, inert_moveEnd, inert_loseUpdates, inert_accWindows]

theorem inert_moveRun {c owner h m s} : inert (moveRun c owner h m s).1 = inert s := by
  unfold moveRun
  grind [inert_moveScatter, inert_moveGather, inert_readIdx, inert_havocRanges, inert_moveShape]

/-! Machine/Tile.lean. -/

theorem inert_putIssued {tl x s} : inert (putIssued tl x s) = inert s := rfl

theorem inert_havocAcc {tl c x s} : inert (havocAcc tl c x s) = inert s := by
  unfold havocAcc
  grind [inert_fresh, inert_modTile, inert_foldl]

theorem inert_noteEarly {tl x early kind s} : inert (noteEarly tl x early kind s) = inert s := by
  unfold noteEarly
  grind [inert_logSkip]

theorem inert_tilePut {tl uid a bs s} : inert (tilePut tl uid a bs s) = inert s := by
  unfold tilePut
  grind [inert_tileWrite, inert_noteWrite]

theorem inert_doReads {tl c x s} : inert (doReads tl c x s) = inert s := by
  unfold doReads
  grind [inert_noteEarly, inert_havocAcc, inert_putIssued, inert_foldl]

theorem inert_poisonRows {tl x s} : inert (poisonRows tl x s) = inert s := rfl

theorem inert_doWrites {tl c x s} : inert (doWrites tl c x s) = inert s := by
  simp only [doWrites, apply_ite inert, inert_putIssued, inert_tilePut, inert_poisonRows, inert_modTile, ite_self]

theorem inert_tileTick {c tl s} : inert (tileTick c tl s) = inert s := by
  unfold tileTick
  grind [inert_doWrites, inert_forEach, inert_doReads]

theorem inert_tilesTick {s} : inert (tilesTick s) = inert s := by
  unfold tilesTick
  grind [inert_onDev, inert_forEach, inert_tileTick]

theorem inert_ctrTick {s} : inert (ctrTick s) = inert s := rfl
theorem inert_tileIssue {tl uid eop ctx h watch s} : inert (tileIssue tl uid eop ctx h watch s) = inert s := rfl

theorem inert_tileTake {uid tiles s} : inert (tileTake uid tiles s) = inert s := by
  unfold tileTake
  grind [inert_forEach, inert_modTile]

/-! Machine/Sill.lean. -/

theorem inert_storeRead {x a n s} : inert (storeRead x a n s).1 = inert s := rfl

theorem inert_claimUnit {c u s} : inert (claimUnit c u s) = inert s := by
  unfold claimUnit
  grind [inert_modOpStore, inert_modAccStore, inert_putUnitCtx]

theorem inert_clobberArmed {u a n s} : inert (clobberArmed u a n s) = inert s := by
  unfold clobberArmed
  grind [inert_fresh, inert_onArmed]

theorem inert_SEnv_rd {v b rel n s} : inert (SEnv.rd v b rel n s).1 = inert s := by
  unfold SEnv.rd
  grind [inert_sillRead]

theorem inert_SEnv_chk {v b rel fmt g scl count s} : inert (SEnv.chk v b rel fmt g scl count s).1 = inert s := by
  unfold SEnv.chk
  grind [inert_thenE, inert_SEnv_rd]

theorem inert_wGemv {v h b s} : inert (wGemv v h b s).1 = inert s :=
  have keeps : KeepsFst s (wGemv v h b s) :=
    keepsFst_thenE inert_SEnv_chk fun _ _ => keepsFst_thenE inert_SEnv_rd fun _ _ => keepsFst_thenE inert_storeRead fun _ _ =>
      keepsFst_thenE inert_storeRead fun _ _ => rfl
  keeps

theorem inert_SEnv_vals {v b rel fmt n s} : inert (SEnv.vals v b rel fmt n s).1 = inert s := by
  unfold SEnv.vals
  grind [inert_thenE, inert_SEnv_rd]

theorem inert_ewSecond {v h b s} : inert (ewSecond v h b s).1 = inert s := by
  unfold ewSecond
  grind [inert_SEnv_chk, inert_storeRead, inert_thenE, inert_SEnv_vals]

theorem inert_wEwise {v h b s} : inert (wEwise v h b s).1 = inert s := by
  unfold wEwise
  grind [inert_SEnv_chk, inert_ewSecond, inert_thenE, inert_SEnv_vals]

theorem inert_wNorm {v h b s} : inert (wNorm v h b s).1 = inert s :=
  have keeps : KeepsFst s (wNorm v h b s) :=
    keepsFst_thenE inert_SEnv_chk fun _ _ => keepsFst_thenE inert_SEnv_vals fun _ _ => keepsFst_thenE inert_SEnv_rd fun _ _ =>
      keepsFst_thenE inert_storeRead fun _ _ => rfl
  keeps

theorem inert_wDeq {v h b s} : inert (wDeq v h b s).1 = inert s := by
  unfold wDeq
  grind [inert_SEnv_chk, inert_thenE, inert_SEnv_vals]

theorem inert_wTopk {v h b s} : inert (wTopk v h b s).1 = inert s :=
  have keeps : KeepsFst s (wTopk v h b s) := keepsFst_thenE inert_SEnv_chk fun _ _ => keepsFst_thenE inert_SEnv_rd fun _ _ => rfl
  keeps

theorem inert_gatherRows {v h b tlen l l' s} : inert (gatherRows v h b tlen l l' s).1 = inert s := by
  induction l generalizing l' s with
  | nil => grind [gatherRows]
  | cons a l ih => grind [gatherRows, inert_fresh, inert_thenE, inert_SEnv_rd]

theorem inert_wGather {v h b s} : inert (wGather v h b s).1 = inert s := by
  unfold wGather
  grind [inert_thenE, inert_SEnv_rd, inert_gatherRows]

theorem inert_wSmxNorm {v h b s} : inert (wSmxNorm v h b s).1 = inert s := by
  unfold wSmxNorm
  grind [inert_fresh, inert_thenE, inert_SEnv_rd]

theorem inert_sillWork {v h b s} : inert (sillWork v h b s).1 = inert s := by
  unfold sillWork
  grind [inert_wGather, inert_wNorm, inert_wGemv, inert_wEwise, inert_wSmxNorm, inert_wTopk, inert_wDeq]

theorem inert_workAll {work} (h : ∀ b s, inert (work b s).1 = inert s) {l a o s} : inert (workAll work l a o s).1 = inert s := by
  induction l generalizing a o s with
  | nil => rfl
  | cons b l ih => grind [workAll]

theorem inert_landStep {v w s} : inert (landStep v w s) = inert s := by
  unfold landStep
  grind [inert_sillWrite]

theorem inert_landHead {v h j b s} : inert (landHead v h j b s) = inert s := by
  unfold landHead
  grind [inert_spoilRow]

theorem inert_landSome {v h j n p s} : inert (landSome v h j n p s) = inert s := by
  unfold landSome
  grind [inert_modBank, inert_landHead, inert_landStep, inert_forEach]

theorem inert_landOut {v h j p s} : inert (landOut v h j p s) = inert s := by
  unfold landOut
  grind [inert_clobberArmed, inert_landHead, inert_modAccStore, inert_landStep, inert_forEach]

theorem inert_havocAccOut {v h b s} : inert (havocAccOut v h b s) = inert s := by
  unfold havocAccOut
  grind [inert_fresh, inert_clobberArmed, inert_modAccStore]

theorem inert_havocOut {v h bs len s} : inert (havocOut v h bs len s) = inert s := by
  unfold havocOut
  grind [inert_havocAccOut, inert_fresh, inert_forEach, inert_sillWrite]

theorem inert_sillFail {v h j st s} : inert (sillFail v h j st s).1 = inert s := by
  unfold sillFail
  grind [inert_delWlog, inert_havocOut, inert_forEach, inert_sillWrite]

theorem inert_rewind {s t} : inert (rewind s t) = inert s := rfl

theorem inert_sillTry {v h j s} (work : ∀ b s, inert (j.work b s).1 = inert s) : inert (sillTry v h j s).1 = inert s := by
  have worked := inert_workAll (l := ones (sBs h)) (a := []) (o := none) (s := s) work
  unfold sillTry
  grind [inert_rewind, inert_sillFail]

theorem inert_sillLand {v h j s} (work : ∀ b s, inert (j.work b s).1 = inert s) : inert (sillLand v h j s).1 = inert s := by
  have worked := inert_workAll (l := ones (sBs h)) (a := []) (o := none) (s := s) work
  unfold sillLand
  grind [inert_landOut, inert_sillFail, inert_forEach]

theorem inert_sillSteps {v h j b s} (work : ∀ b s, inert (j.work b s).1 = inert s) : inert (sillSteps v h j b s) = inert s := by
  have worked := work b s
  unfold sillSteps
  grind [inert_fresh, inert_rewind, inert_landSome]

theorem inert_loadopRead {v h s} : inert (loadopRead v h s).1 = inert s := by
  unfold loadopRead
  grind [inert_SEnv_rd]

theorem inert_loadopWrite {v h bs s} : inert (loadopWrite v h bs s) = inert s := by
  unfold loadopWrite
  grind [inert_modOpStore, inert_forEach]

theorem inert_loadopHavoc {v h s} : inert (loadopHavoc v h s) = inert s := by
  unfold loadopHavoc
  grind [inert_fresh, inert_modOpStore, inert_forEach]

theorem inert_runArm {v h r s} : inert (runArm v h r s) = inert s := by
  unfold runArm
  grind [inert_fresh, inert_clobberArmed, inert_modAccStore, inert_onArmed, inert_forEach]

theorem inert_sillOp {v h run s} : inert (sillOp v h run s).1 = inert s := by
  have tried := inert_sillTry (v := v) (h := h) (j := opJob v h) (s := s) fun _ _ => inert_sillWork
  unfold sillOp
  grind [inert_rewind, inert_loadopRead, inert_loadopHavoc, inert_runArm, inert_onArmed]

theorem inert_sillEnd {v h s} : inert (sillEnd v h s).1 = inert s := by
  have landed := inert_sillLand (v := v) (h := h) (j := opJob v h) (s := s) fun _ _ => inert_sillWork
  unfold sillEnd
  grind [inert_loadopRead, inert_loadopWrite, inert_loadopHavoc, inert_onArmed]

theorem inert_sillCut {v h s} : inert (sillCut v h s) = inert s := by
  unfold sillCut
  grind [inert_havocAccOut, inert_onArmed, inert_forEach, inert_loadopHavoc]

/-! Machine/Attn.lean. -/

theorem inert_readCols {t b q ps l tt hd value l' a s} : inert (readCols t b q ps l tt hd value l' a s).1 = inert s := by
  induction l' generalizing t b q ps l tt hd value a s with
  | nil => grind [readCols]
  | cons a l' ih => grind [readCols, inert_sillRead]

theorem inert_readHeads {t b q ps l tt cols value l' l'' s} : inert (readHeads t b q ps l tt cols value l' l'' s).1 = inert s := by
  induction l' generalizing l'' s with
  | nil => grind [readHeads]
  | cons a l' ih => grind [readHeads, inert_thenE, inert_readCols]

theorem inert_wScore {v h q d cal b s} : inert (wScore v h q d cal b s).1 = inert s := by
  unfold wScore
  grind [inert_storeRead, inert_thenE, inert_readHeads]

theorem inert_wApply {v h q d cal b s} : inert (wApply v h q d cal b s).1 = inert s := by
  unfold wApply
  grind [inert_thenE, inert_readHeads, inert_SEnv_rd]

theorem inert_readPartials {v h b l l' s} : inert (readPartials v h b l l' s).1 = inert s := by
  induction l generalizing l' s with
  | nil => grind [readPartials]
  | cons a l ih => grind [readPartials, inert_SEnv_chk, inert_thenE, inert_SEnv_rd, inert_SEnv_vals]

theorem inert_wMerge {v h b s} : inert (wMerge v h b s).1 = inert s := by
  unfold wMerge
  grind [inert_thenE, inert_readPartials]

theorem inert_kvJob {v h s} : inert (kvJob v h s).1 = inert s := by
  unfold kvJob
  grind [inert_fresh, inert_vaRead, inert_havocOut]

/-- The work that an attention command does in a bank set leaves the fuses and the waiting commands as they are. -/
theorem inert_kvJob_work {v h s t j} (made : kvJob v h s = (t, .ok j)) : ∀ b s, inert (j.work b s).1 = inert s := by
  unfold kvJob at made
  split at made
  · extract_lets at made
    split at made
    · cases made; exact fun _ _ => rfl
    · split at made
      · cases made
      · cases made
      · split at made
        · cases made
        · split at made
          · cases made
          · cases made
          · cases made
            intro b s
            dsimp only
            split
            · exact inert_wScore
            · exact inert_wApply
  · cases made

theorem inert_ucallJob {v h s} : inert (ucallJob v h s).1 = inert s := by
  unfold ucallJob
  grind [inert_kvJob]

theorem inert_ucallJob_work {v h s t j} (made : ucallJob v h s = (t, .ok j)) : ∀ b s, inert (j.work b s).1 = inert s := by
  unfold ucallJob at made
  split at made
  · exact inert_kvJob_work made
  · split at made
    · cases made; exact fun _ _ => inert_wMerge
    · cases made; exact fun _ _ => rfl

theorem inert_sillStart {v h run s} : inert (sillStart v h run s).1 = inert s := by
  unfold sillStart
  split
  · have read := inert_ucallJob (v := v) (h := h) (s := s)
    split
    · rwa [‹ucallJob v h s = _›] at read
    · exact inert_sillTry (inert_ucallJob_work ‹_›)
  · exact inert_sillOp

theorem inert_sillFinish {v h s} : inert (sillFinish v h s).1 = inert s := by
  unfold sillFinish
  split
  · have read := inert_ucallJob (v := v) (h := h) (s := s)
    split
    · rwa [‹ucallJob v h s = _›] at read
    · rw [‹ucallJob v h s = _›] at read
      exact (inert_sillLand (inert_ucallJob_work ‹_›)).trans read
  · exact inert_sillEnd

theorem inert_sillYield {v h b s} : inert (sillYield v h b s) = inert s := by
  unfold sillYield
  split
  · rfl
  · split
    · split
      · split
        · exact inert_sillSteps (inert_ucallJob_work ‹_›)
        · rfl
      · rfl
    · exact inert_sillSteps fun _ _ => inert_sillWork

theorem inert_sillCutAll {v h s} : inert (sillCutAll v h s) = inert s := by
  unfold sillCutAll
  grind [inert_sillCut, inert_undefWrites, inert_forEach, inert_sillYield]

/-! Machine/Wicket.lean. -/

theorem inert_wicketEnd {r} : inert (wicketEnd r).1 = inert r.1 := by
  obtain ⟨s, _ | a⟩ := r <;> rfl

theorem inert_vRd {c a n s} : inert (vRd c a n s).1 = inert s := by
  unfold vRd
  grind [inert_readIf]

theorem inert_vWr {c owner w s} : inert (vWr c owner w s).1 = inert s := by
  unfold vWr
  grind [inert_spWriteAll]

theorem inert_freshen {s cl a n shadows} : inert (freshen s cl a n shadows) = inert s := rfl

theorem inert_sharedPut {owner cl a bs s} : inert (sharedPut owner cl a bs s) = inert s := by
  unfold sharedPut
  grind [inert_noteWrite, inert_onSharedMem, inert_reachCluster]

theorem inert_sharedWrite {owner cl a bs s} : inert (sharedWrite owner cl a bs s) = inert s := by
  unfold sharedWrite
  grind [inert_freshen, inert_sharedPut]

theorem inert_gateCheck {s c h} : inert (gateCheck s c h).1 = inert s := by
  unfold gateCheck
  grind [inert_vRd]

theorem inert_wqCheck {s c h} : inert (wqCheck s c h).1 = inert s := by
  unfold wqCheck
  grind [inert_gateCheck]

theorem inert_poisonOut {c owner n n' hd s} : inert (poisonOut c owner n n' hd s).1 = inert s := by
  unfold poisonOut
  grind [inert_vWr, inert_delWlog, inert_havocRanges]

theorem inert_gateRun {c owner h s} : inert (gateRun c owner h s).1 = inert s := by
  unfold gateRun
  grind [inert_wicketEnd, inert_vWr, inert_poisonOut, inert_thenE, inert_readIf, inert_vRd, inert_sharedWrite, inert_putArea]

theorem inert_readTags {c dl d s} : inert (readTags c dl d s).1 = inert s := by
  unfold readTags
  grind [inert_fresh, inert_vRd]

theorem inert_readResults {c a n l l' s} : inert (readResults c a n l l' s).1 = inert s := by
  induction l generalizing l' s with
  | nil => grind [readResults]
  | cons a l ih => obtain ⟨i, _ | _⟩ := a <;> grind [readResults, inert_thenE, inert_vRd]

theorem inert_combineRun {c owner h s} : inert (combineRun c owner h s).1 = inert s := by
  unfold combineRun
  grind [inert_wicketEnd, inert_vWr, inert_poisonOut, inert_thenE, inert_readIf, inert_vRd, inert_readResults, inert_readTags]

theorem inert_selectRun {c owner h s} : inert (selectRun c owner h s).1 = inert s := by
  unfold selectRun
  grind [inert_wicketEnd, inert_vWr, inert_thenE, inert_vRd, inert_sharedWrite]

theorem inert_notePlace {c rec a b sw s} : inert (notePlace c rec a b sw s) = inert s := rfl

theorem inert_stepRun {c owner h s} : inert (stepRun c owner h s).1 = inert s := by
  unfold stepRun
  grind [inert_wicketEnd, inert_vWr, inert_thenE, inert_vRd, inert_notePlace, inert_sharedWrite]

end Sys2Proof.Machine
end

section
/-! SUPPORT. What no command changes (16 R555; 95 What each step holds), whatever the memories hold: the links and the Mullion engine. -/

namespace Sys2Proof.Machine

/-! Machine/Link.lean. -/

theorem inert_sendVia {a via f s} : inert (sendVia a via f s) = inert s := by
  unfold sendVia
  grind [inert_modPort]

theorem inert_sendFlit {a f s} : inert (sendFlit a f s) = inert s := by
  unfold sendFlit
  grind [inert_sendVia]

theorem inert_setPort {p st s} : inert (setPort p st s) = inert s := by
  unfold setPort
  grind [inert_modPort, inert_sendFlit, inert_trace, inert_forEach]

theorem inert_servePort {p n s} : inert (servePort p n s) = inert s := by
  induction n generalizing p s with
  | zero => grind [servePort]
  | succ n ih => grind [servePort, inert_modPort, inert_onOut]

theorem inert_servePorts {s} : inert (servePorts s) = inert s := by
  unfold servePorts
  grind [inert_servePort, inert_forEach]

theorem inert_portAck {p seq s} : inert (portAck p seq s) = inert s := rfl
theorem inert_linkSend {p m s} : inert (linkSend p m s) = inert s := rfl

theorem inert_identAll {s} : inert (identAll s) = inert s := by
  unfold identAll
  grind [inert_forEach, inert_linkSend]

theorem inert_sendMsgV {ver dst fields s} : inert (sendMsgV ver dst fields s) = inert s := by
  unfold sendMsgV
  grind [inert_onFab, inert_sendFlit, inert_forEach, inert_onOut]

theorem inert_sendMsg {dst fields s} : inert (sendMsg dst fields s) = inert s := by
  unfold sendMsg
  grind [inert_sendMsgV]

/-! Machine/Mullion.lean. -/

theorem inert_endCmd {cl uid o s} : inert (endCmd cl uid o s) = inert s := rfl

theorem inert_collEnd {uid o s} : inert (collEnd uid o s) = inert s := by
  unfold collEnd
  grind [inert_endCmd, inert_updColl, inert_delColl]

theorem inert_collStop {uid o s} : inert (collStop uid o s) = inert s := by
  unfold collStop
  grind [inert_collEnd, inert_havocRanges]

theorem inert_relimit {s} : inert (relimit s) = inert s := rfl

theorem inert_postStep {c p s} : inert (postStep c p s) = inert s := by
  unfold postStep
  grind [inert_sendVia, inert_forEach]

theorem inert_collFinish {uid c s} : inert (collFinish uid c s) = inert s := by
  unfold collFinish
  grind [inert_collEnd, inert_vWr, inert_collStop]

theorem inert_collAdvance {uid n s} : inert (collAdvance uid n s) = inert s := by
  induction n generalizing uid s with
  | zero => grind [collAdvance]
  | succ n ih => grind [collAdvance, inert_updColl, inert_collFinish, inert_postStep]

theorem inert_sendRow {c dst row entry slot epoch ret bs s} : inert (sendRow c dst row entry slot epoch ret bs s) = inert s := by
  unfold sendRow
  grind [inert_sendFlit, inert_forEach]

theorem inert_sendTokens {c l s} : inert (sendTokens c l s).1 = inert s := by
  induction l generalizing c s with
  | nil => grind [sendTokens]
  | cons a l ih => grind [sendTokens, inert_sendRow, inert_vRd]

theorem inert_dispatchSend {uid c s} : inert (dispatchSend uid c s).1 = inert s := by
  unfold dispatchSend
  grind [inert_vRd, inert_sendFlit, inert_updColl, inert_sendTokens, inert_forEach]

theorem inert_landRows {uid c s} : inert (landRows uid c s).1 = inert s := by
  unfold landRows
  grind [inert_vWr, inert_vRd, inert_sharedWrite]

theorem inert_dispatchAdvance {uid s} : inert (dispatchAdvance uid s) = inert s := by
  unfold dispatchAdvance
  grind [inert_collEnd, inert_landRows, inert_collStop]

theorem inert_returnRowsGo {c smap l s} : inert (returnRowsGo c smap l s).1 = inert s := by
  induction l generalizing c smap s with
  | nil => grind [returnRowsGo]
  | cons a l ih => grind [returnRowsGo, inert_sendRow, inert_vRd]

theorem inert_returnSend {c s} : inert (returnSend c s).1 = inert s := by
  unfold returnSend
  grind [inert_vRd, inert_returnRowsGo, inert_sendFlit, inert_forEach]

theorem inert_landReturn {uid c area f bs s} : inert (landReturn uid c area f bs s).1 = inert s := by
  unfold landReturn
  grind [inert_vWr, inert_vRd]

theorem inert_returnLand {uid c area l s} : inert (returnLand uid c area l s).1 = inert s := by
  induction l generalizing uid c area s with
  | nil => grind [returnLand]
  | cons a l ih => grind [returnLand, inert_landReturn, inert_updColl]

theorem inert_returnAdvance {uid s} : inert (returnAdvance uid s) = inert s := by
  unfold returnAdvance
  grind [inert_collEnd, inert_returnLand, inert_collStop, inert_delColl]

theorem inert_collGo_returnOrNot {uid s k} : inert (collGo.returnOrNot uid s k) = inert s := by
  unfold collGo.returnOrNot
  grind [inert_collAdvance, inert_dispatchAdvance, inert_returnAdvance]

theorem inert_collGo {uid n s} : inert (collGo uid n s) = inert s := by
  induction n generalizing uid s with
  | zero => grind [collGo]
  | succ n ih => grind [collGo, inert_onFab, inert_collGo_returnOrNot, inert_updColl]

theorem inert_collPump {uid s} : inert (collPump uid s) = inert s := by
  unfold collPump
  grind [inert_attempt, inert_collGo]

theorem inert_collPumpAll {s} : inert (collPumpAll s) = inert s := by
  unfold collPumpAll
  grind [inert_collPump, inert_forEach]

theorem inert_flitIn {k f s} : inert (flitIn k f s) = inert s := by
  unfold flitIn
  grind [inert_onFab, inert_collPump]

theorem inert_sinkRow {x s} : inert (sinkRow x s) = inert s := by
  unfold sinkRow
  grind [inert_attempt, inert_onFab, inert_vWr, inert_vRd, inert_updColl]

theorem inert_sinkRows {s} : inert (sinkRows s) = inert s := by
  unfold sinkRows
  grind [inert_forEach, inert_sinkRow]

theorem inert_collStart {cl uid ctx h s} : inert (collStart cl uid ctx h s) = inert s := by
  unfold collStart
  grind [inert_onFab, inert_endCmd, inert_returnSend, inert_putColl, inert_vRd, inert_collGo, inert_dispatchSend, inert_collStop]

theorem inert_collTimeout {uid s} : inert (collTimeout uid s) = inert s := by
  unfold collTimeout
  grind [inert_collStop]

end Sys2Proof.Machine
end

section
/-! SUPPORT. What no command changes (16 R555; 95 What each step holds), whatever the memories hold: the control cores and the start and end of engine commands. -/

namespace Sys2Proof.Machine

/-! Machine/Front.lean. -/

theorem inert_pushCheck {s cl c w h} : inert (pushCheck s cl c w h).1 = inert s := by
  unfold pushCheck
  grind [inert_wqCheck]

theorem inert_countPush {cl stopIndex s} : inert (countPush cl stopIndex s) = inert s := rfl

theorem inert_wakeUnit {q h s} : inert (wakeUnit q h s) = inert s := by
  unfold wakeUnit
  grind [inert_wakeFor]

theorem inert_skipPush {cl pc r stopIndex s} : inert (skipPush cl pc r stopIndex s) = inert s := by
  unfold skipPush
  grind [inert_modCore, inert_newUid, inert_countPush, inert_logSkip]

theorem inert_enqueue {cl pc c q run h stopIndex s} : inert (enqueue cl pc c q run h stopIndex s) = inert s := by
  unfold enqueue
  grind [inert_modCore, inert_newUid, inert_countPush, inert_forEach, inert_modTile]

theorem inert_confirmOne {cl x s} : inert (confirmOne cl x s) = inert s := by
  unfold confirmOne
  grind [inert_modCore, inert_countPush, inert_logSkip]

theorem inert_confirmBrl {cl id s} : inert (confirmBrl cl id s) = inert s := by
  unfold confirmBrl
  grind [inert_modCore, inert_confirmOne, inert_forEach]

theorem inert_mispredict {cl b taken s} : inert (mispredict cl b taken s) = inert s := by
  unfold mispredict
  grind [inert_cancelSpec, inert_modCore]

theorem inert_resolveBrl {cl s} : inert (resolveBrl cl s) = inert s := by
  unfold resolveBrl
  grind [inert_confirmBrl, inert_cancelSpec, inert_stopRun, inert_mispredict]

/-! Machine/CoreInstr.lean. -/

theorem inert_skipInstr {cl reason info s} : inert (skipInstr cl reason info s) = inert s := by
  unfold skipInstr
  grind [inert_modCore, inert_logSkip]

theorem inert_instrStep {eff} (h : ∀ s, inert (eff s) = inert s) {ops cl w bad waits s} : inert (instrStep ops cl w bad waits eff s) = inert s := by
  unfold instrStep
  grind [inert_modCore, inert_skipInstr]

theorem inert_coreEff {cl g s} : inert (coreEff cl g s) = inert s := rfl

theorem inert_alu3 {op cl w f s} : inert (alu3 op cl w f s) = inert s := by
  unfold alu3
  grind [inert_instrStep, inert_coreEff]

theorem inert_aluI {op cl w shift f s} : inert (aluI op cl w shift f s) = inert s := by
  unfold aluI
  grind [inert_instrStep, inert_coreEff]

theorem inert_brlEff {cl w s} : inert (brlEff cl w s) = inert s := by
  unfold brlEff
  grind [inert_cancelSpec, inert_modCore, inert_newUid, inert_stopRun]

theorem inert_coreWrote {cl w s} : inert (coreWrote cl w s) = inert s := by
  unfold coreWrote
  grind [inert_updRun]

theorem inert_pushEff {cl w s} : inert (pushEff cl w s) = inert s := by
  unfold pushEff
  grind [inert_skipPush, inert_pushCheck, inert_modCore, inert_enqueue, inert_wakeUnit]

/-! Machine/Engine.lean. -/

theorem inert_setSt {cl uid st s} : inert (setSt cl uid st s) = inert s := rfl

theorem inert_begun {cl e s} : inert (begun cl e s) = inert s := by
  unfold begun
  grind [inert_setSt, inert_onTurn]

theorem inert_startCmd {run} (h : ∀ e s, inert (run e s) = inert s) {q op cl uid s} : inert (startCmd q op cl uid run s) = inert s := by
  unfold startCmd
  grind [inert_stopRun, inert_poisonEnv, inert_attempt, inert_begun]

theorem inert_tileCmd {op cl e s} : inert (tileCmd op cl e s) = inert s := by
  unfold tileCmd
  grind [inert_tileIssue, inert_forEach]

theorem inert_startTile {op cl uid s} : inert (startTile op cl uid s) = inert s := by
  unfold startTile
  grind [inert_startCmd, inert_tileCmd]

theorem inert_issueDue {cl e s} : inert (issueDue cl e s) = inert s := by
  unfold issueDue
  grind [inert_startTile]

theorem inert_issueAll {s} : inert (issueAll s) = inert s := by
  unfold issueAll
  grind [inert_issueDue, inert_forEach]

theorem inert_passCycle {s} : inert (passCycle s) = inert s := by
  unfold passCycle
  grind [inert_ctrTick, inert_issueAll, inert_tilesTick]

theorem inert_passUntil {uid tls n s} : inert (passUntil uid tls n s) = inert s := by
  induction n generalizing uid tls s with
  | zero => grind [passUntil]
  | succ n ih => grind [passUntil, inert_passCycle]

theorem inert_tileFinish {cl e s} : inert (tileFinish cl e s) = inert s := by
  unfold tileFinish
  grind [inert_passUntil]

theorem inert_moveCmd {cl e s} : inert (moveCmd cl e s) = inert s := by
  unfold moveCmd
  grind [inert_freshen, inert_moveRun, inert_endCmd]

theorem inert_startMove {cl uid s} : inert (startMove cl uid s) = inert s := by
  unfold startMove
  grind [inert_startCmd, inert_moveCmd]

theorem inert_freeBanks {uid s} : inert (freeBanks uid s) = inert s := rfl

theorem inert_sillCmd {cl e s} : inert (sillCmd cl e s) = inert s := by
  unfold sillCmd
  grind [inert_endCmd, inert_sillStart, inert_modBank, inert_claimUnit, inert_forEach]

theorem inert_startSill {op cl uid s} : inert (startSill op cl uid s) = inert s := by
  unfold startSill
  grind [inert_startCmd, inert_sillCmd]

theorem inert_wicketCmd {run} (h : ∀ a b c s, inert (run a b c s).1 = inert s) {cl e s} : inert (wicketCmd run cl e s) = inert s := by
  unfold wicketCmd
  grind [inert_endCmd]

theorem inert_startWicket {run} (h : ∀ a b c s, inert (run a b c s).1 = inert s) {op cl uid s} : inert (startWicket op cl uid run s) = inert s :=
  inert_startCmd fun _ _ => inert_wicketCmd h

theorem inert_collCmd {cl e s} : inert (collCmd cl e s) = inert s := by
  unfold collCmd
  grind [inert_collStart]

theorem inert_startColl {op cl uid s} : inert (startColl op cl uid s) = inert s := by
  unfold startColl
  grind [inert_startCmd, inert_collCmd]

theorem inert_prefetchCmd {cl e s} : inert (prefetchCmd cl e s) = inert s := rfl

theorem inert_outcomeOf {cl e s} : inert (outcomeOf cl e s).1 = inert s := by
  unfold outcomeOf
  grind [inert_tileFinish, inert_freeBanks, inert_sillFinish, inert_tileTake]

theorem inert_cutSill {e s} : inert (cutSill e s) = inert s := by
  unfold cutSill
  grind [inert_sillCutAll]

theorem inert_handWrites {e s} : inert (handWrites e s) = inert s := by
  unfold handWrites
  grind [inert_updRun]

theorem inert_envSignal {cl e deps s} : inert (envSignal cl e deps s) = inert s := by
  unfold envSignal
  grind [inert_signalLatch, inert_modCore]

theorem inert_leaveQueue {cl e o cut s} : inert (leaveQueue cl e o cut s) = inert s := by
  unfold leaveQueue
  grind [inert_envSignal, inert_settleWrites, inert_poisonEnv, inert_modCore, inert_fireEnv, inert_handWrites, inert_stopRun, inert_undefWrites]

theorem inert_engineComplete {cl uid s} : inert (engineComplete cl uid s) = inert s := by
  unfold engineComplete
  grind [inert_attempt, inert_outcomeOf, inert_clearBad, inert_freeBanks, inert_setSt, inert_drainOwned, inert_leaveQueue, inert_cutSill]

end Sys2Proof.Machine
end

section
/-! SUPPORT. What no command changes (16 R555; 95 What each step holds), whatever the memories hold: the packets. -/

namespace Sys2Proof.Machine

/-! Machine/HostCore.lean. -/

theorem inert_fin {r s} : inert (fin r s).1 = inert s := rfl
theorem inert_stopAt {st a s} : inert (stopAt st a s).1 = inert s := rfl
theorem inert_going {s} : inert (going s).1 = inert s := rfl
theorem inert_deferOp {s} : inert (deferOp s).1 = inert s := rfl

theorem inert_opCtxCreate {q e s} : inert (opCtxCreate q e s).1 = inert s := by
  unfold opCtxCreate
  grind [inert_fin, inert_deferOp, inert_putCtx]

theorem inert_opCtxDestroy {q e s} : inert (opCtxDestroy q e s).1 = inert s := by
  unfold opCtxDestroy
  grind [inert_fin, inert_discardReq, inert_deferOp, inert_going, inert_forEach, inert_updCtx, inert_tearDown]

theorem inert_opCtxPriority {q e s} : inert (opCtxPriority q e s).1 = inert s := by
  unfold opCtxPriority
  grind [inert_arbitrate, inert_fin, inert_updCtx]

theorem inert_opCtxMigrate {q e s} : inert (opCtxMigrate q e s).1 = inert s := by
  unfold opCtxMigrate
  grind [inert_fin, inert_requestPreempt, inert_deferOp, inert_going, inert_forEach, inert_updCtx]

theorem inert_bumpEpoch {c a s} : inert (bumpEpoch c a s).1 = inert s := by
  unfold bumpEpoch
  grind [inert_vaRead, inert_vaPut]

theorem inert_migMove {c s} : inert (migMove c s) = inert s := by
  unfold migMove
  grind [inert_bumpEpoch, inert_updCtx, inert_foldl_fst]

theorem inert_migDone {c s} : inert (migDone c s) = inert s := by
  unfold migDone
  grind [inert_completeEntry, inert_updCtx]

theorem inert_migGo {c s} : inert (migGo c s) = inert s := by
  unfold migGo
  grind [inert_requestPreempt, inert_migDone, inert_forEach, inert_migMove]

theorem inert_opQueueCreate {q e s} : inert (opQueueCreate q e s).1 = inert s := by
  unfold opQueueCreate
  grind [inert_putQueue, inert_fin]

theorem inert_opQueueDestroy {q e s} : inert (opQueueDestroy q e s).1 = inert s := by
  unfold opQueueDestroy
  grind [inert_fin, inert_updEntry, inert_discardEntry, inert_going, inert_updQueue, inert_endWaits, inert_forEach]

theorem inert_opQueueResume {q e s} : inert (opQueueResume q e s).1 = inert s := by
  unfold opQueueResume
  grind [inert_fin, inert_going]

theorem inert_resumeGo {q e s} : inert (resumeGo q e s) = inert s := by
  unfold resumeGo
  grind [inert_completeEntry, inert_updQueue]

theorem inert_destroyGo {q e s} : inert (destroyGo q e s) = inert s := by
  unfold destroyGo
  grind [inert_delQueue, inert_headerSignal, inert_completeEntry, inert_forEach]

theorem inert_opCaseAssign {q e s} : inert (opCaseAssign q e s).1 = inert s := by
  unfold opCaseAssign
  grind [inert_modCas, inert_fin, inert_deferOp]

theorem inert_opCaseRelease {q e s} : inert (opCaseRelease q e s).1 = inert s := by
  unfold opCaseRelease
  grind [inert_modCas, inert_fin]

theorem inert_opNop {q e s} : inert (opNop q e s).1 = inert s := rfl

/-! Machine/HostMem.lean. -/

theorem inert_addAlloc {a s} : inert (addAlloc a s) = inert s := by
  unfold addAlloc
  grind [inert_putAlloc]

theorem inert_allocated {a s} : inert (allocated a s).1 = inert s := by
  unfold allocated
  grind [inert_addAlloc, inert_fin]

theorem inert_opMemAlloc {q e s} : inert (opMemAlloc q e s).1 = inert s := by
  unfold opMemAlloc
  grind [inert_fin, inert_deferOp, inert_allocated]

theorem inert_staleDescs {cs lo hi s} : inert (staleDescs cs lo hi s) = inert s := rfl

theorem inert_opMemFree {q e s} : inert (opMemFree q e s).1 = inert s := by
  unfold opMemFree
  grind [inert_fin, inert_releaseAlloc, inert_staleDescs, inert_deferOp, inert_delAlloc]

theorem inert_opMemMapHost {q e s} : inert (opMemMapHost q e s).1 = inert s := by
  unfold opMemMapHost
  grind [inert_fin, inert_allocated]

theorem inert_fenceNote {q e s} : inert (fenceNote q e s) = inert s := by
  unfold fenceNote
  grind [inert_updEntry]

theorem inert_opMemFence {q e s} : inert (opMemFence q e s).1 = inert s := rfl

theorem inert_fenceGo {q e s} : inert (fenceGo q e s) = inert s := by
  unfold fenceGo
  grind [inert_attempt, inert_completeEntry, inert_forEach, inert_drainStack]

theorem inert_copyOut {c uid dst bs s} : inert (copyOut c uid dst bs s).1 = inert s := by
  unfold copyOut
  grind [inert_stopAt, inert_fin, inert_vaWrite]

theorem inert_opMemCopy {q e s} : inert (opMemCopy q e s).1 = inert s := by
  unfold opMemCopy
  grind [inert_stopAt, inert_fresh, inert_fin, inert_vaRead, inert_copyOut, inert_havocVa]

theorem inert_opMemFill {q e s} : inert (opMemFill q e s).1 = inert s := by
  unfold opMemFill
  grind [inert_fin, inert_copyOut]

theorem inert_scrubWord {wb r a va} : inert (scrubWord wb r a va).1 = inert r.1 := by
  unfold scrubWord
  grind [inert_reachBank, inert_reachStack, inert_countCorr, inert_delHealth, inert_logUe]

theorem inert_drainDramRow {a s} : inert (drainDramRow a s) = inert s := by
  unfold drainDramRow
  grind [inert_drainWhere]

theorem inert_scrubGranule {c wb r va} : inert (scrubGranule c wb r va).1 = inert r.1 := by
  unfold scrubGranule
  grind [inert_scrubWord, inert_foldl_fst, inert_drainDramRow]

theorem inert_opScrubRange {q e s} : inert (opScrubRange q e s).1 = inert s := by
  unfold opScrubRange
  grind [inert_fin, inert_going]

theorem inert_scrubGo {q e s} : inert (scrubGo q e s) = inert s := by
  unfold scrubGo
  grind [inert_attempt, inert_vaWrite, inert_completeEntry, inert_foldl_fst, inert_scrubGranule]

theorem inert_scrubOldest {q s} : inert (scrubOldest q s) = inert s := by
  unfold scrubOldest
  grind [inert_scrubGo]

/-! Machine/HostProg.lean. -/

theorem inert_opDescCreate {q e s} : inert (opDescCreate q e s).1 = inert s := by
  unfold opDescCreate
  grind [inert_fin, inert_putDesc]

theorem inert_opDescDestroy {q e s} : inert (opDescDestroy q e s).1 = inert s := by
  unfold opDescDestroy
  grind [inert_fin, inert_delDesc, inert_putDesc]

theorem inert_dropDead {s} : inert (dropDead s) = inert s := rfl

theorem inert_opProgLoad {q e s} : inert (opProgLoad q e s).1 = inert s := by
  unfold opProgLoad
  grind [inert_stopAt, inert_fin, inert_vaRead, inert_putProg]

theorem inert_opProgRun {q e s} : inert (opProgRun q e s).1 = inert s := by
  unfold opProgRun
  grind [inert_arbitrate, inert_fin, inert_newUid, inert_going, inert_putRun]

theorem inert_opProgUnload {q e s} : inert (opProgUnload q e s).1 = inert s := by
  unfold opProgUnload
  grind [inert_fin, inert_deferOp, inert_delProg]

theorem inert_opSkiplogRead {q e s} : inert (opSkiplogRead q e s).1 = inert s := by
  unfold opSkiplogRead
  grind [inert_stopAt, inert_fin, inert_vaWrite, inert_updCtx]

theorem inert_opLatchAlloc {q e s} : inert (opLatchAlloc q e s).1 = inert s := by
  unfold opLatchAlloc
  grind [inert_fin, inert_putLatch]

theorem inert_wakeCores {l s} : inert (wakeCores l s) = inert s := by
  unfold wakeCores
  grind [inert_modCore, inert_stopRun, inert_forEach]

theorem inert_failCmds {l s} : inert (failCmds l s) = inert s := by
  unfold failCmds
  grind [inert_poisonEnv, inert_stopRun, inert_forEach]

theorem inert_failWaits {l s} : inert (failWaits l s) = inert s := by
  unfold failWaits
  grind [inert_completeEntry, inert_forEach]

theorem inert_evalWaits {l s} : inert (evalWaits l s) = inert s := by
  unfold evalWaits
  grind [inert_noteMet, inert_failCmds, inert_wakeCores, inert_failWaits]

theorem inert_opLatchFree {q e s} : inert (opLatchFree q e s).1 = inert s := by
  unfold opLatchFree
  grind [inert_fin, inert_evalWaits, inert_freeLatch, inert_poisonLatch]

theorem inert_opLatchSignal {q e s} : inert (opLatchSignal q e s).1 = inert s := by
  unfold opLatchSignal
  grind [inert_fin, inert_going]

theorem inert_signalGo {q e s} : inert (signalGo q e s) = inert s := by
  unfold signalGo
  grind [inert_signalLatch, inert_completeEntry]

theorem inert_opLatchWait {q e s} : inert (opLatchWait q e s).1 = inert s := by
  unfold opLatchWait
  grind [inert_fin, inert_going]

theorem inert_waitGo {q e s} : inert (waitGo q e s) = inert s := by
  unfold waitGo
  grind [inert_completeEntry]

theorem inert_opLatchPoison {q e s} : inert (opLatchPoison q e s).1 = inert s := by
  unfold opLatchPoison
  grind [inert_fin, inert_poisonLatch]

theorem inert_opLatchRead {q e s} : inert (opLatchRead q e s).1 = inert s := by
  unfold opLatchRead
  grind [inert_stopAt, inert_fin, inert_vaWrite]

/-! Machine/HostSeq.lean. -/

theorem inert_opSeqOpen {q e s} : inert (opSeqOpen q e s).1 = inert s := by
  unfold opSeqOpen
  extract_lets c pl
  split
  · rfl
  · split
    · rfl
    · split
      · grind [inert_putSeq, inert_fresh, inert_fin, inert_vaPut, inert_reserveSlots, inert_newUid, inert_putCalib]
      · rfl

theorem inert_opSeqCommit {q e s} : inert (opSeqCommit q e s).1 = inert s := by
  unfold opSeqCommit
  grind [inert_fin, inert_deferOp, inert_seqCommitDo]

theorem inert_opSeqDrop {q e s} : inert (opSeqDrop q e s).1 = inert s := by
  unfold opSeqDrop
  grind [inert_writePte, inert_fin, inert_deferOp, inert_updSeq, inert_forEach, inert_freePages]

theorem inert_opSeqClose {q e s} : inert (opSeqClose q e s).1 = inert s := by
  unfold opSeqClose
  grind [inert_closeSeq, inert_fin, inert_deferOp]

/-! Machine/HostReq.lean. -/

theorem inert_opReqSubmit {q e s} : inert (opReqSubmit q e s).1 = inert s := by
  unfold opReqSubmit
  grind [inert_fin, inert_putReq, inert_newUid, inert_deferOp, inert_updSeq, inert_forEach]

theorem inert_opReqCancel {q e s} : inert (opReqCancel q e s).1 = inert s := by
  unfold opReqCancel
  grind [inert_fin, inert_going, inert_updReq]

theorem inert_cancelGo {q e s} : inert (cancelGo q e s) = inert s := by
  unfold cancelGo
  grind [inert_completeEntry]

theorem inert_addJob {j s} : inert (addJob j s) = inert s := by
  unfold addJob
  grind [inert_putJob, inert_newUid]

theorem inert_jobStarted {uid s} : inert (jobStarted uid s).1 = inert s := by
  unfold jobStarted
  grind [inert_fin, inert_going]

theorem inert_startPark {keys ttl leaf q uid req s} : inert (startPark keys ttl leaf q uid req s) = inert s := by
  unfold startPark
  grind [inert_addJob, inert_freePages]

theorem inert_opReqPark {q e s} : inert (opReqPark q e s).1 = inert s := by
  unfold opReqPark
  grind [inert_fin, inert_jobStarted, inert_deferOp, inert_startPark]

theorem inert_startRestore {seqs leaf q uid req s} : inert (startRestore seqs leaf q uid req s) = inert s := by
  unfold startRestore
  grind [inert_addJob]

theorem inert_adoptOne {c q x d s} : inert (adoptOne c q x d s) = inert s := by
  unfold adoptOne
  grind [inert_writePte, inert_putFdir, inert_updPage]

theorem inert_opReqResume {q e s} : inert (opReqResume q e s).1 = inert s := by
  unfold opReqResume
  grind [inert_adoptOne, inert_fin, inert_jobStarted, inert_startRestore, inert_deferOp, inert_updSeq, inert_forEach]

/-! Machine/HostMaint.lean. -/

theorem inert_opSelftest {q e s} : inert (opSelftest q e s).1 = inert s := by
  unfold opSelftest
  grind [inert_modCas, inert_fin, inert_deferOp, inert_going]

theorem inert_havocWindow {st s} : inert (havocWindow st s) = inert s := rfl

theorem inert_zeroBanks {bs s} : inert (zeroBanks bs s) = inert s := by
  unfold zeroBanks
  grind [inert_onStackMem, inert_onHealth, inert_forEach]

theorem inert_selftestDone {k res s} : inert (selftestDone k res s) = inert s := by
  unfold selftestDone
  grind [inert_modCas, inert_havocWindow, inert_busWrite, inert_completeEntry, inert_zeroBanks]

theorem inert_dropTest {k s} : inert (dropTest k s) = inert s := by
  unfold dropTest
  grind [inert_modCas, inert_havocWindow, inert_setDone, inert_fresh, inert_busWrite, inert_zeroBanks]

theorem inert_eccDo {q e s} : inert (eccDo q e s).1 = inert s := by
  unfold eccDo
  grind [inert_fin, inert_busWrite, inert_putWindow, inert_logUeAt, inert_countCorr, inert_reachBank]

theorem inert_opEccTest {q e s} : inert (opEccTest q e s).1 = inert s := by
  unfold opEccTest
  grind [inert_eccDo, inert_fin, inert_deferOp, inert_going]

theorem inert_eccGo {q e s} : inert (eccGo q e s) = inert s := by
  unfold eccGo
  grind [inert_attempt, inert_eccDo, inert_completeEntry]

theorem inert_opLinkCalib {q e s} : inert (opLinkCalib q e s).1 = inert s := by
  unfold opLinkCalib
  grind [inert_modPort, inert_updEntry, inert_going, inert_forEach]

theorem inert_calibGo {q e s} : inert (calibGo q e s) = inert s := by
  unfold calibGo
  grind [inert_completeEntry]

theorem inert_opPwrSetLimit {q e s} : inert (opPwrSetLimit q e s).1 = inert s := by
  unfold opPwrSetLimit
  grind [inert_fin, inert_onLvr]

theorem inert_opPwrRead {q e s} : inert (opPwrRead q e s).1 = inert s := by
  unfold opPwrRead
  grind [inert_fin, inert_busWrite]

/-! Machine/HostFab.lean. -/

theorem inert_sendAsk {dst fields s} : inert (sendAsk dst fields s) = inert s := by
  unfold sendAsk
  grind [inert_onFab, inert_sendMsg]

theorem inert_answered {dst code s} : inert (answered dst code s) = inert s := rfl

theorem inert_sendAll {fields s} : inert (sendAll fields s) = inert s := by
  unfold sendAll
  grind [inert_sendMsg, inert_forEach]

theorem inert_fabAnswer {r s} : inert (fabAnswer r s) = inert s := by
  unfold fabAnswer
  grind [inert_onFab, inert_completeEntry]

theorem inert_retrainAll {s} : inert (retrainAll s) = inert s := by
  unfold retrainAll
  grind [inert_forEach, inert_setPort]

theorem inert_applyCompat {s} : inert (applyCompat s) = inert s := by
  unfold applyCompat
  grind [inert_onDev, inert_retrainAll]

theorem inert_leaveGroup {s} : inert (leaveGroup s) = inert s := by
  unfold leaveGroup
  grind [inert_applyCompat, inert_onFab, inert_onPlan, inert_onLvr]

theorem inert_dropPlans {s} : inert (dropPlans s) = inert s := rfl
theorem inert_endGrace {gen s} : inert (endGrace gen s) = inert s := rfl

theorem inert_planRoom {n n' s} : inert (planRoom n n' s) = inert s := by
  induction n' generalizing n s with
  | zero => grind [planRoom]
  | succ n' ih => grind [planRoom, inert_endGrace]

theorem inert_installPlans {gen level l s} : inert (installPlans gen level l s) = inert s := by
  unfold installPlans
  grind [inert_onFab, inert_planRoom, inert_onPlan, inert_forEach, inert_putPlan]

theorem inert_writeJoin {team s} : inert (writeJoin team s) = inert s := by
  unfold writeJoin
  grind [inert_busWrite]

theorem inert_holdAnnounce {m s} : inert (holdAnnounce m s) = inert s := rfl

theorem inert_refuseJoin {r mver ver s} : inert (refuseJoin r mver ver s) = inert s := by
  unfold refuseJoin
  grind [inert_onFab, inert_fabAnswer, inert_sendMsgV]

theorem inert_lintelChange {r s} : inert (lintelChange r s) = inert s := rfl

theorem inert_commitGroup {m s} : inert (commitGroup m s) = inert s := by
  unfold commitGroup
  grind [inert_onFab, inert_fabAnswer, inert_writeJoin, inert_answered, inert_installPlans, inert_identAll, inert_lintelChange]

theorem inert_tryForm {s} : inert (tryForm s) = inert s := by
  unfold tryForm
  grind [inert_commitGroup, inert_forEach, inert_sendMsgV, inert_refuseJoin]

theorem inert_startJoin {q uid pl s} : inert (startJoin q uid pl s) = inert s := by
  unfold startJoin
  grind [inert_onFab, inert_holdAnnounce, inert_sendMsg, inert_tryForm, inert_identAll]

theorem inert_takePlans {m s} : inert (takePlans m s) = inert s := by
  unfold takePlans
  grind [inert_fabAnswer, inert_writeJoin, inert_answered, inert_installPlans]

theorem inert_rebuildPlans {level s} : inert (rebuildPlans level s) = inert s := by
  unfold rebuildPlans
  grind [inert_takePlans, inert_sendAll]

theorem inert_addTeam {r c s} : ∀ t u, addTeam r c s = some (t, u) → inert u = inert s := by
  unfold addTeam
  grind [inert_onFab, inert_sendAll, inert_takePlans]

theorem inert_opFabJoin {q e s} : inert (opFabJoin q e s).1 = inert s := by
  unfold opFabJoin
  grind [inert_stopAt, inert_onFab, inert_rebuildPlans, inert_sendAsk, inert_fin, inert_busWrite, inert_startJoin, inert_deferOp, inert_going,
    inert_addTeam]

theorem inert_opFabLeave {q e s} : inert (opFabLeave q e s).1 = inert s := by
  unfold opFabLeave
  grind [inert_fin, inert_going]

theorem inert_leaveGo {q e s} : inert (leaveGo q e s) = inert s := by
  unfold leaveGo
  grind [inert_onFab, inert_leaveGroup, inert_sendAsk, inert_completeEntry, inert_sendAll, inert_lintelChange]

theorem inert_opFabStatus {q e s} : inert (opFabStatus q e s).1 = inert s := by
  unfold opFabStatus
  grind [inert_fin, inert_busWrite]

end Sys2Proof.Machine
end

section
/-! SUPPORT. What no command changes (16 R555; 95 What each step holds), whatever the memories hold: the queues as they are served, bank sets and runs. -/

namespace Sys2Proof.Machine

/-! Machine/Moves.lean. -/

theorem inert_toLintel {own} (h : ∀ s, inert (own s) = inert s) {fields s} : inert (toLintel fields own s) = inert s := by
  unfold toLintel
  grind [inert_sendMsg]

theorem inert_commitPlace {k fromStep s} : inert (commitPlace k fromStep s) = inert s := by
  unfold commitPlace
  grind [inert_modCas, inert_vaPut]

theorem inert_abortPlace {k s} : inert (abortPlace k s) = inert s := rfl
theorem inert_releasePlace {k s} : inert (releasePlace k s) = inert s := rfl

theorem inert_givePlace {r k s} : inert (givePlace r k s) = inert s := by
  unfold givePlace
  grind [inert_onFab, inert_sendAsk]

theorem inert_stageAnswered {k q s} : inert (stageAnswered k q s) = inert s := rfl

theorem inert_tryCommit {k s} : inert (tryCommit k s) = inert s := by
  unfold tryCommit
  grind [inert_onFab, inert_givePlace, inert_commitPlace, inert_sendAll, inert_forEach]

theorem inert_tryRelease {k s} : inert (tryRelease k s) = inert s := by
  unfold tryRelease
  grind [inert_onFab, inert_sendAll, inert_releasePlace]

theorem inert_recheckMoves {s} : inert (recheckMoves s) = inert s := by
  unfold recheckMoves
  grind [inert_forEach, inert_tryRelease, inert_tryCommit]

theorem inert_gotStaged {rank k cur s} : inert (gotStaged rank k cur s) = inert s := by
  unfold gotStaged
  grind [inert_onFab, inert_sendMsg, inert_stageAnswered, inert_tryCommit]

theorem inert_gotReport {rank k step epoch want s} : inert (gotReport rank k step epoch want s) = inert s := by
  unfold gotReport
  grind [inert_onFab, inert_tryRelease]

theorem inert_stageTimeout {k s} : inert (stageTimeout k s) = inert s := by
  unfold stageTimeout
  grind [inert_onFab, inert_abortPlace, inert_stageAnswered, inert_sendAll]

theorem inert_stageGo {k s} : inert (stageGo k s) = inert s := by
  unfold stageGo
  grind [inert_modCas, inert_vaPut, inert_gotStaged, inert_forEach, inert_toLintel]

theorem inert_takeStage {m s} : inert (takeStage m s) = inert s := by
  unfold takeStage
  grind [inert_modCas, inert_onFab, inert_stageGo, inert_sendAsk, inert_forEach]

theorem inert_memberLost {r s} : inert (memberLost r s) = inert s := rfl

theorem inert_declareLost {r s} : inert (declareLost r s) = inert s := by
  unfold declareLost
  grind [inert_memberLost, inert_onFab, inert_rebuildPlans, inert_recheckMoves, inert_sendAll]

theorem inert_gotLinks {src r down s} : inert (gotLinks src r down s) = inert s := by
  unfold gotLinks
  grind [inert_onFab, inert_declareLost]

theorem inert_reportLinks {s} : inert (reportLinks s) = inert s := by
  unfold reportLinks
  grind [inert_onFab, inert_gotLinks, inert_sendMsg, inert_forEach]

/-! Machine/Start.lean. -/

theorem inert_takePayload {q e s} : inert (takePayload q e s).1 = inert s := by
  unfold takePayload
  grind [inert_vaRead]

/-- The operation of a packet row leaves the fuses and the waiting commands as they are. -/
theorem inert_opFor {o f} (row : opFor o = some f) : ∀ q e s, inert (f q e s).1 = inert s := by
  have each : ∀ p ∈ opTable, ∀ q e s, inert (p.2 q e s).1 = inert s := by
    simp only [opTable, List.forall_mem_append, List.forall_mem_cons, List.not_mem_nil, false_implies, implies_true, and_true]
    exact ⟨⟨@inert_opNop, @inert_opCtxCreate, @inert_opCtxDestroy, @inert_opQueueCreate, @inert_opQueueDestroy, @inert_opQueueResume,
      @inert_opCaseAssign, @inert_opCaseRelease, @inert_opCtxMigrate, @inert_opCtxPriority, @inert_opMemAlloc, @inert_opMemFree, @inert_opMemMapHost,
      @inert_opMemFence, @inert_opMemCopy, @inert_opMemFill, @inert_opDescCreate, @inert_opDescDestroy, @inert_opProgLoad, @inert_opProgRun,
      @inert_opProgUnload, @inert_opSkiplogRead, @inert_opLatchAlloc, @inert_opLatchFree, @inert_opLatchSignal, @inert_opLatchWait,
      @inert_opLatchPoison, @inert_opLatchRead⟩, @inert_opSeqOpen, @inert_opSeqCommit, @inert_opSeqDrop, @inert_opSeqClose, @inert_opReqSubmit,
      @inert_opReqCancel, @inert_opReqPark, @inert_opReqResume, @inert_opScrubRange, @inert_opSelftest, @inert_opEccTest, @inert_opLinkCalib,
      @inert_opFabJoin, @inert_opFabLeave, @inert_opFabStatus, @inert_opPwrSetLimit, @inert_opPwrRead⟩
  simp only [opFor, Option.map_eq_some_iff] at row
  obtain ⟨p, hp, rfl⟩ := row
  exact each p (List.mem_of_find?_eq_some hp)

theorem inert_beginEntry {q e s} : inert (beginEntry q e s).1 = inert s := by
  unfold beginEntry
  grind [inert_updEntry, inert_takePayload, inert_trace]

theorem inert_endOp {q uid r} : inert (endOp q uid r) = inert r.1 := by
  unfold endOp
  grind [inert_completeEntry]

theorem inert_startEntry {q e s} : inert (startEntry q e s) = inert s := by
  unfold startEntry
  refine inert_attempt _ fun s => ?_
  have begun := inert_beginEntry (q := q) (e := e) (s := s)
  split
  · rw [inert_completeEntry]; rwa [‹beginEntry q e s = _›] at begun
  · rw [‹beginEntry q e s = _›] at begun
    split
    · exact begun
    · rw [inert_endOp, inert_opFor ‹_›, inert_updEntry, begun]

theorem inert_pumpOne {q s} : ∀ t, pumpOne q s = some t → inert t = inert s := by
  intro t
  unfold pumpOne
  split
  · nofun
  · split
    · nofun
    · extract_lets before hw
      grind [inert_completeEntry, inert_fenceNote, inert_updEntry, inert_startEntry]

theorem inert_pumpGo {q n s} : inert (pumpGo q n s) = inert s := by
  induction n generalizing q s with
  | zero => grind [pumpGo]
  | succ n ih => grind [pumpGo, inert_pumpOne]

theorem inert_pump {q s} : inert (pump q s) = inert s := by
  unfold pump
  grind [inert_pumpGo]

theorem inert_goOn {q e s} : inert (goOn q e s) = inert s := by
  unfold goOn
  grind [inert_resumeGo, inert_destroyGo, inert_fenceGo, inert_signalGo, inert_leaveGo, inert_calibGo, inert_cancelGo, inert_waitGo, inert_eccGo]

theorem inert_destroyDone {c s} : inert (destroyDone c s) = inert s := by
  unfold destroyDone
  grind [inert_completeEntry, inert_freeCtx]

theorem inert_settle {s} : inert (settle s) = inert s := by
  unfold settle
  grind [inert_arbitrate, inert_stageGo, inert_destroyDone, inert_sinkRows, inert_dropPlans, inert_goOn, inert_endSeq, inert_dropDead, inert_forEach,
    inert_collPumpAll, inert_migGo]

theorem inert_pumpLoop {n s} : inert (pumpLoop n s) = inert s := by
  induction n generalizing s with
  | zero => grind [pumpLoop]
  | succ n ih => grind [pumpLoop, inert_settle, inert_pump, inert_forEach]

theorem inert_pumpAll {s} : inert (pumpAll s) = inert s := by
  unfold pumpAll
  grind [inert_servePorts, inert_pumpLoop, inert_reportLinks]

/-! Machine/Banks.lean. -/

theorem inert_apReply {f bs poisoned s} : inert (apReply f bs poisoned s) = inert s := rfl

theorem inert_serveAcc {r s} : inert (serveAcc r s) = inert s := by
  unfold serveAcc
  grind [inert_stWrite, inert_stRead, inert_apReply]

theorem inert_serveHost {n u s} : inert (serveHost n u s) = inert s := by
  unfold serveHost
  grind [inert_modBank, inert_forEach, inert_serveAcc]

theorem inert_serveDue {n u s} : inert (serveDue n u s) = inert s := by
  unfold serveDue
  grind [inert_drainMerge, inert_forEach, inert_drainLine]

theorem inert_serveIdle {s} : inert (serveIdle s) = inert s := by
  unfold serveIdle
  grind [inert_serveHost, inert_serveDue, inert_modBank, inert_forEach]

theorem inert_apRead {f win off len s} : inert (apRead f win off len s) = inert s := by
  unfold apRead
  grind [inert_modBank, inert_farRead, inert_setApwErr, inert_serveAcc, inert_apReply, inert_wakeFor]

theorem inert_apWrite {f win off bs s} : inert (apWrite f win off bs s) = inert s := by
  unfold apWrite
  grind [inert_modBank, inert_vaWrite, inert_setApwErr, inert_stWrite, inert_wakeFor]

theorem inert_startRefresh {u s} : inert (startRefresh u s) = inert s := rfl

theorem inert_rowsLand {u s} : inert (rowsLand u s) = inert s := by
  unfold rowsLand
  grind [inert_sillYield]

theorem inert_yieldServe {u s} : inert (yieldServe u s) = inert s := by
  unfold yieldServe
  grind [inert_serveHost, inert_serveDue, inert_modBank]

theorem inert_burstYield {u s} : inert (burstYield u s) = inert s := by
  unfold burstYield
  grind [inert_yieldServe, inert_startRefresh, inert_rowsLand]

theorem inert_refreshDone {u s} : inert (refreshDone u s) = inert s := by
  unfold refreshDone
  grind [inert_yieldServe, inert_modBank, inert_rowsLand, inert_serveIdle]

theorem inert_patrolWord {a s} : inert (patrolWord a s) = inert s := by
  unfold patrolWord
  grind [inert_delHealth, inert_logUe, inert_countCorr]

theorem inert_patrolRow {st s} : inert (patrolRow st s) = inert s := by
  unfold patrolRow
  grind [inert_drainDramRow, inert_patrolWord, inert_forEach, inert_reachBank, inert_modEcc]

theorem inert_havocCluster {n s} : inert (havocCluster n s) = inert s := by
  unfold havocCluster
  grind [inert_fresh, inert_onSharedMem, inert_onBadWords, inert_havocTiles, inert_onTileMem, inert_onLocalMem]

theorem inert_quietBanks {n s} : inert (quietBanks n s) = inert s := rfl

theorem inert_havocStores {n s} : inert (havocStores n s) = inert s := by
  unfold havocStores
  grind [inert_fresh, inert_modOpStore, inert_modAccStore, inert_forEach]

theorem inert_gate {u s} : inert (gate u s) = inert s := by
  unfold gate
  grind [inert_quietBanks, inert_havocCluster, inert_havocStores, inert_onGated, inert_drainStack]

/-! Machine/Packets.lean. -/

theorem inert_ringBell {f off a n g s} : inert (ringBell f off a n g s) = inert s := by
  unfold ringBell
  grind [inert_setDbErrFn, inert_setDbErrQ, inert_updQueue]

theorem inert_packet {op q h pl s} : inert (packet op q h pl s) = inert s := by
  unfold packet
  grind [inert_attempt, inert_pump, inert_pumpAll, inert_fetchPacket]

/-! Machine/Runs.lean. -/

theorem inert_endRun {r x res a s} : inert (endRun r x res a s) = inert s := by
  unfold endRun
  grind [inert_modCas, inert_modCore, inert_completeEntry, inert_releaseRun, inert_spoilRun, inert_forEach]

theorem inert_runComplete {r s} : inert (runComplete r s) = inert s := by
  unfold runComplete
  grind [inert_writeDump, inert_endRun]

theorem inert_saveArmed {r x keep s} : inert (saveArmed r x keep s) = inert s := by
  unfold saveArmed
  grind [inert_onArmed, inert_forEach, inert_sillWrite]

theorem inert_loadArmed {r s} : inert (loadArmed r s) = inert s := by
  unfold loadArmed
  grind [inert_sillRead, inert_fresh, inert_onArmed, inert_foldl_fst]

theorem inert_hingeReached {r s} : inert (hingeReached r s) = inert s := by
  unfold hingeReached
  grind [inert_saveArmed, inert_endRun, inert_updRun]

end Sys2Proof.Machine
end

section
/-! SUPPORT. What no command changes (16 R555; 95 What each step holds), whatever the memories hold: heat and power, the fabric, and serving. -/

namespace Sys2Proof.Machine

/-! Machine/Thermal.lean. -/

theorem inert_sampleSite {r s} : inert (sampleSite r s) = inert s := by
  unfold sampleSite
  grind [inert_onTherm, inert_devEvent]

theorem inert_refreshRate {st s} : inert (refreshRate st s) = inert s := by
  unfold refreshRate
  grind [inert_onTherm]

theorem inert_faultInput {i s} : inert (faultInput i s) = inert s := by
  unfold faultInput
  grind [inert_onTherm, inert_devEvent]

theorem inert_sensorSample {rs faulty s} : inert (sensorSample rs faulty s) = inert s := by
  unfold sensorSample
  grind [inert_faultInput, inert_onTherm, inert_refreshRate, inert_sampleSite, inert_forEach]

theorem inert_sendNotice {n dsts s} : inert (sendNotice n dsts s) = inert s := by
  unfold sendNotice
  grind [inert_sendFlit, inert_forEach]

theorem inert_sendOwn {s} : inert (sendOwn s) = inert s := by
  unfold sendOwn
  grind [inert_servePorts, inert_sendNotice, inert_forEach]

theorem inert_noticeUpdate {s} : inert (noticeUpdate s) = inert s := by
  unfold noticeUpdate
  grind [inert_onFab, inert_sendOwn]

theorem inert_forwardNotice {n s} : inert (forwardNotice n s) = inert s := by
  unfold forwardNotice
  grind [inert_servePorts, inert_sendNotice]

theorem inert_slowNotice {n s} : inert (slowNotice n s) = inert s := by
  unfold slowNotice
  grind [inert_onFab, inert_forwardNotice, inert_relimit]

theorem inert_writeStep {u st s} : inert (writeStep u st s) = inert s := by
  unfold writeStep
  grind [inert_trace, inert_onLvr]

theorem inert_controlStep {draw fixed load s} : inert (controlStep draw fixed load s) = inert s := by
  unfold controlStep
  grind [inert_onTherm, inert_onLvr, inert_noticeUpdate, inert_forEach, inert_writeStep]

theorem inert_floorEngage {avg s} : inert (floorEngage avg s) = inert s := by
  unfold floorEngage
  grind [inert_onLvr, inert_noticeUpdate]

theorem inert_floorRelease {avg s} : inert (floorRelease avg s) = inert s := by
  unfold floorRelease
  grind [inert_onLvr, inert_noticeUpdate]

theorem inert_cutTile {uid tl s} : inert (cutTile uid tl s) = inert s := by
  unfold cutTile
  grind [inert_havocAcc]

theorem inert_cutFlying {cl e s} : inert (cutFlying cl e s) = inert s := by
  unfold cutFlying
  grind [inert_settleWrites, inert_poisonEnv, inert_freeBanks, inert_cutTile, inert_undefWrites, inert_forEach, inert_collStop, inert_cutSill,
    inert_tileTake]

theorem inert_stopFlying {cl s} : inert (stopFlying cl s) = inert s := by
  unfold stopFlying
  grind [inert_modCore, inert_forEach, inert_cutFlying]

theorem inert_tripRun {r s} : inert (tripRun r s) = inert s := by
  unfold tripRun
  grind [inert_cutRun, inert_endRun]

theorem inert_darkPort {p s} : inert (darkPort p s) = inert s := by
  unfold darkPort
  grind [inert_modPort, inert_setPort]

theorem inert_dropGroup {s} : inert (dropGroup s) = inert s := by
  unfold dropGroup
  grind [inert_leaveGroup, inert_fabAnswer]

theorem inert_thermalTrip {site s} : inert (thermalTrip site s) = inert s := by
  unfold thermalTrip
  grind [inert_darkPort, inert_stopFlying, inert_onDev, inert_dropGroup, inert_gate, inert_onTherm, inert_devEvent, inert_tripRun, inert_sampleSite,
    inert_onPin, inert_forEach, inert_pumpAll]

theorem inert_endTrip {s} : inert (endTrip s) = inert s := by
  unfold endTrip
  grind [inert_onDev, inert_onTherm, inert_onLvr, inert_noticeUpdate, inert_onPin]

/-! Machine/Fabric.lean. -/

theorem inert_negotiated {p peer s} : inert (negotiated p peer s) = inert s := by
  unfold negotiated
  grind [inert_modPort, inert_noticeUpdate, inert_setPort]

theorem inert_laneFail {p lane s} : inert (laneFail p lane s) = inert s := by
  unfold laneFail
  grind [inert_modPort, inert_darkPort, inert_noticeUpdate]

theorem inert_takeMsg {fl s} : inert (takeMsg fl s) = inert s := by
  unfold takeMsg
  grind [inert_onFab, inert_gotLinks, inert_answered]

theorem inert_takeArrival {p fl s} : inert (takeArrival p fl s) = inert s := by
  unfold takeArrival
  grind [inert_flitIn, inert_sendFlit, inert_takeMsg, inert_wakeFor]

theorem inert_flitReceive {p m s} : inert (flitReceive p m s) = inert s := by
  unfold flitReceive
  grind [inert_modPort, inert_portAck, inert_takeArrival, inert_linkSend]

theorem inert_replayPort {p fails held s} : inert (replayPort p fails held s) = inert s := by
  unfold replayPort
  grind [inert_modPort, inert_sendFlit, inert_forEach, inert_onOut, inert_setPort]

theorem inert_negativeAck {p seq s} : inert (negativeAck p seq s) = inert s := by
  unfold negativeAck
  grind [inert_replayPort]

theorem inert_laneCalibrated {p lane s} : inert (laneCalibrated p lane s) = inert s := by
  unfold laneCalibrated
  grind [inert_modPort, inert_updEntry]

theorem inert_peerLost {src lost s} : inert (peerLost src lost s) = inert s := by
  unfold peerLost
  grind [inert_onFab, inert_declareLost]

theorem inert_stepTimeout {uid s} : inert (stepTimeout uid s) = inert s := by
  unfold stepTimeout
  grind [inert_sendMsg, inert_collTimeout, inert_peerLost, inert_forEach]

theorem inert_joinFails {s} : inert (joinFails s) = inert s := by
  unfold joinFails
  grind [inert_leaveGroup, inert_fabAnswer]

theorem inert_rejoin {m s} : inert (rejoin m s) = inert s := by
  unfold rejoin
  grind [inert_onFab, inert_rebuildPlans, inert_holdAnnounce, inert_givePlace, inert_forEach, inert_sendMsgV, inert_refuseJoin]

theorem inert_joinAnnounce {m s} : inert (joinAnnounce m s) = inert s := by
  unfold joinAnnounce
  grind [inert_holdAnnounce, inert_tryForm, inert_rejoin, inert_sendMsgV, inert_refuseJoin]

theorem inert_announceAgain {s} : inert (announceAgain s) = inert s := by
  unfold announceAgain
  grind [inert_onFab, inert_sendMsg]

theorem inert_joinRefuse {ver s} : inert (joinRefuse ver s) = inert s := by
  unfold joinRefuse
  grind [inert_leaveGroup, inert_fabAnswer, inert_answered]

theorem inert_beatOn {s} : inert (beatOn s) = inert s := by
  unfold beatOn
  grind [inert_servePorts, inert_sendVia, inert_forEach]

theorem inert_turnTo {r s} : inert (turnTo r s) = inert s := by
  unfold turnTo
  grind [inert_onFab, inert_sendAsk, inert_answered]

theorem inert_resumeMove {k s} : inert (resumeMove k s) = inert s := by
  unfold resumeMove
  grind [inert_onFab, inert_abortPlace, inert_commitPlace, inert_sendAll, inert_tryRelease]

theorem inert_trySucceed {s} : inert (trySucceed s) = inert s := by
  unfold trySucceed
  grind [inert_onFab, inert_sendAll, inert_forEach, inert_resumeMove, inert_lintelChange]

theorem inert_lintelLost {s} : inert (lintelLost s) = inert s := by
  unfold lintelLost
  grind [inert_turnTo, inert_onFab, inert_fabAnswer, inert_trySucceed]

theorem inert_powerShareSend {s} : inert (powerShareSend s) = inert s := by
  unfold powerShareSend
  grind [inert_sendMsg, inert_onLvr, inert_forEach]

/-! Machine/Serving.lean. -/

theorem inert_parkReq {id r s} : inert (parkReq id r s) = inert s := by
  unfold parkReq
  grind [inert_finishReq, inert_startPark]

theorem inert_endReq {st cause id t s} : inert (endReq st cause id t s) = inert s := by
  unfold endReq
  grind [inert_closeSeq, inert_finishReq, inert_forEach, inert_updReq, inert_parkReq]

theorem inert_takeToken {id tok t s} : inert (takeToken id tok t s) = inert s := by
  unfold takeToken
  grind [inert_endReq, inert_vaPut, inert_updReq]

theorem inert_sampleRow {c id a k t s} : inert (sampleRow c id a k t s) = inert s := by
  unfold sampleRow
  grind [inert_fresh, inert_takeToken, inert_discardReq, inert_vaRead]

theorem inert_rowDone {c k t ca row s} : inert (rowDone c k t ca row s) = inert s := by
  unfold rowDone
  grind [inert_endReq, inert_discardReq, inert_sampleRow, inert_seqCommitDo, inert_forEach, inert_updReq]

theorem inert_stepDone {k c v st t s} : inert (stepDone k c v st t s) = inert s := by
  unfold stepDone
  grind [inert_modCas, inert_discardReq, inert_rowDone, inert_forEach]

theorem inert_resumed {id t s} : inert (resumed id t s) = inert s := by
  unfold resumed
  grind [inert_endReq, inert_updReq]

theorem inert_reserveReq {r s} : inert (reserveReq r s).2 = inert s := by
  unfold reserveReq
  grind [inert_seqCommitDo, inert_foldl_snd]

theorem inert_autopark {k c ttl s} : inert (autopark k c ttl s) = inert s := by
  unfold autopark
  grind [inert_startPark]

theorem inert_admitReq {k c v id s} : inert (admitReq k c v id s) = inert s := by
  unfold admitReq
  grind [inert_autopark, inert_startRestore, inert_reserveReq, inert_updReq]

theorem inert_startStep {k c v rows s} : inert (startStep k c v rows s) = inert s := by
  unfold startStep
  grind [inert_modCas, inert_arbitrate, inert_vaPut, inert_newUid, inert_forEach, inert_updReq, inert_putRun]

theorem inert_boundary {k c s} : inert (boundary k c s) = inert s := by
  unfold boundary
  grind [inert_modCas, inert_startStep, inert_stepDone, inert_endReq, inert_discardReq, inert_admitReq, inert_resumed, inert_forEach]

theorem inert_jobEnd {j expired s} : inert (jobEnd j expired s) = inert s := by
  unfold jobEnd
  grind [inert_finishReq, inert_delJob, inert_completeEntry, inert_updReq]

theorem inert_jobNext {j done s} : inert (jobNext j done s) = inert s := by
  unfold jobNext
  grind [inert_updJob, inert_jobEnd]

theorem inert_jobPhase {j n s} : inert (jobPhase j n s) = inert s := rfl
theorem inert_markTrace {leaf i mark s} : inert (markTrace leaf i mark s) = inert s := rfl

theorem inert_parkBegin {j x i p s} : inert (parkBegin j x i p s) = inert s := by
  unfold parkBegin
  grind [inert_putFdir, inert_markTrace, inert_jobNext, inert_jobPhase]

theorem inert_parkCopy {j x i p d s} : inert (parkCopy j x i p d s) = inert s := by
  unfold parkCopy
  grind [inert_delFdir, inert_farWrite, inert_stRead, inert_markTrace, inert_jobNext, inert_jobPhase]

theorem inert_parkMove {j i p d s} : inert (parkMove j i p d s) = inert s := by
  unfold parkMove
  grind [inert_writePte, inert_updPage, inert_giveUp, inert_jobNext]

theorem inert_parkStep {j x s} : inert (parkStep j x s) = inert s := by
  unfold parkStep
  grind [inert_parkBegin, inert_delFdir, inert_parkCopy, inert_putFdir, inert_parkMove, inert_jobEnd, inert_markTrace, inert_jobNext, inert_jobPhase]

theorem inert_restoreBegin {j x i p s} : inert (restoreBegin j x i p s) = inert s := by
  unfold restoreBegin
  grind [inert_putFdir, inert_jobEnd, inert_markTrace, inert_jobNext, inert_jobPhase]

theorem inert_restoreCopy {j x i p d s} : inert (restoreCopy j x i p d s) = inert s := by
  unfold restoreCopy
  grind [inert_updJob, inert_putFdir, inert_drainOwned, inert_farRead, inert_stWrite, inert_markTrace, inert_jobNext, inert_jobPhase]

theorem inert_restoreStep {j x s} : inert (restoreStep j x s) = inert s := by
  unfold restoreStep
  grind [inert_delFdir, inert_writePte, inert_updPage, inert_jobEnd, inert_restoreCopy, inert_markTrace, inert_jobNext, inert_jobPhase,
    inert_restoreBegin]

theorem inert_expirePage {i s} : inert (expirePage i s) = inert s := by
  unfold expirePage
  grind [inert_delFdir, inert_writePte, inert_delPage, inert_updPage]

theorem inert_parkFromRec {i d s} : inert (parkFromRec i d s) = inert s := by
  unfold parkFromRec
  grind [inert_writePte, inert_putFdir, inert_giveUp, inert_putPage]

theorem inert_walkRec {i d s} : inert (walkRec i d s) = inert s := by
  unfold walkRec
  grind [inert_delFdir, inert_parkFromRec]

theorem inert_serviceCheck {s} : inert (serviceCheck s) = inert s := by
  unfold serviceCheck
  grind [inert_onDev]

theorem inert_layFar {s} : inert (layFar s) = inert s := by
  unfold layFar
  grind [inert_onFarBad, inert_onFarMem]

end Sys2Proof.Machine
end

section
/-! SUPPORT. What no command changes (16 R555; 95 What each step holds), whatever the memories hold: firmware, resets and registers. -/

namespace Sys2Proof.Machine

/-! Machine/Firmware.lean. -/

theorem inert_replyWait {st s} : inert (replyWait st s).2 = inert s := rfl

theorem inert_answer {f p m ver r s} : inert (answer f p m ver r s) = inert s := by
  unfold answer
  grind [inert_onMbxBuf, inert_modMbx, inert_msix]

theorem inert_answerBusy {f p s} : inert (answerBusy f p s) = inert s := by
  unfold answerBusy
  grind [inert_answer, inert_replyWait]

theorem inert_mbxBell {f p seq s} : inert (mbxBell f p seq s) = inert s := by
  unfold mbxBell
  grind [inert_modMbx, inert_answerBusy]

theorem inert_serve {act} (h : ∀ m s, inert (act m s).2 = inert s) {ty pf len f p s} : inert (serve ty pf len f p act s) = inert s := by
  unfold serve
  grind [inert_answer, inert_pumpAll]

theorem inert_setSlot {sl st s} : inert (setSlot sl st s) = inert s := rfl
theorem inert_addWork {w s} : inert (addWork w s) = inert s := rfl

theorem inert_planRestarts {l s} : inert (planRestarts l s) = inert s := by
  unfold planRestarts
  grind [inert_onFw, inert_modProc]

theorem inert_applyConfig {s} : inert (applyConfig s) = inert s := by
  unfold applyConfig
  extract_lets m c absent
  split
  · exact inert_onFar.trans inert_onCas
  · split
    · exact inert_trace.trans (inert_onFar.trans inert_onCas)
    · exact inert_onFar.trans inert_onCas

theorem inert_svcConfig {f b s} : inert (svcConfig f b s).2 = inert s := by
  unfold svcConfig
  iterate 6 refine inert_ite_snd rfl ?_
  grind [inert_modCas, inert_boundary, inert_replyWait, inert_onLvr]

theorem inert_workWrite {w a bs s} : inert (workWrite w a bs s) = inert s := by
  unfold workWrite
  grind [inert_busWrite]

theorem inert_stageDone {w flashOk s} : inert (stageDone w flashOk s) = inert s := by
  unfold stageDone
  grind [inert_fresh, inert_onFw, inert_trace, inert_workWrite, inert_setSlot]

theorem inert_dropWork {w s} : inert (dropWork w s) = inert s := rfl

theorem inert_workDone {flashOk s} : inert (workDone flashOk s) = inert s := by
  unfold workDone
  grind [inert_stageDone, inert_dropWork, inert_onFw, inert_onProc, inert_workWrite]

/-! Machine/Restarts.lean. -/

theorem inert_busyAll {p s} : inert (busyAll p s) = inert s := by
  unfold busyAll
  grind [inert_answerBusy, inert_forEach]

theorem inert_failStage {s} : inert (failStage s) = inert s := by
  unfold failStage
  grind [inert_dropWork, inert_onFw, inert_workWrite, inert_setSlot]

theorem inert_rollback {p s} : inert (rollback p s) = inert s := by
  unfold rollback
  grind [inert_onFw, inert_trace, inert_planRestarts, inert_setSlot]

theorem inert_crash {p pt a0 a1 s} : inert (crash p pt a0 a1 s) = inert s := by
  unfold crash
  grind [inert_rollback, inert_onDev, inert_devEvent, inert_busyAll, inert_trace, inert_modProc, inert_failStage]

theorem inert_resumeJobs {leaf s} : inert (resumeJobs leaf s) = inert s := by
  unfold resumeJobs
  grind [inert_delFdir, inert_updJob, inert_dropJob, inert_forEach, inert_markTrace]

theorem inert_loseRequests {leaf s} : inert (loseRequests leaf s) = inert s := by
  unfold loseRequests
  grind [inert_modCas, inert_discardReq, inert_forEach]

theorem inert_setWindows {p s} : inert (setWindows p s) = inert s := rfl
theorem inert_loadImage {p s} : inert (loadImage p s) = inert s := rfl
theorem inert_loadUcode {s} : inert (loadUcode s) = inert s := rfl
theorem inert_bootUcode {s} : inert (bootUcode s) = inert s := rfl

theorem inert_plannedDone {p s} : inert (plannedDone p s) = inert s := by
  unfold plannedDone
  grind [inert_loadUcode, inert_onFw, inert_loadImage, inert_trace, inert_modProc, inert_planRestarts]

theorem inert_restartDone {p s} : inert (restartDone p s) = inert s := by
  unfold restartDone
  grind [inert_fresh, inert_trace, inert_modProc, inert_resumeJobs, inert_loseRequests, inert_plannedDone, inert_pumpAll]

theorem inert_bootSlot {sl s} : inert (bootSlot sl s) = inert s := by
  unfold bootSlot
  grind [inert_onFw, inert_trace, inert_modProc, inert_forEach]

theorem inert_countTrial {s} : inert (countTrial s) = inert s := by
  unfold countTrial
  grind [inert_onFw, inert_setSlot]

theorem inert_readDescriptor {s} : inert (readDescriptor s) = inert s := by
  unfold readDescriptor
  grind [inert_onFw, inert_forEach, inert_setSlot]

theorem inert_romBoot {s} : inert (romBoot s) = inert s := by
  unfold romBoot
  grind [inert_countTrial, inert_onDev, inert_bootSlot, inert_readDescriptor, inert_trace]

/-! Machine/Resets.lean. -/

theorem inert_orphanRec {i d s} : inert (orphanRec i d s) = inert s := by
  unfold orphanRec
  grind [inert_delFdir, inert_updPage, inert_parkFromRec]

theorem inert_endAdmin {c s} : inert (endAdmin c s) = inert s := by
  unfold endAdmin
  grind [inert_setDone, inert_endWaits, inert_forEach]

theorem inert_resetCtx {c s} : inert (resetCtx c s) = inert s := by
  unfold resetCtx
  grind [inert_onJob, inert_endAdmin, inert_orphanRec, inert_forEach, inert_freeCtx]

theorem inert_havocWindows {s} : inert (havocWindows s) = inert s := by
  unfold havocWindows
  grind [inert_havocWindow, inert_forEach]

theorem inert_resetFn {f s} : inert (resetFn f s) = inert s := by
  unfold resetFn
  grind [inert_onBank, inert_delQueue, inert_modFn, inert_onFw, inert_onApw, inert_onMbx]

theorem inert_dropHostMaps {port s} : inert (dropHostMaps port s) = inert s := rfl

theorem inert_beginReset {r s} : inert (beginReset r s) = inert s := by
  unfold beginReset
  grind [inert_onDev]

theorem inert_functionReset {f s} : inert (functionReset f s) = inert s := by
  unfold functionReset
  grind [inert_resetCtx, inert_dropHostMaps, inert_beginReset, inert_dropTest, inert_havocWindows, inert_forEach, inert_pumpAll, inert_resetFn]

theorem inert_casementReset {k s} : inert (casementReset k s) = inert s := by
  unfold casementReset
  grind [inert_resetCtx, inert_delQueue, inert_onDev, inert_beginReset, inert_modFn, inert_dropTest, inert_havocWindows, inert_forEach]

theorem inert_caseReset {v a s} : inert (caseReset v a s) = inert s := by
  unfold caseReset
  grind [inert_casementReset, inert_forEach, inert_pumpAll]

theorem inert_resetDone {i s} : inert (resetDone i s) = inert s := by
  unfold resetDone
  grind [inert_onDev]

theorem inert_clearAll {s} : inert (clearAll s) = inert s := by
  unfold clearAll
  extract_lets t stage idle
  have dropped : inert t = inert s := inert_forEach (fun _ _ => inert_dropTest) _ s
  rw [inert_havocWindows]
  clear_value t stage idle
  exact dropped

theorem inert_deviceReset {s} : inert (deviceReset s) = inert s := by
  unfold deviceReset
  grind [inert_applyCompat, inert_onLb, inert_onDev, inert_onEcc, inert_onPort, inert_onCas, inert_onTherm, inert_clearAll, inert_onLvr, inert_onProc,
    inert_onFar, inert_onEccReg]

theorem inert_devReset {v a s} : inert (devReset v a s) = inert s := by
  unfold devReset
  grind [inert_onDev, inert_deviceReset]

theorem inert_tripClear {v a s} : inert (tripClear v a s) = inert s := by
  unfold tripClear
  grind [inert_endTrip, inert_deviceReset, inert_pumpAll]

theorem inert_coldAssert {s} : inert (coldAssert s) = inert s := by
  unfold coldAssert
  grind [inert_onDev, inert_onCas, inert_onFw, inert_clearAll, inert_onPin]

theorem inert_coldRelease {s} : inert (coldRelease s) = inert s := by
  unfold coldRelease
  grind [inert_applyConfig, inert_onDev, inert_onPin]

/-! Machine/Regs.lean. -/

theorem inert_adminCfg {f a s} : inert (adminCfg f a s) = inert s := by
  unfold adminCfg
  grind [inert_putQueue, inert_modFn, inert_updQueue]

theorem inert_adminDrained {f s} : inert (adminDrained f s) = inert s := by
  unfold adminDrained
  grind [inert_delQueue, inert_headerSignal, inert_modFn, inert_forEach]

theorem inert_apwWrite {f win a s} : inert (apwWrite f win a s) = inert s := by
  unfold apwWrite
  grind [inert_modApw]

theorem inert_compatWrite {v a s} : inert (compatWrite v a s) = inert s := by
  unfold compatWrite
  grind [inert_applyCompat, inert_onDev]

theorem inert_ceCfgWrite {v a s} : inert (ceCfgWrite v a s) = inert s := by
  unfold ceCfgWrite
  grind [inert_onEccReg]

theorem inert_ceClr {v a s} : inert (ceClr v a s) = inert s := by
  unfold ceClr
  grind [inert_forEach, inert_modEcc]

theorem inert_boardWrite {a s} : inert (boardWrite a s) = inert s := by
  unfold boardWrite
  grind [inert_onDev]

theorem inert_hzWrite {f n a s} : inert (hzWrite f n a s) = inert s := rfl

theorem inert_devWrite {v off a s} : inert (devWrite v off a s) = inert s := by
  unfold devWrite
  split
  · exact inert_devReset
  · split
    · exact inert_caseReset
    · split
      · grind [inert_boardWrite]
      · split
        · rfl
        · grind [inert_modFn, inert_apwWrite, inert_hzWrite]

theorem inert_eccWrite {v off a s} : inert (eccWrite v off a s) = inert s := by
  unfold eccWrite
  grind [inert_ceCfgWrite, inert_ceClr, inert_onEccReg]

theorem inert_thermWrite {v off a s} : inert (thermWrite v off a s) = inert s := by
  unfold thermWrite
  grind [inert_onTherm, inert_tripClear]

theorem inert_qWrite {f off a s} : inert (qWrite f off a s) = inert s := by
  unfold qWrite
  grind [inert_adminCfg, inert_modFn, inert_updQueue, inert_pumpAll, inert_ringBell]

theorem inert_mbxWrite {f off a s} : inert (mbxWrite f off a s) = inert s := by
  unfold mbxWrite
  grind [inert_mbxBell, inert_onMbxBuf, inert_modMbx, inert_modFn]

theorem inert_misaligned {v s} : inert (misaligned v s) = inert s := by
  unfold misaligned
  grind [inert_onOut]

theorem inert_regWrite {v off a s} : inert (regWrite v off a s) = inert s := by
  unfold regWrite
  split
  · rfl
  · split
    · exact inert_misaligned
    · split
      · exact inert_devWrite
      · split
        · exact inert_compatWrite
        · grind [inert_qWrite, inert_mbxWrite, inert_thermWrite, inert_eccWrite]

theorem inert_mgmtStart {off v write pecOk s} : inert (mgmtStart off v write pecOk s) = inert s := by
  unfold mgmtStart
  grind [inert_onMgmt]

theorem inert_mgmtDone {s} : inert (mgmtDone s) = inert s := by
  unfold mgmtDone
  grind [inert_regWrite, inert_onMgmt]

theorem inert_jtag {i s} : inert (jtag i s) = inert s := rfl

end Sys2Proof.Machine
end

section
/-! SUPPORT. Every command goes on (16 R555): no command ends in a fault or a refusal, and the fuses and the commands that wait stay. -/

namespace Sys2Proof.Machine

/-- An outcome that goes on from `s` with its fuses and the commands that wait. -/
def GoesOnInert (s : State) (o : Host.Outcome State Fault Refusal) : Prop := ∃ t, o = .next t ∧ inert t = inert s

theorem goesOnInert_next {s t : State} (h : inert t = inert s) : GoesOnInert s (.next t) := ⟨t, rfl, h⟩

/-- Every command goes on, by what the operation that its meaning calls leaves alone. -/
theorem exec_goesOnInert (s : State) : ∀ i : Instr, GoesOnInert s (exec i s)
  | .submissionDoorbell .. => goesOnInert_next (by grind [inert_ringBell])
  | .completionDoorbell .. => goesOnInert_next (by grind [inert_pumpAll, inert_ringBell])
  | .unknownOpcode .. => goesOnInert_next (by grind [inert_attempt, inert_pumpAll, inert_fetchPacket])
  | .nop .. => goesOnInert_next inert_packet
  | .ctxCreate .. => goesOnInert_next inert_packet
  | .ctxDestroy .. => goesOnInert_next inert_packet
  | .queueCreate .. => goesOnInert_next inert_packet
  | .queueDestroy .. => goesOnInert_next inert_packet
  | .queueResume .. => goesOnInert_next inert_packet
  | .caseAssign .. => goesOnInert_next inert_packet
  | .caseRelease .. => goesOnInert_next inert_packet
  | .ctxMigrate .. => goesOnInert_next inert_packet
  | .ctxPriority .. => goesOnInert_next inert_packet
  | .memAlloc .. => goesOnInert_next inert_packet
  | .memFree .. => goesOnInert_next inert_packet
  | .memMapHost .. => goesOnInert_next inert_packet
  | .memFence .. => goesOnInert_next inert_packet
  | .memCopy .. => goesOnInert_next inert_packet
  | .memFill .. => goesOnInert_next inert_packet
  | .descCreate .. => goesOnInert_next inert_packet
  | .descDestroy .. => goesOnInert_next inert_packet
  | .progLoad .. => goesOnInert_next inert_packet
  | .progRun .. => goesOnInert_next inert_packet
  | .progRunCompletion .. => goesOnInert_next (by grind [inert_attempt, inert_runComplete, inert_pumpAll])
  | .progUnload .. => goesOnInert_next inert_packet
  | .skiplogRead .. => goesOnInert_next inert_packet
  | .latchAlloc .. => goesOnInert_next inert_packet
  | .latchFree .. => goesOnInert_next inert_packet
  | .latchSignal .. => goesOnInert_next inert_packet
  | .latchWait .. => goesOnInert_next inert_packet
  | .latchPoison .. => goesOnInert_next inert_packet
  | .latchRead .. => goesOnInert_next inert_packet
  | .latchWaitEval .. => goesOnInert_next (by grind [inert_evalWaits, inert_pumpAll])
  | .headerLatchSignal .. => goesOnInert_next (by grind [inert_headerSignal, inert_pumpAll])
  | .completionRecordPost .. => goesOnInert_next (by grind [inert_attempt, inert_postOldest, inert_pumpAll, inert_scrubOldest])
  | .seqOpen .. => goesOnInert_next inert_packet
  | .seqCommit .. => goesOnInert_next inert_packet
  | .seqDrop .. => goesOnInert_next inert_packet
  | .seqClose .. => goesOnInert_next inert_packet
  | .pageFreeDeferred .. => goesOnInert_next (by grind [inert_freePage, inert_pumpAll])
  | .reqSubmit .. => goesOnInert_next inert_packet
  | .reqCancel .. => goesOnInert_next inert_packet
  | .reqPark .. => goesOnInert_next inert_packet
  | .reqResume .. => goesOnInert_next inert_packet
  | .scrubRange .. => goesOnInert_next inert_packet
  | .selftest .. => goesOnInert_next inert_packet
  | .eccTest .. => goesOnInert_next inert_packet
  | .linkCalib .. => goesOnInert_next inert_packet
  | .fabJoin .. => goesOnInert_next inert_packet
  | .fabLeave .. => goesOnInert_next inert_packet
  | .fabStatus .. => goesOnInert_next inert_packet
  | .pwrSetLimit .. => goesOnInert_next inert_packet
  | .pwrRead .. => goesOnInert_next inert_packet
  | .add .. => goesOnInert_next inert_alu3
  | .sub .. => goesOnInert_next inert_alu3
  | .mul .. => goesOnInert_next inert_alu3
  | .shl .. => goesOnInert_next inert_alu3
  | .shr .. => goesOnInert_next inert_alu3
  | .sra .. => goesOnInert_next inert_alu3
  | .andB .. => goesOnInert_next inert_alu3
  | .orB .. => goesOnInert_next inert_alu3
  | .xorB .. => goesOnInert_next inert_alu3
  | .minS .. => goesOnInert_next inert_alu3
  | .maxS .. => goesOnInert_next inert_alu3
  | .minu .. => goesOnInert_next inert_alu3
  | .maxu .. => goesOnInert_next inert_alu3
  | .addi .. => goesOnInert_next inert_aluI
  | .subi .. => goesOnInert_next inert_aluI
  | .muli .. => goesOnInert_next inert_aluI
  | .shli .. => goesOnInert_next inert_aluI
  | .shri .. => goesOnInert_next inert_aluI
  | .srai .. => goesOnInert_next inert_aluI
  | .andi .. => goesOnInert_next inert_aluI
  | .ori .. => goesOnInert_next inert_aluI
  | .xori .. => goesOnInert_next inert_aluI
  | .mini .. => goesOnInert_next inert_aluI
  | .maxi .. => goesOnInert_next inert_aluI
  | .minui .. => goesOnInert_next inert_aluI
  | .maxui .. => goesOnInert_next inert_aluI
  | .movi .. => goesOnInert_next (by grind [inert_instrStep, inert_coreEff])
  | .movhi .. => goesOnInert_next (by grind [inert_instrStep, inert_coreEff])
  | .gset .. => goesOnInert_next (by grind [inert_instrStep, inert_coreEff])
  | .gnext .. => goesOnInert_next (by grind [inert_instrStep, inert_coreEff])
  | .greset .. => goesOnInert_next (by grind [inert_instrStep, inert_coreEff])
  | .loopOp .. => goesOnInert_next (by grind [inert_instrStep, inert_modCore])
  | .cmp .. => goesOnInert_next (by grind [inert_instrStep, inert_coreEff])
  | .cmpi .. => goesOnInert_next (by grind [inert_instrStep, inert_coreEff])
  | .pand .. => goesOnInert_next (by grind [inert_instrStep, inert_coreEff])
  | .por .. => goesOnInert_next (by grind [inert_instrStep, inert_coreEff])
  | .pnot .. => goesOnInert_next (by grind [inert_instrStep, inert_coreEff])
  | .br .. => goesOnInert_next (by grind [inert_instrStep, inert_modCore])
  | .brl .. => goesOnInert_next (by grind [inert_instrStep, inert_brlEff])
  | .brlResolve .. => goesOnInert_next inert_resolveBrl
  | .ldl .. => goesOnInert_next (by grind [inert_instrStep, inert_coreEff])
  | .stl .. => goesOnInert_next (by grind [inert_instrStep, inert_coreWrote, inert_coreEff, inert_onLocalMem])
  | .lds .. => goesOnInert_next (by grind [inert_instrStep, inert_coreEff])
  | .sts .. => goesOnInert_next (by grind [inert_instrStep, inert_coreWrote, inert_coreEff, inert_onSharedMem])
  | .push .. => goesOnInert_next (by grind [inert_instrStep, inert_pushEff])
  | .waitl .. => goesOnInert_next (by grind [inert_instrStep, inert_modCore, inert_coreEff, inert_stopRun])
  | .sigl .. => goesOnInert_next (by grind [inert_instrStep, inert_signalLatch, inert_newUid, inert_coreEff])
  | .siglSignal .. => goesOnInert_next (by grind [inert_signalLatch, inert_modCore])
  | .poisl .. => goesOnInert_next (by grind [inert_instrStep, inert_coreEff, inert_poisonLatch])
  | .hinge .. => goesOnInert_next (by grind [inert_instrStep, inert_coreEff])
  | .endProgram .. => goesOnInert_next (by grind [inert_instrStep, inert_modCore])
  | .illegalOp .. => goesOnInert_next (by grind [inert_instrStep])
  | .mma .. => goesOnInert_next inert_startTile
  | .drain .. => goesOnInert_next inert_startTile
  | .tnop .. => goesOnInert_next inert_startTile
  | .move .. => goesOnInert_next inert_startMove
  | .prefetch .. => goesOnInert_next (by grind [inert_prefetchCmd, inert_startCmd])
  | .loadop .. => goesOnInert_next inert_startSill
  | .gemv .. => goesOnInert_next inert_startSill
  | .ewise .. => goesOnInert_next inert_startSill
  | .norm .. => goesOnInert_next inert_startSill
  | .deq .. => goesOnInert_next inert_startSill
  | .topk .. => goesOnInert_next inert_startSill
  | .sqGather .. => goesOnInert_next inert_startSill
  | .smxArm .. => goesOnInert_next inert_startSill
  | .smxNorm .. => goesOnInert_next inert_startSill
  | .ucall .. => goesOnInert_next (by grind [inert_startSill])
  | .kvScore .. => goesOnInert_next (by grind [inert_startSill])
  | .kvApply .. => goesOnInert_next (by grind [inert_startSill])
  | .smxMerge .. => goesOnInert_next (by grind [inert_startSill])
  | .gate .. => goesOnInert_next (by grind [inert_startWicket, inert_gateRun])
  | .combine .. => goesOnInert_next (by grind [inert_startWicket, inert_combineRun])
  | .select .. => goesOnInert_next (by grind [inert_startWicket, inert_selectRun])
  | .stepRecord .. => goesOnInert_next (by grind [inert_startWicket, inert_stepRun])
  | .allreduce .. => goesOnInert_next inert_startColl
  | .reduceScatter .. => goesOnInert_next inert_startColl
  | .allgather .. => goesOnInert_next inert_startColl
  | .broadcast .. => goesOnInert_next inert_startColl
  | .mqGather .. => goesOnInert_next inert_startColl
  | .dispatch .. => goesOnInert_next inert_startColl
  | .returnRows .. => goesOnInert_next inert_startColl
  | .ringShift .. => goesOnInert_next inert_startColl
  | .barrier .. => goesOnInert_next inert_startColl
  | .engineCommandCompletion .. => goesOnInert_next (by grind [inert_pumpAll, inert_serveIdle, inert_engineComplete])
  | .runStart => goesOnInert_next (by grind [inert_resumeRun, inert_pumpAll, inert_startRun])
  | .quantumExpiry .. => goesOnInert_next (by grind [inert_requestPreempt])
  | .hingePointReached .. => goesOnInert_next (by grind [inert_hingeReached, inert_pumpAll])
  | .hingeLate .. => goesOnInert_next (by grind [inert_modCore, inert_logSkip])
  | .shutterSave .. => goesOnInert_next (by grind [inert_attempt, inert_spillCluster, inert_pumpAll])
  | .runRestore .. => goesOnInert_next (by grind [inert_attempt, inert_loadArmed, inert_pumpAll, inert_restoreRun])
  | .migrationDrainTimeout .. => goesOnInert_next (by grind [inert_migDone, inert_pumpAll])
  | .burstYield .. => goesOnInert_next (by grind [inert_burstYield, inert_pumpAll])
  | .refreshDue .. => goesOnInert_next (by grind [inert_modBank])
  | .forcedRefresh .. => goesOnInert_next (by grind [inert_startRefresh])
  | .opportunisticRefresh .. => goesOnInert_next (by grind [inert_startRefresh, inert_modBank])
  | .refreshComplete .. => goesOnInert_next (by grind [inert_refreshDone, inert_pumpAll])
  | .hostApertureRead .. => goesOnInert_next (by grind [inert_apRead])
  | .hostApertureWrite .. => goesOnInert_next (by grind [inert_apWrite])
  | .atomicopRequest .. => goesOnInert_next inert_onOut
  | .letterboxLineDrain .. => goesOnInert_next (by grind [inert_drainLine])
  | .mergeEntryDrain .. => goesOnInert_next (by grind [inert_drainMerge])
  | .patrolRow .. => goesOnInert_next (by grind [inert_attempt, inert_patrolRow])
  | .eccBucketLeak .. => goesOnInert_next inert_modEcc
  | .zeroFillDone .. => goesOnInert_next (by grind [inert_delFills, inert_zeroFill, inert_forEach, inert_drainStack])
  | .unitGate .. => goesOnInert_next (by grind [inert_gate])
  | .unitWakeDone .. => goesOnInert_next (by grind [inert_onWake, inert_onGated, inert_pumpAll, inert_serveIdle])
  | .microcodeSwap .. => goesOnInert_next (by grind [inert_onFw, inert_trace])
  | .sensorSample .. => goesOnInert_next inert_sensorSample
  | .thermalTrip .. => goesOnInert_next inert_thermalTrip
  | .tripClear .. => goesOnInert_next inert_tripClear
  | .thermFaultClear .. => goesOnInert_next (by grind [inert_onTherm])
  | .diodeCalibration .. => goesOnInert_next (by grind [inert_onTherm])
  | .controlStep .. => goesOnInert_next inert_controlStep
  | .thermalStepRelease .. => goesOnInert_next (by grind [inert_onLvr])
  | .floorEngage .. => goesOnInert_next inert_floorEngage
  | .floorRelease .. => goesOnInert_next inert_floorRelease
  | .slowNoticeRenew => goesOnInert_next (by grind [inert_onFab, inert_sendOwn])
  | .slowNoticeReceive .. => goesOnInert_next inert_slowNotice
  | .slowNoticeLapse .. => goesOnInert_next (by grind [inert_onFab, inert_relimit])
  | .linkLightOn .. => goesOnInert_next (by grind [inert_setPort])
  | .linkLightLost .. => goesOnInert_next (by grind [inert_darkPort, inert_noticeUpdate, inert_pumpAll])
  | .lanesLocked .. => goesOnInert_next (by grind [inert_pumpAll, inert_linkSend, inert_setPort])
  | .negotiationComplete .. => goesOnInert_next (by grind [inert_pumpAll, inert_negotiated])
  | .laneFail .. => goesOnInert_next (by grind [inert_laneFail, inert_pumpAll])
  | .flitReceive .. => goesOnInert_next (by grind [inert_flitReceive, inert_pumpAll])
  | .negativeAck .. => goesOnInert_next (by grind [inert_negativeAck, inert_pumpAll])
  | .replayTimeout .. => goesOnInert_next (by grind [inert_replayPort, inert_pumpAll])
  | .laneCalibration .. => goesOnInert_next (by grind [inert_laneCalibrated, inert_pumpAll])
  | .calibrationPeriod .. => goesOnInert_next (by grind [inert_modPort, inert_forEach])
  | .stepTimeout .. => goesOnInert_next (by grind [inert_stepTimeout, inert_pumpAll])
  | .joinAnnounce .. => goesOnInert_next (by grind [inert_joinAnnounce, inert_pumpAll])
  | .joinAnnounceRepeat => goesOnInert_next (by grind [inert_servePorts, inert_announceAgain])
  | .joinRefuse .. => goesOnInert_next (by grind [inert_joinRefuse, inert_pumpAll])
  | .groupCommit .. => goesOnInert_next (by grind [inert_commitGroup, inert_pumpAll])
  | .groupAbort => goesOnInert_next (by grind [inert_joinFails, inert_pumpAll])
  | .formationTimeout => goesOnInert_next (by grind [inert_joinFails, inert_sendAll, inert_pumpAll])
  | .lintelBeatSend => goesOnInert_next (by grind [inert_beatOn])
  | .lintelBeat => goesOnInert_next (by grind [inert_onFab, inert_beatOn])
  | .lintelLost => goesOnInert_next (by grind [inert_lintelLost, inert_pumpAll])
  | .lintelAnnounceTimeout => goesOnInert_next (by grind [inert_turnTo, inert_pumpAll, inert_trySucceed])
  | .peerLostReport .. => goesOnInert_next (by grind [inert_peerLost, inert_pumpAll])
  | .memberLost .. => goesOnInert_next (by grind [inert_memberLost])
  | .leave .. => goesOnInert_next (by grind [inert_sendMsg, inert_pumpAll, inert_declareLost])
  | .planPublish .. => goesOnInert_next (by grind [inert_takePlans, inert_pumpAll])
  | .planGraceExpiry .. => goesOnInert_next (by grind [inert_endGrace, inert_pumpAll])
  | .placeStage .. => goesOnInert_next (by grind [inert_takeStage, inert_pumpAll])
  | .placeStaged .. => goesOnInert_next (by grind [inert_servePorts, inert_gotStaged])
  | .placeStagedTimeout .. => goesOnInert_next (by grind [inert_servePorts, inert_stageTimeout])
  | .placeCommit .. => goesOnInert_next (by grind [inert_commitPlace])
  | .placeAbort .. => goesOnInert_next (by grind [inert_abortPlace])
  | .stepReport .. => goesOnInert_next (by grind [inert_servePorts, inert_toLintel, inert_gotReport])
  | .placeRelease .. => goesOnInert_next (by grind [inert_releasePlace])
  | .powerShare .. => goesOnInert_next (by grind [inert_onLvr])
  | .powerShareSend => goesOnInert_next (by grind [inert_servePorts, inert_powerShareSend])
  | .stepBoundary .. => goesOnInert_next (by grind [inert_boundary, inert_pumpAll])
  | .parkStep .. => goesOnInert_next (by grind [inert_attempt, inert_parkStep, inert_pumpAll])
  | .restoreStep .. => goesOnInert_next (by grind [inert_attempt, inert_restoreStep, inert_pumpAll])
  | .ttlSweep .. => goesOnInert_next (by grind [inert_expirePage, inert_forEach, inert_pumpAll])
  | .farDirectoryWalk => goesOnInert_next (by grind [inert_onDev, inert_walkRec, inert_forEach, inert_pumpAll, inert_serviceCheck])
  | .farPortBringup .. => goesOnInert_next (by grind [inert_onDev, inert_onFar, inert_pumpAll, inert_layFar, inert_setFarDown, inert_serviceCheck])
  | .farLinkDown .. => goesOnInert_next (by grind [inert_onFar, inert_setFarDown, inert_eccIrq])
  | .farLinkUp .. => goesOnInert_next (by grind [inert_onDev, inert_onFar, inert_onEccReg])
  | .expanderEvent .. => goesOnInert_next (by grind [inert_trace])
  | .fwVersion .. => goesOnInert_next (by grind [inert_serve])
  | .traceSet .. => goesOnInert_next (by grind [inert_modProc, inert_serve])
  | .attest .. => goesOnInert_next (by grind [inert_addWork, inert_serve])
  | .certRead .. => goesOnInert_next (by grind [inert_busWrite, inert_serve])
  | .fwStage .. => goesOnInert_next (by grind [inert_replyWait, inert_addWork, inert_serve])
  | .fwActivate .. => goesOnInert_next (by grind [inert_onFw, inert_replyWait, inert_addWork, inert_planRestarts, inert_serve])
  | .fwCommit .. => goesOnInert_next (by grind [inert_onFw, inert_replyWait, inert_serve, inert_setSlot])
  | .fwQuery .. => goesOnInert_next (by grind [inert_serve])
  | .cfgWrite .. => goesOnInert_next (by grind [inert_onFw, inert_serve])
  | .fwRestart .. => goesOnInert_next (by grind [inert_planRestarts, inert_serve])
  | .calibPeriod .. => goesOnInert_next (by grind [inert_onFw, inert_serve])
  | .svcConfig .. => goesOnInert_next (by grind [inert_svcConfig, inert_serve])
  | .parkShare .. => goesOnInert_next (by grind [inert_serve, inert_onFar])
  | .ucodeQuery .. => goesOnInert_next (inert_serve fun _ _ => rfl)
  | .lvrStatus .. => goesOnInert_next (inert_serve fun _ _ => rfl)
  | .thermCfg .. => goesOnInert_next (by grind [inert_onTherm, inert_serve])
  | .gateCfg .. => goesOnInert_next (by grind [inert_onLvr, inert_serve])
  | .groupBudget .. => goesOnInert_next (by grind [inert_onFab, inert_toLintel, inert_serve])
  | .floorCfg .. => goesOnInert_next (by grind [inert_onLvr, inert_serve])
  | .unknownMtype .. => goesOnInert_next (by grind [inert_answer])
  | .mailboxWorkDone .. => goesOnInert_next inert_workDone
  | .trialWindowEnd => goesOnInert_next inert_onFw
  | .wdogExpire .. => goesOnInert_next inert_crash
  | .fatalExc .. => goesOnInert_next inert_crash
  | .windowViol .. => goesOnInert_next (by grind [inert_crash])
  | .restartDone .. => goesOnInert_next inert_restartDone
  | .plannedRestart .. => goesOnInert_next (by grind [inert_modProc])
  | .romBoot => goesOnInert_next inert_romBoot
  | .firstStageRelease => goesOnInert_next (by grind [inert_onDev, inert_trace, inert_forEach, inert_setWindows, inert_pumpAll, inert_bootUcode,
    inert_serviceCheck])
  | .stackInService .. => goesOnInert_next (by grind [inert_onDev, inert_pumpAll, inert_serviceCheck])
  | .stackTrainingFail .. => goesOnInert_next (by grind [inert_onDev, inert_pumpAll, inert_serviceCheck])
  | .coldResetAssert => goesOnInert_next (by grind [inert_coldAssert, inert_onPin])
  | .coldResetRelease => goesOnInert_next inert_coldRelease
  | .pwrGoodLow => goesOnInert_next (by grind [inert_coldAssert, inert_onPin])
  | .perstAssert .. => goesOnInert_next (by grind [inert_onPin, inert_functionReset])
  | .hostLinkLoss .. => goesOnInert_next (by grind [inert_functionReset])
  | .functionLevelReset .. => goesOnInert_next inert_functionReset
  | .caseRst .. => goesOnInert_next inert_caseReset
  | .devRst .. => goesOnInert_next inert_devReset
  | .adminQueueEnable .. => goesOnInert_next (by grind [inert_adminCfg])
  | .adminQueueDisable .. => goesOnInert_next (by grind [inert_adminCfg])
  | .adminQueueDrained .. => goesOnInert_next (by grind [inert_adminDrained, inert_pumpAll])
  | .apertureWindowWrite .. => goesOnInert_next inert_apwWrite
  | .compatLevelWrite .. => goesOnInert_next inert_compatWrite
  | .eccCeCfgWrite .. => goesOnInert_next inert_ceCfgWrite
  | .eccCeClr .. => goesOnInert_next inert_ceClr
  | .registerWrite .. => goesOnInert_next inert_regWrite
  | .mgmtRegisterRead .. => goesOnInert_next inert_mgmtStart
  | .mgmtRegisterWrite .. => goesOnInert_next inert_mgmtStart
  | .mgmtAccessDone => goesOnInert_next inert_mgmtDone
  | .mgmtResultRead => goesOnInert_next inert_onOut
  | .mgmtAlertResponse => goesOnInert_next inert_onPin
  | .idcode => goesOnInert_next (by grind [inert_jtag, inert_onOut])
  | .bypass => goesOnInert_next inert_jtag
  | .samplePreload => goesOnInert_next inert_jtag
  | .extest => goesOnInert_next inert_jtag
  | .extestPulse => goesOnInert_next inert_jtag
  | .extestTrain => goesOnInert_next inert_jtag
  | .testLogicReset => goesOnInert_next inert_onPin
  | .perstDeassert .. => goesOnInert_next (by grind [inert_onPin])
  | .leaveAcknowledged => goesOnInert_next (by grind [inert_leaveGroup, inert_fabAnswer, inert_pumpAll])
  | .lostLintelAnnouncement .. => goesOnInert_next (by grind [inert_holdAnnounce, inert_pumpAll, inert_sendMsgV, inert_trySucceed])
  | .lintelStepReport .. => goesOnInert_next (by grind [inert_servePorts, inert_gotReport])
  | .raiseRequest .. => goesOnInert_next (by grind [inert_rebuildPlans, inert_sendMsg, inert_pumpAll])
  | .managementMessageRepeat .. => goesOnInert_next (by grind [inert_servePorts, inert_sendMsg])
  | .selftestDone .. => goesOnInert_next (by grind [inert_selftestDone, inert_pumpAll])
  | .resetComplete .. => goesOnInert_next inert_resetDone

/-- Settles O3: every command goes on, and what no command changes holds both the fuses and the commands that wait. -/
theorem everyCommandGoesOn : Obligations.EveryCommandGoesOn := by
  unfold Obligations.EveryCommandGoesOn
  intro c s
  obtain ⟨t, goes, same⟩ := exec_goesOnInert s c
  obtain ⟨fuse, pending⟩ := Prod.ext_iff.mp same
  exact ⟨t, goes, fuse, pending⟩

end Sys2Proof.Machine
end
